-- ==== Sys2Proof/Word.lean ====
section
/-! DEFINITION. The word types of the model: bytes, multi-byte fields, 64 B lines, and a field held in triplicate. -/

namespace Sys2Proof

abbrev Byte := BitVec 8
abbrev U16 := BitVec 16
abbrev U32 := BitVec 32
/-- A tide number (R13, R114). -/
abbrev U48 := BitVec 48
abbrev U64 := BitVec 64
/-- A protected line, and a mailbox command or response: 64 bytes, byte 0 in bits 7..0 (R8). -/
abbrev Line := BitVec 512

/-- A field stored in triplicate (R12, R339). -/
structure V3 (w : Nat) where
  c0 : BitVec w
  c1 : BitVec w
  c2 : BitVec w
deriving DecidableEq, Repr

/-- The three copies after a write (R339). -/
def V3.all {w : Nat} (v : BitVec w) : V3 w := ⟨v, v, v⟩

end Sys2Proof
end

