-- ==== Sys2Proof/Syntax.lean ====
section
/-! DEFINITION. The commands of the block: one constructor of `Instr` for each row of spec/opcode_table.json, and the
types of their operands (messages, snoop records, plan content). -/

namespace Sys2Proof

/-- The ports through which registers and mailboxes are reached (R272, R313). -/
inductive Port where
  | fbp | mgp | tap | lkp
deriving DecidableEq, Repr

/-- How a mailbox command reaches firmware. `issue`: the command bytes are written, GO follows, and firmware handles
the command in the same step when no earlier take waits. `taken`: firmware begins handling the command that a GO
write took earlier (R318, R320). Log entry 4. -/
inductive CmdSrc where
  | issue (mb : Fin 8) (port : Port) (priv : Bool) (cmd : Line)
  | taken (mb : Fin 8)
deriving DecidableEq, Repr

/-- The three layouts (R63). -/
inductive Layout where
  | c8 | l12 | c16
deriving DecidableEq, Repr

/-- A window or range of addresses, in bytes. -/
structure Span where
  base : Nat
  size : Nat
deriving DecidableEq, Repr

/-- The quota fields of TIER_QUOTA_SET, in MiB, in block order (R40, R327). -/
structure Quotas where
  dataNear : Nat
  dataFar : Nat
  parityBase : Nat
  parity : Nat
  stashNearBase : Nat
  stashNear : Nat
  stashFarBase : Nat
  stashFar : Nat
  stageBase : Nat
  stage : Nat
  offload : Nat
deriving DecidableEq, Repr

/-- One cove of the plan (R68, R69, R106); members are partition ranks in position order. -/
structure CovePlan where
  coveId : U16
  layout : Layout
  rows : Nat
  share : Nat
  members : List Nat
deriving DecidableEq, Repr

/-- A communication group: the partition rank of every rank of the group (R227). -/
structure Group where
  id : U16
  ranks : List Nat
deriving DecidableEq, Repr

/-- A profile: a full expert parameter block for one command of one die (R326). -/
structure Profile where
  rank : Nat
  op : Byte
  number : Nat
  block : Line
deriving DecidableEq, Repr

/-- A move entry of a re-shard: whole tiles from a source rank's region to a destination rank's region (R266). -/
structure MoveEntry where
  srcRank : Nat
  srcRegion : Byte
  srcTile : Nat
  dstRank : Nat
  dstRegion : Byte
  dstTile : Nat
  tiles : Nat
deriving DecidableEq, Repr

/-- The tide-interval policy (R142). -/
structure Policy where
  auto : Bool
  share : Nat
  nFixed : Nat
  nMin : Nat
  nMax : Nat
  costFloorUs : Nat
  priorMtbfS : Nat
deriving DecidableEq, Repr

/-- The content of a cove plan. The specification gives the image no byte layout, so a command that loads a plan
carries the content the image describes (log entry 5). -/
structure Plan where
  coves : List CovePlan
  bayKeys : List U64
  seed : U64
  groups : List Group
  standbys : List Nat
  profiles : List Profile
  quotas : List (Nat × Quotas)
  policy : Policy
  nearRange : Span
  farRange : Span
  /-- near range and far window of each die, where they differ from die to die (R33, R256) -/
  ranges : List (Nat × Span × Span)
  moves : List MoveEntry
  moveKey : U64
deriving DecidableEq, Repr

/-- The master of a presented access (R278). -/
inductive Master where
  | apply | exchange | hygarOther | matrix | generalCore | collective | remote | other
deriving DecidableEq, Repr

/-- A snoop record of a write or an atomic result (R278). -/
structure SnoopRec where
  tag : BitVec 9
  line : U64
  be : U64
  data : Line
  master : Master
deriving DecidableEq, Repr

/-- One record of a fold-store: the line index and the thinned line (R95). -/
structure FsRec where
  line : U16
  thin : List Byte
deriving DecidableEq, Repr

/-- A fold-store (R95); `records` and `payload_len` follow from the records. -/
structure FoldStore where
  ca : Bool
  fwd : Bool
  cove : U16
  origin : Byte
  sender : Byte
  dest : Byte
  view : U16
  tide : U48
  bay : U16
  seq : U32
  recs : List FsRec
deriving DecidableEq, Repr

/-- A close marker (R102). -/
structure Marker where
  cove : U16
  origin : Byte
  sender : Byte
  dest : Byte
  view : U16
  tide : U48
  directPackets : U32
  directRecords : U64
  forwardedRecords : U64
deriving DecidableEq, Repr

/-- A seal message: the header of R124 without its type, and the body. -/
structure SealMsg where
  tree : Bool
  cove : U16
  origin : Byte
  sender : Byte
  dest : Byte
  view : U16
  tide : U48
  destCove : U16
  arg : U32
  body : List Byte
deriving DecidableEq, Repr

/-- A heartbeat (R211). -/
structure Beat where
  health : Byte
  season : Byte
  position : Byte
  jobTag : U32
  cove : U16
  epoch : U16
  seq : U32
deriving DecidableEq, Repr

/-- An agreement, plan, claim or twin message: the header of R217 without its type, and the body. -/
structure AgreeMsg where
  jobTag : U32
  cove : U16
  sender : Byte
  dest : Byte
  epoch : U32
  ballot : U32
  arg : U32
  gtc : U64
  body : List Byte
deriving DecidableEq, Repr

/-- A rebuild packet (R258) without its type; `count` lines or bytes of payload. -/
structure RbMsg where
  parity : Bool
  final : Bool
  stale : Bool
  cove : U16
  target : Byte
  sender : Byte
  dest : Byte
  stage : Byte
  view : U16
  tide : U48
  bay : U16
  base : Byte
  piece : Byte
  depth : U16
  count : Byte
  seq : U32
  payload : List Byte
deriving DecidableEq, Repr

/-- An exchange record (R190) without its type. -/
structure ExRec where
  compressed : Bool
  group : U16
  seq : U32
  sender : BitVec 24
  count : Byte
  dest : BitVec 24
  format : Byte
  first : U64
  covered : U32
  payload : List Byte
deriving DecidableEq, Repr

/-- The status line of an instance (R285). -/
structure StatusLine where
  season : Byte
  health : Byte
  position : Byte
  agreeState : Byte
  jobTag : U32
  cove : U16
  live : U16
  epoch : U32
  sealedTide : U48
  phase : Byte
  gtc : U64
deriving DecidableEq, Repr

/-- What a probe returns (R214). -/
inductive ProbeAns where
  | poison
  | status (line : StatusLine)
deriving DecidableEq, Repr

/-- The W direction of a send queue and its port (R92, R106). -/
inductive Dir where
  | plus | minus
deriving DecidableEq, Repr

/-- Virtual channel of a store at LKP (R286). -/
inductive Vc where
  | va | vf
deriving DecidableEq, Repr

/-- Which unit's load returned poisoned data (R180, R205). -/
inductive LoadUnit where
  | apply
  | reduce (group : U16) (seq : U32)
  | compress
deriving DecidableEq, Repr

/-- Why the GTC input failed (R294). -/
inductive GtcFaultKind where
  | wrongValue | missingEdges
deriving DecidableEq, Repr

/-- A write through HY_LATTICE (R296). -/
inductive LatticeWrite where
  | setEntry (mac : Nat) (entry : Fin 8) (word : BitVec 20) (valid : Bool)
  | makePermanent
deriving DecidableEq, Repr

/-- The group of a ring decode: one missing piece, one base of one row, up to four depths (R257, R258). -/
structure RingId where
  parity : Bool
  target : Byte
  bay : U16
  base : Byte
  piece : Byte
  depth : U16
  count : Byte
deriving DecidableEq, Repr

/-- The commands: the rows of spec/opcode_table.json. -/
inductive Instr where
  -- mailbox commands (R325)
  | fwInfo (src : CmdSrc)
  | statusGet (src : CmdSrc)
  | logRead (src : CmdSrc)
  | partSet (src : CmdSrc)
  | planLoad (src : CmdSrc) (plan : Plan)
  | regionDeclare (src : CmdSrc)
  | coveForm (src : CmdSrc)
  | tideOpen (src : CmdSrc)
  | tideSeal (src : CmdSrc)
  | tidePolicy (src : CmdSrc)
  | recipeLoad (src : CmdSrc)
  | applyRun (src : CmdSrc)
  | exchReduce (src : CmdSrc)
  | exchCompress (src : CmdSrc)
  | tierQuotaSet (src : CmdSrc)
  | prefetchPlan (src : CmdSrc)
  | drainStart (src : CmdSrc)
  | rebuildStart (src : CmdSrc)
  | reshardStart (src : CmdSrc) (plan : Plan)
  | twinPair (src : CmdSrc)
  | powerSet (src : CmdSrc)
  | bistRun (src : CmdSrc)
  | abort (src : CmdSrc)
  | unitFence (src : CmdSrc)
  | latticeRemap (src : CmdSrc)
  | codingSuspend (src : CmdSrc)
  | codingResume (src : CmdSrc)
  | coveRelease (src : CmdSrc)
  | peerClaim (src : CmdSrc)
  | peerRankMove (src : CmdSrc)
  | peerPlan (src : CmdSrc) (plan : Plan)
  -- register accesses
  | mbAck (mb : Fin 8) (port : Port) (priv : Bool)
  | capEn (port : Port) (priv : Bool) (on : Bool)
  | foldEn (port : Port) (priv : Bool) (on : Bool)
  | applyEn (port : Port) (priv : Bool) (on : Bool)
  | exchEn (port : Port) (priv : Bool) (on : Bool)
  | compatA (port : Port) (priv : Bool) (on : Bool)
  | rstCtrlCore (port : Port)
  | rstCtrlSys (port : Port)
  | rstCtrlUnit (port : Port) (units : BitVec 4)
  | errRel (port : Port) (priv : Bool) (n : BitVec 9)
  | errSel (port : Port) (index : Byte)
  | clearOvf (port : Port) (priv : Bool)
  | cntClear (port : Port) (priv : Bool)
  | applyMapWrite (port : Port) (priv : Bool) (value : U32)
  | timeLoRead (port : Port)
  | registerWrite (port : Port) (priv : Bool) (offset : U16) (value : U32)
  -- MSP
  | snoopWrite (r : SnoopRec)
  | snoopAtomicResult (r : SnoopRec)
  | snoopRead (tag : BitVec 9) (line : U64) (master : Master)
  | snoopObserve (r : SnoopRec)
  | oldLineReadReturn (line : U64)
  -- capture and fold
  | captureLine
  | codeRecord
  | foldStoreSend (dir : Dir)
  | foldStore (p : FoldStore)
  | foldRecord
  | paritySlotCopy (lines : Nat)
  | filterSetAck
  | captureDrainDone
  | foldDisableDone
  | closeMarkerSend (dest : Byte)
  | closeMarker (m : Marker)
  -- the seal
  | sealReady
  | markPart (m : SealMsg)
  | ready (m : SealMsg)
  | report (m : SealMsg)
  | commit (m : SealMsg)
  | flipped (m : SealMsg)
  | release (m : SealMsg)
  | abandon (m : SealMsg)
  | query (m : SealMsg)
  | switch (m : SealMsg)
  | sealResend
  | decisionResend
  -- heartbeats, suspicion, agreement
  | heartbeatInstant
  | beat (port : Fin 8) (b : Beat)
  | suspicionTimeout (port : Fin 8)
  | probeReceive (offset : U16)
  | probeResult (rank : Nat) (ans : ProbeAns)
  | watchProbe (port : Fin 8)
  | suspect (m : AgreeMsg)
  | proposeTimer
  | proposeWait
  | retryWait
  | prepare (m : AgreeMsg)
  | promise (m : AgreeMsg)
  | accept (m : AgreeMsg)
  | accepted (m : AgreeMsg)
  | nack (m : AgreeMsg)
  | install (m : AgreeMsg)
  | installed (m : AgreeMsg)
  | noQuorum
  | collAbort (m : AgreeMsg)
  | collStopped (group : U16)
  | renewalPropose
  -- plan broadcast
  | planPart (m : AgreeMsg)
  | planNeed (m : AgreeMsg)
  | planAck (m : AgreeMsg)
  | planSilence
  | planChildProbe (child : Nat)
  | planDiscard
  -- claim, recovery, rebuild
  | claim (m : AgreeMsg) (fromRank : Nat)
  | claimAck (m : AgreeMsg) (fromRank : Nat)
  | rankMove (m : AgreeMsg)
  | rollbackDone
  | ringGroupStart (g : RingId)
  | part (m : RbMsg)
  | ringRestart (g : RingId)
  | pieceReq (m : RbMsg)
  | piece (m : RbMsg)
  | pieceReqRetry (line : U64)
  | tmark (m : RbMsg)
  | tmarkReq (m : RbMsg)
  | mirror (m : RbMsg)
  | handoverCopyDone
  | move (m : RbMsg)
  -- twin mode
  | twinSum (m : AgreeMsg)
  | twinBays (m : AgreeMsg)
  | twinRange (m : AgreeMsg)
  | lkpStoreDiscard (offset : U16) (vc : Vc) (bytes : List Byte)
  -- exchange records
  | exp (r : ExRec)
  | grant (r : ExRec)
  | data (r : ExRec)
  | cancel (r : ExRec)
  | exchReduceComplete (group : U16) (seq : U32)
  | exchCompressComplete
  -- apply and completions
  | applyTileDone (cluster : Fin 4)
  | applyRunComplete
  | coveFormComplete
  | codingResumeComplete
  | prefetchEntryComplete (entry : Nat)
  -- Beacon and power
  | beaconSample (events : List Nat) (temp supply : Byte) (power : U16)
  | wake
  | springStepDone
  | seasonReached
  -- firmware load and reset
  | fwImageTransaction (offset : U32) (bytes : List Byte)
  | bootCheckDone
  | firmwareReady
  | powerOn
  | sysSupply
  | sysThermal
  | resetInitDone
  | watchdogExpiry
  | coreResetStopTimeout
  -- GTC
  | gtcFault (kind : GtcFaultKind)
  | gtcRelock (value : U64)
  -- lattice, fence, BIST
  | patrolScrub (mac : Nat) (tile : Nat) (upset : List (Nat × Byte)) (live : Bool)
  | fenceTestDone (signature : U64)
  | bistUnitDone (signature : U64)
  | referenceEdge (edges : Nat) (value : U64) (rate : BitVec 12)
  | powerRemoval
  | poisonedReadData (unit : LoadUnit) (addr : U64)
  | wrapperInstructionUpdate (code : Option (BitVec 4))
  | hyLatticeAccess (w : LatticeWrite)
  | prefetchPlanComplete
  | planLoadLocalDone
  | digestRecomputeDone
  | twinPeerLost
deriving DecidableEq, Repr

end Sys2Proof
end

