-- ==== Sys2Proof/Decode.lean ====
section
/-! DEFINITION. The commands that a word of the opcode table spells. No row of spec/opcode_table.json gives bits: a
command reaches the block as a message, a register access or an event, never as an instruction word (log entry 17). -/

namespace Sys2Proof

/-- The command a word of `nbits` bits spells by the table's bits: none, since no row has any. -/
def decodeTableWord (_nbits _w : Nat) : Option Instr := none

end Sys2Proof
end

