-- ==== Sys2Proof/Machine/Bits.lean ====
section
/-! DEFINITION. Byte order, bit fields, triplicate fields and small lists: the helpers the meanings share. -/

namespace Sys2Proof

/-- A read of a triplicate field: the bitwise majority of the copies (R339). -/
def V3.get {w : Nat} (v : V3 w) : BitVec w := (v.c0 &&& v.c1) ||| (v.c0 &&& v.c2) ||| (v.c1 &&& v.c2)

/-- Copies that differ from the majority (R339). -/
def V3.faults {w : Nat} (v : V3 w) : Nat :=
  (if v.c0 = v.get then 0 else 1) + (if v.c1 = v.get then 0 else 1) + (if v.c2 = v.get then 0 else 1)

/-- The copies rewritten from the majority (R339). -/
def V3.repair {w : Nat} (v : V3 w) : V3 w := V3.all v.get

namespace Machine

/-- One bit as a number. -/
def bit (b : Bool) : Nat := if b then 1 else 0

/-- A Bool as a one-bit field. -/
def bit1 (b : Bool) : BitVec 1 := if b then 1 else 0

/-- The `n` low bytes of `v`, least significant first (R8). -/
def leBytes : Nat → Nat → List Byte
  | 0, _ => []
  | n + 1, v => BitVec.ofNat 8 v :: leBytes n (v / 256)

/-- The number whose little-endian bytes are given (R8). -/
def leNat : List Byte → Nat
  | [] => 0
  | b :: t => b.toNat + 256 * leNat t

/-- Byte `i` of a 64 B line. -/
def lineByte (l : Line) (i : Nat) : Byte := l.extractLsb' (8 * i) 8

/-- The 64 bytes of a line, lowest offset first. -/
def lineBytes (l : Line) : List Byte := leBytes 64 l.toNat

/-- The line of at most 64 bytes, zero above them. -/
def lineOf (bs : List Byte) : Line := BitVec.ofNat 512 (leNat (bs.take 64))

/-- 32-bit word `i` of a line (R90). -/
def lineWord (l : Line) (i : Nat) : U32 := l.extractLsb' (32 * i) 32

/-- 64-bit word `i` of a line (R137). -/
def lineWord64 (l : Line) (i : Nat) : U64 := l.extractLsb' (64 * i) 64

/-- The field of `size` bytes at offset `off` of a command (R316, R327). -/
def fld (c : Line) (off size : Nat) : Nat := (c.extractLsb' (8 * off) (8 * size)).toNat

/-- A 64 B block from its fields: (offset, size, value); bytes not listed are zero. -/
def mkLine : List (Nat × Nat × Nat) → Line
  | [] => 0
  | (off, size, v) :: t => (BitVec.ofNat 512 (v % 2 ^ (8 * size)) <<< (8 * off)) ||| mkLine t

/-- The field of `size` bytes at offset `off` of a byte list. -/
def fldAt (bs : List Byte) (off size : Nat) : Nat := leNat ((bs.drop off).take size)

/-- The bytes enabled by `be` taken from `new`, the others from `old` (R80, R85). -/
def mergeLine (be : U64) (old new : Line) : Line :=
  lineOf ((List.range 64).map fun i => if be.getLsbD i then lineByte new i else lineByte old i)

/-- Pad with zero bytes to a multiple of `m`. -/
def padTo (m : Nat) (bs : List Byte) : List Byte := bs ++ List.replicate ((m - bs.length % m) % m) 0

/-- Round up to a multiple. -/
def roundUp (m n : Nat) : Nat := (n + m - 1) / m * m

/-- The value a key maps to, with a default. -/
def look {α β : Type} [DecidableEq α] (d : β) (k : α) : List (α × β) → β
  | [] => d
  | (a, b) :: t => if a = k then b else look d k t

/-- The value a key maps to. -/
def find {α β : Type} [DecidableEq α] (k : α) : List (α × β) → Option β
  | [] => none
  | (a, b) :: t => if a = k then some b else find k t

/-- The list with the key mapped to a value, in place or at the end. -/
def put {α β : Type} [DecidableEq α] (k : α) (v : β) : List (α × β) → List (α × β)
  | [] => [(k, v)]
  | (a, b) :: t => if a = k then (k, v) :: t else (a, b) :: put k v t

/-- Add an element that is not yet there. -/
def addNew {α : Type} [DecidableEq α] (x : α) (l : List α) : List α := if x ∈ l then l else l ++ [x]

/-- Replace the first element that satisfies `p`. -/
def replaceFirst {α : Type} (p : α → Bool) (f : α → α) : List α → List α
  | [] => []
  | a :: t => if p a then f a :: t else a :: replaceFirst p f t

/-- Positions whose bit is set, ascending. -/
def bitsOf (w : Nat) (v : BitVec w) : List Nat := (List.range w).filter fun i => v.getLsbD i

/-- The map with the bits of the listed positions set. -/
def maskOf (w : Nat) : List Nat → BitVec w
  | [] => 0
  | p :: t => (BitVec.ofNat w (2 ^ p)) ||| maskOf w t

/-- The map with one bit changed. -/
def setBit {w : Nat} (v : BitVec w) (i : Nat) (b : Bool) : BitVec w :=
  if b then v ||| BitVec.ofNat w (2 ^ i) else v &&& ~~~(BitVec.ofNat w (2 ^ i))

/-- Keep a number inside a range. -/
def clamp (lo hi n : Nat) : Nat := if n < lo then lo else if hi < n then hi else n

/-- A saturating sum. -/
def satAdd (w : Nat) (v : BitVec w) (n : Nat) : BitVec w :=
  if v.toNat + n < 2 ^ w then BitVec.ofNat w (v.toNat + n) else BitVec.allOnes w

/-- The integer square root. -/
def isqrtGo : Nat → Nat → Nat → Nat
  | 0, _, r => r
  | k + 1, n, r => let r' := r + 2 ^ k; if r' * r' ≤ n then isqrtGo k n r' else isqrtGo k n r

def isqrt (n : Nat) : Nat := isqrtGo 64 n 0

/-- Cut a list into pieces of at most `n`. -/
def chunksGo {α : Type} : Nat → Nat → List α → List (List α)
  | 0, _, _ => []
  | fuel + 1, n, l => match l with
    | [] => []
    | _ => l.take n :: chunksGo fuel n (l.drop n)

def chunks {α : Type} (n : Nat) (l : List α) : List (List α) := chunksGo (l.length / n + 1) n l

end Machine
end Sys2Proof
end

