-- ==== Sys2Proof/Machine/Gf.lean ====
section
/-! DEFINITION. Arithmetic in GF(2^8) (R61) and GF(2^64) (R137), and the line terms of the bay digest (R139). -/

namespace Sys2Proof.Machine

/-- Multiply by 0x02 modulo 0x11D (R61). -/
def gfDouble (a : Byte) : Byte := if a.getLsbD 7 then (a <<< 1) ^^^ 0x1D#8 else a <<< 1

def gfMulGo : Nat → Byte → Byte → Byte → Byte
  | 0, _, _, acc => acc
  | n + 1, a, b, acc => gfMulGo n (gfDouble a) (b >>> 1) (if b.getLsbD 0 then acc ^^^ a else acc)

/-- The product in GF(2^8) (R61). -/
def gfMul (a b : Byte) : Byte := gfMulGo 8 a b 0

/-- 0x02 to a power (R358). -/
def gfExp : Nat → Byte
  | 0 => 1
  | n + 1 => gfDouble (gfExp n)

/-- The inverse e^254; 0 for 0 (R61). -/
def gfInv (e : Byte) : Byte :=
  let e2 := gfMul e e
  let e4 := gfMul e2 e2
  let e8 := gfMul e4 e4
  let e16 := gfMul e8 e8
  let e32 := gfMul e16 e16
  let e64 := gfMul e32 e32
  let e128 := gfMul e64 e64
  gfMul (gfMul (gfMul e2 e4) (gfMul e8 e16)) (gfMul (gfMul e32 e64) e128)

/-- A mask with one byte repeated 64 times. -/
def everyByte (b : Nat) : Line := BitVec.ofNat 512 (b * ((2 ^ 512 - 1) / 255))

/-- All 64 bytes of a line multiplied by 0x02 at once. -/
def lineDouble (l : Line) : Line :=
  ((l &&& everyByte 0x7F) <<< 1) ^^^ (((l >>> 7) &&& everyByte 0x01) * 0x1D#512)

def scaleGo : Nat → Byte → Line → Line → Line
  | 0, _, _, acc => acc
  | n + 1, c, l, acc => scaleGo n (c >>> 1) (lineDouble l) (if c.getLsbD 0 then acc ^^^ l else acc)

/-- Every byte of a line multiplied by one coefficient (R62). -/
def scaleLine (c : Byte) (l : Line) : Line := scaleGo 8 c l 0

/-- Multiply by x modulo x^64 + x^4 + x^3 + x + 1 (R137). -/
def gf64Double (a : U64) : U64 := if a.getLsbD 63 then (a <<< 1) ^^^ 0x1B#64 else a <<< 1

def gf64MulGo : Nat → U64 → U64 → U64 → U64
  | 0, _, _, acc => acc
  | n + 1, a, b, acc => gf64MulGo n (gf64Double a) (b >>> 1) (if b.getLsbD 0 then acc ^^^ a else acc)

/-- The product in GF(2^64). -/
def gf64Mul (a b : U64) : U64 := gf64MulGo 64 a b 0

def gf64PowGo : Nat → U64 → Nat → U64
  | 0, _, _ => 1
  | fuel + 1, b, e =>
    let r := gf64PowGo fuel (gf64Mul b b) (e / 2)
    if e % 2 = 1 then gf64Mul b r else r

/-- A power in GF(2^64) of exponent below 2^18. -/
def gf64Pow (b : U64) (e : Nat) : U64 := gf64PowGo 18 b e

def lineTermGo : Nat → Nat → U64 → U64 → Line → U64
  | 0, _, _, _, _ => 0
  | n + 1, u, p, key, d => gf64Mul (lineWord64 d u) p ^^^ lineTermGo n (u + 1) (gf64Mul p key) key d

/-- The digest term of a line: its eight words times the key's powers (R139). -/
def lineTerm (key : U64) (line : Nat) (d : Line) : U64 :=
  if d = 0 then 0 else lineTermGo 8 0 (gf64Pow key (8 * line)) key d

end Sys2Proof.Machine
end

