-- ==== Sys2Proof/Machine/Codes.lean ====
section
/-! DEFINITION. The layouts, the coefficient tables, the placement function, the routes, and the decode of lost
pieces (R63 to R79, R92, R93). -/

namespace Sys2Proof.Machine

/-- Data columns of a stripe (R63). -/
def Layout.k : Layout → Nat
  | .c8 => 6
  | .l12 => 8
  | .c16 => 12

/-- Members of a cove (R63). -/
def Layout.n : Layout → Nat
  | .c8 => 8
  | .l12 => 12
  | .c16 => 16

/-- Parity pieces of a stripe. -/
def Layout.pieces (y : Layout) : Nat := Layout.n y - Layout.k y

/-- Stripe depth E (R63). -/
def Layout.depth (y : Layout) : Nat := (16384 + Layout.k y - 1) / Layout.k y

/-- Parity frame F of a row, in bytes (R63). -/
def Layout.frame (y : Layout) : Nat := Layout.pieces y * Layout.depth y * 64

/-- Losses the layout survives (R76). -/
def Layout.tolerance : Layout → Nat
  | .c8 => 2
  | .l12 => 3
  | .c16 => 4

/-- The code of a layout in a tidemark record (R134). -/
def Layout.code : Layout → Nat
  | .c8 => 0
  | .l12 => 1
  | .c16 => 2

/-- Cauchy rows of a layout, which fix the points y_j (R64). -/
def Layout.cauchy : Layout → Nat
  | .c8 => 2
  | .l12 => 2
  | .c16 => 4

/-- Cauchy row `i`, column `j`: the inverse of x_i xor y_j (R64). -/
def cauchyCoeff (y : Layout) (i j : Nat) : Byte :=
  gfInv (BitVec.ofNat 8 i ^^^ BitVec.ofNat 8 (Layout.cauchy y + j))

/-- The coefficient of data column `j` in parity piece `t`; 0 where the piece does not use the column (R65 to R67). -/
def pieceCoeff (y : Layout) (t j : Nat) : Byte :=
  match y with
  | .c8 => cauchyCoeff .c8 t j
  | .c16 => cauchyCoeff .c16 t j
  | .l12 =>
    if t = 0 then (if j < 4 then 1 else 0)
    else if t = 1 then (if j < 4 then 0 else 1)
    else cauchyCoeff .l12 (t - 2) j

/-- Where a line lies in the code (R70). -/
structure Place where
  pattern : Nat
  slice : Nat
  depth : Nat
  column : Nat
  base : Nat
deriving DecidableEq, Repr

/-- The placement function: line `l` of member bay `b` on position `p` (R70). -/
def place (y : Layout) (p b l : Nat) : Place :=
  let r := b % Layout.n y
  let s := l % Layout.k y
  let j := (s + r) % Layout.k y
  { pattern := r, slice := s, depth := l / Layout.k y, column := j,
    base := (p + Layout.n y - j % Layout.n y) % Layout.n y }

/-- The line index that data column `j` of a stripe has in its bay (R70). -/
def columnLine (y : Layout) (b j depth : Nat) : Nat :=
  let r := b % Layout.n y
  depth * Layout.k y + (j + Layout.k y * Layout.n y - r) % Layout.k y

/-- The position of data column `j` of base `a`. -/
def columnPos (y : Layout) (a j : Nat) : Nat := (a + j) % Layout.n y

/-- The position of parity piece `t` of base `a` (R70). -/
def parityPos (y : Layout) (a t : Nat) : Nat := (a + Layout.k y + t) % Layout.n y

/-- A data column is phantom when its line lies beyond the bay (R71). -/
def phantom (y : Layout) (b j depth : Nat) : Bool := 16384 ≤ columnLine y b j depth

/-- The piece a position holds of the stripes of base `a`: data column, or parity piece. -/
inductive Piece where
  | data (j : Nat)
  | parity (t : Nat)
deriving DecidableEq, Repr

def pieceAt (y : Layout) (a pos : Nat) : Piece :=
  let i := (pos + Layout.n y - a % Layout.n y) % Layout.n y
  if i < Layout.k y then .data i else .parity (i - Layout.k y)

def piecePos (y : Layout) (a : Nat) : Piece → Nat
  | .data j => columnPos y a j
  | .parity t => parityPos y a t

/-- The parity piece that position `q` holds for base `a`, if any (R72). -/
def ownPiece (y : Layout) (a q : Nat) : Option Nat :=
  match pieceAt y a q with
  | .data _ => none
  | .parity t => some t

/-- The headlands of a line: (position, coefficient) of every piece the line changes (R74, R92). -/
def headlands (y : Layout) (p b l : Nat) : List (Nat × Byte) :=
  let pl := place y p b l
  ((List.range (Layout.pieces y)).filter fun t => pieceCoeff y t pl.column ≠ 0).map fun t =>
    (parityPos y pl.base t, pieceCoeff y t pl.column)

/-- The headlands on one side of position `p`, nearest first (R92). -/
def headlandsToward (y : Layout) (p b l : Nat) (d : Dir) : List (Nat × Byte) :=
  let hs := headlands y p b l
  match d with
  | .plus => (List.range (Layout.n y)).flatMap fun q => if p < q then hs.filter (fun h => h.1 = q) else []
  | .minus => (List.range (Layout.n y)).reverse.flatMap fun q => if q < p then hs.filter (fun h => h.1 = q) else []

/-- The next headland of a line beyond position `q` in a direction of travel (R93). -/
def nextHeadland (y : Layout) (origin b l q : Nat) (d : Dir) : Option Nat :=
  match d with
  | .plus => ((headlandsToward y origin b l .plus).map Prod.fst).find? fun h => q < h
  | .minus => ((headlandsToward y origin b l .minus).map Prod.fst).find? fun h => h < q

/-- Offset of a parity line in a slot (R72). -/
def parityOffset (y : Layout) (b t depth : Nat) : Nat := b * Layout.frame y + (t * Layout.depth y + depth) * 64

/-- The row of the generator matrix of a piece, over the data columns (R65 to R67). -/
def pieceRow (y : Layout) : Piece → List Byte
  | .data j => (List.range (Layout.k y)).map fun i => if i = j then 1 else 0
  | .parity t => (List.range (Layout.k y)).map fun i => pieceCoeff y t i

/-- Scale a row, and add two rows, in GF(2^8). -/
def rowScale (c : Byte) (r : List Byte) : List Byte := r.map (gfMul c)

def rowAdd (r s : List Byte) : List Byte := List.zipWith (· ^^^ ·) r s

/-- Gauss–Jordan elimination on rows, column `c` onward for `n` columns; `done` are the rows already reduced. -/
def eliminate : Nat → Nat → List (List Byte) → List (List Byte) → List (List Byte)
  | 0, _, done, _ => done
  | n + 1, c, done, rest =>
    match rest.find? (fun r => r.getD c 0 ≠ 0) with
    | none => eliminate n (c + 1) done rest
    | some piv =>
      let p := rowScale (gfInv (piv.getD c 0)) piv
      let clear := fun r : List Byte => rowAdd r (rowScale (r.getD c 0) p)
      eliminate n (c + 1) (done.map clear ++ [p]) ((rest.erase piv).map clear)

/-- The weights x with x · M = g, for a square nonsingular M given by rows: the transpose is solved. -/
def solveWeights (rows : List (List Byte)) (g : List Byte) : List Byte :=
  let k := rows.length
  let aug := (List.range g.length).map fun i => rows.map (fun r => r.getD i 0) ++ [g.getD i 0]
  (eliminate k 0 [] aug).map fun r => r.getD k 0

/-- The pieces of a stripe of base `a` that a set of lost positions leaves lost. -/
def lostPieces (y : Layout) (a : Nat) (lost : List Nat) : List Piece := lost.map (pieceAt y a)

def lostColumns (y : Layout) (a : Nat) (lost : List Nat) : List Nat :=
  (List.range (Layout.k y)).filter fun j => Piece.data j ∈ lostPieces y a lost

/-- The local group of an L12 column. -/
def localGroup (j : Nat) : Nat := j / 4

/-- The pieces read in the first stage to recover the lost data columns; none beyond tolerance (R77, R78). -/
def stageOne (y : Layout) (a : Nat) (lost : List Nat) : List Piece :=
  let lp := lostPieces y a lost
  let lc := lostColumns y a lost
  match y, lc with
  | _, [] => []
  | .l12, [j] =>
    if Piece.parity (localGroup j) ∉ lp then
      ((List.range 8).filter fun i => localGroup i = localGroup j ∧ i ≠ j).map Piece.data ++
        [Piece.parity (localGroup j)]
    else general lp lc
  | _, _ => general lp lc
where
  general (lp : List Piece) (lc : List Nat) : List Piece :=
    let ds := ((List.range (Layout.k y)).map Piece.data).filter fun q => q ∉ lp
    let ps := ((List.range (Layout.pieces y)).filter fun t =>
      Piece.parity t ∉ lp ∧ ¬ (y = .l12 ∧ t < 2 ∧ lc.all fun j => localGroup j ≠ t)).map Piece.parity
    if (ds ++ ps).length < Layout.k y then [] else (ds ++ ps).take (Layout.k y)

/-- Add a weight to a piece of a combination. -/
def addWeight (q : Piece) (w : Byte) (c : List (Piece × Byte)) : List (Piece × Byte) :=
  put q (look 0 q c ^^^ w) c

/-- A lost data column as a combination of the pieces of the first stage (R78): fewer than k pieces are the local group of
an L12 column, or none. -/
def columnCombo (y : Layout) (a : Nat) (lost : List Nat) (j : Nat) : List (Piece × Byte) :=
  let ps := stageOne y a lost
  if ps.length < Layout.k y then ps.map fun q => (q, 1)
  else List.zip ps (solveWeights (ps.map (pieceRow y)) (pieceRow y (.data j)))

/-- A lost piece as a combination of surviving pieces: the two stages of R78 in one. -/
def combo (y : Layout) (a : Nat) (lost : List Nat) (target : Piece) : List (Piece × Byte) :=
  let lc := lostColumns y a lost
  let raw := match target with
    | .data j => columnCombo y a lost j
    | .parity t =>
      ((List.range (Layout.k y)).filter fun j => pieceCoeff y t j ≠ 0).foldl (fun acc j =>
        if j ∈ lc then
          (columnCombo y a lost j).foldl (fun acc (qw : Piece × Byte) => addWeight qw.1 (gfMul (pieceCoeff y t j) qw.2) acc) acc
        else addWeight (.data j) (pieceCoeff y t j) acc) []
  raw.filter fun qw => qw.2 ≠ 0

end Sys2Proof.Machine
end

