-- ==== Sys2Proof/Config.lean ====
section
/-! DEFINITION. What the specification leaves open: values no rule states. Each is an opaque constant, so nothing can be proved of the value it takes. -/

namespace Sys2Proof.Config

/-- Byte that memory outside protected regions holds after the `gen`-th recovery (R32: undefined). Log entry 7. -/
opaque freeByte (gen : Nat) (addr : Nat) : Byte

/-- Value of a vector register lane, or of a mask register bit, that a recipe reads before it writes it
(R150: undefined), for the `n`-th free value drawn. Log entry 16. -/
opaque freeLane (n : Nat) : U32

/-- Compression blocks beyond the one in progress that an EXCH_COMPRESS finishes before its stop takes effect (R206:
a matter of timing), for the `n`-th free value drawn. Log entry 40. -/
opaque freeBlocks (n : Nat) : Nat

/-- What the exponent field of a block-fixed block holds when the exponent lies outside the 16-bit range of ordinary
blocks (R183, R195: no result stated). Log entry 41. -/
opaque freeExponent (q : Int) : U16

/-- Which line a full touch cache gives up (R88: no rule states it), for the `n`-th free value drawn. Log entry 15. -/
opaque freeVictim (n : Nat) : Nat

/-- Offset in a plan image of the byte a rejected plan's detail names, by the plan's number (R40: the image has no byte
layout). Log entry 5. -/
opaque freeOffset (n : Nat) : U16

/-- Vectors of its tile that a cluster finishes before a stop at a vector boundary (R180: a matter of timing), for the
`n`-th free value drawn. Log entry 80. -/
opaque freeVectors (n : Nat) : Nat

/-- elapsed_ns of an apply run of which no write was captured (R181: no result stated), for the `n`-th free value drawn.
Log entry 81. -/
opaque freeElapsed (n : Nat) : U64

/-- Address of the LKP window of the die at a package coordinate and index, in the die's fabric map (R284: the map is the
integrator's). Log entry 91. -/
opaque windowAddress (x y z die : Nat) : U64

end Sys2Proof.Config
end

