-- ==== Sys2Proof/Machine/State.lean ====
section
/-! DEFINITION. The state of one Hygar instance, as plain data: every register, queue, buffer, memory and mode the
specification gives it, the queue of waiting commands, and the state after a power-on reset. -/

namespace Sys2Proof.Machine

/-- Reasons to stop with a fault. -/
inductive Fault where
  /-- Raised by no command of this model: the specification gives every row of the table an effect, and every
  access of the model's memory exists. Safe (never raised). Log entry 18. -/
  | unreachable
deriving DecidableEq, Repr

/-- Reasons to refuse. -/
inductive Refusal where
  /-- Raised by an arm of `exec` whose command has no meaning yet. Safe: nothing is claimed of it. -/
  | notModelled (mnemonic : String)
deriving DecidableEq, Repr

/-- Values fixed at manufacture or by the package strap (R342, R353, R397). -/
structure Fuses where
  lcs : BitVec 2
  die : BitVec 6
  fbRows : Byte
  fbCols : Byte
  psRows : Byte
  psCols : Byte
  /-- (set, unit, signature) (R397) -/
  signatures : List (Nat × Nat × U64)
deriving DecidableEq, Repr

/-- HY_CTRL and APPLY_MAP (R344, R147). -/
structure Ctrl where
  capEn : V3 1
  foldEn : V3 1
  applyEn : V3 1
  exchEn : V3 1
  compatA : V3 1
  phys0 : V3 3
  phys1 : V3 3
  phys2 : V3 3
  phys3 : V3 3
deriving DecidableEq, Repr

/-- HY_STAT, but for ERR_UNCORR, which the error log gives (R346). -/
structure HyStat where
  cfgIgnored : Bool
  capState : BitVec 2
  foldState : BitVec 2
  fwState : V3 3
  fwCause : BitVec 3
  evtOvf : Byte
  /-- an enable set again during a stop (R345): takes effect once the stop has ended -/
  capAgain : Bool
  foldAgain : Bool
  /-- the mailbox of a DRAIN_START or CODING_SUSPEND that the capture stop serves -/
  drainMb : Option (Fin 8)
  suspendMb : Option (Fin 8)
deriving DecidableEq, Repr

/-- Where a reset stands (R383 to R385, R391). -/
inductive ResetPhase where
  | running
  /-- reset block writing macros and registers (R384 step 2) -/
  | initialising
  /-- core reset waiting for the apply stop (R383) -/
  | coreStopping (since : U64)
  /-- boot ROM and firmware restarting after a core reset (R385) -/
  | coreBooting
deriving DecidableEq, Repr

/-- RST_CAUSE and the reset block (R347, R382). -/
structure ResetS where
  por : Bool
  sysMgp : Bool
  sysSupply : Bool
  sysThermal : Bool
  coreMgp : Bool
  coreWdog : Bool
  unit : BitVec 4
  phase : ResetPhase
  /-- a core reset held behind a season transition or a BIST run (R382): (from RST_CTRL, from the watchdog) -/
  heldMgp : Bool
  heldWdog : Bool
  /-- results that the FAULT responses after a core reset carry: (mailbox, results) (R312, R383) -/
  results : List (Fin 8 × List (Nat × Nat × Nat))
deriving DecidableEq, Repr

/-- The image memory and the boot ROM (R308 to R312). -/
structure FwS where
  image : List Byte
  /-- offset of the next transaction the boot ROM expects -/
  expected : Nat
  /-- length that the header of the image gives, once the checks of it have passed -/
  length : Nat
  /-- the boot ROM has passed the digest, and firmware starts (R310 step 4) -/
  checked : Bool
deriving DecidableEq, Repr

/-- A command copied at its take, with the attributes of its GO (R318, R322). -/
structure TakenCmd where
  cmd : Line
  port : Port
  priv : Bool
deriving DecidableEq, Repr

/-- One mailbox (R315). -/
structure Mailbox where
  cmd : Line
  rsp : Line
  code : Byte
  busy : Bool
  done : Bool
  long : Bool
  overrun : Bool
  count : U16
  op : Byte
  tag : U16
  /-- the command taken whose final response is not yet written -/
  taken : Option TakenCmd
deriving DecidableEq, Repr

structure MailboxS where
  boxes : Vector Mailbox 8
  /-- mailboxes whose taken command firmware has not begun to handle, in take order (R320) -/
  waiting : List (Fin 8)
  /-- peer commands the agreement unit has not yet written into mailbox 7 (R313) -/
  peer : List Line
deriving DecidableEq, Repr

/-- The partition PART_SET gave (R230). Package coordinates are (x, y, z). -/
structure Partition where
  id : U16
  jobTag : U32
  lo : Nat × Nat × Nat
  hi : Nat × Nat × Nat
  own : Nat × Nat × Nat
  die : Nat
deriving DecidableEq, Repr

/-- Job state, partition, plan, and where ranks and positions live now (R324, R223, R256). -/
structure JobS where
  /-- 0 NO_PART, 1 PARTITIONED, 2 PLANNED, 3 FORMED, 4 EXCLUDED -/
  state : BitVec 3
  part : Option Partition
  plan : Option Plan
  /-- the plan that a PLAN_LOAD or PEER_PLAN is taking, with its mailbox and whether it came from a RESHARD_START -/
  taking : Option (Fin 8 × Plan × Bool)
  /-- rank changes held for page 2 of STATUS_GET: (job rank, partition rank) -/
  rankChanges : List (Nat × Nat)
  /-- COVE_FORM has run for the job (R41) -/
  formed : Bool
  /-- an excluded instance's former position (R253) -/
  former : Option (U16 × Nat)
deriving DecidableEq, Repr

/-- Memory reached through MSP: bytes by address, and what recovery left undefined (R32, R249). -/
structure Mem where
  cells : List Host.Cell
  /-- half-open ranges of undefined bytes, each with the generation that names its free values -/
  undef : List (Nat × Nat × Nat)
  /-- recoveries so far: names the free values -/
  gen : Nat
deriving DecidableEq, Repr

/-- A declared region (R33, R37). -/
structure Region where
  id : Byte
  protected_ : Bool
  placement : BitVec 2
  cove : U16
  bays : Nat
  firstBay : Nat
  nearBase : Nat
  farBase : Nat
  nearBays : Nat
deriving DecidableEq, Repr

/-- An entry of the prefetch schedule (R50, R328) and its progress in the current step. -/
structure PfEntry where
  action : Byte
  region : Byte
  position : U16
  lead : Byte
  firstTile : U32
  tiles : U32
  nearAddr : U64
  started : Bool
  done : Bool
  late : Bool
  /-- ended without its data at the destination: a malformed mask, or no room in STAGE when it was due (R48, R56) -/
  failed : Bool
deriving DecidableEq, Repr

/-- An entry in flight (R51, R52): its place in the schedule, the step it was started in, for ROWS the mask read at
its start (R55), and whether it waits for room in the STAGE window (R42). -/
structure Flight where
  index : Nat
  entry : PfEntry
  step : U64
  mask : List Byte
  stalled : Bool
deriving DecidableEq, Repr

/-- A staged tile of a far bay (R47), with the position and step of the entry that last named it (R48). -/
structure StagedTile where
  region : Byte
  tile : Nat
  addr : Nat
  position : U16
  step : U64
deriving DecidableEq, Repr

/-- A resident row and its slot (R55, R56). -/
structure RowSlot where
  region : Byte
  row : Nat
  shift : Nat
  slot : Nat
  valid : Bool
deriving DecidableEq, Repr

/-- The tier mover: regions, quotas, schedule, cursor, staged data (R33 to R58, R369). -/
structure TierS where
  regions : List Region
  quotas : Quotas
  schedule : List PfEntry
  /-- entries started and not ended, in start order (R51, R52) -/
  flight : List Flight
  /-- a PREFETCH_PLAN being checked: mailbox, entries, cursor line, progress line, and whether no view change has come
  since it was taken (R58) -/
  loading : Option (Fin 8 × List PfEntry × U64 × U64 × Bool)
  cursorLine : Option U64
  progressLine : Option U64
  position : U16
  step : U64
  maskSeq : U32
  haltFlag : Bool
  staged : List StagedTile
  rows : List RowSlot
  /-- last mask sequence served per region (R55) -/
  lastSeq : List (Byte × U32)
  halted : BitVec 4
deriving DecidableEq, Repr

/-- Kind of a presented access (R278). -/
inductive AccessKind where
  | write | atomic | read
deriving DecidableEq, Repr

/-- A presented access held without a verdict (R19, R261, R278). -/
structure Held where
  kind : AccessKind
  acc : SnoopRec
deriving DecidableEq, Repr

/-- An outstanding old-line read and the writes it serves, in presentation order (R81, R85, R86). -/
structure OldRead where
  addr : Nat
  recs : List Held
deriving DecidableEq, Repr

/-- A line of the capture queue: its place, its old and new value (R83); for a merged narrow write, the records it
absorbs and their masters: the merged line is written once its delta has been handed on (R85, R280). -/
structure CapLine where
  bay : Nat
  line : Nat
  old : Line
  new : Line
  tags : List (BitVec 9)
  masters : List Master
deriving DecidableEq, Repr

/-- The record in the GF array, and the directions it is still to be coded for (R92, R108). -/
structure DeltaRec where
  bay : Nat
  line : Nat
  delta : Line
  plus : Bool
  minus : Bool
deriving DecidableEq, Repr

/-- A line of the touch cache: its number in the touch map, its content, and whether the map's line is older (R88). -/
structure TouchLine where
  index : Nat
  data : Line
  dirty : Bool
deriving DecidableEq, Repr

/-- A verdict on a presented access (R278). -/
inductive Verdict where
  | pass | absorb
deriving DecidableEq, Repr

/-- A range entry of the snoop filter (R277). -/
structure FilterEntry where
  base : Nat
  size : Nat
  snoopR : Bool
deriving DecidableEq, Repr

/-- The capture unit, the snoop filter and the ebb stash (R80 to R89, R110, R121, R277). -/
structure CapS where
  filter : List FilterEntry
  lineEntry : Option U64
  /-- FILTER_SET updates the memory controller has not acknowledged -/
  filterPending : Nat
  held : List Held
  oldReads : List OldRead
  queue : List CapLine
  /-- the record in the GF array, at most one -/
  records : List DeltaRec
  /-- the pass of deltas against zero: the next line, counted over the declared bays (R114, R379) -/
  pass : Option Nat
  verdicts : List (BitVec 9 × Verdict)
  /-- rows whose protected writes wait for a digest recomputation (R371) -/
  recompute : List Nat
  /-- touch-map lines whose valid bit is set (R121) -/
  touchValid : List Nat
  /-- the touch cache, at most 2048 lines (R88) -/
  touchCache : List TouchLine
  nearFill : Nat
  farFill : Nat
  /-- an enforced hold: NO_QUORUM, EXCLUDED or WITHDRAW (R224, R225, R370) -/
  barred : Bool
deriving DecidableEq, Repr

/-- A record in a send queue (R92, R93, R96). -/
structure SendItem where
  dest : Nat
  ca : Bool
  fwd : Bool
  origin : Nat
  bay : Nat
  line : Nat
  thin : List Byte
  tide : U48
deriving DecidableEq, Repr

/-- A receive stream (R97). -/
structure Stream where
  origin : Nat
  sender : Nat
  next : U32
  broken : Bool
deriving DecidableEq, Repr

/-- A record in the fold buffer (R98, R99). -/
structure FbRec where
  origin : Nat
  fwd : Bool
  bay : Nat
  line : Nat
  coded : Bool
  thin : List Byte
deriving DecidableEq, Repr

/-- The fold channel (R92 to R112, R403). -/
structure FoldS where
  sendPlus : List SendItem
  sendMinus : List SendItem
  tokPlus : Nat
  tokMinus : Nat
  /-- rebuild buckets (R258) -/
  rbTokPlus : Nat
  rbTokMinus : Nat
  share : Nat
  nextShare : Nat
  /-- next seq of each sending stream: (origin, destination, seq) -/
  seqs : List (Nat × Nat × U32)
  /-- per destination: direct records coded so far, and records that reach it forwarded (R102) -/
  directSent : List (Nat × Nat)
  fwdSent : List (Nat × Nat)
  streams : List Stream
  buffer : List FbRec
  /-- the buffer has passed high-water and not yet fallen to low-water (R108) -/
  high : Bool
  /-- records folded per origin: (origin, direct, forwarded) (R104) -/
  folded : List (Nat × Nat × Nat)
  /-- bytes of the working slot copied so far; none when no copy is due (R100) -/
  copyCursor : Option Nat
deriving DecidableEq, Repr

/-- What a captain reports for its cove (R124, R131). -/
structure Report where
  cove : U16
  tide : U48
  state : Nat
  losses : Nat
  costNs : Nat
  /-- a view change in the job is known that came after this report (R132) -/
  stale : Bool
deriving DecidableEq, Repr

/-- The decision of the seal root (R132): COMMIT with its body, or ABANDON with its reason. -/
inductive Decision where
  | commit (nNext : U16) (losses : U32)
  | abandon (reason : U32)
deriving DecidableEq, Repr

/-- The tide controller (R114 to R144). -/
structure SealS where
  slot : V3 1
  phase : V3 3
  tideLo : V3 32
  tideHi : V3 16
  n : V3 13
  steps : BitVec 13
  /-- the mailbox whose TIDE_SEAL started the seal -/
  mailbox : Option (Fin 8)
  /-- COVE_FORM, or CODING_RESUME, in progress, with its mailbox; with none where a core reset answered it, while the
  parts that carry the work run on (R114, R312, R379) -/
  forming : Option (Option (Fin 8))
  resuming : Option (Option (Fin 8))
  /-- address of the seal input block of the sealing TIDE_SEAL -/
  block : U64
  /-- TIDE_SEAL commands counted since COVE_FORM (R134) -/
  counted : U64
  gtcClose : U64
  ownRecord : List Byte
  /-- destinations that have the record fragments and the close marker -/
  closeSent : List Nat
  parts : List (Nat × List Byte)
  markers : List Marker
  readies : List (Nat × List Byte)
  reports : List Report
  /-- child coves that the root has sent QUERY for the tide since the last view change (R132) -/
  queried : List U16
  /-- losses each child cove has reported since the last COMMIT (R143) -/
  childLosses : List (U16 × Nat)
  /-- the upward message last sent, to be sent again every 200 µs (R127): REPORT state and tide, or FLIPPED, and when -/
  upReport : Option (Nat × U48 × U64)
  upFlipped : Option U64
  /-- decision held, and the tide it decides -/
  decision : Option (U48 × Decision)
  released : Bool
  /-- positions of the own cove whose flip is known, and child coves that have flipped (R125 steps 8, 9) -/
  flips : List Nat
  childFlips : List U16
  /-- members of cove 0 that have acknowledged COMMIT, RELEASE, ABANDON (arg, position) (R128) -/
  acks : List (U32 × Nat)
  rootSent : U64
  /-- downward messages already passed to the child coves: 0 COMMIT, 1 RELEASE, 2 ABANDON (R128) -/
  passedDown : List U32
  /-- after COMMIT(t) of a LOSS, ABANDON(t + 1) follows RELEASE(t) (R244) -/
  abandonNext : Bool
  /-- the COMMIT held counts a loss that no recovery of its flood has answered; the open flood has been abandoned and
  reopened (R251 FORWARD) -/
  lossSeal : Bool
  reopened : Bool
  jobStart : U64
  jobLosses : Nat
  lossesHere : Nat
  costNs : Nat
  firstApply : Option Nat
  laterApplySum : Nat
  laterApplyCount : Nat
  holdSince : Option U64
  holdNs : Nat
  floodGtc : U64
  lastStep7 : Option U64
  policy : Policy
  nextPolicy : Policy
  /-- the span of R380: no tide to restore -/
  noTide : Bool
  /-- tide whose tidemark supplies page 1 of STATUS_GET (R136), with the 4224 B -/
  stepRecord : Option (U48 × List Byte)
deriving DecidableEq, Repr

/-- The ACCEPT a member last accepted (R220). -/
structure Accepted where
  ballot : U32
  live : U16
  reason : U32
  joining : U32
deriving DecidableEq, Repr

/-- A PROMISE held by a proposer (R217, R221). -/
structure Promised where
  pos : Nat
  acc : Option Accepted
  info : List Byte
deriving DecidableEq, Repr

/-- A proposal in progress (R221). -/
structure Proposal where
  epoch : U32
  ballot : U32
  accepting : Bool
  promises : List Promised
  acceptedBy : List Nat
  nackMax : U32
  answered : List Nat
  live : U16
  reason : U32
  joining : U32
  since : U64
deriving DecidableEq, Repr

/-- Why a probe was issued. -/
inductive ProbeWhy where
  | suspicion (pos : Nat)
  | port (port : Fin 8)
  | watch (port : Fin 8)
  | lower (pos : Nat)
  | planParent
  | planChild (rank : Nat)
  | rebuildView
deriving DecidableEq, Repr

/-- The agreement unit (R211 to R231, R285). -/
structure AgreeS where
  state : BitVec 3
  position : BitVec 4
  live : V3 16
  epoch : V3 32
  /-- the cove the instance belongs to -/
  cove : Option U16
  /-- partition rank at each position of the own cove -/
  posRank : List Nat
  /-- positions of other coves that moved: (cove, position, rank) -/
  moved : List (U16 × Nat × Nat)
  lastBeat : Vector U64 8
  /-- the port has already been suspected since its last beat -/
  portSuspect : BitVec 8
  /-- the port's last heartbeat of the job named season Winter (R242) -/
  wintering : BitVec 8
  /-- missed heartbeat intervals: up to when each port's are counted, and those of the sample period (R232) -/
  missMark : Vector U64 8
  missed : Nat
  watchAt : List (Fin 8 × U64)
  suspects : List Nat
  confirmed : List Nat
  firstSuspicion : Option U64
  promised : U32
  accepted : Option Accepted
  round : Nat
  proposal : Option Proposal
  /-- views firmware wishes: position (16: none), reason, joining rank (R219, R247, R256, R265) -/
  wishes : List (Nat × U32 × U32)
  timerAt : Option U64
  retryAt : Option U64
  /-- INSTALLs held, by their epochs (R220) -/
  installs : List AgreeMsg
  /-- seal information gathered by the captain: (position, information) -/
  infos : List (Nat × List Byte)
  reportDue : Bool
  /-- aborts relayed: (cove, epoch, group) (R227) -/
  relayed : List (U16 × U32 × U32)
  probes : List (Nat × ProbeWhy)
  /-- positions removed by the last LOSS view (R330) -/
  removed : U16
  withdrawn : Bool
  renewalDue : Bool
  health : Byte
  statusLine : StatusLine
deriving DecidableEq, Repr

/-- The plan broadcast (R239 to R241). -/
structure BcastS where
  /-- partition ranks of the children served, with the next fragment each acknowledged subtree -/
  children : List Nat
  acked : List (Nat × Nat × Nat)
  lostChildren : List Nat
  parent : Option Nat
  ballot : U32
  length : Nat
  digest : List Byte
  /-- fragments held in order -/
  fragments : List (List Byte)
  complete : Bool
  reshard : Bool
  mismatches : Nat
  ended : Bool
  /-- the receiver's part has ended with FAULT (R240) -/
  failed : Bool
  lastFragment : U64
  /-- when the last fragment went to each child -/
  sentAt : List (Nat × U64)
  /-- mailbox of the distributing command on rank 0 -/
  mailbox : Option (Fin 8)
  /-- rank of the relay whose PLAN_PART woke the instance (R236) -/
  wokeBy : Option Nat
deriving DecidableEq, Repr

/-- A claim granted (R254), or the position a REBUILD_START takes (R255). -/
structure Grant where
  cove : U16
  position : Nat
  epoch : U32
  live : U16
  captainRank : Nat
  share : Nat
  handover : Bool
  restored : U48
deriving DecidableEq, Repr

/-- A REBUILD_START that is learning the cove's view by probes (R255). -/
structure RebuildAsk where
  mailbox : Fin 8
  cove : U16
  position : Nat
  share : Nat
  handover : Bool
  asked : List Nat
  answers : List StatusLine
deriving DecidableEq, Repr

/-- A line being reconstructed on read (R261): replies are (sender, tide, product). -/
structure LineReq where
  bay : Nat
  line : Nat
  /-- 0 for reconstruct-on-read; else which surviving piece a repeated decode omits (R262) -/
  sel : Nat
  sentAt : U64
  replies : List (Nat × U48 × Line)
deriving DecidableEq, Repr

/-- A row the target is verifying (R262): rebuilt lines and their digest so far, and, while a failed row is decoded
again, the selection tried and its decoded lines. -/
structure RowCheck where
  row : Nat
  digest : U64
  lines : Nat
  accessed : Bool
  done : Bool
  sel : Nat
  redo : List (Nat × Line)
deriving DecidableEq, Repr

/-- The shadow of a re-shard: the new plan, regions and windows, the new cove as it forms, and the tiles that have come
(R266, R267). `got`: lines received of a tile; `doneTiles`: tiles whole; `retried`: tiles asked for a second time. -/
structure Shadow where
  plan : Plan
  regions : List Region
  quotas : Quotas
  digests : List (Nat × U64)
  agree : AgreeS
  tide : SealS
  mailbox : Option (Fin 8)
  got : List (Byte × Nat × List Nat)
  doneTiles : List (Byte × Nat)
  retried : List (Byte × Nat)
  /-- checks of a lost rank's tiles, part by part: (region, line), the line's term (R267) -/
  parts : List ((Byte × Nat) × U64)
  passed : Bool
deriving DecidableEq, Repr

/-- The outgoing or incoming side of a handover (R264, R265). -/
structure Handover where
  outgoing : Bool
  position : Nat
  peerRank : Nat
  /-- lines copied so far; the copy is finished when `finished` -/
  cursor : Nat
  finished : Bool
  cutover : Bool
deriving DecidableEq, Repr

/-- Recovery and the rebuild unit (R243 to R268). -/
structure RecS where
  state : V3 4
  target : Bool
  forward : Bool
  lost : V3 16
  tide : U48
  rowsDone : U32
  rollingBack : Bool
  /-- standbys tried, and the one asked (R254) -/
  tried : Nat
  asked : Option (Nat × Nat)
  grant : Option Grant
  ask : Option RebuildAsk
  mailbox : Option (Fin 8)
  share : Nat
  /-- parity groups landed on the target -/
  parityDone : List RingId
  /-- ring packets and PIECE_REQ that wait for RELEASE: (type, packet) (R257) -/
  waiting : List (Byte × RbMsg)
  rows : List RowCheck
  /-- row digests of the own record of the restored tide, against which rebuilt rows are verified (R262) -/
  expected : List (Nat × U64)
  reqs : List LineReq
  /-- ring groups started or passed on in this recovery -/
  groupsLeft : List RingId
  /-- when the first holder last started a group (R258) -/
  restartAt : List (RingId × U64)
  seqs : List (Nat × U32)
  /-- fragments of the tidemark store area received (R256) -/
  tmark : List (Nat × List Byte)
  /-- manifest line obtained from a second survivor -/
  tmarkCheck : Option (List Byte)
  tmarkFrom : Nat
  tmarkMisses : Nat
  halted : BitVec 4
  handover : Option Handover
  /-- what a captain knows of a handover in its cove: position, rank of the target, copy finished (R265) -/
  hoKnown : Option (Nat × Nat × Bool)
  /-- the copy had finished when this seal started: it is the cutover's (R265) -/
  hoSeal : Bool
  shadow : Option Shadow
deriving DecidableEq, Repr

/-- Twin mode (R269 to R271). -/
structure TwinS where
  state : BitVec 3
  divEvt : Bool
  tide : U48
  bay : U16
  line : BitVec 14
  lineValid : Bool
  peer : Option Nat
  mode : Byte
  /-- the tide last compared (R270) -/
  compared : Option U48
  /-- own summaries of the last two tides, and the peer's last two -/
  own : List (U48 × List Byte)
  theirs : List (U48 × List Byte)
  rowsChecked : Bool
  mailbox : Option (Fin 8)
  /-- range of lines under search -/
  lo : Nat
  hi : Nat
deriving DecidableEq, Repr

/-- A layer entry of a recipe (R171). -/
structure LayerEntry where
  position : U16
  elements : Nat
  elemBase : Nat
  bases : List Nat
  redTileBase : Nat
deriving DecidableEq, Repr

/-- A recipe in recipe memory (R167): `length` is its image's bytes. -/
structure Recipe where
  id : Nat
  length : Nat
  slots : List U64
  scalars : List U32
  /-- (format, tensor_id) -/
  streams : List (Nat × U16)
  layers : List LayerEntry
deriving DecidableEq, Repr

/-- Why an apply run or an exchange command stops; `coreLost`: a core reset's stop that a view change has released. -/
inductive StopKind where
  | none | abort | disable | coreReset | coreLost | lost | fault | noQuorum
deriving DecidableEq, Repr

/-- A line the apply unit has issued and the memory controller has not yet presented: with the value its own read
gave (R17, R154), whether another master's write to it has committed since (R178), and whether recovery has rewritten
the line since; `cluster` is the logical cluster it left. -/
structure ApplyLine where
  cluster : Fin 4
  addr : Nat
  old : Line
  new : Line
  raced : Bool
  stale : Bool
deriving DecidableEq, Repr

/-- An apply run (R174 to R181). -/
structure ApplyRun where
  mailbox : Fin 8
  recipe : Recipe
  step : U64
  reduceBase : Nat
  scalars : List U32
  /-- next tile to start -/
  layer : Nat
  tile : Nat
  /-- first layer after the run -/
  endLayer : Nat
  /-- tile running on each logical cluster -/
  running : Vector (Option (Nat × Nat)) 4
  stop : StopKind
  /-- mailboxes of the ABORTs that wait for the stop -/
  aborts : List (Fin 8)
  /-- error log index of a FAULT -/
  faultIndex : Nat
  startGtc : U64
  /-- when the last write of the run was captured (R181) -/
  lastGtc : Option U64
  laneOps : Nat
  nonfinite : Nat
  races : Nat
deriving DecidableEq, Repr

/-- The apply unit (R145 to R181, R375). -/
structure ApplyS where
  state : BitVec 2
  layer : BitVec 11
  tile : U16
  recipes : List Recipe
  run : Option ApplyRun
  /-- physical clusters fenced -/
  fenced : List Nat
  /-- a switch-in waiting: logical cluster, physical cluster fenced, mailbox of UNIT_FENCE, whether it then tests -/
  switching : Option (Fin 4 × Nat × Option (Fin 8) × Bool)
  issued : List ApplyLine
  /-- GF slice fenced (R376) -/
  sliceFenced : Option Nat
deriving DecidableEq, Repr

/-- A source of a reduction: address and format (R186). -/
structure ExSource where
  addr : Nat
  format : Nat
deriving DecidableEq, Repr

/-- One owned block of a reduction (R192 to R197). Its sums are in the wide buffer and in the stage slots. -/
structure ExBlock where
  /-- the largest scale exponent so far; none while every value is zero (R185) -/
  x : Option Int
  q : Int
  received : Nat
  spills : Nat
  nan : BitVec 256
  posInf : BitVec 256
  negInf : BitVec 256
  /-- the old destination converted at step 2 under ADD, empty otherwise (R197) -/
  old : List Int
deriving DecidableEq, Repr

/-- A part of a reduction that reads memory: scanning the sources, reading the old destination for the scale, handing
DATA to an owner (R189, R261). -/
inductive ExWork where
  | exps
  | grant
  | data (owner : Nat)
deriving DecidableEq, Repr

/-- The result of a reduction's owned slice: whether its write phase has begun, the bytes it writes, and what the
response reports (R196, R198, R207). -/
structure Formed where
  written : Bool
  bytes : Nat
  steps : Nat
  nonfinite : Nat
  saturated : Nat
deriving DecidableEq, Repr

/-- A running reduction (R186 to R198). -/
structure Reduce where
  mailbox : Fin 8
  group : U16
  seq : U32
  ranks : Nat
  rank : Nat
  elemBase : Nat
  elements : Nat
  shardLen : Nat
  contributions : Nat
  dstFormat : Nat
  add : Bool
  sat : Bool
  noWrite : Bool
  total : Bool
  dst : Nat
  scratch : Nat
  sources : List ExSource
  /-- EXP records received: (rank, source count, elements covered) -/
  exps : List (Nat × Nat × Nat)
  /-- the owner has fixed X and sent GRANT -/
  granted : Bool
  /-- owners to which this rank's DATA has gone -/
  sentTo : List Nat
  blocks : List ExBlock
  /-- work that is due and waits for lines being reconstructed (R261) -/
  waits : List ExWork
  /-- the results, once every owned block has its contributions -/
  formed : Option Formed
  stop : StopKind
  /-- mailboxes of the ABORTs that wait for the write phase to end (R331) -/
  aborts : List (Fin 8)
  /-- the rank whose CANCEL waits for the write phase to end (R204) -/
  cancelBy : Option Nat
  startGtc : U64
deriving DecidableEq, Repr

/-- A stage slot (R193). -/
structure StageSlot where
  group : U16
  seq : U32
  block : Nat
  count : Nat
  sums : List Int
deriving DecidableEq, Repr

/-- The compression run (R199 to R207). -/
structure Compress where
  mailbox : Fin 8
  mode : Nat
  valueFormat : Nat
  k : Nat
  elements : Nat
  /-- next compression block to process -/
  block : Nat
  grad : Nat
  resid : Nat
  out : Nat
  stop : StopKind
  aborts : List (Fin 8)
  nonfinite : Nat
  saturated : Nat
  bytesOut : Nat
  startGtc : U64
deriving DecidableEq, Repr

/-- The exchange unit (R183 to R210). -/
structure ExchS where
  disabled : Bool
  reduces : List Reduce
  /-- least recently added to first -/
  slots : List StageSlot
  /-- reductions completed on the instance (R191) -/
  completed : List (U16 × U32)
  /-- reductions that a core reset ended, until the next EXCH_REDUCE of their group (R383) -/
  ended : List (U16 × U32)
  compress : Option Compress
deriving DecidableEq, Repr

/-- The Beacon (R232 to R237, R354). -/
structure BeaconS where
  tempAlert : Byte
  tempHand : Byte
  supAlert : Byte
  supHand : Byte
  handEn : Bool
  wakeEn : Bool
  lasting : Byte
  alert : Bool
  handoverReq : Bool
  wake : Bool
  bktA : Vector (BitVec 12) 6
  bktB : Vector (BitVec 20) 6
  temp : Byte
  supply : Byte
  /-- consecutive samples above TEMP_ALERT, TEMP_HAND, below SUP_ALERT, SUP_HAND -/
  hotAlert : Nat
  hotHand : Nat
  lowAlert : Nat
  lowHand : Nat
  power : U16
  peak : U16
  /-- mends since the last sample: events of class 0 (R360) -/
  mends : Nat
deriving DecidableEq, Repr

/-- Seasons and supply (R387 to R393). -/
structure PowerS where
  /-- the Hygar supply is on -/
  on : Bool
  season : V3 2
  target : BitVec 2
  /-- a transition in progress, and for Spring the steps already done and whether it began in Winter -/
  moving : Bool
  springStep : Nat
  fromWinter : Bool
  mailbox : Option (Fin 8)
  /-- a wake cause kept during a transition (R393) -/
  wakeKept : Bool
  /-- the apply and exchange units are asleep (R388) -/
  asleep : Bool
deriving DecidableEq, Repr

/-- BIST and fence-and-test (R355, R377, R394 to R398). -/
structure BistS where
  state : BitVec 2
  set : Byte
  verdict : BitVec 2
  fail : U32
  sig : U64
  /-- a BIST_RUN in progress: mailbox, units left, units failed so far, signature to report -/
  run : Option (Fin 8)
  left : List Nat
  failed : U32
  sigFailed : Option U64
  lastSig : U64
  stop : Bool
  aborts : List (Fin 8)
  startGtc : U64
  /-- a fence-and-test in progress: mailbox, none after a core reset; whether a GF slice; index (R377) -/
  test : Option (Option (Fin 8) × Bool × Nat)
deriving DecidableEq, Repr

/-- The error pattern of an SRAM tile: XOR of what it holds with a valid codeword, by byte offset 0 to 287. -/
structure TileErr where
  mac : Nat
  tile : Nat
  bytes : List (Nat × Byte)
  uncorrectable : Bool
deriving DecidableEq, Repr

/-- A remap entry (R363). -/
structure Remap where
  mac : Nat
  entry : Nat
  word : Nat
deriving DecidableEq, Repr

/-- The lattice code, remap tables and spares (R353, R357 to R367). -/
structure LatS where
  corr : Bool
  uncorr : Bool
  remapFull : Bool
  lastMacro : BitVec 10
  lastTile : BitVec 20
  lastSymbol : BitVec 5
  sel : BitVec 10
  errors : List TileErr
  remaps : List Remap
  /-- rows of the fold buffer and of the parity merge store with a soft spare -/
  softFb : List Nat
  softPs : List Nat
  /-- words mended in the last second: (macro, word, times, first) (R364) -/
  mended : List (Nat × Nat × Nat × U64)
deriving DecidableEq, Repr

/-- An entry of the error log (R349). -/
structure ErrEntry where
  cls : Byte
  uncorr : Bool
  source : U16
  count : U32
  first : U64
  last : U64
  detail : U64
deriving DecidableEq, Repr

/-- The error log (R350, R351, R372). -/
structure LogS where
  /-- oldest first -/
  entries : List ErrEntry
  oldest : Byte
  sel : Byte
  ent : BitVec 256
  ovf : Vector U16 16
deriving DecidableEq, Repr

/-- An MGP event (R292). -/
structure Event where
  code : Byte
  arg : Byte
  count : U16
  gtc : U64
deriving DecidableEq, Repr

/-- Events queued and events delivered (R292). -/
structure EventS where
  queue : List Event
  delivered : List Event
deriving DecidableEq, Repr

/-- Port presence, fencing, the wrapper (R273 to R276, R295). -/
structure PortS where
  msp : Bool
  fbp : Bool
  lkp : Bool
  mgp : Bool
  gtcLock : Bool
  gtcFault : Bool
  fenced : Byte
  linkFault : Byte
  wir : BitVec 4
  /-- under WS_SAFE, WS_EXTEST and WS_CLAMP: presence of MSP, FBP, LKP and MGP as the units behind the ports drive it -/
  wrapped : Option (Bool × Bool × Bool × Bool)
deriving DecidableEq, Repr

/-- Time (R293, R294, R305). -/
structure TimeS where
  gtc : U64
  /-- Hygar keeps time by its delay line -/
  onDelayLine : Bool
  goodEdges : Nat
  latchFbp : Option U32
  latchMgp : Option U32
  latchTap : Option U32
  rate : BitVec 12
  belowSlow : Bool
  rateMin : BitVec 12
  /-- RATE_MIN holds a measurement; a microsecond boundary has passed since the reset -/
  measured : Bool
  boundary : Bool
  /-- the snapshot of every register that has SNAP fields: (offset, word) (R304) -/
  snap : List (Nat × U32)
deriving DecidableEq, Repr

/-- A message store handed to the router (R286). -/
inductive Msg where
  | foldStore (p : FoldStore)
  | marker (m : Marker)
  | sealMsg (type : Byte) (m : SealMsg)
  | beat (b : Beat)
  | agree (type : Byte) (m : AgreeMsg)
  | rebuild (type : Byte) (m : RbMsg)
deriving DecidableEq, Repr

/-- Route class (R286). -/
inductive Route where
  | direct (port : Fin 8)
  | w (dir : Dir)
  | any
deriving DecidableEq, Repr

/-- What the instance hands to the router: a store to a die of the partition, or a probe (R284, R286). -/
inductive LkpOut where
  | store (rank : Nat) (vc : Vc) (route : Route) (msg : Msg)
  | probe (rank : Nat)
  /-- the answer to a remote load: status line, or zero bytes (R284, R285) -/
  | answer (line : Option StatusLine)
deriving DecidableEq, Repr

/-- What the instance hands over at FBP (R272, R282). -/
inductive FbpOut where
  | record (type : Byte) (r : ExRec)
  | collStop (group : U16)
  /-- the answer to an offered exchange record: ACCEPT or REFUSE -/
  | answer (accept : Bool)
deriving DecidableEq, Repr

/-- Everything handed over, oldest first. -/
structure OutS where
  lkp : List LkpOut
  fbp : List FbpOut
deriving DecidableEq, Repr

/-- The state of one Hygar instance. -/
structure State where
  fuses : Fuses
  ctrl : Ctrl
  stat : HyStat
  rst : ResetS
  fw : FwS
  mb : MailboxS
  job : JobS
  mem : Mem
  tier : TierS
  cap : CapS
  fold : FoldS
  /-- running digests: (row, digest), rising rows, zero digests unlisted (R139) -/
  digests : List (Nat × U64)
  tide : SealS
  agree : AgreeS
  bcast : BcastS
  recov : RecS
  twin : TwinS
  apply : ApplyS
  exch : ExchS
  beacon : BeaconS
  power : PowerS
  bist : BistS
  lat : LatS
  log : LogS
  /-- the 23 counters in map order (R352) -/
  cnt : Vector U32 23
  events : EventS
  ports : PortS
  time : TimeS
  out : OutS
  /-- the model's own field: free values drawn so far -/
  freeCtr : Nat
  /-- the model's own field: commands waiting, first in, first out -/
  pending : List Instr
deriving DecidableEq, Repr

/-- A status line of zero bytes: before Hygar first writes it (log entry 21). -/
def StatusLine.blank : StatusLine :=
  { season := 0, health := 0, position := 0, agreeState := 0, jobTag := 0, cove := 0, live := 0, epoch := 0,
    sealedTide := 0, phase := 0, gtc := 0 }

/-- The default policy (R142); the prior, which the plan supplies, is 1 until then (log entry 20). -/
def Policy.default : Policy :=
  { auto := false, share := 4, nFixed := 8, nMin := 1, nMax := 4096, costFloorUs := 1000, priorMtbfS := 1 }

/-- No quota (R40). -/
def Quotas.zero : Quotas :=
  { dataNear := 0, dataFar := 0, parityBase := 0, parity := 0, stashNearBase := 0, stashNear := 0,
    stashFarBase := 0, stashFar := 0, stageBase := 0, stage := 0, offload := 0 }

def Mailbox.empty : Mailbox :=
  { cmd := 0, rsp := 0, code := 0, busy := false, done := false, long := false, overrun := false, count := 0,
    op := 0, tag := 0, taken := none }

/-- No fuse value is known: every fused value reads 0 (log entry 9). -/
def Fuses.blank : Fuses :=
  { lcs := 0, die := 0, fbRows := 0, fbCols := 0, psRows := 0, psCols := 0, signatures := [] }

def Ctrl.reset : Ctrl :=
  { capEn := V3.all 1, foldEn := V3.all 1, applyEn := V3.all 1, exchEn := V3.all 1, compatA := V3.all 0,
    phys0 := V3.all 0, phys1 := V3.all 1, phys2 := V3.all 2, phys3 := V3.all 3 }

def HyStat.reset : HyStat :=
  { cfgIgnored := false, capState := 0, foldState := 0, fwState := V3.all 0, fwCause := 0, evtOvf := 0,
    capAgain := false, foldAgain := false, drainMb := none, suspendMb := none }

def MailboxS.reset : MailboxS := { boxes := Vector.replicate 8 Mailbox.empty, waiting := [], peer := [] }

def JobS.reset : JobS :=
  { state := 0, part := none, plan := none, taking := none, rankChanges := [], formed := false, former := none }

def Mem.reset : Mem := { cells := [], undef := [], gen := 0 }

def TierS.reset : TierS :=
  { regions := [], quotas := Quotas.zero, schedule := [], flight := [], loading := none, cursorLine := none, progressLine := none,
    position := 0, step := 0, maskSeq := 0, haltFlag := false, staged := [], rows := [], lastSeq := [], halted := 0 }

def CapS.reset : CapS :=
  { filter := [], lineEntry := none, filterPending := 0, held := [], oldReads := [], queue := [], records := [],
    pass := none, verdicts := [], recompute := [], touchValid := [], touchCache := [], nearFill := 0, farFill := 0, barred := false }

def FoldS.reset : FoldS :=
  { sendPlus := [], sendMinus := [], tokPlus := 8192, tokMinus := 8192, rbTokPlus := 8192, rbTokMinus := 8192,
    share := 4, nextShare := 4, seqs := [], directSent := [], fwdSent := [], streams := [], buffer := [],
    high := false, folded := [], copyCursor := none }

def SealS.reset : SealS :=
  { slot := V3.all 0, phase := V3.all 0, tideLo := V3.all 0, tideHi := V3.all 0, n := V3.all 0, steps := 0,
    mailbox := none, forming := none, resuming := none, block := 0, counted := 0, gtcClose := 0, ownRecord := [],
    closeSent := [], parts := [], markers := [], readies := [], reports := [], queried := [],
    childLosses := [], upReport := none, upFlipped := none,
    decision := none, released := false, flips := [], childFlips := [], acks := [], rootSent := 0, passedDown := [],
    abandonNext := false, lossSeal := false, reopened := false, jobStart := 0, jobLosses := 0,
    lossesHere := 0, costNs := 0, firstApply := none,
    laterApplySum := 0, laterApplyCount := 0, holdSince := none, holdNs := 0, floodGtc := 0, lastStep7 := none,
    policy := Policy.default, nextPolicy := Policy.default, noTide := false, stepRecord := none }

def AgreeS.reset : AgreeS :=
  { state := 0, position := 0, live := V3.all 0, epoch := V3.all 0, cove := none, posRank := [], moved := [],
    lastBeat := Vector.replicate 8 0, portSuspect := 0, wintering := 0,
    missMark := Vector.replicate 8 0, missed := 0, watchAt := [], suspects := [], confirmed := [],
    firstSuspicion := none, promised := 0, accepted := none, round := 0, proposal := none, wishes := [], timerAt := none,
    retryAt := none, installs := [], infos := [], reportDue := false, relayed := [], probes := [],
    removed := 0, withdrawn := false, renewalDue := false, health := 0, statusLine := StatusLine.blank }

def BcastS.reset : BcastS :=
  { children := [], acked := [], lostChildren := [], parent := none, ballot := 0, length := 0, digest := [],
    fragments := [], complete := false, reshard := false, mismatches := 0, ended := false, failed := false, lastFragment := 0,
    sentAt := [], mailbox := none, wokeBy := none }

def RecS.reset : RecS :=
  { state := V3.all 0, target := false, forward := false, lost := V3.all 0, tide := 0, rowsDone := 0,
    rollingBack := false, tried := 0, asked := none, grant := none, ask := none, mailbox := none, share := 4,
    parityDone := [], waiting := [], rows := [], expected := [], reqs := [], groupsLeft := [], restartAt := [], seqs := [], tmark := [],
    tmarkCheck := none, tmarkFrom := 0, tmarkMisses := 0, halted := 0, handover := none, hoKnown := none, hoSeal := false,
    shadow := none }

def TwinS.reset : TwinS :=
  { state := 0, divEvt := false, tide := 0, bay := 0, line := 0, lineValid := false, peer := none, mode := 0,
    compared := none, own := [], theirs := [], rowsChecked := false, mailbox := none, lo := 0, hi := 0 }

def ApplyS.reset : ApplyS :=
  { state := 0, layer := 0, tile := 0, recipes := [], run := none, fenced := [], switching := none, issued := [],
    sliceFenced := none }

def ExchS.reset : ExchS := { disabled := false, reduces := [], slots := [], completed := [], ended := [], compress := none }

def BeaconS.reset : BeaconS :=
  { tempAlert := 0x69, tempHand := 0x6E, supAlert := 0x8C, supHand := 0x88, handEn := true, wakeEn := true,
    lasting := 0, alert := false, handoverReq := false, wake := false, bktA := Vector.replicate 6 0,
    bktB := Vector.replicate 6 0, temp := 0, supply := 0, hotAlert := 0, hotHand := 0, lowAlert := 0, lowHand := 0,
    power := 0, peak := 0, mends := 0 }

def PowerS.reset : PowerS :=
  { on := true, season := V3.all 0, target := 0, moving := false, springStep := 0, fromWinter := false,
    mailbox := none, wakeKept := false, asleep := false }

def BistS.reset : BistS :=
  { state := 0, set := 0, verdict := 2, fail := 0, sig := 0, run := none, left := [], failed := 0, sigFailed := none,
    lastSig := 0, stop := false, aborts := [], startGtc := 0, test := none }

def LatS.reset : LatS :=
  { corr := false, uncorr := false, remapFull := false, lastMacro := 0, lastTile := 0, lastSymbol := 0, sel := 0,
    errors := [], remaps := [], softFb := [], softPs := [], mended := [] }

def LogS.reset : LogS := { entries := [], oldest := 0, sel := 0, ent := 0, ovf := Vector.replicate 16 0 }

def PortS.reset : PortS :=
  { msp := false, fbp := false, lkp := false, mgp := false, gtcLock := false, gtcFault := false, fenced := 0,
    linkFault := 0, wir := 0, wrapped := none }

def TimeS.reset : TimeS :=
  { gtc := 0, onDelayLine := false, goodEdges := 0, latchFbp := none, latchMgp := none, latchTap := none, rate := 0,
    belowSlow := false, rateMin := 0, measured := false, boundary := false, snap := [] }

/-- The cause bits after a power-on reset: POR alone; the reset block is writing macros and registers (R347, R384). -/
def ResetS.powerOn : ResetS :=
  { por := true, sysMgp := false, sysSupply := false, sysThermal := false, coreMgp := false, coreWdog := false,
    unit := 0, phase := .initialising, heldMgp := false, heldWdog := false, results := [] }

/-- The instance right after a power-on reset (R341, R381): every field at the value of its table's reset column,
every port absent, nothing in any memory or queue. Log entries 6, 9, 12, 20, 21 name the values the model chose. -/
def State.reset : State :=
  { fuses := Fuses.blank, ctrl := Ctrl.reset, stat := HyStat.reset, rst := ResetS.powerOn,
    fw := { image := [], expected := 0, length := 0, checked := false }, mb := MailboxS.reset, job := JobS.reset, mem := Mem.reset,
    tier := TierS.reset, cap := CapS.reset, fold := FoldS.reset, digests := [], tide := SealS.reset,
    agree := AgreeS.reset, bcast := BcastS.reset, recov := RecS.reset, twin := TwinS.reset, apply := ApplyS.reset,
    exch := ExchS.reset, beacon := BeaconS.reset, power := PowerS.reset, bist := BistS.reset, lat := LatS.reset,
    log := LogS.reset, cnt := Vector.replicate 23 0, events := { queue := [], delivered := [] },
    ports := PortS.reset, time := TimeS.reset, out := { lkp := [], fbp := [] }, freeCtr := 0, pending := [] }

end Sys2Proof.Machine
end

