-- ==== Sys2Proof/Machine/Ops.lean ====
section
/-! DEFINITION. The named operations the meanings share: memory, counters, events, the error log, messages handed to
the router, the geometry of partition, plan, regions and windows, and the mailboxes. -/

namespace Sys2Proof.Machine

/-- What a meaning answers. -/
abbrev Out := Host.Outcome State Fault Refusal

/-- One mebibyte (R7). -/
def mib : Nat := 1048576

/-! ### Memory (R279, log entries 6 and 7) -/

/-- The generation of the undefined range an address lies in (R32). -/
def Mem.undefAt (m : Mem) (a : Nat) : Option Nat :=
  (m.undef.find? fun r => decide (r.1 ≤ a) && decide (a < r.2.1)).map fun r => r.2.2

def Mem.inUndef (m : Mem) (a : Nat) : Bool := (m.undefAt a).isSome

/-- A byte of memory: what the last write left, 0 where nothing was written, a free value where recovery left the
content undefined (R32; log entries 6 and 7). -/
def Mem.byte (m : Mem) (a : Nat) : Byte :=
  match m.undefAt a with
  | some g => Config.freeByte g a
  | none => look 0 a m.cells

/-- `n` bytes from an address. -/
def Mem.bytes (m : Mem) (a n : Nat) : List Byte := (List.range n).map fun i => m.byte (a + i)

/-- The 64 B line at an address. -/
def Mem.line (m : Mem) (a : Nat) : Line := lineOf (m.bytes a 64)

/-- Cells of the nonzero bytes of a block, rising addresses. -/
def cellsOf : Nat → List Byte → List Host.Cell
  | _, [] => []
  | a, b :: t => if b = 0 then cellsOf (a + 1) t else (a, b) :: cellsOf (a + 1) t

/-- Undefined ranges without the bytes from `lo` up to `hi`. -/
def cutRanges (lo hi : Nat) : List (Nat × Nat × Nat) → List (Nat × Nat × Nat)
  | [] => []
  | (a, b, g) :: t =>
    let left := if a < lo ∧ a < b then [(a, if b < lo then b else lo, g)] else []
    let right := if hi < b ∧ a < b then [(if a < hi then hi else a, b, g)] else []
    left ++ right ++ cutRanges lo hi t

/-- Write a block of bytes. -/
def Mem.write (m : Mem) (a : Nat) (bs : List Byte) : Mem :=
  { m with
    cells := m.cells.filter (fun c => decide (c.1 < a)) ++ cellsOf a bs ++
      m.cells.filter (fun c => decide (a + bs.length ≤ c.1))
    undef := cutRanges a (a + bs.length) m.undef }

/-- Write a line. -/
def Mem.writeLine (m : Mem) (a : Nat) (l : Line) : Mem := m.write a (lineBytes l)

/-- Write zero into `n` bytes. -/
def Mem.zero (m : Mem) (a n : Nat) : Mem :=
  { m with
    cells := m.cells.filter (fun c => decide (c.1 < a) || decide (a + n ≤ c.1))
    undef := cutRanges a (a + n) m.undef }

/-- Leave ranges undefined (R32, R249): their bytes become fresh free values. -/
def Mem.forget (m : Mem) (rs : List (Nat × Nat)) : Mem :=
  { cells := m.cells.filter (fun c => !(rs.any fun r => decide (r.1 ≤ c.1) && decide (c.1 < r.2)))
    undef := rs.foldl (fun u r => cutRanges r.1 r.2 u) m.undef ++ rs.map fun r => (r.1, r.2, m.gen)
    gen := m.gen + 1 }

/-- Numbers of the 64 B lines of a block that may hold a byte other than zero. -/
def Mem.linesIn (m : Mem) (a n : Nat) : List Nat :=
  ((m.cells.filterMap fun c => if a ≤ c.1 ∧ c.1 < a + n then some ((c.1 - a) / 64) else none) ++
   m.undef.flatMap fun r =>
     if r.1 < a + n ∧ a < r.2.1 then
       (List.range (n / 64)).filter fun i => decide (r.1 < a + i * 64 + 64 ∧ a + i * 64 < r.2.1)
     else []).eraseDups

/-- Canonical form: addresses strictly rising, no zero byte listed, nothing listed in an undefined range. -/
def Mem.wf (m : Mem) : Bool :=
  decide (m.cells.Pairwise fun c d => c.1 < d.1) && m.cells.all fun c => decide (c.2 ≠ 0) && !m.inUndef c.1

/-! ### Counters, events and the error log -/

/-- Places of the counters in map order (R352). -/
abbrev cntCapLines : Fin 23 := 0
abbrev cntCapZero : Fin 23 := 1
abbrev cntCapRmw : Fin 23 := 2
abbrev cntApplyRace : Fin 23 := 3
abbrev cntFsSent : Fin 23 := 4
abbrev cntFsFolded : Fin 23 := 5
abbrev cntFsDrop : Fin 23 := 6
abbrev cntFsBroken : Fin 23 := 7
abbrev cntFbHighUs : Fin 23 := 8
abbrev cntSqPwUs : Fin 23 := 9
abbrev cntSqMwUs : Fin 23 := 10
abbrev cntCapqUs : Fin 23 := 11
abbrev cntOldrdUs : Fin 23 := 12
abbrev cntPfLate : Fin 23 := 13
abbrev cntExchSteps : Fin 23 := 14
abbrev cntExchDrop : Fin 23 := 15
abbrev cntVaDrop : Fin 23 := 16
abbrev cntLkpDiscard : Fin 23 := 17
abbrev cntPlanDup : Fin 23 := 18
abbrev cntSuspect : Fin 23 := 19
abbrev cntProbe : Fin 23 := 20
abbrev cntLatCorr : Fin 23 := 21
abbrev cntVoteFix : Fin 23 := 22

/-- A counter rises by `n`, modulo 2^32 (R352). -/
def countN (s : State) (i : Fin 23) (n : Nat) : State :=
  { s with cnt := s.cnt.set i.val (s.cnt.get i + BitVec.ofNat 32 n) i.isLt }

def count (s : State) (i : Fin 23) : State := countN s i 1

/-- Event codes (R292). -/
abbrev evMbDone : Byte := 0x01
abbrev evBcnAlert : Byte := 0x02
abbrev evBcnHandover : Byte := 0x03
abbrev evBcnWake : Byte := 0x04
abbrev evNoQuorum : Byte := 0x05
abbrev evWaitTarget : Byte := 0x06
abbrev evTwinDiverged : Byte := 0x07
abbrev evTwinPeerLost : Byte := 0x08
abbrev evGtcFault : Byte := 0x09
abbrev evErrUncorr : Byte := 0x0A
abbrev evRecFailed : Byte := 0x0B

/-- Raise an MGP event: delivered while MGP is present, else queued, coalesced or discarded (R292; log entry 13). -/
def raiseEvent (s : State) (code arg : Byte) : State :=
  let e : Event := { code := code, arg := arg, count := 1, gtc := s.time.gtc }
  if s.ports.mgp then { s with events.delivered := s.events.delivered ++ [e] }
  else if s.events.queue.length < 32 then { s with events.queue := s.events.queue ++ [e] }
  else if s.events.queue.any (fun q => q.code = code ∧ q.arg = arg) then
    let q' := replaceFirst (fun q => decide (q.code = code ∧ q.arg = arg)) (fun q => { q with count := q.count + 1 })
      s.events.queue
    { s with events.queue := q' }
  else { s with stat.evtOvf := satAdd 8 s.stat.evtOvf 1 }

/-- Error classes (R349). -/
abbrev clLatCorr : Nat := 0
abbrev clLatUncorr : Nat := 1
abbrev clFetchTrap : Nat := 2
abbrev clChannelHalt : Nat := 3
abbrev clPoison : Nat := 4
abbrev clFoldProtocol : Nat := 5
abbrev clManifest : Nat := 6
abbrev clLink : Nat := 7
abbrev clExchange : Nat := 8
abbrev clGtc : Nat := 9
abbrev clAccess : Nat := 10
abbrev clFirmware : Nat := 11
abbrev clRecovery : Nat := 12
abbrev clBist : Nat := 13
abbrev clVote : Nat := 14
abbrev clOther : Nat := 15

/-- Classes that set UNCORR (R349). -/
def classUncorr (cls : Nat) : Bool := decide (1 ≤ cls ∧ cls ≤ 4) || decide (cls = 12)

/-- The source field: unit and index within it (R349). -/
def srcOf (unit index : Nat) : U16 := BitVec.ofNat 16 (unit * 256 + index % 256)

/-- Index in the list of the newest entry of a class and source. -/
def newestEntry (cls : Byte) (src : U16) : Nat → List ErrEntry → Option Nat
  | _, [] => none
  | i, e :: t =>
    match newestEntry cls src (i + 1) t with
    | some j => some j
    | none => if e.cls = cls ∧ e.source = src then some i else none

/-- Take one report into the error log: coalesce, start an entry, or discard (R351, R372). -/
def logReport (s : State) (cls : Nat) (src : U16) (detail : Nat) : State :=
  let c : Byte := BitVec.ofNat 8 cls
  let now := s.time.gtc
  let ev (t : State) : State := if classUncorr cls then raiseEvent t evErrUncorr c else t
  let fresh : ErrEntry :=
    { cls := c, uncorr := classUncorr cls, source := src, count := 1, first := now, last := now,
      detail := BitVec.ofNat 64 detail }
  let start : State :=
    if s.log.entries.length < 256 then ev { s with log.entries := s.log.entries ++ [fresh] }
    else
      let k := cls % 16
      ev { s with log.ovf := s.log.ovf.set k (satAdd 16 (s.log.ovf.getD k 0) 1) (Nat.mod_lt _ (by decide)) }
  match newestEntry c src 0 s.log.entries with
  | none => start
  | some i =>
    match s.log.entries[i]? with
    | none => start
    | some e =>
      if now.toNat < e.first.toNat + 1000000 then
        { s with log.entries := s.log.entries.set i { e with count := satAdd 32 e.count 1, last := now } }
      else start

/-- Ring index that the newest entry has (R351), which a FAULT response names (R330). -/
def newestIndex (s : State) : Nat := (s.log.oldest.toNat + (s.log.entries.length + 255)) % 256

/-- Log a refused access (R336). -/
def logAccess (s : State) (port : Port) (offset : Nat) : State :=
  logReport s clAccess (srcOf 11 (match port with | .fbp => 0 | .mgp => 1 | .tap => 2 | .lkp => 3)) offset

/-! ### Partition, plan and coves -/

/-- A package coordinate relative to the box gives the package index, X slowest (R230). -/
def packageIndex (p : Partition) (x y z : Nat) : Nat :=
  let dy := p.hi.2.1 + 1 - p.lo.2.1
  let dz := p.hi.2.2 + 1 - p.lo.2.2
  ((x - p.lo.1) * dy + (y - p.lo.2.1)) * dz + (z - p.lo.2.2)

/-- Packages of the partition. -/
def packageCount (p : Partition) : Nat :=
  (p.hi.1 + 1 - p.lo.1) * (p.hi.2.1 + 1 - p.lo.2.1) * (p.hi.2.2 + 1 - p.lo.2.2)

/-- Dies of the partition. -/
def partitionDies (p : Partition) : Nat := packageCount p * 64

/-- Own partition rank (R230). -/
def Partition.rank (p : Partition) : Nat := packageIndex p p.own.1 p.own.2.1 p.own.2.2 * 64 + p.die

/-- The partition as another of its dies sees it (R230). -/
def Partition.asRank (p : Partition) (rank : Nat) : Partition :=
  let dy := p.hi.2.1 + 1 - p.lo.2.1
  let dz := p.hi.2.2 + 1 - p.lo.2.2
  let i := rank / 64
  { p with own := (p.lo.1 + i / (dy * dz), p.lo.2.1 + i / dz % dy, p.lo.2.2 + i % dz), die := rank % 64 }

/-- The package coordinate lies in the box. -/
def inBox (p : Partition) (x y z : Nat) : Bool :=
  decide (p.lo.1 ≤ x ∧ x ≤ p.hi.1) && decide (p.lo.2.1 ≤ y ∧ y ≤ p.hi.2.1) && decide (p.lo.2.2 ≤ z ∧ z ≤ p.hi.2.2)

/-- The die one step away through a router port, ports in the order of FENCED: +X, −X, +Y, −Y, +Z, −Z, +W, −W
(R15, R276). Package coordinates are offset by one so that a step below zero has a place; none outside the box. -/
def farRank (p : Partition) (port : Fin 8) : Option Nat :=
  let ix := p.die % 4
  let iy := p.die / 4 % 4
  let iz := p.die / 16
  let go (x y z ix iy iz : Nat) : Option Nat :=
    if 1 ≤ x ∧ 1 ≤ y ∧ 1 ≤ z ∧ inBox p (x - 1) (y - 1) (z - 1) then
      some (packageIndex p (x - 1) (y - 1) (z - 1) * 64 + iz * 16 + iy * 4 + ix) else none
  let x := p.own.1 + 1
  let y := p.own.2.1 + 1
  let z := p.own.2.2 + 1
  match port.val with
  | 0 => if ix < 3 then go x y z (ix + 1) iy iz else go (x + 1) y z 0 iy iz
  | 1 => if 0 < ix then go x y z (ix - 1) iy iz else go (x - 1) y z 3 iy iz
  | 2 => if iy < 3 then go x y z ix (iy + 1) iz else go x (y + 1) z ix 0 iz
  | 3 => if 0 < iy then go x y z ix (iy - 1) iz else go x (y - 1) z ix 3 iz
  | 4 => if iz < 3 then go x y z ix iy (iz + 1) else go x y (z + 1) ix iy 0
  | 5 => if 0 < iz then go x y z ix iy (iz - 1) else go x y (z - 1) ix iy 3
  | 6 => go (x + 1) y z ix iy iz
  | _ => go (x - 1) y z ix iy iz

/-- Ports whose far end lies outside the box (R230, R276). -/
def fencedMask (p : Partition) : Byte :=
  maskOf 8 ((List.finRange 8).filterMap fun q => if (farRank p q).isNone then some q.val else none)

/-- Own rank, 0 before PART_SET. -/
def ownRank (s : State) : Nat := match s.job.part with | some p => p.rank | none => 0

/-- Own job_tag, 0 before PART_SET. -/
def jobTag (s : State) : U32 := match s.job.part with | some p => p.jobTag | none => 0

def planCove (p : Plan) (id : U16) : Option CovePlan := p.coves.find? fun c => c.coveId = id

/-- The cove of the plan that names a rank, and its position there. -/
def coveOfRank (p : Plan) (r : Nat) : Option (CovePlan × Nat) :=
  p.coves.findSome? fun c => (c.members.findIdx? fun q => q = r).map fun i => (c, i)

/-- Index of a cove in the plan's order (R123). -/
def coveIndex (p : Plan) (id : U16) : Option Nat := p.coves.findIdx? fun c => c.coveId = id

/-- Parent cove and child coves in the seal tree (R123). -/
def parentCove (p : Plan) (id : U16) : Option CovePlan :=
  match coveIndex p id with
  | some (i + 1) => p.coves[i / 8]?
  | _ => none

def childCoves (p : Plan) (id : U16) : List CovePlan :=
  match coveIndex p id with
  | some i => (p.coves.drop (8 * i + 1)).take 8
  | none => []

/-- The cove this instance belongs to, as the plan describes it. -/
def ownCove (s : State) : Option CovePlan :=
  match s.agree.cove, s.job.plan with
  | some id, some p => planCove p id
  | _, _ => none

/-- The cove id, 0 when in no cove. -/
def ownCoveId (s : State) : U16 := s.agree.cove.getD 0

def ownPos (s : State) : Nat := s.agree.position.toNat

def liveSet (s : State) : U16 := s.agree.live.get

def epochNow (s : State) : U32 := s.agree.epoch.get

/-- Low 16 bits of the membership epoch. -/
def viewNow (s : State) : U16 := (epochNow s).truncate 16

/-- Live positions of the current view. -/
def livePositions (s : State) : List Nat := bitsOf 16 (liveSet s)

/-- Live positions but the own one. -/
def otherLive (s : State) : List Nat := (livePositions s).filter fun q => q ≠ ownPos s

/-- The captain: the lowest live position (R216). -/
def captainOf (live : U16) : Nat := (bitsOf 16 live).headD 0

def isCaptain (s : State) : Bool :=
  s.agree.cove.isSome && decide (captainOf (liveSet s) = ownPos s) && (liveSet s).getLsbD (ownPos s)

/-- Partition rank of the die that holds a position now: joined views and RANK_MOVE change the plan's (R223, R256). -/
def rankAt (s : State) (cove : U16) (pos : Nat) : Nat :=
  if s.agree.cove = some cove ∧ pos < s.agree.posRank.length then s.agree.posRank.getD pos 0
  else match s.agree.moved.find? fun m => m.1 = cove ∧ m.2.1 = pos with
    | some m => m.2.2
    | none => match s.job.plan with
      | some p => match planCove p cove with
        | some c => c.members.getD pos 0
        | none => 0
      | none => 0

/-- The seal root is the captain of cove 0 (R123). -/
def isRootCove (s : State) : Bool :=
  match s.job.plan with
  | some p => match s.agree.cove with
    | some id => coveIndex p id = some 0
    | none => false
  | none => false

def isSealRoot (s : State) : Bool := isCaptain s && isRootCove s

/-- The plan names the rank: a cove, or a group. -/
def planNames (p : Plan) (r : Nat) : Bool := p.coves.any (fun c => r ∈ c.members) || p.groups.any fun g => r ∈ g.ranks

/-! ### The seal state -/

abbrev phNone : BitVec 3 := 0
abbrev phFlood : BitVec 3 := 1
abbrev phClosing : BitVec 3 := 2
abbrev phReady : BitVec 3 := 3
abbrev phCommitted : BitVec 3 := 4
abbrev phHeld : BitVec 3 := 5
abbrev phSuspended : BitVec 3 := 6

def phaseNow (s : State) : BitVec 3 := s.tide.phase.get

def setPhase (s : State) (p : BitVec 3) : State := { s with tide.phase := V3.all p }

/-- The sealed tide (R118). -/
def sealedTide (s : State) : U48 := s.tide.tideHi.get ++ s.tide.tideLo.get

/-- Slot numbers of the sealed and of the working slot (R118). -/
def sealedSlot (s : State) : Nat := s.tide.slot.get.toNat

def workingSlot (s : State) : Nat := 1 - sealedSlot s

/-- COVE_FORM is forming tide 0 in slot 0 (R114). -/
def forming (s : State) : Bool := s.tide.forming.isSome

/-- The tide that fold-stores and close markers carry: the flood after the sealed tide; 0 while COVE_FORM forms
tide 0 (R98, R114, R129). Log entry 22. -/
def foldTide (s : State) : U48 := if forming s then 0 else sealedTide s + 1

/-- The slot that folds go to. -/
def foldSlot (s : State) : Nat := if forming s then 0 else workingSlot s

/-- A seal runs: phases CLOSING, READY and COMMITTED, or a suspended member that has sent READY (R118, R378). -/
def sealRuns (s : State) : Bool :=
  phaseNow s = phClosing || phaseNow s = phReady || phaseNow s = phCommitted ||
    (phaseNow s = phSuspended && s.tide.readies.any fun r => r.1 = ownPos s)

/-- The cove is formed and its coding is active (R114, R370). -/
def codingActive (s : State) : Bool :=
  s.agree.cove.isSome && s.job.state = 3 && (phaseNow s ≠ phSuspended || s.tide.resuming.isSome)

/-! ### Regions, windows and stores -/

def isFar (p : Plan) (a : Nat) : Bool := decide (p.farRange.base ≤ a ∧ a < p.farRange.base + p.farRange.size)

/-- Homes of a region: (base, bytes, first member bay) of the near part and of the far part (R37, R38). -/
def regionHomes (r : Region) : List (Nat × Nat × Nat) :=
  (if 0 < r.nearBays then [(r.nearBase, r.nearBays * mib, r.firstBay)] else []) ++
  (if r.nearBays < r.bays then [(r.farBase, (r.bays - r.nearBays) * mib, r.firstBay + r.nearBays)] else [])

/-- A region as a command describes it, before placement. -/
def regionOf (c : Line) : Region :=
  { id := BitVec.ofNat 8 (fld c 8 1), protected_ := decide (fld c 9 1 % 4 = 0), placement := BitVec.ofNat 2 (fld c 9 1 / 4),
    cove := BitVec.ofNat 16 (fld c 10 2), bays := fld c 12 4, firstBay := fld c 16 4, nearBase := fld c 24 8,
    farBase := fld c 32 8, nearBays := 0 }

/-- Regions that the plan's profiles give a rank (R326). -/
def regionsOfRank (p : Plan) (r : Nat) : List Region :=
  (p.profiles.filter fun f => f.rank = r ∧ f.op = 6).map fun f => regionOf f.block

/-- Protected homes of the instance. -/
def protectedHomes (s : State) : List (Nat × Nat × Nat) :=
  s.tier.regions.flatMap fun r => if r.protected_ then regionHomes r else []

/-- Member bay and line of an address inside a protected region (R38). -/
def bayLine (s : State) (a : Nat) : Option (Nat × Nat) :=
  (protectedHomes s).findSome? fun h =>
    if h.1 ≤ a ∧ a < h.1 + h.2.1 then some (h.2.2 + (a - h.1) / mib, (a - h.1) % mib / 64) else none

/-- Home address of a member bay (R37, R38). -/
def bayHome (s : State) (b : Nat) : Option Nat :=
  (protectedHomes s).findSome? fun h =>
    if h.2.2 ≤ b ∧ b < h.2.2 + h.2.1 / mib then some (h.1 + (b - h.2.2) * mib) else none

/-- Home address of a line of a member bay. -/
def lineHome (s : State) (b l : Nat) : Option Nat := (bayHome s b).map fun h => h + l * 64

/-- Declared member bays. -/
def declaredBays (s : State) : List Nat :=
  (protectedHomes s).flatMap fun h => (List.range (h.2.1 / mib)).map fun i => h.2.2 + i

/-- Row count Y of the own cove (R73). -/
def rowsY (s : State) : Nat := match ownCove s with | some c => c.rows | none => 0

def covLayout (s : State) : Layout := match ownCove s with | some c => c.layout | none => .c8

/-- Members of the own cove's layout. -/
def covN (s : State) : Nat := Layout.n (covLayout s)

/-- Size of a tidemark record (R134). -/
def recordSize (y : Nat) : Nat := roundUp 64 (4352 + 8 * y)

/-- Base of a parity slot in the PARITY window (R72). -/
def slotBase (s : State) (slot : Nat) : Nat :=
  s.tier.quotas.parityBase * mib + slot * (rowsY s * Layout.frame (covLayout s))

def slotSize (s : State) : Nat := rowsY s * Layout.frame (covLayout s)

def nearStash (s : State) : Nat × Nat := (s.tier.quotas.stashNearBase * mib, s.tier.quotas.stashNear * mib)

def farStash (s : State) : Nat × Nat := (s.tier.quotas.stashFarBase * mib, s.tier.quotas.stashFar * mib)

/-- Bytes of the touch map of Y rows (R87). -/
def touchBytes (y : Nat) : Nat := 2048 * y

def areaSize (c : CovePlan) : Nat := Layout.n c.layout * recordSize c.rows + 64

/-- Address of a tidemark area, which ends the far STASH window (R135). -/
def areaBase (s : State) (slot : Nat) : Nat :=
  match ownCove s with
  | some c => (farStash s).1 + (farStash s).2 - 2 * areaSize c + slot * areaSize c
  | none => 0

/-- Address of the key ladder, below the tidemark store (R135). -/
def ladderBase (s : State) : Nat :=
  match ownCove s with
  | some c => (farStash s).1 + (farStash s).2 - 2 * areaSize c - 2048 * c.rows
  | none => 0

/-- Far stash entries start behind the touch map (R87). -/
def farEntries (s : State) : Nat := (farStash s).1 + touchBytes (rowsY s)

/-- The key of a member bay (R138). -/
def bayKey (s : State) (b : Nat) : U64 := match s.job.plan with | some p => p.bayKeys.getD b 0 | none => 0

def digestOf (s : State) (row : Nat) : U64 := look 0 row s.digests

/-- Set a running digest; a zero digest is not listed, rows rise (R139). -/
def putDigest (ds : List (Nat × U64)) (row : Nat) (d : U64) : List (Nat × U64) :=
  ds.filter (fun e => decide (e.1 < row)) ++ (if d = 0 then [] else [(row, d)]) ++
    ds.filter (fun e => decide (row < e.1))

def addDigest (s : State) (row : Nat) (d : U64) : State :=
  { s with digests := putDigest s.digests row (digestOf s row ^^^ d) }

/-! ### The shadow of a re-shard (R266, R267) -/

/-- Run an operation on the shadow: its plan, regions, windows, digests, cove and tide stand in for the current ones. -/
def withShadow (s : State) (f : State → State) : State :=
  match s.recov.shadow with
  | none => f s
  | some sh =>
    let u := f { s with
      job.plan := some sh.plan
      tier.regions := sh.regions
      tier.quotas := sh.quotas
      digests := sh.digests
      agree := sh.agree
      tide := sh.tide }
    { u with
      job.plan := s.job.plan
      tier.regions := s.tier.regions
      tier.quotas := s.tier.quotas
      digests := s.digests
      agree := s.agree
      tide := s.tide
      recov.shadow := u.recov.shadow.map fun q => { q with digests := u.digests, agree := u.agree, tide := u.tide } }

/-- The fold path serves the shadow while there is one: the old flood is abandoned (R267). -/
def foldSide (s : State) (f : State → State) : State := withShadow s f

/-- A message of the forming cove, at view 1, is the shadow's. -/
def coveSide (s : State) (cove view : U16) (f : State → State) : State :=
  match s.recov.shadow with
  | none => f s
  | some sh => if sh.agree.cove = some cove ∧ view = 1 then withShadow s f else f s

/-! ### Messages handed over -/

/-- Hand a store to the router; an absent LKP sends nothing (R275, R286). -/
def sendTo (s : State) (rank : Nat) (vc : Vc) (route : Route) (msg : Msg) : State :=
  if s.ports.lkp then { s with out.lkp := s.out.lkp ++ [.store rank vc route msg] } else s

/-- Issue a probe of a die's status line (R214). -/
def sendProbe (s : State) (rank : Nat) (why : ProbeWhy) : State :=
  if s.ports.lkp then
    count { s with out.lkp := s.out.lkp ++ [.probe rank], agree.probes := s.agree.probes ++ [(rank, why)] } cntProbe
  else s

/-- A store that arrives at the fold port: in Winter it is discarded and counted (R274). -/
def vfIn (s : State) (f : State → State) : State :=
  if !s.ports.lkp then s else if s.power.season.get = 2 then count s cntLkpDiscard else f s

/-- A store of the seal's messages at the agreement port: discarded in Winter (R274). -/
def vaIn (s : State) (f : State → State) : State := if !s.ports.lkp ∨ s.power.season.get = 2 then s else f s

/-- A message of the agreement header to a die (R217). -/
def sendAgree (s : State) (rank : Nat) (type : Byte) (dest : Nat) (epoch ballot arg : U32) (body : List Byte) : State :=
  sendTo s rank .va .any (.agree type
    { jobTag := jobTag s, cove := ownCoveId s, sender := BitVec.ofNat 8 (ownPos s), dest := BitVec.ofNat 8 dest,
      epoch := epoch, ballot := ballot, arg := arg, gtc := s.time.gtc, body := body })

/-- To a position of the own cove. -/
def sendAgreePos (s : State) (pos : Nat) (type : Byte) (epoch ballot arg : U32) (body : List Byte) : State :=
  sendAgree s (rankAt s (ownCoveId s) pos) type pos epoch ballot arg body

/-- A seal message to a position of the own cove (R124). -/
def sendSeal (s : State) (pos : Nat) (type : Byte) (tide : U48) (arg : U32) (body : List Byte) : State :=
  sendTo s (rankAt s (ownCoveId s) pos) .va .any (.sealMsg type
    { tree := false, cove := ownCoveId s, origin := BitVec.ofNat 8 (ownPos s), sender := BitVec.ofNat 8 (ownPos s),
      dest := BitVec.ofNat 8 pos, view := viewNow s, tide := tide, destCove := ownCoveId s, arg := arg, body := body })

/-- A tree message to every member of a cove (R123, R124). -/
def sendTree (s : State) (c : CovePlan) (type : Byte) (tide : U48) (arg : U32) (body : List Byte) : State :=
  (List.range c.members.length).foldl (fun t pos =>
    sendTo t (rankAt t c.coveId pos) .va .any (.sealMsg type
      { tree := true, cove := ownCoveId t, origin := BitVec.ofNat 8 (ownPos t), sender := BitVec.ofNat 8 (ownPos t),
        dest := BitVec.ofNat 8 pos, view := viewNow t, tide := tide, destCove := c.coveId, arg := arg,
        body := body })) s

/-- FBP carries exchange records: in Summer, and in Spring once the exchange unit is powered (R274, R282, R391). -/
def exchOpen (s : State) : Bool :=
  s.ports.fbp && (s.power.season.get = 0 || (s.power.season.get = 3 && !s.power.fromWinter && decide (2 ≤ s.power.springStep)))

/-- Hand an exchange record to the collective engine (R282). -/
def sendRecord (s : State) (type : Byte) (r : ExRec) : State :=
  if exchOpen s then { s with out.fbp := s.out.fbp ++ [.record type r] } else s

/-- A state folded over a list. -/
def forEach {α : Type} (l : List α) (f : State → α → State) (s : State) : State := l.foldl f s

/-- The instance is a member: the target of a handover names its cove before it belongs to it (R264). -/
def isMember (s : State) : Bool := s.agree.cove.isSome && s.agree.state ≠ 0

/-- The position a heartbeat or status line carries: 0xFF in no cove (R211, R285). -/
def shownPosition (s : State) : Byte := if isMember s then s.agree.position.zeroExtend 8 else 0xFF

def shownCove (s : State) : U16 := if isMember s then ownCoveId s else 0

/-- Rewrite the status line whole (R285). -/
def refreshStatusLine (s : State) : State :=
  let tag := if s.agree.withdrawn then 0 else jobTag s
  { s with agree.statusLine :=
      { season := s.power.season.get.zeroExtend 8, health := s.agree.health,
        position := shownPosition s,
        agreeState := s.agree.state.zeroExtend 8, jobTag := tag, cove := shownCove s, live := liveSet s,
        epoch := epochNow s, sealedTide := sealedTide s, phase := (phaseNow s).zeroExtend 8, gtc := s.time.gtc } }

/-! ### Mailboxes (R313 to R321) -/

abbrev stOk : Nat := 0x00
abbrev stAccepted : Nat := 0x01
abbrev stAlreadyDone : Nat := 0x02
abbrev stBadArg : Nat := 0x10
abbrev stNotPermitted : Nat := 0x11
abbrev stWrongState : Nat := 0x12
abbrev stBusy : Nat := 0x13
abbrev stFault : Nat := 0x20
abbrev stLostMember : Nat := 0x21
abbrev stNoQuorum : Nat := 0x22
abbrev stResource : Nat := 0x30

/-- Port a mailbox is bound to (R313). -/
def boundPort (mb : Fin 8) : Port :=
  if mb.val < 5 then .fbp else if mb.val = 5 then .mgp else if mb.val = 6 then .tap else .lkp

/-- The binding field (R315). -/
def bindCode (mb : Fin 8) : Nat := match boundPort mb with | .fbp => 0 | .mgp => 1 | .tap => 2 | .lkp => 3

def box (s : State) (mb : Fin 8) : Mailbox := s.mb.boxes.get mb

def setBox (s : State) (mb : Fin 8) (b : Mailbox) : State :=
  { s with mb.boxes := s.mb.boxes.set mb.val b mb.isLt }

def fwRunning (s : State) : Bool := s.stat.fwState.get = 2

/-- The response of a command: header and results; 32 B under stepping-A framing (R317, R334). -/
def responseLine (compat : Bool) (op : Byte) (tag : U16) (status detail : Nat) (results : List (Nat × Nat × Nat)) : Line :=
  let l := mkLine ([(0, 1, op.toNat), (1, 1, status), (2, 2, tag.toNat), (4, 4, detail)] ++ results)
  if compat then l &&& BitVec.ofNat 512 (2 ^ 256 - 1) else l

/-- The event of mailbox 5, once per response written (R319). -/
def mbDoneEvent (s : State) (mb : Fin 8) : State := if mb.val = 5 then raiseEvent s evMbDone 5 else s

/-- A final response as the mailbox shows it (R319). -/
def answered (compat : Bool) (b : Mailbox) (status detail : Nat) (results : List (Nat × Nat × Nat)) : Mailbox :=
  { b with rsp := responseLine compat b.op b.tag status detail results, code := BitVec.ofNat 8 status, busy := false,
           long := false, done := true, count := b.count + 1, taken := none }

/-- Write the final response of the command taken in a mailbox (R319). While firmware does not run, a command gets no
response; what it reports is kept for the FAULT response after the core reset (R312, R368; log entry 62). -/
def respond (s : State) (mb : Fin 8) (status detail : Nat) (results : List (Nat × Nat × Nat)) : State :=
  if fwRunning s then
    mbDoneEvent (setBox s mb (answered (s.ctrl.compatA.get = 1) (box s mb) status detail results)) mb
  else { s with rst.results := put mb results s.rst.results }

/-- Write ACCEPTED: the command is long and runs on (R319). -/
def accepted (s : State) (mb : Fin 8) : State :=
  let b := box s mb
  mbDoneEvent (setBox s mb
    { b with rsp := responseLine (s.ctrl.compatA.get = 1) b.op b.tag stAccepted 0 [], code := 1, long := true,
             done := true, count := b.count + 1 }) mb

def respondOk (s : State) (mb : Fin 8) : State := respond s mb stOk 0 []

/-- BAD_ARG at an offset of the command, or of the block it names (R330). -/
def badArg (s : State) (mb : Fin 8) (offset : Nat) : State := respond s mb stBadArg offset []

def badBlock (s : State) (mb : Fin 8) (offset : Nat) : State := respond s mb stBadArg (0x10000 + offset) []

/-- WRONG_STATE with job state and PHASE (R330). -/
def wrongState (s : State) (mb : Fin 8) : State :=
  respond s mb stWrongState (s.job.state.toNat + 256 * (phaseNow s).toNat) []

/-- BUSY, naming the mailbox of the other command or 0xFF (R330). -/
def busyWith (s : State) (mb : Fin 8) (other : Option (Fin 8)) : State :=
  respond s mb stBusy (match other with | some o => o.val | none => 0xFF) []

def resource (s : State) (mb : Fin 8) (offset : Nat) : State := respond s mb stResource offset []

/-- Answer a mailbox if one waits. -/
def respondOpt (s : State) (mb : Option (Fin 8)) (status detail : Nat) : State :=
  match mb with
  | some m => respond s m status detail []
  | none => s

/-- Mailbox whose running command has an opcode (EXPERT apart) and has been accepted as long. -/
def longMailbox (s : State) (op : Nat) : Option (Fin 8) :=
  (List.finRange 8).find? fun m => (box s m).long && decide ((box s m).op.toNat % 128 = op)

/-- Some long command is outstanding in another mailbox. -/
def otherLong (s : State) (mb : Fin 8) : Option (Fin 8) :=
  (List.finRange 8).find? fun m => decide (m ≠ mb) && (box s m).long

/-- Take a command at its GO: the copy, BUSY, DONE, OP and TAG (R318). -/
def takeBox (b : Mailbox) (cmd : Line) (port : Port) (priv : Bool) : Mailbox :=
  { b with cmd := cmd, busy := true, done := false, op := BitVec.ofNat 8 (fld cmd 0 1),
           tag := BitVec.ofNat 16 (fld cmd 2 2), taken := some { cmd := cmd, port := port, priv := priv } }

end Sys2Proof.Machine
end

