-- ==== Sys2Proof/Machine/Operands.lean ====
section
/-! DEFINITION. The forms of mailbox commands: the catalogue, the reserved bytes, profiles, permission and job state,
and the path from a GO to the meaning of a command (R316 to R326). -/

namespace Sys2Proof.Machine

/-- Command classes (R322). -/
inductive CmdClass where
  | info | job | management | test | abort | peer
deriving DecidableEq, Repr

/-- An entry of the catalogue: class, whether the kind is S, whether the basic form is the same as the expert form,
the bytes of the parameter block (R325, R327, R402). -/
structure CatEntry where
  cls : CmdClass
  short : Bool
  same : Bool
  params : List (Nat × Nat)
deriving DecidableEq, Repr

/-- The catalogue of firmware 4.2 (R325). -/
def catalogue : Nat → Option CatEntry
  | 0x01 => some ⟨.info, false, true, []⟩
  | 0x02 => some ⟨.info, false, true, [(8, 1), (16, 8)]⟩
  | 0x03 => some ⟨.info, true, true, [(8, 2), (10, 2), (16, 8)]⟩
  | 0x04 => some ⟨.management, true, true, [(8, 2), (12, 4), (16, 6), (24, 6), (32, 6), (38, 1)]⟩
  | 0x05 => some ⟨.job, false, true, [(8, 8), (16, 4)]⟩
  | 0x06 => some ⟨.job, true, false, [(8, 1), (9, 1), (10, 2), (12, 4), (16, 4), (24, 8), (32, 8)]⟩
  | 0x07 => some ⟨.job, false, false, [(8, 2)]⟩
  | 0x08 => some ⟨.job, true, true, []⟩
  | 0x09 => some ⟨.job, false, true, [(8, 8)]⟩
  | 0x0A => some ⟨.job, true, false, [(8, 1), (9, 1), (10, 2), (12, 2), (14, 2), (16, 2), (20, 4)]⟩
  | 0x0B => some ⟨.job, true, false, [(8, 1), (16, 8), (24, 4)]⟩
  | 0x0C => some ⟨.job, false, false, [(8, 1), (10, 2), (12, 2), (14, 2), (16, 8), (24, 8)]⟩
  | 0x0D => some ⟨.job, false, false, [(8, 8)]⟩
  | 0x0E => some ⟨.job, false, false, [(8, 8)]⟩
  | 0x0F => some ⟨.job, true, false, [(8, 44), (52, 2)]⟩
  | 0x10 => some ⟨.job, false, false, [(8, 8), (16, 4), (24, 8), (32, 8)]⟩
  | 0x11 => some ⟨.job, false, true, []⟩
  | 0x12 => some ⟨.job, false, false, [(8, 1), (9, 1), (10, 2), (12, 1)]⟩
  | 0x13 => some ⟨.job, false, true, [(8, 8), (16, 4)]⟩
  | 0x14 => some ⟨.job, true, false, [(8, 4), (12, 1)]⟩
  | 0x15 => some ⟨.management, false, true, [(8, 1)]⟩
  | 0x16 => some ⟨.test, false, true, [(8, 1), (12, 4)]⟩
  | 0x17 => some ⟨.abort, false, true, [(8, 1), (10, 2)]⟩
  | 0x18 => some ⟨.management, false, true, [(8, 1), (9, 1), (10, 1)]⟩
  | 0x19 => some ⟨.management, true, true, [(8, 2), (10, 1), (12, 4)]⟩
  | 0x1A => some ⟨.management, true, true, [(8, 2)]⟩
  | 0x1B => some ⟨.management, false, true, [(8, 2)]⟩
  | 0x1C => some ⟨.job, true, true, []⟩
  | 0x20 => some ⟨.peer, true, true, [(8, 2), (10, 1), (11, 1), (12, 4), (16, 4), (24, 16)]⟩
  | 0x21 => some ⟨.peer, true, true, [(8, 2), (10, 1), (12, 4), (16, 4), (24, 4), (28, 4)]⟩
  | 0x22 => some ⟨.peer, false, true, [(8, 8), (16, 4), (24, 32)]⟩
  | _ => none

/-- Round a message up to whole 8 B words, the store's padding (R287). -/
def stored (n : Nat) : Nat := roundUp 8 n

/-- Length of the store that carries a fold-store (R95, R286). -/
def foldStoreLength (p : FoldStore) : Nat := stored (24 + (p.recs.map fun r => 2 + r.thin.length).sum)

/-- Length of the store a command's message arrives in, 0 for a command that is no message (R286). -/
def storeLength : Instr → Nat
  | .foldStore p => foldStoreLength p
  | .closeMarker _ => 40
  | .beat _ _ => 16
  | .markPart m => stored (24 + m.body.length)
  | .ready m => stored (24 + m.body.length)
  | .report m => stored (24 + m.body.length)
  | .commit m => stored (24 + m.body.length)
  | .flipped m => stored (24 + m.body.length)
  | .release m => stored (24 + m.body.length)
  | .abandon m => stored (24 + m.body.length)
  | .query m => stored (24 + m.body.length)
  | .switch m => stored (24 + m.body.length)
  | .suspect m => stored (32 + m.body.length)
  | .prepare m => stored (32 + m.body.length)
  | .promise m => stored (32 + m.body.length)
  | .accept m => stored (32 + m.body.length)
  | .accepted m => stored (32 + m.body.length)
  | .nack m => stored (32 + m.body.length)
  | .install m => stored (32 + m.body.length)
  | .installed m => stored (32 + m.body.length)
  | .collAbort m => stored (32 + m.body.length)
  | .planPart m => stored (32 + m.body.length)
  | .planNeed m => stored (32 + m.body.length)
  | .planAck m => stored (32 + m.body.length)
  | .claim m _ => stored (32 + m.body.length)
  | .claimAck m _ => stored (32 + m.body.length)
  | .rankMove m => stored (32 + m.body.length)
  | .twinSum m => stored (32 + m.body.length)
  | .twinBays m => stored (32 + m.body.length)
  | .twinRange m => stored (32 + m.body.length)
  | .part m => stored (32 + m.payload.length)
  | .pieceReq m => stored (32 + m.payload.length)
  | .piece m => stored (32 + m.payload.length)
  | .tmark m => stored (32 + m.payload.length)
  | .tmarkReq m => stored (32 + m.payload.length)
  | .mirror m => stored (32 + m.payload.length)
  | .move m => stored (32 + m.payload.length)
  | _ => 0

/-- Opcode without the EXPERT bit (R316). -/
def opcodeOf (c : Line) : Nat := fld c 0 1 % 128

def isExpert (c : Line) : Bool := 128 ≤ fld c 0 1

/-- A command in its basic form that names a profile (R326). -/
def usesProfile (e : CatEntry) (c : Line) : Bool := !e.same && !isExpert c

/-- DIST may be set in PLAN_LOAD, RESHARD_START and PEER_PLAN (R316, R402). -/
def mayDist (op : Nat) : Bool := op = 0x05 || op = 0x13 || op = 0x22

/-- Whether a byte of a command must be zero (R9, R316, R327). -/
def reservedByte (e : CatEntry) (c : Line) (i : Nat) : Bool :=
  if i = 0 ∨ i = 2 ∨ i = 3 ∨ i = 1 then false
  else if i = 4 ∨ i = 5 then !usesProfile e c
  else if usesProfile e c then true
  else !(e.params.any fun p => decide (p.1 ≤ i ∧ i < p.1 + p.2))

/-- Offset of the first reserved byte that is not zero, flags included (R9, R330). -/
def badByte (e : CatEntry) (c : Line) : Option Nat :=
  (List.range 64).find? fun i =>
    if i = 1 then decide (1 < fld c 1 1) || (decide (fld c 1 1 = 1) && !mayDist (opcodeOf c))
    else reservedByte e c i && decide (lineByte c i ≠ 0)

/-- Whether the port of a mailbox may use a class (R322). FBP needs a privileged or secure master for all but Info. -/
def classAllowed (mb : Fin 8) (priv : Bool) (cls : CmdClass) : Bool :=
  match boundPort mb, cls with
  | .fbp, .info => true
  | .fbp, .job => priv
  | .fbp, .abort => priv
  | .fbp, _ => false
  | .mgp, .peer => false
  | .mgp, _ => true
  | .tap, .info => true
  | .tap, .test => true
  | .tap, .abort => true
  | .tap, _ => false
  | .lkp, .peer => true
  | .lkp, _ => false

/-- ABORT reaches mailboxes 0 to 4 from FBP, 6 from TAP, any from MGP (R322). -/
def abortReaches (mb target : Fin 8) : Bool :=
  match boundPort mb with
  | .fbp => decide (target.val < 5)
  | .mgp => true
  | .tap => decide (target.val = 6)
  | .lkp => false

/-- Job commands a state accepts (R324): 0 NO_PART, 1 PARTITIONED, 2 PLANNED, 3 FORMED, 4 EXCLUDED. -/
def stateAccepts (js : Nat) (op : Nat) (cls : CmdClass) : Bool :=
  match cls with
  | .info => true
  | .abort => true
  | .test => true
  | .management => if op = 0x04 then decide (js = 0 ∨ js = 1) else true
  | _ =>
    match js with
    | 0 => false
    | 1 => op = 0x05 || op = 0x22
    | 2 => [0x06, 0x0F, 0x0A, 0x0B, 0x10, 0x07, 0x14, 0x0C, 0x0D, 0x0E, 0x12, 0x20, 0x21, 0x22].contains op
    | 3 => op ≠ 0x05 && op ≠ 0x07
    | _ => op = 0x1C

/-- Commands that Autumn refuses (R388); UNIT_FENCE refuses its fence-and-test itself. -/
def autumnRefuses (op : Nat) : Bool := [0x0C, 0x0D, 0x0E, 0x10, 0x12, 0x13, 0x14, 0x16].contains op

/-- The block of a profile of the plan for this instance (R326). COVE_FORM's profile 0 is the instance's cove. -/
def profileBlock (s : State) (op n : Nat) : Option Line :=
  match s.job.plan with
  | none => none
  | some p =>
    if op = 0x07 ∧ n = 0 then (coveOfRank p (ownRank s)).map fun c => mkLine [(8, 2, c.1.coveId.toNat)]
    else (p.profiles.find? fun f => f.rank = ownRank s ∧ f.op.toNat = op ∧ f.number = n).map Profile.block

/-- Bytes 8 to 63 of a block under bytes 0 to 7 of a command. -/
def withBlock (c block : Line) : Line :=
  (c &&& BitVec.ofNat 512 (2 ^ 64 - 1)) ||| (block &&& ~~~(BitVec.ofNat 512 (2 ^ 64 - 1)))

/-- A short command still in progress holds back the next one (R320): CODING_SUSPEND that drains, TWIN_PAIR that
awaits its first exchange. -/
def shortInProgress (s : State) : Bool := s.stat.suspendMb.isSome || s.twin.mailbox.isSome

def isShort (op : Nat) : Bool := match catalogue op with | some e => e.short | none => false

/-- Opcode of the command a mailbox has taken. -/
def takenOp (s : State) (mb : Fin 8) : Nat := (box s mb).op.toNat % 128

/-- An ABORT that names a short command still being handled is answered once that has completed (R331). -/
def abortWaits (s : State) (mb : Fin 8) : Bool :=
  takenOp s mb = 0x17 &&
    match (box s mb).taken with
    | none => false
    | some t =>
      if h : fld t.cmd 8 1 < 8 then
        let named : Fin 8 := ⟨fld t.cmd 8 1, h⟩
        named ≠ mb && decide ((box s named).tag.toNat = fld t.cmd 10 2) && (box s named).busy && !(box s named).long &&
          takenOp s named ≠ 0x09
      else false

/-- A taken command that must wait for a short one to end. -/
def heldBack (s : State) (mb : Fin 8) : Bool :=
  abortWaits s mb || (shortInProgress s &&
    (isShort (takenOp s mb) || (takenOp s mb = 0x02 && decide (fld (box s mb).cmd 8 1 ≠ 0))))

/-- The mailbox firmware handles next (R320). -/
def nextToHandle (s : State) : Option (Fin 8) := s.mb.waiting.find? fun m => !heldBack s m

/-- The checks firmware makes before a command's own: permission, reserved bytes, self-test, job state, season,
profile; in that order (log entry 23). Then the command's meaning, with its block in place. -/
def handle (op : Nat) (work : Fin 8 → TakenCmd → State → State) (mb : Fin 8) (t : TakenCmd) (s : State) : State :=
  match catalogue op with
  | none => badArg s mb 0
  | some e =>
    if !classAllowed mb t.priv e.cls then respond s mb stNotPermitted (bindCode mb) []
    else match badByte e t.cmd with
      | some i => badArg s mb i
      | none =>
        if s.bist.run.isSome ∧ e.cls ≠ .info ∧ e.cls ≠ .abort then busyWith s mb s.bist.run
        else if !stateAccepts s.job.state.toNat op e.cls then wrongState s mb
        else if s.power.season.get = 1 ∧ autumnRefuses op then wrongState s mb
        else if usesProfile e t.cmd then
          match s.job.plan with
          | none => wrongState s mb
          | some _ => match profileBlock s op (fld t.cmd 4 2) with
            | none => badArg s mb 4
            | some b => work mb { t with cmd := withBlock t.cmd b } s
        else work mb t s

/-- Firmware begins handling a taken command, if it is the next one. -/
def handleTaken (op : Nat) (work : Fin 8 → TakenCmd → State → State) (mb : Fin 8) (s : State) : State :=
  match (box s mb).taken with
  | none => s
  | some t =>
    if fwRunning s ∧ opcodeOf t.cmd = op ∧ (box s mb).long = false ∧ (op = 0x09 ∨ nextToHandle s = some mb) then
      handle op work mb t { s with mb.waiting := s.mb.waiting.filter fun m => m ≠ mb }
    else s

/-- Mailboxes answer accesses: firmware runs and the season is not Winter (R274, R314). -/
def mailboxesOpen (s : State) : Bool := fwRunning s && s.power.season.get ≠ 2

/-- A GO: the take, or OVERRUN (R318). TIDE_SEAL does not wait for firmware (R321); an unknown opcode is answered at
once, since no row of the table is its own (R325). -/
def takeCmd (mb : Fin 8) (port : Port) (priv : Bool) (cmd : Line) (s : State) : State :=
  let b := box s mb
  if b.busy then setBox s mb { b with overrun := true }
  else
    let s1 := setBox s mb (takeBox b cmd port priv)
    match catalogue (opcodeOf cmd) with
    | none => badArg s1 mb 0
    | some _ => if opcodeOf cmd = 0x09 then s1 else { s1 with mb.waiting := s1.mb.waiting ++ [mb] }

/-- A submission reaches its mailbox: FBP and MGP while present, TAP through its instrument, the agreement unit within
Hygar (R275, R313). -/
def submits (s : State) : Port → Bool
  | .fbp => s.ports.fbp
  | .mgp => s.ports.mgp
  | _ => s.power.on

/-- A mailbox command of the table: submitted and, when no earlier take waits, handled in the same step; or begun
from an earlier take (log entry 4). A command whose opcode is not the row's is no command of the row. -/
def mailboxState (op : Nat) (work : Fin 8 → TakenCmd → State → State) (src : CmdSrc) (s : State) : State :=
  match src with
    | .taken mb => handleTaken op work mb s
    | .issue mb port priv cmd =>
      if opcodeOf cmd ≠ op ∨ !submits s port then s
      else if port ≠ boundPort mb then logAccess s port (0x1000 + 0x100 * mb.val)
      else if !mailboxesOpen s then s
      else if (box s mb).busy then takeCmd mb port priv cmd s
      else handleTaken op work mb (takeCmd mb port priv cmd s)

/-- A mailbox command as a row: every command ends in a next state. -/
def mailboxRow (op : Nat) (work : Fin 8 → TakenCmd → State → State) (src : CmdSrc) (s : State) : Out :=
  .next (mailboxState op work src s)

/-- Write the first waiting peer command into mailbox 7, which only the agreement unit writes (R313). -/
def servePeer (s : State) : State :=
  match s.mb.peer with
  | [] => s
  | l :: t =>
    if mailboxesOpen s ∧ ¬ (box s 7).busy then takeCmd 7 .lkp false l { s with mb.peer := t } else s

/-- The agreement unit turns a message into a peer command (R313, R402). -/
def pushPeer (s : State) (l : Line) : State := servePeer { s with mb.peer := s.mb.peer ++ [l] }

end Sys2Proof.Machine
end

