-- ==== Sys2Proof/Machine/Thin.lean ====
section
/-! DEFINITION. The thinned line (R90, R91). -/

namespace Sys2Proof.Machine

/-- Zero high bytes of a nonzero word, 0 to 3 (R90). -/
def zeroHigh (w : U32) : Nat :=
  if w.toNat < 0x100 then 3 else if w.toNat < 0x10000 then 2 else if w.toNat < 0x1000000 then 1 else 0

/-- The nonzero words of a line, ascending (R90). -/
def thinWords (l : Line) : List U32 := ((List.range 16).map (lineWord l)).filter fun w => w ≠ 0

/-- The word mask (R90). -/
def thinMask (l : Line) : Nat := (List.range 16).foldl (fun m i => if lineWord l i ≠ 0 then m + 2 ^ i else m) 0

/-- Two-bit counts packed four to a byte, the first lowest (R90). -/
def packCounts : List Nat → Nat
  | [] => 0
  | c :: t => c + 4 * packCounts t

/-- The thinned form of a line (R90). -/
def thin (l : Line) : List Byte :=
  let ws := thinWords l
  leBytes 2 (thinMask l) ++ leBytes ((ws.length + 3) / 4) (packCounts (ws.map zeroHigh)) ++
    ws.flatMap fun w => leBytes (4 - zeroHigh w) w.toNat

/-- Expands the words named in the mask from word `i` on: `counts` are the packed counts left. -/
def expandGo : Nat → Nat → Nat → Nat → List Byte → Nat × List Byte
  | 0, _, _, _, bs => (0, bs)
  | n + 1, i, mask, counts, bs =>
    if mask.testBit i then
      let k := 4 - counts % 4
      let r := expandGo n (i + 1) mask (counts / 4) (bs.drop k)
      (leNat (bs.take k) + 2 ^ 32 * r.1, r.2)
    else
      let r := expandGo n (i + 1) mask counts bs
      (2 ^ 32 * r.1, r.2)

/-- The number of bits set in the mask. -/
def maskCount (mask : Nat) : Nat := ((List.range 16).filter fun i => mask.testBit i).length

/-- The line a thinned form expands to (R91). -/
def expand (bs : List Byte) : Line :=
  let mask := leNat (bs.take 2)
  let nc := (maskCount mask + 3) / 4
  let counts := leNat ((bs.drop 2).take nc)
  BitVec.ofNat 512 (expandGo 16 0 mask counts (bs.drop (2 + nc))).1

end Sys2Proof.Machine
end

