-- ==== Sys2Proof/Machine/Capture.lean ====
section
/-! DEFINITION. Capture: presented accesses and their verdicts, old lines, the capture queue, first touch and the ebb
stash, the running digests, and the coding of records (R16 to R19, R80 to R96, R110, R111, R277, R278). -/

namespace Sys2Proof.Machine

/-! ### Rebuild packets -/

/-- Charge a store to the rebuild bucket of a direction (R258, R289). -/
def chargeRb (s : State) (d : Dir) (n : Nat) : State :=
  match d with
  | .plus => { s with fold.rbTokPlus := s.fold.rbTokPlus - n }
  | .minus => { s with fold.rbTokMinus := s.fold.rbTokMinus - n }

def rbTokens (s : State) : Dir → Nat
  | .plus => s.fold.rbTokPlus
  | .minus => s.fold.rbTokMinus

/-- Place of a die along the W ring: its package's X coordinate in the partition's box (R15, R230). -/
def ringPlace (p : Partition) (rank : Nat) : Nat :=
  rank / 64 / ((p.hi.2.1 + 1 - p.lo.2.1) * (p.hi.2.2 + 1 - p.lo.2.2))

/-- W direction that a rebuild packet is charged to: its own along W, else the shorter way to the destination, +W when
both are equal (R289; log entry 87). -/
def chargeDir (s : State) (rank : Nat) (route : Route) : Dir :=
  match route, s.job.part with
  | .w d, _ => d
  | _, some p => if ringPlace p rank < ringPlace p p.rank then .minus else .plus
  | _, none => .plus

/-- Send a rebuild packet to a die: the next seq for that destination, charged to its bucket (R258, R289). -/
def sendRbTo (s : State) (rank : Nat) (type : Byte) (route : Route) (m : RbMsg) : State :=
  let q := look 0 rank s.recov.seqs
  let t := chargeRb { s with recov.seqs := put rank (q + 1) s.recov.seqs } (chargeDir s rank route)
    (stored (32 + m.payload.length))
  sendTo t rank .vf route (.rebuild type { m with seq := q })

/-- The same to a position of the own cove. -/
def sendRb (s : State) (pos : Nat) (type : Byte) (route : Route) (m : RbMsg) : State :=
  sendRbTo s (rankAt s (ownCoveId s) pos) type route
    { m with cove := ownCoveId s, sender := BitVec.ofNat 8 (ownPos s), dest := BitVec.ofNat 8 pos, view := viewNow s }

/-- A rebuild packet with every field zero. -/
def RbMsg.blank : RbMsg :=
  { parity := false, final := false, stale := false, cove := 0, target := 0, sender := 0, dest := 0, stage := 0,
    view := 0, tide := 0, bay := 0, base := 0, piece := 0, depth := 0, count := 0, seq := 0, payload := [] }

/-! ### The rebuilt map (R260, R261) -/

/-- Address of the rebuilt map, which ends the STAGE window. -/
def mapBase (s : State) : Nat := (s.tier.quotas.stageBase + s.tier.quotas.stage) * mib - touchBytes (rowsY s)

/-- The instance is a rebuild target whose data is being decoded. -/
def rebuilding (s : State) : Bool := s.recov.target && s.recov.state.get = 6

/-- The rebuilt bit of a line (R260); bit ℓ mod 8 of byte b · 2048 + ℓ div 8, as the touch map (log entry 24). -/
def rebuiltBit (s : State) (b l : Nat) : Bool := (s.mem.byte (mapBase s + b * 2048 + l / 8)).getLsbD (l % 8)

def setRebuilt (s : State) (b l : Nat) : State :=
  let a := mapBase s + b * 2048 + l / 8
  { s with mem := s.mem.write a [setBit (s.mem.byte a) (l % 8) true] }

/-- A line that reads and writes must wait for (R261). -/
def notRebuilt (s : State) (a : Nat) : Bool :=
  rebuilding s && match bayLine s a with
    | some bl => !rebuiltBit s bl.1 bl.2
    | none => false

/-- Send PIECE_REQ to every live holder of the line's group (R261). The stage field names the selection of a repeated
decode, 0 for the first (R262; log entry 26). -/
def askPieces (s : State) (b l sel : Nat) : State :=
  let y := covLayout s
  let p := place y (ownPos s) b l
  forEach (otherLive s) (fun t q => sendRb t q 0x41 .any
    { RbMsg.blank with
        target := BitVec.ofNat 8 (ownPos s), tide := sealedTide s, bay := BitVec.ofNat 16 b,
        base := BitVec.ofNat 8 p.base, piece := BitVec.ofNat 8 p.column, depth := BitVec.ofNat 16 p.depth, count := 1,
        stage := BitVec.ofNat 8 sel }) s

/-- Begin reconstruct-on-read of a line, unless it has begun (R261). -/
def startRead (s : State) (a : Nat) : State :=
  match bayLine s a with
  | none => s
  | some (b, l) =>
    if s.recov.reqs.any (fun r => r.bay = b ∧ r.line = l ∧ r.sel = 0) then s
    else
      let q : LineReq := { bay := b, line := l, sel := 0, sentAt := s.time.gtc, replies := [] }
      askPieces { s with recov.reqs := s.recov.reqs ++ [q] } b l 0

/-- An access was served to a rebuilt line of a row not yet verified (R262). -/
def noteAccess (s : State) (a : Nat) : State :=
  if rebuilding s then
    match bayLine s a with
    | some (b, _) => { s with recov.rows := s.recov.rows.map fun r => if r.row = b ∧ ¬ r.done then { r with accessed := true } else r }
    | none => s
  else s

/-! ### Writes that complete -/

def tileOf (a : Nat) : Nat := a / 16384

/-- Home address of a byte of a region, by its offset in the region (R37, R38). -/
def regionAddr (r : Region) (o : Nat) : Nat :=
  if o < r.nearBays * mib then r.nearBase + o else r.farBase + (o - r.nearBays * mib)

def findRegion (s : State) (id : Byte) : Option Region := s.tier.regions.find? fun r => r.id = id

/-- Home address of a staged tile. -/
def stagedHome (s : State) (t : StagedTile) : Option Nat := (findRegion s t.region).map fun r => regionAddr r (t.tile * 16384)

/-- Home address of a resident row (R54). -/
def rowHome (s : State) (r : RowSlot) : Option Nat := (findRegion s r.region).map fun g => regionAddr g (r.row * 2 ^ r.shift)

/-- Where the STAGE window holds copies of an address: staged tiles and valid row slots (R47, R55). -/
def copiesOf (s : State) (a : Nat) : List Nat :=
  (s.tier.staged.filterMap fun t => match stagedHome s t with
    | some h => if h ≤ a ∧ a < h + 16384 then some (t.addr + (a - h)) else none
    | none => none) ++
  (s.tier.rows.filterMap fun r => match rowHome s r with
    | some h => if r.valid ∧ h ≤ a ∧ a < h + 2 ^ r.shift then
        some (s.tier.quotas.stageBase * mib + r.slot * 2 ^ r.shift + (a - h)) else none
    | none => none)

/-- Drop the copies that a write by another master makes stale (R47, R56). -/
def dropCopies (s : State) (a : Nat) : State :=
  { s with
    tier.staged := s.tier.staged.filter fun t => match stagedHome s t with
      | some h => !decide (h ≤ a ∧ a < h + 16384)
      | none => true
    tier.rows := s.tier.rows.map fun r => match rowHome s r with
      | some h => if h ≤ a ∧ a < h + 2 ^ r.shift then { r with valid := false } else r
      | none => r }

/-- The apply unit and the exchange unit write through to copies (R47). -/
def writesThrough : Master → Bool
  | .apply => true
  | .exchange => true
  | _ => false

/-- A write of another master to a line makes the apply unit's own read of it stale once it commits (R178). -/
def markRace (s : State) (a : Nat) (ms : List Master) : State :=
  if ms.all fun m => m = .apply then s
  else { s with apply.issued := s.apply.issued.map fun e => if e.addr = a then { e with raced := true } else e }

/-- A bypass write of recovery makes the apply unit's own read of the line stale (R17, R248, R279). -/
def markStale (s : State) (a : Nat) : State :=
  { s with apply.issued := s.apply.issued.map fun e => if e.addr = a then { e with stale := true } else e }

/-- A line takes its new value in memory, and its copies follow or fall: they follow only where the apply unit and the
exchange unit alone wrote it (R47). -/
def commitLine (s : State) (a : Nat) (new : Line) (ms : List Master) : State :=
  let s := markRace s a ms
  if ms.all writesThrough then
    { s with mem := (copiesOf s a).foldl (fun mm c => mm.writeLine c new) (s.mem.writeLine a new) }
  else { dropCopies s a with mem := s.mem.writeLine a new }

/-- A write of the enabled bytes that Hygar does not capture. -/
def commitBytes (s : State) (r : SnoopRec) : State :=
  commitLine s r.line.toNat (mergeLine r.be (s.mem.line r.line.toNat) r.data) [r.master]

def verdict (s : State) (tag : BitVec 9) (v : Verdict) : State :=
  { s with cap.verdicts := s.cap.verdicts ++ [(tag, v)] }

/-- A full-line write covers every byte; an atomic result is always narrow (R80, R84). -/
def narrow (h : Held) : Bool := h.kind = .atomic || decide (h.acc.be ≠ BitVec.allOnes 64)

/-! ### Presenting a write -/

/-- The filter presents the address (R277). -/
def filtered (s : State) (a : Nat) : Bool := s.cap.filter.any fun e => decide (e.base ≤ a ∧ a < e.base + e.size)

def filteredRead (s : State) (a : Nat) : Bool :=
  s.cap.filter.any fun e => e.snoopR && decide (e.base ≤ a ∧ a < e.base + e.size)

/-- Capture takes no new protected write now: no flood open, capture stopping or disabled, an enforced hold, or the
line's row awaits a digest recomputation (R19, R110, R114, R224, R225, R370, R371). -/
def captureHolds (s : State) (a : Nat) : Bool :=
  s.ctrl.capEn.get = 0 || s.stat.capState ≠ 0 || phaseNow s ≠ phFlood || s.cap.barred ||
  match bayLine s a with
  | some bl => s.cap.recompute.contains bl.1
  | none => false

/-- The first protected write a seal holds starts the hold time (R144). -/
def noteHold (s : State) : State :=
  if s.tide.holdSince = none ∧ (phaseNow s = phClosing ∨ phaseNow s = phReady ∨ phaseNow s = phCommitted) then
    { s with tide.holdSince := some s.time.gtc }
  else s

def hold (s : State) (h : Held) : State := noteHold { s with cap.held := s.cap.held ++ [h] }

/-- Another write to the line is held before it: verdicts keep presentation order (R278). -/
def heldLine (s : State) (a : U64) : Bool := s.cap.held.any fun h => h.acc.line = a

/-- The old-line read that a narrow write joins: the line's newest, if it serves narrow writes (R86). -/
def joins (s : State) (a : Nat) : Bool :=
  match (s.cap.oldReads.filter fun o => o.addr = a).getLast? with
  | some o => o.recs.all narrow
  | none => false

/-- The list with its last element of a line extended. -/
def joinLast (a : Nat) (h : Held) : List OldRead → List OldRead
  | [] => []
  | o :: t =>
    if o.addr = a ∧ ¬ t.any (fun p => p.addr = a) then { o with recs := o.recs ++ [h] } :: t
    else o :: joinLast a h t

/-- The merged line of a narrow write has its place in the capture queue and is not yet written (R85, R280). -/
def mergePending (s : State) (a : Nat) : Bool :=
  s.cap.queue.any fun c => !c.tags.isEmpty && decide (lineHome s c.bay c.line = some a)

/-- Note when a write of the apply unit is captured (R181). -/
def noteCaptured (s : State) (ms : List Master) : State :=
  if ms.any fun m => m = .apply then
    { s with apply.run := s.apply.run.map fun r => { r with lastGtc := some s.time.gtc } }
  else s

/-- A line whose old and new value are known enters the capture queue, or is a zero delta (R82, R83). A full-line write
passes, and memory takes it. A merged line is written, and its narrow writes absorbed, once its delta has been handed on
(R85, R280). -/
def takeLine (s : State) (a : Nat) (old new : Line) (hs : List Held) : State :=
  let ms := hs.map fun h => h.acc.master
  let tags := hs.map fun h => h.acc.tag
  let merged := hs.any narrow
  let s := noteCaptured s ms
  if old = new then
    commitLine (tags.foldl (fun t g => verdict t g (if merged then .absorb else .pass)) (count s cntCapZero)) a new ms
  else
    match bayLine s a with
    | none => s
    | some (b, l) =>
      let place (tags : List (BitVec 9)) : State :=
        count { s with cap.queue := s.cap.queue ++
          [{ bay := b, line := l, old := old, new := new, tags := tags, masters := ms }] } cntCapLines
      if merged then place tags
      else commitLine (tags.foldl (fun t g => verdict t g .pass) (place [])) a new ms

/-- The apply unit's own write of a protected line: the whole line it issued (R154). -/
def wholeWrite (h : Held) (new : Line) : Held :=
  { kind := .write, acc := { h.acc with be := BitVec.allOnes 64, data := new } }

/-- Present a write or an atomic result at MSP (R278). -/
def present (s : State) (h : Held) : State :=
  let a := h.acc.line.toNat
  if !filtered s a ∨ !s.ports.msp then
    verdict (commitBytes s h.acc) h.acc.tag .pass
  else if notRebuilt s a then startRead (hold s h) a
  else if captureHolds s a || heldLine s h.acc.line then hold s h
  else if s.cap.queue.length ≥ 256 then hold s h
  else
    match s.apply.issued.find? fun e => e.addr = a with
    | some e => if h.acc.master = .apply then ownWrite s a e (wholeWrite h e.new) else ordinary (noteAccess s a) a h
    | none => ordinary (noteAccess s a) a h
where
  /-- A write of the apply unit: it waits for the line's earlier writes, and its own read is the old value unless
  another master's write has committed since (R17, R18, R178). -/
  ownWrite (s : State) (a : Nat) (e : ApplyLine) (h : Held) : State :=
    if (s.cap.oldReads.any fun o => o.addr = a) || mergePending s a then hold s h
    else
    let left := s.apply.issued.erase e
    if e.raced ∨ e.stale then
      if s.cap.oldReads.length ≥ 128 then hold s h
      else
        let t := noteAccess s a
        let t := if e.raced then
            match t.apply.run with
            | some r => count { t with apply.run := some { r with races := r.races + 1 } } cntApplyRace
            | none => count t cntApplyRace
          else t
        { t with
          apply.issued := left
          cap.oldReads := t.cap.oldReads ++ [{ addr := a, recs := [h] }] }
    else
      takeLine (markStale { noteAccess s a with apply.issued := left } a) a e.old h.acc.data [h]
  /-- A write that needs an old-line read (R81, R85, R86). -/
  ordinary (s : State) (a : Nat) (h : Held) : State :=
    if narrow h ∧ joins s a then { s with cap.oldReads := joinLast a h s.cap.oldReads }
    else if s.cap.oldReads.length ≥ 128 then hold s h
    else
      let t := { s with cap.oldReads := s.cap.oldReads ++ [{ addr := a, recs := [h] }] }
      if narrow h then count t cntCapRmw else t

/-- A presented read: passes once its line is rebuilt (R261, R278). -/
def presentRead (s : State) (h : Held) : State :=
  let a := h.acc.line.toNat
  if s.ports.msp ∧ filteredRead s a ∧ notRebuilt s a then startRead { s with cap.held := s.cap.held ++ [h] } a
  else noteAccess (verdict s h.acc.tag .pass) a

/-- Try every held access again, in the order they were presented (R111, R278). -/
def retryHeld (s : State) : State :=
  s.cap.held.foldl (fun t h => if h.kind = .read then presentRead t h else present t h) { s with cap.held := [] }

/-! ### The snoop rows -/

/-- SNOOP_WRITE (R278, R80, R81). -/
def execSnoopWrite (r : SnoopRec) (s : State) : Out := .next (present s { kind := .write, acc := r })

/-- SNOOP_ATOMIC_RESULT: captured as a narrow write (R84). -/
def execSnoopAtomicResult (r : SnoopRec) (s : State) : Out := .next (present s { kind := .atomic, acc := r })

/-- SNOOP_READ (R261, R278). -/
def execSnoopRead (tag : BitVec 9) (line : U64) (master : Master) (s : State) : Out :=
  .next (presentRead s { kind := .read, acc := { tag := tag, line := line, be := BitVec.allOnes 64, data := 0, master := master } })

/-- The value a merged line takes: each write over the line, in presentation order (R86). -/
def mergeHeld (old : Line) (hs : List Held) : Line := hs.foldl (fun l h => mergeLine h.acc.be l h.acc.data) old

/-- OLD_LINE_READ_RETURN: the line's oldest outstanding read returns the line's value; its writes merge, the line is
captured, and a held write may follow (R81, R85, R86). A read of a line whose merged write is not yet written waits for
it (R18). -/
def execOldLineReadReturn (line : U64) (s : State) : Out :=
  .next (match s.cap.oldReads.find? fun o => o.addr = line.toNat with
    | none => s
    | some o =>
      if s.cap.queue.length ≥ 256 ∨ mergePending s o.addr then s
      else
        let old := s.mem.line o.addr
        retryHeld (takeLine { s with cap.oldReads := s.cap.oldReads.erase o } o.addr old (mergeHeld old o.recs) o.recs))

/-! ### The capture queue -/

/-- Map line of a protected line's touch bit, 64 B each (R87, R121). -/
def touchLine (b l : Nat) : Nat := (b * 2048 + l / 8) / 64

/-- Bit of a protected line within its map line. -/
def touchBit (b l : Nat) : Nat := (b * 2048 + l / 8) % 64 * 8 + l % 8

/-- Address of a line of the touch map, at the base of the far STASH window (R87). -/
def touchAddr (s : State) (n : Nat) : Nat := (farStash s).1 + n * 64

/-- A line of the touch map: from the touch cache, else from memory where its valid bit is set, else zero (R88, R121). -/
def touchRead (s : State) (n : Nat) : Line :=
  match s.cap.touchCache.find? fun t => t.index = n with
  | some t => t.data
  | none => if s.cap.touchValid.contains n then s.mem.line (touchAddr s n) else 0

/-- The touch bit of a line (R87). -/
def touched (s : State) (b l : Nat) : Bool := (touchRead s (touchLine b l)).getLsbD (touchBit b l)

/-- Write a line of the touch cache back, whole (R88, R121). -/
def writeBack (s : State) (t : TouchLine) : State :=
  if t.dirty then { s with mem := s.mem.writeLine (touchAddr s t.index) t.data, cap.touchValid := addNew t.index s.cap.touchValid }
  else s

/-- A full touch cache gives up a line; which one is a free value (R88; log entry 15). -/
def evictTouch (s : State) : State :=
  match s.cap.touchCache[Config.freeVictim s.freeCtr % s.cap.touchCache.length]? with
  | some t =>
    let u := writeBack s t
    { u with cap.touchCache := u.cap.touchCache.erase t, freeCtr := u.freeCtr + 1 }
  | none => s

/-- Bring a line of the touch map into the touch cache (R88). -/
def loadTouch (s : State) (n : Nat) : State :=
  if s.cap.touchCache.any fun t => t.index = n then s
  else
    let u := if 2048 ≤ s.cap.touchCache.length then evictTouch s else s
    { u with cap.touchCache := u.cap.touchCache ++ [{ index := n, data := touchRead u n, dirty := false }] }

/-- Set the touch bit of a line in the touch cache (R87 to R89). -/
def setTouch (s : State) (b l : Nat) : State :=
  { s with cap.touchCache := s.cap.touchCache.map fun t =>
      if t.index = touchLine b l then { t with data := t.data ||| (1#512 <<< touchBit b l), dirty := true } else t }

/-- The stash entry of a before-image: tag, then thinned or raw bytes (R89). -/
def stashEntry (b l : Nat) (tide : U48) (old : Line) : List Byte :=
  let t := thin old
  let len := if t.length < 64 then t.length else 64
  let tag := b + l * 2 ^ 16 + len * 2 ^ 30 + tide.toNat % 2 ^ 24 * 2 ^ 40
  leBytes 8 tag ++ (if t.length < 64 then padTo 8 t else lineBytes old)

/-- Append a stash entry: near until an entry does not fit, far after that (R44). -/
def stash (s : State) (e : List Byte) : State :=
  if s.cap.farFill = 0 ∧ s.cap.nearFill + e.length ≤ (nearStash s).2 then
    { s with
      mem := s.mem.write ((nearStash s).1 + s.cap.nearFill) e
      cap.nearFill := s.cap.nearFill + e.length }
  else
    { s with
      mem := s.mem.write (farEntries s + s.cap.farFill) e
      cap.farFill := s.cap.farFill + e.length }

/-- Lines of a row in copy order: the data lines, then the row's frame of the working slot (R264). -/
def copyUnits (y : Layout) : Nat := 16384 + Layout.frame y / 64

/-- A MIRROR of a whole line to the handover target (R258, R264). -/
def sendMirror (s : State) (peer : Nat) (parity : Bool) (b d : Nat) (ls : List Line) : State :=
  sendRbTo s peer 0x44 .any
    { RbMsg.blank with
      parity := parity, cove := ownCoveId s, target := BitVec.ofNat 8 (ownPos s), sender := BitVec.ofNat 8 (ownPos s),
      dest := BitVec.ofNat 8 (ownPos s), view := viewNow s, tide := sealedTide s, bay := BitVec.ofNat 16 b,
      depth := BitVec.ofNat 16 d, count := BitVec.ofNat 8 ls.length, payload := ls.flatMap lineBytes }

/-- A line that changed behind the copy cursor of a handover leaves as a MIRROR (R264). -/
def mirrorLine (s : State) (parity : Bool) (b d : Nat) (l : Line) : State :=
  match s.recov.handover with
  | some h =>
    let at_ := b * copyUnits (covLayout s) + (if parity then 16384 + d else d)
    if h.outgoing ∧ (h.finished ∨ at_ < h.cursor) then sendMirror s h.peerRank parity b d [l] else s
  | none => s

/-- First touch: the touch bit and the stash entry of the before-image (R83, R87 to R89). -/
def firstTouch (s : State) (c : CapLine) : State :=
  let t := loadTouch s (touchLine c.bay c.line)
  if touched t c.bay c.line then t
  else stash (setTouch t c.bay c.line) (stashEntry c.bay c.line (foldTide t) c.old)

/-- A merged line whose delta has been handed on is written, and its narrow writes are absorbed (R85, R278, R280). -/
def completeMerge (s : State) (c : CapLine) : State :=
  if c.tags.isEmpty then s
  else
    let t := match lineHome s c.bay c.line with
      | some a => commitLine s a c.new c.masters
      | none => s
    c.tags.foldl (fun u g => verdict u g .absorb) t

/-- Merged lines that will not be captured are written all the same (R85, R114, R275). -/
def completeMerges (s : State) : State := forEach s.cap.queue completeMerge s

/-- CAPTURE_LINE: the oldest line of the capture queue is stashed on first touch, added to its row's digest, and
handed to the GF array as a delta, which takes one record at a time (R22, R83, R87 to R89, R108, R139). The place it
frees lets a held write in. -/
def captureOne (s : State) : State :=
  match s.cap.queue with
  | [] => s
  | c :: rest =>
    let delta := c.old ^^^ c.new
    let s1 := firstTouch { s with cap.queue := rest } c
    let s2 := addDigest s1 c.bay (lineTerm (bayKey s1 c.bay) c.line delta)
    let s3 := { s2 with cap.records := s2.cap.records ++
      [{ bay := c.bay, line := c.line, delta := delta, plus := true, minus := true }] }
    mirrorLine (completeMerge s3 c) false c.bay c.line c.new

def execCaptureLine (s : State) : Out :=
  .next (if s.cap.queue = [] ∨ s.cap.records ≠ [] then s else retryHeld (captureOne s))

/-! ### The pass of deltas against zero (R114, R379) -/

/-- The declared lines that hold data: (index over the declared bays, bay, line). -/
def declaredLines (s : State) : List (Nat × Nat × Nat) :=
  (List.zip (List.range (declaredBays s).length) (declaredBays s)).flatMap fun e =>
    match bayHome s e.2 with
    | some h => ((s.mem.linesIn h mib).filter fun l => s.mem.line (h + l * 64) ≠ 0).map fun l => (e.1 * 16384 + l, e.2, l)
    | none => []

def lineValue (s : State) (b l : Nat) : Line := match lineHome s b l with | some a => s.mem.line a | none => 0

/-- Running digests afresh from the declared data, and the pass over it begins. -/
def passAgainstZero (s : State) : State :=
  forEach (declaredLines s) (fun t e => addDigest t e.2.1 (lineTerm (bayKey t e.2.1) e.2.2 (lineValue s e.2.1 e.2.2)))
    { s with digests := [], cap.pass := some 0 }

/-- The next line of the pass enters the GF array; none is left at its end. -/
def nextOfPass (s : State) : State :=
  match s.cap.pass with
  | none => s
  | some i =>
    let rest := (declaredLines s).filter fun e => decide (i ≤ e.1)
    match rest.find? (fun e => rest.all fun f => decide (e.1 ≤ f.1)) with
    | none => { s with cap.pass := none }
    | some e => { s with
        cap.pass := some (e.1 + 1)
        cap.records := [{ bay := e.2.1, line := e.2.2, delta := lineValue s e.2.1 e.2.2, plus := true, minus := true }] }

/-! ### Coding a record -/

/-- Bytes that a record takes in a send queue (R108; DEDUCED, log entry 14). -/
def itemBytes (i : SendItem) : Nat := 2 + i.thin.length

def queueBytes (q : List SendItem) : Nat := (q.map itemBytes).sum

/-- A send queue takes a record while 280 B of its 64 KiB are free (R108; log entry 14). -/
def queueRoom (q : List SendItem) : Bool := decide (queueBytes q + 280 ≤ 65536)

def sendQueue (s : State) : Dir → List SendItem
  | .plus => s.fold.sendPlus
  | .minus => s.fold.sendMinus

def pushSend (s : State) (d : Dir) (i : SendItem) : State :=
  match d with
  | .plus => { s with fold.sendPlus := s.fold.sendPlus ++ [i] }
  | .minus => { s with fold.sendMinus := s.fold.sendMinus ++ [i] }

/-- Count one direct record toward a destination, and forwarded records toward others (R102). -/
def countDirect (s : State) (dest : Nat) : State :=
  { s with fold.directSent := put dest (look 0 dest s.fold.directSent + 1) s.fold.directSent }

def countForwarded (s : State) (dest : Nat) : State :=
  { s with fold.fwdSent := put dest (look 0 dest s.fold.fwdSent + 1) s.fold.fwdSent }

/-- Send one record in one direction: coded to the only headland there, uncoded to the nearest of several (R92). -/
def codeToward (s : State) (r : DeltaRec) (d : Dir) : State :=
  let item (dest : Nat) (ca : Bool) (l : Line) : SendItem :=
    { dest := dest, ca := ca, fwd := false, origin := ownPos s, bay := r.bay, line := r.line, thin := thin l,
      tide := foldTide s }
  match headlandsToward (covLayout s) (ownPos s) r.bay r.line d with
  | [] => s
  | [h] => countDirect (pushSend s d (item h.1 true (scaleLine h.2 r.delta))) h.1
  | h :: t => t.foldl (fun u g => countForwarded u g.1) (countDirect (pushSend s d (item h.1 false r.delta)) h.1)

/-- The record is still to be coded for a direction that holds a headland of it, and what that direction's queue has
no room for stays (R108). -/
def codeSide (s : State) (r : DeltaRec) (d : Dir) (due : Bool) : State × Bool :=
  if !due || (headlandsToward (covLayout s) (ownPos s) r.bay r.line d).isEmpty then (s, false)
  else if queueRoom (sendQueue s d) then (codeToward s r d, false)
  else (s, true)

/-- The record in the GF array is coded for each direction whose send queue has room; a full queue stops only its own
direction, and the array until then (R92, R108). -/
def codeRecord (s : State) : State :=
  match s.cap.records with
  | [] => s
  | r :: rest =>
    let p := codeSide { s with cap.records := rest } r .plus r.plus
    let q := codeSide p.1 r .minus r.minus
    if p.2 || q.2 then { q.1 with cap.records := { r with plus := p.2, minus := q.2 } :: rest } else q.1

/-- CODE_RECORD: the record in the GF array, or the next line of a pass against zero (R92, R108, R114). -/
def codeOne (s : State) : State := codeRecord (if s.cap.records.isEmpty then nextOfPass s else s)

/-- Nothing is in the GF array or on its way to it. -/
def gfIdle (s : State) : Bool := s.cap.records.isEmpty && s.cap.pass.isNone

/-- CODE_RECORD. -/
def execCodeRecord (s : State) : Out := .next (foldSide s codeOne)

/-! ### Filter and stopping capture -/

/-- Range entries of the protected homes (R277). -/
def filterEntries (s : State) (snoopR : Bool) : List FilterEntry :=
  (protectedHomes s).map fun h => { base := h.1, size := h.2.1, snoopR := snoopR }

/-- Issue FILTER_SET (R277). -/
def setFilter (s : State) (f : List FilterEntry) : State :=
  { s with cap.filter := f, cap.filterPending := s.cap.filterPending + 1 }

/-- Begin stopping capture (R110). -/
def stopCapture (s : State) : State :=
  if s.stat.capState = 0 then { s with stat.capState := 1 } else s

/-- Capture and send have drained (R110 steps 2 and 3). -/
def captureDrained (s : State) : Bool :=
  s.cap.queue = [] && s.cap.oldReads = [] && gfIdle s && s.fold.sendPlus.isEmpty && s.fold.sendMinus.isEmpty

/-- Capture returns to service: held writes are captured into the open flood (R111, R345). -/
def startCapture (s : State) : State := retryHeld { s with stat.capState := 0, stat.capAgain := false }

/-- A suspension whose drain has ended: filter cleared, held writes released uncaptured, PHASE SUSPENDED, OK (R378). -/
def finishSuspend (s : State) (mb : Fin 8) : State :=
  let t := setFilter { s with stat.suspendMb := none, tide.noTide := true } []
  let t := respondOpt { t with stat.drainMb := none } t.stat.drainMb stOk 0
  respondOk (setPhase (retryHeld { t with stat.capState := if s.ctrl.capEn.get = 1 then 0 else 2 }) phSuspended) mb

/-- CAPTURE_DRAIN_DONE: CAP_STATE becomes DISABLED and DRAIN_START completes; a suspension goes on; an enable set
during the stop takes effect (R110, R345, R378). -/
def execCaptureDrainDone (s : State) : Out :=
  .next (if s.stat.capState = 1 ∧ captureDrained s then
      match s.stat.suspendMb with
      | some mb => finishSuspend s mb
      | none =>
        let t := respondOpt { s with stat.capState := 2, stat.drainMb := none } s.stat.drainMb stOk 0
        if t.stat.capAgain then startCapture t else t
    else s)

/-- FILTER_SET_ACK (R277). -/
def execFilterSetAck (s : State) : Out := .next { s with cap.filterPending := s.cap.filterPending - 1 }

/-- CAP_EN: clearing stops capture, setting returns it to service (R110, R111, R345). -/
def writeCapEn (s : State) (on : Bool) : State :=
  if on then
    let t := { s with ctrl.capEn := V3.all 1 }
    if s.stat.capState = 2 then startCapture t
    else if s.stat.capState = 1 then { t with stat.capAgain := true }
    else retryHeld t
  else if s.ctrl.capEn.get = 0 then s
  else stopCapture { s with ctrl.capEn := V3.all 0, stat.capAgain := false }

end Sys2Proof.Machine
end

