-- ==== Sys2Proof/Machine/Fold.lean ====
section
/-! DEFINITION. The fold channel: packets and token buckets, streams, the fold buffer, folding into the working slot,
the copy cursor, and stopping the receive side (R95 to R112, R403). -/

namespace Sys2Proof.Machine

/-! ### Sending -/

/-- Items share a packet (R96). -/
def sameTrain (a b : SendItem) : Bool :=
  a.dest = b.dest && a.ca = b.ca && a.fwd = b.fwd && a.origin = b.origin && a.bay = b.bay && a.tide = b.tide

/-- The records of one packet from the front of a queue: at most 256 B of payload, all alike (R95, R96). -/
def takeTrain (first : SendItem) : Nat → List SendItem → List SendItem
  | _, [] => []
  | used, i :: t =>
    if sameTrain first i ∧ used + itemBytes i ≤ 256 then i :: takeTrain first (used + itemBytes i) t else []

def tokens (s : State) : Dir → Nat
  | .plus => s.fold.tokPlus
  | .minus => s.fold.tokMinus

/-- Take a packet out of a queue and its bytes out of the bucket. -/
def drainSend (s : State) (d : Dir) (n cost : Nat) : State :=
  match d with
  | .plus => { s with fold.sendPlus := s.fold.sendPlus.drop n, fold.tokPlus := s.fold.tokPlus - cost }
  | .minus => { s with fold.sendMinus := s.fold.sendMinus.drop n, fold.tokMinus := s.fold.tokMinus - cost }

/-- The W port of a direction is not fenced (R231). -/
def wPortOpen (s : State) (d : Dir) : Bool :=
  match d with
  | .plus => !s.ports.fenced.getLsbD 6
  | .minus => !s.ports.fenced.getLsbD 7

def seqKey (l : List (Nat × Nat × U32)) (o d : Nat) : U32 :=
  match l.find? fun e => e.1 = o ∧ e.2.1 = d with
  | some e => e.2.2
  | none => 0

def putSeq (l : List (Nat × Nat × U32)) (o d : Nat) (v : U32) : List (Nat × Nat × U32) :=
  l.filter (fun e => !decide (e.1 = o ∧ e.2.1 = d)) ++ [(o, d, v)]

/-- The member may send and take fold-stores (R224, R225, R370). -/
def foldAllowed (s : State) : Bool := s.agree.state ≠ 4 && s.agree.state ≠ 5 && !s.agree.withdrawn

/-- FOLD_STORE_SEND: the next packet of a direction leaves when the bucket holds its full size (R95, R96, R106). -/
def sendFoldStore (dir : Dir) (s : State) : State :=
  (match sendQueue s dir with
    | [] => s
    | i :: t =>
      let train := takeTrain i 0 (i :: t)
      let cost := stored (24 + queueBytes train)
      if tokens s dir < cost ∨ !foldAllowed s ∨ !wPortOpen s dir ∨ !s.ports.lkp then s
      else
        let q := seqKey s.fold.seqs i.origin i.dest
        let p : FoldStore :=
          { ca := i.ca, fwd := i.fwd, cove := ownCoveId s, origin := BitVec.ofNat 8 i.origin,
            sender := BitVec.ofNat 8 (ownPos s), dest := BitVec.ofNat 8 i.dest, view := viewNow s, tide := i.tide,
            bay := BitVec.ofNat 16 i.bay, seq := q,
            recs := train.map fun r => { line := BitVec.ofNat 16 r.line, thin := r.thin } }
        let s1 := drainSend s dir train.length cost
        let s2 := { s1 with fold.seqs := putSeq s1.fold.seqs i.origin i.dest (q + 1) }
        count (sendTo s2 (rankAt s (ownCoveId s) i.dest) .vf (.w dir) (.foldStore p)) cntFsSent)

/-- FOLD_STORE_SEND. -/
def execFoldStoreSend (dir : Dir) (s : State) : Out := .next (foldSide s (sendFoldStore dir))

/-! ### Receiving -/

/-- Bytes that records take in the fold buffer: line index and thinned line (R108; DEDUCED, log entry 14). -/
def fbBytes (b : List FbRec) : Nat := (b.map fun r => 2 + r.thin.length).sum

/-- The direction a record travels, from its origin to this member. -/
def travel (s : State) (origin : Nat) : Dir := if origin < ownPos s then .plus else .minus

/-- The next headland an uncoded record must reach after this one (R93). -/
def onward (s : State) (origin bay line : Nat) : Option Nat :=
  nextHeadland (covLayout s) origin bay line (ownPos s) (travel s origin)

/-- A packet whose records must be forwarded. -/
def mustForward (s : State) (p : FoldStore) : Bool :=
  !p.ca && p.recs.any fun r => (onward s p.origin.toNat p.bay.toNat r.line.toNat).isSome

/-- The piece this member holds of the line's stripe (R70, R93). -/
def ownPieceOf (s : State) (origin bay line : Nat) : Option Nat :=
  ownPiece (covLayout s) (place (covLayout s) origin bay line).base (ownPos s)

/-- The checks of R98 on a packet. -/
def foldChecks (s : State) (p : FoldStore) : Bool :=
  foldAllowed s && s.agree.cove = some p.cove && decide (p.view = viewNow s) && decide (p.tide = foldTide s) &&
    (liveSet s).getLsbD p.origin.toNat

def streamOf (s : State) (p : FoldStore) : Stream :=
  (s.fold.streams.find? fun t => t.origin = p.origin.toNat ∧ t.sender = p.sender.toNat).getD
    { origin := p.origin.toNat, sender := p.sender.toNat, next := 0, broken := false }

def putStream (s : State) (t : Stream) : State :=
  { s with fold.streams :=
      s.fold.streams.filter (fun u => !decide (u.origin = t.origin ∧ u.sender = t.sender)) ++ [t] }

/-- A stream becomes broken (R97, R98). -/
def breakStream (s : State) (p : FoldStore) : State :=
  let t := putStream s { streamOf s p with broken := true }
  logReport (count t cntFsBroken) clFoldProtocol (srcOf 2 p.sender.toNat)
    (p.origin.toNat + 256 * p.sender.toNat + 65536 * p.dest.toNat)

/-- A record of the packet names a line that is not one, or one whose stripe gives this member no piece. -/
def badRecord (s : State) (p : FoldStore) : Bool :=
  p.recs.any fun r => decide (16384 ≤ r.line.toNat) ||
    match ownPieceOf s p.origin.toNat p.bay.toNat r.line.toNat with
    | some t => pieceCoeff (covLayout s) t (place (covLayout s) p.origin.toNat p.bay.toNat r.line.toNat).column = 0
    | none => true

/-- High-water and the pause of the member's own apply lanes (R108, R179). -/
def checkHigh (s : State) : State :=
  if fbBytes s.fold.buffer ≥ 3 * mib then
    let t := { s with fold.high := true }
    if t.apply.state = 1 then { t with apply.state := 2 } else t
  else s

/-- Low-water: fold-stores are taken again and paused lanes resume (R108). -/
def checkLow (s : State) : State :=
  if s.fold.high ∧ fbBytes s.fold.buffer ≤ 2 * mib then
    let t := { s with fold.high := false }
    if t.apply.state = 2 then { t with apply.state := 1 } else t
  else s

/-- Take a packet's records into the fold buffer, and queue those that go on (R93, R99). -/
def takeRecords (s : State) (p : FoldStore) : State :=
  let o := p.origin.toNat
  let b := p.bay.toNat
  forEach p.recs (fun t r =>
    let l := r.line.toNat
    let rec1 : FbRec := { origin := o, fwd := p.fwd, bay := b, line := l, coded := p.ca, thin := r.thin }
    let t1 := { t with fold.buffer := t.fold.buffer ++ [rec1] }
    if p.ca then t1
    else match onward t1 o b l with
      | some d => pushSend t1 (travel t1 o)
          { dest := d, ca := false, fwd := true, origin := o, bay := b, line := l, thin := r.thin, tide := p.tide }
      | none => t1) s

/-- A message of tide 0 under view 1 that reaches a member which has not yet taken its COVE_FORM (R114; log entry 22). -/
def earlyForm (s : State) (cove view : U16) (tide : U48) : Bool :=
  s.agree.cove.isNone && s.job.state = 2 && view = 1 && tide = 0 &&
    match s.job.plan with
    | some p => match coveOfRank p (ownRank s) with
      | some c => c.1.coveId = cove
      | none => false
    | none => false

/-- FOLD_STORE: a packet offered at LKP is left with the router, dropped, or taken (R97, R98, R403). -/
def offerFoldStore (p : FoldStore) (s : State) : State :=
  (
    if !s.ports.lkp ∨ s.fold.high ∨ s.stat.foldState ≠ 0 ∨ earlyForm s p.cove p.view p.tide then s
    else if mustForward s p ∧ !queueRoom (sendQueue s (travel s p.origin.toNat)) then s
    else if !foldChecks s p then count s cntFsDrop
    else if (streamOf s p).broken then count s cntFsDrop
    else if p.seq ≠ (streamOf s p).next ∨ badRecord s p then breakStream s p
    else checkHigh (takeRecords (putStream s { streamOf s p with next := (streamOf s p).next + 1 }) p))

/-- FOLD_STORE. -/
def execFoldStore (p : FoldStore) (s : State) : Out := .next (vfIn s fun t => foldSide t (offerFoldStore p))

/-! ### Folding -/

/-- Offset in the slot of the parity line a record folds into (R72, R93). -/
def recOffset (s : State) (r : FbRec) : Nat :=
  let pl := place (covLayout s) r.origin r.bay r.line
  parityOffset (covLayout s) r.bay ((ownPieceOf s r.origin r.bay r.line).getD 0) pl.depth

/-- The delta a record folds: coded already, or coded here with c_tj (R93, R99). -/
def recDelta (s : State) (r : FbRec) : Line :=
  if r.coded then expand r.thin
  else scaleLine (pieceCoeff (covLayout s) ((ownPieceOf s r.origin r.bay r.line).getD 0)
    (place (covLayout s) r.origin r.bay r.line).column) (expand r.thin)

/-- The copy cursor has passed a parity line (R100). -/
def cursorPassed (s : State) (off : Nat) : Bool :=
  match s.fold.copyCursor with
  | none => true
  | some c => decide (off + 64 ≤ c)

/-- Records folded per origin: direct and forwarded (R104). -/
def countFolded (l : List (Nat × Nat × Nat)) (o : Nat) (fwd : Bool) : List (Nat × Nat × Nat) :=
  let e := (l.find? fun x => x.1 = o).getD (o, 0, 0)
  l.filter (fun x => x.1 ≠ o) ++ [(o, e.2.1 + bit (!fwd), e.2.2 + bit fwd)]

/-- FOLD_RECORD: the oldest record whose parity line the copy cursor has passed is folded, with every record of the
buffer for that line, in one read and write (R99, R100). -/
def foldOne (s : State) : State :=
  (match s.fold.buffer.find? fun r => cursorPassed s (recOffset s r) with
    | none => s
    | some r0 =>
      let off := recOffset s r0
      let hits := s.fold.buffer.filter fun r => recOffset s r = off
      let a := slotBase s (foldSlot s) + off
      let new := hits.foldl (fun l r => l ^^^ recDelta s r) (s.mem.line a)
      let s1 := { s with
        mem := s.mem.writeLine a new
        fold.buffer := s.fold.buffer.filter fun r => recOffset s r ≠ off
        fold.folded := hits.foldl (fun l r => countFolded l r.origin r.fwd) s.fold.folded }
      let s2 := countN s1 cntFsFolded hits.length
      let y := covLayout s
      checkLow (mirrorLine s2 true r0.bay ((off - r0.bay * Layout.frame y) / 64) new))

/-- FOLD_RECORD. -/
def execFoldRecord (s : State) : Out := .next (foldSide s foldOne)

/-- Copy a block of memory; a source that holds undefined bytes is copied byte by byte. -/
def Mem.copy (m : Mem) (src dst n : Nat) : Mem :=
  if m.undef.any fun r => decide (r.1 < src + n ∧ src < r.2.1) then m.write dst (m.bytes src n)
  else
    let z := m.zero dst n
    let moved := (m.cells.filter fun c => decide (src ≤ c.1 ∧ c.1 < src + n)).map fun c => (c.1 - src + dst, c.2)
    { z with cells := z.cells.filter (fun c => decide (c.1 < dst)) ++ moved ++
        z.cells.filter (fun c => decide (dst + n ≤ c.1)) }

/-- PARITY_SLOT_COPY: the copy cursor moves up the slot by some lines; it starts when the flood opens (R100, R129). -/
def execParitySlotCopy (lines : Nat) (s : State) : Out :=
  .next (match s.fold.copyCursor with
    | none => s
    | some c =>
      if phaseNow s = phNone ∨ phaseNow s = phCommitted then s else
      let n := min (lines * 64) (slotSize s - c)
      let m := s.mem.copy (slotBase s (sealedSlot s) + c) (slotBase s (workingSlot s) + c) n
      { s with mem := m, fold.copyCursor := if c + n < slotSize s then some (c + n) else none })

/-- FOLD_DISABLE_DONE: the fold buffer is empty and FOLD_STATE becomes DISABLED; an enable set meanwhile takes
effect (R112, R345). -/
def execFoldDisableDone (s : State) : Out :=
  .next (if s.stat.foldState = 1 ∧ s.fold.buffer = [] then
      if s.stat.foldAgain then { s with stat.foldState := 0, stat.foldAgain := false }
      else { s with stat.foldState := 2 }
    else s)

/-- FOLD_EN: clearing is refused in a formed cove whose coding is active (R112, R338, R345). -/
def writeFoldEn (s : State) (on : Bool) : State :=
  if on then
    let t := { s with ctrl.foldEn := V3.all 1 }
    if s.stat.foldState = 2 then { t with stat.foldState := 0 }
    else if s.stat.foldState = 1 then { t with stat.foldAgain := true } else t
  else if s.ctrl.foldEn.get = 0 then s
  else if codingActive s then { s with stat.cfgIgnored := true }
  else { s with ctrl.foldEn := V3.all 0, stat.foldAgain := false, stat.foldState := if s.stat.foldState = 0 then 1 else s.stat.foldState }

/-! ### Opening and discarding -/

/-- A fresh flood's accounts: streams, counts and seqs start again (R97, R102). -/
def clearFoldCounts (s : State) : State :=
  { s with fold.seqs := [], fold.directSent := [], fold.fwdSent := [], fold.streams := [], fold.folded := [] }

/-- The accounts of the flood to come: nothing counted or held, the copy cursor at its start (R97, R100, R129, R247).
Records that reach the member before it opens the flood wait behind the cursor. -/
def freshFlood (s : State) : State :=
  let t := clearFoldCounts s
  { t with
    fold.buffer := []
    fold.sendPlus := []
    fold.sendMinus := []
    fold.high := false
    fold.copyCursor := some 0
    tide.markers := []
    tide.parts := []
    tide.readies := []
    tide.closeSent := []
    tide.ownRecord := [] }

/-- Discard the stash: the fill pointers, the touch map's valid bits and the touch cache (R88, R121). -/
def discardStash (s : State) : State :=
  { s with cap.nearFill := 0, cap.farFill := 0, cap.touchValid := [], cap.touchCache := [] }

/-- The member's fold path is idle (R247). -/
def foldIdle (s : State) : Bool :=
  s.cap.queue = [] && s.cap.oldReads = [] && gfIdle s && s.fold.sendPlus = [] && s.fold.sendMinus = [] &&
    s.fold.buffer = []

/-- Records folded from an origin: (direct, forwarded). -/
def foldedFrom (s : State) (o : Nat) : Nat × Nat :=
  match s.fold.folded.find? fun e => e.1 = o with
  | some e => (e.2.1, e.2.2)
  | none => (0, 0)

/-- The member is complete for an origin (R104). -/
def completeFor (s : State) (o : Nat) : Bool :=
  if o = ownPos s then true
  else match s.tide.markers.find? fun m => m.origin.toNat = o with
    | none => false
    | some m =>
      let direct := (s.fold.streams.find? fun t => t.origin = o ∧ t.sender = o).map Stream.next
      decide (direct.getD 0 = m.directPackets) &&
      !(s.fold.streams.any fun t => t.origin = o ∧ t.broken) &&
      decide ((foldedFrom s o).1 = m.directRecords.toNat) && decide ((foldedFrom s o).2 = m.forwardedRecords.toNat) &&
      !(s.fold.sendPlus.any fun i => i.fwd ∧ i.origin = o) && !(s.fold.sendMinus.any fun i => i.fwd ∧ i.origin = o)

end Sys2Proof.Machine
end

