-- ==== Sys2Proof/Machine/Rebuild.lean ====
section
/-! DEFINITION. Recovery on one member: rollback, what a holder offers, the ring decode, reconstruct-on-read,
verification, the tidemark store a target takes, and the copy of a handover (R243 to R265). -/

namespace Sys2Proof.Machine

/-! ### Stopping commands -/

/-- A view change also ends a stop that waits on back-pressure: it releases it (R20, R110, R179). -/
def releaseStop (old new : StopKind) : StopKind :=
  match old with
  | .none => new
  | .abort => new
  | .disable => new
  | .coreReset => .coreLost
  | k => k

/-- Ask the running apply and exchange commands to stop (R20, R224, R245). A stop already asked for is kept. -/
def stopRuns (s : State) (k : StopKind) : State :=
  { s with
    apply.run := s.apply.run.map fun r => { r with stop := releaseStop r.stop k }
    exch.reduces := s.exch.reduces.map fun r => { r with stop := releaseStop r.stop k }
    exch.compress := s.exch.compress.map fun r => { r with stop := releaseStop r.stop k } }

/-- Results of TIDE_SEAL (R329). -/
def sealResults (s : State) (done : Nat) : List (Nat × Nat × Nat) :=
  [(8, 1, done), (10, 6, (sealedTide s).toNat), (16, 2, s.tide.steps.toNat)]

/-- End a pending TIDE_SEAL with a status (R20, R131). -/
def endSeal (s : State) (status detail : Nat) : State :=
  match s.tide.mailbox with
  | some mb => respond { s with tide.mailbox := none } mb status detail (sealResults s 0)
  | none => s

/-- End every pending command that rests on the cove (R224, R225). -/
def endPending (s : State) (status detail : Nat) (k : StopKind) : State :=
  let s := endSeal s status detail
  let s := respondOpt { s with stat.drainMb := none } s.stat.drainMb status detail
  let s := respondOpt { s with stat.suspendMb := none } s.stat.suspendMb status detail
  let s := respondOpt { s with tide.forming := none } s.tide.forming.join status detail
  let s := respondOpt { s with tide.resuming := none } s.tide.resuming.join status detail
  stopRuns s k

/-! ### Recovery status -/

abbrev recNone : BitVec 4 := 0
abbrev recDeciding : BitVec 4 := 1
abbrev recRolling : BitVec 4 := 2
abbrev recWaitTarget : BitVec 4 := 3
abbrev recParity : BitVec 4 := 4
abbrev recResumable : BitVec 4 := 5
abbrev recData : BitVec 4 := 6
abbrev recDone : BitVec 4 := 7
abbrev recReshard : BitVec 4 := 8
abbrev recFailed : BitVec 4 := 9

def recState (s : State) : BitVec 4 := s.recov.state.get

/-- STATE changes; FILTER_SET goes out at every change into or out of DATA, and presents reads on a target in DATA
(R277). -/
def setRec (s : State) (v : BitVec 4) : State :=
  let t := { s with recov.state := V3.all v }
  if decide (recState s = recData) = decide (v = recData) then t
  else setFilter t (if codingActive t then filterEntries t (rebuilding t) else [])

/-- Recovery by Hygar ends: STATE FAILED, the event, and FAULT for a REBUILD_START (R248, R255, R262, R292). -/
def failRecovery (s : State) : State :=
  let t := raiseEvent { setRec s recFailed with recov.rollingBack := false, recov.mailbox := none } evRecFailed 0
  respondOpt t s.recov.mailbox stFault (newestIndex t)

/-- The same, with a RECOVERY entry in the log. -/
def failLogged (s : State) (detail : Nat) : State := failRecovery (logReport s clRecovery (srcOf 7 0) detail)

/-- Lost positions being rebuilt. -/
def lostPositions (s : State) : List Nat := bitsOf 16 s.recov.lost.get

/-- More members lost than the layout survives; a position whose target is not yet rebuilt is lost still (R30, R77). -/
def beyondTolerance (s : State) (live : U16) : Bool :=
  match ownCove s with
  | some c => decide (Layout.tolerance c.layout <
      ((List.range (Layout.n c.layout)).filter fun q => !live.getLsbD q || s.recov.lost.get.getLsbD q).length)
  | none => false

/-- A loss before the switch abandons the re-shard (R268). -/
def abandonShadow (s : State) (detail : Nat) : State :=
  match s.recov.shadow with
  | none => s
  | some sh =>
    respondOpt { s with recov.shadow := none, fold.copyCursor := some 0, cap.records := [] } sh.mailbox stLostMember detail

/-! ### Before-images and rollback -/

/-- One stash entry read back: bay, line, before-image, its bytes in the window (R89). -/
def readEntry (bs : List Byte) : Nat × Nat × Nat × Line × Nat :=
  let tag := fldAt bs 0 8
  let len := tag / 2 ^ 30 % 128
  let body := (bs.drop 8).take len
  (tag % 2 ^ 16, tag / 2 ^ 16 % 2 ^ 14, tag / 2 ^ 40,
   if len = 64 then lineOf body else expand body, 8 + roundUp 8 len)

/-- The entries of a window up to its fill pointer, in capture order (R122). -/
def readEntries : Nat → List Byte → List (Nat × Nat × Nat × Line)
  | 0, _ => []
  | n + 1, bs =>
    if bs = [] then []
    else
      let e := readEntry bs
      (e.1, e.2.1, e.2.2.1, e.2.2.2.1) :: readEntries n (bs.drop e.2.2.2.2)

/-- Valid stash entries: near window, then far; the tag names the open flood (R121, R122). -/
def stashEntries (s : State) : List (Nat × Nat × Nat × Line) :=
  let near := s.mem.bytes (nearStash s).1 s.cap.nearFill
  let far := s.mem.bytes (farEntries s) s.cap.farFill
  (readEntries (near.length / 16 + 1) near ++ readEntries (far.length / 16 + 1) far).filter fun e =>
    e.2.2.1 = (foldTide s).toNat % 2 ^ 24

/-- Restore one line: written whole, past capture, the digest following (R248). -/
def restoreLine (s : State) (e : Nat × Nat × Nat × Line) : State :=
  match lineHome s e.1 e.2.1 with
  | none => s
  | some a =>
    let t := addDigest (markStale s a) e.1 (lineTerm (bayKey s e.1) e.2.1 (s.mem.line a ^^^ e.2.2.2))
    { t with mem := t.mem.writeLine a e.2.2.2 }

/-- A running digest in the own record of the sealed tide (R134, R135). -/
def sealedDigest (s : State) (row : Nat) : U64 :=
  BitVec.ofNat 64 (leNat (s.mem.bytes
    (areaBase s (sealedSlot s) + ownPos s * recordSize (rowsY s) + 4352 + 8 * row) 8))

/-- Every running digest equals the record's (R248). -/
def digestsMatch (s : State) : Bool := (List.range (rowsY s)).all fun b => decide (digestOf s b = sealedDigest s b)

/-- Insert a range into a list ordered by base. -/
def insertRange (r : Nat × Nat) : List (Nat × Nat) → List (Nat × Nat)
  | [] => [r]
  | q :: t => if r.1 ≤ q.1 then r :: q :: t else q :: insertRange r t

/-- The gaps that ordered ranges leave between `lo` and 2^64. -/
def gaps : Nat → List (Nat × Nat) → List (Nat × Nat)
  | lo, [] => if lo < 2 ^ 64 then [(lo, 2 ^ 64)] else []
  | lo, (a, b) :: t => (if lo < a then [(lo, a)] else []) ++ gaps (if lo < b then b else lo) t

/-- What a recovery keeps: protected homes, the sealed slot, the STASH windows with the stash, the touch map, the key
ladder and the tidemark store, and on a target the rebuilt map (R32, R249, R260). -/
def keptRanges (s : State) : List (Nat × Nat) :=
  let rs := (protectedHomes s).map (fun h => (h.1, h.1 + h.2.1)) ++
    [(slotBase s (sealedSlot s), slotBase s (sealedSlot s) + slotSize s),
     ((nearStash s).1, (nearStash s).1 + (nearStash s).2), ((farStash s).1, (farStash s).1 + (farStash s).2)] ++
    (if s.recov.target then [(mapBase s, mapBase s + touchBytes (rowsY s))] else [])
  rs.foldl (fun l r => insertRange r l) []

/-- Memory outside the kept ranges is undefined (R32, R249; log entry 7). -/
def forgetOthers (s : State) : State := { s with mem := s.mem.forget (gaps 0 (keptRanges s)) }

/-! ### What a holder offers (R257) -/

/-- The line as the sealed tide has it: a stashed before-image, else the old value of a line still queued, else
memory (R89, R257). -/
def sealedLine (s : State) (b l : Nat) : Line :=
  match lineHome s b l with
  | none => 0
  | some a =>
    match (stashEntries s).find? fun e => e.1 = b ∧ e.2.1 = l with
    | some e => if touched s b l then e.2.2.2 else s.mem.line a
    | none =>
      match s.cap.queue.find? fun c => c.bay = b ∧ c.line = l with
      | some c => c.old
      | none => s.mem.line a

/-- The tide at which the member offers its pieces: none from its flip to RELEASE, nor before its rollback is done. -/
def offers (s : State) : Option U48 :=
  if phaseNow s = phCommitted ∨ s.recov.rollingBack ∨ recState s = recDeciding then none
  else some (sealedTide s)

/-- The own piece of the stripe (row, base, depth) at the sealed tide. -/
def offeredLine (s : State) (b base depth : Nat) : Line :=
  let y := covLayout s
  match pieceAt y base (ownPos s) with
  | .data j => if phantom y b j depth then 0 else sealedLine s b (columnLine y b j depth)
  | .parity t => s.mem.line (slotBase s (sealedSlot s) + parityOffset y b t depth)

def pieceOf (parity : Bool) (p : Nat) : Piece := if parity then .parity p else .data p

/-- Holders of a group and their coefficients, in ring order: ascending for an even first depth (R78, R79, R258). -/
def ringHolders (s : State) (base depth : Nat) (missing : Piece) (lost : List Nat) : List (Nat × Byte) :=
  let y := covLayout s
  let c := (combo y base lost missing).map fun qw => (piecePos y base qw.1, qw.2)
  let up := (List.range (Layout.n y)).flatMap fun p => c.filter fun h => h.1 = p
  if depth % 2 = 0 then up else up.reverse

def groupHolders (s : State) (g : RingId) : List (Nat × Byte) :=
  ringHolders s g.base.toNat g.depth.toNat (pieceOf g.parity g.piece.toNat) (lostPositions s)

/-- The own products of a group's lines, in depth order. -/
def products (s : State) (c : Byte) (bay base depth count : Nat) : List Line :=
  (List.range count).map fun i => scaleLine c (offeredLine s bay base (depth + i))

/-- The lines of a payload. -/
def payloadLines (bs : List Byte) : List Line := (chunks 64 bs).map lineOf

def xorLines : List Line → List Line → List Line
  | a :: s, b :: t => (a ^^^ b) :: xorLines s t
  | a :: s, [] => a :: s
  | [], t => t

/-- The group of a packet. -/
def groupOf (m : RbMsg) : RingId :=
  { parity := m.parity, target := m.target, bay := m.bay, base := m.base, piece := m.piece, depth := m.depth, count := m.count }

/-! ### MOVE packets (R266, R267) -/

/-- Line of a region that a member bay's line is. -/
def regionLine (r : Region) (b l : Nat) : Option Nat :=
  if r.protected_ ∧ r.firstBay ≤ b ∧ b < r.firstBay + r.bays then some ((b - r.firstBay) * 16384 + l) else none

/-- Destinations that the move table gives a line of a rank: (rank, region, line in the region). -/
def moveTargets (p : Plan) (rank : Nat) (regions : List Region) (b l : Nat) : List (Nat × Byte × Nat) :=
  p.moves.filterMap fun e =>
    if e.srcRank ≠ rank then none
    else match regions.find? fun r => r.id = e.srcRegion with
      | none => none
      | some r => match regionLine r b l with
        | none => none
        | some n =>
          if e.srcTile * 256 ≤ n ∧ n < (e.srcTile + e.tiles) * 256 then
            some (e.dstRank, e.dstRegion, e.dstTile * 256 + (n - e.srcTile * 256))
          else none

/-- The fields of a MOVE: bytes 18 to 21 the destination line, byte 22 the region (R258). -/
def moveFields (m : RbMsg) (region : Byte) (line : Nat) : RbMsg :=
  { m with bay := BitVec.ofNat 16 line, base := BitVec.ofNat 8 (line / 2 ^ 16), piece := BitVec.ofNat 8 (line / 2 ^ 24),
           depth := region.zeroExtend 16 }

def moveLine (m : RbMsg) : Nat := m.bay.toNat + m.base.toNat * 2 ^ 16 + m.piece.toNat % 64 * 2 ^ 24

def moveRegion (m : RbMsg) : Byte := m.depth.truncate 8

/-- Send one line, or a tile check, to a rank as a MOVE of the old cove. -/
def sendMove (s : State) (rank : Nat) (region : Byte) (line : Nat) (tide : U48) (payload : List Byte) (check : Bool) : State :=
  sendRbTo s rank 0x45 .any (moveFields { RbMsg.blank with
    cove := ownCoveId s, target := 0xFF, sender := BitVec.ofNat 8 (ownPos s), dest := 0xFF, view := viewNow s,
    tide := tide, count := if check then 0 else 1, payload := payload } region line)

/-- The FINAL holder's part of a tile check: the term of one line it has sent; stage 1 tells it from a whole check (R258,
R267; log entry 35). -/
def sendPartCheck (s : State) (rank : Nat) (region : Byte) (line : Nat) (tide : U48) (key : U64) (l : Line) : State :=
  sendRbTo s rank 0x45 .any (moveFields { RbMsg.blank with
    cove := ownCoveId s, target := 0xFF, sender := BitVec.ofNat 8 (ownPos s), dest := 0xFF, view := viewNow s, tide := tide,
    stage := 1, payload := leBytes 8 (lineTerm key (line % 256) l).toNat } region line)

/-- The finished lines of a lost rank's group, and their parts of the tile checks, go to the destinations that the move
table names (R267 step 3). -/
def sendMoves (s : State) (g : RingId) (tide : U48) (ls : List Line) : State :=
  match s.recov.shadow, s.job.plan, ownCove s with
  | some sh, some p, some c =>
    let rank := c.members.getD g.target.toNat 0
    let y := c.layout
    forEach (List.zip (List.range ls.length) ls) (fun u e =>
      let d := g.depth.toNat + e.1
      if g.parity ∨ phantom y g.bay.toNat g.piece.toNat d then u
      else forEach (moveTargets sh.plan rank (regionsOfRank p rank) g.bay.toNat (columnLine y g.bay.toNat g.piece.toNat d))
        (fun v t => sendPartCheck (sendMove v t.1 t.2.1 t.2.2 tide (lineBytes e.2) false) t.1 t.2.1 t.2.2 tide
          sh.plan.moveKey e.2) u) s
  | _, _, _ => s

/-- Send a partial sum on: to the next holder along W, or as FINAL to the target by any route; in a re-shard the FINAL
holder sends the lines to their destinations (R258, R267). -/
def sendPart (s : State) (g : RingId) (tide : U48) (stage : Nat) (ls : List Line) (rest : List (Nat × Byte)) : State :=
  let m : RbMsg :=
    { RbMsg.blank with
      parity := g.parity, target := g.target, stage := BitVec.ofNat 8 stage, tide := tide, bay := g.bay,
      base := g.base, piece := g.piece, depth := g.depth, count := g.count, payload := ls.flatMap lineBytes }
  let s := { s with recov.groupsLeft := addNew g s.recov.groupsLeft }
  match rest with
  | h :: _ => sendRb s h.1 0x40 (.w (if g.depth.toNat % 2 = 0 then Dir.plus else Dir.minus)) m
  | [] =>
    if recState s = recReshard then sendMoves s g tide ls
    else sendRb s g.target.toNat 0x40 .any { m with final := true }

/-! ### Progress -/

/-- A group: up to four lines at consecutive depths of one missing piece of a lost position (R257, R258). Which depth it
starts at, and with it the way around the ring, is the rebuild unit's (log entry 24). -/
def groupValid (s : State) (g : RingId) : Bool :=
  let y := covLayout s
  (lostPositions s).contains g.target.toNat && decide (g.bay.toNat < rowsY s ∧ g.base.toNat < Layout.n y) &&
    decide (pieceAt y g.base.toNat g.target.toNat = pieceOf g.parity g.piece.toNat) &&
    decide (1 ≤ g.count.toNat ∧ g.count.toNat ≤ 4 ∧ g.depth.toNat + g.count.toNat ≤ Layout.depth y)

/-- A list of groups covers a depth of the stripes (position, row, base). -/
def covers (gs : List RingId) (p b a d : Nat) : Bool :=
  gs.any fun g => decide (g.target.toNat = p ∧ g.bay.toNat = b ∧ g.base.toNat = a ∧ g.depth.toNat ≤ d ∧
    d < g.depth.toNat + g.count.toNat)

def coversAll (s : State) (gs : List RingId) (p b a : Nat) : Bool :=
  (List.range (Layout.depth (covLayout s))).all fun d => covers gs p b a d

/-- The member holds a piece that the decode of a lost position's stripes reads. -/
def holds (s : State) (p a : Nat) : Bool :=
  (ringHolders s a 0 (pieceAt (covLayout s) a p) (lostPositions s)).any fun h => h.1 = ownPos s

def parityPiece : Piece → Bool
  | .parity _ => true
  | .data _ => false

/-- Every group of a row, parity or data, in which the member holds a piece has left it (R251, R259). -/
def rowLeft (s : State) (parity : Bool) (b : Nat) : Bool :=
  (lostPositions s).all fun p => (List.range (covN s)).all fun a =>
    parityPiece (pieceAt (covLayout s) a p) ≠ parity || !holds s p a || coversAll s s.recov.groupsLeft p b a

def allLeft (s : State) (parity : Bool) : Bool := (List.range (rowsY s)).all fun b => rowLeft s parity b

/-- Every lost position has its target in the view (R246). -/
def targetsJoined (s : State) : Bool := (lostPositions s).all fun p => (liveSet s).getLsbD p

/-- A survivor's parity part is done: RESUMABLE; its data part is done: DONE (R251, R259). -/
def survivorProgress (s : State) : State :=
  if s.recov.target then s
  else if recState s = recParity ∧ targetsJoined s ∧ allLeft s true then setRec s recResumable
  else if recState s = recData ∧ allLeft s false then setRec s recDone
  else s

/-! ### The target -/

/-- A row's record in the check list. -/
def rowCheck (s : State) (b : Nat) : RowCheck :=
  (s.recov.rows.find? fun r => r.row = b).getD
    { row := b, digest := 0, lines := 0, accessed := false, done := false, sel := 0, redo := [] }

def putRow (s : State) (r : RowCheck) : State :=
  { s with recov.rows := s.recov.rows.filter (fun q => q.row ≠ r.row) ++ [r] }

/-- Every row of the target's data is verified: DONE (R251, R262). Rows of bays it does not declare hold nothing. -/
def targetDone (s : State) : State :=
  if recState s = recData ∧ (declaredBays s).all (fun b => (rowCheck s b).done) then
    respondOpt { setRec s recDone with recov.target := false, recov.mailbox := none } s.recov.mailbox stOk 0
  else s

/-- A row's digest in the record of the restored tide (R262). -/
def expectedDigest (s : State) (b : Nat) : U64 := look 0 b s.recov.expected

/-- A failed row is decoded again without the next surviving position in turn, unless a master has had a line of it: a
selection is numbered one above the position it omits (R262; log entry 26). -/
def retryRow (s : State) (b : Nat) : State :=
  let r := rowCheck s b
  let t := logReport s clRecovery (srcOf 7 0) b
  match (otherLive s).find? fun q => decide (r.sel ≤ q) && !(lostPositions s).contains q with
  | none => failRecovery t
  | some q =>
    if r.accessed then failRecovery t
    else
      let k := q + 1
      let u := putRow t { r with sel := k, redo := [] }
      forEach (List.range 16384) (fun v l =>
        let q : LineReq := { bay := b, line := l, sel := k, sentAt := v.time.gtc, replies := [] }
        askPieces { v with recov.reqs := v.recov.reqs ++ [q] } b l k) u

/-- A row whose lines are all rebuilt is checked against the record (R262). -/
def checkRow (s : State) (b : Nat) : State :=
  let r := rowCheck s b
  if r.done ∨ r.lines < 16384 then s
  else if r.digest = expectedDigest s b then
    targetDone { putRow s { r with done := true } with recov.rowsDone := s.recov.rowsDone + 1 }
  else retryRow s b

/-- A decoded line of the target: its bit, the line past capture, the verify digest; then whoever waited (R260 to
R262). A line whose bit is set is discarded. -/
def landLine (s : State) (b l : Nat) (v : Line) : State :=
  match lineHome s b l with
  | none => s
  | some a =>
    if rebuiltBit s b l then s
    else
      let t := setRebuilt s b l
      let t := { t with mem := t.mem.writeLine a v, recov.reqs := t.recov.reqs.filter fun q => !decide (q.bay = b ∧ q.line = l ∧ q.sel = 0) }
      let r := rowCheck t b
      checkRow (retryHeld (putRow t { r with lines := r.lines + 1, digest := r.digest ^^^ lineTerm (bayKey t b) l v })) b

/-- A line of a repeated decode: kept until the whole row verifies, then every line is rewritten, unless a master has had
one of them meanwhile (R262). -/
def landRedo (s : State) (b l : Nat) (v : Line) : State :=
  let r := rowCheck s b
  let redo := put l v r.redo
  let s := { s with recov.reqs := s.recov.reqs.filter fun q => !decide (q.bay = b ∧ q.line = l ∧ q.sel = r.sel) }
  if redo.length < 16384 then putRow s { r with redo := redo }
  else
    let d := redo.foldl (fun x e => x ^^^ lineTerm (bayKey s b) e.1 e.2) 0
    if r.accessed then failLogged s b
    else if d = expectedDigest s b then
      let t := forEach redo (fun u e => match lineHome u b e.1 with
        | some a => { u with mem := u.mem.writeLine a e.2 }
        | none => u) s
      targetDone { putRow t { r with done := true, digest := d, redo := [] } with recov.rowsDone := s.recov.rowsDone + 1 }
    else retryRow (putRow s { r with redo := [] }) b

/-- Every parity piece of the target has landed (R259). -/
def parityLanded (s : State) : Bool :=
  (List.range (rowsY s)).all fun b => (List.range (covN s)).all fun a =>
    !parityPiece (pieceAt (covLayout s) a (ownPos s)) || coversAll s s.recov.parityDone (ownPos s) b a

/-- A target that has not yet taken its tidemark store (R256). -/
def bareTarget (s : State) : Bool := s.recov.target && s.tide.stepRecord.isNone

/-- The target is RESUMABLE once every parity piece has landed and it holds its tidemark store (R256, R259). -/
def targetResume (s : State) : State :=
  if s.recov.target ∧ recState s = recParity ∧ parityLanded s ∧ ¬ bareTarget s then setRec s recResumable else s

/-- A FINAL packet at the target (R259, R260). -/
def landFinal (s : State) (m : RbMsg) : State :=
  let y := covLayout s
  let b := m.bay.toNat
  let ls := payloadLines m.payload
  if m.parity then
    let t := forEach (List.zip (List.range ls.length) ls) (fun u e =>
      let d := m.depth.toNat + e.1
      if covers u.recov.parityDone (ownPos u) b m.base.toNat d then u
      else { u with mem := u.mem.writeLine (slotBase u (sealedSlot u) + parityOffset y b m.piece.toNat d) e.2 }) s
    targetResume { t with recov.parityDone := addNew (groupOf m) t.recov.parityDone }
  else
    forEach (List.zip (List.range ls.length) ls) (fun u e =>
      let d := m.depth.toNat + e.1
      if phantom y b m.piece.toNat d then u
      else landLine u b (columnLine y b m.piece.toNat d) e.2) s

/-! ### Ring packets at a holder -/

/-- A packet of the own cove and view. -/
def rbChecks (s : State) (m : RbMsg) : Bool := s.agree.cove = some m.cove && decide (m.view = viewNow s)

/-- A packet of a view that the instance is about to install, as a member or as the target it was granted to be. -/
def rbEarly (s : State) (m : RbMsg) : Bool :=
  let d := (m.view - viewNow s).toNat
  decide (1 ≤ d ∧ d ≤ 32767) &&
    (s.agree.cove = some m.cove || (s.agree.cove.isNone && s.recov.grant.any fun g => decide (g.cove = m.cove)))

/-- Keep a packet for later (R257). -/
def park (s : State) (type : Byte) (m : RbMsg) : State := { s with recov.waiting := s.recov.waiting ++ [(type, m)] }

/-- A rebuild packet: of the own view it is taken, of a later one it waits for that view, else it is dropped (R238; log
entry 88). -/
def rbIn (type : Byte) (m : RbMsg) (s : State) (f : State → State) : State :=
  if rbChecks s m then f s else if rbEarly s m then park s type m else s

/-- The first holder starts a group, or starts it again, at the tide it offers (R257, R258). -/
def startGroup (s : State) (g : RingId) : State :=
  match groupHolders s g, offers s with
  | h :: rest, some t =>
    if h.1 = ownPos s then
      survivorProgress (sendPart { s with recov.restartAt := put g s.time.gtc s.recov.restartAt } g t 1
        (products s h.2 g.bay.toNat g.base.toNat g.depth.toNat g.count.toNat) rest)
    else s
  | _, _ => s

/-- A later holder folds in its product and passes the packet on; a packet of another tide waits or goes back
(R257, R258). -/
def passPart (s : State) (m : RbMsg) : State :=
  let g := groupOf m
  let hs := groupHolders s g
  match offers s with
  | none => park s 0x40 m
  | some t =>
    if m.stale then startGroup s g
    else if m.tide.toNat < t.toNat then
      match hs with
      | h :: _ =>
        if h.1 = ownPos s then startGroup s g else sendRb s h.1 0x40 .any { m with stale := true, payload := [], count := m.count }
      | [] => s
    else if t.toNat < m.tide.toNat then park s 0x40 m
    else
      match hs.dropWhile fun h => h.1 ≠ ownPos s with
      | h :: rest =>
        survivorProgress (sendPart s g t (m.stage.toNat + 1)
          (xorLines (payloadLines m.payload) (products s h.2 g.bay.toNat g.base.toNat g.depth.toNat g.count.toNat)) rest)
      | [] => s

/-- A holder's coefficient in a decode that omits a surviving position besides the lost ones (R262). -/
def holderCoeff (s : State) (m : RbMsg) (pos : Nat) : Byte :=
  let lost := lostPositions s ++ (if m.stage = 0 then [] else [m.stage.toNat - 1])
  look 0 pos (ringHolders s m.base.toNat 0 (pieceOf m.parity m.piece.toNat) lost)

/-- Answer a PIECE_REQ with the product at the sealed tide (R257, R261). -/
def answerPiece (s : State) (m : RbMsg) : State :=
  match offers s with
  | none => park s 0x41 m
  | some t =>
    let ls := products s (holderCoeff s m (ownPos s)) m.bay.toNat m.base.toNat m.depth.toNat m.count.toNat
    let r : RbMsg := { m with tide := t, payload := ls.flatMap lineBytes, final := false, stale := false }
    sendRb s m.sender.toNat 0x42 .any r

/-- RING_GROUP_START: the group's first holder begins it while its bucket holds the packet: parity first, data row by row
(R258, R259). -/
def execRingGroupStart (g : RingId) (s : State) : Out :=
  .next (
    let due := if g.parity then recState s = recParity ∨ recState s = recResumable
      else recState s = recResumable ∨ recState s = recData ∨ recState s = recReshard
    let rows := g.parity || (List.range g.bay.toNat).all fun b => rowLeft s false b
    let d := if g.depth.toNat % 2 = 0 then Dir.plus else Dir.minus
    if due ∧ rows ∧ ¬ s.recov.target ∧ groupValid s g ∧ ¬ s.recov.groupsLeft.contains g ∧
        ¬ s.recov.halted.getLsbD (g.depth.toNat / 4 % 4) ∧ stored (32 + 64 * g.count.toNat) ≤ rbTokens s d then
      startGroup s g
    else s)

/-- PART of the own view (R257 to R260). -/
def takePart (m : RbMsg) (s : State) : State :=
  if m.final then (if s.recov.target ∧ m.target.toNat = ownPos s then landFinal s m else s) else passPart s m

/-- PART. -/
def execPart (m : RbMsg) (s : State) : Out := .next (vfIn s fun s => rbIn 0x40 m s (takePart m))

/-- RING_RESTART: 20 µs after the first holder started a group that could not be gathered, and every 20 µs after that
(R258; log entry 86). -/
def execRingRestart (g : RingId) (s : State) : Out :=
  .next (match find g s.recov.restartAt with
    | some at_ =>
      if at_.toNat + 20000 ≤ s.time.gtc.toNat then
        match offers s with
        | some _ => startGroup s g
        | none => { s with recov.restartAt := put g s.time.gtc s.recov.restartAt }
      else s
    | none => s)

/-- PIECE_REQ (R257, R261). -/
def execPieceReq (m : RbMsg) (s : State) : Out := .next (vfIn s fun s => rbIn 0x41 m s fun s => answerPiece s m)

/-- A position outside LOST is held by another die than the plan names: a target that joined earlier and may still be
rebuilt, which a later target cannot tell from its view (log entry 89). -/
def movedOther (s : State) : Bool :=
  match ownCove s with
  | some c => (otherLive s).any fun q => q ∉ lostPositions s && rankAt s c.coveId q ≠ c.members.getD q 0
  | none => false

/-- Positions whose products make up a line: the holders of the selection, or every other live position, whose product is
zero where it holds no piece of the selection. -/
def askedHolders (s : State) (q : LineReq) : List Nat :=
  if movedOther s then otherLive s
  else
    let y := covLayout s
    let p := place y (ownPos s) q.bay q.line
    (ringHolders s p.base 0 (.data p.column) (lostPositions s ++ (if q.sel = 0 then [] else [q.sel - 1]))).map Prod.fst

/-- The replies of a line settle it when every holder of the selection has answered at one tide (R261). -/
def settleReq (s : State) (q : LineReq) : State :=
  let hs := askedHolders s q
  let top := (q.replies.map fun r => r.2.1.toNat).foldl max 0
  match [top, top - 1].find? fun t => hs.all fun h => q.replies.any fun r => r.1 = h ∧ r.2.1.toNat = t with
  | none => s
  | some t =>
    let v := (q.replies.filter fun r => r.2.1.toNat = t ∧ hs.contains r.1).foldl (fun x r => x ^^^ r.2.2) 0
    if q.sel = 0 then landLine s q.bay q.line v else landRedo s q.bay q.line v

/-- A holder's product; a reply of the same holder replaces its earlier one (R261). -/
def takePiece (m : RbMsg) (s : State) : State :=
  let l := columnLine (covLayout s) m.bay.toNat m.piece.toNat m.depth.toNat
  match s.recov.reqs.find? fun q => q.bay = m.bay.toNat ∧ q.line = l ∧ q.sel = m.stage.toNat with
  | none => s
  | some q =>
    let v := (payloadLines m.payload).headD 0
    let q' := { q with replies := q.replies.filter (fun r => r.1 ≠ m.sender.toNat) ++ [(m.sender.toNat, m.tide, v)] }
    settleReq { s with recov.reqs := replaceFirst (fun r => decide (r = q)) (fun _ => q') s.recov.reqs } q'

/-- PIECE. -/
def execPiece (m : RbMsg) (s : State) : Out := .next (vfIn s fun s => rbIn 0x42 m s (takePiece m))

/-- PIECE_REQ_RETRY: the target asks again 20 µs after its last request for a line (R261). -/
def execPieceReqRetry (line : U64) (s : State) : Out :=
  .next (match bayLine s line.toNat with
    | none => s
    | some (b, l) =>
      match s.recov.reqs.find? fun q => q.bay = b ∧ q.line = l with
      | some q =>
        if q.sentAt.toNat + 20000 ≤ s.time.gtc.toNat then
          askPieces { s with recov.reqs := replaceFirst (fun r => decide (r = q)) (fun r => { r with sentAt := s.time.gtc }) s.recov.reqs } b l q.sel
        else s
      | none => s)

/-! ### The tidemark store a target takes (R256, R258) -/

/-- Bytes of an area as its fragments. -/
def fragmentsOf (bs : List Byte) : List (List Byte) := chunks 256 bs

/-- Send fragments of the sealed area in ascending index (R258). -/
def sendArea (s : State) (pos first n : Nat) : State :=
  match ownCove s with
  | none => s
  | some c =>
    let frs := fragmentsOf (s.mem.bytes (areaBase s (sealedSlot s)) (areaSize c))
    let want := ((List.zip (List.range frs.length) frs).drop first).take (if n = 0 then frs.length else n)
    forEach want (fun t e => sendRb t pos 0x43 .any
      { RbMsg.blank with
        target := BitVec.ofNat 8 pos, tide := sealedTide t, depth := BitVec.ofNat 16 e.1, payload := e.2 }) s

/-- TMARK_REQ: a survivor that holds the tide's area answers (R258). -/
def takeTmarkReq (m : RbMsg) (s : State) : State :=
  if m.tide = sealedTide s ∧ phaseNow s ≠ phCommitted then sendArea s m.sender.toNat m.depth.toNat m.bay.toNat else s

def execTmarkReq (m : RbMsg) (s : State) : Out := .next (vfIn s fun s => rbIn 0x46 m s (takeTmarkReq m))

/-- Ask a survivor for fragments. -/
def askArea (s : State) (pos first n : Nat) : State :=
  sendRb s pos 0x46 .any
    { RbMsg.blank with
      target := BitVec.ofNat 8 (ownPos s), tide := s.recov.tide, depth := BitVec.ofNat 16 first, bay := BitVec.ofNat 16 n }

/-- Survivors a target asks: the live members but itself, in position order. -/
def survivors (s : State) : List Nat := (otherLive s).filter fun q => q ∉ lostPositions s

/-- The next survivor after a position, in position order, wrapping. -/
def nextSurvivor (s : State) (p : Nat) : Nat :=
  match (survivors s).find? fun q => p < q with
  | some q => q
  | none => (survivors s).headD p

/-- The fragment that holds the manifest line, and the line's offset in it. -/
def manifestPlace (c : CovePlan) : Nat × Nat :=
  let o := Layout.n c.layout * recordSize c.rows
  (o / 256, o % 256)

/-- The area a target has gathered, when whole. -/
def gatheredArea (s : State) (c : CovePlan) : Option (List Byte) :=
  let n := (areaSize c + 255) / 256
  if (List.range n).all fun i => s.recov.tmark.any fun e => e.1 = i then
    some (((List.range n).flatMap fun i => look [] i s.recov.tmark).take (areaSize c))
  else none

/-- The manifest over the records of an area (R141). -/
def areaManifest (c : CovePlan) (area : List Byte) : List Byte := sha256 (area.take (Layout.n c.layout * recordSize c.rows))

/-- Take a verified area: the store, the running digests, the group table and step record (R256). -/
def takeArea (s : State) (c : CovePlan) (area : List Byte) (slot : Nat) : State :=
  let own := (area.drop (ownPos s * recordSize c.rows)).take (recordSize c.rows)
  let ds := (List.range c.rows).filterMap fun b =>
    let d : U64 := BitVec.ofNat 64 (fldAt own (4352 + 8 * b) 8)
    if d = 0 then none else some (b, d)
  { s with
    mem := s.mem.write (areaBase s slot) area
    digests := ds
    recov.expected := ds
    tide.stepRecord := some (BitVec.ofNat 48 (fldAt own 6 6), (own.drop 128).take 4224)
    tide.jobStart := BitVec.ofNat 64 (fldAt own 40 8)
    tide.jobLosses := fldAt own 48 4
    tide.costNs := fldAt own 52 4
    tide.counted := BitVec.ofNat 64 (fldAt own 16 8)
    recov.tmark := [] }

/-- Judge the area once it and the check line are held (R256 step 5). -/
def judgeArea (s : State) : State :=
  match ownCove s with
  | none => s
  | some c =>
    match gatheredArea s c, s.recov.tmarkCheck with
    | some area, some line =>
      let m := areaManifest c area
      let own := (area.drop (Layout.n c.layout * recordSize c.rows)).take 64
      if (own.drop 8).take 32 = m ∧ (line.drop 8).take 32 = m then targetResume (takeArea s c area (sealedSlot s))
      else
        let t := logReport s clManifest (srcOf 7 0) s.recov.tmarkFrom
        if 1 ≤ s.recov.tmarkMisses then failLogged t 1
        else
          let p := nextSurvivor s (nextSurvivor s s.recov.tmarkFrom)
          askArea { t with recov.tmark := [], recov.tmarkFrom := p, recov.tmarkMisses := s.recov.tmarkMisses + 1 } p 0 0
    | _, _ => s

/-- A target learns the restored tide from what the cove sends it (R256). -/
def adoptTide (s : State) (t : U48) : State :=
  { s with
    recov.tide := t
    tide.tideLo := V3.all (t.truncate 32)
    tide.tideHi := V3.all (BitVec.ofNat 16 (t.toNat / 2 ^ 32)) }

/-- A fragment of the area has come: once it is whole, its check line is asked of the next survivor (R256 step 5). -/
def areaTaken (s : State) : State :=
  match ownCove s with
  | none => s
  | some c =>
    if (gatheredArea s c).isSome ∧ s.recov.tmarkCheck.isNone then
      askArea s (nextSurvivor s s.recov.tmarkFrom) (manifestPlace c).1 1
    else judgeArea s

/-- A fragment from the supplier of the area, or the check line from a second survivor, for a target that has not taken its
store (R256, R258). -/
def takeTmark (m : RbMsg) (s : State) : State :=
  if !bareTarget s then s
  else
    let s := if s.recov.tmark = [] then adoptTide s m.tide else s
    if m.tide ≠ s.recov.tide then s
    else if m.sender.toNat = s.recov.tmarkFrom then areaTaken { s with recov.tmark := put m.depth.toNat m.payload s.recov.tmark }
    else
      match ownCove s with
      | some c =>
        if m.depth.toNat = (manifestPlace c).1 then
          judgeArea { s with recov.tmarkCheck := some ((m.payload.drop (manifestPlace c).2).take 64) }
        else s
      | none => s

/-- A handover's target takes the outgoing member's store for the slot that flips (R265). -/
def takeHandoverMark (m : RbMsg) (h : Handover) (s : State) : State :=
  if h.outgoing then s
  else
    let t := { s with recov.tmark := put m.depth.toNat m.payload s.recov.tmark }
    match ownCove t with
    | some c => match gatheredArea t c with
      | some area => takeArea t c area (workingSlot t)
      | none => t
    | none => t

/-- TMARK. -/
def execTmark (m : RbMsg) (s : State) : Out :=
  .next (vfIn s fun s => match s.recov.handover with
    | some h => takeHandoverMark m h s
    | none => rbIn 0x43 m s (takeTmark m))

/-- The lowest live position that is not being rebuilt: it supplies the tidemark store (R256). -/
def sponsorOf (live lost : U16) : Nat := ((bitsOf 16 live).filter fun p => !lost.getLsbD p).headD 0

/-- Once it has rolled back, the sponsor sends the area to every target that has joined (R246, R256). -/
def supplyTargets (s : State) : State :=
  if phaseNow s = phHeld ∧ ¬ s.recov.rollingBack ∧ recState s ≠ recDeciding ∧ recState s ≠ recFailed ∧ ¬ s.recov.target ∧
      sponsorOf (liveSet s) s.recov.lost.get = ownPos s then
    forEach ((lostPositions s).filter fun p => (liveSet s).getLsbD p) (fun t p => sendArea t p 0 0) s
  else s

/-! ### Packets that waited, rollback, and beginning again (R238, R246, R248, R257) -/

/-- Take a packet that waited. -/
def takeParked (s : State) (e : Byte × RbMsg) : State :=
  rbIn e.1 e.2 s (
    if e.1 = 0x40 then takePart e.2
    else if e.1 = 0x41 then fun t => answerPiece t e.2
    else if e.1 = 0x42 then takePiece e.2
    else if e.1 = 0x43 then takeTmark e.2
    else takeTmarkReq e.2)

/-- Packets that waited are answered or passed on: from the flip to RELEASE, during rollback, or for a view (R257). -/
def serveWaiting (s : State) : State := forEach s.recov.waiting takeParked { s with recov.waiting := [] }

/-- Where a member stands after its rollback: it resumes, decodes parity, or waits for a target (R246, R254). A survivor
that is not the captain waits whatever standbys the plan lists (log entry 31). -/
def standing (s : State) : State :=
  if s.recov.lost.get = 0 then setRec s recResumable
  else if s.recov.target then setRec s (if parityLanded s && !bareTarget s then recResumable else recParity)
  else if targetsJoined s then survivorProgress (setRec s recParity)
  else if isCaptain s ∧ s.recov.asked.isSome then s
  else setRec s recWaitTarget

/-- After rollback the member offers its pieces, and supplies the targets (R246, R256, R257). -/
def afterRollback (s : State) : State := supplyTargets (serveWaiting (standing s))

/-- The rollback walk and its digest check (R248, R249). -/
def rollback (s : State) : State :=
  let t := forEach (stashEntries s) restoreLine s
  let t := { t with recov.rollingBack := false }
  if digestsMatch t then afterRollback (forgetOthers t)
  else failLogged t 0

/-- The commands that the recovery stopped have ended (R20, R245, R246). -/
def commandsEnded (s : State) : Bool :=
  s.apply.run.all (fun r => r.stop = .none) && s.exch.reduces.all (fun r => r.stop = .none) &&
    s.exch.compress.all (fun r => r.stop = .none)

/-- ROLLBACK_DONE: the walk ends, once the stopped commands have ended and capture has drained (R113, R246, R248). A member
that has rolled back already for this recovery is left as it is. -/
def execRollbackDone (s : State) : Out :=
  .next (if s.recov.rollingBack ∧ commandsEnded s ∧ s.cap.queue = [] ∧ s.cap.oldReads = [] ∧ s.power.asleep = false then
      rollback s
    else s)

/-- A target's actions begin again: its store is sent anew, and its lines are asked for anew (R238, R256, R261). -/
def askAgain (s : State) : State :=
  let s := if bareTarget s then
      { s with recov.tmark := [], recov.tmarkCheck := none, recov.tmarkMisses := 0,
               recov.tmarkFrom := sponsorOf (liveSet s) s.recov.lost.get }
    else s
  let qs := s.recov.reqs
  forEach qs (fun t q => askPieces t q.bay q.line q.sel)
    { s with recov.reqs := qs.map fun q => { q with replies := [], sentAt := s.time.gtc } }

/-- Every action of recovery begins again under the installed view (R238). Packets that waited for this view are kept. -/
def restartActions (s : State) : State :=
  let t := { s with
    recov.groupsLeft := [], recov.restartAt := [], recov.waiting := s.recov.waiting.filter fun e => rbChecks s e.2 || rbEarly s e.2 }
  if t.recov.target then askAgain t else t

/-! ### Handover copy (R264, R265) -/

/-- The line of a copy unit as the outgoing member holds it: a data line, or a line of the working slot's frame, which
equals the sealed slot's line until the cursor of R100 has passed it. -/
def unitLine (s : State) (b u : Nat) : Line :=
  if u < 16384 then (match lineHome s b u with | some a => s.mem.line a | none => 0)
  else
    let off := b * Layout.frame (covLayout s) + (u - 16384) * 64
    s.mem.line (slotBase s (if cursorPassed s off then workingSlot s else sealedSlot s) + off)

/-- The copy cursor passes the next packet: up to four lines of one row, data or parity (R258, R264). -/
def copyPacket (s : State) (h : Handover) : State :=
  let n := copyUnits (covLayout s)
  let b := h.cursor / n
  let u := h.cursor % n
  let k := min 4 (n - u)
  let t := sendMirror s h.peerRank (decide (16384 ≤ u)) b (if u < 16384 then u else u - 16384)
    ((List.range k).map fun i => unitLine s b (u + i))
  { t with recov.handover := some { h with cursor := h.cursor + k, finished := decide (rowsY s * n ≤ h.cursor + k) } }

/-- The cursor moves on while `go` allows it, at most `fuel` packets. -/
def copyRun (go : State → Nat → Bool) : Nat → State → State
  | 0, s => s
  | fuel + 1, s =>
    match s.recov.handover with
    | some h => if h.outgoing && !h.finished && go s h.peerRank then copyRun go fuel (copyPacket s h) else s
    | none => s

/-- The rebuild bucket toward a die holds a packet of four lines. -/
def bucketHolds (s : State) (rank : Nat) : Bool := decide (stored (32 + 256) ≤ rbTokens s (chargeDir s rank .any))

/-- The copy goes on at the rebuild share (R264). -/
def copyOn (s : State) : State := copyRun bucketHolds 64 s

/-- HANDOVER_COPY_DONE: the copy cursor passes the last row (R264). -/
def execHandoverCopyDone (s : State) : Out :=
  .next (copyRun (fun _ _ => true) (rowsY s * copyUnits (covLayout s)) s)

/-- CLAIM_ACK from a target to the captain; the ballot field names the position (log entry 25). -/
def sendClaimAck (s : State) (rank : Nat) (cove : U16) (epoch : U32) (pos : Nat) (refused : Bool) : State :=
  sendTo s rank .va .any (.agree 0x2E
    { jobTag := jobTag s, cove := cove, sender := 0xFF, dest := 0xFF, epoch := epoch, ballot := BitVec.ofNat 32 pos,
      arg := if refused then 1 else 0, gtc := s.time.gtc, body := [] })

/-- MIRROR at the target of a handover: the line is written past capture; a packet without lines tells the flip
(R264, R265; log entry 27). -/
def execMirror (m : RbMsg) (s : State) : Out :=
  .next (vfIn s fun s => match s.recov.handover with
    | none => s
    | some h =>
      if h.outgoing ∨ s.agree.cove ≠ some m.cove then s
      else if m.count = 0 then
        { s with
          recov.handover := some { h with cutover := true }
          tide.decision := some (m.tide, .commit (BitVec.ofNat 16 (fldAt m.payload 0 2)) (BitVec.ofNat 32 (fldAt m.payload 4 4))) }
      else
        let b := m.bay.toNat
        let ls := payloadLines m.payload
        let t := forEach (List.zip (List.range ls.length) ls) (fun t e =>
          let d := m.depth.toNat + e.1
          if m.parity then
            { t with mem := t.mem.writeLine (slotBase s (workingSlot s) + b * Layout.frame (covLayout s) + d * 64) e.2 }
          else match lineHome t b d with
            | some a => { t with mem := t.mem.writeLine a e.2 }
            | none => t) s
        let u := b * copyUnits (covLayout s) + (if m.parity then 16384 else 0) + m.depth.toNat + ls.length
        let fin := decide (rowsY s * copyUnits (covLayout s) ≤ u)
        let t := { t with recov.handover := some { h with cursor := max h.cursor u, finished := h.finished || fin } }
        if fin ∧ ¬ h.finished then
          match s.recov.grant with
          | some g => sendClaimAck t g.captainRank g.cove g.epoch g.position false
          | none => t
        else t)

/-- Recovery begins again from its first action under the installed epoch (R238, R312, R386). -/
def restartRecovery (s : State) : State :=
  if recState s = recNone ∨ recState s = recDone ∨ recState s = recFailed then s
  else
    let t := restartActions s
    if recState s = recRolling then { t with recov.rollingBack := true } else t

end Sys2Proof.Machine
end

