-- ==== Sys2Proof/Machine/Twin.lean ====
section
/-! DEFINITION. Starting Spring on a wake cause, and twin mode (R236, R269 to R271, R393). -/

namespace Sys2Proof.Machine

/-! ### Spring -/

/-- Start Spring, or keep the cause while a transition into Autumn or Winter runs (R390, R391, R393). -/
def startSpring (s : State) : State :=
  if s.power.moving then (if s.power.target = 0 then s else { s with power.wakeKept := true })
  else if s.power.season.get = 1 ∨ s.power.season.get = 2 then
    { s with power := { s.power with
        moving := true, target := 0, springStep := 0, fromWinter := decide (s.power.season.get = 2),
        season := V3.all 3 } }
  else s

/-- A wake cause, taken while WAKE_EN is 1: BCN_STAT.WAKE and Spring (R236). -/
def wakeCause (s : State) : State :=
  if s.beacon.wakeEn ∧ (s.power.season.get = 1 ∨ s.power.season.get = 2 ∨ (s.power.moving ∧ s.power.target ≠ 0)) then
    raiseEvent (startSpring { s with beacon.wake := true }) evBcnWake 0
  else s

/-- A message of the header of R217 at LKP: a foreign job_tag drops it; in Autumn it wakes; in Winter it wakes and is
not handled (R217, R231, R236, R274). `wakes` is false for heartbeats and twin messages. -/
def agreeIn (s : State) (m : AgreeMsg) (wakes : Bool) (f : State → State) : State :=
  if !s.ports.lkp then s
  else if m.jobTag ≠ jobTag s ∨ s.job.part.isNone then count s cntVaDrop
  else
    let t := if wakes then wakeCause s else s
    if s.power.season.get = 2 then t else f t

/-- A plan fragment that Winter discards is counted, since it arrived at the fold port (R274). -/
def discardedFragment (s t : State) : State := if s.ports.lkp ∧ s.power.season.get = 2 then count t cntLkpDiscard else t

/-- Fields of a message body. -/
def bodyFld (m : AgreeMsg) (off size : Nat) : Nat := fldAt m.body off size

/-! ### Twin messages -/

/-- Row count a twin compares: the own cove's, or the planned one's before forming (R269). -/
def twinRows (s : State) : Nat :=
  match ownCove s with
  | some c => c.rows
  | none => match s.job.plan with
    | some p => match coveOfRank p (ownRank s) with
      | some c => c.1.rows
      | none => 0
    | none => 0

/-- The bay-digest section of the own record of the sealed tide, or of the tide before it, whose record the other area
holds (R134, R135, R269). -/
def digestSection (s : State) (tide : U48) : List Byte :=
  s.mem.bytes (areaBase s (if tide = sealedTide s then sealedSlot s else workingSlot s) + ownPos s * recordSize (rowsY s) + 4352)
    (8 * rowsY s)

def sendTwin (s : State) (type : Byte) (arg : U32) (body : List Byte) : State :=
  match s.twin.peer with
  | none => s
  | some r => sendTo s r .va .any (.agree type
      { jobTag := jobTag s, cove := 0, sender := 0xFF, dest := 0xFF, epoch := 0, ballot := 0, arg := arg,
        gtc := s.time.gtc, body := body })

/-- The last two entries of a list. -/
def lastTwo {α : Type} (l : List α) : List α := l.drop (l.length - 2)

/-- The newest tide that both sides have summarised. -/
def commonTide (s : State) : Option (U48 × List Byte × List Byte) :=
  s.twin.own.reverse.findSome? fun o =>
    (s.twin.theirs.find? fun t => t.1 = o.1).map fun t => (o.1, o.2, t.2)

/-- One side's newest summary is two or more tides behind the other's: the pair is in LAG. -/
def peerLags (s : State) : Bool :=
  match s.twin.own.getLast?, s.twin.theirs.getLast? with
  | some o, some t => decide (t.1.toNat + 2 ≤ o.1.toNat ∨ o.1.toNat + 2 ≤ t.1.toNat)
  | _, _ => false

/-- Bay digests of the own record from a bay on, at most 32 of them. -/
def bayDigests (s : State) (first : Nat) : List Byte := ((digestSection s s.twin.tide).drop (8 * first)).take 256

/-- Compare the newest summaries of one tide, once; on a difference the twin with the lower rank streams its bay digests
(R270). -/
def compareTwins (s : State) : State :=
  if s.job.state ≠ 3 then s
  else match commonTide s with
    | some (t, a, b) =>
      if s.twin.compared = some t then s
      else if a = b then { s with twin := { s.twin with state := 2, tide := t, compared := some t } }
      else
        let u := { s with twin := { s.twin with state := 3, tide := t, compared := some t, lineValid := false, lo := 0, hi := 16384 } }
        match s.twin.peer with
        | some r =>
          if ownRank s < r then
            forEach (List.range ((rowsY u + 31) / 32)) (fun v i =>
              sendTwin v 0x51 (BitVec.ofNat 32 (32 * i)) (bayDigests v (32 * i))) u
          else u
        | none => u
    | none => if peerLags s then { s with twin.state := 6 } else s

/-- Send TWIN_SUM for the sealed tide and keep the summary (R269, R270). -/
def sendTwinSum (s : State) : State :=
  match s.twin.peer with
  | none => s
  | some _ =>
    let d := sha256 (digestSection s (sealedTide s))
    let t := { s with twin.own := lastTwo ((s.twin.own.filter fun o => o.1 ≠ sealedTide s) ++ [(sealedTide s, d)]) }
    compareTwins (sendTwin t 0x50 0
      (leBytes 6 (sealedTide s).toNat ++ leBytes 2 0 ++ leBytes 4 (twinRows s) ++ leBytes 4 0 ++ d))

/-- After RELEASE, under COMPARE_EACH_TIDE. -/
def twinAfterRelease (s : State) : State := if s.twin.mode = 1 ∧ s.twin.state ≠ 0 then sendTwinSum s else s

/-- TWIN_PAIR (R269). The answer waits for the first exchange, which tells the peer's row count (log entry 28). -/
def execTwinPair (src : CmdSrc) (s : State) : Out :=
  mailboxRow 0x14 (fun mb t s =>
    let peer := fld t.cmd 8 4
    let mode := fld t.cmd 12 1
    if 2 < mode then badArg s mb 12
    else if mode = 0 then
      respondOk { s with twin := { s.twin with state := 0, peer := none, mode := 0, own := [], theirs := [], compared := none } } mb
    else
      match s.job.part with
      | none => wrongState s mb
      | some p =>
        if partitionDies p ≤ peer ∨ peer / 64 = p.rank / 64 then badArg s mb 8
        else sendTwinSum
          { s with twin := { s.twin with
              state := 1, peer := some peer, mode := BitVec.ofNat 8 mode, own := [], theirs := [], compared := none,
              rowsChecked := false, mailbox := some mb } }) src s

/-- TWIN_SUM (R269, R270). -/
def execTwinSum (m : AgreeMsg) (s : State) : Out :=
  .next (agreeIn s m false fun s =>
    match s.twin.peer with
    | none => s
    | some _ =>
      if bodyFld m 8 4 ≠ twinRows s ∧ ¬ s.twin.rowsChecked then
        let t := { s with twin := { s.twin with state := 0, peer := none, mode := 0, mailbox := none } }
        match s.twin.mailbox with
        | some mb => badArg t mb 8
        | none => t
      else
        let tide : U48 := BitVec.ofNat 48 (bodyFld m 0 6)
        let t := { s with twin := { s.twin with
          theirs := lastTwo ((s.twin.theirs.filter fun o => o.1 ≠ tide) ++ [(tide, (m.body.drop 16).take 32)])
          rowsChecked := true, mailbox := none } }
        compareTwins (respondOpt t s.twin.mailbox stOk 0))

/-- XOR of the line terms of a range of lines of the sealed view (R137, R270). -/
def rangeDigest (s : State) (b lo hi : Nat) : U64 :=
  (List.range (hi - lo)).foldl (fun x i => x ^^^ lineTerm (bayKey s b) (lo + i) (sealedLine s b (lo + i))) 0

/-- Send the digest of the lower half of a range (R270). -/
def sendRange (s : State) (b lo hi : Nat) : State :=
  let mid := lo + (hi - lo) / 2
  sendTwin { s with twin.lo := lo, twin.hi := hi } 0x52 (BitVec.ofNat 32 b)
    (leBytes 2 lo ++ leBytes 2 mid ++ leBytes 4 0 ++ leBytes 8 (rangeDigest s b lo mid).toNat)

/-- The first diverging line is known: DIVERGED and the event (R270). -/
def twinFound (s : State) (b l : Nat) : State :=
  raiseEvent { s with twin := { s.twin with
    state := 4, divEvt := true, bay := BitVec.ofNat 16 b, line := BitVec.ofNat 14 l, lineValid := true,
    lo := l, hi := l + 1 } } evTwinDiverged 0

/-- TWIN_BAYS: the twin with the higher rank looks for the lowest differing bay and opens the halving (R270). -/
def execTwinBays (m : AgreeMsg) (s : State) : Out :=
  .next (agreeIn s m false fun s =>
    let low : Bool := match s.twin.peer with
      | some r => decide (ownRank s < r)
      | none => true
    if s.twin.state ≠ 3 ∨ low ∨ s.twin.lo ≠ 0 ∨ s.twin.hi ≠ 16384 then s
    else
      let first := m.arg.toNat
      match (List.range (m.body.length / 8)).find? fun i =>
          decide ((m.body.drop (8 * i)).take 8 ≠ ((digestSection s s.twin.tide).drop (8 * (first + i))).take 8) with
      | some i => sendRange { s with twin.bay := BitVec.ofNat 16 (first + i) } (first + i) 0 16384
      | none => s)

/-- TWIN_RANGE: keep the half whose digests differ; at one line the search ends, and an empty range tells the other
twin (R270; log entry 28). -/
def execTwinRange (m : AgreeMsg) (s : State) : Out :=
  .next (agreeIn s m false fun s =>
    if s.twin.state ≠ 3 then s
    else
      let b := m.arg.toNat
      let f := bodyFld m 0 2
      let e := bodyFld m 2 2
      if e ≤ f then twinFound s b f
      else
        let differs := decide (bodyFld m 8 8 ≠ (rangeDigest s b f e).toNat)
        let lo := if differs then f else e
        let hi := if differs then e else 2 * e - f
        if hi - lo ≤ 1 then
          sendTwin (twinFound s b lo) 0x52 m.arg (leBytes 2 lo ++ leBytes 2 lo ++ leBytes 4 0 ++ leBytes 8 0)
        else sendRange s b lo hi)

/-- TWIN_PEER_LOST (R270). -/
def execTwinPeerLost (s : State) : Out :=
  .next (if s.twin.peer.isSome ∧ s.twin.state ≠ 0 then
      respondOpt (raiseEvent { s with twin := { s.twin with state := 5, mailbox := none } } evTwinPeerLost 0)
        s.twin.mailbox stOk 0
    else s)

end Sys2Proof.Machine
end

