-- ==== Sys2Proof/Machine/Propose.lean ====
section
/-! DEFINITION. Suspicion, probes and the proposer's side of a view change up to ACCEPT, and the seal information a
member reports (R212 to R221). -/

namespace Sys2Proof.Machine

/-! ### Seal information (R218) -/

/-- The tide being sealed, or the open flood. -/
def sealTide (s : State) : U48 := if phaseNow s = phCommitted then sealedTide s else sealedTide s + 1

/-- The decision held for a tide: 0 none, 1 COMMIT, 2 ABANDON. -/
def decisionCode (s : State) (t : U48) : Nat :=
  match s.tide.decision with
  | some (u, d) => if u = t then (match d with | .commit _ _ => 1 | .abandon _ => 2) else 0
  | none => 0

/-- Positions whose record the member holds whole. -/
def holdsRecord (s : State) (p : Nat) : Bool :=
  if p = ownPos s then s.tide.ownRecord ≠ []
  else match find p s.tide.parts with
    | some bs => bs.length = recordSize (rowsY s)
    | none => false

def holdsMarker (s : State) (p : Nat) : Bool := s.tide.markers.any fun m => m.origin.toNat = p

/-- The 16 B of seal information (R218). -/
def sealInfo (s : State) : List Byte :=
  let n := Layout.n (covLayout s)
  let marks := (List.range n).filter fun p => holdsRecord s p && (p = ownPos s || holdsMarker s p)
  let done := (List.range n).filter fun p => completeFor s p
  [(phaseNow s).zeroExtend 8, BitVec.ofNat 8 (decisionCode s (sealTide s))] ++
    leBytes 2 (maskOf 16 marks).toNat ++ leBytes 2 (maskOf 16 done).toNat ++
    [if sealRuns s then 1 else 0, 0] ++ leBytes 6 (sealTide s).toNat ++ leBytes 2 0

/-! ### Suspicion and probes (R212 to R215, R221) -/

abbrev agNone : BitVec 3 := 0
abbrev agStable : BitVec 3 := 1
abbrev agSuspecting : BitVec 3 := 2
abbrev agChanging : BitVec 3 := 3
abbrev agNoQuorum : BitVec 3 := 4
abbrev agExcluded : BitVec 3 := 5

/-- The agreement unit acts: a member of a cove, neither out of quorum, excluded nor withdrawn. -/
def agreeing (s : State) : Bool :=
  s.agree.cove.isSome && s.agree.state ≠ 0 && s.agree.state ≠ 4 && s.agree.state ≠ 5 && !s.agree.withdrawn

def fromNow (s : State) (ns : Nat) : U64 := s.time.gtc + BitVec.ofNat 64 ns

/-- Start the 300 µs timer, unless it runs (R221). -/
def startTimer (s : State) : State :=
  if s.agree.timerAt.isSome then s else { s with agree.timerAt := some (fromNow s 300000) }

/-- Probe a position, unless a probe for the same reason is outstanding. -/
def probePos (s : State) (q : Nat) (why : ProbeWhy) : State :=
  if s.agree.probes.any fun p => p.2 = why then s else sendProbe s (rankAt s (ownCoveId s) q) why

/-- Live members not confirmed lost. -/
def reachable (s : State) : List Nat := (livePositions s).filter fun q => q ∉ s.agree.confirmed

/-- A quorum: more than half of the live set (R221). -/
def quorum (s : State) : Nat := (livePositions s).length / 2 + 1

def noRank : U32 := 0xFFFFFFFF

/-- Begin a proposal: a new round, PREPARE to the other members, the own promise counted (R221). The own promise is
given only where R220 and R247 allow it. -/
def startProposal (s : State) : State :=
  if s.agree.proposal.isSome ∨ !agreeing s then s
  else
    let r := s.agree.round + 1
    let b : U32 := BitVec.ofNat 32 (r * 256 + ownPos s)
    let idle := phaseNow s ≠ phHeld || foldIdle s
    let mine := decide (s.agree.promised.toNat < b.toNat) && idle
    let own : Promised := { pos := ownPos s, acc := s.agree.accepted, info := sealInfo s }
    let p : Proposal :=
      { epoch := epochNow s + 1, ballot := b, accepting := false, promises := if mine then [own] else [],
        acceptedBy := [], nackMax := 0, answered := [ownPos s], live := 0, reason := 0, joining := noRank,
        since := s.time.gtc }
    let t := { s with
      agree.round := r
      agree.proposal := some p
      agree.promised := if mine then b else s.agree.promised
      agree.state := agChanging
      agree.retryAt := none }
    forEach (otherLive t) (fun u q => sendAgreePos u q 0x22 (epochNow u + 1) b 0 []) t

/-- Start a proposal where one is due: a confirmed loss in the live set, or a view firmware wishes. -/
def proposeDue (s : State) : State :=
  if s.agree.confirmed.any (fun q => (liveSet s).getLsbD q) ∨ s.agree.wishes ≠ [] then startProposal s else s

/-- R221, on suspicion: the lowest position not suspected probes the suspects and proposes once one is confirmed; the
others start the timer. -/
def evaluate (s : State) : State :=
  let sus := s.agree.suspects.filter fun q => (liveSet s).getLsbD q
  let s := { s with agree.suspects := sus }
  if sus = [] ∨ !agreeing s then s
  else match (livePositions s).find? fun q => q ∉ sus with
    | some q =>
      if q = ownPos s then
        let t := forEach (sus.filter fun p => p ∉ s.agree.confirmed) (fun u p => probePos u p (.suspicion p)) s
        if sus.any fun p => p ∈ s.agree.confirmed then startProposal t else t
      else startTimer s
    | none => s

/-- A live position of the own cove becomes suspected (R213, R221). -/
def suspectPos (s : State) (q : Nat) : State :=
  if q = ownPos s ∨ !agreeing s ∨ !(liveSet s).getLsbD q then s
  else
    evaluate { s with agree := { s.agree with
      suspects := addNew q s.agree.suspects
      firstSuspicion := some (s.agree.firstSuspicion.getD s.time.gtc)
      state := if s.agree.state = agStable then agSuspecting else s.agree.state } }

/-- A loss is confirmed. -/
def confirmLoss (s : State) (q : Nat) : State :=
  if !(liveSet s).getLsbD q then s
  else evaluate { s with agree.confirmed := addNew q s.agree.confirmed, agree.suspects := addNew q s.agree.suspects }

/-- No suspicion is left: the timers that belong to it end (R215, R221, R224). -/
def calm (s : State) : State :=
  { s with agree := { s.agree with
    timerAt := none, firstSuspicion := none,
    state := if s.agree.state = agSuspecting then agStable else s.agree.state } }

/-- A suspicion is refuted (R215). -/
def refute (s : State) (q : Nat) : State :=
  let t := { s with agree.suspects := s.agree.suspects.filter fun p => p ≠ q }
  if t.agree.suspects = [] then calm t else evaluate t

/-- The cove and position of a rank, as moved since the plan (R223, R256). -/
def memberAt (s : State) (r : Nat) : Option (U16 × Nat) :=
  match s.agree.cove, s.agree.posRank.findIdx? fun q => q = r with
  | some c, some i => some (c, i)
  | _, _ => match s.agree.moved.find? fun m => m.2.2 = r with
    | some m => some (m.1, m.2.1)
    | none => match s.job.plan with
      | some p => match coveOfRank p r with
        | some (c, i) => if rankAt s c.coveId i = r then some (c.coveId, i) else none
        | none => none
      | none => none

/-- The plan, or a later move, names the die as a rank of the job (R212). -/
def namedRank (s : State) (r : Nat) : Bool :=
  (memberAt s r).isSome || s.job.rankChanges.any (fun c => c.2 = r) ||
    match s.job.plan with | some p => planNames p r | none => false

/-- The die at the far end of a port. -/
def portRank (s : State) (q : Fin 8) : Option Nat := match s.job.part with | some p => farRank p q | none => none

def setLinkFault (s : State) (q : Nat) (on : Bool) : State :=
  { s with ports.linkFault := setBit s.ports.linkFault q on }

/-- The instance is a member of the cove: a handover's target is not one before its view installs (R264). -/
def inCove (s : State) (cove : U16) : Bool :=
  decide (s.agree.cove = some cove) && s.agree.state ≠ agNone && s.agree.state ≠ agExcluded

/-- A torus port: ±X, ±Y or ±Z (R15). -/
def torusPort (q : Fin 8) : Bool := decide (q.val < 6)

/-- Tell the members of a cove of a suspicion: the own cove's, or through a torus port another cove's (R213). To
another cove the epoch field is 0 (log entry 29). -/
def tellSuspect (s : State) (q : Fin 8) (cove : U16) (pos : Nat) : State :=
  if inCove s cove then
    if agreeing s then
      forEach (otherLive s) (fun t q => sendAgreePos t q 0x21 (epochNow t) 0 (BitVec.ofNat 32 pos) []) s
    else s
  else if !torusPort q then s
  else match s.job.plan with
    | some p => match planCove p cove with
      | some c => forEach (List.range c.members.length) (fun t q =>
          sendTo t (rankAt t cove q) .va .any (.agree 0x21
            { jobTag := jobTag t, cove := cove, sender := 0xFF, dest := BitVec.ofNat 8 q, epoch := 0, ballot := 0,
              arg := BitVec.ofNat 32 pos, gtc := t.time.gtc, body := [] })) s
      | none => s
    | none => s

/-- The die at the far end of a port is suspected, and probed by the suspecter itself, which watches the port if the
probe refutes (R212, R213, R215). -/
def suspectPort (s : State) (q : Fin 8) : State :=
  match portRank s q with
  | none => s
  | some r =>
    if !namedRank s r then s
    else
      let t := count { s with agree.portSuspect := setBit s.agree.portSuspect q.val true } cntSuspect
      match memberAt t r with
      | some (c, p) =>
        let u := tellSuspect t q c p
        sendProbe (if inCove u c then suspectPos u p else u) r (.port q)
      | none => sendProbe t r (.port q)

/-- The die at the far end is in Winter and in no cove: it is never suspected for it (R242). -/
def winterOutside (s : State) (q : Fin 8) : Bool :=
  s.agree.wintering.getLsbD q.val && match portRank s q with
    | some r => (memberAt s r).isNone
    | none => true

/-- SUSPICION_TIMEOUT: 32 µs of GTC time without a valid heartbeat on a port (R212, R231, R242). -/
def execSuspicionTimeout (port : Fin 8) (s : State) : Out :=
  .next (if s.ports.fenced.getLsbD port.val ∨ s.agree.portSuspect.getLsbD port.val ∨ s.job.part.isNone ∨
      s.power.season.get = 2 ∨ s.agree.watchAt.any (fun w => w.1 = port) ∨ !s.ports.lkp ∨ winterOutside s port ∨
      s.time.gtc.toNat < (s.agree.lastBeat.get port).toNat + 32000 then s
    else suspectPort s port)

/-- WATCH_PROBE: a probe every 1 ms in place of heartbeats (R215). -/
def execWatchProbe (port : Fin 8) (s : State) : Out :=
  .next (match find port s.agree.watchAt, portRank s port with
    | some due, some r =>
      if due.toNat ≤ s.time.gtc.toNat then
        sendProbe { s with agree.watchAt := put port (fromNow s 1000000) s.agree.watchAt } r (.watch port)
      else s
    | _, _ => s)

/-- PROPOSE_TIMER: 300 µs: probe every lower live position (R221), and the suspects, so that a suspicion learnt from
another member can be refuted (R214; log entry 83). -/
def execProposeTimer (s : State) : Out :=
  .next (match s.agree.timerAt with
    | some due =>
      if due.toNat ≤ s.time.gtc.toNat then
        let t := { s with agree.timerAt := none }
        if !agreeing t ∨ t.agree.suspects = [] ∨ t.agree.proposal.isSome then t
        else
          let low := (livePositions t).filter fun q => q < ownPos t
          if low = [] then evaluate t
          else if low.all (fun q => q ∈ t.agree.confirmed) then startProposal t
          else
            let u := forEach (low.filter fun q => q ∉ t.agree.confirmed) (fun u q => probePos u q (.lower q)) t
            startTimer (forEach (t.agree.suspects.filter fun q => q ∉ t.agree.confirmed ∧ q ∉ low) (fun u q =>
              probePos u q (.suspicion q)) u)
      else s
    | none => s)

/-- RETRY_WAIT: own position times 20 µs have passed (R221). -/
def execRetryWait (s : State) : Out :=
  .next (match s.agree.retryAt with
    | some due => if due.toNat ≤ s.time.gtc.toNat then startProposal { s with agree.retryAt := none } else s
    | none => s)

/-- Retry: the round rises above every ballot in a NACK (R221). -/
def retryProposal (s : State) (p : Proposal) : State :=
  { s with agree := { s.agree with
    proposal := none
    round := max s.agree.round (p.nackMax.toNat / 256)
    retryAt := some (fromNow s (20000 * ownPos s)) } }

/-- What a proposer puts to the members: the highest accepted ballot's view, the confirmed losses, or the view
firmware wishes (R221; R219, R247). -/
def proposedView (s : State) (p : Proposal) : U16 × U32 × U32 :=
  let best := p.promises.foldl (fun (b : Option Accepted) q =>
    match b, q.acc with
    | some x, some y => if x.ballot.toNat < y.ballot.toNat then some y else some x
    | none, some y => some y
    | b, none => b) none
  match best with
  | some a => (a.live, a.reason, a.joining)
  | none =>
    let lost := s.agree.confirmed.filter fun q => (liveSet s).getLsbD q
    match lost, s.agree.wishes with
    | [], w :: _ => (if w.1 < 16 then setBit (liveSet s) w.1 true else liveSet s, w.2.1, w.2.2)
    | _, _ => (liveSet s &&& ~~~(maskOf 16 lost), 0, noRank)

/-- Body of ACCEPT (R217). -/
def acceptBody (live : U16) (joining : U32) : List Byte := leBytes 2 live.toNat ++ leBytes 2 0 ++ leBytes 4 joining.toNat

/-- After PREPARE: with a quorum of PROMISE, ACCEPT goes out; else the proposer retries (R221). -/
def endPrepare (s : State) (p : Proposal) : State :=
  if p.promises.length < quorum s then retryProposal s p
  else
    let v := proposedView s p
    let mine := decide (s.agree.promised.toNat ≤ p.ballot.toNat)
    let p' := { p with accepting := true, live := v.1, reason := v.2.1, joining := v.2.2, answered := [ownPos s],
                       acceptedBy := if mine then [ownPos s] else [], since := s.time.gtc }
    let acc : Accepted := { ballot := p.ballot, live := v.1, reason := v.2.1, joining := v.2.2 }
    let t := { s with agree := { s.agree with
      proposal := some p'
      promised := if mine then p.ballot else s.agree.promised
      accepted := if mine then some acc else s.agree.accepted } }
    forEach (otherLive t) (fun u q => sendAgreePos u q 0x24 (epochNow u + 1) p.ballot v.2.1 (acceptBody v.1 v.2.2)) t

end Sys2Proof.Machine
end

