-- ==== Sys2Proof/Machine/Seal.lean ====
section
/-! DEFINITION. The seal: TIDE_SEAL, the tidemark record, close markers, READY, the seal tree, the decision of the
root, the flip, RELEASE and ABANDON (R102 to R105, R114 to R144, R244, R245, R378). -/

namespace Sys2Proof.Machine

/-! ### Records and areas (R117, R134, R135, R141) -/

/-- Entry `i` of a group table: group_id, and bits [31:16]. -/
def tableEntry (t : List Byte) (i : Nat) : Nat × Nat := (fldAt t (8 * i) 2, fldAt t (8 * i + 2) 2)

/-- Offset of the first failing byte of a group table (R117). -/
def tableFault (t : List Byte) : Option Nat :=
  (List.range 16).findSome? fun i =>
    let e := tableEntry t i
    if e.1 = 0xFFFF then none
    else if (List.range i).any fun j => (tableEntry t j).1 = 0xFFFF then some (8 * i)
    else if e.2 % 256 ≠ 0 then some (8 * i + 2)
    else if e.2 ≠ 0 then some (8 * i + 3)
    else none

/-- Used entries of a group table. -/
def tableUsed (t : List Byte) : Nat := ((List.range 16).filter fun i => (tableEntry t i).1 ≠ 0xFFFF).length

/-- A table of 16 unused entries (R114). -/
def emptyTable : List Byte := (List.range 16).flatMap fun _ => leBytes 8 0xFFFF

/-- A tidemark record (R134): `first` for record 0 of COVE_FORM (R114). -/
def tidemarkRecord (s : State) (tide : U48) (first : Bool) (table hostRec : List Byte) : List Byte :=
  let y := rowsY s
  let body :=
    leBytes 2 1 ++ [BitVec.ofNat 8 (Layout.code (covLayout s)), BitVec.ofNat 8 (ownPos s)] ++
    leBytes 2 (ownCoveId s).toNat ++ leBytes 6 tide.toNat ++ leBytes 4 (epochNow s).toNat ++
    leBytes 8 (if first then 0 else s.tide.counted.toNat) ++ leBytes 8 s.tide.gtcClose.toNat ++ leBytes 4 y ++
    leBytes 2 (if first then 0 else s.tide.n.get.toNat) ++
    [BitVec.ofNat 8 (if first then 0 else tableUsed table), 0] ++
    leBytes 8 (if first then 0 else s.tide.jobStart.toNat) ++ leBytes 4 (if first then 0 else s.tide.jobLosses) ++
    leBytes 4 (if first then 0 else s.tide.costNs) ++ List.replicate 72 0 ++ table ++ hostRec ++
    (List.range y).flatMap (fun b => leBytes 8 (digestOf s b).toNat)
  body ++ List.replicate (recordSize y - body.length) 0

/-- The record of a position as the member holds it. -/
def heldRecord (s : State) (p : Nat) : List Byte := if p = ownPos s then s.tide.ownRecord else look [] p s.tide.parts

/-- Every record of the cove is held. -/
def allRecords (s : State) : Bool := (List.range (covN s)).all fun p => holdsRecord s p

/-- The records in position order, and their manifest (R141). -/
def recordsBytes (s : State) : List Byte := (List.range (covN s)).flatMap fun p => heldRecord s p

def manifestOf (s : State) : List Byte := sha256 (recordsBytes s)

/-- Write the records and the manifest line into an area (R135). -/
def writeArea (s : State) (slot : Nat) (tide : U48) : State :=
  let rs := recordsBytes s
  let bytes := rs ++ leBytes 6 tide.toNat ++ leBytes 2 0 ++ sha256 rs ++ List.replicate 24 0
  { s with mem := s.mem.write (areaBase s slot) bytes }

/-! ### TIDE_SEAL (R116, R117, R125 steps 1 to 3, R378) -/

/-- The seal input block's address: aligned, wholly near, outside every region (R117). -/
def sealBlockOk (s : State) (a : Nat) : Bool :=
  match s.job.plan with
  | none => false
  | some p =>
    decide (a % 64 = 0) && decide (p.nearRange.base ≤ a) && decide (a + 4224 ≤ p.nearRange.base + p.nearRange.size) &&
      !(s.tier.regions.any fun r => (regionHomes r).any fun h => decide (a < h.1 + h.2.1 ∧ h.1 < a + 4224))

/-! ### What a node of the tree reports (R130, R131) -/

/-- READY of every live member is held for the open flood's seal. -/
def allReady (s : State) : Bool := (livePositions s).all fun p => s.tide.readies.any fun r => r.1 = p

def readyManifests (s : State) : List (List Byte) :=
  (livePositions s).filterMap fun p => find p s.tide.readies

/-- READY messages of live members carry different manifests. -/
def manifestsDiffer (s : State) : Bool :=
  match readyManifests s with
  | [] => false
  | m :: t => t.any fun n => n ≠ m

/-- Take a READY. A captain logs a manifest fault as READY messages first carry different manifests (R125, R130). -/
def takeReady (s : State) (p : Nat) (manifest : List Byte) : State :=
  let t := { s with tide.readies := put p manifest s.tide.readies }
  if isCaptain s ∧ !manifestsDiffer s ∧ manifestsDiffer t then
    logReport t clManifest (srcOf 5 (ownPos t)) (ownCoveId t).toNat
  else t

def sendReady (s : State) (manifest : List Byte) : State :=
  let t := takeReady s (ownPos s) manifest
  forEach (otherLive t) (fun u q => sendSeal u q 0x13 (sealTide u) 0 manifest) t

/-- The cove has lost a member that no target has replaced. -/
def coveDamaged (s : State) : Bool := (List.range (covN s)).any fun p => !(liveSet s).getLsbD p

/-- Seal information of a live member; the own one is taken afresh. -/
def infoOf (s : State) (p : Nat) : Option (List Byte) := if p = ownPos s then some (sealInfo s) else find p s.agree.infos

/-- A loss of the own cove whose decision is not yet held. A target may have joined meanwhile (R254). -/
def undecided (s : State) : Bool := coveDamaged s || recState s = recDeciding

/-- Members that stand in the seal: a target that joined before the decision does not (R246). -/
def sealMembers (s : State) : List Nat :=
  (livePositions s).filter fun p => recState s ≠ recDeciding || p ∉ lostPositions s

/-- Seal information names a tide. -/
def infoFor (t : U48) (i : List Byte) : Bool := fldAt i 8 6 = t.toNat

/-- Cove state after a loss, from the seal information (R131): COMMITTED as soon as one member holds it; none until
all of the information is held. -/
def lossState (s : State) (t : U48) : Option Nat :=
  let infos := (sealMembers s).map (infoOf s)
  let is := infos.filterMap id
  let lost := (List.range (covN s)).filter fun p => p ∉ sealMembers s
  if is.any fun i => decide (t.toNat < fldAt i 8 6) || (infoFor t i && decide (fldAt i 1 1 = 1)) then some 3
  else if infos.any Option.isNone then none
  else if is.all fun i => infoFor t i && lost.all (fun p => (fldAt i 2 2).testBit p) &&
      (List.range (covN s)).all (fun p => (fldAt i 4 2).testBit p) then some 1
  else some 2

/-- A live member of the cove holds a decision for the tide that this one does not hold (R132). -/
def heldElsewhere (s : State) (t : U48) : Bool :=
  undecided s && (livePositions s).any fun p => match infoOf s p with
    | some i => infoFor t i && fldAt i 1 1 ≠ 0
    | none => false

/-- The cove's own state for a tide, where it is settled (R130, R131). -/
def coveState (s : State) (t : U48) : Option Nat :=
  if t.toNat ≤ (sealedTide s).toNat ∨ decisionCode s t = 1 then some 3
  else if t ≠ sealedTide s + 1 then some 2
  else if undecided s then lossState s t
  else if manifestsDiffer s then some 5
  else if allReady s then some 0
  else none

/-- The state the root gives its own cove once it must decide: OPEN in every case not settled otherwise, after a loss
only once the seal information is held (R131, R132). -/
def forcedState (s : State) (t : U48) : Option Nat :=
  match coveState s t with
  | some v => some v
  | none => if undecided s then none else some 2

/-- The state a captain answers a QUERY with, at once: OPEN in every case not settled otherwise (R131). -/
def answerState (s : State) (t : U48) : Nat := (coveState s t).getD 2

/-- Child coves, and what each has reported for a tide. -/
def children (s : State) : List CovePlan :=
  match s.job.plan, s.agree.cove with
  | some p, some id => childCoves p id
  | _, _ => []

def childReport (s : State) (t : U48) (c : U16) : Option Report :=
  s.tide.reports.find? fun r => r.cove = c ∧ r.tide = t

/-- Child coves without a report for a tide. -/
def silentChildren (s : State) (t : U48) : List CovePlan :=
  (children s).filter fun c => (childReport s t c.coveId).isNone

/-- Child coves without a report for a tide since the last view change in the job (R132). -/
def unheard (s : State) (t : U48) : List CovePlan :=
  (children s).filter fun c => match childReport s t c.coveId with | some r => r.stale | none => true

/-- A view change in the job: the reports held are older than it, and the coves may be asked again (R132). -/
def ageReports (s : State) : State :=
  { s with tide.reports := s.tide.reports.map (fun r => { r with stale := true }), tide.queried := [] }

/-- The state of a subtree from the own cove's state and the child reports held; `whole`: every child must have
reported before READY, CLOSED_LOST and MANIFEST, while COMMITTED and OPEN hold as soon as one cove has them
(R125 step 6, R130, R132; log entry 30). -/
def subtree (s : State) (t : U48) (own : Option Nat) (whole : Bool) : Option Nat :=
  let kids := (children s).filterMap fun c => (childReport s t c.coveId).map Report.state
  let all := own.toList ++ kids
  if 3 ∈ all then some 3
  else if 2 ∈ all then some 2
  else if own = some 5 then some (if 1 ∈ kids then 2 else 5)
  else match own with
    | none => none
    | some o =>
      if whole ∧ silentChildren s t ≠ [] then none
      else if 5 ∈ kids then some (if o = 1 ∨ 1 ∈ kids then 2 else 5)
      else if o = 1 ∨ 1 ∈ kids then some 1
      else some 0

/-- Losses of a subtree since the last COMMIT: the own cove's, and those its child coves have reported (R143). -/
def subtreeLosses (s : State) : Nat := s.tide.lossesHere + ((children s).map fun c => look 0 c.coveId s.tide.childLosses).sum

/-- cost_ns of a member of the own cove: the other members' from their records (R134, R144). -/
def memberCost (s : State) (p : Nat) : Nat := if p = ownPos s then s.tide.costNs else fldAt (heldRecord s p) 52 4

/-- The largest cost of a subtree (R144). -/
def subtreeCost (s : State) (t : U48) : Nat :=
  ((livePositions s).map (memberCost s) ++ (children s).filterMap fun c => (childReport s t c.coveId).map Report.costNs).foldl
    max s.tide.costNs

/-- Parent cove of the own cove. -/
def parentOf (s : State) : Option CovePlan :=
  match s.job.plan, s.agree.cove with
  | some p, some id => parentCove p id
  | _, _ => none

/-- Send REPORT to the parent cove, and note it for the 200 µs repetition (R124, R127). -/
def sendReport (s : State) (t : U48) (st : Nat) : State :=
  match parentOf s with
  | none => s
  | some c =>
    sendTree { s with tide.upReport := some (st, t, fromNow s 200000) } c 0x14 t (BitVec.ofNat 32 st)
      (leBytes 4 (subtreeLosses s) ++ leBytes 4 (subtreeCost s t))

/-! ### Opening a flood (R114, R116, R142) -/

/-- The policy that a flood opens with takes effect (R106, R142). -/
def takePolicy (s : State) : State :=
  { s with tide.policy := s.tide.nextPolicy, fold.share := s.fold.nextShare }

/-- Open the flood after the sealed tide with interval `n`. -/
def openFlood (s : State) (n : Nat) : State :=
  let t := takePolicy (discardStash s)
  setPhase { t with tide := { t.tide with
    n := V3.all (BitVec.ofNat 13 n), steps := 0, floodGtc := s.time.gtc, firstApply := none, laterApplySum := 0,
    laterApplyCount := 0, holdSince := none, reports := [], queried := [], mailbox := none } } phFlood

/-- The measured cost of the tide just sealed, smoothed; a mean of no APPLY_RUN, and a negative difference, count as 0
(R144; DEDUCED, log entry 92). -/
def takeCost (s : State) : State :=
  let later := if s.tide.laterApplyCount = 0 then 0 else s.tide.laterApplySum / s.tide.laterApplyCount
  let apply := match s.tide.firstApply with | some a => a - later | none => 0
  let held := match s.tide.holdSince with | some h => s.time.gtc.toNat - h.toNat | none => 0
  { s with tide := { s.tide with costNs := (3 * s.tide.costNs + (apply + held)) / 4, holdNs := held } }

/-- Tide number of the last tide: its seal opens no flood (R114). -/
def lastTide : U48 := 0xFFFFFFFFFFFE

/-- RELEASE on a member (R125 step 11, R378). -/
def doRelease (s : State) : State :=
  let n := match s.tide.decision with | some (_, .commit n _) => n.toNat | _ => s.tide.n.get.toNat
  let mb := s.tide.mailbox
  let s := takeCost s
  let s := { s with tide := { s.tide with released := true, upReport := none, upFlipped := none } }
  let s := if recState s = recDeciding then { s with recov.forward := true } else s
  let s :=
    if sealedTide s = lastTide then setPhase { discardStash s with tide.mailbox := none, tide.reports := [] } phNone
    else if phaseNow s = phSuspended then
      { s with tide := { s.tide with
          n := V3.all (BitVec.ofNat 13 n), steps := 0, reports := [], queried := [], readies := [], mailbox := none,
          floodGtc := s.time.gtc } }
    else { openFlood s n with tide.noTide := false }
  let s := match mb with
    | some m => respond s m stOk 0 (sealResults s 1)
    | none => s
  twinAfterRelease (retryHeld (serveWaiting s))

/-! ### ABANDON on a member (R130, R133, R245, R380, R393) -/

/-- The recovery registers as a recovery starts: LOST and ROWS_DONE of a finished recovery are cleared; FORWARD where
the restored tide is the one whose seal the loss interrupted. A damaged cove has set them at its LOSS view (R251; log
entry 78). -/
def beginRecovery (s : State) : State :=
  let st := recState s
  let t := { s with tide.lossSeal := false, tide.reopened := true }
  if st = recDeciding then t
  else if st = recNone ∨ st = recDone ∨ (st = recFailed ∧ !coveDamaged s) then
    { t with recov.lost := V3.all 0, recov.rowsDone := 0, recov.target := false, recov.forward := s.tide.lossSeal }
  else { t with recov.forward := s.tide.lossSeal }

/-- ABANDON reason 0: PHASE HELD, commands stop, rollback is due (R133, R245). -/
def doHeld (s : State) : State :=
  let s := beginRecovery s
  let s := { setPhase s phHeld with tide.released := false, tide.upReport := none, tide.upFlipped := none }
  let s := endSeal s stLostMember s.agree.removed.toNat
  let s := stopRuns s .lost
  let s := startSpring s
  if s.recov.target ∧ recState s = recParity then s else
  let s := { s with recov.tide := sealedTide s }
  if s.tide.noTide then failRecovery s
  else if beyondTolerance s (liveSet s) then setRec { s with recov.rollingBack := false } recFailed
  else
    let s := { setRec s recRolling with recov.rollingBack := true }
    if coveDamaged s then s else { s with agree.renewalDue := true }

/-- ABANDON comes again while a re-shard runs: it is abandoned, and the member stands where its recovery left it (R268). -/
def quitReshard (s : State) : State :=
  if s.recov.shadow.isSome then standing (abandonShadow s 0) else s

/-- ABANDON reason 1: back to FLOOD with STEPS at N (R130). -/
def doManifest (s : State) : State :=
  let s := if phaseNow s = phSuspended then s else setPhase s phFlood
  let s := { s with tide := { s.tide with
    readies := [], closeSent := [], ownRecord := [], reports := [], queried := [], upReport := none, upFlipped := none,
    holdSince := none } }
  let s := endSeal s stFault (if s.log.entries.any fun e => e.cls = 6 then newestIndex s else 0)
  retryHeld s

def doAbandon (s : State) (reason : U32) : State := if reason = 1 then doManifest s else doHeld s

/-! ### The flip (R118, R129, R378) -/

/-- Take COMMIT: the flip, the area of a member that was still CLOSING, FLIPPED to the other members. -/
def doFlip (s : State) (t : U48) (n : U16) (losses : U32) : State :=
  let s := if phaseNow s = phClosing ∧ allRecords s then writeArea s (workingSlot s) t else s
  let sus := decide (phaseNow s = phSuspended)
  let own := s.tide.ownRecord
  let s := { s with tide := { s.tide with
    slot := if sus then s.tide.slot else V3.all (~~~ s.tide.slot.get)
    phase := if sus then s.tide.phase else V3.all phCommitted
    tideLo := V3.all (t.truncate 32)
    tideHi := V3.all (BitVec.ofNat 16 (t.toNat / 2 ^ 32))
    decision := some (t, .commit n losses)
    lossSeal := decide (s.tide.jobLosses < losses.toNat) && !s.tide.reopened
    reopened := false
    jobLosses := losses.toNat
    lossesHere := 0
    childLosses := []
    flips := addNew (ownPos s) s.tide.flips
    stepRecord := if own = [] then s.tide.stepRecord else some (t, (own.drop 128).take 4224) } }
  let s := if sus then
      let u := clearFoldCounts s
      { u with tide.markers := [], tide.parts := [] }
    else freshFlood s
  refreshStatusLine (forEach (otherLive s) (fun u q => sendSeal u q 0x16 t 0 []) s)

/-! ### The root's decision (R128, R132, R143) -/

/-- N of the next flood (R142, R143). With no time since the last step 7 it is n_max, and a root without that GTC
measures from the opening of its flood (DESIGN CHOICE, log entry 79). -/
def nextInterval (s : State) (t : U48) (f : Nat) : Nat :=
  let p := s.tide.nextPolicy
  if !p.auto then p.nFixed
  else
    let now := s.time.gtc.toNat
    let m := now - s.tide.jobStart.toNat + p.priorMtbfS * 1000000000
    let c := p.costFloorUs * 1000 + subtreeCost s t
    let d := now - (s.tide.lastStep7.getD s.tide.floodGtc).toNat
    let n := s.tide.n.get.toNat
    if d = 0 then p.nMax
    else clamp p.nMin p.nMax ((isqrt (8 * c * m * n * n / ((f + 1) * d * d)) + 1) / 2)

/-- Members of cove 0 whose acknowledgement of a message the root awaits: 0 COMMIT, 1 RELEASE, 2 ABANDON. -/
def unacked (s : State) (arg : U32) : List Nat :=
  (otherLive s).filter fun q => !(s.tide.acks.any fun a => a.1 = arg ∧ a.2 = q)

def commitBody (n : U16) (losses : U32) : List Byte := leBytes 2 n.toNat ++ leBytes 2 0 ++ leBytes 4 losses.toNat

/-- The message of the decision in force: (type, arg, body, which acknowledgement). -/
def decisionMsg (s : State) : Option (U48 × Byte × U32 × List Byte × U32) :=
  match s.tide.decision with
  | none => none
  | some (t, .abandon r) => some (t, 0x18, r, [], 2)
  | some (t, .commit n l) => if s.tide.released then some (t, 0x17, 0, [], 1) else some (t, 0x15, 0, commitBody n l, 0)

/-- Send the decision to some members of cove 0. -/
def sendDecision (s : State) (dests : List Nat) : State :=
  match decisionMsg s with
  | none => s
  | some (t, type, arg, body, _) =>
    forEach dests (fun u q => sendSeal u q type t arg body) { s with tide.rootSent := s.time.gtc }

/-- Send the decision to the child coves. -/
def tellChildren (s : State) : State :=
  match decisionMsg s with
  | none => s
  | some (t, type, arg, body, k) =>
    forEach (children s) (fun u c => sendTree u c type t arg body)
      { s with tide.passedDown := addNew k s.tide.passedDown }

/-- The root sends the decision to its child coves once cove 0 has acknowledged it (R128). -/
def rootPass (s : State) : State :=
  match decisionMsg s with
  | none => s
  | some (_, _, _, _, k) => if unacked s k = [] ∧ k ∉ s.tide.passedDown then tellChildren s else s

/-- Put a decision in force at the root and deliver it to cove 0. -/
def putDecision (s : State) (t : U48) (d : Decision) : State :=
  sendDecision { s with tide := { s.tide with decision := some (t, d), released := false, acks := [], passedDown := [] } }
    (otherLive s)

/-- ABANDON decided. -/
def rootAbandon (s : State) (t : U48) (reason : U32) : State :=
  rootPass (doAbandon (putDecision s t (.abandon reason)) reason)

/-- A loss during a re-shard: the root sends the ABANDON in force to the whole job again (R268). -/
def rootAgain (s : State) : State :=
  rootPass (sendDecision (quitReshard { s with tide.acks := [], tide.passedDown := [] }) (otherLive s))

/-- A captain whose cove lost a member while a re-shard ran tells the seal root (R244, R268). -/
def reportReshardLoss (s : State) : State :=
  if !isCaptain s then s
  else if isRootCove s then rootAgain s
  else sendReport s (sealedTide s + 1) 2

/-- The root releases once cove 0 and every child cove have flipped (R125 steps 9 and 10). -/
def rootRelease (s : State) : State :=
  if isSealRoot s ∧ decisionCode s (sealedTide s) = 1 ∧ ¬ s.tide.released ∧
      (sealMembers s).all (fun p => p ∈ s.tide.flips) ∧ (children s).all (fun c => c.coveId ∈ s.tide.childFlips) then
    let s := { s with tide.released := true }
    let s := rootPass (doRelease (sendDecision s (otherLive s)))
    if s.tide.abandonNext then rootAbandon { s with tide.abandonNext := false } (sealedTide s + 1) 0 else s
  else s

/-- COMMIT decided (R132, R143, R244). -/
def rootCommit (s : State) (t : U48) (lossy : Bool) : State :=
  let f := s.tide.jobLosses + subtreeLosses s
  let n := nextInterval s t f
  let s := { s with tide.lastStep7 := some s.time.gtc, tide.abandonNext := lossy }
  let s := putDecision s t (.commit (BitVec.ofNat 16 n) (BitVec.ofNat 32 f))
  rootRelease (rootPass (doFlip s t (BitVec.ofNat 16 n) (BitVec.ofNat 32 f)))

/-- The root asks the child coves it has not heard since the last view change, each once (R132). -/
def askUnheard (s : State) (t : U48) : State :=
  let cs := (unheard s t).filter fun c => c.coveId ∉ s.tide.queried
  forEach cs (fun u c => sendTree u c 0x19 t 0 []) { s with tide.queried := s.tide.queried ++ cs.map CovePlan.coveId }

/-- decide(t) of R132. A decision that a member of cove 0 holds is awaited, not made afresh. A loss, or a report that is
not READY, makes the root ask the coves it has not heard. -/
def rootDecide (s : State) (t : U48) : State :=
  if !isSealRoot s ∨ t ≠ sealedTide s + 1 ∨ decisionCode s t ≠ 0 ∨ heldElsewhere s t then s
  else
    let kids := (children s).filterMap fun c => (childReport s t c.coveId).map Report.state
    let urgent := undecided s || kids.any (fun k => k ≠ 0) || coveState s t = some 5
    let own := if urgent then forcedState s t else coveState s t
    if unheard s t ≠ [] then (if urgent then askUnheard s t else s)
    else match own with
      | none => s
      | some o =>
        (
          let all := o :: kids
          if 3 ∈ all then rootCommit s t true
          else if all.all (fun k => k = 0 ∨ k = 1) then rootCommit s t (all.any fun k => k = 1)
          else if all.all (fun k => k = 0 ∨ k = 5) ∧ subtreeLosses s = 0 then rootAbandon s t 1
          else rootAbandon s t 0)

/-- Every member of the forming cove and every child cove is ready: RESHARD_READY goes up, or SWITCH comes down
(R267 steps 5 and 6). `released` of the shadow says that the switch is due here. -/
def reshardCheck (s : State) : State :=
  let t := sealedTide s + 1
  if !allReady s || !((children s).all fun c => s.tide.reports.any fun r => r.cove = c.coveId ∧ r.state = 4) then s
  else if isRootCove s then
    let u := forEach (otherLive s) (fun v q => sendSeal v q 0x1A t 0 []) { s with tide.released := true }
    forEach (children u) (fun v c => sendTree v c 0x1A t 0 []) u
  else if s.tide.upReport.isSome then s
  else sendReport s t 4

/-- A captain acts on what it holds: it reports up, or decides at the root (R125 step 6, R132). -/
def captainCheck (s : State) : State :=
  if !isCaptain s then s
  else if recState s = recReshard then reshardCheck s
  else
    let t := sealedTide s + 1
    if isRootCove s then rootDecide s t
    else if decisionCode s t ≠ 0 ∨ decisionCode s (sealedTide s) = 1 ∧ ¬ s.tide.released then s
    else match subtree s t (coveState s t) true with
      | none => s
      | some v => if (s.tide.upReport.map fun r => (r.1, r.2.1)) = some (v, t) then s else sendReport s t v

/-- A captain sends FLIPPED up once its cove and every child cove have flipped; during a handover it waits for the
HANDOVER view (R125 step 9, R265). -/
def flippedCheck (s : State) : State :=
  if !isCaptain s ∨ decisionCode s (sealedTide s) ≠ 1 ∨ s.tide.released then s
  else if !((sealMembers s).all (fun p => p ∈ s.tide.flips) && (children s).all fun c => c.coveId ∈ s.tide.childFlips)
  then s
  else match (if s.recov.hoSeal then s.recov.hoKnown else none : Option (Nat × Nat × Bool)) with
    | some (pos, rank, _) =>
      if s.agree.wishes = [] then startProposal { s with agree.wishes := [(pos, 1, BitVec.ofNat 32 rank)] } else s
    | none =>
      if isRootCove s then rootRelease s
      else if s.tide.upFlipped.isSome then s
      else match parentOf s with
        | some c => sendTree { s with tide.upFlipped := some (fromNow s 200000), tide.upReport := none } c 0x16 (sealedTide s) 0 []
        | none => s

/-- A captain acts again on the flips and acknowledgements it holds: a view may have removed the last member it waited
for (R125 step 9, R128, R133). -/
def treeStep (s : State) : State := flippedCheck (if isSealRoot s then rootPass s else s)

/-- A new root sends a decision it holds again, unchanged, to cove 0 and on (R132). -/
def takeOffice (s : State) : State :=
  rootPass (sendDecision { s with tide := { s.tide with acks := [], passedDown := [] } } (otherLive s))

/-- A member of cove 0 sends a decision whose RELEASE it has not received, unchanged, to the new captain (R132). -/
def handDecision (s : State) : State :=
  let q := captainOf (liveSet s)
  match s.tide.decision with
  | some (t, .commit n l) => if s.tide.released then s else sendSeal s q 0x15 t 0 (commitBody n l)
  | some (t, .abandon r) => sendSeal s q 0x18 t r []
  | none => s

/-- The captain of cove 0 has changed with the view (R132). -/
def rootChanged (s : State) (before : Nat) : State :=
  if !isRootCove s ∨ captainOf (liveSet s) = before then s
  else if isCaptain s then takeOffice s
  else handDecision s

/-! ### TIDE_SEAL -/

/-- The TIDE_SEAL that brings the count to N starts the seal (R116, R125 step 2, R378). -/
def startSeal (s : State) (mb : Fin 8) (block : Nat) : State :=
  let s := { s with tide := { s.tide with
    counted := s.tide.counted + 1, steps := s.tide.n.get, mailbox := some mb, block := BitVec.ofNat 64 block,
    gtcClose := s.time.gtc, closeSent := [], ownRecord := [], upReport := none, upFlipped := none, decision := none, queried := [],
    released := false, flips := [], childFlips := [], acks := [], passedDown := [] } }
  let known := s.recov.hoKnown.any fun h => h.2.2
  let s := accepted { s with recov.hoSeal := known } mb
  if phaseNow s = phSuspended then captainCheck (sendReady s (List.replicate 32 0))
  else setPhase s phClosing

def execTideSeal (src : CmdSrc) (s : State) : Out :=
  mailboxRow 0x09 (fun mb t s =>
    if sealRuns s then busyWith s mb s.tide.mailbox
    else if phaseNow s ≠ phFlood ∧ phaseNow s ≠ phSuspended then wrongState s mb
    else
      let a := fld t.cmd 8 8
      if !sealBlockOk s a then badArg s mb 8
      else if s.tide.steps.toNat + 1 < s.tide.n.get.toNat then
        let s := { s with tide.steps := s.tide.steps + 1, tide.counted := s.tide.counted + 1 }
        respond s mb stOk 0 (sealResults s 0)
      else match tableFault (s.mem.bytes a 128) with
        | some o => badBlock s mb o
        | none => startSeal s mb a) src s

/-! ### Close markers (R102 to R104) -/

/-- Capture has drained and the running digests are final (R125 steps 2 and 3, R371). -/
def captureClosed (s : State) : Bool :=
  s.cap.queue = [] && s.cap.oldReads = [] && gfIdle s && s.cap.recompute = []

/-- No direct record for a destination waits. -/
def directGone (s : State) (dest : Nat) : Bool :=
  !((s.fold.sendPlus ++ s.fold.sendMinus).any fun i => !i.fwd && i.dest = dest)

/-- The member sends close markers: it closes a flood, forms its cove, or resumes coding. -/
def closing (s : State) : Bool := phaseNow s = phClosing || forming s || s.tide.resuming.isSome

/-- Build the own record at step 3, once. -/
def buildRecord (s : State) : State :=
  if s.tide.ownRecord ≠ [] ∨ s.tide.resuming.isSome then s
  else if forming s then
    { s with tide.ownRecord := tidemarkRecord s 0 true emptyTable (List.replicate 4096 0) }
  else
    let b := s.tide.block.toNat
    { s with tide.ownRecord := tidemarkRecord s (sealTide s) false (s.mem.bytes b 128) (s.mem.bytes (b + 128) 4096) }

/-- Send the record to one member as MARK_PART fragments (R124). -/
def sendParts (s : State) (dest : Nat) : State :=
  let ps := chunks 256 s.tide.ownRecord
  forEach (List.zip (List.range ps.length) ps) (fun u e =>
    sendSeal u dest 0x12 (foldTide u) (BitVec.ofNat 32 (256 * e.1)) e.2) s

/-- The own close marker for a destination (R102). -/
def ownMarker (s : State) (dest : Nat) : Marker :=
  { cove := ownCoveId s, origin := BitVec.ofNat 8 (ownPos s), sender := BitVec.ofNat 8 (ownPos s),
    dest := BitVec.ofNat 8 dest, view := viewNow s, tide := foldTide s,
    directPackets := seqKey s.fold.seqs (ownPos s) dest,
    directRecords := BitVec.ofNat 64 (look 0 dest s.fold.directSent),
    forwardedRecords := BitVec.ofNat 64 (look 0 dest s.fold.fwdSent) }

/-- CLOSE_MARKER_SEND: record fragments, then the close marker, on one channel (R102, R125 step 4). -/
def sendMarker (dest : Byte) (s : State) : State :=
  (
    let d := dest.toNat
    if !closing s ∨ !captureClosed s ∨ !directGone s d ∨ !(otherLive s).contains d ∨ s.tide.closeSent.contains d then s
    else
      let t := sendParts (buildRecord s) d
      sendTo { t with tide.closeSent := t.tide.closeSent ++ [d] } (rankAt t (ownCoveId t) d) .va .any
        (.marker (ownMarker t d)))

/-- CLOSE_MARKER_SEND. -/
def execCloseMarkerSend (dest : Byte) (s : State) : Out := .next (foldSide s (sendMarker dest))

/-- A close marker's origin and destination fit the cove the instance is about to form (R103, R216). -/
def earlyMarkerOk (s : State) (m : Marker) : Bool :=
  match s.job.plan with
  | none => false
  | some p => match coveOfRank p (ownRank s) with
    | some (c, pos) => decide (m.dest.toNat = pos) && decide (m.origin.toNat < Layout.n c.layout)
    | none => false

/-- CLOSE_MARKER (R103). -/
def takeMarker (m : Marker) (s : State) : State :=
  (
    if !s.ports.lkp then s
    else if earlyForm s m.cove m.view m.tide ∧ earlyMarkerOk s m then
      { s with tide.markers := s.tide.markers.filter (fun k => k.origin ≠ m.origin) ++ [m] }
    else if s.agree.cove = some m.cove ∧ m.view = viewNow s ∧ m.tide = foldTide s ∧
        (liveSet s).getLsbD m.origin.toNat ∧ m.dest.toNat = ownPos s ∧ (phaseNow s ≠ phNone ∨ forming s) then
      { s with tide.markers := s.tide.markers.filter (fun k => k.origin ≠ m.origin) ++ [m] }
    else count s cntVaDrop)

/-- CLOSE_MARKER. -/
def execCloseMarker (m : Marker) (s : State) : Out := .next (vaIn s fun t => coveSide t m.cove m.view (takeMarker m))

/-! ### The switch of a re-shard (R267 step 6) -/

/-- Make the shadows current: plan, regions, windows, digests and cove in one step. The old ones are released; the
restored tide is sealed in the new cove, and STATE becomes RESUMABLE. -/
def makeCurrent (s : State) (sh : Shadow) : State :=
  let t : U48 := BitVec.ofNat 48 (sh.tide.tideHi.get.toNat * 2 ^ 32 + sh.tide.tideLo.get.toNat) + 1
  let own := sh.tide.ownRecord
  let s1 := discardStash { s with
    job.plan := some sh.plan
    job.state := 3
    job.rankChanges := []
    tier.regions := sh.regions
    tier.quotas := sh.quotas
    digests := sh.digests
    agree := { sh.agree with
      lastBeat := s.agree.lastBeat, portSuspect := s.agree.portSuspect, wintering := s.agree.wintering,
      missMark := s.agree.missMark, missed := s.agree.missed, watchAt := s.agree.watchAt,
      probes := s.agree.probes, health := s.agree.health, statusLine := s.agree.statusLine, moved := [] }
    tide := { sh.tide with
      slot := V3.all 0, phase := V3.all phHeld, tideLo := V3.all (t.truncate 32),
      tideHi := V3.all (BitVec.ofNat 16 (t.toNat / 2 ^ 32)), readies := [], reports := [], upReport := none,
      released := false, stepRecord := some (t, (own.drop 128).take 4224), mailbox := none }
    recov := { s.recov with
      state := V3.all recResumable, lost := V3.all 0, target := false, groupsLeft := [], restartAt := [],
      shadow := none, asked := none } }
  let s2 := setFilter (freshFlood s1) (filterEntries s1 false)
  refreshStatusLine (respondOpt s2 sh.mailbox stOk 0)

/-- The switch happens once the shadow says it is due. -/
def switchDone (s : State) : State :=
  match s.recov.shadow with
  | some sh => if sh.tide.released then makeCurrent s sh else s
  | none => s

/-! ### The messages of the seal -/

/-- A seal message is of the job: the own cove under the own view, or a tree message to the own cove (R124). -/
def sealAccepts (s : State) (m : SealMsg) : Bool :=
  s.ports.lkp && s.power.season.get ≠ 2 &&
  if m.tree then s.agree.cove = some m.destCove && (match s.job.plan with | some p => (planCove p m.cove).isSome | none => false)
  else (s.agree.cove = some m.cove && m.view = viewNow s) || earlyForm s m.cove m.view m.tide

def sealIn (s : State) (m : SealMsg) (f : State → State) : Out :=
  .next (vaIn s fun s => if sealAccepts s m then f s else count s cntVaDrop)

/-- A seal message that the forming cove of a re-shard may send: its own members', or RESHARD_READY of its tree (R267). -/
def shadowMsg (s : State) (m : SealMsg) : Bool :=
  match s.recov.shadow with
  | none => false
  | some sh => if m.tree then sh.agree.cove = some m.destCove && m.arg = 4 else sh.agree.cove = some m.cove && m.view = 1

/-- A seal message of the current cove or of the forming one. -/
def sealInEither (s : State) (m : SealMsg) (f : State → State) : Out :=
  if shadowMsg s m then
    .next (vaIn s fun s => switchDone (withShadow s fun u => if sealAccepts u m then f u else count u cntVaDrop))
  else sealIn s m f

/-- MARK_PART: a fragment of another member's record. A first fragment starts the record again (R124, R130). -/
def execMarkPart (m : SealMsg) (s : State) : Out :=
  sealInEither s m fun s =>
    if m.tide ≠ foldTide s ∧ ¬ earlyForm s m.cove m.view m.tide then s
    else
      let o := m.origin.toNat
      let have_ := look [] o s.tide.parts
      if m.arg = 0 then
        if have_.take m.body.length = m.body then s else { s with tide.parts := put o m.body s.tide.parts }
      else if m.arg.toNat = have_.length then { s with tide.parts := put o (have_ ++ m.body) s.tide.parts }
      else s

/-- Every other live member has the record and the marker; complete for every member; all records held (R104, R125). -/
def readyDue (s : State) : Bool :=
  (otherLive s).all (fun q => s.tide.closeSent.contains q) && (List.range (covN s)).all (fun p => completeFor s p)

/-- SEAL_READY: the records and the manifest line are written into the working slot's area, READY goes out, PHASE
becomes READY (R125 step 5, R135). -/
def makeReady (s : State) : State :=
  (if phaseNow s = phClosing ∧ readyDue s ∧ allRecords s then
      captainCheck (sendReady (setPhase (writeArea s (workingSlot s) (sealTide s)) phReady) (manifestOf s))
    else s)

/-- SEAL_READY. -/
def execSealReady (s : State) : Out := .next (switchDone (foldSide s makeReady))

/-- READY (R125 step 5, R130). -/
def execReady (m : SealMsg) (s : State) : Out :=
  sealInEither s m fun s =>
    if m.tide ≠ sealedTide s + 1 ∨ phaseNow s = phHeld then s
    else captainCheck (takeReady s m.origin.toNat m.body)

/-- A captain that has passed an upward message's phase answers the sending cove with the downward message (R127). -/
def answerDown (s : State) (c : U16) (t : U48) : State :=
  match s.job.plan with
  | none => s
  | some p => match planCove p c with
    | none => s
    | some cp =>
      if t.toNat ≤ (sealedTide s).toNat ∧ decisionCode s t = 0 then sendTree s cp 0x17 t 0 []
      else match decisionMsg s with
        | some (u, type, arg, body, k) =>
          if u = t ∧ (k ∈ s.tide.passedDown ∨ !isRootCove s) then sendTree s cp type t arg body else s
        | none => s

/-- A cove that has flipped lost a member: the flood after the seal is abandoned (R244). -/
def lossAfterCommit (s : State) (t : U48) : State :=
  if !isSealRoot s then s
  else if t = sealedTide s ∧ ¬ s.tide.released ∧ decisionCode s t = 1 then { s with tide.abandonNext := true }
  else if t = sealedTide s ∧ phaseNow s ≠ phHeld ∧ phaseNow s ≠ phNone then rootAbandon s (t + 1) 0
  else s

/-- Keep a child cove's report; more losses than it had reported are a view change in the job (R132, R143). -/
def takeReport (s : State) (r : Report) : State :=
  let s := if look 0 r.cove s.tide.childLosses < r.losses then ageReports s else s
  { s with
    tide.reports := s.tide.reports.filter (fun q => q.cove ≠ r.cove) ++ [r]
    tide.childLosses := put r.cove r.losses s.tide.childLosses }

/-- REPORT (R125 step 6, R130 to R132, R244). RESHARD_READY counts toward the switch (R267). -/
def reportReceived (s : State) (m : SealMsg) : State :=
    if recState s = recReshard ∧ m.arg = 4 then
      captainCheck { s with tide.reports := s.tide.reports.filter (fun q => q.cove ≠ m.cove) ++
        [{ cove := m.cove, tide := m.tide, state := 4, losses := 0, costNs := 0, stale := false }] }
    else if !(children s).any (fun c => c.coveId = m.cove) then s
    else
      let v := m.arg.toNat
      let r : Report := { cove := m.cove, tide := m.tide, state := v, losses := fldAt m.body 0 4,
                          costNs := fldAt m.body 4 4, stale := false }
      if m.tide = sealedTide s + 1 ∧ decisionCode s m.tide = 0 then captainCheck (takeReport s r)
      else if !isCaptain s then s
      else if s.recov.shadow.isSome ∧ m.tide = sealedTide s + 1 then reportReshardLoss s
      else
        let t := if v = 3 then
            (if isRootCove s then lossAfterCommit s m.tide
             else match parentOf s with
              | some c => sendTree s c 0x14 m.tide 3 (leBytes 4 r.losses ++ leBytes 4 r.costNs)
              | none => s)
          else s
        answerDown t m.cove m.tide

/-- Acknowledge to the seal root, as a member of cove 0 (R128). -/
def ackRoot (s : State) (t : U48) (arg : U32) : State :=
  if isRootCove s ∧ ¬ isCaptain s then sendSeal s (captainOf (liveSet s)) 0x16 t arg [] else s

/-- A captain below the root passes a downward message to its child coves at once. -/
def passDown (s : State) : State := if isCaptain s ∧ !isRootCove s then tellChildren s else s

/-- A new root that takes a held decision from a member sends it on (R132). -/
def rootResend (s : State) : State := if isSealRoot s then rootPass (sendDecision s (otherLive s)) else s

/-- The outgoing member of a handover sends its tidemark store and the flipped state (R265 step 1). -/
def handoverFlip (s : State) : State :=
  match s.recov.handover, ownCove s with
  | some h, some c =>
    if h.outgoing ∧ h.finished then
      let frs := fragmentsOf (s.mem.bytes (areaBase s (sealedSlot s)) (areaSize c))
      let base : RbMsg := { RbMsg.blank with
        cove := c.coveId, target := BitVec.ofNat 8 (ownPos s), sender := BitVec.ofNat 8 (ownPos s),
        dest := BitVec.ofNat 8 (ownPos s), view := viewNow s, tide := sealedTide s }
      let t := forEach (List.zip (List.range frs.length) frs) (fun u e =>
        sendRbTo u h.peerRank 0x43 .any { base with depth := BitVec.ofNat 16 e.1, payload := e.2 }) s
      let body := match s.tide.decision with | some (_, .commit n l) => commitBody n l | _ => []
      sendRbTo t h.peerRank 0x44 .any { base with payload := body }
    else s
  | _, _ => s

/-- A target that holds no tide yet takes the number of a COMMIT, tells the members, and flips nothing (R256). -/
def bareCommit (s : State) (m : SealMsg) : State :=
  let t := adoptTide s m.tide
  let t := { t with
    tide.decision := some (m.tide, .commit (BitVec.ofNat 16 (fldAt m.body 0 2)) (BitVec.ofNat 32 (fldAt m.body 4 4)))
    tide.released := false }
  forEach (otherLive t) (fun u q => sendSeal u q 0x16 m.tide 0 []) t

/-- COMMIT (R125 step 8, R129, R133). -/
def execCommit (m : SealMsg) (s : State) : Out :=
  sealIn s m fun s =>
    if bareTarget s then bareCommit s m
    else if m.tide = sealedTide s + 1 ∧ decisionCode s m.tide = 0 ∧ phaseNow s ≠ phHeld then
      let n : U16 := BitVec.ofNat 16 (fldAt m.body 0 2)
      let l : U32 := BitVec.ofNat 32 (fldAt m.body 4 4)
      let t := { s with tide.released := false, tide.upReport := none, tide.acks := [], tide.passedDown := [] }
      let t := handoverFlip (doFlip t m.tide n l)
      flippedCheck (passDown (rootResend t))
    else if m.tide = sealedTide s then ackRoot s m.tide 0
    else s

/-- RELEASE (R125 steps 10 and 11). -/
def execRelease (m : SealMsg) (s : State) : Out :=
  sealIn s m fun s =>
    if bareTarget s then ackRoot { s with tide.released := true } m.tide 1
    else if m.tide = sealedTide s ∧ decisionCode s m.tide = 1 ∧ ¬ s.tide.released then
      let t := { s with tide.released := true }
      ackRoot (doRelease (passDown (rootResend t))) m.tide 1
    else if m.tide = sealedTide s then ackRoot s m.tide 1
    else s

/-- ABANDON (R128, R130, R133, R245). -/
def execAbandon (m : SealMsg) (s : State) : Out :=
  sealIn s m fun s =>
    if bareTarget s then
      ackRoot { adoptTide s (m.tide - 1) with tide.decision := some (m.tide, .abandon m.arg) } m.tide 2
    else if m.tide = sealedTide s + 1 ∧ decisionCode s m.tide = 0 ∧ phaseNow s ≠ phCommitted then
      let t := { s with tide := { s.tide with
        decision := some (m.tide, .abandon m.arg), released := false, acks := [], passedDown := [] } }
      ackRoot (doAbandon (passDown (rootResend t)) m.arg) m.tide 2
    else if decisionCode s m.tide = 2 then
      ackRoot (if s.recov.shadow.isSome then quitReshard (passDown (rootResend s)) else { s with tide.upReport := none }) m.tide 2
    else s

/-- Flips of a tide are still gathered: it is being sealed, or it has flipped here and RELEASE has not come. -/
def gathersFlips (s : State) (t : U48) : Bool :=
  decide (t = sealedTide s + 1) || (decide (t = sealedTide s) && decide (decisionCode s t = 1) && !s.tide.released)

/-- FLIPPED: a member's flip or acknowledgement, or a child cove's report (R125 step 9, R127, R128). -/
def execFlipped (m : SealMsg) (s : State) : Out :=
  sealIn s m fun s =>
    if m.tree then
      if gathersFlips s m.tide then flippedCheck { s with tide.childFlips := addNew m.cove s.tide.childFlips }
      else if m.tide.toNat ≤ (sealedTide s).toNat ∧ isCaptain s then answerDown s m.cove m.tide
      else s
    else
      let q := m.origin.toNat
      let t := if m.arg = 0 ∧ gathersFlips s m.tide then { s with tide.flips := addNew q s.tide.flips } else s
      let t := match t.tide.decision with
        | some (u, _) => if u = m.tide then { t with tide.acks := addNew (m.arg, q) t.tide.acks } else t
        | none => t
      flippedCheck (if isSealRoot t then rootPass t else t)

/-- QUERY: the captain passes it to its child coves and answers at once with its cove's state, joined with the reports
of its child coves that it holds (R124, R131; log entry 30). -/
def execQuery (m : SealMsg) (s : State) : Out :=
  sealIn s m fun s =>
    if !isCaptain s then s
    else
      let s := forEach (children s) (fun u c => sendTree u c 0x19 m.tide 0 []) s
      sendReport s m.tide ((subtree s m.tide (some (answerState s m.tide)) false).getD 2)

/-- REPORT (R125 step 6). -/
def execReport (m : SealMsg) (s : State) : Out := sealInEither s m fun s => reportReceived s m

/-- SWITCH: the shadows become current; a captain passes it to its child coves (R267 step 6). -/
def execSwitch (m : SealMsg) (s : State) : Out :=
  .next (vaIn s fun s => if s.recov.shadow.isNone then count s cntVaDrop
    else switchDone (withShadow s fun u =>
      if !sealAccepts u m then count u cntVaDrop
      else if u.tide.released then u
      else
        let v := { u with tide.released := true }
        if isCaptain v then forEach (children v) (fun w c => sendTree w c 0x1A m.tide 0 []) v else v))

/-- What a captain sends again 200 µs after its REPORT or FLIPPED (R127). -/
def sealResend (s : State) : State :=
  (if !isCaptain s then s
    else match s.tide.upReport, s.tide.upFlipped, parentOf s with
      | _, some due, some c =>
        if due.toNat ≤ s.time.gtc.toNat then
          sendTree { s with tide.upFlipped := some (fromNow s 200000) } c 0x16 (sealedTide s) 0 []
        else s
      | some (v, t, due), none, _ =>
        if due.toNat ≤ s.time.gtc.toNat then sendReport s t v else s
      | _, _, _ => s)

/-- SEAL_RESEND: every 200 µs until the next downward message (R127). -/
def execSealResend (s : State) : Out :=
  .next (if s.recov.shadow.isSome then withShadow (sealResend s) sealResend else sealResend s)

/-- DECISION_RESEND: every 200 µs to the members of cove 0 without an acknowledgement (R128). -/
def execDecisionResend (s : State) : Out :=
  .next (match decisionMsg s with
    | some (_, _, _, _, k) =>
      if isSealRoot s ∧ unacked s k ≠ [] ∧ s.tide.rootSent.toNat + 200000 ≤ s.time.gtc.toNat then
        sendDecision s (unacked s k)
      else s
    | none => s)

end Sys2Proof.Machine
end

