-- ==== Sys2Proof/Machine/Tier.lean ====
section
/-! DEFINITION. Regions, quotas and the tier mover: REGION_DECLARE, TIER_QUOTA_SET, the prefetch schedule, staged
tiles, resident rows and off-load (R32 to R60). -/

namespace Sys2Proof.Machine

/-! ### Windows and amounts in use (R40, R41, R43) -/

/-- Windows with their base fields in parameter-block order: (offset, base, bytes, far). -/
def windows (q : Quotas) : List (Nat × Nat × Nat × Bool) :=
  [(16, q.parityBase * mib, q.parity * mib, false), (24, q.stashNearBase * mib, q.stashNear * mib, false),
   (32, q.stashFarBase * mib, q.stashFar * mib, true), (40, q.stageBase * mib, q.stage * mib, false)]

def overlap (a n b k : Nat) : Bool := decide (a < b + k ∧ b < a + n)

/-- Base field of the first window outside its range, or over another window or a region (R40, R41). -/
def windowFault (p : Plan) (rs : List Region) (q : Quotas) : Option Nat :=
  (windows q).findSome? fun w =>
    let r := if w.2.2.2 then p.farRange else p.nearRange
    if w.2.2.1 = 0 then none
    else if w.2.1 < r.base ∨ r.base + r.size < w.2.1 + w.2.2.1 then some w.1
    else if (windows q).any fun v => v.1 ≠ w.1 && decide (0 < v.2.2.1) && overlap w.2.1 w.2.2.1 v.2.1 v.2.2.1 then some w.1
    else if rs.any fun g => (regionHomes g).any fun h => overlap w.2.1 w.2.2.1 h.1 h.2.1 then some w.1
    else none

def protectedBays (rs : List Region) : Nat := ((rs.filter fun r => r.protected_).map Region.bays).sum

def nearInUse (rs : List Region) : Nat := ((rs.filter fun r => r.protected_).map Region.nearBays).sum

def farInUse (rs : List Region) : Nat := ((rs.filter fun r => r.protected_).map fun r => r.bays - r.nearBays).sum

def offloadInUse (rs : List Region) : Nat := ((rs.filter fun r => !r.protected_).map Region.bays).sum

/-- The stash reservation: 72 B for each protected line (R43). -/
def reservation (rs : List Region) : Nat := protectedBays rs * 16384 * 72

/-- The far share of the reservation (R43). -/
def farShare (rs : List Region) (q : Quotas) : Nat := reservation rs - q.stashNear * mib

/-- Near and far STASH windows together hold the reservation. -/
def stashHolds (rs : List Region) (q : Quotas) : Bool := reservation rs ≤ (q.stashNear + q.stashFar) * mib

/-- Bytes of touch map, key ladder and tidemark store (R87, R135, R139). -/
def farStructures (c : CovePlan) : Nat := touchBytes c.rows + 2048 * c.rows + 2 * areaSize c

/-- The far STASH window holds the structures beside its far share (R135). -/
def farStashHolds (c : CovePlan) (rs : List Region) (q : Quotas) : Bool :=
  farStructures c + farShare rs q ≤ q.stashFar * mib

/-- MiB of the PARITY window that a cove needs (R73). -/
def parityNeed (c : CovePlan) : Nat := (2 * c.rows * Layout.frame c.layout + mib - 1) / mib

/-- A cove is formed or forming on the instance. -/
def coveStands (s : State) : Bool := forming s || s.job.state = 3 || s.job.state = 4

/-- The STASH windows suffice for what they hold now (R41, R43). -/
def stashSuffices (s : State) (q : Quotas) : Bool :=
  stashHolds s.tier.regions q &&
    (match ownCove s with | some c => !coveStands s || farStashHolds c s.tier.regions q | none => true)

/-- The rebuilt map fits the STAGE window while the instance is a target (R260). -/
def stageSuffices (s : State) (q : Quotas) : Bool := !s.recov.target || decide (touchBytes (rowsY s) ≤ q.stage * mib)

/-! ### TIER_QUOTA_SET (R41, R327, R401) -/

def quotaField (q : Quotas) : Nat → Nat
  | 0 => q.dataNear
  | 1 => q.dataFar
  | 2 => q.parityBase
  | 3 => q.parity
  | 4 => q.stashNearBase
  | 5 => q.stashNear
  | 6 => q.stashFarBase
  | 7 => q.stashFar
  | 8 => q.stageBase
  | 9 => q.stage
  | _ => q.offload

/-- The quotas with the selected fields of a command. -/
def quotasOf (q : Quotas) (c : Line) : Quotas :=
  let f (i : Nat) : Nat := if (fld c 52 2).testBit i then fld c (8 + 4 * i) 4 else quotaField q i
  { dataNear := f 0, dataFar := f 1, parityBase := f 2, parity := f 3, stashNearBase := f 4, stashNear := f 5,
    stashFarBase := f 6, stashFar := f 7, stageBase := f 8, stage := f 9, offload := f 10 }

/-- A quota lowered below its amount in use. -/
def loweredBelow (s : State) (q : Quotas) (i : Nat) : Bool :=
  decide (quotaField q i < quotaField s.tier.quotas i) &&
  match i with
  | 0 => decide (q.dataNear < nearInUse s.tier.regions)
  | 1 => decide (q.dataFar < farInUse s.tier.regions)
  | 3 => match ownCove s with | some c => coveStands s && decide (q.parity < parityNeed c) | none => false
  | 5 => !stashSuffices s q
  | 7 => !stashSuffices s q
  | 9 => !stageSuffices s q
  | 10 => decide (q.offload < offloadInUse s.tier.regions)
  | _ => false

/-- Quotas take effect: staged tiles and row slots that the STAGE window no longer holds are freed; slots count from the
window's base, so a new base frees them all (R41, R48, R55). -/
def withQuotas (s : State) (q : Quotas) : State :=
  let base := q.stageBase * mib
  let top := base + q.stage * mib
  let stays (r : RowSlot) : Bool :=
    decide (q.stageBase = s.tier.quotas.stageBase ∧ base + (r.slot + 1) * 2 ^ r.shift ≤ top)
  { s with tier := { s.tier with
      quotas := q
      staged := s.tier.staged.filter fun t => decide (base ≤ t.addr ∧ t.addr + 16384 ≤ top)
      rows := s.tier.rows.filter stays
      lastSeq := s.tier.lastSeq.filter fun e => s.tier.rows.all fun r => r.region ≠ e.1 || stays r } }

def execTierQuotaSet (src : CmdSrc) (s : State) : Out :=
  mailboxRow 0x0F (fun mb t s =>
    let q := quotasOf s.tier.quotas t.cmd
    if 2048 ≤ fld t.cmd 52 2 then badArg s mb 53
    else match s.job.plan with
      | none => wrongState s mb
      | some p =>
        match windowFault p s.tier.regions q with
        | some o => badArg s mb o
        | none =>
          if s.job.formed ∧ [2, 4, 6, 8].any (fun i => quotaField q i ≠ quotaField s.tier.quotas i) then wrongState s mb
          else match (List.range 11).find? fun i => loweredBelow s q i with
            | some i => resource s mb (8 + 4 * i)
            | none =>
              if q ≠ s.tier.quotas ∧ !stashHolds s.tier.regions q then resource s mb 36
              else respondOk (withQuotas s q) mb) src s

/-! ### REGION_DECLARE (R33 to R38, R68, R69, R401) -/

/-- The instance belongs to another cove than the region names: the one it has joined, else the one the plan puts it in
(R68, R256). -/
def otherCove (s : State) (p : Plan) (r : Region) : Bool :=
  match s.agree.cove with
  | some c => decide (c ≠ r.cove)
  | none => match coveOfRank p (ownRank s) with
    | some c => decide (c.1.coveId ≠ r.cove)
    | none => false

def inRange (g : Span) (a : Nat) : Bool := decide (g.base ≤ a ∧ a < g.base + g.size)

/-- The region's last bay is beyond the cove's rows (R69). -/
def beyondRows (p : Plan) (r : Region) : Bool :=
  match planCove p r.cove with
  | some c => decide (c.rows < r.firstBay + r.bays)
  | none => true

/-- Offset of the first field of a region that breaks R33, R35, R36, R68 or R69 on its own. A region that ends beyond the
rows names first_bay (log entry 77). -/
def regionFieldFault (s : State) (p : Plan) (kind : Nat) (r : Region) : Option Nat :=
  if 64 ≤ r.id.toNat ∨ s.tier.regions.any (fun g => g.id = r.id) ∨ 64 ≤ s.tier.regions.length then some 8
  else if 2 ≤ kind % 4 ∨ 16 ≤ kind ∨ r.placement = 3 ∨ (¬ r.protected_ ∧ r.placement ≠ 2) then some 9
  else if r.protected_ ∧ (planCove p r.cove).isNone then some 10
  else if r.protected_ ∧ otherCove s p r then some 10
  else if ¬ r.protected_ ∧ r.cove ≠ 0 then some 10
  else if r.bays = 0 ∨ 65536 < r.bays then some 12
  else if r.protected_ ∧ 65536 < protectedBays s.tier.regions + r.bays then some 12
  else if ¬ r.protected_ ∧ r.firstBay ≠ 0 then some 16
  else if 65536 ≤ r.firstBay then some 16
  else if r.protected_ ∧ beyondRows p r then some 16
  else if r.protected_ ∧ s.tier.regions.any (fun g => g.protected_ && overlap r.firstBay r.bays g.firstBay g.bays) then some 16
  else if r.placement = 2 ∧ r.nearBase ≠ 0 then some 24
  else if r.nearBase % mib ≠ 0 ∨ (r.placement ≠ 2 ∧ !inRange p.nearRange r.nearBase) then some 24
  else if r.placement = 0 ∧ r.farBase ≠ 0 then some 32
  else if r.farBase % mib ≠ 0 ∨ (r.placement ≠ 0 ∧ !inRange p.farRange r.farBase) then some 32
  else none

/-- Near bays of a region under the near DATA quota (R37). -/
def placeNear (s : State) (r : Region) : Nat :=
  if !r.protected_ ∨ r.placement = 2 then 0
  else if r.placement = 0 then r.bays
  else min r.bays (s.tier.quotas.dataNear - nearInUse s.tier.regions)

/-- The near or the far home of a region leaves its range, or meets a region or a window (R33, R35, R40). -/
def partFault (s : State) (p : Plan) (r : Region) (near : Bool) : Bool :=
  let base := if near then r.nearBase else r.farBase
  let size := (if near then r.nearBays else r.bays - r.nearBays) * mib
  let range := if near then p.nearRange else p.farRange
  decide (0 < size) &&
    (decide (base < range.base ∨ range.base + range.size < base + size) ||
      s.tier.regions.any (fun g => (regionHomes g).any fun k => overlap base size k.1 k.2.1) ||
      (windows s.tier.quotas).any (fun w => decide (0 < w.2.2.1) && overlap base size w.2.1 w.2.2.1))

/-- Base field of the first home at fault; the two homes of one region must not meet either (R33, R35, R40). -/
def homeFault (s : State) (p : Plan) (r : Region) : Option Nat :=
  if partFault s p r true then some 24
  else if partFault s p r false || overlap r.nearBase (r.nearBays * mib) r.farBase ((r.bays - r.nearBays) * mib) then some 32
  else none

/-- Shortfall of the quotas (R37, R42, R401). -/
def regionShortfall (s : State) (r : Region) : Option Nat :=
  if !r.protected_ then (if s.tier.quotas.offload < offloadInUse s.tier.regions + r.bays then some 48 else none)
  else if s.tier.quotas.dataNear < nearInUse s.tier.regions + r.nearBays then some 8
  else if s.tier.quotas.dataFar < farInUse s.tier.regions + (r.bays - r.nearBays) then some 12
  else none

def execRegionDeclare (src : CmdSrc) (s : State) : Out :=
  mailboxRow 0x06 (fun mb t s =>
    match s.job.plan with
    | none => wrongState s mb
    | some p =>
      let r0 := regionOf t.cmd
      match regionFieldFault s p (fld t.cmd 9 1) r0 with
      | some o => badArg s mb o
      | none =>
        if r0.protected_ ∧ coveStands s ∧ s.agree.cove = some r0.cove then wrongState s mb
        else
          let r := { r0 with nearBays := placeNear s r0 }
          match homeFault s p r with
          | some o => badArg s mb o
          | none => match regionShortfall s r with
            | some o => resource s mb o
            | none => respond { s with tier.regions := s.tier.regions ++ [r] } mb stOk 0 [(8, 4, r.nearBays)]) src s

/-! ### The prefetch schedule (R49 to R53, R328) -/

/-- A schedule entry from its 24 B (R328). -/
def entryOf (bs : List Byte) : PfEntry :=
  { action := BitVec.ofNat 8 (fldAt bs 0 1), region := BitVec.ofNat 8 (fldAt bs 1 1),
    position := BitVec.ofNat 16 (fldAt bs 2 2), lead := BitVec.ofNat 8 (fldAt bs 4 1),
    firstTile := BitVec.ofNat 32 (fldAt bs 8 4), tiles := BitVec.ofNat 32 (fldAt bs 12 4),
    nearAddr := BitVec.ofNat 64 (fldAt bs 16 8), started := false, done := false, late := false,
    failed := false }

def inNear (p : Plan) (a n : Nat) : Bool := decide (p.nearRange.base ≤ a ∧ a + n ≤ p.nearRange.base + p.nearRange.size)

/-- Offset in its 24 B of the first field of an entry that breaks R50 or R328. -/
def entryFault (s : State) (bs : List Byte) : Option Nat :=
  let e := entryOf bs
  let a := e.action.toNat
  let off := decide (2 ≤ a)
  match s.tier.regions.find? fun r => r.id = e.region with
  | none => if 4 ≤ a then some 0 else some 1
  | some r =>
    if 4 ≤ a then some 0
    else if (!off && (!r.protected_ || decide (r.bays ≤ r.nearBays))) || (off && r.protected_) then some 1
    else if 2 < e.lead.toNat then some 4
    else if fldAt bs 5 3 ≠ 0 then some 5
    else if a = 1 then
      if e.firstTile ≠ 0 then some 8 else if e.tiles ≠ 0 then some 12
      else if e.nearAddr.toNat % 64 ≠ 0 then some 16 else none
    else if e.tiles = 0 ∨ 65536 < e.tiles.toNat then some 12
    else if r.bays * 64 < e.firstTile.toNat + e.tiles.toNat then some 8
    else if a = 0 then (if e.nearAddr ≠ 0 then some 16 else none)
    else if e.nearAddr.toNat % 16384 ≠ 0 then some 16 else none

/-- PREFETCH_PLAN is taken: its lines are checked at once, its entries before it completes (R49, R53, R328). -/
def execPrefetchPlan (src : CmdSrc) (s : State) : Out :=
  mailboxRow 0x10 (fun mb t s =>
    match s.job.plan with
    | none => wrongState s mb
    | some p =>
      let a := fld t.cmd 8 8
      let n := fld t.cmd 16 4
      let line (o : Nat) : Bool :=
        let l := fld t.cmd o 8
        decide (l % 64 = 0) && inNear p l 64 &&
          !(s.tier.regions.any fun r => (regionHomes r).any fun h => overlap l 64 h.1 h.2.1)
      if a % 64 ≠ 0 ∨ !inNear p a (24 * n) then badArg s mb 8
      else if n = 0 ∨ 65536 < n then badArg s mb 16
      else if !line 24 then badArg s mb 24
      else if !line 32 then badArg s mb 32
      else match s.tier.loading with
        | some l => busyWith s mb (some l.1)
        | none =>
          let es := (List.range n).map fun i => entryOf (s.mem.bytes (a + 24 * i) 24)
          let bad := (List.range n).findSome? fun i => (entryFault s (s.mem.bytes (a + 24 * i) 24)).map fun o => 24 * i + o
          match bad with
          | some o => badBlock s mb o
          | none =>
            let l := some (mb, es, BitVec.ofNat 64 (fld t.cmd 24 8), BitVec.ofNat 64 (fld t.cmd 32 8), true)
            accepted { s with tier.loading := l } mb) src s

/-- PREFETCH_PLAN_COMPLETE: the schedule replaces the one in force, and the filter's line entry follows (R277, R328).
The cursor of a fresh schedule stands at position 0 of step 0, and entries of the old one in flight are dropped (log
entry 77). A schedule taken before a view change does not bring the cursor back (R58). -/
def execPrefetchPlanComplete (s : State) : Out :=
  .next (match s.tier.loading with
    | none => s
    | some (mb, es, cursor, progress, stands) =>
      respondOk { s with
        tier := { s.tier with
          loading := none, schedule := es, flight := [], cursorLine := if stands then some cursor else none,
          progressLine := some progress, position := 0, step := 0 }
        cap.lineEntry := some cursor
        cap.filterPending := s.cap.filterPending + 1 } mb)

/-! ### The progress line (R53) -/

/-- Highest position of the schedule all of whose entries, and all earlier ones, are complete; 0 with none. Positions
with no entry are not counted (log entry 77). -/
def donePosition (es : List PfEntry) : Nat :=
  let open_ := (es.filter fun e => !e.done).map fun e => e.position.toNat
  ((es.map fun e => e.position.toNat).filter fun p => open_.all fun q => decide (p < q)).foldl max 0

/-- Write the progress line (R53). -/
def writeProgress (s : State) : State :=
  match s.tier.progressLine with
  | none => s
  | some a =>
    let flags := bit (s.tier.schedule.all fun e => e.done || e.failed) + 2 * bit s.tier.haltFlag
    let l := mkLine [(0, 2, donePosition s.tier.schedule), (2, 2, flags), (4, 4, s.tier.maskSeq.toNat),
      (8, 8, s.tier.step.toNat), (16, 8, s.time.gtc.toNat)]
    { s with mem := s.mem.writeLine a.toNat l }

/-! ### Entries in flight (R51, R52) -/

/-- An entry in flight ends: in the step it was started in, the schedule shows it complete, or failed; the progress line
follows (R51, R53). -/
def endFlight (s : State) (f : Flight) (complete : Bool) : State :=
  let t := { s with tier.flight := s.tier.flight.filter fun g => !decide (g.index = f.index ∧ g.step = f.step) }
  writeProgress (if f.step = s.tier.step then
      match t.tier.schedule[f.index]? with
      | some e => { t with tier.schedule := t.tier.schedule.set f.index { e with done := complete, failed := !complete } }
      | none => t
    else t)

def putFlight (s : State) (f : Flight) : State :=
  { s with tier.flight := s.tier.flight.map fun g => if g.index = f.index ∧ g.step = f.step then f else g }

/-- A mask's header fails: a field outside its range in R54, another region than the entry's, rows past the region's end,
or a directory outside the near range (log entry 77). -/
def maskBad (s : State) (id : Byte) (h : List Byte) : Bool :=
  match findRegion s id, s.job.plan with
  | some r, some p =>
    decide (fldAt h 0 1 ≠ id.toNat) || decide (fldAt h 1 1 < 6 ∨ 14 < fldAt h 1 1) || decide (fldAt h 2 2 ≠ 0) ||
      decide (fldAt h 12 4 = 0 ∨ 2 ^ 24 < fldAt h 12 4) || decide (fldAt h 24 8 ≠ 0) ||
      decide (r.bays * mib < (fldAt h 8 4 + fldAt h 12 4) * 2 ^ fldAt h 1 1) ||
      !inNear p (fldAt h 16 8) 4
  | _, _ => true

/-- A ROWS entry starts: the tier mover reads its mask. A malformed header fails the entry, a sequence number already
served completes it at once (R55, R56). -/
def startRows (s : State) (f : Flight) : State :=
  let a := f.entry.nearAddr.toNat
  let h := s.mem.bytes a 32
  let id := f.entry.region
  if maskBad s id h then endFlight (logReport { s with tier.haltFlag := true } clOther (srcOf 8 id.toNat) a) f false
  else if find id s.tier.lastSeq = some (BitVec.ofNat 32 (fldAt h 4 4)) then endFlight s f true
  else putFlight s { f with mask := s.mem.bytes a (32 + (fldAt h 12 4 + 7) / 8) }

/-- Entries of the schedule start, in schedule order (R51). -/
def startEntries (s : State) (is : List Nat) : State :=
  forEach is (fun t i => match t.tier.schedule[i]? with
    | none => t
    | some e =>
      let f : Flight := { index := i, entry := e, step := t.tier.step, mask := [], stalled := false }
      let u := { t with
        tier.schedule := t.tier.schedule.set i { e with started := true }
        tier.flight := t.tier.flight ++ [f] }
      if e.action = 1 then startRows u f else u) s

/-! ### The layer cursor (R49, R51) -/

/-- The cursor moves: entries due start, entries incomplete at their position are late and carry on. A change of step
begins the schedule afresh; what an earlier step left in flight carries on too. An entry that starts as the cursor
reaches its position is late once the cursor goes past it (R51; log entry 77). -/
def moveCursor (s : State) (pos : U16) (step : U64) : State :=
  if s.tier.cursorLine.isNone ∨ s.power.season.get = 1 ∨ s.power.season.get = 2 then s
  else
    let fresh := decide (step ≠ s.tier.step)
    let es := if fresh then
        s.tier.schedule.map fun e => { e with started := false, done := false, late := false, failed := false }
      else s.tier.schedule
    let due (e : PfEntry) : Bool :=
      if e.position.toNat < e.lead.toNat then fresh else decide (e.position.toNat ≤ pos.toNat + e.lead.toNat)
    let reached (e : PfEntry) : Bool :=
      decide (e.position.toNat ≤ pos.toNat) && (fresh || decide (s.tier.position.toNat < e.position.toNat))
    let late (e : PfEntry) : Bool :=
      !e.done && !e.failed && !e.late &&
        ((reached e && (e.started || decide (0 < e.lead.toNat))) || decide (e.position.toNat < pos.toNat))
    let starts := (List.range es.length).filter fun i => match es[i]? with
      | some e => !e.started && due e
      | none => false
    let n := (es.filter late).length
    let es := es.map fun e => { e with late := e.late || late e }
    startEntries (countN { s with tier := { s.tier with position := pos, step := step, schedule := es } } cntPfLate n) starts

/-- SNOOP_OBSERVE: a write to the cursor line (R49, R277, R278). -/
def execSnoopObserve (r : SnoopRec) (s : State) : Out :=
  .next (
    let t := verdict (commitBytes s r) r.tag .pass
    let own := decide (r.master = .apply ∨ r.master = .exchange ∨ r.master = .hygarOther)
    if s.tier.cursorLine = some r.line ∧ ¬ own ∧ (r.be &&& 0xFFFF) = 0xFFFF then
      moveCursor t (BitVec.ofNat 16 (fld r.data 0 2)) (BitVec.ofNat 64 (fld r.data 8 8))
    else t)

/-! ### Staging (R45 to R48, R54 to R57) -/

/-- First byte of the STAGE window that staging may not use: the rebuilt map's on a target (R260). -/
def stageEnd (s : State) : Nat :=
  if s.recov.target then mapBase s else (s.tier.quotas.stageBase + s.tier.quotas.stage) * mib

/-- Bytes of the STAGE window in use: staged tiles and row slots. -/
def stageUsed (s : State) : List (Nat × Nat) :=
  s.tier.staged.map (fun t => (t.addr, 16384)) ++
    s.tier.rows.map fun r => (s.tier.quotas.stageBase * mib + r.slot * 2 ^ r.shift, 2 ^ r.shift)

/-- First free slot of a size from the base of the window. -/
def freeSlot (s : State) (size : Nat) : Option Nat :=
  let b := s.tier.quotas.stageBase * mib
  (List.range ((stageEnd s - b) / size)).find? fun i =>
    !((stageUsed s).any fun u => overlap (b + i * size) size u.1 u.2)

/-- A FETCH entry due at the current cursor position names the tile (R48). -/
def dueNow (s : State) (t : StagedTile) : Bool :=
  s.tier.schedule.any fun e => e.action = 0 && decide (e.region = t.region) && decide (e.position = s.tier.position) &&
    decide (e.firstTile.toNat ≤ t.tile ∧ t.tile < e.firstTile.toNat + e.tiles.toNat)

/-- The staged tile to free: the one furthest behind the cursor, an earlier step's first, none due now (R48). -/
def victim (s : State) : Option StagedTile :=
  let free := s.tier.staged.filter fun t => !dueNow s t
  match free.find? fun t => t.step ≠ s.tier.step with
  | some t => some t
  | none => (free.filter fun t => decide (t.position.toNat < s.tier.position.toNat)).foldl (fun v t =>
      match v with
      | some w => if t.position.toNat < w.position.toNat then some t else some w
      | none => some t) none

/-- A free slot of at most a tile's size, freeing one staged tile if the window is full (R48). -/
def roomFor (s : State) (size : Nat) : State × Option Nat :=
  match freeSlot s size, victim s with
  | some i, _ => (s, some i)
  | none, some v =>
    let t := { s with tier.staged := s.tier.staged.erase v }
    (t, freeSlot t size)
  | none, none => (s, none)

def isStaged (s : State) (id : Byte) (tile : Nat) : Bool := s.tier.staged.any fun t => t.region = id ∧ t.tile = tile

/-- Stage one far tile; one that stands staged already is now needed at the entry's position (R47, R48). -/
def stageTile (s : State) (e : PfEntry) (step : U64) (r : Region) (tile : Nat) : State :=
  if tile < r.nearBays * 64 then s
  else if isStaged s r.id tile then
    { s with tier.staged := s.tier.staged.map fun t =>
        if t.region = r.id ∧ t.tile = tile then { t with position := e.position, step := step } else t }
  else
    match roomFor s 16384 with
    | (t, none) => t
    | (t, some i) =>
      let a := t.tier.quotas.stageBase * mib + i * 16384
      { t with
        mem := t.mem.copy (regionAddr r (tile * 16384)) a 16384
        tier.staged := t.tier.staged ++ [{ region := r.id, tile := tile, addr := a, position := e.position, step := step }] }

/-! ### Serving the far tier (R52) -/

/-- The cursor has reached the entry's position: it is due. An earlier step's entry is. -/
def isDue (s : State) (f : Flight) : Bool :=
  decide (f.step ≠ s.tier.step) || decide (f.entry.position.toNat ≤ s.tier.position.toNat)

/-- Priority class of an entry at the far tier: 2 due, 3 started ahead of its position, 4 OFFLOAD. Class 1, stash writes
to the far window, are made in the step that captures the line, so none waits (R52). -/
def farClass (s : State) (f : Flight) : Nat :=
  if f.entry.action = 2 then 4 else if isDue s f then 2 else 3

/-- An entry is served before another: by class, in class 3 by position; start order decides the rest (R52). -/
def servedBefore (s : State) (f g : Flight) : Bool :=
  decide (farClass s f < farClass s g) ||
    (farClass s f = 3 && farClass s g = 3 && decide (f.entry.position.toNat < g.entry.position.toNat))

/-- The flight that a completion of a schedule entry is about: the oldest of that entry, while every entry that goes
before it waits for room or for lines (R42, R52). -/
def servedFlight (s : State) (entry : Nat) : Option Flight :=
  match s.tier.flight.find? fun f => f.index = entry with
  | none => none
  | some f =>
    let ready := s.tier.flight.filter fun g => !g.stalled || decide (g = f)
    if ready.find? (fun g => ready.all fun h => !servedBefore s h g) = some f then some f else none

/-- Rows an active-row mask names, ascending (R54). -/
def maskRows (m : List Byte) : List Nat :=
  let bits := m.drop 32
  ((List.range (fldAt m 12 4)).filter fun b => (bits.getD (b / 8) 0).getLsbD (b % 8)).map fun b => fldAt m 8 4 + b

/-- Far lines of protected regions that an entry reads. -/
def entryReads (f : Flight) (r : Region) : List Nat :=
  match f.entry.action.toNat with
  | 0 => (List.range (f.entry.tiles.toNat * 256)).map fun i => regionAddr r (f.entry.firstTile.toNat * 16384 + i * 64)
  | 1 => (maskRows f.mask).flatMap fun row =>
      (List.range (2 ^ fldAt f.mask 1 1 / 64)).map fun i => regionAddr r (row * 2 ^ fldAt f.mask 1 1 + i * 64)
  | _ => []

/-- Serve an active-row mask: rows it does not name free their slots, its others are staged (R55, R56). The answer says
whether every active row is staged. -/
def stageRows (s : State) (f : Flight) (r : Region) : State × Bool :=
  let shift := fldAt f.mask 1 1
  let active := maskRows f.mask
  let kept := s.tier.rows.filter fun q => q.region ≠ r.id ∨ (q.valid ∧ q.shift = shift ∧ q.row ∈ active)
  let t := forEach active (fun u row =>
    if u.tier.rows.any fun q => q.region = r.id ∧ q.row = row then u
    else match roomFor u (2 ^ shift) with
      | (v, none) => v
      | (v, some i) => { v with
          mem := v.mem.copy (regionAddr r (row * 2 ^ shift)) (v.tier.quotas.stageBase * mib + i * 2 ^ shift) (2 ^ shift)
          tier.rows := v.tier.rows ++ [{ region := r.id, row := row, shift := shift, slot := i, valid := true }] })
    { s with tier.rows := kept }
  (t, active.all fun row => t.tier.rows.any fun q => q.region = r.id ∧ q.row = row)

/-- The directory of a mask: the slot of each active row, 0xFFFF_FFFF for a row that was not staged (R55, R369). -/
def writeDirectory (s : State) (f : Flight) (r : Region) : State :=
  let slots := (maskRows f.mask).flatMap fun row => match s.tier.rows.find? fun q => q.region = r.id ∧ q.row = row with
    | some q => leBytes 4 q.slot
    | none => leBytes 4 0xFFFFFFFF
  { s with mem := s.mem.write (fldAt f.mask 16 8) slots }

/-- What a FETCH or ROWS entry comes to: complete once everything is staged; else it waits for room while it is not due,
and ends without its data when it is (R42, R48, R53). -/
def settleFlight (s : State) (f : Flight) (whole : Bool) : State :=
  if whole then endFlight s f true
  else if isDue s f then endFlight s f false
  else putFlight s { f with stalled := true }

/-- Do an entry's move (R45, R47, R55, R57). Lines of a target that are not rebuilt are asked for first (R261). -/
def serveFlight (s : State) (f : Flight) : State :=
  match findRegion s f.entry.region with
  | none => s
  | some r =>
    let e := f.entry
    let blocked := if rebuilding s then (entryReads f r).filter fun a => notRebuilt s a else []
    if ¬ blocked.isEmpty then putFlight (forEach blocked startRead s) { f with stalled := true }
    else
      let far := regionAddr r (e.firstTile.toNat * 16384)
      match e.action.toNat with
      | 0 =>
        let tiles := (List.range e.tiles.toNat).map fun i => e.firstTile.toNat + i
        let t := forEach tiles (fun u i => stageTile u e f.step r i) s
        settleFlight t f (tiles.all fun i => decide (i < r.nearBays * 64) || isStaged t r.id i)
      | 1 =>
        let p := stageRows s f r
        if p.2 then
          let seq : U32 := BitVec.ofNat 32 (fldAt f.mask 4 4)
          let t := writeDirectory p.1 f r
          settleFlight { t with tier.lastSeq := put r.id seq t.tier.lastSeq, tier.maskSeq := seq } f true
        else settleFlight (if isDue s f then writeDirectory p.1 f r else p.1) f false
      | 2 => endFlight { s with mem := s.mem.copy e.nearAddr.toNat far (e.tiles.toNat * 16384) } f true
      | _ => endFlight { s with mem := s.mem.copy far e.nearAddr.toNat (e.tiles.toNat * 16384) } f true

/-- PREFETCH_ENTRY_COMPLETE: the entry served next at the far tier has its data land, and the progress line follows
(R45, R52, R53, R55, R57). Nothing completes once all four channels have halted (R369). -/
def execPrefetchEntryComplete (entry : Nat) (s : State) : Out :=
  .next (if s.tier.halted = 0xF ∨ s.power.season.get = 1 ∨ s.power.season.get = 2 then s
    else match servedFlight s entry with
      | some f => serveFlight s f
      | none => s)

/-- After a view change, on entering Autumn: staged data falls, the cursor is ignored until PREFETCH_PLAN (R58, R388). -/
def dropStaged (s : State) : State :=
  { s with tier := { s.tier with
      staged := [], rows := [], lastSeq := [], cursorLine := none, flight := [],
      loading := s.tier.loading.map fun l => (l.1, l.2.1, l.2.2.1, l.2.2.2.1, false),
      schedule := s.tier.schedule.map fun e => { e with started := e.done || e.failed } } }

end Sys2Proof.Machine
end

