-- ==== Sys2Proof/Machine/Form.lean ====
section
/-! DEFINITION. Forming and leaving a cove, opening a flood, the tide policy, draining capture, and suspending and
resuming coding (R110, R114, R116, R142, R249, R251, R324, R378 to R380). -/

namespace Sys2Proof.Machine

/-! ### The key ladder (R139) -/

/-- The 256 entries of one row: A[h], then B[j]. -/
def ladderRow (key : U64) : List Byte :=
  ((List.range 128).flatMap fun h => leBytes 8 (gf64Pow key (1024 * h)).toNat) ++
    (List.range 128).flatMap fun j => leBytes 8 (gf64Pow key (8 * j)).toNat

/-- Write the key ladder of every row. -/
def writeLadder (s : State) : State :=
  forEach (List.range (rowsY s)) (fun t b =>
    { t with mem := t.mem.write (ladderBase t + 2048 * b) (ladderRow (bayKey t b)) }) s

/-! ### COVE_FORM (R114, R216) -/

/-- Enter a cove as one of its members, with a view. -/
def enterCove (s : State) (c : CovePlan) (pos : Nat) (live : U16) (epoch : U32) (posRank : List Nat) : State :=
  { s with agree := { s.agree with
      state := agStable, position := BitVec.ofNat 4 pos, live := V3.all live, epoch := V3.all epoch,
      cove := some c.coveId, posRank := posRank, suspects := [], confirmed := [], firstSuspicion := none,
      promised := 0, accepted := none, round := 0, proposal := none, wishes := [], timerAt := none, retryAt := none,
      installs := [], infos := [], reportDue := false, removed := 0, withdrawn := false, renewalDue := false } }

/-- The tide controller as a cove forms: slot 0, no flood, no seal. -/
def formTide (s : State) (mb : Option (Option (Fin 8))) : State :=
  { s with tide := { s.tide with
      slot := V3.all 0, phase := V3.all phNone, tideLo := V3.all 0, tideHi := V3.all 0, n := V3.all 0, steps := 0,
      mailbox := none, forming := mb, resuming := none, counted := 0, gtcClose := s.time.gtc, reports := [],
      upReport := none, upFlipped := none, decision := none, released := false, flips := [], childFlips := [],
      acks := [], passedDown := [], abandonNext := false, lossSeal := false, reopened := false, queried := [],
      childLosses := [], jobStart := 0, jobLosses := 0, lossesHere := 0, costNs := 0,
      lastStep7 := none, noTide := false, stepRecord := none } }

/-- The work of COVE_FORM once it is accepted: the view of epoch 1 is installed, and the pass begins (R114, R216, R285). -/
def startForm (s : State) (c : CovePlan) (pos : Nat) (mb : Fin 8) : State :=
  let ranks := (List.range c.members.length).map fun i => rankAt s c.coveId i
  let s := enterCove s c pos (maskOf 16 (List.range (Layout.n c.layout))) 1 ranks
  let markers := s.tide.markers
  let parts := s.tide.parts
  let s := freshFlood (formTide s (some (some mb)))
  let s := discardStash { s with
    fold.copyCursor := none
    tide.markers := markers
    tide.parts := parts
    job.rankChanges := []
    job.formed := true
    recov := { RecS.reset with seqs := s.recov.seqs }
    cap.barred := false
    mem := s.mem.zero (slotBase s 0) (slotSize s) }
  refreshStatusLine (passAgainstZero (writeLadder (setFilter s (filterEntries s false))))

def execCoveForm (src : CmdSrc) (s : State) : Out :=
  mailboxRow 0x07 (fun mb t s =>
    match s.job.plan with
    | none => wrongState s mb
    | some p => match coveOfRank p (ownRank s) with
      | none => badArg s mb 8
      | some (c, pos) =>
        if c.coveId.toNat ≠ fld t.cmd 8 2 then badArg s mb 8
        else if forming s then busyWith s mb s.tide.forming.join
        else if s.agree.cove.isSome then wrongState s mb
        else if s.tier.quotas.parity < parityNeed c then resource s mb 20
        else if !farStashHolds c s.tier.regions s.tier.quotas then resource s mb 36
        else accepted (startForm s c pos mb) mb) src s

/-- The member's pass has gone out whole, and it is complete for every other member (R114, R379). -/
def passDone (s : State) : Bool :=
  captureClosed s && (otherLive s).all (fun q => s.tide.closeSent.contains q) &&
    (List.range (covN s)).all fun p => completeFor s p

/-- COVE_FORM_COMPLETE: tidemark 0 is written and the instance is FORMED (R114). -/
def execCoveFormComplete (s : State) : Out :=
  .next (match s.tide.forming with
    | some mb =>
      if passDone s ∧ allRecords s then
        let t := writeArea s 0 0
        let t := freshFlood { t with tide.stepRecord := some (0, (s.tide.ownRecord.drop 128).take 4224) }
        refreshStatusLine (respondOpt { t with tide.forming := none, job.state := 3 } mb stOk 0)
      else s
    | none => s)

/-! ### TIDE_OPEN (R114, R116, R135, R249, R251) -/

/-- N of a flood that TIDE_OPEN opens (R142; log entry 32). -/
def openInterval (p : Policy) : Nat := if p.auto then p.nMax else p.nFixed

/-- Recovery status after TIDE_OPEN (R251). -/
def recAfterOpen (s : State) : State :=
  if recState s = recNone then s
  else if s.recov.lost.get = 0 then setRec s recDone
  else
    let t := setRec s recData
    if s.recov.target then targetDone t else survivorProgress t

def execTideOpen (src : CmdSrc) (s : State) : Out :=
  mailboxRow 0x08 (fun mb _ s =>
    let first := decide (phaseNow s = phNone ∧ sealedTide s ≠ lastTide)
    let again := decide (phaseNow s = phHeld ∧ sealedTide s ≠ lastTide) &&
      (recState s = recResumable || recState s = recData || recState s = recDone)
    if !first && !again then wrongState s mb
    else match ownCove s with
      | none => wrongState s mb
      | some c =>
        if !stashHolds s.tier.regions s.tier.quotas || !farStashHolds c s.tier.regions s.tier.quotas then resource s mb 36
        else
          let s := if s.agree.renewalDue ∧ again then freshFlood s else s
          let n := openInterval s.tide.nextPolicy
          let s := openFlood s n
          let s := { s with tide := { s.tide with
            decision := none, released := false, abandonNext := false, lastStep7 := none,
            jobStart := if first then s.time.gtc else s.tide.jobStart } }
          let s := if again then recAfterOpen s else s
          respond (retryHeld s) mb stOk 0 [(10, 6, (foldTide s).toNat), (16, 2, n)]) src s

/-! ### TIDE_POLICY (R106, R142) -/

def execTidePolicy (src : CmdSrc) (s : State) : Out :=
  mailboxRow 0x0A (fun mb t s =>
    let c := t.cmd
    if 1 < fld c 8 1 then badArg s mb 8
    else if fld c 9 1 = 0 ∨ 8 < fld c 9 1 then badArg s mb 9
    else if fld c 10 2 = 0 ∨ 4096 < fld c 10 2 then badArg s mb 10
    else if fld c 12 2 = 0 ∨ 4096 < fld c 12 2 then badArg s mb 12
    else if fld c 14 2 < fld c 12 2 ∨ 4096 < fld c 14 2 then badArg s mb 14
    else if fld c 20 4 = 0 then badArg s mb 20
    else
      let p : Policy :=
        { auto := decide (fld c 8 1 = 1), share := fld c 9 1, nFixed := fld c 10 2, nMin := fld c 12 2,
          nMax := fld c 14 2, costFloorUs := fld c 16 2, priorMtbfS := fld c 20 4 }
      respondOk { s with tide.nextPolicy := p, fold.nextShare := p.share } mb) src s

/-! ### DRAIN_START (R110) -/

def execDrainStart (src : CmdSrc) (s : State) : Out :=
  mailboxRow 0x11 (fun mb _ s =>
    if s.stat.drainMb.isSome then busyWith s mb s.stat.drainMb
    else if s.stat.capState = 2 then respondOk s mb
    else accepted { stopCapture s with stat.drainMb := some mb } mb) src s

/-! ### CODING_SUSPEND and CODING_RESUME (R378, R379) -/

/-- The command names the cove the instance belongs to. -/
def namesOwnCove (s : State) (c : Line) : Bool := s.agree.cove = some (BitVec.ofNat 16 (fld c 8 2))

def execCodingSuspend (src : CmdSrc) (s : State) : Out :=
  mailboxRow 0x1A (fun mb t s =>
    if s.job.state ≠ 3 ∨ phaseNow s ≠ phFlood then wrongState s mb
    else if !namesOwnCove s t.cmd then badArg s mb 8
    else match s.apply.run with
      | some r => busyWith s mb (some r.mailbox)
      | none => { s with stat.capState := 1, stat.suspendMb := some mb }) src s

/-- Mark every declared line touched (R379). -/
def touchAll (s : State) : State :=
  forEach (declaredBays s) (fun t b =>
    { t with
      mem := t.mem.write (touchAddr t (32 * b)) (List.replicate 2048 0xFF)
      cap.touchValid := (List.range 32).foldl (fun v i => addNew (b * 32 + i) v) t.cap.touchValid })
    { s with cap.touchCache := [] }

def execCodingResume (src : CmdSrc) (s : State) : Out :=
  mailboxRow 0x1B (fun mb t s =>
    if s.job.state ≠ 3 ∨ phaseNow s ≠ phSuspended ∨ sealRuns s then wrongState s mb
    else if !namesOwnCove s t.cmd then badArg s mb 8
    else if s.tide.resuming.isSome then busyWith s mb s.tide.resuming.join
    else
      let s := { s with
        tide.resuming := some (some mb)
        tide.closeSent := []
        fold.copyCursor := none
        mem := s.mem.zero (slotBase s (workingSlot s)) (slotSize s) }
      accepted (passAgainstZero (touchAll (setFilter s (filterEntries s false)))) mb) src s

/-- CODING_RESUME_COMPLETE: PHASE FLOOD, and the held writes are captured into the flood (R379). -/
def execCodingResumeComplete (s : State) : Out :=
  .next (match s.tide.resuming with
    | some mb =>
      if passDone s then
        respondOpt (retryHeld (setPhase { s with tide.resuming := none, tide.closeSent := [] } phFlood)) mb stOk 0
      else s
    | none => s)

/-! ### COVE_RELEASE (R114, R277, R324) -/

/-- Writes whose old line is still awaited complete uncaptured. -/
def flushOldReads (s : State) : State :=
  forEach s.cap.oldReads (fun t o => forEach o.recs (fun u h => verdict (commitBytes u h.acc) h.acc.tag .pass) t)
    { s with cap.oldReads := [] }

/-- Leave the cove: PLANNED, filter cleared, held writes released uncaptured. -/
def leaveCove (s : State) : State :=
  let s := flushOldReads { completeMerges s with
    cap.queue := [], cap.records := [], cap.pass := none, cap.barred := false, cap.recompute := [] }
  let s := setFilter (discardStash (freshFlood s)) []
  let s := { s with
    fold.copyCursor := none
    job.state := 2
    job.former := s.agree.cove.map fun c => (c, ownPos s)
    tide := { s.tide with
      phase := V3.all phNone, n := V3.all 0, steps := 0, mailbox := none, forming := none, resuming := none,
      reports := [], queried := [], decision := none, upReport := none, upFlipped := none, noTide := false }
    agree := { s.agree with
      state := agNone, position := 0, live := V3.all 0, epoch := V3.all 0, cove := none, posRank := [],
      suspects := [], confirmed := [], firstSuspicion := none, proposal := none, wishes := [], timerAt := none,
      retryAt := none, withdrawn := false, renewalDue := false }
    recov := { RecS.reset with state := s.recov.state, tide := s.recov.tide, rowsDone := s.recov.rowsDone, seqs := s.recov.seqs } }
  retryHeld (refreshStatusLine s)

def execCoveRelease (src : CmdSrc) (s : State) : Out :=
  mailboxRow 0x1C (fun mb _ s =>
    if sealRuns s then wrongState s mb
    else match otherLong s mb with
      | some o => busyWith s mb (some o)
      | none => respondOk (leaveCove s) mb) src s

end Sys2Proof.Machine
end

