-- ==== Sys2Proof/Machine/Recovery.lean ====
section
/-! DEFINITION. Taking a target: ranks and group trees, aborts of collectives, claims, REBUILD_START, the JOIN and the
cutover of a handover (R227 to R229, R252 to R256, R264, R265, R313, R402). -/

namespace Sys2Proof.Machine

/-! ### Ranks of the job (R223, R256; log entry 34) -/

/-- Number of a position in the plan's order of coves and positions: the job rank of RANK_MOVE. -/
def jobRankGo : List CovePlan → U16 → Nat → Nat
  | [], _, n => n
  | c :: t, id, n => if c.coveId = id then n else jobRankGo t id (n + c.members.length)

def jobRank (p : Plan) (cove : U16) (pos : Nat) : Nat := jobRankGo p.coves cove 0 + pos

/-- The cove and position of a job rank. -/
def jobPlace : List CovePlan → Nat → Option (U16 × Nat)
  | [], _ => none
  | c :: t, r => if r < c.members.length then some (c.coveId, r) else jobPlace t (r - c.members.length)

/-- A position is held by another die from now on (R223, R256, R329). -/
def noteMove (s : State) (cove : U16) (pos rank : Nat) : State :=
  let t := match s.job.plan with
    | some p => { s with job.rankChanges := (put (jobRank p cove pos) rank s.job.rankChanges).take 16384 }
    | none => s
  if t.agree.cove = some cove then { t with agree.posRank := t.agree.posRank.set pos rank }
  else { t with agree.moved := t.agree.moved.filter (fun m => !decide (m.1 = cove ∧ m.2.1 = pos)) ++ [(cove, pos, rank)] }

/-- The die that now holds a rank of the plan. -/
def currentDie (s : State) (r : Nat) : Nat :=
  match s.job.plan with
  | some p => match coveOfRank p r with
    | some (c, i) => rankAt s c.coveId i
    | none => r
  | none => r

/-- The ranks of a group in rank order, one left out, as the dies that now hold them (R227). -/
def relayList (s : State) (g : Group) (skip : Nat) : List Nat := (g.ranks.map (currentDie s)).filter fun r => r ≠ skip

/-- The live ranks that a rank of the list relays to: 8i + 1 to 8i + 8 (R227). -/
def relayTo (l : List Nat) (me : Nat) : List Nat :=
  match l.findIdx? fun r => r = me with
  | some i => (l.drop (8 * i + 1)).take 8
  | none => []

def planGroup (s : State) (id : U16) : Option Group :=
  match s.job.plan with
  | some p => p.groups.find? fun g => g.id = id
  | none => none

/-- A message of the header of R217 about any cove. -/
def sendAs (s : State) (rank : Nat) (type : Byte) (cove : U16) (epoch ballot arg : U32) (body : List Byte) : State :=
  sendTo s rank .va .any (.agree type
    { jobTag := jobTag s, cove := cove,
      sender := if s.agree.cove = some cove then BitVec.ofNat 8 (ownPos s) else 0xFF, dest := 0xFF, epoch := epoch,
      ballot := ballot, arg := arg, gtc := s.time.gtc, body := body })

/-! ### Aborting collectives (R227, R228) -/

/-- Act on an abort once: relay it, stop the group's reductions, signal the collective engine. -/
def abortHere (s : State) (cove : U16) (epoch : U32) (group : U32) (lost : Nat) : State :=
  if (cove, epoch, group) ∈ s.agree.relayed then s
  else
    let s := { s with agree.relayed := s.agree.relayed ++ [(cove, epoch, group)] }
    let s := match planGroup s (group.truncate 16) with
      | some g => forEach (relayTo (relayList s g lost) (ownRank s)) (fun t r =>
          sendAs t r 0x29 cove epoch 0 group (leBytes 4 lost ++ leBytes 4 0)) s
      | none => s
    let halt (r : Reduce) : Reduce := if r.group = group.truncate 16 ∧ r.stop = .none then { r with stop := .lost } else r
    let s := { s with exch.reduces := s.exch.reduces.map halt }
    if s.ports.fbp then { s with out.fbp := s.out.fbp ++ [.collStop (group.truncate 16)] } else s

/-- The live dies to which an abort starts: the first of the relay list, and in place of another lost die those it would
relay to. -/
def abortHeads (l : List Nat) (lost : List Nat) : Nat → List Nat → List Nat
  | 0, hs => hs.filter fun r => r ∉ lost
  | fuel + 1, hs => abortHeads l lost fuel (hs.flatMap fun r => if r ∈ lost then relayTo l r else [r])

/-- The captain starts an abort for every group that lists a lost die (R227). -/
def startAborts (s : State) (lost : List Nat) : State :=
  match s.job.plan with
  | none => s
  | some p =>
    forEach p.groups (fun t g =>
      match lost.find? fun d => (g.ranks.map (currentDie t)).contains d with
      | none => t
      | some d =>
        let id : U32 := g.id.zeroExtend 32
        let l := relayList t g d
        forEach (abortHeads l lost lost.length (l.take 1)) (fun u r =>
          if r = ownRank u then abortHere u (ownCoveId u) (epochNow u) id d
          else sendAs u r 0x29 (ownCoveId u) (epochNow u) 0 id (leBytes 4 d ++ leBytes 4 0)) t) s

/-! ### RANK_MOVE (R256) -/

def moveBody (jr rank : Nat) : List Byte := leBytes 4 jr ++ leBytes 4 rank

/-- Relay list of a RANK_MOVE: the group without the plan's rank that moves. -/
def moveList (s : State) (g : Group) (planRank : Nat) : List Nat :=
  (g.ranks.filter fun r => r ≠ planRank).map (currentDie s)

/-- The captain tells the groups, and the parent and child coves, of the die that now holds a position; after a
handover also its own cove, whose members' view names no position (log entry 25). -/
def sendRankMoves (s : State) (pos rank : Nat) (ownToo : Bool) : State :=
  match s.job.plan, ownCove s with
  | some p, some c =>
    let id := c.coveId
    let body := moveBody (jobRank p id pos) rank
    let old := c.members.getD pos 0
    let s := forEach (p.groups.filter fun g => g.ranks.contains old) (fun t g =>
      let l := moveList t g old
      match l with
      | [] => t
      | r :: _ =>
        if r = ownRank t then
          forEach (relayTo l r) (fun u q => sendAs u q 0x2F id (epochNow u) 0 (g.id.zeroExtend 32) body) t
        else sendAs t r 0x2F id (epochNow t) 0 (g.id.zeroExtend 32) body) s
    let near := (parentCove p id).toList ++ childCoves p id
    let s := forEach near (fun t d => forEach (List.range d.members.length) (fun u q =>
      sendAs u (rankAt u d.coveId q) 0x2F id (epochNow u) 0 0xFFFF body) t) s
    if ownToo then forEach (otherLive s) (fun t q => sendAs t (rankAt t id q) 0x2F id (epochNow t) 0 0xFFFF body) s else s
  | _, _ => s

/-- A target that joins learns of the positions of the job that have moved before, as every other instance did
(R256; log entry 25). -/
def tellMoves (s : State) (rank : Nat) : State :=
  forEach (s.job.rankChanges.filter fun e => e.2 ≠ rank) (fun t e =>
    sendAs t rank 0x2F (ownCoveId t) (epochNow t) 0 0xFFFF (moveBody e.1 e.2)) s

/-- PEER_RANK_MOVE's command line (R402). -/
def rankMoveLine (m : AgreeMsg) : Line :=
  mkLine [(0, 1, 0x21), (8, 2, m.cove.toNat), (10, 1, m.sender.toNat), (12, 4, m.epoch.toNat), (16, 4, m.arg.toNat),
          (24, 4, bodyFld m 0 4), (28, 4, bodyFld m 4 4)]

/-- RANK_MOVE: relayed along its group, and turned into a peer command (R256, R313). -/
def execRankMove (m : AgreeMsg) (s : State) : Out :=
  .next (agreeIn s m true fun s =>
    let relayed := match planGroup s (m.arg.truncate 16), s.job.plan with
      | some g, some p =>
        match jobPlace p.coves (bodyFld m 0 4) with
        | some (c, i) =>
          let old := match planCove p c with | some cp => cp.members.getD i 0 | none => 0
          forEach (relayTo (moveList s g old) (ownRank s)) (fun t r => sendAs t r 0x2F m.cove m.epoch m.ballot m.arg m.body) s
        | none => s
      | _, _ => s
    pushPeer relayed (rankMoveLine m))

/-! ### Peer commands (R313, R402) -/

/-- The agreement unit polls mailbox 7: it answers a CLAIM, clears DONE, and writes the next peer command. -/
def peerDone (s : State) : State :=
  let b := box s 7
  if b.done ∧ ¬ b.busy then
    let t := setBox s 7 { b with done := false }
    let u := if b.op.toNat % 128 = 0x20 then
        sendClaimAck t (fld b.cmd 16 4) (BitVec.ofNat 16 (fld b.cmd 8 2)) (BitVec.ofNat 32 (fld b.cmd 12 4)) (fld b.cmd 10 1)
          (b.code ≠ 0)
      else t
    servePeer u
  else s

/-- PEER_RANK_MOVE (R256). -/
def execPeerRankMove (src : CmdSrc) (s : State) : Out :=
  .next (peerDone (mailboxState 0x21 (fun mb t s =>
    match s.job.plan with
    | none => wrongState s mb
    | some p => match jobPlace p.coves (fld t.cmd 24 4) with
      | some (c, i) => respondOk (noteMove s c i (fld t.cmd 28 4)) mb
      | none => badArg s mb 24) src s))

/-! ### Qualifying and fitting (R253, R255, R256, R401) -/

/-- A standby qualifies for a position of a cove (R253). -/
def qualifies (s : State) (cove : U16) (pos : Nat) (live : U16) : Bool :=
  s.power.season.get = 0 && !s.power.moving && s.job.state = 2 && s.agree.cove.isNone &&
  match s.job.part, s.job.plan with
  | some q, some p =>
    (bitsOf 16 live).all (fun i => rankAt s cove i / 64 ≠ q.rank / 64) &&
    match coveOfRank p q.rank with
    | some (c, i) => c.coveId = cove && i = pos
    | none => !(p.groups.any fun g => g.ranks.contains q.rank)
  | _, _ => false

/-- Regions declared so far, the first field that breaks a rule, and the shortfalls. -/
structure Fitting where
  state : State
  bad : Option Nat
  short : List Nat
deriving DecidableEq, Repr

/-- Near range and far window of a die: its own entry of the plan, else the ranges that hold for every die (R33). -/
def rangesOf (p : Plan) (rank : Nat) : Span × Span := (find rank p.ranges).getD (p.nearRange, p.farRange)

/-- The plan as a die reads it: its own near range and far window. -/
def localPlan (rank : Nat) (p : Plan) : Plan :=
  { p with nearRange := (rangesOf p rank).1, farRange := (rangesOf p rank).2 }

/-- An address keeps its offset from the start of a range (R256 step 1). -/
def rebase (old new : Span) (a : Nat) : Nat := new.base + (a - old.base)

/-- A region of a lost rank at the target's own addresses (R256 step 1). -/
def rebaseRegion (lost own : Span × Span) (r : Region) : Region :=
  { r with
    nearBase := if r.placement = 2 then r.nearBase else rebase lost.1 own.1 r.nearBase
    farBase := if r.placement = 0 then r.farBase else rebase lost.2 own.2 r.farBase }

/-- A window's base, in MiB; a window of size 0 stands nowhere. -/
def rebaseWindow (lost own : Span) (base size : Nat) : Nat := if size = 0 then base else rebase lost own (base * mib) / mib

/-- The windows of a lost rank at the target's own addresses (R256 step 1). -/
def rebaseQuotas (lost own : Span × Span) (q : Quotas) : Quotas :=
  { q with
    parityBase := rebaseWindow lost.1 own.1 q.parityBase q.parity
    stashNearBase := rebaseWindow lost.1 own.1 q.stashNearBase q.stashNear
    stashFarBase := rebaseWindow lost.2 own.2 q.stashFarBase q.stashFar
    stageBase := rebaseWindow lost.1 own.1 q.stageBase q.stage }

/-- Declare one region on the standby. A region that stands already is kept. -/
def fitRegion (p : Plan) (move : Region → Region) (f : Fitting) (block : Line) : Fitting :=
  let s := f.state
  let r0 := move (regionOf block)
  if s.tier.regions.any fun g => { g with nearBays := 0 } = r0 then f
  else match regionFieldFault s p (fld block 9 1) r0 with
    | some o => { f with bad := some (f.bad.getD o) }
    | none =>
      let r := { r0 with nearBays := placeNear s r0 }
      match homeFault s p r with
      | some o => { f with bad := some (f.bad.getD o) }
      | none =>
        let t := { s with tier.regions := s.tier.regions ++ [r] }
        match regionShortfall s r with
        | some o => { f with state := t, short := f.short ++ [o] }
        | none => { f with state := t }

/-- The quotas of a target: its own limits, the windows of the rank it replaces (R256). -/
def takenQuotas (own lost : Quotas) : Quotas :=
  { lost with dataNear := own.dataNear, dataFar := own.dataFar, offload := own.offload }

/-- Shortfalls of the windows on the standby, as offsets of R401. -/
def windowShort (c : CovePlan) (rs : List Region) (own q : Quotas) : List Nat :=
  (if own.parity < q.parity ∨ q.parity < parityNeed c then [20] else []) ++
  (if own.stashNear + own.stashFar < q.stashNear + q.stashFar ∨ !stashHolds rs q ∨ !farStashHolds c rs q then [36] else []) ++
  (if own.stage < q.stage ∨ q.stage * mib < touchBytes c.rows then [44] else [])

/-- Declare the lost rank's regions and windows; else the status and detail that end the take (log entry 33). -/
def takeRegions (s : State) (p : Plan) (c : CovePlan) (pos : Nat) : (Nat × Nat) ⊕ State :=
  let r := c.members.getD pos 0
  let own := s.tier.quotas
  let lost := rangesOf p r
  let here := rangesOf p (ownRank s)
  let q := takenQuotas own (rebaseQuotas lost here ((find r p.quotas).getD own))
  let blocks := (p.profiles.filter fun f => f.rank = r ∧ f.op = 6).map Profile.block
  let f := blocks.foldl (fitRegion p (rebaseRegion lost here)) { state := { s with tier.quotas := q }, bad := windowFault p s.tier.regions q, short := [] }
  match f.bad with
  | some o => .inl (stBadArg, o)
  | none =>
    match (f.short ++ windowShort c f.state.tier.regions own q).min? with
    | some o => .inl (stResource, o)
    | none => .inr f.state

/-! ### Claims (R254) -/

/-- PEER_CLAIM's command line (R402). -/
def claimLine (m : AgreeMsg) (fromRank : Nat) : Line :=
  mkLine [(0, 1, 0x20), (8, 2, m.cove.toNat), (10, 1, m.arg.toNat), (11, 1, m.sender.toNat), (12, 4, m.epoch.toNat),
          (16, 4, fromRank), (24, 16, leNat (m.body.take 16))]

/-- CLAIM: it becomes a peer command (R254, R313). -/
def execClaim (m : AgreeMsg) (fromRank : Nat) (s : State) : Out :=
  .next (agreeIn s m true fun s => pushPeer s (claimLine m fromRank))

/-- A handover's target whose outgoing member has stopped drops its copy (R265). -/
def dropHandover (s : State) : State :=
  { s with
    recov.handover := none
    recov.target := false
    agree.cove := none
    agree.position := 0
    agree.posRank := [] }

/-- PEER_CLAIM: grant or refuse the standby role (R253, R254). -/
def claimWork (mb : Fin 8) (t : TakenCmd) (s : State) : State :=
  let cove : U16 := BitVec.ofNat 16 (fld t.cmd 8 2)
  let pos := fld t.cmd 10 1
  let live : U16 := BitVec.ofNat 16 (fld t.cmd 30 2)
  let fresh : Grant :=
    { cove := cove, position := pos, epoch := BitVec.ofNat 32 (fld t.cmd 12 4), live := live,
      captainRank := fld t.cmd 16 4, share := s.recov.share, handover := false, restored := BitVec.ofNat 48 (fld t.cmd 24 6) }
  match s.recov.grant with
  | some g =>
    if g.cove = cove ∧ g.position = pos ∧ g.handover then
      respondOk { dropHandover s with recov.grant := some { fresh with share := g.share } } mb
    else if g.cove = cove ∧ g.position = pos ∧ g.epoch = fresh.epoch then respondOk s mb
    else wrongState s mb
  | none =>
    match s.job.plan with
    | none => wrongState s mb
    | some p => match planCove p cove with
      | none => badArg s mb 8
      | some c =>
        if Layout.n c.layout ≤ pos then badArg s mb 10
        else if !qualifies s cove pos live then wrongState s mb
        else match takeRegions s p c pos with
          | .inl (st, d) => respond s mb st d []
          | .inr u => respondOk { u with recov.grant := some fresh } mb

/-- PEER_CLAIM (R254). -/
def execPeerClaim (src : CmdSrc) (s : State) : Out := .next (peerDone (mailboxState 0x20 claimWork src s))

/-- The tide a CLAIM names: zero until the decision is known (R254). -/
def claimTide (s : State) : Nat := if recState s = recDeciding then 0 else s.recov.tide.toNat

/-- The captain claims the next listed standby for the next lost position; with none left, WAIT_TARGET (R254). -/
def claimNext (s : State) : State :=
  if !isCaptain s ∨ s.recov.asked.isSome then s
  else match (lostPositions s).find? fun p => !(liveSet s).getLsbD p && !(s.agree.wishes.any fun w => w.1 = p) with
    | none => s
    | some p =>
      match s.job.plan with
      | none => s
      | some pl => match pl.standbys[s.recov.tried]? with
        | none =>
          raiseEvent (if recState s = recDeciding ∨ s.recov.rollingBack then s else setRec s recWaitTarget) evWaitTarget
            (BitVec.ofNat 8 p)
        | some r =>
          sendAs { s with recov.tried := s.recov.tried + 1, recov.asked := some (p, r) } r 0x2D (ownCoveId s) (epochNow s) 0
            (BitVec.ofNat 32 p)
            (leBytes 6 (claimTide s) ++ leBytes 2 (liveSet s).toNat ++
              [BitVec.ofNat 8 (Layout.code (covLayout s))] ++ List.replicate 7 0)

/-- A view that firmware wishes is noted once and proposed. -/
def wish (s : State) (pos : Nat) (reason : U32) (rank : Nat) : State :=
  if s.agree.wishes.any fun w => w.1 = pos then startProposal s
  else startProposal { s with agree.wishes := s.agree.wishes ++ [(pos, reason, BitVec.ofNat 32 rank)] }

/-- CLAIM_ACK at the captain, or at the outgoing member of a handover (R254, R255, R264; log entry 25). -/
def claimAckWork (m : AgreeMsg) (fromRank : Nat) (s : State) : State :=
  let pos := m.ballot.toNat
  let refused := decide (m.arg = 1)
  if s.agree.cove ≠ some m.cove ∨ !agreeing s ∨ 16 ≤ pos then s
  else
    let s := if pos = ownPos s ∧ ¬ refused ∧ s.recov.handover.isNone ∧ (liveSet s).getLsbD pos then
        let h : Handover :=
          { outgoing := true, position := pos, peerRank := fromRank, cursor := 0, finished := false, cutover := false }
        { s with recov.handover := some h }
      else s
    if !isCaptain s then s
    else if (liveSet s).getLsbD pos then
      if refused then s
      else match s.recov.hoKnown with
        | some (p, r, _) =>
          if p = pos ∧ r = fromRank then { s with recov.hoKnown := some (pos, fromRank, true) } else s
        | none => { s with recov.hoKnown := some (pos, fromRank, false) }
    else
      let asked := decide (s.recov.asked = some (pos, fromRank))
      let s := if asked then { s with recov.asked := none } else s
      if refused then (if asked then claimNext s else s) else claimNext (wish s pos 2 fromRank)

def execClaimAck (m : AgreeMsg) (fromRank : Nat) (s : State) : Out :=
  .next (agreeIn s m true (claimAckWork m fromRank))

/-! ### REBUILD_START (R255) -/

/-- Begin the take that a REBUILD_START asks for, once the cove's view is known. -/
def decideRebuild (s : State) (mb : Fin 8) (cove : U16) (pos share : Nat) (handover : Bool) (live : U16) (epoch : U32)
    (restored : U48) : State :=
  match s.job.plan with
  | none => wrongState s mb
  | some p => match planCove p cove with
    | none => badArg s mb 10
    | some c =>
      let captain := rankAt s cove (captainOf live)
      if !qualifies s cove pos (if handover then setBit live pos false else live) then badArg s mb 12
      else if !handover ∧ live.getLsbD pos then wrongState s mb
      else if handover ∧ !live.getLsbD pos then wrongState s mb
      else match (if s.recov.grant.isSome then .inr s else takeRegions s p c pos : (Nat × Nat) ⊕ State) with
        | .inl (st, d) => respond s mb st d []
        | .inr u =>
          let g : Grant := { cove := cove, position := pos, epoch := epoch, live := live, captainRank := captain,
                             share := share, handover := handover, restored := restored }
          let u := accepted { u with recov.grant := some g, recov.mailbox := some mb, recov.share := share } mb
          if handover then
            let out := rankAt s cove pos
            let h : Handover :=
              { outgoing := false, position := pos, peerRank := out, cursor := 0, finished := false, cutover := false }
            let u := { u with
              recov.target := true
              recov.handover := some h
              agree.cove := some cove
              agree.position := BitVec.ofNat 4 pos
              agree.posRank := (List.range c.members.length).map fun q => rankAt s cove q }
            let u := sendClaimAck u captain cove epoch pos false
            if out = captain then u else sendClaimAck u out cove epoch pos false
          else sendClaimAck u captain cove epoch pos false

/-- REBUILD_START: its own fields, then the cove's view from a CLAIM held or from probes (R255; log entry 33). -/
def execRebuildStart (src : CmdSrc) (s : State) : Out :=
  mailboxRow 0x12 (fun mb t s =>
    let mode := fld t.cmd 8 1
    let share := fld t.cmd 9 1
    let cove : U16 := BitVec.ofNat 16 (fld t.cmd 10 2)
    let pos := fld t.cmd 12 1
    if 1 < mode then badArg s mb 8
    else if share = 0 ∨ 8 < share then badArg s mb 9
    else match s.job.plan with
      | none => wrongState s mb
      | some p => match planCove p cove with
        | none => badArg s mb 10
        | some c =>
          if Layout.n c.layout ≤ pos then badArg s mb 12
          else if 8 < share + c.share then badArg s mb 9
          else match s.recov.ask with
            | some a => busyWith s mb (some a.mailbox)
            | none =>
              if s.recov.mailbox.isSome then busyWith s mb s.recov.mailbox
              else if s.agree.cove.isSome ∨ s.job.state ≠ 2 then badArg s mb 12
              else match s.recov.grant with
                | some g =>
                  if g.cove = cove ∧ g.position = pos then
                    decideRebuild s mb cove pos share (decide (mode = 1)) g.live g.epoch g.restored
                  else wrongState s mb
                | none =>
                  let ranks := (List.range c.members.length).map fun q => rankAt s cove q
                  let a : RebuildAsk := { mailbox := mb, cove := cove, position := pos, share := share,
                                          handover := decide (mode = 1), asked := ranks, answers := [] }
                  forEach ranks (fun u r => sendProbe u r .rebuildView) { s with recov.ask := some a }) src s

/-- A member of the cove, or poison, answers a probe of REBUILD_START (R255). -/
def rebuildAnswer (s : State) (rank : Nat) (ans : ProbeAns) : State :=
  match s.recov.ask with
  | none => s
  | some a =>
    let ok : List StatusLine := match ans with
      | .poison => []
      | .status l => if l.jobTag = jobTag s ∧ l.cove = a.cove ∧ l.position ≠ 0xFF ∧ l.season ≠ 2 then [l] else []
    let b := { a with asked := a.asked.erase rank, answers := a.answers ++ ok }
    if b.asked ≠ [] then { s with recov.ask := some b }
    else
      let best := b.answers.foldl (fun (m : Option StatusLine) l =>
        match m with
        | some k => if k.epoch.toNat < l.epoch.toNat then some l else some k
        | none => some l) none
      let s := { s with recov.ask := none }
      match best with
      | none => wrongState s a.mailbox
      | some l => decideRebuild s a.mailbox a.cove a.position a.share a.handover l.live l.epoch 0

/-! ### The target joins (R256) -/

/-- Own seal information to the captain of a view. -/
def sendInstalled (s : State) : State :=
  let q := captainOf (liveSet s)
  if q = ownPos s then s else sendAgreePos s q 0x28 (epochNow s) 0 0 (sealInfo s)

/-- The target installs the JOIN view and becomes a member in PHASE HELD; what lay outside its kept ranges is undefined
(R32, R256; log entry 7). -/
def joinAsTarget (s : State) (g : Grant) (c : CovePlan) (live : U16) (epoch : U32) : State :=
  let n := Layout.n c.layout
  let ranks := (List.range n).map fun q => if q = g.position then ownRank s else rankAt s g.cove q
  let s := enterCove s c g.position live epoch ranks
  let s := discardStash (freshFlood (setPhase (formTide s none) phHeld))
  let lost := setBit (maskOf 16 ((List.range n).filter fun q => !g.live.getLsbD q)) g.position true
  let s := { s with
    job.state := 3
    job.former := none
    job.formed := true
    digests := []
    cap.barred := false
    recov := { RecS.reset with
      state := V3.all recParity, target := true, lost := V3.all lost, share := s.recov.share,
      mailbox := s.recov.mailbox, seqs := s.recov.seqs, waiting := s.recov.waiting, tmarkFrom := sponsorOf live lost } }
  let s := forgetOthers s
  let s := { s with mem := s.mem.zero (mapBase s) (touchBytes (rowsY s)) }
  serveWaiting (refreshStatusLine (sendInstalled (writeLadder (setFilter s (filterEntries s false)))))

/-- The target of a handover installs the HANDOVER view, flips and becomes a member (R265 step 3). The captain proposes
that view once every member and child cove has flipped, so their flips are known. -/
def cutoverAsTarget (s : State) (c : CovePlan) (pos : Nat) (live : U16) (epoch : U32) : State :=
  let tide : U48 := match s.tide.decision with | some (t, _) => t | none => s.recov.tide
  let rec_ := s.tide.stepRecord
  let ranks := (List.range c.members.length).map fun q => if q = pos then ownRank s else rankAt s c.coveId q
  let s := enterCove s c pos live epoch ranks
  let s := discardStash (freshFlood s)
  let mb := s.recov.mailbox
  let s := { s with
    job.state := 3
    job.former := none
    job.formed := true
    cap.barred := false
    tide.slot := V3.all (~~~ s.tide.slot.get)
    tide.phase := V3.all phCommitted
    tide.tideLo := V3.all (tide.truncate 32)
    tide.tideHi := V3.all (BitVec.ofNat 16 (tide.toNat / 2 ^ 32))
    tide.released := false
    tide.flips := livePositions s
    tide.childFlips := (children s).map CovePlan.coveId
    tide.stepRecord := rec_
    recov := { RecS.reset with state := V3.all recDone, share := s.recov.share, seqs := s.recov.seqs } }
  let s := forEach (otherLive s) (fun t q => sendSeal t q 0x16 tide 0 []) (writeLadder (setFilter s (filterEntries s false)))
  respondOpt (refreshStatusLine (sendInstalled s)) mb stOk 0

end Sys2Proof.Machine
end

