-- ==== Sys2Proof/Machine/Reshard.lean ====
section
/-! DEFINITION. Shrinking by re-shard: shadow regions and windows, MOVE packets and tile checks, and the forming of the
new coves at the restored tide (R266 to R268). -/

namespace Sys2Proof.Machine

/-! ### Declaring the shadows (R266) -/

/-- Homes and windows that the current state occupies. -/
def occupied (s : State) : List (Nat × Nat) :=
  (s.tier.regions.flatMap fun r => (regionHomes r).map fun h => (h.1, h.2.1)) ++
  (windows s.tier.quotas).filterMap fun w => if 0 < w.2.2.1 then some (w.2.1, w.2.2.1) else none

def meets (l : List (Nat × Nat)) (a n : Nat) : Bool := l.any fun o => overlap a n o.1 o.2

/-- The plan names a die that the own cove, or a plan's broadcast, has found lost (R266; log entry 90). -/
def namesLost (s : State) (p : Plan) : Bool :=
  ((List.range (covN s)).any fun q => !(liveSet s).getLsbD q && planNames p (rankAt s (ownCoveId s) q)) ||
    s.bcast.lostChildren.any (planNames p)

/-- The new plan's regions and windows of the own rank, fitted beside the old ones; or status and detail. -/
def fitShadow (s : State) (p : Plan) : (Nat × Nat) ⊕ (List Region × Quotas) :=
  match coveOfRank p (ownRank s) with
  | none => .inr ([], Quotas.zero)
  | some (c, _) =>
    let old := s.tier.quotas
    let q := takenQuotas old ((find (ownRank s) p.quotas).getD old)
    let blocks := (p.profiles.filter fun f => f.rank = ownRank s ∧ f.op = 6).map Profile.block
    let start : State := { s with job.plan := some p, agree.cove := none, tier.regions := [], tier.quotas := q }
    let f := blocks.foldl (fitRegion p id) { state := start, bad := windowFault p [] q, short := [] }
    let rs := f.state.tier.regions
    let clash := rs.any (fun r => (regionHomes r).any fun h => meets (occupied s) h.1 h.2.1) ||
      (windows q).any fun w => decide (0 < w.2.2.1) && meets (occupied s) w.2.1 w.2.2.1
    match f.bad with
    | some _ => .inl (stBadArg, 8)
    | none =>
      if clash then .inl (stBadArg, 8)
      else
        let both := s.tier.regions ++ rs
        let short := (if old.dataNear < nearInUse both then [8] else []) ++ (if old.dataFar < farInUse both then [12] else []) ++
          f.short ++ windowShort c rs q q ++ (if old.offload < offloadInUse both then [48] else [])
        match short.min? with
        | some o => .inl (stResource, o)
        | none => .inr (rs, q)

/-- The state of another rank as the plan in force describes it: its regions and its quotas. -/
def asPlanned (s : State) (rank : Nat) : State :=
  match s.job.part, s.job.plan with
  | some q, some p => { s with
      job.part := some (q.asRank rank)
      tier.regions := regionsOfRank p rank
      tier.quotas := (find rank p.quotas).getD s.tier.quotas }
  | _, _ => s

/-- Status and detail of the first other rank at which the shadows do not fit: then no member declares any (R266; log entry
90). -/
def unfitElsewhere (s : State) (p : Plan) : Option (Nat × Nat) :=
  ((p.coves.flatMap CovePlan.members).filter fun r => r ≠ ownRank s).findSome? fun r =>
    match fitShadow (asPlanned s r) (localPlan r p) with
    | .inl e => some e
    | .inr _ => none

/-! ### Tiles (R267 step 3) -/

/-- Address of a line of a region. -/
def regionLineAddr (r : Region) (line : Nat) : Nat :=
  if line < r.nearBays * 16384 then r.nearBase + line * 64 else r.farBase + (line - r.nearBays * 16384) * 64

/-- Tiles of shadow regions that the move table sends to a rank: (region, tile, source rank). -/
def tilesDue (p : Plan) (rank : Nat) : List (Byte × Nat × Nat) :=
  p.moves.flatMap fun e =>
    if e.dstRank = rank then (List.range e.tiles).map fun i => (e.dstRegion, e.dstTile + i, e.srcRank) else []

/-- The digest of a tile with the plan's move key (R137, R258). -/
def tileCheck (key : U64) (ls : List Line) : U64 :=
  (List.zip (List.range ls.length) ls).foldl (fun x e => x ^^^ lineTerm key e.1 e.2) 0

def shadowRegion (sh : Shadow) (id : Byte) : Option Region := sh.regions.find? fun r => r.id = id

/-- The lines of a shadow tile as memory holds them. -/
def tileLines (s : State) (r : Region) (tile : Nat) : List Line :=
  (List.range 256).map fun i => s.mem.line (regionLineAddr r (tile * 256 + i))

/-- Change the shadow. -/
def onShadow (s : State) (f : Shadow → Shadow) : State := { s with recov.shadow := s.recov.shadow.map f }

/-- The old host step record of the restored tide, and the new group table (R267 step 4). -/
def newTable (s : State) (p : Plan) : List Byte :=
  let ids := ((p.groups.filter fun g => g.ranks.contains (ownRank s)).map fun g => g.id.toNat).take 16
  ids.flatMap (fun i => leBytes 8 i) ++ (List.replicate (16 - ids.length) (leBytes 8 0xFFFF)).flatten

/-- Every tile has come: the new cove forms at the restored tide, as COVE_FORM does (R114, R267 step 4). -/
def startPass (s : State) (sh : Shadow) : State :=
  if sh.passed ∨ sh.agree.cove.isNone then s
  else if !((tilesDue sh.plan (ownRank s)).all fun t => sh.doneTiles.contains (t.1, t.2.1)) then s
  else
    let host := match s.tide.stepRecord with | some (_, bs) => bs.drop 128 | none => List.replicate 4096 0
    let table := newTable s sh.plan
    withShadow (onShadow s fun q => { q with passed := true }) fun t =>
      let u := passAgainstZero (writeLadder { t with tide.gtcClose := t.time.gtc })
      setPhase { u with tide.ownRecord := tidemarkRecord u (sealTide u) false table host } phClosing

/-- A tile of the shadow is whole. -/
def tileDone (s : State) (region : Byte) (tile : Nat) : State :=
  let t := onShadow s fun q => { q with doneTiles := addNew (region, tile) q.doneTiles }
  match t.recov.shadow with
  | some sh => startPass t sh
  | none => t

/-- Source rank of a tile of the own shadow. -/
def tileSource (sh : Shadow) (rank : Nat) (region : Byte) (tile : Nat) : Option Nat :=
  ((tilesDue sh.plan rank).find? fun t => t.1 = region ∧ t.2.1 = tile).map fun t => t.2.2

def gotLines (sh : Shadow) (region : Byte) (tile : Nat) : List Nat :=
  match sh.got.find? fun g => g.1 = region ∧ g.2.1 = tile with
  | some g => g.2.2
  | none => []

/-- One line of a MOVE is written past capture. -/
def takeMoveLine (s : State) (sh : Shadow) (region : Byte) (line : Nat) (v : Line) : State :=
  match shadowRegion sh region with
  | none => s
  | some r =>
    if r.bays * 16384 ≤ line then s
    else
      let tile := line / 256
      let got := addNew (line % 256) (gotLines sh region tile)
      onShadow { s with mem := s.mem.writeLine (regionLineAddr r line) v } fun q =>
        { q with got := q.got.filter (fun g => !decide (g.1 = region ∧ g.2.1 = tile)) ++ [(region, tile, got)] }

/-- Dies that can send a tile again: the source, or the survivors of a lost source's cove, whose ring decodes it. -/
def tileSenders (s : State) (sh : Shadow) (region : Byte) (tile : Nat) : List Nat :=
  match tileSource sh (ownRank s) region tile with
  | none => []
  | some src =>
    if planNames sh.plan src then [currentDie s src]
    else match s.job.plan with
      | none => []
      | some p => match coveOfRank p src with
        | none => []
        | some (c, _) => ((List.range c.members.length).map fun q => rankAt s c.coveId q).filter fun r => r ≠ currentDie s src

/-- A tile's check: the tile is whole, or is asked for once more; a second failure ends recovery (R267; log entry 36). -/
def takeCheck (s : State) (sh : Shadow) (region : Byte) (tile : Nat) (check : Nat) : State :=
  match shadowRegion sh region with
  | none => s
  | some r =>
    if (tileCheck sh.plan.moveKey (tileLines s r tile)).toNat = check ∧ (gotLines sh region tile).length = 256 then
      tileDone s region tile
    else if sh.retried.contains (region, tile) then failLogged s tile
    else
      let t := onShadow s fun q => { q with
        retried := q.retried ++ [(region, tile)]
        parts := q.parts.filter fun e => !decide (e.1.1 = region ∧ e.1.2 / 256 = tile)
        got := q.got.filter fun g => !decide (g.1 = region ∧ g.2.1 = tile) }
      let m := moveFields { RbMsg.blank with
        stale := true, cove := ownCoveId s, target := 0xFF, sender := BitVec.ofNat 8 (ownPos s), dest := 0xFF,
        view := viewNow s } region (tile * 256)
      forEach (tileSenders s sh region tile) (fun u d => sendRbTo u d 0x45 .any m) t

/-- A part of a lost rank's tile check: once every line's part has come, their XOR is the tile's check (R267; log entry
35). -/
def takeTilePart (s : State) (sh : Shadow) (region : Byte) (line : Nat) (part : U64) : State :=
  let parts : List ((Byte × Nat) × U64) := put (region, line) part sh.parts
  let t := onShadow s fun q => { q with parts := parts }
  let mine := parts.filter fun e => decide (e.1.1 = region ∧ e.1.2 / 256 = line / 256)
  if mine.length < 256 then t
  else
    let check : U64 := mine.foldl (fun x e => x ^^^ e.2) 0
    takeCheck t { sh with parts := parts } region (line / 256) check.toNat

/-- Line of the sealed view that a tile of a source region holds. -/
def sourceLine (s : State) (region : Byte) (line : Nat) : Line :=
  match s.tier.regions.find? fun r => r.id = region with
  | none => 0
  | some r => sealedLine s (r.firstBay + line / 16384) (line % 16384)

/-- Send one tile of an entry of the move table, or take it here when the destination is the own rank. -/
def moveTile (s : State) (e : MoveEntry) (i : Nat) : State :=
  let lines := (List.range 256).map fun k => sourceLine s e.srcRegion ((e.srcTile + i) * 256 + k)
  let key := match s.recov.shadow with | some sh => sh.plan.moveKey | none => 0
  let base := (e.dstTile + i) * 256
  if e.dstRank = ownRank s then
    let t := forEach (List.zip (List.range 256) lines) (fun u q =>
      match u.recov.shadow with
      | some sh => takeMoveLine u sh e.dstRegion (base + q.1) q.2
      | none => u) s
    tileDone t e.dstRegion (e.dstTile + i)
  else
    let t := forEach (List.zip (List.range 256) lines) (fun u q =>
      sendMove u e.dstRank e.dstRegion (base + q.1) (sealedTide s) (lineBytes q.2) false) s
    sendMove t e.dstRank e.dstRegion base (sealedTide s) (leBytes 8 (tileCheck key lines).toNat) true

/-- Send every own entry of the move table. -/
def sendOwnMoves (s : State) (p : Plan) : State :=
  forEach (p.moves.filter fun e => e.srcRank = ownRank s) (fun t e =>
    forEach (List.range e.tiles) (fun u i => moveTile u e i) t) s

/-- The ring group of one line of a tile that a lost rank held. -/
def tileGroup (s : State) (p : Plan) (c : CovePlan) (pos : Nat) (e : MoveEntry) (line : Nat) : Option RingId :=
  ((regionsOfRank p e.srcRank).find? fun r => r.id = e.srcRegion).map fun r =>
    let b := r.firstBay + line / 16384
    let q := place (covLayout s) pos b (line % 16384)
    { parity := false, target := BitVec.ofNat 8 (if pos < c.members.length then pos else 0), bay := BitVec.ofNat 16 b,
      base := BitVec.ofNat 8 q.base, piece := BitVec.ofNat 8 q.column, depth := BitVec.ofNat 16 q.depth, count := 1 }

/-- A lost rank's tile is decoded again: the first holder of each of its lines starts the ring. -/
def redecodeTile (s : State) (e : MoveEntry) (i : Nat) : State :=
  match s.job.plan, ownCove s with
  | some p, some c =>
    match c.members.findIdx? fun r => r = e.srcRank with
    | none => s
    | some pos =>
      if (liveSet s).getLsbD pos then s
      else forEach (List.range 256) (fun t k =>
        match tileGroup t p c pos e ((e.srcTile + i) * 256 + k) with
        | some g => startGroup t g
        | none => t) s
  | _, _ => s

/-- A second request for a tile: the source sends it again, or the survivors of a lost source's cove decode it again
(log entry 36). -/
def resendTile (s : State) (sh : Shadow) (region : Byte) (tile : Nat) : State :=
  forEach (sh.plan.moves.filter fun e => e.dstRegion = region ∧ e.dstTile ≤ tile ∧ tile < e.dstTile + e.tiles) (fun t e =>
    if e.srcRank = ownRank s then moveTile t e (tile - e.dstTile) else redecodeTile t e (tile - e.dstTile)) s

/-- MOVE (R267). -/
def execMove (m : RbMsg) (s : State) : Out :=
  .next (vfIn s fun s => match s.recov.shadow with
    | none => s
    | some sh =>
        let line := moveLine m
        if m.stale then resendTile s sh (moveRegion m) (line / 256)
        else if m.count = 0 then
          (if m.stage = 0 then takeCheck s sh (moveRegion m) (line / 256) (fldAt m.payload 0 8)
           else takeTilePart s sh (moveRegion m) line (BitVec.ofNat 64 (fldAt m.payload 0 8)))
        else forEach (List.zip (List.range m.count.toNat) (payloadLines m.payload)) (fun t e =>
          match t.recov.shadow with
          | some q => takeMoveLine t q (moveRegion m) (line + e.1) e.2
          | none => t) s)

/-- The shadow's cove before it forms: every position live at epoch 1, the restored tide next to seal into slot 0. -/
def freshShadow (s : State) (p : Plan) (rs : List Region) (q : Quotas) (mb : Option (Fin 8)) : Shadow :=
  let before := sealedTide s - 1
  let place := coveOfRank p (ownRank s)
  let agree : AgreeS := match place with
    | some (c, i) =>
      { AgreeS.reset with
        state := agStable, position := BitVec.ofNat 4 i, live := V3.all (maskOf 16 (List.range (Layout.n c.layout))),
        epoch := V3.all 1, cove := some c.coveId, posRank := c.members }
    | none => AgreeS.reset
  let tide : SealS := { SealS.reset with
    slot := V3.all 1, phase := V3.all phFlood, tideLo := V3.all (before.truncate 32),
    tideHi := V3.all (BitVec.ofNat 16 (before.toNat / 2 ^ 32)), counted := s.tide.counted, jobStart := s.tide.jobStart,
    jobLosses := s.tide.jobLosses, costNs := s.tide.costNs, n := s.tide.n, policy := s.tide.policy,
    nextPolicy := s.tide.nextPolicy }
  { plan := p, regions := rs, quotas := q, digests := [], agree := agree, tide := tide, mailbox := mb, got := [],
    doneTiles := [], retried := [], parts := [], passed := false }

/-- Declare the shadows: STATE becomes RESHARD, and the own tiles leave (R266, R267 steps 2 and 3). -/
def declareShadow (s : State) (plan : Plan) (mb : Option (Fin 8)) : (Nat × Nat) ⊕ State :=
  let p := localPlan (ownRank s) plan
  if namesLost s p then .inl (stBadArg, 8)
  else match fitShadow s p, unfitElsewhere s plan with
    | .inl e, _ => .inl e
    | .inr _, some e => .inl e
    | .inr (rs, q), none =>
      let t := { freshFlood s with
        recov.shadow := some (freshShadow s p rs q mb), recov.groupsLeft := [], recov.restartAt := [],
        fold.copyCursor := none }
      let t := withShadow t fun u => { u with mem := u.mem.zero (slotBase u 0) (slotSize u) }
      let t := sendOwnMoves (setRec t recReshard) p
      .inr (match t.recov.shadow with | some sh => startPass t sh | none => t)

end Sys2Proof.Machine
end

