-- ==== Sys2Proof/Machine/Plans.lean ====
section
/-! DEFINITION. Taking a plan: PLAN_LOAD, RESHARD_START and PEER_PLAN, and the broadcast of a plan image over the tree
of ranks (R230, R239 to R241, R266). -/

namespace Sys2Proof.Machine

/-! ### What a plan must satisfy (R40, R63, R68, R69, R106, R230) -/

def planRanks (p : Plan) : List Nat := p.coves.flatMap CovePlan.members ++ p.groups.flatMap Group.ranks ++ p.standbys

def coveOk (c : CovePlan) : Bool :=
  decide (c.members.length = Layout.n c.layout) && decide ((c.members.map fun r => r / 64).Nodup) &&
    decide (1 ≤ c.rows ∧ c.rows ≤ 65536) && decide (1 ≤ c.share ∧ c.share ≤ 8)

/-- Place of a rank's die along W, and what its neighbours along W share with it: the rest of its coordinates (R15,
R230). -/
def ringCoord (q : Partition) (rank : Nat) : Nat × Nat :=
  let d := (q.hi.2.1 + 1 - q.lo.2.1) * (q.hi.2.2 + 1 - q.lo.2.2)
  (rank / 64 / d, rank / 64 % d * 64 + rank % 64)

/-- Members in position order are one +W hop apart (R68). -/
def onRing (q : Partition) : List Nat → Bool
  | r :: t => (match t with
    | u :: _ => decide (ringCoord q u = ((ringCoord q r).1 + 1, (ringCoord q r).2))
    | [] => true) && onRing q t
  | [] => true

/-- Every rank lies in the partition; coves are well-formed, disjoint and along the W ring; near ranges and far windows are
named for every die or for none; windows obey R40, and those of the own rank overlap no region declared; no digest key is
0 or 1 (R138). -/
def planOk (s : State) (p : Plan) : Bool :=
  match s.job.part with
  | none => false
  | some q =>
    (planRanks p).all (fun r => decide (r < partitionDies q)) && p.coves.all (fun c => coveOk c && onRing q c.members) &&
      (p.ranges.isEmpty || (planRanks p).all fun r => (find r p.ranges).isSome) &&
      decide ((p.coves.flatMap CovePlan.members).Nodup) && decide ((p.coves.map CovePlan.coveId).Nodup) &&
      p.quotas.all (fun e => (windowFault (localPlan e.1 p) (if e.1 = ownRank s then s.tier.regions else []) e.2).isNone) &&
      p.bayKeys.all fun k => k ≠ 0 && k ≠ 1

/-- A plan is rejected: the detail names a byte of the image, whose layout the spec leaves to abvan (R40; log entry
5). -/
def planFault (s : State) (mb : Fin 8) : State :=
  badBlock { s with freeCtr := s.freeCtr + 1 } mb (Config.freeOffset s.freeCtr).toNat

/-! ### Fragments (R239) -/

def planDies (s : State) : Nat := match s.job.part with | some p => partitionDies p | none => 0

/-- The children of a rank in the tree. -/
def treeChildren (s : State) (r : Nat) : List Nat :=
  ((List.range 8).map fun i => 8 * r + 1 + i).filter fun c => c < planDies s

def digestLow (d : List Byte) : U32 := BitVec.ofNat 32 (fldAt d 0 4)

/-- The fragments of an image: the first carries length and digest. -/
def planFragments (image : List Byte) : List (List Byte) :=
  let head := leBytes 8 image.length ++ sha256 image
  (head ++ List.replicate (256 - head.length) 0) :: chunks 256 image

/-- A plan message: cove 0, sender and destination 0xFF, arg the own rank (R239). PLAN_PART travels on VF (R288). -/
def sendPlanMsg (s : State) (rank : Nat) (type : Byte) (epoch : Nat) (body : List Byte) : State :=
  sendTo s rank (if type = 0x2A then .vf else .va) .any (.agree type
    { jobTag := jobTag s, cove := 0, sender := 0xFF, dest := 0xFF, epoch := BitVec.ofNat 32 epoch,
      ballot := s.bcast.ballot, arg := BitVec.ofNat 32 (ownRank s), gtc := s.time.gtc, body := body })

/-- Send fragments to a child from an index on, and note the time of its last. -/
def sendFragments (s : State) (child from_ : Nat) : State :=
  let fr := s.bcast.fragments
  let t := forEach ((List.zip (List.range fr.length) fr).drop from_) (fun u e => sendPlanMsg u child 0x2A e.1 e.2) s
  { t with bcast.sentAt := put child s.time.gtc t.bcast.sentAt }

/-! ### Acknowledgement (R241) -/

def ackedDies (b : BcastS) : Nat := (b.acked.map fun a => a.2.1).sum
def ackedLost (b : BcastS) : Nat := (b.acked.map fun a => a.2.2).sum + b.lostChildren.length

/-- Every child has acknowledged its subtree or is confirmed lost. -/
def childrenDone (b : BcastS) : Bool :=
  b.children.all fun c => b.acked.any (fun a => a.1 = c) || b.lostChildren.contains c

/-- Results of PLAN_LOAD (R329). -/
def planResults (ok lost lowest : Nat) : List (Nat × Nat × Nat) := [(8, 4, ok), (12, 4, lost), (16, 4, lowest)]

/-- PLAN_ACK goes to the parent, or the distributing command ends on rank 0. RESHARD_START ends with its switch. -/
def ackCheck (s : State) : State :=
  let b := s.bcast
  if !b.complete ∨ b.ended ∨ !childrenDone b then s
  else
    let t := { s with bcast.ended := true }
    match b.mailbox with
    | some mb =>
      if s.job.taking.isSome then s
      else if b.reshard then t
      else
        let lost := ackedLost b
        let low := match b.lostChildren.min? with | some r => r | none => 0xFFFFFFFF
        respond { t with bcast.mailbox := none } mb (if lost = 0 then stOk else stLostMember) 0
          (planResults (1 + ackedDies b) lost low)
    | none =>
      match b.parent with
      | some r => sendPlanMsg t r 0x2C (1 + ackedDies b) (leBytes 4 (ackedLost b))
      | none => t

/-! ### PLAN_LOAD and RESHARD_START -/

/-- Begin the broadcast on rank 0. -/
def startBroadcast (s : State) (mb : Fin 8) (image : List Byte) (reshard : Bool) : State :=
  let d := sha256 image
  let kids := treeChildren s (ownRank s)
  let b : BcastS := { BcastS.reset with
    children := kids, ballot := digestLow d, length := image.length, digest := d, fragments := planFragments image,
    complete := true, reshard := reshard, lastFragment := s.time.gtc, mailbox := some mb }
  forEach kids (fun t c => sendFragments t c 0) { s with bcast := b }

/-- The fields that PLAN_LOAD and RESHARD_START share. -/
def imageFault (s : State) (c : Line) (dist : Bool) : Option Nat :=
  if dist ∧ ownRank s ≠ 0 then some 1
  else if fld c 8 8 % 64 ≠ 0 then some 8
  else if fld c 16 4 = 0 ∨ 8 * mib < fld c 16 4 then some 16
  else none

def distFlag (c : Line) : Bool := decide (fld c 1 1 = 1)

/-- A plan is being taken, or a broadcast still runs. -/
def takingPlan (s : State) : Option (Fin 8) :=
  match s.job.taking with
  | some t => some t.1
  | none => s.bcast.mailbox

def execPlanLoad (src : CmdSrc) (plan : Plan) (s : State) : Out :=
  mailboxRow 0x05 (fun mb t s =>
    match imageFault s t.cmd (distFlag t.cmd) with
    | some o => badArg s mb o
    | none =>
      if !planOk s plan then planFault s mb
      else match takingPlan s with
        | some o => busyWith s mb (some o)
        | none =>
          let u := accepted { s with job.taking := some (mb, plan, false) } mb
          if distFlag t.cmd then startBroadcast u mb (s.mem.bytes (fld t.cmd 8 8) (fld t.cmd 16 4)) false else u) src s

/-- No flood is open and recovery stands where a re-shard may begin (R266). -/
def reshardable (s : State) : Bool :=
  phaseNow s = phHeld && (recState s = recResumable || recState s = recWaitTarget)

def execReshardStart (src : CmdSrc) (plan : Plan) (s : State) : Out :=
  mailboxRow 0x13 (fun mb t s =>
    if !distFlag t.cmd then badArg s mb 1
    else match imageFault s t.cmd true with
      | some o => badArg s mb o
      | none =>
        if !reshardable s then wrongState s mb
        else if !planOk s plan then planFault s mb
        else match takingPlan s with
          | some o => busyWith s mb (some o)
          | none => match declareShadow s plan none with
            | .inl (st, d) => respond s mb st d []
            | .inr _ =>
              startBroadcast (accepted { s with job.taking := some (mb, plan, true) } mb) mb
                (s.mem.bytes (fld t.cmd 8 8) (fld t.cmd 16 4)) true) src s

/-- PEER_PLAN's command line (R402). -/
def planLine (b : BcastS) (relay : Nat) : Line :=
  mkLine [(0, 1, 0x22), (1, 1, bit b.reshard), (8, 8, b.length), (16, 4, relay), (24, 32, leNat b.digest)]

/-- PEER_PLAN: a verified broadcast plan is taken (R240, R266, R402). -/
def execPeerPlan (src : CmdSrc) (plan : Plan) (s : State) : Out :=
  .next (peerDone (mailboxState 0x22 (fun mb t s =>
    if !s.bcast.complete ∨ fld t.cmd 8 8 ≠ s.bcast.length ∨ fld t.cmd 24 32 ≠ leNat s.bcast.digest then badArg s mb 8
    else if !planOk s plan then planFault s mb
    else if distFlag t.cmd ∧ s.job.state = 3 ∧ !reshardable s then wrongState s mb
    else if s.job.taking.isSome then busyWith s mb (takingPlan s)
    else accepted { s with job.taking := some (mb, plan, distFlag t.cmd) } mb) src s))

/-- The plan in force: its policy and the share of the own cove, and the quotas it carries for the rank (R40, R106,
R142). That a plan carries a whole tide policy is DEDUCED (log entry 93). -/
def takePlan (s : State) (p : Plan) : State :=
  let share := match coveOfRank p (ownRank s) with | some (c, _) => c.share | none => s.fold.share
  { s with
    job.plan := some (localPlan (ownRank s) p)
    job.state := if s.job.state = 1 then 2 else s.job.state
    tier.quotas := (find (ownRank s) p.quotas).getD s.tier.quotas
    tide.policy := p.policy
    tide.nextPolicy := p.policy
    fold.share := share
    fold.nextShare := share }

/-- PLAN_LOAD_LOCAL_DONE: the plan is taken: PLANNED, or the shadows of a re-shard (R241, R266, R324). -/
def execPlanLoadLocalDone (s : State) : Out :=
  .next (match s.job.taking with
    | none => s
    | some (mb, plan, reshard) =>
      let s := { s with job.taking := none }
      if reshard then
        match declareShadow s plan (if mb.val = 7 then none else some mb) with
        | .inl (st, d) => peerDone (ackCheck (respond s mb st d []))
        | .inr u => peerDone (ackCheck (if mb.val = 7 then respondOk u mb else { u with bcast.mailbox := none }))
      else
        let t := takePlan s plan
        if t.bcast.mailbox = some mb then ackCheck t
        else peerDone (respond t mb stOk 0 (planResults 1 0 0xFFFFFFFF)))

/-! ### Relays (R240, R241) -/

/-- Probe the parent, unless a probe of it is out. -/
def probeParent (s : State) : State :=
  match s.bcast.parent with
  | some r => if s.agree.probes.any fun p => p.2 = .planParent then s else sendProbe s r .planParent
  | none => s

/-- The whole image has come: it is verified, or asked for again, and a second mismatch ends the receiver's part. -/
def judgeImage (s : State) : State :=
  let b := s.bcast
  if b.fragments.length < 1 + (b.length + 255) / 256 then s
  else
    let image := ((b.fragments.drop 1).flatten).take b.length
    if sha256 image = b.digest then
      let t := { s with bcast.complete := true }
      ackCheck (pushPeer t (planLine t.bcast (b.parent.getD 0)))
    else if 1 ≤ b.mismatches then
      let t := logReport { s with bcast.ended := true, bcast.failed := true } clOther (srcOf 6 0) (b.parent.getD 0)
      match b.parent with
      | some r => sendPlanMsg t r 0x2C 0 (leBytes 4 1)
      | none => t
    else probeParent { s with bcast.mismatches := b.mismatches + 1, bcast.fragments := [] }

/-- Take one fragment, forward it, and verify a whole image. -/
def takeFragment (s : State) (m : AgreeMsg) : State :=
  let i := m.epoch.toNat
  let b := s.bcast
  let fresh := b.fragments = [] ∨ (b.ended ∧ m.ballot ≠ b.ballot)
  if i = 0 ∧ fresh then
    let kept := decide (b.ballot = m.ballot) && !b.ended && !b.digest.isEmpty
    let n : BcastS := { BcastS.reset with
      children := if kept then b.children else treeChildren s (ownRank s)
      acked := if kept then b.acked else []
      lostChildren := if kept then b.lostChildren else []
      parent := some m.arg.toNat, ballot := m.ballot, length := bodyFld m 0 8, digest := (m.body.drop 8).take 32,
      fragments := [m.body], reshard := s.job.plan.isSome, mismatches := if kept then b.mismatches else 0,
      lastFragment := s.time.gtc, sentAt := if kept then b.sentAt else [] }
    forEach n.children (fun t c => sendFragments t c 0) { s with bcast := n }
  else if b.fragments = [] then
    probeParent { s with bcast.parent := some (b.parent.getD m.arg.toNat), bcast.lastFragment := s.time.gtc }
  else if m.ballot ≠ b.ballot ∨ i < b.fragments.length then count s cntPlanDup
  else if b.fragments.length < i then probeParent s
  else
    let t := { s with bcast.fragments := b.fragments ++ [m.body], bcast.lastFragment := s.time.gtc }
    judgeImage (forEach b.children (fun u c => sendFragments u c i) t)

/-- PLAN_PART (R236, R240). The relay of a fragment that wakes the instance is kept. -/
def execPlanPart (m : AgreeMsg) (s : State) : Out :=
  .next (
    let asleep := decide (s.power.season.get = 1 ∨ s.power.season.get = 2)
    let s := if asleep ∧ s.beacon.wakeEn ∧ s.ports.lkp ∧ m.jobTag = jobTag s then { s with bcast.wokeBy := some m.arg.toNat } else s
    discardedFragment s (agreeIn s m true fun s =>
      if s.bcast.complete ∧ s.bcast.ballot = m.ballot then count s cntPlanDup else takeFragment s m))

/-- PLAN_NEED: the relay sends again from the index asked for, and keeps the receiver as a child (R240). -/
def execPlanNeed (m : AgreeMsg) (s : State) : Out :=
  .next (agreeIn s m true fun s =>
    if s.bcast.fragments = [] then s
    else sendFragments { s with bcast.children := addNew m.arg.toNat s.bcast.children } m.arg.toNat m.epoch.toNat)

/-- PLAN_ACK (R241). -/
def execPlanAck (m : AgreeMsg) (s : State) : Out :=
  .next (agreeIn s m true fun s =>
    if m.ballot ≠ s.bcast.ballot ∨ s.bcast.fragments = [] then s
    else ackCheck { s with
      bcast.acked := s.bcast.acked.filter (fun a => a.1 ≠ m.arg.toNat) ++ [(m.arg.toNat, m.epoch.toNat, bodyFld m 0 4)]
      bcast.ended := s.bcast.ended && s.bcast.mailbox.isSome })

/-- PLAN_SILENCE: 1 ms of silence while incomplete (R240). -/
def execPlanSilence (s : State) : Out :=
  .next (if s.bcast.parent.isSome ∧ ¬ s.bcast.complete ∧ ¬ s.bcast.ended ∧
      s.bcast.lastFragment.toNat + 1000000 ≤ s.time.gtc.toNat then probeParent s else s)

/-- PLAN_CHILD_PROBE: 5 ms after a child's last fragment (R241). -/
def execPlanChildProbe (child : Nat) (s : State) : Out :=
  .next (match find child s.bcast.sentAt with
    | some at_ =>
      if s.bcast.complete ∧ ¬ s.bcast.ended ∧ s.bcast.children.contains child ∧ ¬ s.bcast.acked.any (fun a => a.1 = child) ∧
          ¬ s.bcast.lostChildren.contains child ∧ at_.toNat + 5000000 ≤ s.time.gtc.toNat then
        sendProbe s child (.planChild child)
      else s
    | none => s)

/-- PLAN_DISCARD: 10 ms after the last fragment, rank 0 being lost, every other die discards its partial plan (R241). The
command itself says that rank 0 is lost; a die whose parent lives need not have found it so. -/
def execPlanDiscard (s : State) : Out :=
  .next (if s.bcast.fragments ≠ [] ∧ ¬ s.bcast.complete ∧ ownRank s ≠ 0 ∧
      s.bcast.lastFragment.toNat + 10000000 ≤ s.time.gtc.toNat then { s with bcast := BcastS.reset } else s)

/-- The probe of the parent has answered: ask it, or go up past it (R240). -/
def parentAnswer (s : State) (dead : Bool) : State :=
  match s.bcast.parent with
  | none => s
  | some r =>
    if !dead then sendPlanMsg s r 0x2B s.bcast.fragments.length []
    else if r = 0 then { s with bcast.parent := none }
    else
      let up := (r - 1) / 8
      sendProbe { s with bcast.parent := some up, bcast.mismatches := 0 } up .planParent

/-- The probe of a child has answered: its loss is logged, or it is given 5 ms more (R241). -/
def childAnswer (s : State) (child : Nat) (dead : Bool) : State :=
  if dead then
    ackCheck (logReport { s with bcast.lostChildren := addNew child s.bcast.lostChildren } clOther (srcOf 6 0) child)
  else { s with bcast.sentAt := put child s.time.gtc s.bcast.sentAt }

/-- Firmware asks the relay whose fragment woke the instance, once Summer is reached (R236). -/
def askWaker (s : State) : State :=
  match s.bcast.wokeBy with
  | none => s
  | some r =>
    let t := { s with
      bcast.wokeBy := none, bcast.parent := some (s.bcast.parent.getD r), bcast.lastFragment := s.time.gtc }
    sendPlanMsg t r 0x2B 0 []

end Sys2Proof.Machine
end

