-- ==== Sys2Proof/Machine/Agreement.lean ====
section
/-! DEFINITION. Heartbeats, probes, the agreement of views and their installation, NO_QUORUM and EXCLUDED, the aborts
of collectives, and renewals (R211 to R229, R238, R244, R247, R284, R285). -/

namespace Sys2Proof.Machine

/-! ### Heartbeats (R211, R212) -/

/-- Ports on which the instance sends heartbeats: those whose far end lies in its partition (R211, R231). -/
def openPorts (s : State) : List (Fin 8) :=
  match s.job.part with
  | some p => (List.finRange 8).filter fun q => (farRank p q).isSome
  | none => []

/-- The heartbeat of the present instant (R211). A withdrawn instance sends none (R370). -/
def ownBeat (s : State) : Beat :=
  { health := s.agree.health, season := s.power.season.get.zeroExtend 8, position := shownPosition s, jobTag := jobTag s,
    cove := shownCove s, epoch := viewNow s, seq := BitVec.ofNat 32 (s.time.gtc.toNat / 8000) }

/-- HEARTBEAT_INSTANT: at a multiple of 8000 ns BEAT goes out on each partition port, and the status line is rewritten
(R211, R285). -/
def execHeartbeatInstant (s : State) : Out :=
  .next (if s.time.gtc.toNat % 8000 ≠ 0 ∨ !s.power.on ∨ !s.ports.lkp then s
    else
      let t := if s.agree.withdrawn then s
        else forEach (openPorts s) (fun u q =>
          match portRank u q with
          | some r => sendTo u r .va (.direct q) (.beat (ownBeat u))
          | none => u) s
      refreshStatusLine t)

/-- The far end of the port is a member of the own cove. -/
def portMember (s : State) (q : Fin 8) : Option Nat :=
  match portRank s q with
  | some r => match memberAt s r with
    | some (c, p) => if inCove s c then some p else none
    | none => none
  | none => none

/-- A heartbeat is valid (R212). -/
def validBeat (s : State) (q : Fin 8) (b : Beat) : Bool :=
  decide (b.jobTag = jobTag s) && s.job.part.isSome && decide (b.season ≠ 2) &&
    ((portMember s q).isNone ||
      !(let d := (b.epoch - viewNow s).toNat
        decide (1 ≤ d ∧ d ≤ 32767)))

/-- Intervals missed before a heartbeat: the one it ends is not among them (R232). -/
def missedBefore (s : State) (q : Fin 8) : Nat := (s.time.gtc - s.agree.missMark.get q).toNat / 8000 - 1

/-- BEAT: a valid heartbeat refreshes its port and ends the watch of a faulted link (R212, R215). In Winter every
heartbeat is discarded (R274). -/
def execBeat (port : Fin 8) (b : Beat) (s : State) : Out :=
  .next (if !s.ports.lkp ∨ s.power.season.get = 2 ∨ s.ports.fenced.getLsbD port.val then s
    else if b.jobTag ≠ jobTag s then count s cntVaDrop
    else if validBeat s port b then
      { setLinkFault s port.val false with
        agree.lastBeat := s.agree.lastBeat.set port.val s.time.gtc port.isLt
        agree.portSuspect := setBit s.agree.portSuspect port.val false
        agree.wintering := setBit s.agree.wintering port.val false
        agree.missed := s.agree.missed + missedBefore s port
        agree.missMark := s.agree.missMark.set port.val s.time.gtc port.isLt
        agree.watchAt := s.agree.watchAt.filter fun w => w.1 ≠ port }
    else if b.season = 2 then { s with agree.wintering := setBit s.agree.wintering port.val true }
    else s)

/-! ### Status line (R284, R285) -/

/-- PROBE_RECEIVE: a remote load of the LKP window: the status line, or zero bytes, counted (R284). -/
def execProbeReceive (offset : U16) (s : State) : Out :=
  .next (if !s.ports.lkp then s
    else if offset = 0 then { s with out.lkp := s.out.lkp ++ [.answer (some s.agree.statusLine)] }
    else count { s with out.lkp := s.out.lkp ++ [.answer none] } cntLkpDiscard)

/-! ### NO_QUORUM and EXCLUDED (R224, R225) -/

/-- The member is EXCLUDED: it holds protected writes, sends and takes no fold-store, and its commands end (R225). -/
def exclude (s : State) (removed : U16) : State :=
  let t := { s with
    agree := { s.agree with
      state := agExcluded, proposal := none, wishes := [], timerAt := none, retryAt := none, suspects := [],
      confirmed := [], firstSuspicion := none, removed := removed }
    job.state := 4
    job.former := s.agree.cove.map fun c => (c, ownPos s)
    cap.barred := true
    recov.rollingBack := false
    recov.handover := none
    recov.hoKnown := none
    recov.asked := none }
  refreshStatusLine (endPending (abandonShadow t removed.toNat) stLostMember removed.toNat .lost)

/-- The member has gathered a quorum for the next view (R221, R224). -/
def hasQuorum (s : State) : Bool :=
  s.agree.proposal.any fun p => decide (quorum s ≤ p.promises.length) || decide (quorum s ≤ p.acceptedBy.length)

/-- NO_QUORUM: 1.5 ms after the first suspicion without a later view or a quorum (R224). -/
def execNoQuorum (s : State) : Out :=
  .next (match s.agree.firstSuspicion with
    | some at_ =>
      if agreeing s ∧ ¬ hasQuorum s ∧ at_.toNat + 1500000 ≤ s.time.gtc.toNat then
        let t := { s with
          agree := { s.agree with state := agNoQuorum, proposal := none, wishes := [], timerAt := none, retryAt := none }
          cap.barred := true }
        raiseEvent (endPending t stNoQuorum (liveSet s).toNat .noQuorum) evNoQuorum (BitVec.ofNat 8 (ownPos s))
      else s
    | none => s)

/-! ### Installing a view (R223, R238, R244, R246, R247, R256, R265) -/

/-- The new captain keeps what it learns of the members' seals, and reports once it holds all of it (R131, R223). -/
def lossReport (s : State) : State :=
  if !isCaptain s then s
  else
  let s := treeStep s
  if !undecided s then s
  else if phaseNow s = phCommitted then
    (if isRootCove s then rootRelease { s with tide.abandonNext := true } else sendReport s (sealedTide s) 3)
  else captainCheck s

/-- A LOSS removes members: commands stop, recovery begins again under the new epoch (R20, R131, R144, R238, R244). -/
def installLoss (s : State) (removed : U16) : State :=
  let k := (bitsOf 16 removed).length
  let resharding := s.recov.shadow.isSome
  let dies := (bitsOf 16 removed).map fun q => rankAt s (ownCoveId s) q
  let s := { ageReports s with agree.removed := removed, tide.lossesHere := s.tide.lossesHere + k, tide.upReport := none }
  let s := if isCaptain s then startAborts s dies else s
  let s := endSeal (abandonShadow s removed.toNat) stLostMember removed.toNat
  let s := match s.tide.forming with
    | some mb => respondOpt (leaveCove { s with tide.forming := none }) mb stLostMember removed.toNat
    | none => s
  if s.agree.cove.isNone then stopRuns s .lost
  else
    let s := dropStaged (stopRuns s .lost)
    let st := recState s
    let old : U16 := if st = recNone ∨ st = recDone ∨ st = recFailed then 0 else s.recov.lost.get
    let held := phaseNow s = phHeld
    let hk := match s.recov.hoKnown with
      | some (p, r, f) => if removed.getLsbD p then none else some (p, r, f)
      | none => none
    let tgt := s.recov.target
    let s := { s with recov := { s.recov with
      lost := V3.all (old ||| removed), forward := false, rollingBack := false, tried := 0,
      asked := none, groupsLeft := [], restartAt := [], waiting := [], tmarkMisses := 0, hoKnown := hk
      parityDone := if tgt then s.recov.parityDone else []
      reqs := if tgt then s.recov.reqs else []
      rows := if tgt then s.recov.rows else []
      rowsDone := if tgt then s.recov.rowsDone else 0 } }
    let s := startSpring (setRec s recDeciding)
    let s := if s.tide.noTide then failRecovery s
      else if beyondTolerance s (liveSet s) then failRecovery s
      else if held ∧ ¬ s.recov.target then { setRec s recRolling with recov.rollingBack := true }
      else if held then setRec s recParity
      else s
    let s := if resharding ∧ held then reportReshardLoss s else s
    if !isCaptain s ∨ recState s = recFailed then s else claimNext s

/-- A renewal, or a JOIN in PHASE HELD, drops what is left of the abandoned flood (R247). -/
def installRenewal (s : State) : State :=
  if phaseNow s = phHeld then { freshFlood s with agree.renewalDue := false } else s

/-- A JOIN: the survivors learn the target, and one that waited for it goes on; the captain tells the job (R246, R256). -/
def installJoin (s : State) (pos rank : Nat) : State :=
  let s := installRenewal (noteMove s (ownCoveId s) pos rank)
  let st := recState s
  let s := if st = recWaitTarget ∨ (st = recRolling ∧ ¬ s.recov.rollingBack) then standing s else s
  if isCaptain s then claimNext (tellMoves (sendRankMoves { s with recov.asked := none } pos rank false) rank) else s

/-- The outgoing member is EXCLUDED by the HANDOVER view; the captain tells the job of the new die and goes on with
FLIPPED (R265 steps 3 and 4). -/
def installHandover (s : State) (rank : Nat) : State :=
  match s.recov.handover with
  | some h =>
    if h.outgoing ∧ h.peerRank = rank then exclude s (maskOf 16 [ownPos s]) else captainPart s
  | none => captainPart s
where
  captainPart (s : State) : State :=
    match s.recov.hoKnown with
    | some (pos, r, _) =>
      if r = rank then
        let t := noteMove { s with recov.hoKnown := none } (ownCoveId s) pos rank
        if isCaptain t then flippedCheck (sendRankMoves t pos rank true) else t
      else s
    | none => s

/-- The view itself: epoch and live set, and an end to what was being agreed (R220, R223). -/
def takeView (s : State) (m : AgreeMsg) (live : U16) (joining : U32) : State :=
  let s := { s with agree := { s.agree with
    epoch := V3.all m.epoch
    live := V3.all live
    suspects := s.agree.suspects.filter fun q => live.getLsbD q
    confirmed := s.agree.confirmed.filter fun q => live.getLsbD q
    promised := 0
    accepted := none
    round := 0
    proposal := none
    timerAt := none
    retryAt := none
    installs := s.agree.installs ++ [m]
    infos := []
    wishes := s.agree.wishes.filter fun w =>
      !(w.2.1 = m.arg && w.2.2 = joining) && !(w.2.1 = 1 && w.1 < 16 && !live.getLsbD w.1) } }
  { s with agree := { s.agree with
    state := if s.agree.suspects = [] then agStable else agSuspecting
    firstSuspicion := if s.agree.suspects = [] then none else some s.time.gtc } }

/-- Install a view of which the own position is a live member (R223): what its reason asks for, recovery from its first
action under the new epoch, and a change of the seal root (R132, R219, R238). -/
def installView (s : State) (m : AgreeMsg) (live : U16) (joining : U32) : State :=
  let before := liveSet s
  let gone : U16 := before &&& ~~~live
  let added : U16 := live &&& ~~~before
  let reason := m.arg.toNat
  let s := restartActions (dropStaged (takeView s m live joining))
  let s := if gone ≠ 0 ∧ reason = 0 then installLoss s gone else s
  let s := if joining ≠ noRank ∧ added ≠ 0 then installJoin s ((bitsOf 16 added).headD 0) joining.toNat
    else if reason = 1 then installHandover s joining.toNat
    else if gone = 0 then installRenewal s
    else s
  let s := if agreeing s then serveWaiting (supplyTargets s) else s
  refreshStatusLine (if agreeing s then rootChanged s (captainOf before) else s)

/-- After installing: INSTALLED to the captain, and the captain's own report (R220, R223). -/
def afterInstall (s : State) : State :=
  if s.agree.cove.isNone ∨ s.agree.state = agExcluded then s
  else
    let t := lossReport (sendInstalled s)
    if t.agree.wishes ≠ [] then startProposal t else evaluate t

/-- Fields of an INSTALL's body (R217). -/
def installLive (m : AgreeMsg) : U16 := BitVec.ofNat 16 (bodyFld m 0 2)
def installJoining (m : AgreeMsg) : U32 := BitVec.ofNat 32 (bodyFld m 12 4)

/-- INSTALL at a member (R220, R225). -/
def memberInstall (s : State) (m : AgreeMsg) : State :=
  if m.epoch.toNat ≤ (epochNow s).toNat then s
  else if s.agree.state = agNoQuorum ∧ (installLive m).getLsbD (ownPos s) then
    -- DESIGN CHOICE: log entry 84
    let t := takeView s m (installLive m) (installJoining m)
    refreshStatusLine (sendInstalled { t with agree.state := agNoQuorum })
  else if (installLive m).getLsbD (ownPos s) then afterInstall (installView s m (installLive m) (installJoining m))
  else exclude s (liveSet s &&& ~~~(installLive m))

/-- INSTALL at the die that joins (R256, R265). -/
def joinerInstall (s : State) (m : AgreeMsg) : State :=
  match s.recov.grant, s.job.plan with
  | some g, some p =>
    if g.cove ≠ m.cove ∨ (installJoining m).toNat ≠ ownRank s then s
    else match planCove p g.cove with
      | none => s
      | some c =>
        let hold (t : State) : State := { t with agree.installs := [m] }
        if m.arg = 1 ∧ g.handover then
          let t := hold (cutoverAsTarget s c g.position (installLive m) m.epoch)
          if isCaptain t then flippedCheck (sendRankMoves t g.position (ownRank t) true) else t
        else if m.arg = 2 ∧ ¬ g.handover then hold (joinAsTarget s g c (installLive m) m.epoch)
        else s
  | _, _ => s

/-! ### Messages of the agreement (R217, R220, R221, R225) -/

/-- The message's cove is one of the job; else it is dropped and counted (R217). -/
def inJob (s : State) (m : AgreeMsg) (f : State → State) : State :=
  match s.job.plan with
  | some p => if (planCove p m.cove).isSome then f s else count s cntVaDrop
  | none => count s cntVaDrop

/-- A member's handling of an agreement message of its own cove: an epoch further on than a member of its view would
send makes it EXCLUDED; `ahead` is how far the type may run ahead (R225). -/
def memberMsg (s : State) (m : AgreeMsg) (ahead : Nat) (f : State → State) : State :=
  agreeIn s m true fun s => inJob s m fun s =>
    if s.agree.cove ≠ some m.cove ∨ s.agree.state = agNone ∨ s.agree.state = agExcluded ∨ s.agree.withdrawn then s
    else if (epochNow s).toNat + ahead < m.epoch.toNat then exclude s 0
    else if !agreeing s then s
    else f s

/-- SUSPECT (R213, R221). -/
def execSuspect (m : AgreeMsg) (s : State) : Out :=
  .next (memberMsg s m 0 fun s =>
    if m.sender ≠ 0xFF ∧ m.epoch ≠ epochNow s then s else suspectPos s m.arg.toNat)

/-- Fields of PROMISE's body (R217). -/
def promiseBody (s : State) : List Byte :=
  (match s.agree.accepted with
    | some a => leBytes 2 a.live.toNat ++ leBytes 1 a.reason.toNat ++ [0] ++ leBytes 4 a.joining.toNat
    | none => List.replicate 8 0) ++ sealInfo s

/-- PREPARE (R220, R247): for an epoch installed the INSTALL held for it goes again. A member in PHASE HELD whose fold
path is not idle gives no answer. -/
def execPrepare (m : AgreeMsg) (s : State) : Out :=
  .next (memberMsg s m 1 fun s =>
    let src := m.sender.toNat
    if m.epoch.toNat ≤ (epochNow s).toNat then
      match s.agree.installs.find? fun i => i.epoch = m.epoch with
      | some i => sendAgreePos s src 0x27 i.epoch i.ballot i.arg i.body
      | none => s
    else if s.agree.promised.toNat < m.ballot.toNat then
      if phaseNow s = phHeld ∧ ¬ foldIdle s then s
      else
        let acc : U32 := match s.agree.accepted with | some a => a.ballot | none => 0
        let t := { s with
          agree.promised := m.ballot
          agree.state := agChanging }
        sendAgreePos t src 0x23 m.epoch m.ballot acc (promiseBody s)
    else sendAgreePos s src 0x26 m.epoch m.ballot s.agree.promised [])

/-- ACCEPT (R220). -/
def execAccept (m : AgreeMsg) (s : State) : Out :=
  .next (memberMsg s m 1 fun s =>
    let src := m.sender.toNat
    if m.epoch.toNat ≤ (epochNow s).toNat ∨ m.ballot.toNat < s.agree.promised.toNat then
      sendAgreePos s src 0x26 m.epoch m.ballot s.agree.promised []
    else
      let a : Accepted := { ballot := m.ballot, live := BitVec.ofNat 16 (bodyFld m 0 2), reason := m.arg,
                            joining := BitVec.ofNat 32 (bodyFld m 4 4) }
      sendAgreePos { s with agree.promised := m.ballot, agree.accepted := some a, agree.state := agChanging } src 0x25 m.epoch
        m.ballot 0 [])

/-- Everyone the proposer waits for has answered (R221). -/
def allAnswered (s : State) (p : Proposal) : Bool := (reachable s).all fun q => q = ownPos s || p.answered.contains q

/-- Hand the gathered seal information to a new captain that was not the proposer, in the promisers' names (R223). -/
def handInfos (s : State) (p : Proposal) : State :=
  let q := captainOf (liveSet s)
  if q = ownPos s then { s with agree.infos := p.promises.map fun r => (r.pos, r.info) }
  else
    forEach (p.promises.filter fun r => r.pos ≠ ownPos s ∧ r.pos ≠ q) (fun t r =>
      sendTo t (rankAt t (ownCoveId t) q) .va .any (.agree 0x28
        { jobTag := jobTag t, cove := ownCoveId t, sender := BitVec.ofNat 8 r.pos, dest := BitVec.ofNat 8 q,
          epoch := epochNow t, ballot := p.ballot, arg := 0, gtc := t.time.gtc, body := r.info })) s

/-- After ACCEPT: with a quorum of ACCEPTED, INSTALL goes out and the proposer installs; else it retries (R221). -/
def endAccept (s : State) (p : Proposal) : State :=
  if p.acceptedBy.length < quorum s then retryProposal s p
  else
    let body := leBytes 2 p.live.toNat ++ leBytes 2 0 ++ leBytes 8 s.time.gtc.toNat ++ leBytes 4 p.joining.toNat
    let m : AgreeMsg :=
      { jobTag := jobTag s, cove := ownCoveId s, sender := BitVec.ofNat 8 (ownPos s), dest := 0xFF, epoch := p.epoch,
        ballot := p.ballot, arg := p.reason, gtc := s.time.gtc, body := body }
    let others := (reachable s).filter fun q => q ≠ ownPos s
    let s := forEach others (fun t q => sendAgreePos t q 0x27 p.epoch p.ballot p.reason body) s
    let s := if p.joining ≠ noRank then sendAgree s p.joining.toNat 0x27 0xFF p.epoch p.ballot p.reason body else s
    if p.live.getLsbD (ownPos s) then
      let t := installView s m p.live p.joining
      if t.agree.cove.isNone ∨ t.agree.state = agExcluded then t
      else proposeDue (lossReport (handInfos (sendInstalled t) p))
    else exclude s (liveSet s &&& ~~~p.live)

/-- The proposer goes on once everyone has answered. -/
def proposalStep (s : State) : State :=
  match s.agree.proposal with
  | none => s
  | some p => if allAnswered s p then (if p.accepting then endAccept s p else endPrepare s p) else s

/-- PROMISE (R221). -/
def execPromise (m : AgreeMsg) (s : State) : Out :=
  .next (memberMsg s m 1 fun s =>
    match s.agree.proposal with
    | none => s
    | some p =>
      let q := m.sender.toNat
      if p.accepting ∨ m.ballot ≠ p.ballot ∨ m.epoch ≠ p.epoch ∨ p.answered.contains q ∨ !(liveSet s).getLsbD q then s
      else
        let acc : Option Accepted := if m.arg = 0 then none else some
          { ballot := m.arg, live := BitVec.ofNat 16 (bodyFld m 0 2), reason := BitVec.ofNat 32 (bodyFld m 2 1),
            joining := BitVec.ofNat 32 (bodyFld m 4 4) }
        let r : Promised := { pos := q, acc := acc, info := (m.body.drop 8).take 16 }
        let p' := { p with promises := p.promises ++ [r], answered := p.answered ++ [q] }
        proposalStep { s with agree.proposal := some p' })

/-- ACCEPTED (R221). -/
def execAccepted (m : AgreeMsg) (s : State) : Out :=
  .next (memberMsg s m 1 fun s =>
    match s.agree.proposal with
    | none => s
    | some p =>
      let q := m.sender.toNat
      if !p.accepting ∨ m.ballot ≠ p.ballot ∨ m.epoch ≠ p.epoch ∨ p.answered.contains q ∨ !(liveSet s).getLsbD q then s
      else
        let p' := { p with acceptedBy := p.acceptedBy ++ [q], answered := p.answered ++ [q] }
        proposalStep { s with agree.proposal := some p' })

/-- NACK: the retry's round rises above every ballot named (R221). -/
def execNack (m : AgreeMsg) (s : State) : Out :=
  .next (memberMsg s m 1 fun s =>
    match s.agree.proposal with
    | none => s
    | some p =>
      if m.ballot ≠ p.ballot ∨ m.epoch ≠ p.epoch then s
      else
        let high : U32 := if p.nackMax.toNat < m.arg.toNat then m.arg else p.nackMax
        let p' := { p with nackMax := high, answered := addNew m.sender.toNat p.answered }
        proposalStep { s with agree.proposal := some p' })

/-- PROPOSE_WAIT: 50 µs after PREPARE or ACCEPT the proposer counts its quorum (R221). -/
def execProposeWait (s : State) : Out :=
  .next (match s.agree.proposal with
    | some p =>
      if agreeing s ∧ p.since.toNat + 50000 ≤ s.time.gtc.toNat then
        if p.accepting then endAccept s p else endPrepare s p
      else s
    | none => s)

/-- INSTALL (R220, R223, R225): judged by R220 alone. -/
def execInstall (m : AgreeMsg) (s : State) : Out :=
  .next (agreeIn s m true fun s => inJob s m fun s =>
    if isMember s ∧ s.agree.cove = some m.cove then
      (if s.agree.state = agExcluded then s else memberInstall s m)
    else joinerInstall s m)

/-- INSTALLED: the captain gathers the members' seal information (R218, R223). -/
def execInstalled (m : AgreeMsg) (s : State) : Out :=
  .next (memberMsg s m 0 fun s =>
    if m.epoch ≠ epochNow s then s
    else lossReport { s with agree.infos := put m.sender.toNat (m.body.take 16) s.agree.infos })

/-- COLL_ABORT (R227, R228). A later epoch of the own cove is judged first (R225). -/
def execCollAbort (m : AgreeMsg) (s : State) : Out :=
  .next (agreeIn s m true fun s => inJob s m fun s =>
    let own := decide (s.agree.cove = some m.cove) && s.agree.state ≠ agExcluded && s.agree.state ≠ agNone
    let t := if own ∧ (epochNow s).toNat < m.epoch.toNat then exclude s 0 else s
    abortHere t m.cove m.epoch m.arg (bodyFld m 0 4))

/-- COLL_STOPPED: the collective engine's answer to COLL_STOP; nothing in Hygar waits for it (R282). -/
def execCollStopped (_group : U16) (s : State) : Out := .next s

/-- RENEWAL_PROPOSE (R247). -/
def execRenewalPropose (s : State) : Out :=
  .next (if s.agree.renewalDue ∧ isCaptain s ∧ agreeing s ∧ phaseNow s = phHeld ∧ foldIdle s ∧
      ¬ s.agree.wishes.any (fun w => w.1 = 16) then
      startProposal { s with agree.wishes := s.agree.wishes ++ [(16, 0, noRank)] }
    else s)

/-! ### Probe results (R214, R215, R221, R240, R241, R255, R270) -/

/-- The probe confirms a loss (R214). -/
def probeDead (s : State) (ans : ProbeAns) : Bool :=
  match ans with
  | .poison => true
  | .status l => decide (l.jobTag ≠ jobTag s) || decide (l.season = 2)

/-- A refuted suspicion of a port: the link fault is logged and the port is watched (R215). -/
def watchPort (s : State) (q : Fin 8) (rank : Nat) : State :=
  if s.agree.watchAt.any fun w => w.1 = q then s
  else
    let t := logReport (setLinkFault s q.val true) clLink (srcOf 6 q.val) rank
    { t with agree.watchAt := put q (fromNow t 1000000) t.agree.watchAt }

/-- Ports of the instance on which a die is suspected. -/
def suspectPortsOf (s : State) (rank : Nat) : List (Fin 8) :=
  (List.finRange 8).filter fun q => s.agree.portSuspect.getLsbD q.val && portRank s q = some rank

/-- A refuted suspicion of a member. -/
def refuteMember (s : State) (rank pos : Nat) : State :=
  forEach (suspectPortsOf s rank) (fun t q => watchPort t q rank) (refute s pos)

/-- A confirmed loss also lets a proposer that waited for that member go on (R221). -/
def confirmStep (s : State) (p : Nat) : State := proposalStep (confirmLoss s p)

/-- A port's own probe: a member of the own cove is confirmed lost or refuted; another die only refuted (R215). -/
def portAnswer (s : State) (rank : Nat) (dead : Bool) (q : Fin 8) : State :=
  match portMember s q with
  | some p => if dead then confirmStep s p else refuteMember s rank p
  | none => if dead then s else watchPort s q rank

/-- What a probe's answer does, by why it was issued. -/
def probeAnswer (s : State) (rank : Nat) (ans : ProbeAns) (why : ProbeWhy) : State :=
  let dead := probeDead s ans
  match why with
  | .suspicion p => if dead then confirmStep s p else refuteMember s rank p
  | .lower p => if dead then confirmStep s p else refuteMember s rank p
  | .port q => portAnswer s rank dead q
  | .watch q =>
    if !dead then s
    else match memberAt s rank with
      | some (c, p) =>
        if inCove s c then confirmStep (tellSuspect (suspectPos s p) q c p) p else tellSuspect s q c p
      | none => s
  | .planParent => parentAnswer s dead
  | .planChild r => childAnswer s r dead
  | .rebuildView => rebuildAnswer s rank ans

/-- PROBE_RESULT: the answer of the oldest outstanding probe of a die. -/
def execProbeResult (rank : Nat) (ans : ProbeAns) (s : State) : Out :=
  .next (match s.agree.probes.find? fun p => p.1 = rank with
    | some p => probeAnswer { s with agree.probes := s.agree.probes.erase p } rank ans p.2
    | none => s)

end Sys2Proof.Machine
end

