-- ==== Sys2Proof/Machine/Flags.lean ====
section
/-! DEFINITION. The status bits and words of the registers: the live word of every offset of the map, which of its
bits are privileged and which are snapshots (R335 to R356). -/

namespace Sys2Proof.Machine

/-- A word from its fields: (lowest bit, value). -/
def word : List (Nat × Nat) → U32
  | [] => 0
  | (lo, v) :: t => BitVec.ofNat 32 (v * 2 ^ lo) ||| word t

/-- A mask of the bits from `lo`, `n` wide. -/
def bitsMask (lo n : Nat) : U32 := BitVec.ofNat 32 ((2 ^ n - 1) * 2 ^ lo)

/-- The error log holds an entry with the UNCORR flag (R346). -/
def errUncorr (s : State) : Bool := s.log.entries.any fun e => e.uncorr

/-- The lanes of a cluster are paused: the fold buffer has reached high-water, or the capture unit holds a write of the
cluster, so that its store queue fills (R179; log entry 43). -/
def clusterPaused (s : State) (c : Fin 4) : Bool :=
  s.apply.state = 2 || s.cap.held.any fun h =>
    h.acc.master = .apply && s.apply.issued.any fun e => decide (e.cluster = c ∧ e.addr = h.acc.line.toNat)

/-- Every cluster is paused (R179). -/
def applyPaused (s : State) : Bool := (List.finRange 4).all (clusterPaused s)

/-- APPLY_STAT.STATE: DISABLED while the unit sleeps (R147, R179, R388). -/
def applyState (s : State) : BitVec 2 :=
  if s.power.asleep then 3 else if s.apply.state = 1 ∧ applyPaused s then 2 else s.apply.state

/-- EXCH_STAT.STATE (R210, R388). -/
def exchState (s : State) : BitVec 2 :=
  if s.power.asleep ∨ s.exch.disabled then 3
  else if s.exch.reduces = [] ∧ s.exch.compress = none then 0 else 1

/-- The slice an exchange rank owns, from the range's start: first element and length (R188). -/
def sliceOf (r : Reduce) (o : Nat) : Nat × Nat :=
  if r.total then (0, if o = 0 then r.elements else 0)
  else
    let lo := o * r.shardLen
    let hi := if (o + 1) * r.shardLen < r.elements then (o + 1) * r.shardLen else r.elements
    (lo, hi - lo)

/-- Ranks whose slice is not empty. -/
def ownersOf (r : Reduce) : List Nat := (List.range r.ranks).filter fun o => (sliceOf r o).2 ≠ 0

/-- An integer reduction has INT32 results (R186). -/
def isIntReduce (r : Reduce) : Bool := r.dstFormat = 0xB

/-- A reduction waits for EXP records, or for a GRANT (R210). -/
def exchPrepass (s : State) : Bool := s.exch.reduces.any fun r =>
  !isIntReduce r && ((decide ((sliceOf r r.rank).2 ≠ 0) && !r.granted) || (ownersOf r).any fun o => !r.sentTo.contains o)

/-- One byte of error log entry bytes: the 32 B layout of R349. -/
def entryBytes (e : ErrEntry) : List Byte :=
  [e.cls, if e.uncorr then 1 else 0] ++ leBytes 2 e.source.toNat ++ leBytes 4 e.count.toNat ++
    leBytes 8 e.first.toNat ++ leBytes 8 e.last.toNat ++ leBytes 8 e.detail.toNat

/-- The entry at a ring index, zero bytes where the index holds none (R350, R351). -/
def entryAt (s : State) (idx : Nat) : List Byte :=
  let k := (idx + 256 - s.log.oldest.toNat) % 256
  match s.log.entries[k]? with
  | some e => entryBytes e
  | none => List.replicate 32 0

/-- A remap entry of the selected macro; the fold buffer and the parity merge store have no table (R353). -/
def remapWord (s : State) (j : Nat) : U32 :=
  let m := s.lat.sel.toNat
  if 4 ≤ m ∧ m ≤ 39 then 0
  else match s.lat.remaps.find? fun r => r.mac = m ∧ r.entry = j with
    | some r => word [(0, r.word % 2 ^ 20), (31, 1)]
    | none => 0

/-- A register of a mailbox, by its offset in the mailbox (R314, R315). -/
def mailboxWord (s : State) (mb : Fin 8) (o : Nat) : U32 :=
  let b := box s mb
  if o < 0x40 then lineWord b.cmd (o / 4)
  else if o < 0x80 then (if s.ctrl.compatA.get = 1 ∧ 0x60 ≤ o then 0 else lineWord b.rsp ((o - 0x40) / 4))
  else if o = 0x80 then
    if fwRunning s then
      word [(0, b.code.toNat), (8, bit b.busy), (9, bit b.done), (10, bit b.long), (11, bit b.overrun),
            (16, b.count.toNat)]
    else 0
  else if o = 0x88 then word [(0, bindCode mb), (8, b.op.toNat), (16, b.tag.toNat)]
  else 0

/-- HY_CTRL (R344). -/
def ctrlWord (s : State) : U32 :=
  word [(0, s.ctrl.capEn.get.toNat), (1, s.ctrl.foldEn.get.toNat), (2, s.ctrl.applyEn.get.toNat),
        (3, s.ctrl.exchEn.get.toNat), (8, s.ctrl.compatA.get.toNat)]

/-- APPLY_MAP (R147). -/
def mapWord (c : Ctrl) : U32 :=
  word [(0, c.phys0.get.toNat), (3, c.phys1.get.toNat), (6, c.phys2.get.toNat), (9, c.phys3.get.toNat)]

/-- HY_STAT (R346). -/
def statWord (s : State) : U32 :=
  word [(0, bit s.stat.cfgIgnored), (1, s.stat.capState.toNat), (3, s.stat.foldState.toNat),
        (5, s.stat.fwState.get.toNat), (8, s.stat.fwCause.toNat), (11, bit (errUncorr s)), (24, s.stat.evtOvf.toNat)]

/-- RST_CAUSE (R347). -/
def causeWord (r : ResetS) : U32 :=
  word [(0, bit r.por), (1, bit r.sysMgp), (2, bit r.sysSupply), (3, bit r.sysThermal), (4, bit r.coreMgp),
        (5, bit r.coreWdog), (8, r.unit.toNat)]

/-- The live word of every register that is not in a mailbox; 0 at every reserved offset (R335). -/
def blockWord (s : State) (off : Nat) : U32 :=
  if 0x2020 ≤ off ∧ off ≤ 0x203C then s.log.ent.extractLsb' (8 * (off - 0x2020)) 32
  else if 0x2040 ≤ off ∧ off ≤ 0x207C then (s.log.ovf.getD ((off - 0x2040) / 4) 0).zeroExtend 32
  else if 0x3010 ≤ off ∧ off ≤ 0x3068 then s.cnt.getD ((off - 0x3010) / 4) 0
  else if 0x4020 ≤ off ∧ off ≤ 0x403C then remapWord s ((off - 0x4020) / 4)
  else if 0x5020 ≤ off ∧ off ≤ 0x5034 then
    let c := (off - 0x5020) / 4
    word [(0, (s.beacon.bktA.getD c 0).toNat), (12, (s.beacon.bktB.getD c 0).toNat)]
  else match off with
  | 0x0000 => 0x48594F58
  | 0x0004 => word [(0, 0xB0), (16, if fwRunning s then 0x0402 else 0)]
  | 0x0008 => word [(0, s.fuses.lcs.toNat)]
  | 0x000C => word [(0, s.fuses.die.toNat)]
  | 0x0010 => 0x00040858
  | 0x0100 => ctrlWord s
  | 0x0140 => mapWord s.ctrl
  | 0x0200 => statWord s
  | 0x0210 => word [(0, s.tide.slot.get.toNat), (1, (phaseNow s).toNat)]
  | 0x0214 => s.tide.tideLo.get
  | 0x0218 => word [(0, s.tide.tideHi.get.toNat)]
  | 0x021C => word [(0, s.tide.n.get.toNat), (16, s.tide.steps.toNat)]
  | 0x0230 => word [(0, (applyState s).toNat), (2, bit s.apply.switching.isSome), (4, s.apply.layer.toNat),
                    (16, s.apply.tile.toNat)]
  | 0x0234 => word [(0, (exchState s).toNat), (2, bit (exchPrepass s)), (3, s.exch.reduces.length),
                    (6, bit s.exch.compress.isSome), (7, s.exch.slots.length)]
  | 0x0238 => word [(0, s.agree.state.toNat), (3, bit (isCaptain s)), (4, s.agree.position.toNat),
                    (16, (liveSet s).toNat)]
  | 0x023C => epochNow s
  | 0x0240 => word [(0, s.recov.state.get.toNat), (4, bit s.recov.target), (5, bit s.recov.forward),
                    (16, s.recov.lost.get.toNat)]
  | 0x0244 => s.recov.tide.truncate 32
  | 0x0248 => word [(0, s.recov.tide.toNat / 2 ^ 32)]
  | 0x024C => s.recov.rowsDone
  | 0x0250 => word [(0, s.twin.state.toNat), (3, bit s.twin.divEvt), (16, s.twin.tide.toNat / 2 ^ 32)]
  | 0x0254 => s.twin.tide.truncate 32
  | 0x0258 => word [(0, s.twin.bay.toNat), (16, s.twin.line.toNat), (30, bit s.twin.lineValid)]
  | 0x0260 => word [(0, bit s.ports.msp), (1, bit s.ports.fbp), (2, bit s.ports.lkp), (3, bit s.ports.mgp),
                    (4, bit s.ports.gtcLock), (5, bit s.ports.gtcFault), (8, s.ports.fenced.toNat),
                    (16, s.ports.linkFault.toNat)]
  | 0x0300 => causeWord s.rst
  | 0x2000 => word [(0, s.log.entries.length), (9, bit (s.log.entries.length = 256)), (16, s.log.oldest.toNat)]
  | 0x2010 => word [(0, s.log.sel.toNat)]
  | 0x4000 => word [(0, bit s.lat.corr), (1, bit s.lat.uncorr), (2, bit s.lat.remapFull), (16, s.lat.lastMacro.toNat)]
  | 0x4004 => word [(0, s.lat.lastTile.toNat), (24, s.lat.lastSymbol.toNat)]
  | 0x4008 => 96
  | 0x4010 => word [(0, s.lat.sel.toNat)]
  | 0x4040 => word [(0, (s.fuses.fbRows.toNat + s.lat.softFb.length) % 256), (8, 64), (16, s.fuses.fbCols.toNat), (24, 16)]
  | 0x4044 => word [(0, (s.fuses.psRows.toNat + s.lat.softPs.length) % 256), (8, 16), (16, s.fuses.psCols.toNat), (24, 4)]
  | 0x5000 => word [(0, s.power.season.get.toNat), (2, s.power.target.toNat), (4, bit s.bist.run.isSome)]
  | 0x5004 => word [(0, s.beacon.power.toNat), (16, s.beacon.peak.toNat)]
  | 0x5010 => word [(0, s.beacon.temp.toNat), (8, s.beacon.supply.toNat)]
  | 0x5040 => word [(0, s.beacon.tempAlert.toNat), (8, s.beacon.tempHand.toNat), (16, s.beacon.supAlert.toNat),
                    (24, s.beacon.supHand.toNat)]
  | 0x5044 => word [(0, bit s.beacon.handEn), (1, bit s.beacon.wakeEn)]
  | 0x5048 => word [(0, s.beacon.lasting.toNat), (8, bit s.beacon.alert), (9, bit s.beacon.handoverReq),
                    (10, bit s.beacon.wake)]
  | 0x6000 => word [(0, s.bist.state.toNat), (4, s.bist.set.toNat), (12, s.bist.verdict.toNat)]
  | 0x6004 => s.bist.fail
  | 0x6008 => s.bist.sig.truncate 32
  | 0x600C => word [(0, s.bist.sig.toNat / 2 ^ 32)]
  | 0x7000 => s.time.gtc.truncate 32
  | 0x7004 => word [(0, s.time.gtc.toNat / 2 ^ 32)]
  | 0x7010 => word [(0, s.time.rate.toNat), (12, bit s.time.belowSlow), (16, s.time.rateMin.toNat)]
  | _ => 0

/-- The mailbox an offset lies in, and the offset in it. -/
def mailboxAt (off : Nat) : Option (Fin 8 × Nat) :=
  if h : 0x1000 ≤ off ∧ off < 0x1800 then some (⟨(off - 0x1000) / 0x100, by omega⟩, off % 0x100) else none

/-- The live word at an offset of the window. -/
def liveWord (s : State) (off : Nat) : U32 :=
  match mailboxAt off with
  | some m => mailboxWord s m.1 m.2
  | none => blockWord s off

/-- Bits accessible only from a privileged or secure master (the PV codes of the map). -/
def pvMask (off : Nat) : U32 :=
  match off with
  | 0x0100 => 0x10F
  | 0x0140 => 0xFFF
  | 0x0300 => 0xF3F
  | 0x0310 => 0xF03
  | 0x2004 => 1
  | 0x2008 => 0x1FF
  | 0x3000 => 1
  | 0x4010 => 0x3FF
  | 0x5040 => 0xFFFFFFFF
  | 0x5044 => 3
  | _ => 0

/-- Bits that a read takes from the snapshot (the SNAP codes of the map). -/
def snapMask (off : Nat) : U32 :=
  match mailboxAt off with
  | some m => if m.2 = 0x80 then 0xFFFF07FF else if m.2 = 0x88 then 0xFFFFFF00 else 0
  | none =>
    if 0x2040 ≤ off ∧ off ≤ 0x207C then 0xFFFF
    else if 0x3010 ≤ off ∧ off ≤ 0x3068 then 0xFFFFFFFF
    else if 0x4020 ≤ off ∧ off ≤ 0x403C then 0x800FFFFF
    else if 0x5020 ≤ off ∧ off ≤ 0x5034 then 0xFFFFFFFF
    else match off with
    | 0x0004 => 0xFFFF0000
    | 0x0200 => 0xFFE
    | 0x0230 => 0xFFFF7FF7
    | 0x0234 => 0x3FFF
    | 0x0238 => 0xFFFF00FF
    | 0x023C => 0xFFFFFFFF
    | 0x0240 => 0xFFFF003F
    | 0x0244 => 0xFFFFFFFF
    | 0x0248 => 0xFFFF
    | 0x024C => 0xFFFFFFFF
    | 0x0250 => 0xFFFF000F
    | 0x0254 => 0xFFFFFFFF
    | 0x0258 => 0x7FFFFFFF
    | 0x0260 => 0xFF001F
    | 0x2000 => 0xFF03FF
    | 0x4000 => 0x3FF0000
    | 0x4004 => 0x1F0FFFFF
    | 0x4040 => 0xFF00FF
    | 0x4044 => 0xFF00FF
    | 0x5000 => 0x1F
    | 0x5004 => 0xFFFFFFFF
    | 0x5010 => 0xFFFF
    | 0x5048 => 0x7FF
    | 0x6000 => 0x3FF3
    | 0x6004 => 0xFFFFFFFF
    | 0x6008 => 0xFFFFFFFF
    | 0x600C => 0xFFFFFFFF
    | 0x7000 => 0xFFFFFFFF
    | 0x7004 => 0xFFFFFFFF
    | 0x7010 => 0xFFF1FFF
    | _ => 0

/-- Registers that have SNAP fields. -/
def snapOffsets : List Nat :=
  (List.range 8).flatMap (fun i => [0x1000 + 0x100 * i + 0x80, 0x1000 + 0x100 * i + 0x88]) ++
  [0x0004, 0x0200, 0x0230, 0x0234, 0x0238, 0x023C, 0x0240, 0x0244, 0x0248, 0x024C, 0x0250, 0x0254, 0x0258, 0x0260,
   0x2000, 0x4000, 0x4004, 0x4040, 0x4044, 0x5000, 0x5004, 0x5010, 0x5048, 0x6000, 0x6004, 0x6008, 0x600C, 0x7000,
   0x7004, 0x7010] ++
  (List.range 16).map (fun i => 0x2040 + 4 * i) ++ (List.range 23).map (fun i => 0x3010 + 4 * i) ++
  (List.range 8).map (fun i => 0x4020 + 4 * i) ++ (List.range 6).map (fun i => 0x5020 + 4 * i)

/-- The snapshot of every register that has SNAP fields, taken at a reference edge (R304). -/
def snapshot (s : State) : List (Nat × U32) := snapOffsets.map fun o => (o, liveWord s o)

/-- A register with its SNAP bits from the last snapshot; before the first, the live word (R304). -/
def snapWord (s : State) (off : Nat) : U32 :=
  let live := liveWord s off
  let m := snapMask off
  match find off s.time.snap with
  | some w => (live &&& ~~~m) ||| (w &&& m)
  | none => live

/-- Blocks that answer in Winter: Identification, Reset cause, Power and Beacon (R274, R336). -/
def winterAnswers (off : Nat) : Bool :=
  decide (off ≤ 0x10) || off = 0x0300 || off = 0x0310 || decide (0x5000 ≤ off ∧ off ≤ 0x5048)

/-- A mailbox access that a port may read (R314). MB_STATUS, MB_INFO and the areas are read alike. -/
def mayReadMailbox (port : Port) (mb : Fin 8) : Bool :=
  match port with
  | .mgp => true
  | .fbp => boundPort mb = .fbp
  | .tap => mb.val = 6
  | .lkp => false

/-- The value a register read gives a port: permission, privilege, season, then the snapshot (R304, R314, R336). TIME_HI
answers the half latched by the port's last read of TIME_LO (R305). HY_REGVIEW reads privileged fields too (R296). -/
def readRegister (s : State) (port : Port) (priv : Bool) (off : Nat) : U32 :=
  let pv := if port = .mgp ∨ port = .tap ∨ priv then 0 else pvMask off
  if s.power.season.get = 2 ∧ ¬ winterAnswers off then 0
  else
    let allowed := match mailboxAt off with | some m => mayReadMailbox port m.1 | none => true
    if !allowed then 0
    else if off = 0x7004 then
      match port with
      | .fbp => s.time.latchFbp.getD (snapWord s off)
      | .mgp => s.time.latchMgp.getD (snapWord s off)
      | .tap => s.time.latchTap.getD (snapWord s off)
      | .lkp => snapWord s off
    else snapWord s off &&& ~~~pv

end Sys2Proof.Machine
end

