-- ==== Sys2Proof/Machine/Fp.lean ====
section
/-! DEFINITION. Number formats, rounding, FP32 and INT32 arithmetic, conversions, and the stochastic draw (R155 to R165),
and the block-fixed scale (R185). A finite value is held exactly as a sign, a natural number and a power of two. -/

namespace Sys2Proof.Machine

/-- A floating-point value: `num neg m e` is ±m·2^e. -/
inductive FVal where
  | nan
  | inf (neg : Bool)
  | num (neg : Bool) (m : Nat) (e : Int)
deriving DecidableEq, Repr

/-- How a format marks what is not finite (R160). -/
inductive Special where
  | ieee | e4m3 | finiteOnly
deriving DecidableEq, Repr

/-- A binary format: width, mantissa bits, bias, code of the largest finite value. -/
structure Fmt where
  width : Nat
  man : Nat
  bias : Nat
  top : Nat
  special : Special
deriving DecidableEq, Repr

def fp32 : Fmt := ⟨32, 23, 127, 0x7F7FFFFF, .ieee⟩
def bf16 : Fmt := ⟨16, 7, 127, 0x7F7F, .ieee⟩
def fp16 : Fmt := ⟨16, 10, 15, 0x7BFF, .ieee⟩
def e4m3 : Fmt := ⟨8, 3, 7, 0x7E, .e4m3⟩
def e5m2 : Fmt := ⟨8, 2, 15, 0x7B, .ieee⟩
def e3m2 : Fmt := ⟨6, 2, 3, 0x1F, .finiteOnly⟩
def e2m3 : Fmt := ⟨6, 3, 1, 0x1F, .finiteOnly⟩
def e2m1 : Fmt := ⟨4, 1, 1, 0x7, .finiteOnly⟩

/-- Rounding: to nearest even, or stochastic with a 16-bit draw (R164). -/
inductive Rnd where
  | rne
  | sr (draw : U16)
deriving DecidableEq, Repr

/-- Whether a magnitude rounds up: `q` kept, `r` of `2^sh` discarded (R164). -/
def roundsUp (rnd : Rnd) (q r sh : Nat) : Bool :=
  match rnd with
  | .rne => decide (2 ^ sh < 2 * r) || (decide (2 * r = 2 ^ sh) && decide (q % 2 = 1))
  | .sr d => decide (2 ^ 16 ≤ r * 2 ^ 16 / 2 ^ sh + d.toNat)

/-- m·2^e as a multiple of 2^u, rounded. -/
def toMultiple (rnd : Rnd) (m : Nat) (e u : Int) : Nat :=
  if u ≤ e then m * 2 ^ (e - u).toNat
  else
    let sh := (u - e).toNat
    let q := m / 2 ^ sh
    let r := m % 2 ^ sh
    if roundsUp rnd q r sh then q + 1 else q

/-- The code of a rounded magnitude, without its sign; it may exceed the format's largest. -/
def magCode (f : Fmt) (rnd : Rnd) (m : Nat) (e : Int) : Nat :=
  if m = 0 then 0
  else
    let low : Int := 1 - f.bias - f.man
    let u0 : Int := (Nat.log2 m : Int) + e - f.man
    let u := if u0 < low then low else u0
    let q := toMultiple rnd m e u
    if q < 2 ^ f.man then q
    else
      let q' := if q = 2 ^ (f.man + 1) then 2 ^ f.man else q
      let u' := if q = 2 ^ (f.man + 1) then u + 1 else u
      ((u' + f.man + f.bias).toNat) * 2 ^ f.man + (q' - 2 ^ f.man)

/-- Sign bit of a format. -/
def signCode (f : Fmt) (neg : Bool) : Nat := if neg then 2 ^ (f.width - 1) else 0

/-- The canonical NaN of a format (R160). -/
def nanCode (f : Fmt) : Nat :=
  match f.special with
  | .ieee => f.top + 1 + 2 ^ (f.man - 1)
  | .e4m3 => 0x7F
  | .finiteOnly => 0

/-- The code of an infinity or an overflow (R160). -/
def bigCode (f : Fmt) (sat neg : Bool) : Nat :=
  match f.special with
  | .ieee => signCode f neg + (if sat then f.top else f.top + 1)
  | .e4m3 => if sat then signCode f neg + f.top else nanCode f
  | .finiteOnly => signCode f neg + f.top

/-- A value converted to a format (R160, R164). -/
def encode (f : Fmt) (rnd : Rnd) (sat : Bool) : FVal → Nat
  | .nan => nanCode f
  | .inf neg => bigCode f sat neg
  | .num neg m e =>
    let c := magCode f rnd m e
    if f.top < c then bigCode f sat neg else signCode f neg + c

/-- The value of a code (R158). -/
def decodeF (f : Fmt) (c : Nat) : FVal :=
  let neg := c.testBit (f.width - 1)
  let mag := c % 2 ^ (f.width - 1)
  let ef := mag / 2 ^ f.man
  let fr := mag % 2 ^ f.man
  if f.top < mag then
    (match f.special with
     | .ieee => if fr = 0 then .inf neg else .nan
     | _ => .nan)
  else if ef = 0 then .num neg fr (1 - f.bias - f.man)
  else .num neg (2 ^ f.man + fr) ((ef : Int) - f.bias - f.man)

def ofBits (w : U32) : FVal := decodeF fp32 w.toNat

/-- FP32 result with round-to-nearest-even (R156). -/
def toBits (v : FVal) : U32 := BitVec.ofNat 32 (encode fp32 .rne false v)

def FVal.isNan : FVal → Bool
  | .nan => true
  | _ => false

def FVal.finite : FVal → Bool
  | .num _ _ _ => true
  | _ => false

def FVal.negative : FVal → Bool
  | .nan => false
  | .inf n => n
  | .num n _ _ => n

/-- The signed integer of a magnitude. -/
def signedNat (neg : Bool) (m : Nat) : Int := if neg then -(m : Int) else m

/-- Exact sum of two finite values; an exact zero is −0 only when both are negative. -/
def addExact (n1 : Bool) (m1 : Nat) (e1 : Int) (n2 : Bool) (m2 : Nat) (e2 : Int) : FVal :=
  let e := if e1 ≤ e2 then e1 else e2
  let a := signedNat n1 (m1 * 2 ^ (e1 - e).toNat)
  let b := signedNat n2 (m2 * 2 ^ (e2 - e).toNat)
  let t := a + b
  if t = 0 then .num (n1 && n2) 0 e else .num (decide (t < 0)) t.natAbs e

def fAdd : FVal → FVal → FVal
  | .nan, _ => .nan
  | _, .nan => .nan
  | .inf a, .inf b => if a = b then .inf a else .nan
  | .inf a, _ => .inf a
  | _, .inf b => .inf b
  | .num n1 m1 e1, .num n2 m2 e2 => addExact n1 m1 e1 n2 m2 e2

def fMul : FVal → FVal → FVal
  | .nan, _ => .nan
  | _, .nan => .nan
  | .inf a, .inf b => .inf (a != b)
  | .inf a, .num n m _ => if m = 0 then .nan else .inf (a != n)
  | .num n m _, .inf b => if m = 0 then .nan else .inf (n != b)
  | .num n1 m1 e1, .num n2 m2 e2 => .num (n1 != n2) (m1 * m2) (e1 + e2)

def fNeg : FVal → FVal
  | .nan => .nan
  | .inf n => .inf (!n)
  | .num n m e => .num (!n) m e

def fAbs : FVal → FVal
  | .nan => .nan
  | .inf _ => .inf false
  | .num _ m e => .num false m e

/-- a < b for values that are not NaN; −0 and +0 are equal. -/
def fLt : FVal → FVal → Bool
  | .nan, _ => false
  | _, .nan => false
  | .inf a, .inf b => a && !b
  | .inf a, .num _ _ _ => a
  | .num _ _ _, .inf b => !b
  | .num n1 m1 e1, .num n2 m2 e2 =>
    let e := if e1 ≤ e2 then e1 else e2
    decide (signedNat n1 (m1 * 2 ^ (e1 - e).toNat) < signedNat n2 (m2 * 2 ^ (e2 - e).toNat))

def fEq (a b : FVal) : Bool := !a.isNan && !b.isNan && !fLt a b && !fLt b a

/-- Order of MIN and MAX: −0.0 lies below +0.0 (R156). -/
def fBelow (a b : FVal) : Bool := fLt a b || (fEq a b && a.negative && !b.negative)

/-- MIN and MAX: the other operand when exactly one is a NaN (R156). -/
def fMin (a b : FVal) : FVal := if a.isNan then b else if b.isNan then a else if fBelow b a then b else a

def fMax (a b : FVal) : FVal := if a.isNan then b else if b.isNan then a else if fBelow a b then b else a

/-- CMP conditions in code order: EQ, NE, LT, LE, GT, GE, UN (R156, R168). -/
def fCmp (cond : Nat) (a b : FVal) : Bool :=
  let un := a.isNan || b.isNan
  match cond with
  | 0 => fEq a b
  | 1 => un || !fEq a b
  | 2 => fLt a b
  | 3 => fLt a b || fEq a b
  | 4 => fLt b a
  | 5 => fLt b a || fEq a b
  | _ => un

/-- An integer kept in the INT32 range (R157). -/
def satI32 (v : Int) : U32 :=
  if v < -2147483648 then 0x80000000 else if 2147483647 < v then 0x7FFFFFFF else BitVec.ofInt 32 v

def iCmp (cond : Nat) (a b : U32) : Bool :=
  match cond with
  | 0 => decide (a = b)
  | 1 => decide (a ≠ b)
  | 2 => decide (a.toInt < b.toInt)
  | 3 => decide (a.toInt ≤ b.toInt)
  | 4 => decide (b.toInt < a.toInt)
  | 5 => decide (b.toInt ≤ a.toInt)
  | _ => false

/-- A value rounded to an integer and kept in a range; a NaN converts to 0 (R162). -/
def toIntSat (rnd : Rnd) (lo hi : Int) : FVal → Int
  | .nan => 0
  | .inf neg => if neg then lo else hi
  | .num neg m e =>
    let v := signedNat neg (toMultiple rnd m e 0)
    if v < lo then lo else if hi < v then hi else v

/-- An integer as an FP32 value, rounded to nearest even (R162). -/
def intToF (v : Int) : FVal := .num (decide (v < 0)) v.natAbs 0

/-- The scalar formats by code (R158); none for the integer, MX and block-fixed codes. -/
def scalarFmt : Nat → Option Fmt
  | 0 => some fp32
  | 1 => some bf16
  | 2 => some fp16
  | 3 => some e4m3
  | 4 => some e5m2
  | _ => none

/-- The element format of an MX code, and its emax (R158, R161). -/
def mxFmt : Nat → Option (Fmt × Int)
  | 5 => some (e4m3, 8)
  | 6 => some (e5m2, 15)
  | 7 => some (e3m2, 4)
  | 8 => some (e2m3, 2)
  | 9 => some (e2m1, 2)
  | _ => none

/-- Bits an element takes in memory (R158). -/
def elemBits : Nat → Nat
  | 0 => 32
  | 1 => 16
  | 2 => 16
  | 3 => 8
  | 4 => 8
  | 5 => 8
  | 6 => 8
  | 7 => 6
  | 8 => 6
  | 9 => 4
  | 10 => 8
  | 11 => 32
  | _ => 64

/-- Lane values of this format are INT32 (R158). -/
def intFormat (code : Nat) : Bool := code == 10 || code == 11

/-- floor(log2) of a finite nonzero magnitude. -/
def floorLog (m : Nat) (e : Int) : Int := (Nat.log2 m : Int) + e

/-- The scale exponent X of an MX block (R161); none when an element is a NaN or infinite. -/
def mxScale (emax : Int) (vs : List FVal) : Option Int :=
  if vs.all FVal.finite then
    let tops := vs.filterMap fun v => match v with
      | .num _ m e => if m = 0 then none else some (floorLog m e)
      | _ => none
    match tops with
    | [] => some (-127)
    | t :: ts =>
      let x := ts.foldl max t - emax
      some (if x < -127 then -127 else if 127 < x then 127 else x)
  else none

/-- A value times a power of two. -/
def fScale (v : FVal) (k : Int) : FVal :=
  match v with
  | .num n m e => .num n m (e + k)
  | v => v

/-- The scale byte and element codes of a block of values, each with its rounding (R161). -/
def mxEncode (f : Fmt) (emax : Int) (vs : List (FVal × Rnd)) : Byte × List Nat :=
  match mxScale emax (vs.map Prod.fst) with
  | none => (0xFF, vs.map fun _ => 0)
  | some x => (BitVec.ofInt 8 (x + 127), vs.map fun vr => encode f vr.2 true (fScale vr.1 (-x)))

/-- The value of an MX element (R161). -/
def mxDecode (f : Fmt) (scale : Byte) (code : Nat) : FVal :=
  if scale = 0xFF then .nan else fScale (decodeF f code) ((scale.toNat : Int) - 127)

/-- The scale exponent of a nonzero finite FP32 value: its exponent field, or 1; 0 for zero, NaN and infinities
(R185, R189). -/
def epsBits (w : U32) : Nat :=
  let ef := w.toNat / 2 ^ 23 % 256
  let fr := w.toNat % 2 ^ 23
  if ef = 255 then 0 else if ef = 0 then (if fr = 0 then 0 else 1) else ef

/-- The exponent Q of a block of scale exponent X at step s; none for a zero block (R185). -/
def blockQ (x : Nat) (s : Nat) : Option Int := if x = 0 then none else some ((x : Int) - 181 + s)

/-- RNE(v·2^−Q) of a finite value; 0 for others (R185, R196). -/
def toBlock (q : Int) : FVal → Int
  | .num neg m e => signedNat neg (toMultiple .rne m e q)
  | _ => 0

/-- RNE(t·2^−s) of an integer (R195). -/
def rneShift (t : Int) (s : Nat) : Int := signedNat (decide (t < 0)) (toMultiple .rne t.natAbs 0 s)

/-- The value a·2^Q. -/
def blockVal (a : Int) (q : Int) : FVal := .num (decide (a < 0)) a.natAbs q

/-- The stochastic draw of a lane (R165). -/
def srDraw (seed : U64) (tensor : U16) (elem : Nat) (step : U64) (slot : Nat) : U16 :=
  let x0 := seed ^^^ (tensor.zeroExtend 64 <<< 48) ^^^ BitVec.ofNat 64 elem
  let x1 := x0 + (step * 64 + BitVec.ofNat 64 slot) * 0x9E3779B97F4A7C15
  let x2 := (x1 ^^^ (x1 >>> 30)) * 0xBF58476D1CE4E5B9
  let x3 := (x2 ^^^ (x2 >>> 27)) * 0x94D049BB133111EB
  let x4 := x3 ^^^ (x3 >>> 31)
  x4.extractLsb' 48 16

/-- Pairwise sums of neighbours, FP32 round-to-nearest-even (R166). -/
def pairSums : List U32 → List U32
  | a :: b :: t => toBits (fAdd (ofBits a) (ofBits b)) :: pairSums t
  | l => l

/-- Six levels of pairwise sums over 64 values (R166). -/
def treeSum (l : List U32) : U32 :=
  (pairSums (pairSums (pairSums (pairSums (pairSums (pairSums l)))))).getD 0 0

end Sys2Proof.Machine
end

