-- ==== Sys2Proof/Machine/Exchange.lean ====
section
/-! DEFINITION. The exchange unit: exact reductions, stage slots and the wide buffer, gradient compression, stops and
completions (R183 to R210, R282). -/

namespace Sys2Proof.Machine

/-! ### Reads and writes of the units -/

/-- A line as the apply and exchange units read it: the staged copy where one is valid, else the home (R47). -/
def unitReadLine (s : State) (a : Nat) : Line :=
  match copiesOf s a with
  | c :: _ => s.mem.line c
  | [] => s.mem.line a

/-- `n` bytes from an address, read line by line. -/
def unitRead (s : State) (a n : Nat) : List Byte :=
  let lo := a / 64
  ((((List.range ((a + n + 63) / 64 - lo)).flatMap fun i => lineBytes (unitReadLine s ((lo + i) * 64))).drop (a % 64))).take n

/-- Write one line or a part of it: presented where the filter matches, else written at once (R198, R280). -/
def unitStore (s : State) (m : Master) (line : Nat) (be : U64) (data : Line) : State :=
  let h : Held := { kind := .write, acc := { tag := 0, line := BitVec.ofNat 64 line, be := be, data := data, master := m } }
  if filtered s line then present s h else commitBytes s h.acc

/-- The bytes of a block that fall into one line: byte enables and data. -/
def linePart (a : Nat) (bs : List Byte) (line : Nat) : U64 × Line :=
  (maskOf 64 ((List.range 64).filter fun i => decide (a ≤ line + i ∧ line + i < a + bs.length)),
   lineOf (if a ≤ line then bs.drop (line - a) else List.replicate (a - line) 0 ++ bs))

/-- Write a block in ascending lines, narrow where it begins or ends inside one (R198). -/
def unitWrite (s : State) (m : Master) (a : Nat) (bs : List Byte) : State :=
  if bs = [] then s
  else forEach (List.range ((a + bs.length + 63) / 64 - a / 64)) (fun t i =>
    let line := (a / 64 + i) * 64
    let p := linePart a bs line
    unitStore t m line p.1 p.2) s

/-! ### Element values -/

/-- The value of an element code of a scalar or integer format (R158, R192). -/
def codeVal (format c : Nat) : FVal :=
  match scalarFmt format with
  | some f => decodeF f c
  | none =>
    let w := elemBits format
    let v : Int := if c < 2 ^ (w - 1) then c else (c : Int) - 2 ^ w
    .num (decide (v < 0)) v.natAbs 0

/-- Bytes of one element of a source (R186). -/
def elemBytes (format : Nat) : Nat := elemBits format / 8

def plainVals (format : Nat) (bs : List Byte) : List FVal :=
  (chunks (elemBytes format) bs).map fun c => codeVal format (leNat c)

def zeroVal : FVal := .num false 0 0

/-- Values of `n` elements a compressed record carries; those it does not carry are zero (R192, R200). -/
def recordVals (bs : List Byte) (n : Nat) : List FVal :=
  match fldAt bs 0 1 with
  | 0 => (List.range n).map fun i => codeVal 0 (fldAt bs (16 + 4 * i) 4)
  | 1 =>
    let k := fldAt bs 2 2
    let bf := fldAt bs 1 1 = 1
    let base := 16 + (2 * k + 3) / 4 * 4
    let kept := (List.range k).map fun i =>
      (fldAt bs (16 + 2 * i) 2 % 4096, if bf then codeVal 1 (fldAt bs (base + 2 * i) 2) else codeVal 0 (fldAt bs (base + 4 * i) 4))
    (List.range n).map fun i => look zeroVal i kept
  | _ =>
    let v := codeVal 0 (fldAt bs 8 4)
    (List.range n).map fun i => if (bs.getD (16 + i / 8) 0).getLsbD (i % 8) then fNeg v else v

/-- The record in a slot of a compressed buffer (R200). -/
def slotRecord (s : State) (out b : Nat) : List Byte :=
  let head := unitRead s (out + 16448 * b) 16
  unitRead s (out + 16448 * b) (fldAt head 4 4)

def compressedFormat : Nat := 0x10

/-- What a source supplies for a segment of the range: the payload of its DATA record (R190). -/
def sourceBytes (s : State) (x : ExSource) (start n : Nat) : List Byte :=
  if x.format = compressedFormat then slotRecord s x.addr (start / 4096)
  else unitRead s (x.addr + start * elemBytes x.format) (n * elemBytes x.format)

def payloadVals (format : Nat) (bs : List Byte) (n : Nat) : List FVal :=
  if format = compressedFormat then recordVals bs n else plainVals format bs

/-- The scale exponent of a value, none for zero and for what is not finite (R185). -/
def epsVal (v : FVal) : Option Int :=
  match v with
  | .num _ 0 _ => none
  | .num _ _ _ => some (epsBits (toBits v))
  | _ => none

def maxOpt : Option Int → Option Int → Option Int
  | none, b => b
  | a, none => a
  | some a, some b => some (if a < b then b else a)

def maxEps (vs : List FVal) : Option Int := vs.foldl (fun m v => maxOpt m (epsVal v)) none

/-! ### Records -/

def ExRec.blank : ExRec :=
  { compressed := false, group := 0, seq := 0, sender := 0, count := 0, dest := 0, format := 0, first := 0, covered := 0,
    payload := [] }

/-- A record of a reduction to an exchange rank (R190). -/
def sendEx (s : State) (r : Reduce) (dest : Nat) (type : Byte) (x : ExRec) : State :=
  sendRecord s type { x with
    group := r.group
    seq := r.seq
    sender := BitVec.ofNat 24 r.rank
    dest := BitVec.ofNat 24 dest }

/-- Segments of 4096 elements of an owner's slice: start from the range's start, and length (R189). -/
def segmentsOf (r : Reduce) (o : Nat) : List (Nat × Nat) :=
  let sl := sliceOf r o
  (List.range ((sl.2 + 4095) / 4096)).map fun i =>
    (sl.1 + 4096 * i, if sl.2 - 4096 * i < 4096 then sl.2 - 4096 * i else 4096)

/-- One byte per block of a segment: the largest scale exponent over all sources, or 0 (R189). -/
def segmentEps (s : State) (r : Reduce) (seg : Nat × Nat) : List Byte :=
  let per := r.sources.map fun x => chunks 256 (payloadVals x.format (sourceBytes s x seg.1 seg.2) seg.2)
  (List.range ((seg.2 + 255) / 256)).map fun b =>
    BitVec.ofInt 8 ((per.foldl (fun m l => maxOpt m (maxEps (l.getD b []))) none).getD 0)

/-- The EXP records to one owner, at most 4096 blocks each (R189, R190). -/
def sendExps (s : State) (r : Reduce) (o : Nat) : State :=
  forEach (chunks 256 (segmentsOf r o)) (fun t segs =>
    sendEx t r o 0x30 { ExRec.blank with
      count := BitVec.ofNat 8 r.sources.length
      first := BitVec.ofNat 64 (r.elemBase + (segs.headD (0, 0)).1)
      covered := BitVec.ofNat 32 (segs.map Prod.snd).sum
      payload := segs.flatMap (segmentEps t r) }) s

/-- The DATA records to one owner: one for each source of each segment, segments ascending (R189 step 3). -/
def sendData (s : State) (r : Reduce) (o : Nat) : State :=
  forEach (segmentsOf r o) (fun t seg =>
    forEach r.sources.zipIdx (fun u xi =>
      sendEx u r o 0x32 { ExRec.blank with
        compressed := decide (xi.1.format = compressedFormat)
        count := BitVec.ofNat 8 xi.2
        format := BitVec.ofNat 8 xi.1.format
        first := BitVec.ofNat 64 (r.elemBase + seg.1)
        covered := BitVec.ofNat 32 seg.2
        payload := sourceBytes u xi.1 seg.1 seg.2 }) t) s

/-! ### Running reductions -/

def reduceOf (s : State) (g : U16) (q : U32) : Option Reduce := s.exch.reduces.find? fun r => r.group = g ∧ r.seq = q

def setReduce (s : State) (r : Reduce) : State :=
  { s with exch.reduces := replaceFirst (fun q => decide (q.group = r.group ∧ q.seq = r.seq)) (fun _ => r) s.exch.reduces }

/-- Owned blocks of the own rank. -/
def ownBlocks (r : Reduce) : Nat := ((sliceOf r r.rank).2 + 255) / 256

/-- What the response reports of the results: whether the write phase has begun, and the counts (R204, R207). -/
def formedOf (r : Reduce) : Formed :=
  r.formed.getD { written := false, bytes := 0, steps := 0, nonfinite := 0, saturated := 0 }

/-- A disabled unit in which nothing runs any more is DISABLED (R204, R210). -/
def settleDisable (s : State) : State :=
  if s.ctrl.exchEn.get = 0 ∧ s.exch.reduces = [] ∧ s.exch.compress = none then { s with exch.disabled := true } else s

/-- End a reduction: it leaves the unit, its slots are freed, and the response is written (R207). An ABORT that waited
for the write phase finds it ended (R331). -/
def endReduce (s : State) (r : Reduce) (status detail stopped cancel : Nat) : State :=
  let f := formedOf r
  let t := { s with
    exch.reduces := s.exch.reduces.filter fun q => !decide (q.group = r.group ∧ q.seq = r.seq)
    exch.slots := s.exch.slots.filter fun q => !decide (q.group = r.group ∧ q.seq = r.seq)
    exch.completed := addNew (r.group, r.seq) s.exch.completed }
  let u := respond (settleDisable t) r.mailbox status detail
    [(8, 1, stopped), (9, 1, bit f.written), (12, 3, cancel), (16, 4, f.steps), (20, 4, f.nonfinite), (24, 4, f.saturated),
     (32, 8, (s.time.gtc - r.startGtc).toNat)]
  forEach r.aborts (fun t m => respond t m stAlreadyDone 0 []) u

def noCancel : Nat := 0xFFFFFF

/-- A mismatch or protocol fault: logged, and the reduction completes with FAULT (R187, R191). -/
def faultReduce (s : State) (r : Reduce) (detail cancel : Nat) : State :=
  let t := logReport s clExchange (srcOf 4 0) detail
  endReduce t r stFault (newestIndex t) 0 cancel

/-- CANCEL to every rank of the group, and the rank's own end with OK and stopped = 1 (R204). -/
def cancelReduce (s : State) (r : Reduce) : State :=
  let t := forEach (List.range r.ranks) (fun u o => sendEx u r o 0x33 ExRec.blank) s
  endReduce t r stOk 0 1 noCancel

/-- The write phase of a reduction has begun (R198). -/
def phaseBegun (r : Reduce) : Bool := (formedOf r).written

/-- Writes of a reduction's result that the capture unit has not yet taken in. -/
def writesWait (s : State) (r : Reduce) : Bool :=
  let mine (h : Held) : Bool := h.acc.master = .exchange &&
    decide (r.dst ≤ h.acc.line.toNat + 63 ∧ h.acc.line.toNat < r.dst + (formedOf r).bytes)
  s.cap.held.any mine || s.cap.oldReads.any fun o => o.recs.any mine

/-- The write phase has ended: the capture unit has taken its writes in, or PHASE HELD holds them past the stop (R19,
R205; log entry 82). -/
def phaseEnded (s : State) (r : Reduce) : Bool := !writesWait s r || phaseNow s = phHeld

/-! ### The wide buffer and the stage slots (R193, R194) -/

/-- The int128 of an owned element. -/
def wideAt (s : State) (r : Reduce) (m i : Nat) : Int :=
  (BitVec.ofNat 128 (leNat (s.mem.bytes (r.scratch + 16 * (256 * m + i)) 16))).toInt

def int128Bytes (v : Int) : List Byte := leBytes 16 (BitVec.ofInt 128 v).toNat

/-- Metadata of an owned block (R194). -/
def metaBytes (b : ExBlock) : List Byte :=
  leBytes 4 b.received ++ leBytes 4 b.spills ++ leBytes 2 (BitVec.ofInt 16 (b.x.getD 0)).toNat ++
    leBytes 2 (BitVec.ofInt 16 b.q).toNat ++ List.replicate 20 0 ++ leBytes 32 b.nan.toNat ++ leBytes 32 b.posInf.toNat ++
    leBytes 32 b.negInf.toNat

def writeMeta (s : State) (r : Reduce) (m : Nat) (b : ExBlock) : State :=
  { s with mem := s.mem.write (r.scratch + 4096 * ownBlocks r + 128 * m) (metaBytes b) }

/-- Put an owned block back, with its metadata. -/
def setBlock (s : State) (r : Reduce) (m : Nat) (b : ExBlock) : State :=
  writeMeta (setReduce s { r with blocks := r.blocks.set m b }) r m b

/-- Spill a slot: its sums are added into the wide buffer, or written there by a block's first spill (R193). -/
def spill (s : State) (c : StageSlot) : State :=
  match reduceOf s c.group c.seq with
  | none => s
  | some r => match r.blocks[c.block]? with
    | none => s
    | some b =>
      let vs := c.sums.zipIdx.map fun vi => if b.spills = 0 then vi.1 else vi.1 + wideAt s r c.block vi.2
      let t := { s with mem := s.mem.write (r.scratch + 4096 * c.block) (vs.flatMap int128Bytes) }
      setBlock t r c.block { b with spills := b.spills + 1 }

def isSlot (r : Reduce) (m : Nat) (c : StageSlot) : Bool := decide (c.group = r.group ∧ c.seq = r.seq ∧ c.block = m)

/-- A sum that an integer slot cannot hold (R193). -/
def int32Overflow (v : Int) : Bool := decide (v < -2147483648 ∨ 2147483647 < v)

/-- Add one converted block into its stage slot: the slot that holds the block, a free one, or the one least recently
added to, once spilled. A slot spills at a count of 255 and at the block's last contribution (R193). -/
def addBlock (s : State) (g : U16) (q : U32) (m : Nat) (vals : List Int) : State :=
  match reduceOf s g q with
  | none => s
  | some r =>
    let held := s.exch.slots.find? (isSlot r m)
    let s1 := match held with
      | some c =>
        if isIntReduce r ∧ (List.zipWith (· + ·) c.sums vals).any int32Overflow then
          spill { s with exch.slots := s.exch.slots.filter fun d => !isSlot r m d } c
        else s
      | none => match s.exch.slots with
        | c :: rest => if 64 ≤ s.exch.slots.length then spill { s with exch.slots := rest } c else s
        | [] => s
    let slot := match s1.exch.slots.find? (isSlot r m) with
      | some c => { c with sums := List.zipWith (· + ·) c.sums vals, count := c.count + 1 }
      | none => { group := g, seq := q, block := m, count := 1, sums := vals }
    let rest := s1.exch.slots.filter fun d => !isSlot r m d
    let last : Bool := match (reduceOf s1 g q).bind fun r1 => r1.blocks[m]? with
      | some b => decide (b.received = r.contributions)
      | none => false
    if slot.count = 255 ∨ last = true then spill { s1 with exch.slots := rest } slot
    else { s1 with exch.slots := rest ++ [slot] }

/-- Bits of a block's values that satisfy a test. -/
def markBits (vs : List FVal) (p : FVal → Bool) : BitVec 256 :=
  maskOf 256 (vs.zipIdx.filterMap fun vi => if p vi.1 then some vi.2 else none)

/-- The bitmaps with a contribution's NaN and infinities (R196). -/
def markBlock (b : ExBlock) (vs : List FVal) : ExBlock :=
  { b with
    nan := b.nan ||| markBits vs FVal.isNan
    posInf := b.posInf ||| markBits vs (fun v => v == .inf false)
    negInf := b.negInf ||| markBits vs (fun v => v == .inf true) }

def pad256 (vs : List FVal) : List FVal := vs ++ List.replicate (256 - vs.length) zeroVal

/-- Take one contribution to an owned block (R189 step 4, R192). -/
def contribute (s : State) (g : U16) (q : U32) (m : Nat) (vs : List FVal) : State :=
  match reduceOf s g q with
  | none => s
  | some r => match r.blocks[m]? with
    | none => s
    | some b =>
      let t := setBlock s r m { markBlock b vs with received := b.received + 1 }
      addBlock t g q m ((pad256 vs).map (toBlock b.q))

/-! ### Step 2: the scale (R185, R189, R197) -/

/-- Reserved exponents (R183). -/
def zeroQ : Int := -32768

def invalidQ : Int := 32767

/-- An exponent as stored (log entry 41). -/
def storedQ (q : Int) : U16 := if q = zeroQ ∨ (-32768 < q ∧ q < 32767) then BitVec.ofInt 16 q else Config.freeExponent q

def blockFixed : Nat := 0xC

/-- Value of a block-fixed element under an exponent (R183). -/
def fixedVal (a : U64) (q : U16) : FVal :=
  if q = 0x8000 then zeroVal else if q = 0x7FFF then .nan else blockVal a.toInt q.toInt

/-- Address of the exponent of a block of a block-fixed array of `e` elements (R184). -/
def fixedExp (base e m : Nat) : Nat := base + 2048 * ((e + 255) / 256) + 2 * m

/-- Old destination of an owned block (R197); one element under TOTAL (log entry 42). -/
def oldVals (s : State) (r : Reduce) (m : Nat) : List FVal :=
  let len := (sliceOf r r.rank).2
  let n := if r.total then (if m = 0 then 1 else 0) else if len - 256 * m < 256 then len - 256 * m else 256
  if r.dstFormat = blockFixed then
    let q : U16 := BitVec.ofNat 16 (leNat (unitRead s (fixedExp r.dst len m) 2))
    (chunks 8 (unitRead s (r.dst + 2048 * m) 2048)).map fun c => fixedVal (BitVec.ofNat 64 (leNat c)) q
  else plainVals r.dstFormat (unitRead s (r.dst + 256 * m * elemBytes r.dstFormat) (n * elemBytes r.dstFormat))

/-- The scale exponent of an old value: a block-fixed element may have one outside 1 to 254 (R185). -/
def epsOld (format : Nat) (v : FVal) : Option Int :=
  if format = blockFixed then
    match v with
    | .num _ m e => if m = 0 then none else some (floorLog m e + 127)
    | _ => none
  else epsVal v

/-- The owner fixes X and Q of every block, writes the metadata, and sends GRANT to every rank (R189 step 2). -/
def grantNow (s : State) (r : Reduce) : State :=
  let olds := (List.range r.blocks.length).map fun m => if r.add then oldVals s r m else []
  let withOld := List.zipWith (fun (b : ExBlock) vs =>
    (b, vs, vs.foldl (fun m v => maxOpt m (epsOld r.dstFormat v)) b.x)) r.blocks olds
  let common := withOld.foldl (fun m p => maxOpt m p.2.2) none
  let bs := withOld.map fun p =>
    let x := if r.total then common else p.2.2
    let q := match x with | none => zeroQ | some v => v - 181
    let b := markBlock p.1 p.2.1
    { b with x := x, q := q, old := p.2.1.map (toBlock q) }
  let r1 := { r with blocks := bs, granted := true }
  let t := forEach bs.zipIdx (fun u bi => writeMeta u r1 bi.2 bi.1) (setReduce s r1)
  forEach (List.range r.ranks) (fun u o =>
    sendEx u r1 o 0x31 { ExRec.blank with
      first := BitVec.ofNat 64 (r.elemBase + (sliceOf r r.rank).1)
      covered := BitVec.ofNat 32 (sliceOf r r.rank).2 }) t

/-! ### Reads of a rebuild target (R261) -/

/-- Lines that a read of some bytes touches. -/
def linesOf (a n : Nat) : List Nat := (List.range ((a + n + 63) / 64 - a / 64)).map fun i => (a / 64 + i) * 64

/-- Lines a source supplies for the segments of an owner's slice. -/
def sourceLines (r : Reduce) (o : Nat) : List Nat :=
  (segmentsOf r o).flatMap fun seg => r.sources.flatMap fun x =>
    if x.format = compressedFormat then linesOf (x.addr + 16448 * (seg.1 / 4096)) 16448
    else linesOf (x.addr + seg.1 * elemBytes x.format) (seg.2 * elemBytes x.format)

/-- Lines that a part of a reduction reads. -/
def workLines (r : Reduce) : ExWork → List Nat
  | .exps => (ownersOf r).flatMap (sourceLines r)
  | .data o => sourceLines r o
  | .grant =>
    let len := (sliceOf r r.rank).2
    if !r.add then []
    else if r.dstFormat = blockFixed then linesOf r.dst (2050 * ((len + 255) / 256))
    else linesOf r.dst ((if r.total then 1 else len) * elemBytes r.dstFormat)

/-- Lines of a list that are not yet rebuilt. -/
def blockedLines (s : State) (ls : List Nat) : List Nat := if rebuilding s then ls.filter (notRebuilt s) else []

def runWork (s : State) (r : Reduce) : ExWork → State
  | .exps => forEach (ownersOf r) (fun u o => sendExps u r o) s
  | .grant => grantNow s r
  | .data o => sendData (setReduce s { r with sentTo := r.sentTo ++ [o] }) r o

/-- Do what is due of a reduction, but for what reads a line that is not rebuilt: that line's reconstruction starts
(R261). -/
def wakeReduce (s : State) (g : U16) (q : U32) : State :=
  match reduceOf s g q with
  | none => s
  | some r0 => forEach r0.waits (fun t w =>
      match reduceOf t g q with
      | none => t
      | some r =>
        match blockedLines t (workLines r w) with
        | [] => runWork (setReduce t { r with waits := r.waits.erase w }) { r with waits := r.waits.erase w } w
        | ls => forEach ls startRead t) s

/-- A part of a reduction falls due. -/
def dueWork (s : State) (r : Reduce) (ws : List ExWork) : State :=
  wakeReduce (setReduce s { r with waits := r.waits ++ ws }) r.group r.seq

/-! ### EXCH_REDUCE (R186 to R189) -/

def emptyBlock : ExBlock :=
  { x := none, q := 0, received := 0, spills := 0, nan := 0, posInf := 0, negInf := 0, old := [] }

/-- No region has a byte in the range. -/
def clearOfRegions (s : State) (a n : Nat) : Bool :=
  s.tier.regions.all fun g => (regionHomes g).all fun h => decide (a + n ≤ h.1 ∨ h.1 + h.2.1 ≤ a)

/-- The reduction that a descriptor describes. -/
def reduceFrom (s : State) (mb : Fin 8) (ranks rank : Nat) (d : List Byte) : Reduce :=
  let fl := fldAt d 30 1
  let srcs := (List.range (fldAt d 28 1)).map fun i =>
    let x : ExSource := { addr := fldAt d (64 + 16 * i) 8, format := fldAt d (72 + 16 * i) 1 }
    x
  let r : Reduce :=
    { mailbox := mb, group := BitVec.ofNat 16 (fldAt d 2 2), seq := BitVec.ofNat 32 (fldAt d 4 4), ranks := ranks,
      rank := rank, elemBase := fldAt d 8 8, elements := fldAt d 16 4, shardLen := fldAt d 20 4,
      contributions := fldAt d 24 4, dstFormat := fldAt d 29 1, add := fl.testBit 0, sat := fl.testBit 1,
      noWrite := fl.testBit 2, total := fl.testBit 3, dst := fldAt d 32 8, scratch := fldAt d 40 8, sources := srcs,
      exps := [], granted := false, sentTo := [], blocks := [], waits := [], formed := none, stop := .none, aborts := [],
      cancelBy := none, startGtc := s.time.gtc }
  { r with blocks := List.replicate (ownBlocks r) emptyBlock }

/-- A source format, and whether it is an integer one (R186). -/
def sourceFormats : List Nat := [0, 1, 2, 3, 4, 0xA, 0xB, compressedFormat]

def destFormats : List Nat := [0, 1, 2, 0xB, blockFixed]

/-- Offset of the first field of a source entry that breaks R186 or R187. -/
def sourceFault (intRed : Bool) (d : List Byte) (i : Nat) : Option Nat :=
  let o := 64 + 16 * i
  let f := fldAt d (o + 8) 1
  if fldAt d o 8 % 64 ≠ 0 then some o
  else if ¬ sourceFormats.contains f ∨ intFormat f ≠ intRed then some (o + 8)
  else if fldAt d (o + 9) 7 ≠ 0 then some (o + 9) else none

/-- Offset in the descriptor of the first field that breaks R186 or R187; `g` is the group's size and own rank. -/
def reduceFault (s : State) (p : Plan) (g : Option (Nat × Nat)) (d : List Byte) : Option Nat :=
  match g with
  | none => if fldAt d 0 2 ≠ 1 then some 0 else some 2
  | some gr =>
    let r := reduceFrom s 0 gr.1 gr.2 d
    let need := 4224 * ownBlocks r
    if fldAt d 0 2 ≠ 1 then some 0
    else if gr.1 = 0 ∨ 131072 < gr.1 then some 2
    else if (reduceOf s r.group r.seq).isSome then some 4
    else if r.elemBase % 4096 ≠ 0 then some 8
    else if r.elements = 0 ∨ 2 ^ 28 < r.elements ∨ (r.total ∧ 2 ^ 20 < r.elements) ∨
        (¬ r.total ∧ gr.1 * r.shardLen < r.elements) then some 16
    else if ¬ r.total ∧ r.shardLen % 4096 ≠ 0 then some 20
    else if r.contributions = 0 ∨ 2 ^ 24 < r.contributions then some 24
    else if r.sources.length = 0 ∨ 16 < r.sources.length then some 28
    else if ¬ destFormats.contains r.dstFormat ∨ (r.total ∧ r.dstFormat ≠ 0) then some 29
    else if 16 ≤ fldAt d 30 1 then some 30
    else if fldAt d 31 1 ≠ 0 then some 31
    else if r.dst % 64 ≠ 0 then some 32
    else if r.scratch % 64 ≠ 0 ∨ ¬ inNear p r.scratch need ∨ ¬ clearOfRegions s r.scratch need then some 40
    else if fldAt d 48 8 < need then some 48
    else if fldAt d 56 8 ≠ 0 then some 56
    else (List.range r.sources.length).findSome? (sourceFault (isIntReduce r) d)

/-- Size of a group and the own rank in it (R186, R188). -/
def groupPlace (s : State) (id : U16) : Option (Nat × Nat) :=
  (planGroup s id).bind fun g =>
    (g.ranks.findIdx? fun r => currentDie s r = ownRank s).map fun i => (g.ranks.length, i)

/-- A disable is still being carried out (R345). -/
def exchStopping (s : State) : Bool :=
  (s.exch.reduces.any fun r => r.stop = .disable) ||
    match s.exch.compress with
    | some c => c.stop = .disable
    | none => false

/-- The unit takes no command: its enable is clear, it has stopped, or it is stopping (R204, R345). -/
def exchOff (s : State) : Bool := s.ctrl.exchEn.get = 0 || s.exch.disabled || exchStopping s

def reduceStart (mb : Fin 8) (t : TakenCmd) (s : State) : State :=
  match s.job.plan with
  | none => wrongState s mb
  | some p =>
    let a := fld t.cmd 8 8
    if exchOff s then wrongState s mb
    else if 4 ≤ s.exch.reduces.length then busyWith s mb (s.exch.reduces.head?.map Reduce.mailbox)
    else if a % 64 ≠ 0 ∨ ¬ inNear p a 64 then badArg s mb 8
    else
      let d := s.mem.bytes a 320
      let g := groupPlace s (BitVec.ofNat 16 (fldAt d 2 2))
      match reduceFault s p g d, g with
      | some o, _ => badBlock s mb o
      | none, none => badBlock s mb 2
      | none, some gr =>
        let r := reduceFrom s mb gr.1 gr.2 d
        let s1 := accepted s mb
        let s2 := { s1 with
          exch.reduces := s1.exch.reduces ++ [r]
          exch.completed := s1.exch.completed.filter fun e => e ≠ (r.group, r.seq)
          exch.ended := s1.exch.ended.filter fun e => e.1 ≠ r.group }
        if isIntReduce r then
          let s3 := forEach r.blocks.zipIdx (fun u bi => writeMeta u r bi.2 bi.1) s2
          dueWork s3 r ((ownersOf r).map ExWork.data)
        else dueWork s2 r [.exps]

/-- EXCH_REDUCE (R186 to R189, R203). -/
def execExchReduce (src : CmdSrc) (s : State) : Out := mailboxRow 0x0D reduceStart src s

/-! ### Records that arrive (R190 to R192, R204, R282) -/

/-- Answer an offered record (R282). -/
def answerOffer (s : State) (accept : Bool) : State := { s with out.fbp := s.out.fbp ++ [.answer accept] }

/-- A record for a running reduction is accepted; one that names no reduction of the instance is refused; one of a
stopped reduction is left unanswered; one of a completed reduction is accepted, dropped and logged. In Autumn, and
until Spring has powered the unit, every record is refused; with FBP absent there is no answer (R191, R282, R383). -/
def onRecord (s : State) (x : ExRec) (f : State → Reduce → State) : State :=
  if !s.ports.fbp then s
  else if !exchOpen s then answerOffer s false
  else match reduceOf s x.group x.seq with
    | some r => if r.stop = .none then f (answerOffer s true) r else s
    | none =>
      if (x.group, x.seq) ∈ s.exch.completed ∨ (x.group, x.seq) ∈ s.exch.ended then
        logReport (count (answerOffer s true) cntExchDrop) clExchange (srcOf 4 0) x.sender.toNat
      else answerOffer s false

/-- Where a record's elements lie in the own slice: first block, if the record fits the slice. -/
def slicePlace (r : Reduce) (x : ExRec) (step : Nat) : Option Nat :=
  let sl := sliceOf r r.rank
  let at_ := x.first.toNat - (r.elemBase + sl.1)
  if r.elemBase + sl.1 ≤ x.first.toNat ∧ at_ % step = 0 ∧ 0 < x.covered.toNat ∧ at_ + x.covered.toNat ≤ sl.2 then
    some (at_ / 256) else none

def expWork (s : State) (x : ExRec) (r : Reduce) : State :=
  let prev := r.exps.find? fun e => e.1 = x.sender.toNat
  let before := match prev with | some e => e.2.2 | none => 0
  let cnt := match prev with | some e => e.2.1 | none => x.count.toNat
  match slicePlace r x 256 with
  | none => faultReduce s r x.sender.toNat noCancel
  | some m =>
    if isIntReduce r ∨ r.granted ∨ r.ranks ≤ x.sender.toNat ∨ cnt ≠ x.count.toNat ∨
        x.payload.length ≠ (x.covered.toNat + 255) / 256 ∨ (sliceOf r r.rank).2 < before + x.covered.toNat then
      faultReduce s r x.sender.toNat noCancel
    else
      let entry := (x.sender.toNat, cnt, before + x.covered.toNat)
      let exps := match prev with
        | some _ => replaceFirst (fun e => decide (e.1 = x.sender.toNat)) (fun _ => entry) r.exps
        | none => r.exps ++ [entry]
      let raise (b : ExBlock) (i : Nat) : ExBlock :=
        if m ≤ i then
          match x.payload[i - m]? with
          | some e => if e = 0 then b else { b with x := maxOpt b.x (some e.toNat) }
          | none => b
        else b
      let r1 := { r with exps := exps, blocks := r.blocks.zipIdx.map fun bi => raise bi.1 bi.2 }
      let done := exps.length = r.ranks ∧ exps.all fun e => e.2.2 = (sliceOf r r.rank).2
      if ¬ done then setReduce s r1
      else if (exps.map fun e => e.2.1).sum ≠ r.contributions then faultReduce s r x.sender.toNat noCancel
      else dueWork s r1 [.grant]

/-- EXP: the owner gathers scale exponents; once every rank's records cover its blocks it fixes X and sends GRANT
(R189). -/
def execExp (r : ExRec) (s : State) : Out := .next (onRecord s r fun s q => expWork s r q)

/-- GRANT: the rank sends its DATA records to the owner (R189 step 3). -/
def execGrant (r : ExRec) (s : State) : Out :=
  .next (onRecord s r fun s q =>
    let o := r.sender.toNat
    if isIntReduce q ∨ ¬ (ownersOf q).contains o ∨ q.sentTo.contains o ∨ q.waits.contains (.data o) then
      faultReduce s q o noCancel
    else dueWork s q [.data o])

/-- The DATA record fits the reduction: format, segment and payload length. -/
def dataFits (r : Reduce) (x : ExRec) : Bool :=
  let f := x.format.toNat
  let seg := if (sliceOf r r.rank).2 ≤ x.first.toNat - (r.elemBase + (sliceOf r r.rank).1) + 4096 then
      (sliceOf r r.rank).2 - (x.first.toNat - (r.elemBase + (sliceOf r r.rank).1)) else 4096
  sourceFormats.contains f && intFormat f == isIntReduce r && decide (x.compressed = (f == compressedFormat)) &&
    decide (x.sender.toNat < r.ranks) && decide (x.covered.toNat = seg) &&
    decide (x.payload.length = if f = compressedFormat then fldAt x.payload 4 4 else x.covered.toNat * elemBytes f)

/-! ### The result (R195 to R198) -/

/-- The exact sum of an owned element: the wide buffer and the old destination (R195). -/
def blockSums (s : State) (r : Reduce) (m : Nat) (b : ExBlock) : List Int :=
  (List.range 256).map fun i => (if b.spills = 0 then 0 else wideAt s r m i) + b.old.getD i 0

/-- What the non-finite rule makes of an element: NaN, an infinity, or its sum (R196). -/
def elemVal (nan pos neg : Bool) (t : Int) (q : Int) : FVal :=
  if nan || (pos && neg) then .nan else if pos then .inf false else if neg then .inf true
  else if q = zeroQ then zeroVal else blockVal t q

/-- A value in a scalar destination format; an infinity stays one whatever SAT says (R160, R196). -/
def destCode (f : Fmt) (sat : Bool) (v : FVal) : Nat :=
  encode f .rne (match v with | .num _ _ _ => sat | _ => false) v

/-- The least step at which every sum of a block fits 64 bits, trying at most `fuel` (R195). -/
def leastStep : Nat → Nat → List Int → Nat
  | 0, s, _ => s
  | fuel + 1, s, ts =>
    if ts.all (fun t => decide (-(2 ^ 63) ≤ rneShift t s ∧ rneShift t s ≤ 2 ^ 63 - 1)) then s
    else leastStep fuel (s + 1) ts

def fixedInvalid : List Byte × List Byte :=
  ((List.range 256).flatMap fun _ => leBytes 8 (2 ^ 63), leBytes 2 0x7FFF)

def fixedZero : List Byte × List Byte := (List.replicate 2048 0, leBytes 2 0x8000)

/-- Bytes, exponent and steps of a block-fixed result of `n` owned elements (R195, R196). -/
def fixedResult (b : ExBlock) (n : Nat) (ts : List Int) : (List Byte × List Byte) × Nat :=
  let ts := ts.zipIdx.map fun ti => if ti.2 < n then ti.1 else 0
  if b.nan ≠ 0 ∨ b.posInf ≠ 0 ∨ b.negInf ≠ 0 then (fixedInvalid, 0)
  else if b.q = zeroQ ∨ ts.all (fun t => t = 0) then (fixedZero, 0)
  else
    let k := leastStep 36 0 ts
    ((ts.flatMap fun t => leBytes 8 (BitVec.ofInt 64 (rneShift t k)).toNat, leBytes 2 (storedQ (b.q + k)).toNat), k)

/-- A result to write: bytes from the destination on, steps, elements not finite, elements saturated. -/
structure Result where
  bytes : List Byte
  steps : Nat
  nonfinite : Nat
  saturated : Nat
deriving DecidableEq, Repr

/-- Owned elements of a block. -/
def blockLen (r : Reduce) (m : Nat) : Nat :=
  let len := (sliceOf r r.rank).2
  if len - 256 * m < 256 then len - 256 * m else 256

def scalarResult (f : Fmt) (sat : Bool) (vs : List FVal) : Result :=
  let cs := vs.map (destCode f sat)
  { bytes := cs.flatMap (leBytes (f.width / 8)), steps := 0,
    nonfinite := (cs.filter fun c => !(decodeF f c).finite).length, saturated := 0 }

/-- Whether any block has the bit set: under TOTAL the bitmaps of all elements meet in one result. -/
def anyMark (bs : List ExBlock) (p : ExBlock → BitVec 256) : Bool := bs.any fun b => p b ≠ 0

/-- The result of the owned slice (R195, R196). -/
def reduceResult (s : State) (r : Reduce) : Result :=
  let sums := r.blocks.zipIdx.map fun bi => blockSums s r bi.2 bi.1
  if r.total then
    let q := match r.blocks with | b :: _ => b.q | [] => zeroQ
    let total := (sums.map fun l => l.foldl (· + ·) 0).foldl (· + ·) 0
    scalarResult fp32 r.sat
      [elemVal (anyMark r.blocks ExBlock.nan) (anyMark r.blocks ExBlock.posInf) (anyMark r.blocks ExBlock.negInf) total q]
  else if r.dstFormat = blockFixed then
    let rs := (List.zip r.blocks sums).zipIdx.map fun bt => (fixedResult bt.1.1 (blockLen r bt.2) bt.1.2, blockLen r bt.2, bt.1.1)
    { bytes := rs.flatMap (fun p => p.1.1.1) ++ rs.flatMap (fun p => p.1.1.2)
      steps := (rs.map fun p => p.1.2).sum
      nonfinite := (rs.map fun p => if p.1.1.2 = leBytes 2 0x7FFF then p.2.1 else 0).sum
      saturated := 0 }
  else if isIntReduce r then
    let ts := sums.zipIdx.flatMap fun ti =>
      let old := if r.add then oldVals s r ti.2 else []
      (ti.1.zipIdx.map fun v => v.1 + toBlock 0 (old.getD v.2 zeroVal)).take (blockLen r ti.2)
    { bytes := ts.flatMap fun t => leBytes 4 (satI32 t).toNat, steps := 0, nonfinite := 0,
      saturated := (ts.filter int32Overflow).length }
  else
    let vs := (List.zip r.blocks sums).zipIdx.flatMap fun bt =>
      (bt.1.2.zipIdx.map fun ti =>
        elemVal (bt.1.1.nan.getLsbD ti.2) (bt.1.1.posInf.getLsbD ti.2) (bt.1.1.negInf.getLsbD ti.2) ti.1 bt.1.1.q).take
          (blockLen r bt.2)
    match scalarFmt r.dstFormat with
    | some f => scalarResult f r.sat vs
    | none => { bytes := [], steps := 0, nonfinite := 0, saturated := 0 }

/-- Every owned block has its contributions (R189 step 5). -/
def blocksFull (r : Reduce) : Bool := r.blocks.all fun b => b.received = r.contributions

/-- Step 5: once every owned block has its contributions the results are formed, and the write phase begins unless
NOWRITE discards them; non-finite elements are counted where they are written (R189, R196, R198). -/
def formResults (s : State) (g : U16) (q : U32) : State :=
  match reduceOf s g q with
  | none => s
  | some r =>
    if r.formed.isSome ∨ r.blocks = [] ∨ !blocksFull r then s
    else
      let w := reduceResult s r
      let f : Formed := { written := !r.noWrite, bytes := w.bytes.length, steps := w.steps,
                          nonfinite := if r.noWrite then 0 else w.nonfinite, saturated := w.saturated }
      let t := setReduce (countN s cntExchSteps w.steps) { r with formed := some f }
      if r.noWrite then t else unitWrite t .exchange r.dst w.bytes

def dataWork (s : State) (x : ExRec) (r : Reduce) : State :=
  match slicePlace r x 4096 with
  | none => faultReduce s r x.sender.toNat noCancel
  | some m =>
    let blocks := chunks 256 (payloadVals x.format.toNat x.payload x.covered.toNat)
    if (¬ isIntReduce r ∧ ¬ r.granted) ∨ ¬ dataFits r x ∨
        ((List.range blocks.length).any fun i => match r.blocks[m + i]? with
          | some b => decide (r.contributions ≤ b.received)
          | none => true) then
      faultReduce s r x.sender.toNat noCancel
    else
      formResults (forEach blocks.zipIdx (fun t vi => contribute t x.group x.seq (m + vi.2) vi.1) s) x.group x.seq

/-- DATA: converted and added, block by block; the last contribution begins step 5 (R189, R191 to R193). -/
def execData (r : ExRec) (s : State) : Out := .next (onRecord s r fun s q => dataWork s r q)

/-- CANCEL: the reduction completes with FAULT, naming the cancelling rank, once a write phase that has begun has ended
(R204). -/
def execCancel (r : ExRec) (s : State) : Out :=
  .next (onRecord s r fun s q =>
    if phaseEnded s q then faultReduce s q r.sender.toNat r.sender.toNat
    else setReduce s { q with stop := .fault, cancelBy := some r.sender.toNat })

/-- The own records have been handed over (R189 step 6). -/
def recordsGone (r : Reduce) : Bool := r.waits.isEmpty && (ownersOf r).all fun o => r.sentTo.contains o

/-- ABORTs that waited for the write phase are answered once it has ended, while the command goes on (R331). -/
def answerAborts (s : State) (r : Reduce) : State :=
  forEach r.aborts (fun t m => respond t m stAlreadyDone 0 []) (setReduce s { r with aborts := [] })

/-- What ends a reduction whose write phase, if any, has ended: normal completion; after a disable CANCEL to the ranks
it still owes records; or the status of what stopped it (R198, R204, R205, R224, R229). -/
def finishReduce (s : State) (r : Reduce) : State :=
  match r.stop with
  | .none => if blocksFull r ∧ recordsGone r then endReduce s r stOk 0 0 noCancel else answerAborts s r
  | .lost => endReduce s r stLostMember s.agree.removed.toNat 0 noCancel
  | .coreLost => endReduce s r stLostMember s.agree.removed.toNat 0 noCancel
  | .noQuorum => endReduce s r stNoQuorum (liveSet s).toNat 0 noCancel
  | .fault => match r.cancelBy with
    | some c => faultReduce s r c c
    | none => endReduce s r stFault (newestIndex s) 0 noCancel
  | .abort => cancelReduce s r
  | .disable => if blocksFull r ∧ recordsGone r then endReduce s r stOk 0 0 noCancel else cancelReduce s r
  | .coreReset => cancelReduce s r

/-- EXCH_REDUCE_COMPLETE: the command completes once step 5 has ended on the rank and its own records have been handed
over; a stopped one completes once a write phase that has begun has ended (R189, R198, R204, R205, R229). -/
def execExchReduceComplete (group : U16) (seq : U32) (s : State) : Out :=
  .next (
    let s := wakeReduce s group seq
    match reduceOf s group seq with
    | none => s
    | some r => if phaseEnded s r then finishReduce s r else s)

/-! ### Compression (R199 to R202, R206) -/

/-- Numerator over denominator rounded once to FP32: 65 more bits than asked, the lowest sticky. -/
def divRound (m : Nat) (e : Int) (p : Nat) : U32 :=
  let n := m * 2 ^ 64
  toBits (.num false (2 * (n / p) + (if n % p = 0 then 0 else 1)) (e - 65))

/-- Magnitude of an FP32 pattern. -/
def magOf (w : U32) : Nat := w.toNat % 2 ^ 31

def finiteBits (w : U32) : Bool := decide (magOf w < 0x7F800000)

/-- Element `i` is among the `k` of largest magnitude, ties to the lower index (R201 step 3). -/
def isKept (ms : List Nat) (k i : Nat) : Bool :=
  let m := ms.getD i 0
  decide (m ≠ 0) && decide ((ms.zipIdx.filter fun q => decide (m < q.1 ∨ (q.1 = m ∧ q.2 < i))).length < k)

/-- What a compression block yields: its record, its residual, and how it was sent. -/
structure Squeezed where
  record : List Byte
  residual : List U32
  nonfinite : Bool
  saturated : Bool
deriving DecidableEq, Repr

def recordHead (kind vf k len : Nat) (sigma : U32) : List Byte :=
  leBytes 1 kind ++ leBytes 1 vf ++ leBytes 2 k ++ leBytes 4 len ++ leBytes 4 sigma.toNat ++ leBytes 4 0

def denseRecord (vs : List U32) : List Byte :=
  recordHead 0 0 0 16400 0 ++ (vs ++ List.replicate (4096 - vs.length) 0).flatMap fun (v : U32) => leBytes 4 v.toNat

def bf16Of (v : U32) : Nat := encode bf16 .rne false (ofBits v)

def topkBlock (vf k : Nat) (vs : List U32) : Squeezed :=
  let ms := vs.map magOf
  let kept := (List.range vs.length).filter (isKept ms k)
  let sent (v : U32) : FVal := if vf = 1 then decodeF bf16 (bf16Of v) else ofBits v
  let body := padTo 4 (kept.flatMap fun i => leBytes 2 i) ++
    padTo 4 (kept.flatMap fun i => if vf = 1 then leBytes 2 (bf16Of (vs.getD i 0)) else leBytes 4 (vs.getD i 0).toNat)
  let len := 16 + body.length
  if 16400 < len then { record := denseRecord vs, residual := vs.map fun _ => 0, nonfinite := false, saturated := true }
  else
    { record := recordHead 1 vf kept.length len 0 ++ body
      residual := vs.zipIdx.map fun vi =>
        if kept.contains vi.2 then toBits (fAdd (ofBits vi.1) (fNeg (sent vi.1))) else vi.1
      nonfinite := false
      saturated := false }

def signBlock (vs : List U32) : Squeezed :=
  let sum := vs.foldl (fun a v => fAdd a (fAbs (ofBits v))) zeroVal
  let sigma := match sum with | .num _ m e => divRound m e vs.length | _ => 0
  let neg (v : U32) : Bool := v.getLsbD 31
  let bits := (List.range 512).map fun i =>
    maskOf 8 ((List.range 8).filter fun j => match vs[8 * i + j]? with | some v => neg v | none => false)
  { record := recordHead 2 0 0 528 sigma ++ bits
    residual := vs.map fun v => toBits (fAdd (ofBits v) (if neg v then ofBits sigma else fNeg (ofBits sigma)))
    nonfinite := false
    saturated := false }

/-- One compression block from its gradient and residual elements (R201). -/
def squeeze (mode vf k : Nat) (g r : List U32) : Squeezed :=
  let vs := List.zipWith (fun a b => toBits (fAdd (ofBits a) (ofBits b))) g r
  if !(vs.all finiteBits) then
    { record := denseRecord vs, residual := vs.map fun _ => 0, nonfinite := true, saturated := false }
  else if mode = 1 then topkBlock vf k vs else signBlock vs

def wordsOf (bs : List Byte) : List U32 := (chunks 4 bs).map fun c => BitVec.ofNat 32 (leNat c)

/-- Compression blocks of the range. -/
def compressBlocks (c : Compress) : Nat := (c.elements + 4095) / 4096

/-- Lines the next compression block reads. -/
def compressLines (c : Compress) : List Nat :=
  let n := if c.elements - 4096 * c.block < 4096 then c.elements - 4096 * c.block else 4096
  linesOf (c.grad + 16384 * c.block) (4 * n) ++ linesOf (c.resid + 16384 * c.block) (4 * n)

/-- Process the next compression block; one that reads a line not yet rebuilt waits for it (R200, R201, R261). -/
def compressOne (s : State) : State :=
  match s.exch.compress with
  | none => s
  | some c =>
    if blockedLines s (compressLines c) ≠ [] then forEach (blockedLines s (compressLines c)) startRead s
    else
    let n := if c.elements - 4096 * c.block < 4096 then c.elements - 4096 * c.block else 4096
    let q := squeeze c.mode c.valueFormat c.k (wordsOf (unitRead s (c.grad + 16384 * c.block) (4 * n)))
      (wordsOf (unitRead s (c.resid + 16384 * c.block) (4 * n)))
    let s1 := unitWrite s .exchange (c.out + 16448 * c.block) q.record
    let s2 := unitWrite s1 .exchange (c.resid + 16384 * c.block) (q.residual.flatMap fun v => leBytes 4 v.toNat)
    let c1 := { c with
      block := c.block + 1
      nonfinite := c.nonfinite + bit q.nonfinite
      saturated := c.saturated + bit q.saturated
      bytesOut := c.bytesOut + q.record.length }
    { s2 with exch.compress := some c1 }

def compressMany : Nat → State → State
  | 0, s => s
  | n + 1, s => compressMany n (compressOne s)

/-- Offset of the first field of a compression descriptor that breaks R199. -/
def compressFault (d : List Byte) : Option Nat :=
  let mode := fldAt d 2 1
  let blocks := (fldAt d 16 4 + 4095) / 4096
  if fldAt d 0 2 ≠ 1 then some 0
  else if mode ≠ 1 ∧ mode ≠ 2 then some 2
  else if 1 < fldAt d 3 1 ∨ (mode = 2 ∧ fldAt d 3 1 ≠ 0) then some 3
  else if (mode = 1 ∧ (fldAt d 4 2 = 0 ∨ 4096 < fldAt d 4 2)) ∨ (mode = 2 ∧ fldAt d 4 2 ≠ 0) then some 4
  else if fldAt d 6 2 ≠ 0 then some 6
  else if fldAt d 8 8 % 4096 ≠ 0 then some 8
  else if fldAt d 16 4 = 0 ∨ 2 ^ 28 < fldAt d 16 4 then some 16
  else if blocks ≤ fldAt d 20 4 then some 20
  else if fldAt d 40 8 % 64 ≠ 0 then some 40
  else if fldAt d 48 8 < 16448 * blocks then some 48
  else if fldAt d 56 8 ≠ 0 then some 56 else none

def compressStart (mb : Fin 8) (t : TakenCmd) (s : State) : State :=
  match s.job.plan with
  | none => wrongState s mb
  | some p =>
    let a := fld t.cmd 8 8
    if exchOff s then wrongState s mb
    else match s.exch.compress with
      | some c => busyWith s mb (some c.mailbox)
      | none =>
        if a % 64 ≠ 0 ∨ ¬ inNear p a 64 then badArg s mb 8
        else
          let d := s.mem.bytes a 64
          match compressFault d with
          | some o => badBlock s mb o
          | none =>
            let c : Compress :=
              { mailbox := mb, mode := fldAt d 2 1, valueFormat := fldAt d 3 1, k := fldAt d 4 2,
                elements := fldAt d 16 4, block := fldAt d 20 4, grad := fldAt d 24 8, resid := fldAt d 32 8,
                out := fldAt d 40 8, stop := .none, aborts := [], nonfinite := 0, saturated := 0, bytesOut := 0,
                startGtc := s.time.gtc }
            let s1 := accepted s mb
            { s1 with exch.compress := some c }

/-- EXCH_COMPRESS (R199, R203). -/
def execExchCompress (src : CmdSrc) (s : State) : Out := mailboxRow 0x0E compressStart src s

/-- Results of EXCH_COMPRESS (R207, R329). -/
def compressResults (s : State) (c : Compress) (stopped : Nat) : List (Nat × Nat × Nat) :=
  [(8, 1, stopped), (12, 4, c.block), (16, 4, c.nonfinite), (20, 4, c.saturated), (24, 8, c.bytesOut),
   (32, 8, (s.time.gtc - c.startGtc).toNat)]

/-- End the compression: the response, an ABORT that waited for it, and a stop of the unit (R204, R206, R331). -/
def endCompress (s : State) (c : Compress) (status detail stopped : Nat) : State :=
  let s1 := respond (settleDisable { s with exch.compress := none }) c.mailbox status detail (compressResults s c stopped)
  forEach c.aborts (fun t m => respond t m stOk 0 [(8, 1, status)]) s1

/-- Blocks that a stopped compression still processes: the one in progress, and those finished before the stop took
effect, a matter of timing (R206; log entry 40). -/
def stopBlocks (s : State) (c : Compress) : Nat :=
  let left := compressBlocks c - c.block
  if left = 0 then 0 else 1 + Config.freeBlocks s.freeCtr % left

/-- EXCH_COMPRESS_COMPLETE: the last block is done, or the unit stops at a block boundary (R206). -/
def execExchCompressComplete (s : State) : Out :=
  .next (match s.exch.compress with
    | none => s
    | some c =>
      let n := if c.stop = .none then compressBlocks c - c.block else stopBlocks s c
      let s1 := compressMany n s
      match s1.exch.compress with
      | none => s1
      | some d =>
        let s2 := if c.stop = .none then s1 else { s1 with freeCtr := s1.freeCtr + 1 }
        match c.stop with
        | .none => if d.block < compressBlocks d then s2 else endCompress s2 d stOk 0 0
        | .lost => endCompress s2 d stLostMember s.agree.removed.toNat 0
        | .noQuorum => endCompress s2 d stNoQuorum (liveSet s).toNat 0
        | .coreLost => endCompress s2 d stLostMember s.agree.removed.toNat 0
        | .coreReset => s2
        | .fault => endCompress s2 d stFault (newestIndex s) 0
        | .abort => endCompress s2 d stOk 0 1
        | .disable => endCompress s2 d stOk 0 1)

/-! ### Stops (R204, R206) -/

/-- A disable stops a running reduction: it is cancelled at once, or after its write phase; one that a view change has
stopped keeps that stop (R204, R205). -/
def disableReduce (s : State) (r : Reduce) : State :=
  if r.stop ≠ .none then s
  else if phaseBegun r then setReduce s { r with stop := .disable }
  else cancelReduce s r

/-- Clearing EXCH_EN: running reductions are stopped, a compression stops at a block boundary, and the unit is DISABLED
once nothing runs (R204, R206). -/
def stopExchange (s : State) : State :=
  let s1 := forEach s.exch.reduces disableReduce s
  match s1.exch.compress with
  | some c => if c.stop = .none then { s1 with exch.compress := some { c with stop := .disable } } else s1
  | none => settleDisable s1

/-- A write of HY_CTRL.EXCH_EN (R204, R345): setting it again during a stop takes effect once the stop has ended. -/
def writeExchEn (s : State) (on : Bool) : State :=
  let s1 := { s with ctrl.exchEn := V3.all (bit1 on) }
  if on then { s1 with exch.disabled := false }
  else if s.ctrl.exchEn.get = 0 then s1 else stopExchange s1

end Sys2Proof.Machine
end

