-- ==== Sys2Proof/Machine/Apply.lean ====
section
/-! DEFINITION. The apply unit: recipes, tiles and vectors, the slot program, streams in memory, runs, stops and
completions (R145 to R181). -/

namespace Sys2Proof.Machine

/-! ### Slots (R168, R169) -/

/-- A field of a slot. -/
def sf (w : U64) (lo n : Nat) : Nat := w.toNat / 2 ^ lo % 2 ^ n

def isConv (w : U64) : Bool := sf w 63 1 = 1

/-- Conversion action: 0 LOAD, 1 STORE, 2 CVT. -/
def convAction (w : U64) : Nat := sf w 61 2

def isLoad (w : U64) : Bool := isConv w && convAction w = 0

def isStore (w : U64) : Bool := isConv w && convAction w = 1

def slotStream (w : U64) : Nat := sf w 58 3

/-- The operand code names a vector register or a scalar of the recipe (R168, R172). -/
def operandOk (scalars c : Nat) : Bool := decide (c < 32) || decide (64 ≤ c ∧ c - 64 < scalars)

/-- An arithmetic slot obeys R157, R168 and R172. -/
def arithOk (scalars : Nat) (w : U64) : Bool :=
  let op := sf w 60 3
  let c := sf w 25 7
  decide (op ≤ 6) && (if op = 3 then decide (sf w 56 3 ≤ 6) else sf w 56 3 = 0) && !(op = 2 && sf w 59 1 = 1) &&
    (if op = 3 then decide (1 ≤ sf w 46 3) && sf w 49 2 = 0 else true) &&
    operandOk scalars (sf w 39 7) && operandOk scalars (sf w 32 7) &&
    (if op = 2 then operandOk scalars c else if op = 4 then decide (c < 8) else c = 0) && sf w 0 25 = 0

/-- A conversion slot obeys R163, R169 and R172. -/
def convOk (scalars streams : Nat) (w : U64) : Bool :=
  let act := convAction w
  decide (act ≤ 2) && decide (slotStream w < streams) &&
    (if act = 2 then decide (sf w 54 4 ≤ 0xB) && operandOk scalars (sf w 39 7) else sf w 54 4 = 0 && sf w 39 7 = 0) &&
    decide (sf w 52 2 ≤ 1) && (act ≠ 0 || sf w 52 2 = 0) && sf w 0 39 = 0

def slotOk (scalars streams : Nat) (w : U64) : Bool := if isConv w then convOk scalars streams w else arithOk scalars w

/-- The slot sends its results to the reduction tree. -/
def isRed (w : U64) : Bool := !isConv w && sf w 51 1 = 1

/-! ### RECIPE_LOAD (R167, R170 to R172) -/

def recipeLayers (slots scalars streams : Nat) : Nat := roundUp 64 (64 + 8 * slots + 4 * scalars + 8 * streams)

def layerOf (bs : List Byte) : LayerEntry :=
  { position := BitVec.ofNat 16 (fldAt bs 0 2), elements := fldAt bs 4 4, elemBase := fldAt bs 8 8,
    bases := (List.range 8).map fun i => fldAt bs (16 + 8 * i) 8, redTileBase := fldAt bs 80 4 }

/-- The recipe an image describes. -/
def recipeOf (bs : List Byte) : Recipe :=
  let slots := fldAt bs 2 1
  let scalars := fldAt bs 3 1
  let streams := fldAt bs 4 1
  let table := recipeLayers slots scalars streams
  { id := fldAt bs 5 1
    length := table + 96 * fldAt bs 6 2
    slots := (List.range slots).map fun i => BitVec.ofNat 64 (fldAt bs (64 + 8 * i) 8)
    scalars := (List.range scalars).map fun i => BitVec.ofNat 32 (fldAt bs (64 + 8 * slots + 4 * i) 4)
    streams := (List.range streams).map fun i =>
      (fldAt bs (64 + 8 * slots + 4 * scalars + 8 * i) 1,
       BitVec.ofNat 16 (fldAt bs (66 + 8 * slots + 4 * scalars + 8 * i) 2))
    layers := (List.range (fldAt bs 6 2)).map fun i => layerOf ((bs.drop (table + 96 * i)).take 96) }

/-- Streams that a LOAD or STORE of the recipe moves (R172; log entry 44). -/
def usedStreams (slots : List U64) : List Nat :=
  ((slots.filter fun w => isConv w && decide (convAction w ≤ 1)).map slotStream).eraseDups

/-- Offset in its 96 B of the first field of a layer entry that breaks R171 or R172. -/
def layerFault (used : List Nat) (bs : List Byte) : Option Nat :=
  if fldAt bs 2 2 ≠ 0 then some 2
  else if fldAt bs 4 4 = 0 ∨ 2 ^ 28 < fldAt bs 4 4 then some 4
  else if fldAt bs 8 8 % 4096 ≠ 0 ∨ 2 ^ 48 ≤ fldAt bs 8 8 then some 8
  else match (List.range 8).find? fun i =>
      let b := fldAt bs (16 + 8 * i) 8
      if used.contains i then b = 0 || b % 16384 ≠ 0 else b ≠ 0 with
    | some i => some (16 + 8 * i)
    | none => if fldAt bs 84 12 ≠ 0 then some 84 else none

/-- Offset in the image of the first field that breaks R167 to R172; another recipe_id than the command's breaks its own
byte (DEDUCED, log entry 94). -/
def recipeFault (id : Nat) (bs : List Byte) : Option Nat :=
  let slots := fldAt bs 2 1
  let scalars := fldAt bs 3 1
  let streams := fldAt bs 4 1
  let base := 64 + 8 * slots + 4 * scalars
  let r := recipeOf bs
  if fldAt bs 0 2 ≠ 1 then some 0
  else if slots = 0 ∨ 64 < slots then some 2
  else if 64 < scalars then some 3
  else if streams = 0 ∨ 8 < streams then some 4
  else if fldAt bs 5 1 ≠ id then some 5
  else if fldAt bs 6 2 = 0 ∨ 2048 < fldAt bs 6 2 then some 6
  else if fldAt bs 8 56 ≠ 0 then some 8
  else match r.slots.findIdx? fun w => !slotOk scalars streams w with
    | some i => some (64 + 8 * i)
    | none =>
      match (r.slots.zipIdx.filter fun wi => isRed wi.1) with
      | _ :: wi :: _ => some (64 + 8 * wi.2)
      | _ =>
        match (List.range streams).find? fun i =>
            decide (0xC < fldAt bs (base + 8 * i) 1) || fldAt bs (base + 8 * i + 1) 1 ≠ 0 || fldAt bs (base + 8 * i + 4) 4 ≠ 0 with
        | some i => some (base + 8 * i)
        | none =>
          let table := recipeLayers slots scalars streams
          (List.range (fldAt bs 6 2)).findSome? fun i =>
            (layerFault (usedStreams r.slots) ((bs.drop (table + 96 * i)).take 96)).map fun o => table + 96 * i + o

def recipeLoad (mb : Fin 8) (t : TakenCmd) (s : State) : State :=
  match s.apply.run, s.job.plan with
  | some r, _ => busyWith s mb (some r.mailbox)
  | none, none => wrongState s mb
  | none, some p =>
    let id := fld t.cmd 8 1
    let a := fld t.cmd 16 8
    let len := fld t.cmd 24 4
    let bs := s.mem.bytes a (if len < 197504 then len else 197504)
    let others := s.apply.recipes.filter fun r => r.id ≠ id
    if 7 < id then badArg s mb 8
    else if a % 64 ≠ 0 ∨ ¬ inNear p a len then badArg s mb 16
    else if len < 64 ∨ 197504 < len then badArg s mb 24
    else match recipeFault id bs with
      | some o => badBlock s mb o
      | none =>
        let r := recipeOf bs
        if len < r.length then badArg s mb 24
        else if 262144 < (others.map Recipe.length).sum + r.length then resource s mb 0xFFFF
        else respondOk { s with apply.recipes := others ++ [r] } mb

/-- RECIPE_LOAD (R167 to R172). -/
def execRecipeLoad (src : CmdSrc) (s : State) : Out := mailboxRow 0x0B recipeLoad src s

/-! ### Streams in memory (R158, R159, R184) -/

def isMx (format : Nat) : Bool := (mxFmt format).isSome

/-- Bytes of the first `n` elements, scales apart. -/
def arrayBytes (format n : Nat) : Nat := (n * elemBits format + 7) / 8

/-- Elements that memory holds for `n` elements: rounded up to the format's blocks (R161, R163; log entry 47). -/
def heldElems (format n : Nat) : Nat :=
  if isMx format then roundUp 32 n else if format = blockFixed then roundUp 256 n else n

/-- Address of the scales, or of the exponents, of a stream of `e` elements: after the element array, whose MX blocks
are whole (R159, R163). -/
def scaleBase (format base e : Nat) : Nat :=
  if format = blockFixed then base + 2048 * ((e + 255) / 256)
  else base + roundUp 64 (arrayBytes format (heldElems format e))

/-- Bytes from a stream's base that `e` elements take. -/
def streamBytes (format e : Nat) : Nat :=
  if isMx format then scaleBase format 0 e + (e + 31) / 32
  else if format = blockFixed then 2050 * ((e + 255) / 256)
  else arrayBytes format e

/-- Element codes of `w` bits each from packed bytes (R159). -/
def unpack (w n : Nat) (bs : List Byte) : List Nat :=
  let v := leNat bs
  (List.range n).map fun i => v / 2 ^ (w * i) % 2 ^ w

/-- Packed bytes of element codes, whole bytes. -/
def packCodes (w : Nat) : List Nat → Nat
  | [] => 0
  | c :: t => c % 2 ^ w + 2 ^ w * packCodes w t

def pack (w : Nat) (cs : List Nat) : List Byte := leBytes ((w * cs.length + 7) / 8) (packCodes w cs)

/-- A stream of one tile as memory holds it: element codes, and scales or exponents. -/
structure TileStream where
  codes : List Nat
  scales : List Nat
deriving DecidableEq, Repr

def scaleSpan (format : Nat) : Nat := if format = blockFixed then 256 else 32

def scaleWidth (format : Nat) : Nat := if format = blockFixed then 2 else 1

def hasScales (format : Nat) : Bool := isMx format || format = blockFixed

def readTile (s : State) (format base e tile n : Nat) : TileStream :=
  let w := elemBits format
  let h := heldElems format n
  let bs := unitRead s (base + 4096 * tile * w / 8) (arrayBytes format h)
  let codes := (chunks (8 * w) bs).flatMap fun c => unpack w 64 c
  let k := if hasScales format then (n + scaleSpan format - 1) / scaleSpan format else 0
  let sw := scaleWidth format
  let sc := unitRead s (scaleBase format base e + 4096 / scaleSpan format * tile * sw) (k * sw)
  { codes := codes.take h, scales := (chunks sw sc).map leNat }

/-- The lane value a LOAD gives for an element of a tile (R158). -/
def loadVal (format : Nat) (t : TileStream) (i : Nat) : U32 :=
  let c := t.codes.getD i 0
  match mxFmt format with
  | some (f, _) => toBits (mxDecode f (BitVec.ofNat 8 (t.scales.getD (i / 32) 0)) c)
  | none =>
    if format = blockFixed then toBits (fixedVal (BitVec.ofNat 64 c) (BitVec.ofNat 16 (t.scales.getD (i / 256) 0)))
    else if format = 0xA then (BitVec.ofNat 8 c).signExtend 32
    else if format = 0xB ∨ format = 0 then BitVec.ofNat 32 c
    else toBits (codeVal format c)

/-! ### A vector (R146, R150 to R153, R155 to R166) -/

/-- The registers of a cluster within one vector, with what its STORE slots move and what its RED slot sends. -/
structure Lanes where
  regs : List (List U32)
  masks : List U64
  /-- (slot, lane values) of each STORE -/
  stores : List (Nat × List U32)
  red : List U32
deriving DecidableEq, Repr

/-- What a vector runs with: the recipe, its scalars, streams, seed, step, global index of lane 0, and the tail mask. -/
structure VecEnv where
  slots : List U64
  scalars : List U32
  streams : List (Nat × U16)
  tiles : List TileStream
  seed : U64
  step : U64
  /-- element of the tile in lane 0 -/
  first : Nat
  /-- its global index -/
  global : Nat
  tail : U64
deriving DecidableEq, Repr

/-- Undefined registers and masks at the start of a vector: free values (R150; log entry 16). -/
def freshLanes (ctr : Nat) : Lanes :=
  { regs := (List.range 32).map fun r => (List.range 64).map fun i => Config.freeLane (ctr + 64 * r + i)
    masks := (List.range 8).map fun k => maskOf 64 ((List.range 64).filter fun i =>
      (Config.freeLane (ctr + 2048 + 64 * k + i)).getLsbD 0)
    stores := [], red := [] }

/-- Free values a vector draws. -/
def lanesDrawn : Nat := 2560

/-- An operand: a register, or a scalar in every lane (R168). -/
def operand (env : VecEnv) (l : Lanes) (c : Nat) : List U32 :=
  if c < 32 then l.regs.getD c [] else List.replicate 64 (env.scalars.getD (c - 64) 0)

/-- FP32 result of an arithmetic slot in one lane (R155, R156). -/
def fpOp (op : Nat) (sel : Bool) (a b c : U32) : U32 :=
  let x := ofBits a
  let y := ofBits b
  toBits (match op with
    | 0 => fAdd x y
    | 1 => fMul x y
    | 2 => fAdd (fMul x y) (ofBits c)
    | 4 => if sel then x else y
    | 5 => fMin x y
    | _ => fMax x y)

/-- INT32 result of an arithmetic slot in one lane (R155, R157). -/
def intOp (op : Nat) (sel : Bool) (a b : U32) : U32 :=
  match op with
  | 0 => satI32 (a.toInt + b.toInt)
  | 1 => satI32 (a.toInt * b.toInt)
  | 4 => if sel then a else b
  | 5 => if b.toInt < a.toInt then b else a
  | _ => if a.toInt < b.toInt then b else a

/-- Lanes as a mask register. -/
def maskWhere (p : Nat → Bool) : U64 := maskOf 64 ((List.range 64).filter p)

/-- An arithmetic slot on one vector (R152, R155, R166). A RED slot that is a compare or an INT32 slot has no stated
FP32 result, so it sends free values (log entry 45). -/
def runArith (env : VecEnv) (l : Lanes) (w : U64) (free : Nat) : Lanes :=
  let op := sf w 60 3
  let isInt := sf w 59 1 = 1
  let act := if sf w 52 1 = 1 ∧ sf w 53 3 ≠ 0 then env.tail &&& l.masks.getD (sf w 53 3) 0 else env.tail
  let a := operand env l (sf w 39 7)
  let b := operand env l (sf w 32 7)
  if op = 3 then
    let k := sf w 46 3
    let old := l.masks.getD k 0
    let cmp (i : Nat) : Bool :=
      if isInt then iCmp (sf w 56 3) (a.getD i 0) (b.getD i 0) else fCmp (sf w 56 3) (ofBits (a.getD i 0)) (ofBits (b.getD i 0))
    let new := maskWhere fun i => if act.getLsbD i then cmp i else old.getLsbD i && env.tail.getLsbD i
    let red := if isRed w then 
        (List.range 64).map (fun i => if act.getLsbD i then Config.freeLane (free + i) else 0) else l.red
    { l with masks := l.masks.set k new, red := red }
  else
    let c := if op = 2 then operand env l (sf w 25 7) else []
    let selMask := if sf w 25 3 = 0 then env.tail else l.masks.getD (sf w 25 3) 0
    let d := sf w 46 5
    let old := l.regs.getD d []
    let res := (List.range 64).map fun i =>
      if isInt then intOp op (selMask.getLsbD i) (a.getD i 0) (b.getD i 0)
      else fpOp op (selMask.getLsbD i) (a.getD i 0) (b.getD i 0) (c.getD i 0)
    let new := (List.range 64).map fun i => if act.getLsbD i then res.getD i 0 else old.getD i 0
    let red := if isRed w then
        (List.range 64).map fun i => if act.getLsbD i then (if isInt then Config.freeLane (free + i) else res.getD i 0) else 0
      else l.red
    { l with regs := l.regs.set d new, red := red }

/-- The rounding of a slot in a lane; the element's global index is 48 bits wide (R164, R165). -/
def laneRnd (env : VecEnv) (w : U64) (slot i : Nat) : Rnd :=
  if sf w 52 2 = 1 then
    .sr (srDraw env.seed ((env.streams.getD (slotStream w) (0, 0)).2) ((env.global + i) % 2 ^ 48) env.step slot)
  else .rne

def laneSat (w : U64) : Bool := sf w 51 1 = 1

/-- A CVT slot on one vector (R152, R160 to R162, R169). -/
def runCvt (env : VecEnv) (l : Lanes) (w : U64) (slot : Nat) : Lanes :=
  let f := sf w 54 4
  let src := operand env l (sf w 39 7)
  let d := sf w 46 5
  let old := l.regs.getD d []
  let rnd := laneRnd env w slot
  let val (i : Nat) : FVal := if env.tail.getLsbD i then ofBits (src.getD i 0) else zeroVal
  let res : List U32 :=
    match mxFmt f with
    | some (g, emax) =>
      ((List.range 2).flatMap fun h =>
        let e := mxEncode g emax ((List.range 32).map fun i => (val (32 * h + i), rnd (32 * h + i)))
        e.2.map fun c => toBits (mxDecode g e.1 c))
    | none => (List.range 64).map fun i =>
      let x := src.getD i 0
      if f = 0 then toBits (intToF x.toInt)
      else if f = 0xB then BitVec.ofInt 32 (toIntSat (rnd i) (-2147483648) 2147483647 (ofBits x))
      else match scalarFmt f with
        | some g => toBits (decodeF g (encode g (rnd i) (laneSat w) (ofBits x)))
        | none => toBits (intToF (toIntSat (rnd i) (-128) 127 (ofBits x)))
  { l with regs := l.regs.set d ((List.range 64).map fun i =>
      if env.tail.getLsbD i then res.getD i 0 else old.getD i 0) }

def runLoad (env : VecEnv) (l : Lanes) (w : U64) : Lanes :=
  let f := (env.streams.getD (slotStream w) (0, 0)).1
  let t := env.tiles.getD (slotStream w) { codes := [], scales := [] }
  let d := sf w 46 5
  let old := l.regs.getD d []
  { l with regs := l.regs.set d ((List.range 64).map fun i =>
      if env.tail.getLsbD i then loadVal f t (env.first + i) else old.getD i 0) }

def runSlot (env : VecEnv) (free : Nat) (l : Lanes) (wi : U64 × Nat) : Lanes :=
  let w := wi.1
  if !isConv w then runArith env l w free
  else if convAction w = 0 then runLoad env l w
  else if convAction w = 1 then { l with stores := l.stores ++ [(wi.2, l.regs.getD (sf w 46 5) [])] }
  else runCvt env l w wi.2

/-- Every slot of the recipe on one vector, in slot order (R146). -/
def runVector (env : VecEnv) (ctr : Nat) : Lanes :=
  env.slots.zipIdx.foldl (runSlot env (ctr + lanesDrawn)) (freshLanes ctr)

/-! ### Stores of a tile (R153, R154, R160 to R163) -/

/-- The slot writes a vector register. -/
def writesReg (w : U64) (r : Nat) : Bool :=
  if isConv w then convAction w ≠ 1 && sf w 46 5 = r else sf w 60 3 ≠ 3 && sf w 46 5 = r

/-- Whether the lanes a slot writes are INT32. -/
def writesInt (streams : List (Nat × U16)) (w : U64) : Bool :=
  if isConv w then
    (if convAction w = 0 then intFormat (streams.getD (slotStream w) (0, 0)).1 else sf w 54 4 = 0xB)
  else sf w 59 1 = 1

/-- Lane type of a STORE's register: what the last slot before it that writes the register gives (R150, R162; log
entry 46). -/
def storeInt (slots : List U64) (streams : List (Nat × U16)) (i : Nat) : Bool :=
  match ((slots.take i).filter fun w => writesReg w (sf (slots.getD i 0) 46 5)).getLast? with
  | some w => writesInt streams w
  | none => intFormat (streams.getD (slotStream (slots.getD i 0)) (0, 0)).1

/-- An identity move costs no lane-op (R173). -/
def isIdentity (slots : List U64) (streams : List (Nat × U16)) (i : Nat) : Bool :=
  let w := slots.getD i 0
  let f := (streams.getD (slotStream w) (0, 0)).1
  if !isConv w then false
  else if convAction w = 0 then f = 0 || f = 0xA || f = 0xB
  else if convAction w = 1 then (f = 0 && !storeInt slots streams i) || (f = 0xB && storeInt slots streams i)
  else false

/-- Lane-op slots of a recipe. -/
def laneOpSlots (slots : List U64) (streams : List (Nat × U16)) : Nat :=
  ((List.range slots.length).filter fun i => !isIdentity slots streams i).length

/-- The FP32 value a STORE converts (R162). -/
def storeVal (isInt : Bool) (x : U32) : FVal := if isInt then ofBits (toBits (intToF x.toInt)) else ofBits x

/-- The code a STORE gives an element of a format without blocks (R160, R162). -/
def storeCode (format : Nat) (isInt sat : Bool) (rnd : Rnd) (x : U32) : Nat :=
  match scalarFmt format with
  | some f => if format = 0 ∧ !isInt then x.toNat else encode f rnd sat (storeVal isInt x)
  | none =>
    let lo : Int := if format = 0xA then -128 else -2147483648
    let hi : Int := if format = 0xA then 127 else 2147483647
    let v : Int := if isInt then (if x.toInt < lo then lo else if hi < x.toInt then hi else x.toInt)
      else toIntSat rnd lo hi (ofBits x)
    (BitVec.ofInt (elemBits format) v).toNat

/-- Put codes at an index, as far as the list reaches. -/
def putCodes (cs : List Nat) (at_ : Nat) (new : List Nat) : List Nat :=
  (cs.take at_ ++ new ++ cs.drop (at_ + new.length)).take cs.length

/-- A STORE of one vector to a stream without blocks: active lanes only (R153). -/
def storePlain (env : VecEnv) (w : U64) (slot : Nat) (isInt : Bool) (format : Nat) (vals : List U32) (t : TileStream) : TileStream :=
  let new := (List.range 64).map fun i =>
    if env.tail.getLsbD i then storeCode format isInt (laneSat w) (laneRnd env w slot i) (vals.getD i 0)
    else t.codes.getD (env.first + i) 0
  { t with codes := putCodes t.codes env.first new }

/-- A STORE of one vector to an MX stream: whole blocks, those that have an active lane (R161; log entry 47). -/
def storeMx (env : VecEnv) (w : U64) (slot : Nat) (isInt : Bool) (f : Fmt) (emax : Int) (vals : List U32) (t : TileStream) : TileStream :=
  (List.range 2).foldl (fun t h =>
    if env.tail.getLsbD (32 * h) then
      let e := mxEncode f emax ((List.range 32).map fun i =>
        (if env.tail.getLsbD (32 * h + i) then storeVal isInt (vals.getD (32 * h + i) 0) else zeroVal,
         laneRnd env w slot (32 * h + i)))
      { codes := putCodes t.codes (env.first + 32 * h) e.2, scales := t.scales.set (env.first / 32 + h) e.1.toNat }
    else t) t

/-- A block-fixed block of up to 256 values (R163, R185). -/
def fixedBlock (vs : List FVal) : List Nat × Nat :=
  let v256 := pad256 vs
  if !(v256.all FVal.finite) then (List.replicate 256 (2 ^ 63), 0x7FFF)
  else match maxEps v256 with
    | none => (List.replicate 256 0, 0x8000)
    | some x => (v256.map fun v => (BitVec.ofInt 64 (toBlock (x - 181) v)).toNat, (storedQ (x - 181)).toNat)

/-- The values of a STORE to a block-fixed stream, all vectors of the tile in order (R163). -/
def storeFixed (vs : List FVal) (t : TileStream) : TileStream :=
  (chunks 256 vs).zipIdx.foldl (fun t bi =>
    let b := fixedBlock bi.1
    { codes := putCodes t.codes (256 * bi.2) b.1, scales := t.scales.set bi.2 b.2 }) t

/-- What one STORE slot leaves of its stream over the vectors of a tile. -/
def storeSlot (envs : List (VecEnv × Lanes)) (slot : Nat) (w : U64) (isInt : Bool) (format : Nat) (t : TileStream) : TileStream :=
  let vals (l : Lanes) : List U32 := ((l.stores.find? fun p => p.1 = slot).map Prod.snd).getD []
  if format = blockFixed then
    storeFixed (envs.flatMap fun el => (List.range 64).map fun i =>
      if el.1.tail.getLsbD i then storeVal isInt ((vals el.2).getD i 0) else zeroVal) t
  else envs.foldl (fun t el =>
    match mxFmt format with
    | some (f, emax) => storeMx el.1 w slot isInt f emax (vals el.2) t
    | none => storePlain el.1 w slot isInt format (vals el.2) t) t

/-! ### Writing a tile (R17, R154, R177) -/

/-- Issue a line, or a part of one: a line that the filter presents leaves whole, with the value just read as its old
line; another is written at once, narrow where only a part of it is given (R154). -/
def issueLine (s : State) (c : Fin 4) (p : Nat × U64 × Line) : State :=
  if filtered s p.1 then
    let old := unitReadLine s p.1
    { s with apply.issued := s.apply.issued ++
        [{ cluster := c, addr := p.1, old := old, new := mergeLine p.2.1 old p.2.2, raced := false, stale := false }] }
  else unitStore s .apply p.1 p.2.1 p.2.2

/-- The lines of a block: address, byte enables and data of each. -/
def blockLines (a : Nat) (bs : List Byte) : List (Nat × U64 × Line) :=
  if bs = [] then []
  else (List.range ((a + bs.length + 63) / 64 - a / 64)).map fun i =>
    ((a / 64 + i) * 64, linePart a bs ((a / 64 + i) * 64))

/-- The vector that completes what a line holds, of a tile of `n` elements whose last element in the line is `e`; a
block-fixed block is written as its fourth vector completes (R163). -/
def lastVector (format n e : Nat) : Nat :=
  let last := (n - 1) / 64
  let v := min e (n - 1) / 64
  if format = blockFixed then min (v / 4 * 4 + 3) last else v

/-- Addresses of a tile's codes and of its scales. -/
def codesAt (format base tile : Nat) : Nat := base + 4096 * tile * elemBits format / 8

def scalesAt (format base e tile : Nat) : Nat :=
  scaleBase format base e + 4096 / scaleSpan format * tile * scaleWidth format

/-- The lines of a stored stream of a tile, each with the vector that completes it. -/
def streamLines (format base e tile n : Nat) (t : TileStream) : List (Nat × Nat × U64 × Line) :=
  let w := elemBits format
  let a := codesAt format base tile
  ((blockLines a ((pack w t.codes).take (arrayBytes format (heldElems format n)))).map fun p =>
    (lastVector format n (((p.1 + 64 - a) * 8 - 1) / w), p)) ++
  if hasScales format then
    let b := scalesAt format base e tile
    (blockLines b (t.scales.flatMap (leBytes (scaleWidth format)))).map fun p =>
      (lastVector format n (((p.1 + 63 - b) / scaleWidth format + 1) * scaleSpan format - 1), p)
  else []

/-- FP32 elements stored as NaN or infinity to a protected FP32 stream (R181). -/
def nonfiniteStored (s : State) (format base n tile : Nat) (t : TileStream) : Nat :=
  if format = 0 ∧ (bayLine s (base + 16384 * tile)).isSome then
    ((t.codes.take n).filter fun c => decide (0x7F800000 ≤ c % 2 ^ 31)).length
  else 0

def plannedSeed (s : State) : U64 := match s.job.plan with | some p => p.seed | none => 0

/-- Elements of a tile of a layer of `e` elements. -/
def tileElems (e tile : Nat) : Nat := if e - 4096 * tile < 4096 then e - 4096 * tile else 4096

/-- Vectors of a tile that have an active lane (R153). -/
def tileVectors (e tile : Nat) : Nat := (tileElems e tile + 63) / 64

/-- Lines of the streams a tile moves: what it loads, and what the old values of its stores come from (R154). -/
def tileReads (r : Recipe) (ly : LayerEntry) (tile : Nat) : List Nat :=
  let lines (a k : Nat) : List Nat := (List.range ((a + k + 63) / 64 - a / 64)).map fun i => (a / 64 + i) * 64
  (usedStreams r.slots).flatMap fun i =>
    let f := (r.streams.getD i (0, 0)).1
    let h := heldElems f (tileElems ly.elements tile)
    lines (codesAt f (ly.bases.getD i 0) tile) (arrayBytes f h) ++
    if hasScales f then
      lines (scalesAt f (ly.bases.getD i 0) ly.elements tile) (h / scaleSpan f * scaleWidth f)
    else []

/-- Compute the first `k` vectors of one tile on a cluster and write what they complete, in vector order (R145, R146,
R166, R177). The partial leaves with the tile's last vector. -/
def computeTile (s : State) (c : Fin 4) (r : ApplyRun) (layer tile k : Nat) : State :=
  match r.recipe.layers[layer]? with
  | none => s
  | some ly =>
    let n := tileElems ly.elements tile
    let whole := tileVectors ly.elements tile
    let k := min k whole
    let fmt (i : Nat) : Nat := (r.recipe.streams.getD i (0, 0)).1
    let used := usedStreams r.recipe.slots
    let tiles := (List.range r.recipe.streams.length).map fun i =>
      if used.contains i then readTile s (fmt i) (ly.bases.getD i 0) ly.elements tile n else { codes := [], scales := [] }
    let envs := (List.range k).map fun v =>
      let env : VecEnv :=
        { slots := r.recipe.slots, scalars := r.scalars, streams := r.recipe.streams, tiles := tiles,
          seed := plannedSeed s, step := r.step, first := 64 * v, global := ly.elemBase + 4096 * tile + 64 * v,
          tail := maskWhere fun i => decide (64 * v + i < n) }
      (env, runVector env (s.freeCtr + v * (lanesDrawn + 64)))
    let stored := r.recipe.slots.zipIdx.filter fun wi => isStore wi.1
    let news := stored.foldl (fun (ts : List TileStream) wi =>
      let i := slotStream wi.1
      ts.set i (storeSlot envs wi.2 wi.1 (storeInt r.recipe.slots r.recipe.streams wi.2) (fmt i)
        (ts.getD i { codes := [], scales := [] }))) tiles
    let outs := (stored.map fun wi => slotStream wi.1).eraseDups
    let lines := outs.flatMap fun i =>
      streamLines (fmt i) (ly.bases.getD i 0) ly.elements tile n (news.getD i { codes := [], scales := [] })
    let s1 := forEach (List.range k) (fun t v =>
      forEach (lines.filter fun p => p.1 = v) (fun u p => issueLine u c p.2) t) s
    let sums := envs.map fun el => treeSum el.2.red
    let partial_ := treeSum (sums ++ List.replicate (64 - sums.length) 0)
    let s2 := if k = whole ∧ r.recipe.slots.any isRed ∧ r.reduceBase ≠ 0 then
        unitWrite s1 .apply (r.reduceBase + 4 * (ly.redTileBase + tile)) (leBytes 4 partial_.toNat)
      else s1
    let bad := (outs.map fun i =>
      nonfiniteStored s (fmt i) (ly.bases.getD i 0) (min n (64 * k)) tile (news.getD i { codes := [], scales := [] })).sum
    let count (q : ApplyRun) : ApplyRun := { q with
      laneOps := q.laneOps + 64 * laneOpSlots q.recipe.slots q.recipe.streams * k
      nonfinite := q.nonfinite + bad }
    { s2 with apply.run := s2.apply.run.map count, freeCtr := s2.freeCtr + k * (lanesDrawn + 64) }

/-! ### Runs (R145, R174 to R181) -/

def layerTiles (r : Recipe) (layer : Nat) : Nat := (((r.layers[layer]?).map LayerEntry.elements).getD 0 + 4095) / 4096

/-- The apply unit moves the cursor as a layer starts (R49, R177). -/
def writeCursor (s : State) (pos : U16) : State :=
  match s.tier.cursorLine with
  | none => s
  | some a => moveCursor { s with mem := s.mem.write a.toNat (leBytes 2 pos.toNat) } pos s.tier.step

/-- Start tiles in ascending order while the cluster of the next one is free (R145). -/
def startTiles : Nat → State → State
  | 0, s => s
  | fuel + 1, s =>
    match s.apply.run with
    | none => s
    | some r =>
      if r.stop ≠ .none ∨ r.endLayer ≤ r.layer then s
      else
        let c : Fin 4 := ⟨r.tile % 4, Nat.mod_lt _ (by decide)⟩
        if (r.running.get c).isSome then s
        else
          let last := layerTiles r.recipe r.layer ≤ r.tile + 1
          let r1 := { r with
            running := r.running.set c.val (some (r.layer, r.tile)) c.isLt
            layer := if last then r.layer + 1 else r.layer
            tile := if last then 0 else r.tile + 1 }
          let s1 := { s with
            apply.run := some r1
            apply.layer := BitVec.ofNat 11 r.layer
            apply.tile := BitVec.ofNat 16 r.tile }
          let s2 := if r.tile = 0 then
              writeCursor s1 (((r.recipe.layers[r.layer]?).map LayerEntry.position).getD 0)
            else s1
          startTiles fuel s2

/-- A recovery that a LOST_MEMBER result began has not completed (R20, R176). -/
def recoveryOpen (s : State) : Bool := s.recov.state.get ≠ recNone && s.recov.state.get ≠ recDone

/-- Extents of the stored streams over the layers of a run. -/
def storedExtents (r : Recipe) (lo hi : Nat) : List (Nat × Nat) :=
  let outs := ((r.slots.filter isStore).map slotStream).eraseDups
  ((r.layers.take hi).drop lo).flatMap fun ly => outs.map fun i =>
    (ly.bases.getD i 0, streamBytes (r.streams.getD i (0, 0)).1 ly.elements)

/-- Bytes of an extent that lie in a region, over both its homes. -/
def bytesMet (g : Region) (x : Nat × Nat) : Nat :=
  ((regionHomes g).map fun h => min (x.1 + x.2) (h.1 + h.2.1) - max x.1 h.1).sum

/-- Regions an extent meets. -/
def regionsMet (s : State) (x : Nat × Nat) : List Region := s.tier.regions.filter fun g => decide (0 < bytesMet g x)

/-- The extent lies partly inside a protected region, or spans two regions (R176). -/
def extentBad (s : State) (x : Nat × Nat) : Bool :=
  let rs := regionsMet s x
  decide (1 < rs.length) || rs.any fun g => g.protected_ && decide (bytesMet g x ≠ x.2)

def extentProtected (s : State) (x : Nat × Nat) : Bool := (regionsMet s x).any fun g => g.protected_

/-- Scalars of a run: the recipe's, those of the override mask from the run block (R175). -/
def overrideScalars (rec : List U32) (block : List Byte) : List U32 :=
  rec.zipIdx.map fun vi =>
    if vi.2 < 16 ∧ (fldAt block 0 2).testBit vi.2 then BitVec.ofNat 32 (fldAt block (16 + 4 * vi.2) 4) else vi.1

/-- APPLY_RUN is checked and started (R173 to R176). layer_limit counts start_layer among its layers (DEDUCED, log entry 94). -/
def applyStart (mb : Fin 8) (t : TakenCmd) (s : State) : State :=
  match s.apply.run, s.job.plan with
  | some r, _ => busyWith s mb (some r.mailbox)
  | none, none => wrongState s mb
  | none, some p =>
    let basic := !isExpert t.cmd
    let lo := if basic then 0 else fld t.cmd 10 2
    let tile := if basic then 0 else fld t.cmd 12 2
    let limit := if basic then 0 else fld t.cmd 14 2
    let block := fld t.cmd 24 8
    match s.apply.recipes.find? fun r => r.id = fld t.cmd 8 1 with
    | none => badArg s mb 8
    | some r =>
      let hi := if limit = 0 ∨ r.layers.length < lo + limit then r.layers.length else lo + limit
      let bs := s.mem.bytes block 128
      let xs := storedExtents r lo hi
      if r.layers.length ≤ lo then badArg s mb 10
      else if layerTiles r lo ≤ tile then badArg s mb 12
      else if r.layers.length < limit then badArg s mb 14
      else if block % 64 ≠ 0 ∨ (block ≠ 0 ∧ ¬ inNear p block 128) then badArg s mb 24
      else if block ≠ 0 ∧ fldAt bs 2 6 ≠ 0 then badBlock s mb 2
      else if block ≠ 0 ∧ fldAt bs 80 48 ≠ 0 then badBlock s mb 80
      else if xs.any (extentBad s) then badArg s mb 8
      else if s.ctrl.applyEn.get = 0 ∨ s.apply.state = 3 then wrongState s mb
      else if xs.any (extentProtected s) ∧ phaseNow s ≠ phFlood ∧ phaseNow s ≠ phSuspended then wrongState s mb
      else if recoveryOpen s then wrongState s mb
      else
        let run : ApplyRun :=
          { mailbox := mb, recipe := r, step := if basic then s.tide.counted else BitVec.ofNat 64 (fld t.cmd 16 8),
            reduceBase := if block = 0 then 0 else fldAt bs 8 8,
            scalars := if block = 0 then r.scalars else overrideScalars r.scalars bs,
            layer := lo, tile := tile, endLayer := hi, running := Vector.replicate 4 none, stop := .none,
            aborts := [], faultIndex := 0, startGtc := s.time.gtc, lastGtc := none, laneOps := 0, nonfinite := 0, races := 0 }
        let s1 := accepted s mb
        startTiles 4 { s1 with apply.run := some run, apply.state := if s.fold.high then 2 else 1 }

/-- APPLY_RUN (R174 to R177). -/
def execApplyRun (src : CmdSrc) (s : State) : Out := mailboxRow 0x0C applyStart src s

/-- Clusters finish the tiles they run, unless a view change or a fault stopped the run (R179, R180). -/
def finishesTiles (k : StopKind) : Bool :=
  match k with
  | .coreLost => false
  | .lost => false
  | .fault => false
  | .noQuorum => false
  | .none => true
  | .abort => true
  | .disable => true
  | .coreReset => true

/-! ### The reserve (R147, R148, R375) -/

def physOf (c : Ctrl) (l : Fin 4) : Nat :=
  match l with
  | 0 => c.phys0.get.toNat
  | 1 => c.phys1.get.toNat
  | 2 => c.phys2.get.toNat
  | 3 => c.phys3.get.toNat

def setPhys (c : Ctrl) (l : Fin 4) (p : Nat) : Ctrl :=
  let v : V3 3 := V3.all (BitVec.ofNat 3 p)
  match l with
  | 0 => { c with phys0 := v }
  | 1 => { c with phys1 := v }
  | 2 => { c with phys2 := v }
  | 3 => { c with phys3 := v }

/-- The physical cluster that no logical cluster names (R147). -/
def reserveOf (c : Ctrl) : Nat :=
  ((List.range 5).find? fun p => (List.finRange 4).all fun l => physOf c l ≠ p).getD 0

/-- Begin the BIST patterns of a fenced unit (R377). -/
def beginTest (s : State) (mb : Fin 8) (slice : Bool) (i : Nat) : State :=
  { s with
    bist.state := 1
    bist.set := if slice then 0x81 else 0x80
    bist.verdict := 2
    bist.fail := 0
    bist.sig := 0
    bist.startGtc := s.time.gtc
    bist.test := some (some mb, slice, i) }

/-- A fence that took effect: its log entry, then the response, or the test (R375 to R377). -/
def fenceDone (s : State) (mb : Option (Fin 8)) (slice test : Bool) (i : Nat) : State :=
  let t := logReport s clOther (srcOf (if slice then 1 else 3) i) i
  match mb with
  | none => t
  | some m => if test then beginTest t m slice i else respondOk t m

/-- The reserve takes the place of a fenced cluster once its logical cluster runs no tile (R148, R375). -/
def switchIn (s : State) : State :=
  match s.apply.switching with
  | none => s
  | some (l, p, mb, test) =>
    let busy : Bool := match s.apply.run with
      | some r => (r.running.get l).isSome
      | none => false
    if busy then s
    else
      fenceDone { s with
        ctrl := setPhys s.ctrl l (reserveOf s.ctrl)
        apply.fenced := addNew p s.apply.fenced
        apply.switching := none } mb false test p

/-- Lines of a tile that a rebuild target must reconstruct before the unit reads them (R261). -/
def tileBlocked (s : State) (r : ApplyRun) (layer tile : Nat) : List Nat :=
  if !rebuilding s then []
  else match r.recipe.layers[layer]? with
    | some ly => (tileReads r.recipe ly tile).filter fun a => notRebuilt s a
    | none => []

/-- APPLY_TILE_DONE: a cluster finishes its tile: results and writes, a waiting switch-in, and the next tiles
(R145 to R148, R179). A paused cluster finishes no tile, nor one whose lines are not rebuilt (R261). -/
def execApplyTileDone (cluster : Fin 4) (s : State) : Out :=
  .next (match s.apply.run with
    | none => s
    | some r => match r.running.get cluster with
      | none => s
      | some lt =>
        if clusterPaused s cluster ∨ ¬ finishesTiles r.stop then s
        else if tileBlocked s r lt.1 lt.2 ≠ [] then forEach (tileBlocked s r lt.1 lt.2) startRead s
        else
          let free (q : ApplyRun) : ApplyRun := { q with running := q.running.set cluster.val none cluster.isLt }
          let s1 := computeTile s cluster r lt.1 lt.2 64
          startTiles 4 (switchIn { s1 with apply.run := s1.apply.run.map free }))

/-- Every write of the run has been taken in (R179 step 3). -/
def writesTaken (s : State) : Bool :=
  s.apply.issued.isEmpty && !(s.cap.held.any fun h => h.acc.master = .apply) &&
    !(s.cap.oldReads.any fun o => o.recs.any fun h => h.acc.master = .apply)

/-- Nothing of the run is left to do: no tile runs, none is to start, and its writes are captured. -/
def runIdle (s : State) (r : ApplyRun) : Bool :=
  (List.finRange 4).all (fun c => (r.running.get c).isNone) && (r.stop ≠ .none || decide (r.endLayer ≤ r.layer)) &&
    writesTaken s

/-- GTC time from the first tile started to the last write captured; a free value where none was (R181; log entry
81). -/
def applyElapsed (s : State) (r : ApplyRun) : U64 :=
  match r.lastGtc with
  | some g => g - r.startGtc
  | none => Config.freeElapsed s.freeCtr

/-- Results of APPLY_RUN (R181, R329). -/
def applyResults (s : State) (r : ApplyRun) (layer tile stopped : Nat) : List (Nat × Nat × Nat) :=
  [(8, 2, layer), (10, 2, tile), (12, 1, stopped), (16, 8, r.laneOps), (24, 4, r.nonfinite), (28, 4, r.races),
   (32, 8, (applyElapsed s r).toNat)]

/-- The apply time of a run, which the tide's cost takes (R144, R181). -/
def noteApply (s : State) (ns : Nat) : State :=
  match s.tide.firstApply with
  | none => { s with tide.firstApply := some ns }
  | some _ => { s with tide := { s.tide with
      laterApplySum := s.tide.laterApplySum + ns, laterApplyCount := s.tide.laterApplyCount + 1 } }

/-- End a run: the response, an ABORT that waited, and the unit's state (R179, R331, R345). -/
def endRun (s : State) (r : ApplyRun) (status detail : Nat) (results : List (Nat × Nat × Nat)) : State :=
  let s1 := switchIn { s with
    apply.run := none
    apply.state := if s.ctrl.applyEn.get = 0 then 3 else 0
    freeCtr := s.freeCtr + 1 }
  let s2 := respond s1 r.mailbox status detail results
  forEach r.aborts (fun t m => respond t m stOk 0 [(8, 1, status)]) s2

/-- No resume point (R180, R383). -/
def noResume : Nat := 0xFFFF

/-- A core reset's stop has ended: the unit is reset, and the FAULT response, which firmware writes, will carry the
resume point (R312, R383). -/
def parkRun (s : State) (r : ApplyRun) (layer tile : Nat) : State :=
  switchIn { s with
    apply.run := none
    apply.state := 0
    apply.layer := 0
    apply.tile := 0
    freeCtr := s.freeCtr + 1
    rst.phase := .coreBooting
    rst.results := s.rst.results ++ [(r.mailbox, applyResults s r layer tile 0)] }

/-- The clusters stop at a vector boundary of the tiles they run: the vectors finished before it, a free number, leave
their writes (R180; log entry 80). -/
def stopClusters (s : State) (r : ApplyRun) : State :=
  forEach (List.finRange 4) (fun t c => match r.running.get c with
    | none => t
    | some lt =>
      let k := Config.freeVectors t.freeCtr % 65
      computeTile { t with freeCtr := t.freeCtr + 1 } c r lt.1 lt.2 k) s

/-- The run as it stands after its clusters stopped. -/
def stoppedRun (s : State) (r : ApplyRun) : ApplyRun := s.apply.run.getD r

/-- APPLY_RUN_COMPLETE: the run has done its tiles, or its stop has ended (R179 to R181). -/
def execApplyRunComplete (s : State) : Out :=
  .next (match s.apply.run with
    | none => s
    | some r =>
      if finishesTiles r.stop then
        if !runIdle s r then s
        else match r.stop with
          | .none => endRun (noteApply s (applyElapsed s r).toNat) r stOk 0 (applyResults s r r.layer r.tile 0)
          | .coreReset => parkRun s r r.layer r.tile
          | _ => endRun (noteApply s (applyElapsed s r).toNat) r stOk 0 (applyResults s r r.layer r.tile 1)
      else
        let t := stopClusters s r
        let q := stoppedRun t r
        match q.stop with
        | .fault => endRun t q stFault q.faultIndex (applyResults t q noResume noResume 0)
        | .noQuorum => endRun t q stNoQuorum (liveSet t).toNat (applyResults t q noResume noResume 0)
        | .coreLost => parkRun t q noResume noResume
        | _ => endRun t q stLostMember t.agree.removed.toNat (applyResults t q noResume noResume 0))

/-- Stop the run as clearing APPLY_EN or an ABORT does: no further tile starts (R179 step 1). -/
def stopApply (s : State) (k : StopKind) : State :=
  match s.apply.run with
  | some r => if r.stop = .none then { s with apply.run := some { r with stop := k } } else s
  | none => s

/-- A write of HY_CTRL.APPLY_EN (R179, R345). -/
def writeApplyEn (s : State) (on : Bool) : State :=
  let s1 := { s with ctrl.applyEn := V3.all (bit1 on) }
  if on then (if s.apply.run.isSome then s1 else { s1 with apply.state := 0 })
  else if s.ctrl.applyEn.get = 0 then s1
  else if s.apply.run.isSome then stopApply s1 .disable else { s1 with apply.state := 3 }

/-- A write of APPLY_MAP in a state that takes it: a value above 4 or a cluster named twice is ignored (R147). -/
def writeMap (s : State) (value : U32) : State :=
  let ps := (List.range 4).map fun i => value.toNat / 2 ^ (3 * i) % 8
  if ps.any (fun p => decide (4 < p)) ∨ ps.eraseDups.length < 4 then { s with stat.cfgIgnored := true }
  else { s with ctrl := (List.finRange 4).foldl (fun c l => setPhys c l (ps.getD l.val 0)) s.ctrl }

/-! ### Poisoned data (R180, R205) -/

/-- POISONED_READ_DATA: a POISON report; the apply run, the reduction or the compression stops with FAULT. -/
def execPoisonedReadData (unit : LoadUnit) (addr : U64) (s : State) : Out :=
  .next (match unit with
    | .apply => match s.apply.run with
      | none => s
      | some _ =>
        let t := logReport s clPoison (srcOf 3 0) addr.toNat
        let halt (r : ApplyRun) : ApplyRun :=
          if finishesTiles r.stop then { r with stop := .fault, faultIndex := newestIndex t } else r
        { t with apply.run := t.apply.run.map halt }
    | .reduce g q => match reduceOf s g q with
      | none => s
      | some r =>
        let t := logReport s clPoison (srcOf 4 0) addr.toNat
        endReduce t r stFault (newestIndex t) 0 noCancel
    | .compress => match s.exch.compress with
      | none => s
      | some c =>
        let t := logReport s clPoison (srcOf 4 0) addr.toNat
        endCompress t c stFault (newestIndex t) 0)

end Sys2Proof.Machine
end

