-- ==== Sys2Proof/Machine/Reset.lean ====
section
/-! DEFINITION. Presence of the ports, the three reset levels, single-unit resets, the firmware image and its checks
(R273 to R275, R308 to R312, R347, R348, R381 to R386). -/

namespace Sys2Proof.Machine

/-! ### Presence (R273 to R275) -/

/-- What PRESENT of MSP, FBP, LKP and MGP is when the wrapper leaves the ports alone. -/
def presence (s : State) : Bool × Bool × Bool × Bool :=
  s.ports.wrapped.getD (s.ports.msp, s.ports.fbp, s.ports.lkp, s.ports.mgp)

/-- MSP absent: the memory controller completes every held write as issued, serves every held read, and discards what it
owes Hygar (R275). The writes merged into a captured line are among them (R85). -/
def releaseMsp (s : State) : State :=
  let hs := (s.cap.oldReads.flatMap fun o => o.recs) ++ s.cap.held
  let q := s.cap.queue.map fun c => { c with tags := [], masters := [] }
  let t := { completeMerges s with cap.held := [], cap.oldReads := [], cap.queue := q, cap.verdicts := s.cap.verdicts }
  forEach hs (fun t h => if h.kind = .read then t else commitBytes t h.acc) t

/-- Drive PRESENT of the four ports. Events that wait go out as MGP becomes present (R292). -/
def showPorts (s : State) (p : Bool × Bool × Bool × Bool) : State :=
  let t := if s.ports.msp ∧ ¬ p.1 then releaseMsp s else s
  let ev := if p.2.2.2 then { t.events with queue := [], delivered := t.events.delivered ++ t.events.queue } else t.events
  { t with
    events := ev
    ports := { t.ports with msp := p.1, fbp := p.2.1, lkp := p.2.2.1, mgp := p.2.2.2 } }

/-- The units behind the ports become ready, or cease to be; under WS_SAFE, WS_EXTEST and WS_CLAMP the ports stay
absent meanwhile (R295). -/
def setPresence (s : State) (p : Bool × Bool × Bool × Bool) : State :=
  match s.ports.wrapped with
  | some _ => { s with ports.wrapped := some p }
  | none => showPorts s p

def allPresent : Bool × Bool × Bool × Bool := (true, true, true, true)

def noneReady : Bool × Bool × Bool × Bool := (false, false, false, false)

/-! ### Power-on and system reset (R381, R382, R384) -/

/-- The state as a reset leaves it, but for what outlasts every reset: fuses, memory, the debug logic, what has been
handed over, and the model's own fields. MSP falls absent first. -/
def clearedBy (s : State) (r : ResetS) : State :=
  let t := releaseMsp s
  { State.reset with
    fuses := t.fuses
    rst := r
    mem := t.mem
    cap := { CapS.reset with verdicts := t.cap.verdicts }
    events := { queue := [], delivered := t.events.delivered }
    ports := { PortS.reset with wir := t.ports.wir, wrapped := t.ports.wrapped.map fun _ => noneReady }
    out := t.out
    freeCtr := t.freeCtr
    pending := t.pending }

/-- A power-on reset, which clears the debug logic too (R381). -/
def powerOnReset (s : State) : State :=
  let t := clearedBy s ResetS.powerOn
  { t with ports := PortS.reset }

/-- POWER_ON: the supply ramps (R382). -/
def execPowerOn (s : State) : Out := .next (powerOnReset s)

/-- POWER_REMOVAL: every port is clamped to absent, and nothing is powered (R273). -/
def execPowerRemoval (s : State) : Out :=
  .next (let t := powerOnReset s
    { t with power.on := false })

/-- A system reset: RST_CAUSE keeps its bits and gains the cause (R347, R381). -/
def sysReset (s : State) (mark : ResetS → ResetS) : State :=
  clearedBy s (mark { s.rst with phase := .initialising, heldMgp := false, heldWdog := false, results := [] })

/-- SYS_SUPPLY (R382). -/
def execSysSupply (s : State) : Out :=
  .next (if s.power.on then sysReset s (fun r => { r with sysSupply := true }) else s)

/-- SYS_THERMAL (R382). -/
def execSysThermal (s : State) : Out :=
  .next (if s.power.on then sysReset s (fun r => { r with sysThermal := true }) else s)

/-- RESET_INIT_DONE: every macro and register is written, the control core starts in the boot ROM, and MGP becomes
present (R310 step 1, R384 steps 2 and 3). -/
def execResetInitDone (s : State) : Out :=
  .next (if s.power.on ∧ s.rst.phase = .initialising then
      setPresence { s with rst.phase := .running } (false, false, false, true)
    else s)

/-! ### Core reset (R382, R383, R385) -/

/-- Commands in progress lose their mailboxes, which firmware will answer; what the control core alone worked on is
gone, what a spared part carries runs on (R312). -/
def dropMailboxes (s : State) : State :=
  { s with
    stat.drainMb := none
    stat.suspendMb := none
    tier.loading := none
    job.taking := none
    tide.mailbox := none
    tide.forming := s.tide.forming.map fun _ => none
    tide.resuming := s.tide.resuming.map fun _ => none
    bcast.mailbox := none
    recov.mailbox := none
    recov.ask := none
    recov.shadow := s.recov.shadow.map fun h => { h with mailbox := none }
    twin.mailbox := none
    apply.switching := s.apply.switching.map fun w => (w.1, w.2.1, none, false)
    bist.test := s.bist.test.map fun t => (none, t.2) }

/-- One CANCEL to the collective engine for a reduction that a core reset ends; one in its write phase has written, and
its results stand (R383). -/
def cancelByReset (s : State) (r : Reduce) : State := if phaseBegun r then s else sendEx s r 0 0x33 ExRec.blank

/-- The exchange unit under a core reset: a compression finishes its block and its results wait for the response; every
reduction is cancelled and remembered until the next EXCH_REDUCE of its group (R206, R383). -/
def resetExchange (s : State) : State :=
  let s1 := match s.exch.compress with
    | none => s
    | some c =>
      let t := compressMany (stopBlocks s c) s
      match t.exch.compress with
      | none => t
      | some d => { t with
          exch.compress := none
          freeCtr := t.freeCtr + 1
          rst.results := t.rst.results ++ [(d.mailbox, compressResults t d 0)] }
  let s2 := forEach s1.exch.reduces cancelByReset s1
  { s2 with exch := { s2.exch with
      disabled := false
      reduces := []
      slots := []
      completed := s2.exch.completed ++ (s2.exch.reduces.filter phaseBegun).map fun r => (r.group, r.seq)
      ended := s2.exch.ended ++ (s2.exch.reduces.filter fun r => !phaseBegun r).map fun r => (r.group, r.seq) } }

/-- The clusters stop at once, with no resume point: the stop has not ended in time, or another had stopped the run (R383). -/
def stopAtOnce (s : State) (r : ApplyRun) : State :=
  let t := stopClusters s r
  parkRun t (stoppedRun t r) noResume noResume

/-- The apply unit under a core reset: a run stops as clearing APPLY_EN stops it; one whose clusters have stopped ends
at once (R180, R383). -/
def resetApply (s : State) : State :=
  match s.apply.run with
  | none => { s with apply := { s.apply with state := 0, layer := 0, tile := 0 }, rst.phase := .coreBooting }
  | some r =>
    if finishesTiles r.stop then
      { s with
        apply.run := some { r with stop := .coreReset, aborts := [] }
        rst.phase := .coreStopping s.time.gtc }
    else stopAtOnce s r

/-- A core reset starts: FW_STATE reads CHECKING, the apply and exchange units are reset, recovery restarts
(R251, R312, R383, R385). -/
def startCoreReset (s : State) (mgp wdog : Bool) : State :=
  let s1 := { s with
    rst.coreMgp := s.rst.coreMgp || mgp
    rst.coreWdog := s.rst.coreWdog || wdog
    stat.fwState := V3.all 1
    stat.fwCause := 0
    fw.checked := false
    mb.waiting := []
    ctrl.applyEn := V3.all 1
    ctrl.exchEn := V3.all 1 }
  let s2 := if wdog then logReport s1 clFirmware (srcOf 9 0) 0 else s1
  resetApply (resetExchange (restartRecovery (dropMailboxes s2)))

/-- A core reset is in progress. -/
def coreResetRuns (s : State) : Bool :=
  match s.rst.phase with
  | .coreStopping _ => true
  | .coreBooting => true
  | _ => false

/-- A request for a core reset: merged into one in progress, held behind a season transition or a BIST run, else started
(R382, R398). In Winter the control core has no power, and the request waits for the wake (log entry 63). -/
def requestCore (s : State) (mgp wdog : Bool) : State :=
  if coreResetRuns s then { s with rst.coreMgp := s.rst.coreMgp || mgp, rst.coreWdog := s.rst.coreWdog || wdog }
  else if s.power.moving ∨ s.power.season.get = 2 ∨ s.bist.run.isSome then
    { s with
      rst.heldMgp := s.rst.heldMgp || mgp
      rst.heldWdog := s.rst.heldWdog || wdog
      bist.stop := s.bist.stop || s.bist.run.isSome }
  else startCoreReset s mgp wdog

/-- The transition or run that held a core reset has ended. -/
def releaseHeldReset (s : State) : State :=
  if s.rst.heldMgp ∨ s.rst.heldWdog then
    requestCore { s with rst.heldMgp := false, rst.heldWdog := false } s.rst.heldMgp s.rst.heldWdog
  else s

/-- The BIST engine halts the control core while it tests bits 13, 16 and 20 (R397). -/
def coreHalted (s : State) : Bool :=
  s.bist.run.isSome && s.bist.left.head?.any fun u => u = 13 || u = 16 || u = 20

/-- WATCHDOG_EXPIRY: the watchdog counts only while FW_STATE is RUNNING and the control core is not halted (R382). -/
def execWatchdogExpiry (s : State) : Out :=
  .next (if fwRunning s ∧ !coreHalted s then requestCore s false true else s)

/-- CORE_RESET_STOP_TIMEOUT: an apply stop has lasted 100 µs; the clusters stop at once (R383). -/
def execCoreResetStopTimeout (s : State) : Out :=
  .next (match s.rst.phase, s.apply.run with
    | .coreStopping g, some r => if g.toNat + 100000 ≤ s.time.gtc.toNat then stopAtOnce s r else s
    | _, _ => s)

/-! ### RST_CTRL (R347, R348, R386) -/

/-- A port's writes of registers that are no mailbox's reach the register file. TAP has no instrument that writes them,
but its test access stays open (R296). -/
def portOpen (s : State) (port : Port) : Bool :=
  match port with
  | .fbp => s.ports.fbp
  | .mgp => s.ports.mgp
  | .tap => s.power.on
  | .lkp => false

def ignoredWrite (s : State) : State := { s with stat.cfgIgnored := true }

/-- A request through RST_CTRL: taken through MGP only (R348). -/
def resetRequest (s : State) (port : Port) (f : State → State) : State :=
  if !portOpen s port then s
  else if port = .mgp then f s
  else if s.power.season.get = 2 then s
  else ignoredWrite s

/-- RST_CTRL_SYS. -/
def sysRequest (s : State) : State := sysReset s fun r => { r with sysMgp := true }

def execRstCtrlSys (port : Port) (s : State) : Out := .next (resetRequest s port sysRequest)

/-- RST_CTRL_CORE. -/
def coreRequest (s : State) : State := requestCore s true false

def execRstCtrlCore (port : Port) (s : State) : Out := .next (resetRequest s port coreRequest)

/-- The tier mover has no started entry that is incomplete, or all four channels have halted. -/
def tierIdle (s : State) : Bool := s.tier.halted = 0xF || s.tier.flight = []

/-- No group, MOVE or handover copy is in flight on an unhalted channel, and no twin search runs. -/
def rebuildIdle (s : State) : Bool :=
  s.twin.state ≠ 3 &&
    (s.recov.halted = 0xF ||
      (recState s ≠ recParity && recState s ≠ recResumable && recState s ≠ recData && s.recov.shadow.isNone &&
        !(s.recov.handover.any fun h => !h.finished)))

def unitIdle (s : State) (u : Nat) : Bool :=
  match u with
  | 0 => applyState s = 3
  | 1 => exchState s = 3
  | 2 => tierIdle s
  | _ => rebuildIdle s

/-- Recovery that failed because every rebuild channel halted starts again from its first action (R369, R386): the
rollback, or the decode of parity; once a flood is open, nothing is rolled back and the decode of data alone remains. -/
def restartFailed (s : State) : State :=
  if recState s ≠ recFailed ∨ s.recov.halted ≠ 0xF then restartRecovery s
  else
    let t := { s with recov.groupsLeft := [], recov.restartAt := [], recov.waiting := [] }
    let t := if t.recov.target then askAgain t else t
    if phaseNow s = phFlood then setRec t recData
    else if s.recov.target then setRec { t with recov.parityDone := [] } recParity
    else setRec { t with recov.rollingBack := true } recRolling

/-- What the reset of one unit clears (R386). -/
def clearUnit (s : State) (u : Nat) : State :=
  match u with
  | 0 => { s with apply.state := 3 }
  | 1 => { s with exch := { ExchS.reset with disabled := true } }
  | 2 => writeProgress { s with tier := { s.tier with halted := 0, staged := [], rows := [], lastSeq := [], haltFlag := false } }
  | _ =>
    let t := restartFailed s
    { t with recov.halted := 0, twin.own := [], twin.theirs := [] }

/-- Reset one unit, if it is idle and nothing forbids it (R348, R382, R386). -/
def resetUnit (s : State) (u : Nat) : State :=
  if coreResetRuns s ∨ s.power.moving ∨ s.bist.run.isSome ∨ !unitIdle s u then ignoredWrite s
  else
    let t := clearUnit s u
    { t with rst.unit := setBit t.rst.unit u true }

def unitRequest (units : BitVec 4) (s : State) : State := forEach (bitsOf 4 units) resetUnit s

/-- RST_CTRL_UNIT. -/
def execRstCtrlUnit (port : Port) (units : BitVec 4) (s : State) : Out :=
  .next (if units = 0 then s else resetRequest s port (unitRequest units))

/-! ### The firmware image (R308 to R312) -/

def fwLoader : BitVec 3 := 0
def fwChecking : BitVec 3 := 1
def fwIsRunning : BitVec 3 := 2
def fwLoadFailed : BitVec 3 := 3
def fwTrapped : BitVec 3 := 4

/-- The load ends: LOAD_FAILED with its cause, logged; the boot ROM waits for a new image from offset 0. -/
def failLoad (s : State) (cause : BitVec 3) : State :=
  let t := { s with stat.fwState := V3.all fwLoadFailed, stat.fwCause := cause, fw.expected := 0, fw.checked := false }
  logReport t clFirmware (srcOf 9 0) cause.toNat

/-- The first check of the header at offset 0 that fails: magic, stepping, length (R309, R310). -/
def headerFault (bs : List Byte) : Option (BitVec 3) :=
  if fldAt bs 0 4 ≠ 0x48594657 then some 1
  else if fldAt bs 6 1 ≠ 0xB0 then some 2
  else if fldAt bs 16 4 % 256 ≠ 0 ∨ fldAt bs 16 4 < 4096 ∨ 393216 < fldAt bs 16 4 then some 3
  else none

/-- Store a transaction, a whole tile of image memory, which ends any uncorrectable state of it (R361). -/
def storeImage (s : State) (bs : List Byte) : State :=
  let n := s.fw.expected / 256
  { s with
    fw := { s.fw with image := s.fw.image.take s.fw.expected ++ bs, expected := s.fw.expected + 256 }
    lat.errors := s.lat.errors.filter fun e => !decide (e.mac = n / 384 ∧ e.tile = n % 384) }

/-- The boot ROM takes the next transaction: the header's checks at offset 0, the digest check after the last byte. -/
def takeImage (s : State) (bs : List Byte) : State :=
  let t := storeImage s bs
  let t := if s.fw.expected = 0 then { t with fw.length := fldAt bs 16 4 } else t
  match (if s.fw.expected = 0 then headerFault bs else none) with
  | some c => failLoad t c
  | none => if t.fw.length ≤ t.fw.expected then { t with stat.fwState := V3.all fwChecking } else t

/-- MGP is present whole: in Winter it carries no image, nor in Spring until the boot ROM runs (R274, R391). -/
def imageOpen (s : State) : Bool :=
  s.ports.mgp && s.power.season.get ≠ 2 && !(s.power.moving && s.power.fromWinter && decide (s.power.springStep < 2))

/-- FW_IMAGE_TRANSACTION (R310, R311). -/
def execFwImageTransaction (offset : U32) (bytes : List Byte) (s : State) : Out :=
  .next (
    if !imageOpen s then s
    else if s.stat.fwState.get = fwLoader then
      if offset.toNat < s.fw.expected then s
      else if offset.toNat = s.fw.expected then takeImage s bytes
      else failLoad s 4
    else if s.stat.fwState.get = fwLoadFailed then
      if offset = 0 then
        takeImage { s with stat.fwState := V3.all fwLoader, stat.fwCause := 0, fw.expected := 0, fw.length := 0 } bytes
      else s
    else logAccess s .mgp offset.toNat)

/-- The image held is whole, no tile of it is uncorrectable, and its digest is the header's (R309, R312, R368). -/
def imageGood (s : State) : Bool :=
  let n := s.fw.length
  decide (4096 ≤ n) && decide (n ≤ s.fw.image.length) &&
    !(s.lat.errors.any fun e => e.uncorrectable && decide (e.mac < 4 ∧ (e.mac * 384 + e.tile) * 256 < n)) &&
    sha256 ((s.fw.image.take n).drop 64) = (s.fw.image.take 64).drop 32

/-- The boot ROM has read all of the image (R310, R312); in Spring from Winter, its third step is done (R391). -/
def bootCheck (s : State) : State :=
  if imageGood s then
    let t := { s with fw.checked := true }
    if s.power.moving ∧ s.power.fromWinter ∧ s.power.springStep = 2 then { t with power.springStep := 3 } else t
  else failLoad s 5

/-- The boot ROM is checking the digest: not while a core reset still waits for the apply stop (R385). -/
def bootChecks (s : State) : Bool :=
  s.stat.fwState.get = fwChecking && !s.fw.checked && (s.rst.phase = .running || s.rst.phase = .coreBooting)

/-- BOOT_CHECK_DONE. -/
def execBootCheckDone (s : State) : Out := .next (if bootChecks s then bootCheck s else s)

/-- Firmware's start writes its data memory whole (R368, R385). -/
def freshDataMemory (s : State) : State :=
  { s with lat.errors := s.lat.errors.filter fun e => e.mac ≠ 90 ∧ e.mac ≠ 91 }

/-- FAULT for a command that a core reset interrupted, with the results its stop left (R312, R383). -/
def answerInterrupted (s : State) (mb : Fin 8) : State :=
  if (box s mb).busy then respond s mb stFault 0xFFFF (look [] mb s.rst.results) else s

/-- Firmware runs after a core reset: interrupted commands are answered, and the ports are present (R312, R385). -/
def finishCoreReset (s : State) : State :=
  let t := forEach (List.finRange 8) answerInterrupted { s with stat.fwState := V3.all fwIsRunning }
  servePeer (setPresence { t with rst.phase := .running, rst.results := [], mb.waiting := [] } allPresent)

/-- Firmware runs after a power-on or system reset: MSP, LKP and FBP become present (R384 step 4). -/
def finishBoot (s : State) : State :=
  setPresence { s with stat.fwState := V3.all fwIsRunning, power.season := V3.all 0, power.target := 0 } allPresent

end Sys2Proof.Machine
end

