-- ==== Sys2Proof/Machine/Repair.lean ====
section
/-! DEFINITION. The SRAM macros and their lattice code, remaps and spares, the consequences of uncorrectable tiles,
fencing and testing of units, BIST, and the test wrapper (R295, R296, R357 to R371, R375 to R377, R394 to R398). -/

namespace Sys2Proof.Machine

/-! ### Macros (R357) -/

/-- Size of a macro in KiB; 0 beyond the 96 macros. -/
def macroKiB (m : Nat) : Nat :=
  if m < 4 then 96
  else if m < 36 then 128
  else if m < 40 then 64
  else if m < 46 then 128
  else if m < 48 then 64
  else if m = 48 then 32
  else if m = 49 then 16
  else if m < 54 then 64
  else if m = 54 then 16
  else if m < 59 then 64
  else if m < 64 then 16
  else if m < 68 then 32
  else if m < 72 then 64
  else if m = 72 then 16
  else if m < 81 then 64
  else if m < 83 then 32
  else if m = 83 then 16
  else if m = 84 then 64
  else if m < 87 then 32
  else if m < 92 then 64
  else if m < 94 then 16
  else if m = 94 then 4
  else if m = 95 then 16
  else 0

/-- Lattice tiles of a macro, and its 8-byte words (R358). -/
def macroTiles (m : Nat) : Nat := 4 * macroKiB m

def macroWords (m : Nat) : Nat := 128 * macroKiB m

/-- Unit in whose name a macro's errors are logged (R349; log entry 69). -/
def macroUnit (m : Nat) : Nat :=
  if m < 4 then 9
  else if m < 40 then 2
  else if m < 50 then 0
  else if m < 53 then 2
  else if m < 55 then 0
  else if m < 64 then 3
  else if m < 73 then 4
  else if m < 77 then 8
  else if m < 82 then 7
  else if m = 82 then 0
  else if m = 83 then 7
  else if m = 84 then 8
  else if m < 88 then 6
  else if m < 90 then 5
  else if m < 92 then 9
  else if m = 92 then 7
  else if m = 93 then 11
  else if m = 94 then 10
  else 2

/-- Macros of the fold buffer, and of the parity merge store: spare rows in place of a remap table (R365). -/
def isFb (m : Nat) : Bool := decide (4 ≤ m ∧ m ≤ 35)

def isPs (m : Nat) : Bool := decide (36 ≤ m ∧ m ≤ 39)

/-- Row of the part that a word of a macro lies in: 1 KiB, 128 words (R365). -/
def rowOf (m word : Nat) : Nat := if isFb m then (m - 4) * 128 + word / 128 else (m - 36) * 64 + word / 128

/-! ### Remap tables and spares (R363 to R366) -/

def isRemapped (s : State) (m word : Nat) : Bool :=
  if isFb m then s.lat.softFb.contains (rowOf m word)
  else if isPs m then s.lat.softPs.contains (rowOf m word)
  else s.lat.remaps.any fun r => r.mac = m ∧ r.word = word

/-- The first free entry of a macro's table. -/
def freeEntry (s : State) (m : Nat) : Option Nat :=
  (List.range 8).find? fun j => !(s.lat.remaps.any fun r => r.mac = m ∧ r.entry = j)

/-- Install a remap, or switch in the next free spare row; none when the table or the spares are used up. A word that is
remapped already keeps its spare (log entry 70). -/
def installRemap (s : State) (m word : Nat) : Option State :=
  if isRemapped s m word then some s
  else if isFb m then
    (if s.fuses.fbRows.toNat + s.lat.softFb.length < 64 then some { s with lat.softFb := s.lat.softFb ++ [rowOf m word] }
     else none)
  else if isPs m then
    (if s.fuses.psRows.toNat + s.lat.softPs.length < 16 then some { s with lat.softPs := s.lat.softPs ++ [rowOf m word] }
     else none)
  else (freeEntry s m).map fun j => { s with lat.remaps := s.lat.remaps ++ [{ mac := m, entry := j, word := word }] }

/-- Release a remap or a soft spare. -/
def releaseRemap (s : State) (m word : Nat) : State :=
  if isFb m then { s with lat.softFb := s.lat.softFb.filter fun r => r ≠ rowOf m word }
  else if isPs m then { s with lat.softPs := s.lat.softPs.filter fun r => r ≠ rowOf m word }
  else { s with lat.remaps := s.lat.remaps.filter fun r => !decide (r.mac = m ∧ r.word = word) }

/-- LATTICE_REMAP (R366). -/
def remapWork (mb : Fin 8) (t : TakenCmd) (s : State) : State :=
  let m := fld t.cmd 8 2
  let word := fld t.cmd 12 4
  if 96 ≤ m then badArg s mb 8
  else if 1 < fld t.cmd 10 1 then badArg s mb 10
  else if macroWords m ≤ word then badArg s mb 12
  else if fld t.cmd 10 1 = 0 then
    match installRemap s m word with
    | some u => respondOk u mb
    | none => resource { s with lat.remapFull := true } mb 0xFFFF
  else if isRemapped s m word then respondOk (releaseRemap s m word) mb
  else wrongState s mb

def execLatticeRemap (src : CmdSrc) (s : State) : Out := mailboxRow 0x19 remapWork src s

/-- HY_LATTICE_ACCESS: a write of a remap table, or the soft spares made permanent; the instrument is read-only in
Field-Production (R296, R365). -/
def execHyLatticeAccess (w : LatticeWrite) (s : State) : Out :=
  .next (
    if !s.power.on ∨ s.fuses.lcs = 1 then s
    else match w with
    | .setEntry m entry word valid =>
      if isFb m ∨ isPs m ∨ macroWords m ≤ word.toNat then s
      else
        let rest := s.lat.remaps.filter fun r => !decide (r.mac = m ∧ r.entry = entry.val)
        { s with lat.remaps := if valid then rest ++ [{ mac := m, entry := entry.val, word := word.toNat }] else rest }
    | .makePermanent =>
      { s with
        fuses := { s.fuses with
          fbRows := s.fuses.fbRows + BitVec.ofNat 8 s.lat.softFb.length
          psRows := s.fuses.psRows + BitVec.ofNat 8 s.lat.softPs.length }
        lat.softFb := []
        lat.softPs := [] })

/-! ### The lattice code (R358, R359) -/

/-- The error at a byte offset of a tile, 0 to 287. -/
def errAt (p : List (Nat × Byte)) (off : Nat) : Byte :=
  p.foldl (fun x e => if e.1 = off then x ^^^ e.2 else x) 0

/-- Column syndrome of an error pattern. -/
def sp (p : List (Nat × Byte)) (j : Nat) : Byte :=
  (List.range 16).foldl (fun x i => x ^^^ errAt p (16 * i + j)) (errAt p (256 + j))

/-- Weighted syndrome of an error pattern. -/
def sq (p : List (Nat × Byte)) (j : Nat) : Byte :=
  (List.range 16).foldl (fun x i => x ^^^ gfMul (gfExp i) (errAt p (16 * i + j))) (errAt p (272 + j))

/-- What the check of a tile finds. -/
inductive TileVerdict where
  | clean
  | data (symbol : Nat)
  | parityP
  | parityQ
  | uncorrectable
deriving DecidableEq, Repr

/-- The half that holds every nonzero byte of a syndrome, if one does. -/
def halfOf (syn : List Byte) : Option Nat :=
  if (syn.drop 8).all fun b => b = 0 then some 0
  else if (syn.take 8).all fun b => b = 0 then some 1
  else none

/-- Judge the syndromes of a tile (R359). -/
def judge (a b : List Byte) : TileVerdict :=
  let zero (l : List Byte) : Bool := l.all fun x => x = 0
  if zero a then
    if zero b then .clean else match halfOf b with
      | some _ => .parityQ
      | none => .uncorrectable
  else match halfOf a with
    | none => .uncorrectable
    | some h =>
      if zero b then .parityP
      else match (List.range 16).find? fun r => decide (b = a.map fun x => gfMul (gfExp r) x) with
        | some r => .data (2 * r + h)
        | none => .uncorrectable

/-- The verdict on a tile whose content differs from a codeword by the pattern. -/
def judgeTile (p : List (Nat × Byte)) : TileVerdict := judge ((List.range 16).map (sp p)) ((List.range 16).map (sq p))

/-! ### Mends (R360, R364) -/

/-- Detail of a LAT_CORR or LAT_UNCORR report (R360). -/
def latDetail (m tile sym kind : Nat) : Nat := tile + sym * 2 ^ 24 + kind * 2 ^ 30 + m * 2 ^ 32

/-- Firmware remaps a word; with no entry or spare row left it sets REMAP_FULL and logs LAT_CORR with bit 29 (R364). -/
def firmwareRemap (s : State) (m word : Nat) : State :=
  match installRemap s m word with
  | some t => { t with lat.mended := t.lat.mended.filter fun e => !decide (e.1 = m ∧ e.2.1 = word) }
  | none =>
    logReport { s with lat.remapFull := true } clLatCorr (srcOf (macroUnit m) m)
      (latDetail m (word / 32) (word % 32) 0 + 2 ^ 29)

/-- A word has been mended: the second time within 1 s of GTC time, firmware remaps it (R364). -/
def noteMend (s : State) (m word : Nat) : State :=
  let now := s.time.gtc
  match s.lat.mended.find? fun e => e.1 = m ∧ e.2.1 = word with
  | some e =>
    let others := s.lat.mended.filter fun q => !decide (q.1 = m ∧ q.2.1 = word)
    if now.toNat < e.2.2.2.toNat + 1000000000 then
      let t := { s with lat.mended := others ++ [(m, word, e.2.2.1 + 1, e.2.2.2)] }
      if fwRunning s ∧ !isRemapped s m word then firmwareRemap t m word else t
    else { s with lat.mended := others ++ [(m, word, 1, now)] }
  | none => { s with lat.mended := s.lat.mended ++ [(m, word, 1, now)] }

/-- Effects of a mend: kind 0 data symbol, 1 P, 2 Q (R360). -/
def mend (s : State) (m tile sym kind : Nat) : State :=
  let t := count { s with
    lat := { s.lat with
      corr := true, lastMacro := BitVec.ofNat 10 m, lastTile := BitVec.ofNat 20 tile, lastSymbol := BitVec.ofNat 5 sym }
    beacon.mends := s.beacon.mends + 1 } cntLatCorr
  let u := logReport t clLatCorr (srcOf (macroUnit m) m) (latDetail m tile sym kind)
  if kind = 0 then noteMend u m (tile * 32 + sym) else u

/-! ### Fencing a cluster or a slice (R375, R376) -/

/-- The logical cluster that a physical one serves. -/
def logicalOf (c : Ctrl) (p : Nat) : Option (Fin 4) := (List.finRange 4).find? fun l => physOf c l = p

/-- An unfenced reserve that no switch-in has claimed. -/
def reserveFree (s : State) : Bool := !s.apply.fenced.contains (reserveOf s.ctrl) && s.apply.switching.isNone

/-- Fence a physical cluster: a named one gives way to the reserve at the tile boundary, the reserve at once. -/
def fenceCluster (s : State) (p : Nat) (mb : Option (Fin 8)) (test : Bool) : Option State :=
  match logicalOf s.ctrl p with
  | some l => if reserveFree s then some (switchIn { s with apply.switching := some (l, p, mb, test) }) else none
  | none => some (fenceDone { s with apply.fenced := addNew p s.apply.fenced } mb false test p)

/-- Fence a GF slice: at most one is fenced (R376). -/
def fenceSlice (s : State) (i : Nat) (mb : Option (Fin 8)) (test : Bool) : Option State :=
  if s.apply.sliceFenced = none ∨ s.apply.sliceFenced = some i then
    some (fenceDone { s with apply.sliceFenced := some i } mb true test i)
  else none

/-- Return a cluster or slice to service. -/
def returnUnit (s : State) (slice : Bool) (i : Nat) : Option State :=
  if slice then
    (if s.apply.sliceFenced = some i then
      some (logReport { s with apply.sliceFenced := none } clOther (srcOf 1 i) i) else none)
  else if s.apply.fenced.contains i then
    some (logReport { s with apply.fenced := s.apply.fenced.filter fun p => p ≠ i } clOther (srcOf 3 i) i)
  else none

/-- UNIT_FENCE (R375 to R377). -/
def fenceWork (mb : Fin 8) (t : TakenCmd) (s : State) : State :=
  let slice := decide (fld t.cmd 8 1 = 1)
  let i := fld t.cmd 9 1
  let action := fld t.cmd 10 1
  if 1 < fld t.cmd 8 1 then badArg s mb 8
  else if (if slice then 8 else 5) ≤ i then badArg s mb 9
  else if 2 < action then badArg s mb 10
  else if action = 1 ∧ s.power.season.get = 1 then wrongState s mb
  else if action = 1 ∧ s.bist.state = 1 then
    busyWith s mb (match s.bist.test with | some q => q.1 | none => none)
  else if action = 2 then
    match returnUnit s slice i with
    | some u => respondOk u mb
    | none => wrongState s mb
  else
    match (if slice then fenceSlice (accepted s mb) i (some mb) (decide (action = 1))
      else fenceCluster (accepted s mb) i (some mb) (decide (action = 1))) with
    | some u => u
    | none => wrongState s mb

def execUnitFence (src : CmdSrc) (s : State) : Out := mailboxRow 0x18 fenceWork src s

/-- The signature fused for a set and a unit (R397; log entry 9). -/
def fusedSignature (s : State) (set unit : Nat) : U64 :=
  ((s.fuses.signatures.find? fun f => f.1 = set ∧ f.2.1 = unit).map fun f => f.2.2).getD 0

/-- FENCE_TEST_DONE: the fenced unit's patterns have run; the command completes with OK whatever the verdict (R377). -/
def execFenceTestDone (signature : U64) (s : State) : Out :=
  .next (match s.bist.test with
    | none => s
    | some (mb, slice, i) =>
      let bad := decide (signature ≠ fusedSignature s (if slice then 0x81 else 0x80) i)
      let t := { s with bist := { s.bist with
        state := 2
        verdict := if bad then 1 else 0
        fail := if bad then BitVec.ofNat 32 (2 ^ i) else 0
        sig := signature
        test := none } }
      let u := if bad then logReport t clBist (srcOf (if slice then 1 else 3) i) i else t
      respondOpt u mb stOk 0)

/-! ### Uncorrectable tiles (R367 to R371) -/

/-- The control core traps (R368). -/
def trap (s : State) (detail : Nat) : State :=
  if fwRunning s then logReport { s with stat.fwState := V3.all fwTrapped } clFetchTrap (srcOf 9 0) detail else s

/-- The instance ends its membership (R370). -/
def withdraw (s : State) : State :=
  if codingActive s then
    refreshStatusLine { s with cap.barred := true, agree.withdrawn := true }
  else s

/-- The apply run stops as a fault stops it (R180, R371). -/
def faultRun (s : State) : State :=
  let halt (r : ApplyRun) : ApplyRun :=
    if finishesTiles r.stop then { r with stop := .fault, faultIndex := newestIndex s } else r
  { s with apply.run := s.apply.run.map halt }

/-- Recipes laid one after another from the start of recipe memory, in the order of their loads (log entry 69):
(recipe, first byte). -/
def recipePlaces : Nat → List Recipe → List (Recipe × Nat)
  | _, [] => []
  | at_, r :: t => (r, at_) :: recipePlaces (at_ + r.length) t

/-- Recipes in a bad tile become unloaded; a run of one of them stops with FAULT. -/
def loseRecipes (s : State) (m tile : Nat) : State :=
  let lo := ((m - 55) * 256 + tile) * 256
  let lost := ((recipePlaces 0 s.apply.recipes).filter fun p => overlap p.2 p.1.length lo 256).map fun p => p.1.id
  let t := { s with apply.recipes := s.apply.recipes.filter fun r => !lost.contains r.id }
  match s.apply.run with
  | some r => if lost.contains r.recipe.id then faultRun t else t
  | none => t

/-- A bad register-file tile: the run stops with FAULT, and firmware fences the cluster if the reserve is free. -/
def loseCluster (s : State) (p : Nat) : State :=
  let t := faultRun s
  if fwRunning s ∧ reserveFree t then (fenceCluster t p none false).getD t else t

/-- Exchange commands stop as R205 sets out. -/
def faultExchange (s : State) : State := forEach s.exch.reduces (fun t r => endReduce t r stFault (newestIndex s) 0 noCancel) s

/-- A channel halts (R369). -/
def haltTier (s : State) (c : Nat) : State :=
  let t := logReport s clChannelHalt (srcOf 8 c) c
  writeProgress { t with tier.halted := setBit t.tier.halted c true, tier.haltFlag := true }

def haltRebuild (s : State) (c : Nat) : State :=
  let t := logReport s clChannelHalt (srcOf 7 c) c
  let h := setBit t.recov.halted c true
  let u := { t with recov.halted := h }
  if h = 0xF ∧ s.recov.halted ≠ 0xF then failRecovery u else u

/-- Digests of 32 rows are computed again from their bays at home; protected writes to those rows wait (R371). -/
def loseDigests (s : State) (m tile : Nat) : State :=
  let rows := ((List.range 32).map fun i => ((m - 40) * 512 + tile) * 32 + i).filter fun r => decide (r < rowsY s)
  { s with cap.recompute := rows.foldl (fun l r => addNew r l) s.cap.recompute }

/-- Entries of the error log in a tile are released, eight to a tile, or the queued events, sixteen to a tile; their
number is added to ERR_OVF15 (R357; log entry 71). -/
def loseEntries (s : State) (tile : Nat) : State :=
  let inTile (k : Nat) : Bool := decide ((s.log.oldest.toNat + k) % 256 / 8 = tile)
  let gone := (s.log.entries.zipIdx.filter fun e => inTile e.2).length
  let first := ((List.range s.log.entries.length).takeWhile inTile).length
  let lostEvents := if 32 ≤ tile then (s.events.queue.drop (16 * (tile - 32))).take 16 else []
  { s with
    log := { s.log with
      entries := (s.log.entries.zipIdx.filter fun e => !inTile e.2).map Prod.fst
      oldest := s.log.oldest + BitVec.ofNat 8 first
      ovf := s.log.ovf.set 15 (satAdd 16 (s.log.ovf.get 15) (gone + lostEvents.length)) }
    events.queue := s.events.queue.take (16 * (tile - 32)) ++ (s.events.queue.drop (16 * (tile - 32))).drop lostEvents.length }

/-- The twin search restarts (R371). -/
def restartSearch (s : State) : State := if s.twin.state = 3 then compareTwins s else s

/-- A tile of the plan fragment buffer, which holds one fragment, is lost: its fragment and those after it are awaited
again, and PLAN_NEED restores them (R240, R371; DEDUCED, log entry 97). -/
def loseFragments (s : State) (tile : Nat) : State :=
  if s.bcast.complete ∨ s.bcast.ended then s
  else match (List.range s.bcast.fragments.length).find? fun i =>
      decide (i % 256 = tile ∧ s.bcast.fragments.length ≤ i + 256) with
    | some i => { s with bcast.fragments := s.bcast.fragments.take i }
    | none => s

/-- What the owning part does about an uncorrectable tile with live content (R357, R368 to R371). -/
def consequence (s : State) (m tile detail : Nat) : State :=
  if m < 4 ∨ m = 90 ∨ m = 91 then trap s detail
  else if m < 40 then withdraw s
  else if m < 44 then loseDigests s m tile
  else if m < 55 then withdraw s
  else if m < 59 then loseRecipes s m tile
  else if m < 64 then loseCluster s (m - 59)
  else if m < 73 then faultExchange s
  else if m < 77 then haltTier s (m - 73)
  else if m < 81 then haltRebuild s (m - 77)
  else if m = 87 then loseFragments s tile
  else if m = 92 then restartSearch s
  else if m = 93 then loseEntries s tile
  else if m = 94 then { s with beacon.bktA := Vector.replicate 6 0, beacon.bktB := Vector.replicate 6 0 }
  else if m = 95 then withdraw s
  else s

/-- An uncorrectable tile: LAT_STAT.UNCORR, the log entry with its event, then the consequence if the tile holds live
content of its part (R362, R367). -/
def tileLost (s : State) (m tile : Nat) (live : Bool) : State :=
  let t := logReport { s with lat := { s.lat with
      uncorr := true, lastMacro := BitVec.ofNat 10 m, lastTile := BitVec.ofNat 20 tile } }
    clLatUncorr (srcOf (macroUnit m) m) (latDetail m tile 0 0)
  if live then consequence t m tile (latDetail m tile 0 0) else t

/-- The error pattern of a tile: what it held and what has been upset since; spare words have no error (R363). -/
def tilePattern (s : State) (m tile : Nat) (upset : List (Nat × Byte)) : List (Nat × Byte) :=
  let held := match s.lat.errors.find? fun e => e.mac = m ∧ e.tile = tile with
    | some e => e.bytes
    | none => []
  (held ++ upset).filter fun e => !(decide (e.1 < 256) && isRemapped s m (tile * 32 + e.1 / 8))

/-- The patrol scrub, or the owning part, reads a tile: mended, or handled as uncorrectable. -/
def scrub (s : State) (m tile : Nat) (upset : List (Nat × Byte)) (live : Bool) : State :=
  let p := tilePattern s m tile upset
  let rest := s.lat.errors.filter fun e => !decide (e.mac = m ∧ e.tile = tile)
  let t := { s with lat.errors := rest }
  match judgeTile p with
  | .clean => t
  | .data sym => mend t m tile sym 0
  | .parityP => mend t m tile 0 1
  | .parityQ => mend t m tile 0 2
  | .uncorrectable =>
    tileLost { s with lat.errors := rest ++ [{ mac := m, tile := tile, bytes := p, uncorrectable := true }] } m tile live

/-- The SRAM has power, and the reset block is not writing it. -/
def sramUp (s : State) : Bool := s.power.on && s.power.season.get ≠ 2 && s.rst.phase ≠ .initialising

/-- PATROL_SCRUB (R359 to R362). -/
def execPatrolScrub (mac tile : Nat) (upset : List (Nat × Byte)) (live : Bool) (s : State) : Out :=
  .next (if sramUp s ∧ tile < macroTiles mac then scrub s mac tile upset live else s)

/-- Digest of a member bay as its home holds it (R139). -/
def homeDigest (s : State) (b : Nat) : U64 :=
  match bayHome s b with
  | none => 0
  | some h => (s.mem.linesIn h mib).foldl (fun x l => x ^^^ lineTerm (bayKey s b) l (s.mem.line (h + l * 64))) 0

/-- DIGEST_RECOMPUTE_DONE: the rows' digests are formed again and the held writes go on; lines of those rows that wait
in the capture queue come first (R371). -/
def execDigestRecomputeDone (s : State) : Out :=
  .next (
    if s.cap.recompute = [] ∨ (s.cap.queue.any fun c => s.cap.recompute.contains c.bay) ∨
        (s.cap.oldReads.any fun o => match bayLine s o.addr with | some bl => s.cap.recompute.contains bl.1 | none => false)
    then s
    else
      let t := forEach s.cap.recompute (fun u b => { u with digests := putDigest u.digests b (homeDigest u b) }) s
      retryHeld { t with
        cap.recompute := []
        lat.errors := t.lat.errors.filter fun e => !decide (40 ≤ e.mac ∧ e.mac ≤ 43) })

/-! ### BIST (R394 to R398) -/

/-- Units a set tests (R394, R395). -/
def setUnits (set : Nat) : List Nat :=
  let logic := List.range 15
  let macros := [16, 17, 18, 19, 20, 21]
  match set with
  | 0 => logic ++ macros
  | 2 => logic
  | _ => macros

/-- Ascending order, but for bits 13, 16 and 20, which run last (R397). -/
def bistOrder (us : List Nat) : List Nat :=
  (us.filter fun u => u ≠ 13 ∧ u ≠ 16 ∧ u ≠ 20) ++ us.filter fun u => u = 13 ∨ u = 16 ∨ u = 20

/-- Source of a BIST entry (R349; log entry 69). -/
def bistSource (u : Nat) : U16 :=
  if u < 3 then srcOf u 0
  else if u < 8 then srcOf 3 (u - 3)
  else match u with
  | 8 => srcOf 4 0
  | 9 => srcOf 5 0
  | 10 => srcOf 6 0
  | 11 => srcOf 7 0
  | 12 => srcOf 8 0
  | 13 => srcOf 9 0
  | 14 => srcOf 11 0
  | 16 => srcOf 9 0
  | 17 => srcOf 2 4
  | 18 => srcOf 2 36
  | 19 => srcOf 11 40
  | 20 => srcOf 9 90
  | _ => srcOf 11 92

/-- BIST_RUN (R323, R394 to R396). -/
def bistWork (mb : Fin 8) (t : TakenCmd) (s : State) : State :=
  let set := fld t.cmd 8 1
  let mask : U32 := BitVec.ofNat 32 (fld t.cmd 12 4)
  let units := setUnits set
  let chosen := if mask = 0 then units else units.filter fun u => mask.getLsbD u
  if s.fuses.lcs = 1 ∧ (boundPort mb ≠ .mgp ∨ set ≠ 0) then respond s mb stNotPermitted (bindCode mb) []
  else if 3 < set then badArg s mb 8
  else if (bitsOf 32 mask).any fun b => !units.contains b then badArg s mb 12
  else if s.power.season.get ≠ 0 ∨ 2 < s.job.state.toNat then wrongState s mb
  else match otherLong s mb with
    | some o => busyWith s mb (some o)
    | none =>
      if s.bist.test.isSome then busyWith s mb none
      else
        let u := accepted s mb
        { u with bist :=
            { state := 1, set := BitVec.ofNat 8 set, verdict := 2, fail := 0, sig := 0, run := some mb,
              left := bistOrder chosen, failed := 0, sigFailed := none, lastSig := 0, stop := false, aborts := [],
              startGtc := s.time.gtc, test := none } }

def execBistRun (src : CmdSrc) (s : State) : Out := mailboxRow 0x16 bistWork src s

/-- The unit is the lowest that has failed so far. -/
def lowestFailed (failed : U32) (u : Nat) : Bool := (bitsOf 32 failed).all fun b => decide (u < b)

/-- The run ends: the registers change together, the response, an ABORT that waited, a core reset that was held
(R356, R382, R397, R398). -/
def endBist (s : State) (mb : Fin 8) : State :=
  let b := s.bist
  let v : BitVec 2 := if b.stop then 2 else if b.failed = 0 then 0 else 1
  let t := { s with bist := { b with
    state := 2, verdict := v, fail := b.failed, sig := b.sigFailed.getD b.lastSig, run := none, left := [],
    stop := false, aborts := [] } }
  let u := respond t mb stOk 0
    [(8, 1, v.toNat), (12, 4, b.failed.toNat), (16, 8, (s.time.gtc - b.startGtc).toNat)]
  releaseHeldReset (forEach b.aborts (fun w m => respond w m stOk 0 [(8, 1, stOk)]) u)

/-- BIST_UNIT_DONE: compare the signature, note a failure, go on with the next unit or end (R397, R398). -/
def execBistUnitDone (signature : U64) (s : State) : Out :=
  .next (match s.bist.run, s.bist.left with
    | some mb, u :: rest =>
      let bad := decide (signature ≠ fusedSignature s s.bist.set.toNat u)
      let t := { s with bist := { s.bist with
        left := rest
        lastSig := signature
        sigFailed := if bad ∧ lowestFailed s.bist.failed u then some signature else s.bist.sigFailed
        failed := if bad then setBit s.bist.failed u true else s.bist.failed } }
      let v := if bad then logReport t clBist (bistSource u) u else t
      if rest = [] ∨ s.bist.stop then endBist v mb else v
    | some mb, [] => endBist s mb
    | none, _ => s)

/-! ### The wrapper (R295) -/

/-- Decode a wrapper instruction: WRSTN, codes without an instruction, and instructions outside their life-cycle states
select WS_BYPASS. -/
def wrapperCode (s : State) (code : Option (BitVec 4)) : BitVec 4 :=
  match code with
  | none => 0
  | some c => if 4 < c.toNat ∨ (s.fuses.lcs = 1 ∧ (c = 1 ∨ c = 3)) then 0 else c

/-- WRAPPER_INSTRUCTION_UPDATE: under WS_EXTEST, WS_CLAMP and WS_SAFE partners see every port as absent (log
entry 72). -/
def execWrapperInstructionUpdate (code : Option (BitVec 4)) (s : State) : Out :=
  .next (
    if !s.power.on then s
    else
      let c := wrapperCode s code
      let t := { s with ports.wir := c }
      if c = 1 ∨ c = 3 ∨ c = 4 then
        match s.ports.wrapped with
        | some _ => t
        | none => showPorts { t with ports.wrapped := some (presence s) } noneReady
      else match s.ports.wrapped with
        | some p => showPorts { t with ports.wrapped := none } p
        | none => t)

end Sys2Proof.Machine
end

