-- ==== Sys2Proof/Machine/Power.lean ====
section
/-! DEFINITION. Seasons, firmware start, the Beacon, the GTC input and its edges, and stores discarded at LKP
(R232 to R237, R284, R288, R293, R294, R304, R305, R339, R352, R385 to R393). -/

namespace Sys2Proof.Machine

/-! ### Seasons (R387 to R393) -/

/-- POWER_SET (R389). -/
def powerWork (mb : Fin 8) (t : TakenCmd) (s : State) : State :=
  let arg := fld t.cmd 8 1
  let busyAutumn := ([0x0C, 0x0D, 0x0E, 0x10, 0x12, 0x13, 0x1B].findSome? fun op => longMailbox s op)
  let start (u : State) : State :=
    { u with power := { u.power with moving := true, target := BitVec.ofNat 2 arg, mailbox := some mb } }
  if 2 < arg then badArg s mb 8
  else if s.power.moving then busyWith s mb s.power.mailbox
  else if s.power.season.get.toNat = arg then respondOk s mb
  else if arg = 0 then
    let u := startSpring (accepted s mb)
    { u with power.mailbox := some mb }
  else if arg = 1 then
    match busyAutumn with
    | some o => busyWith s mb (some o)
    | none =>
      if s.bist.test.isSome then busyWith s mb none
      else if (recState s ≠ recNone ∧ recState s ≠ recDone ∧ recState s ≠ recFailed) ∨ s.twin.state ≠ 0 then wrongState s mb
      else start (accepted s mb)
  else if 2 < s.job.state.toNat ∨ (otherLong s mb).isSome then wrongState s mb
  else start (accepted s mb)

def execPowerSet (src : CmdSrc) (s : State) : Out := mailboxRow 0x15 powerWork src s

/-- What an instance in Winter keeps: the Beacon and its registers, RST_CAUSE, image memory, remap tables and soft
spares, COMPAT_A, the partition, the status line and the time it keeps; everything else is as a system reset leaves it
(R387, R389, R392). -/
def unpowered (s : State) : State :=
  let t := releaseMsp s
  { State.reset with
    fuses := t.fuses
    ctrl := { Ctrl.reset with compatA := t.ctrl.compatA }
    rst := { t.rst with results := [] }
    fw := { t.fw with checked := false }
    job := { JobS.reset with part := t.job.part, state := if t.job.part.isSome then 1 else 0 }
    mem := t.mem
    cap := { CapS.reset with verdicts := t.cap.verdicts }
    agree := { AgreeS.reset with health := t.agree.health, statusLine := t.agree.statusLine }
    bcast := { BcastS.reset with wokeBy := t.bcast.wokeBy }
    beacon := t.beacon
    power := t.power
    lat := { LatS.reset with
      errors := t.lat.errors.filter fun e => decide (e.mac < 4)
      remaps := t.lat.remaps
      softFb := t.lat.softFb
      softPs := t.lat.softPs }
    events := t.events
    ports := { t.ports with gtcFault := false, linkFault := 0 }
    time := { TimeS.reset with
      gtc := t.time.gtc
      onDelayLine := t.time.onDelayLine
      goodEdges := t.time.goodEdges }
    out := t.out
    freeCtr := t.freeCtr
    pending := t.pending }

/-- A transition into Autumn or Winter has ended: a wake cause that was kept starts Spring, else a core reset that was
held goes on (R382, R393). -/
def settled (s : State) : State :=
  if s.power.wakeKept then startSpring { s with power.wakeKept := false } else releaseHeldReset s

/-- Autumn is reached: the apply unit, exchange unit, tier mover and rebuild unit sleep (R387, R388). -/
def reachAutumn (s : State) : State :=
  let t := { s with power := { s.power with season := V3.all 1, moving := false, target := 1, asleep := true, mailbox := none } }
  settled (respondOpt (dropStaged t) s.power.mailbox stOk 0)

/-- Winter is reached: the response is complete before the control core sleeps (R389). -/
def reachWinter (s : State) : State :=
  let t := respondOpt s s.power.mailbox stOk 0
  let u := unpowered { t with power := { t.power with
    season := V3.all 2, moving := false, target := 2, asleep := true, mailbox := none } }
  settled (refreshStatusLine (setPresence u (false, false, true, true)))

/-- SEASON_REACHED (R390). -/
def execSeasonReached (s : State) : Out :=
  .next (
    if !s.power.moving then s
    else if s.power.target = 1 then reachAutumn s
    else if s.power.target = 2 then reachWinter s
    else s)

/-- Summer is reached: the sleeping units are IDLE where enabled, POWER_SET is answered, the relay that woke the instance
is asked for the plan (R236, R391). -/
def finishSpring (s : State) : State :=
  let t := { s with power := { s.power with
    season := V3.all 0, target := 0, moving := false, springStep := 0, fromWinter := false, asleep := false,
    mailbox := none } }
  releaseHeldReset (refreshStatusLine (askWaker (respondOpt t s.power.mailbox stOk 0)))

/-- The last step from Winter: firmware restores the partition, and MSP, LKP and FBP become present (R391). -/
def wakeFirmware (s : State) : State :=
  let t := { s with
    stat.fwState := V3.all fwIsRunning
    fw.checked := false
    job.state := if s.job.part.isSome then 1 else 0 }
  finishSpring (setPresence t allPresent)

/-- SPRING_STEP_DONE (R391). -/
def execSpringStepDone (s : State) : Out :=
  .next (
    if !s.power.moving ∨ s.power.season.get ≠ 3 then s
    else if s.power.fromWinter then
      match s.power.springStep with
      | 0 => { s with power.springStep := 1 }
      | 1 =>
        let t := unpowered { s with power.springStep := 2 }
        { t with stat.fwState := V3.all fwChecking }
      | 2 => if bootChecks s then bootCheck s else s
      | _ => wakeFirmware s
    else if s.power.springStep < 2 then { s with power.springStep := s.power.springStep + 1 }
    else finishSpring s)

/-- WAKE: a wake request through MGP (R236). -/
def execWake (s : State) : Out := .next (if s.ports.mgp then wakeCause s else s)

/-- FIRMWARE_READY: firmware has initialised its tables; the mailboxes open (R310 step 4, R384, R385, R391). -/
def execFirmwareReady (s : State) : Out :=
  .next (
    if s.stat.fwState.get = fwChecking ∧ s.fw.checked then
      let t := freshDataMemory { s with fw.checked := false }
      if s.rst.phase = .coreBooting then finishCoreReset t
      else if s.power.moving ∧ s.power.fromWinter then wakeFirmware t
      else finishBoot t
    else s)

/-! ### The Beacon (R232 to R235, R354, R364, R398) -/

/-- A leaky bucket after a sample. -/
def bucket (cap old gain leak e : Nat) : Nat :=
  let v := old + gain * e - leak
  if cap < v then cap else v

/-- A class that becomes lasting: its bit, ALERT and the event (R234). -/
def becomeLasting (s : State) (c : Nat) : State :=
  if s.beacon.lasting.getLsbD c then s
  else raiseEvent { s with beacon.lasting := setBit s.beacon.lasting c true, beacon.alert := true } evBcnAlert (BitVec.ofNat 8 c)

/-- A decision of HANDOVER, while HAND_EN is 1 (R234). -/
def decideHandover (s : State) (c : Nat) : State :=
  if s.beacon.handEn then raiseEvent { s with beacon.handoverReq := true } evBcnHandover (BitVec.ofNat 8 c) else s

/-- Health of heartbeats and status line: HANDOVER, WARN or OK (R211, R234). -/
def refreshHealth (s : State) : State :=
  { s with agree.health := if s.beacon.handoverReq then 2 else if s.beacon.lasting ≠ 0 then 1 else 0 }

/-- Classes 0 to 5: both buckets, and what they decide (R232, R233). -/
def sampleBucket (events : List Nat) (s : State) (c : Fin 6) : State :=
  let e := if c = 5 then s.agree.missed else events.getD c.val 0 + (if c = 0 then s.beacon.mends else 0)
  let a := bucket 4095 (s.beacon.bktA.get c).toNat 10 16 e
  let b := bucket 1048575 (s.beacon.bktB.get c).toNat 1000 64 e
  let t := { s with
    beacon.bktA := s.beacon.bktA.set c.val (BitVec.ofNat 12 a) c.isLt
    beacon.bktB := s.beacon.bktB.set c.val (BitVec.ofNat 20 b) c.isLt }
  if 160 ≤ a ∨ 64000 ≤ b then
    let u := becomeLasting t c.val
    if c = 1 ∧ s.beacon.lasting.getLsbD 1 = false then decideHandover u 1 else u
  else if a = 0 ∧ b = 0 then { t with beacon.lasting := setBit t.beacon.lasting c.val false }
  else t

/-- Consecutive samples for which a condition has held. -/
def runOf (old : Nat) (holds : Bool) : Nat := if holds then old + 1 else 0

/-- Classes 6 and 7: eight consecutive samples (R232). A class ceases to be lasting at the first sample that breaks the
run (log entry 73). -/
def sampleRun (s : State) (c : Nat) (alert hand : Nat) : State :=
  let t := if 8 ≤ alert then becomeLasting s c else { s with beacon.lasting := setBit s.beacon.lasting c false }
  if hand = 8 then decideHandover t c else t

/-- Temperature, supply and power of the sample (R354). -/
def sampleSense (s : State) (temp supply : Byte) (power : U16) : State :=
  let b := s.beacon
  { s with beacon := { b with
    temp := temp
    supply := supply
    power := power
    peak := if b.peak.toNat < power.toNat then power else b.peak
    hotAlert := runOf b.hotAlert (decide (b.tempAlert.toNat < temp.toNat))
    hotHand := runOf b.hotHand (decide (b.tempHand.toNat < temp.toNat))
    lowAlert := runOf b.lowAlert (decide (supply.toNat < b.supAlert.toNat))
    lowHand := runOf b.lowHand (decide (supply.toNat < b.supHand.toNat)) } }

/-- The word mended most often in the last second that is not yet remapped: (macro, word, times). -/
def mostMended (s : State) : Option (Nat × Nat × Nat) :=
  (s.lat.mended.filter fun e => s.time.gtc.toNat < e.2.2.2.toNat + 1000000000 && !isRemapped s e.1 e.2.1).foldl
    (fun m e => match m with
      | none => some (e.1, e.2.1, e.2.2.1)
      | some b => if b.2.2 < e.2.2.1 then some (e.1, e.2.1, e.2.2.1) else m) none

/-- While class 0 is lasting, firmware remaps the most-mended word at each sample (R364). -/
def remapLasting (s : State) : State :=
  if s.beacon.lasting.getLsbD 0 ∧ fwRunning s then
    match mostMended s with
    | some e => firmwareRemap s e.1 e.2.1
    | none => s
  else s

/-- Heat or a low supply stops a BIST run (R398). -/
def guardBist (s : State) : State :=
  if s.bist.run.isSome ∧ s.bist.stop = false ∧ (8 ≤ s.beacon.hotHand ∨ 8 ≤ s.beacon.lowHand) then
    logReport { s with bist.stop := true } clBist (srcOf 10 0) (if 8 ≤ s.beacon.hotHand then 6 else 7)
  else s

/-- Whole 8 µs intervals since a port's mark in which no heartbeat came (R232; log entry 85). -/
def missedOn (s : State) (q : Fin 8) : Nat := (s.time.gtc - s.agree.missMark.get q).toNat / 8000

/-- Count the missed heartbeat intervals of every port whose far end lies in the partition; in Winter the Beacon takes
no heartbeats (R232, R274). -/
def countMissed (s : State) : State :=
  if s.power.season.get = 2 ∨ !s.ports.lkp then { s with agree.missMark := Vector.replicate 8 s.time.gtc }
  else forEach (openPorts s) (fun t q => { t with
      agree.missed := t.agree.missed + missedOn t q
      agree.missMark := t.agree.missMark.set q.val (t.agree.missMark.get q + BitVec.ofNat 64 (8000 * missedOn t q)) q.isLt }) s

/-- BEACON_SAMPLE. -/
def sample (events : List Nat) (temp supply : Byte) (power : U16) (s : State) : State :=
  let t := forEach (List.finRange 6) (sampleBucket events) (countMissed s)
  let u := sampleSense { t with beacon.mends := 0, agree.missed := 0 } temp supply power
  let v := sampleRun (sampleRun u 6 u.beacon.hotAlert u.beacon.hotHand) 7 u.beacon.lowAlert u.beacon.lowHand
  guardBist (remapLasting (refreshHealth v))

/-- BEACON_SAMPLE: at a GTC value that is a multiple of 1,000,000 ns (R232). Class 5 is counted here, by the port. -/
def execBeaconSample (events : List Nat) (temp supply : Byte) (power : U16) (s : State) : Out :=
  .next (if s.power.on ∧ s.time.gtc.toNat % 1000000 = 0 then sample events temp supply power s else s)

/-! ### The GTC input (R293, R294, R304) -/

/-- A GTC fault: time goes on by the delay line (R294). -/
def gtcFails (s : State) : State :=
  let t := { s with
    ports.gtcLock := false
    ports.gtcFault := true
    time.onDelayLine := true
    time.goodEdges := 0 }
  raiseEvent (logReport t clGtc (srcOf 12 0) 0) evGtcFault 0

/-- GTC_FAULT. -/
def execGtcFault (kind : GtcFaultKind) (s : State) : Out :=
  .next (match kind with
    | .wrongValue => if s.power.on then gtcFails s else s
    | .missingEdges => if s.power.on then gtcFails s else s)

/-- Running timers keep their remaining durations when the time jumps (R294). -/
def shiftTimers (s : State) (d : U64) : State :=
  { s with
    rst.phase := match s.rst.phase with | .coreStopping g => .coreStopping (g + d) | p => p
    tide := { s.tide with
      upReport := s.tide.upReport.map fun r => (r.1, r.2.1, r.2.2 + d)
      upFlipped := s.tide.upFlipped.map fun g => g + d
      rootSent := s.tide.rootSent + d }
    agree := { s.agree with
      lastBeat := s.agree.lastBeat.map fun g => g + d
      missMark := s.agree.missMark.map fun g => g + d
      watchAt := s.agree.watchAt.map fun w => (w.1, w.2 + d)
      firstSuspicion := s.agree.firstSuspicion.map fun g => g + d
      timerAt := s.agree.timerAt.map fun g => g + d
      retryAt := s.agree.retryAt.map fun g => g + d
      proposal := s.agree.proposal.map fun p => { p with since := p.since + d } }
    bcast := { s.bcast with
      lastFragment := s.bcast.lastFragment + d
      sentAt := s.bcast.sentAt.map fun c => (c.1, c.2 + d) }
    recov := { s.recov with
      reqs := s.recov.reqs.map fun q => { q with sentAt := q.sentAt + d }
      restartAt := s.recov.restartAt.map fun q => (q.1, q.2 + d) }
    lat.mended := s.lat.mended.map fun e => (e.1, e.2.1, e.2.2.1, e.2.2.2 + d) }

/-- GTC_RELOCK: after four good edges the input's value is the time (R294). -/
def execGtcRelock (value : U64) (s : State) : Out :=
  .next (
    if s.power.on ∧ s.time.onDelayLine then
      let t := shiftTimers s (value - s.time.gtc)
      { t with
        ports.gtcLock := true
        time := { t.time with gtc := value, onDelayLine := false, goodEdges := 4 } }
    else s)

/-- Offset of a V3 field's register and its copies that differ from the majority, for every V3 field (R339). -/
def copyFaults (s : State) : List (Nat × Nat) :=
  [(0x0100, s.ctrl.capEn.faults), (0x0100, s.ctrl.foldEn.faults), (0x0100, s.ctrl.applyEn.faults),
   (0x0100, s.ctrl.exchEn.faults), (0x0100, s.ctrl.compatA.faults), (0x0140, s.ctrl.phys0.faults),
   (0x0140, s.ctrl.phys1.faults), (0x0140, s.ctrl.phys2.faults), (0x0140, s.ctrl.phys3.faults),
   (0x0200, s.stat.fwState.faults), (0x0210, s.tide.slot.faults), (0x0210, s.tide.phase.faults),
   (0x0214, s.tide.tideLo.faults), (0x0218, s.tide.tideHi.faults), (0x021C, s.tide.n.faults),
   (0x0238, s.agree.live.faults), (0x023C, s.agree.epoch.faults), (0x0240, s.recov.state.faults),
   (0x0240, s.recov.lost.faults), (0x5000, s.power.season.faults)]

/-- Every V3 field rewritten from its majority. -/
def voteAll (s : State) : State :=
  let c := s.ctrl
  { s with
    ctrl :=
      { capEn := c.capEn.repair, foldEn := c.foldEn.repair, applyEn := c.applyEn.repair, exchEn := c.exchEn.repair,
        compatA := c.compatA.repair, phys0 := c.phys0.repair, phys1 := c.phys1.repair, phys2 := c.phys2.repair,
        phys3 := c.phys3.repair }
    stat.fwState := s.stat.fwState.repair
    tide := { s.tide with
      slot := s.tide.slot.repair, phase := s.tide.phase.repair, tideLo := s.tide.tideLo.repair,
      tideHi := s.tide.tideHi.repair, n := s.tide.n.repair }
    agree := { s.agree with live := s.agree.live.repair, epoch := s.agree.epoch.repair }
    recov := { s.recov with state := s.recov.state.repair, lost := s.recov.lost.repair }
    power.season := s.power.season.repair }

/-- Each repaired copy raises CNT_VOTE_FIX and logs a VOTE entry (R339). -/
def repairCopies (s : State) : State :=
  forEach (copyFaults s) (fun t f =>
    forEach (List.range f.2) (fun u _ => logReport (count u cntVoteFix) clVote (srcOf 11 0) f.1) t) (voteAll s)

/-- Microsecond boundaries at which a _US counter's condition holds (R352). -/
def countUs (s : State) (n : Nat) : State :=
  let up (t : State) (i : Fin 23) (holds : Bool) : State := if holds then countN t i n else t
  let t := up s cntFbHighUs (decide (3 * 1048576 ≤ fbBytes s.fold.buffer))
  let t := up t cntSqPwUs (!queueRoom s.fold.sendPlus)
  let t := up t cntSqMwUs (!queueRoom s.fold.sendMinus)
  let t := up t cntCapqUs (decide (256 ≤ s.cap.queue.length))
  up t cntOldrdUs (decide (128 ≤ s.cap.oldReads.length))

/-- HS_RATE at the end of a whole microsecond (R305). -/
def measureRate (s : State) (rate : BitVec 12) : State :=
  { s with time := { s.time with
    rate := rate
    belowSlow := decide (rate.toNat < 900)
    rateMin := if s.time.measured ∧ s.time.rateMin.toNat ≤ rate.toNat then s.time.rateMin else rate
    measured := true } }

/-- Microsecond boundaries passed between two edges (R305, R352). -/
def passMicros (s : State) (before : U64) (rate : BitVec 12) : State :=
  let n := s.time.gtc.toNat / 1000 - before.toNat / 1000
  if n = 0 then s
  else
    let t := countUs s n
    let u := if s.time.boundary ∨ 1 < n then measureRate t rate else t
    { u with time.boundary := true }

/-- Refill of the token buckets: the shares of 48 GB/s units over the edges that have passed, up to 8 KiB
(R106, R258). -/
def refill (old share edges : Nat) : Nat := if 8192 < old + share * 480 * edges then 8192 else old + share * 480 * edges

def refillAll (s : State) (edges : Nat) : State :=
  { s with fold := { s.fold with
    tokPlus := refill s.fold.tokPlus s.fold.share edges
    tokMinus := refill s.fold.tokMinus s.fold.share edges
    rbTokPlus := refill s.fold.rbTokPlus s.recov.share edges
    rbTokMinus := refill s.fold.rbTokMinus s.recov.share edges } }

/-- The time after some edges, the last of which carries a value: by the delay line while the input has failed; a value
other than the one due is a GTC fault (R293, R294). -/
def advance (s : State) (edges : Nat) (value : U64) : State :=
  let due := s.time.gtc + BitVec.ofNat 64 (10 * edges)
  if s.time.onDelayLine then { s with time.gtc := due }
  else if s.time.goodEdges = 0 then { s with time.gtc := value, time.goodEdges := 1 }
  else if value ≠ due then gtcFails { s with time.gtc := due }
  else
    let n := s.time.goodEdges + edges
    { s with
      ports.gtcLock := s.ports.gtcLock || decide (4 ≤ n)
      time.gtc := value
      time.goodEdges := if 4 ≤ n then 4 else n }

/-- REFERENCE_EDGE: the time, the microsecond counters and HS_RATE, the tokens and what a handover's copy sends with
them, the repair of V3 copies, and the snapshot of every SNAP field (R264, R293, R304, R305, R339, R352). -/
def edge (edges : Nat) (value : U64) (rate : BitVec 12) (s : State) : State :=
  let t := advance s edges value
  let u := if s.time.goodEdges = 0 ∧ ¬ s.time.onDelayLine then t else passMicros t s.time.gtc rate
  let v := repairCopies (copyOn (refillAll u edges))
  { v with time.snap := snapshot v }

def execReferenceEdge (edges : Nat) (value : U64) (rate : BitVec 12) (s : State) : Out :=
  .next (if s.power.on then edge edges value rate s else s)

/-! ### Stores discarded at LKP (R284, R288) -/

/-- Message types that a channel carries (R288). -/
def listedType (vc : Vc) (t : Nat) : Bool :=
  match vc with
  | .vf => t = 0x10 || t = 0x2A || decide (0x40 ≤ t ∧ t ≤ 0x46)
  | .va => decide (0x11 ≤ t ∧ t ≤ 0x1A) || decide (0x20 ≤ t ∧ t ≤ 0x29) || decide (0x2B ≤ t ∧ t ≤ 0x2F) ||
      decide (0x50 ≤ t ∧ t ≤ 0x52)

/-- A store that no port takes: another offset, the other port's channel, or a type the channel does not carry. -/
def discardable (offset : U16) (vc : Vc) (bytes : List Byte) : Bool :=
  let here : U16 := match vc with | .va => 0x0100 | .vf => 0x0200
  offset ≠ here || !listedType vc (fldAt bytes 0 1)

/-- LKP_STORE_DISCARD; in Winter only stores that reach the fold port are counted (R274). -/
def execLkpStoreDiscard (offset : U16) (vc : Vc) (bytes : List Byte) (s : State) : Out :=
  .next (
    if !s.ports.lkp ∨ !discardable offset vc bytes then s
    else if s.power.season.get = 2 ∧ offset ≠ 0x0200 then s
    else count s cntLkpDiscard)

end Sys2Proof.Machine
end

