-- ==== Sys2Proof/Machine/Registers.lean ====
section
/-! DEFINITION. Register writes, judged field by field, and the read of TIME_LO (R12, R281, R304, R305, R312 to R319,
R334 to R356). -/

namespace Sys2Proof.Machine

/-- The port's master is privileged: MGP always is (R291). -/
def privileged (port : Port) (priv : Bool) : Bool := port = .mgp || priv

/-- A write of a register that is no mailbox's, in the order of R336: the port, privilege, season. No instrument at TAP
writes one (R296). -/
def regWrite (s : State) (port : Port) (priv : Bool) (off : Nat) (f : State → State) : State :=
  if !portOpen s port ∨ port = .tap then s
  else if pvMask off ≠ 0 ∧ !privileged port priv then logAccess s port off
  else if s.power.season.get = 2 ∧ !winterAnswers off then s
  else f s

/-! ### Accesses (R281, R283) -/

/-- An access is a 32-bit one, 4-byte aligned, inside the 64 KiB window (R281). -/
def wellSized (off size : Nat) : Bool := decide (size = 4 ∧ off % 4 = 0 ∧ off + 4 ≤ 0x10000)

/-- How a register access completes. -/
inductive AccessEnd where
  | data (v : U32)
  | error
deriving DecidableEq, Repr

/-- How a register read through a port completes: an absent port, and any other size or alignment, give an error response
(R275, R281). -/
def readAccess (s : State) (port : Port) (priv : Bool) (off size : Nat) : AccessEnd :=
  if !portOpen s port ∨ !wellSized off size then .error else .data (readRegister s port priv off)

/-- What a register read does to the state: an access of another size or alignment is logged (R281), and so is the
refused read of a privileged field (R336). -/
def readEffect (s : State) (port : Port) (priv : Bool) (off size : Nat) : State :=
  if !portOpen s port then s
  else if !wellSized off size then logAccess s port off
  else if port = .fbp ∧ !priv ∧ pvMask off ≠ 0 then logAccess s port off
  else s

/-- The level of MB_IRQ[i]: high while the mailbox holds a completed, unacknowledged command that arrived through FBP; 0
while FBP is absent (R275, R283). -/
def mbIrq (s : State) (mb : Fin 8) : Bool := s.ports.fbp && decide (boundPort mb = .fbp) && (box s mb).done

/-! ### HY_CTRL and APPLY_MAP (R337, R344, R345) -/

/-- COMPAT_A: taken while the mailbox function is disabled; the current value changes nothing (R334, R337). -/
def writeCompat (on : Bool) (s : State) : State :=
  if s.ctrl.compatA.get = bit1 on then s
  else if fwRunning s ∧ !coreResetRuns s then ignoredWrite s
  else { s with ctrl.compatA := V3.all (bit1 on) }

/-- HY_CTRL, each field by its own rule. -/
def writeCtrl (v : U32) (s : State) : State :=
  writeCompat (v.getLsbD 8)
    (writeExchEn (writeApplyEn (writeFoldEn (writeCapEn s (v.getLsbD 0)) (v.getLsbD 1)) (v.getLsbD 2)) (v.getLsbD 3))

/-- APPLY_MAP: taken while APPLY_STAT.STATE is DISABLED; the current value changes nothing (R147, R337). -/
def writeApplyMap (v : U32) (s : State) : State :=
  if applyState s = 3 then writeMap s v
  else if v &&& 0xFFF#32 = mapWord s.ctrl then s
  else ignoredWrite s

/-! ### The error log, counters, and the bits that a write of 1 clears -/

/-- Release the oldest entries (R350, R351). -/
def releaseEntries (n : Nat) (s : State) : State :=
  let k := if s.log.entries.length < n then s.log.entries.length else n
  { s with log := { s.log with entries := s.log.entries.drop k, oldest := s.log.oldest + BitVec.ofNat 8 k } }

/-- Latch the entry at a ring index (R350, R351). -/
def selectEntry (i : Byte) (s : State) : State :=
  { s with log := { s.log with sel := i, ent := BitVec.ofNat 256 (leNat (entryAt s i.toNat)) } }

def clearOverflows (s : State) : State := { s with log.ovf := Vector.replicate 16 0 }

def clearCounters (s : State) : State := { s with cnt := Vector.replicate 23 0 }

/-- HY_STAT (R346). -/
def clearStat (v : U32) (s : State) : State :=
  { s with
    stat.cfgIgnored := s.stat.cfgIgnored && !v.getLsbD 0
    stat.evtOvf := s.stat.evtOvf &&& ~~~(v.extractLsb' 24 8) }

/-- RST_CAUSE (R347). -/
def clearCause (v : U32) (s : State) : State :=
  { s with rst := { s.rst with
      por := s.rst.por && !v.getLsbD 0
      sysMgp := s.rst.sysMgp && !v.getLsbD 1
      sysSupply := s.rst.sysSupply && !v.getLsbD 2
      sysThermal := s.rst.sysThermal && !v.getLsbD 3
      coreMgp := s.rst.coreMgp && !v.getLsbD 4
      coreWdog := s.rst.coreWdog && !v.getLsbD 5
      unit := s.rst.unit &&& ~~~(v.extractLsb' 8 4) } }

/-- LAT_STAT (R353). -/
def clearLat (v : U32) (s : State) : State :=
  { s with lat := { s.lat with
      corr := s.lat.corr && !v.getLsbD 0
      uncorr := s.lat.uncorr && !v.getLsbD 1
      remapFull := s.lat.remapFull && !v.getLsbD 2 } }

/-- BCN_CFG (R237). -/
def writeBcnCfg (v : U32) (s : State) : State :=
  { s with beacon := { s.beacon with
      tempAlert := v.extractLsb' 0 8
      tempHand := v.extractLsb' 8 8
      supAlert := v.extractLsb' 16 8
      supHand := v.extractLsb' 24 8 } }

/-- BCN_STAT: management software clears HANDOVER_REQ here (R235, R237). -/
def clearBcn (v : U32) (s : State) : State :=
  refreshHealth { s with beacon := { s.beacon with
    alert := s.beacon.alert && !v.getLsbD 8
    handoverReq := s.beacon.handoverReq && !v.getLsbD 9
    wake := s.beacon.wake && !v.getLsbD 10 } }

/-- RST_CTRL: the widest reset wins (R348). -/
def resetCtrl (v : U32) (s : State) : State :=
  if v.getLsbD 1 then sysRequest s
  else if v.getLsbD 0 then coreRequest s
  else unitRequest (v.extractLsb' 8 4) s

/-- A write of a register that is no mailbox's and not RST_CTRL; reserved offsets and fields that are read only take
nothing (R12, R335). -/
def blockWrite (off : Nat) (v : U32) (s : State) : State :=
  match off with
  | 0x0100 => writeCtrl v s
  | 0x0140 => writeApplyMap v s
  | 0x0200 => clearStat v s
  | 0x0250 => { s with twin.divEvt := s.twin.divEvt && !v.getLsbD 3 }
  | 0x0260 => { s with ports.gtcFault := s.ports.gtcFault && !v.getLsbD 5 }
  | 0x0300 => clearCause v s
  | 0x2004 => if v.getLsbD 0 then clearOverflows s else s
  | 0x2008 => releaseEntries (v.toNat % 512) s
  | 0x2010 => selectEntry (v.truncate 8) s
  | 0x3000 => if v.getLsbD 0 then clearCounters s else s
  | 0x4000 => clearLat v s
  | 0x4010 => { s with lat.sel := v.truncate 10 }
  | 0x5040 => writeBcnCfg v s
  | 0x5044 => { s with beacon.handEn := v.getLsbD 0, beacon.wakeEn := v.getLsbD 1 }
  | 0x5048 => clearBcn v s
  | _ => s

/-! ### Mailbox registers (R314, R315, R318, R319) -/

/-- A port that may write a mailbox's command area and MB_CTRL. -/
def mayWriteMailbox (port : Port) (mb : Fin 8) : Bool := port = boundPort mb

/-- A port that may clear OVERRUN. -/
def mayClearOverrun (port : Port) (mb : Fin 8) : Bool := port = .mgp || port = boundPort mb

/-- ACK clears DONE and leaves the response in place (R319). -/
def ackBox (s : State) (mb : Fin 8) : State := setBox s mb { box s mb with done := false }

/-- A word of the command area: while BUSY it sets OVERRUN (R315, R318). -/
def writeCmdWord (s : State) (mb : Fin 8) (j : Nat) (v : U32) : State :=
  let b := box s mb
  if b.busy then setBox s mb { b with overrun := true }
  else
    let m : Line := BitVec.ofNat 512 (2 ^ 32 - 1) <<< (32 * j)
    setBox s mb { b with cmd := (b.cmd &&& ~~~m) ||| (v.zeroExtend 512 <<< (32 * j)) }

/-- MB_CTRL: ACK, then GO. -/
def writeMbCtrl (s : State) (mb : Fin 8) (port : Port) (priv : Bool) (v : U32) : State :=
  let t := if v.getLsbD 1 then ackBox s mb else s
  if v.getLsbD 0 then takeCmd mb port priv (box t mb).cmd t else t

/-- A write in a mailbox window: outside the permissions of R314 it is ignored and logged; while firmware does not run
it is ignored. Reserved offsets are ignored (R335). -/
def mailboxWrite (s : State) (port : Port) (priv : Bool) (mb : Fin 8) (o : Nat) (v : U32) : State :=
  let off := 0x1000 + 0x100 * mb.val + o
  if !portOpen s port ∨ s.power.season.get = 2 ∨ 0x8C ≤ o then s
  else if o = 0x80 then
    if !mayClearOverrun port mb then logAccess s port off
    else if fwRunning s ∧ v.getLsbD 11 then setBox s mb { box s mb with overrun := false }
    else s
  else if !mayWriteMailbox port mb then logAccess s port off
  else if !fwRunning s then s
  else if o < 0x40 then writeCmdWord s mb (o / 4) v
  else if o = 0x84 then writeMbCtrl s mb port (privileged port priv) v
  else s

/-! ### The rows -/

/-- RST_CTRL through a port: through FBP or TAP it sets CFG_IGNORED, and a master without privilege is logged too
(R336, R338, R348). -/
def writeRstCtrl (s : State) (port : Port) (priv : Bool) (v : U32) : State :=
  let t := if portOpen s port ∧ port = .fbp ∧ !priv then logAccess s port 0x0310 else s
  resetRequest t port (resetCtrl v)

/-- REGISTER_WRITE: an access that is not aligned completes with an error response and is logged (R281). -/
def writeRegister (s : State) (port : Port) (priv : Bool) (off : Nat) (v : U32) : State :=
  if !portOpen s port then s
  else if !wellSized off 4 then logAccess s port off
  else match mailboxAt off with
    | some m => mailboxWrite s port priv m.1 m.2 v
    | none => if off = 0x0310 then writeRstCtrl s port priv v else regWrite s port priv off (blockWrite off v)

def execRegisterWrite (port : Port) (priv : Bool) (offset : U16) (value : U32) (s : State) : Out :=
  .next (writeRegister s port priv offset.toNat value)

/-- MB_ACK (R319). -/
def execMbAck (mb : Fin 8) (port : Port) (priv : Bool) (s : State) : Out := .next (mailboxWrite s port priv mb 0x84 2)

/-- CAP_EN (R110, R111, R345). -/
def execCapEn (port : Port) (priv : Bool) (on : Bool) (s : State) : Out :=
  .next (regWrite s port priv 0x0100 fun t => writeCapEn t on)

/-- FOLD_EN (R112, R345). -/
def execFoldEn (port : Port) (priv : Bool) (on : Bool) (s : State) : Out :=
  .next (regWrite s port priv 0x0100 fun t => writeFoldEn t on)

/-- APPLY_EN (R179, R345). -/
def execApplyEn (port : Port) (priv : Bool) (on : Bool) (s : State) : Out :=
  .next (regWrite s port priv 0x0100 fun t => writeApplyEn t on)

/-- EXCH_EN (R204, R206, R345). -/
def execExchEn (port : Port) (priv : Bool) (on : Bool) (s : State) : Out :=
  .next (regWrite s port priv 0x0100 fun t => writeExchEn t on)

/-- COMPAT_A (R334). -/
def execCompatA (port : Port) (priv : Bool) (on : Bool) (s : State) : Out :=
  .next (regWrite s port priv 0x0100 (writeCompat on))

/-- ERR_REL (R350, R351). -/
def execErrRel (port : Port) (priv : Bool) (n : BitVec 9) (s : State) : Out :=
  .next (regWrite s port priv 0x2008 (releaseEntries n.toNat))

/-- ERR_SEL (R350, R351). -/
def execErrSel (port : Port) (index : Byte) (s : State) : Out :=
  .next (regWrite s port false 0x2010 (selectEntry index))

/-- CLEAR_OVF (R350). -/
def execClearOvf (port : Port) (priv : Bool) (s : State) : Out := .next (regWrite s port priv 0x2004 clearOverflows)

/-- CNT_CLEAR (R352). -/
def execCntClear (port : Port) (priv : Bool) (s : State) : Out := .next (regWrite s port priv 0x3000 clearCounters)

/-- APPLY_MAP_WRITE (R147, R337). -/
def execApplyMapWrite (port : Port) (priv : Bool) (value : U32) (s : State) : Out :=
  .next (regWrite s port priv 0x0140 (writeApplyMap value))

/-- The port may read the time block: at TAP the instrument HY_REGVIEW, which is shut in Field-Production (R296). -/
def mayReadTime (s : State) (port : Port) : Bool :=
  portOpen s port && s.power.season.get ≠ 2 && !(port = .tap && s.fuses.lcs = 1)

/-- TIME_LO_READ: the upper half of the same snapshot is latched for the port's next read of TIME_HI (R305). -/
def execTimeLoRead (port : Port) (s : State) : Out :=
  .next (
    if !mayReadTime s port then s
    else
      let hi := some (snapWord s 0x7004)
      match port with
      | .fbp => { s with time.latchFbp := hi }
      | .mgp => { s with time.latchMgp := hi }
      | .tap => { s with time.latchTap := hi }
      | .lkp => s)

end Sys2Proof.Machine
end

