-- ==== Sys2Proof/Machine/Firmware.lean ====
section
/-! DEFINITION. The Info commands, PART_SET and ABORT (R230, R329, R331, R332, R343, R351). -/

namespace Sys2Proof.Machine

/-! ### Info commands (R329) -/

/-- FW_INFO: release, stepping, life-cycle state, and what the image's header says. -/
def infoWork (mb : Fin 8) (_ : TakenCmd) (s : State) : State :=
  respond s mb stOk 0
    [(8, 2, 0x0402), (10, 1, 0xB0), (11, 1, s.fuses.lcs.toNat), (12, 4, fldAt s.fw.image 12 4),
     (16, 4, fldAt s.fw.image 16 4), (32, 32, fldAt s.fw.image 32 32)]

def execFwInfo (src : CmdSrc) (s : State) : Out := mailboxRow 0x01 infoWork src s

/-- A block's address is 64 B aligned and near; without a plan no near range is known (log entry 76). -/
def destOk (s : State) (a n : Nat) : Bool :=
  a % 64 = 0 && match s.job.plan with
    | some p => inNear p a n
    | none => true

/-- Summary page of STATUS_GET. -/
def summary (s : State) : List (Nat × Nat × Nat) :=
  [(8, 1, s.job.state.toNat), (9, 1, s.power.season.get.toNat), (10, 1, (shownPosition s).toNat),
   (11, 1, (phaseNow s).toNat), (12, 2, (shownCove s).toNat), (14, 2, (liveSet s).toNat), (16, 4, (epochNow s).toNat),
   (20, 6, (sealedTide s).toNat), (26, 1, s.recov.state.get.toNat), (27, 1, s.agree.state.toNat),
   (28, 2, s.tide.steps.toNat), (30, 2, s.job.rankChanges.length), (32, 8, s.time.gtc.toNat), (40, 4, (jobTag s).toNat)]

/-- Entries of page 2. -/
def rankBytes (l : List (Nat × Nat)) : List Byte := l.flatMap fun c => leBytes 4 c.1 ++ leBytes 4 c.2

/-- STATUS_GET: page 1 restores what the last recovery's tidemark holds; with no tidemark there is nothing to write (R136,
R329; log entry 76). -/
def statusWork (mb : Fin 8) (t : TakenCmd) (s : State) : State :=
  let page := fld t.cmd 8 1
  let dest := fld t.cmd 16 8
  let changes := s.job.rankChanges.take 16384
  if 2 < page then badArg s mb 8
  else if page = 0 then
    if dest ≠ 0 then badArg s mb 16 else respond s mb stOk 0 (summary s)
  else if page = 1 then
    if !destOk s dest 4224 then badArg s mb 16
    else match s.tide.stepRecord with
      | none => wrongState s mb
      | some r => respond (unitWrite s .hygarOther dest r.2) mb stOk 0 [(8, 6, r.1.toNat)]
  else if !destOk s dest (8 * changes.length) then badArg s mb 16
  else respond (unitWrite s .hygarOther dest (rankBytes changes)) mb stOk 0 [(8, 2, changes.length)]

def execStatusGet (src : CmdSrc) (s : State) : Out := mailboxRow 0x02 statusWork src s

/-- Entries held at consecutive ring indices from the first, up to a count. -/
def entriesFrom (s : State) (first count : Nat) : List ErrEntry :=
  let k := (first + 256 - s.log.oldest.toNat) % 256
  (s.log.entries.drop k).take count

/-- LOG_READ: whole entries, as far as the ring holds them (R329, R349, R374; log entry 76). -/
def logReadWork (mb : Fin 8) (t : TakenCmd) (s : State) : State :=
  let first := fld t.cmd 8 2
  let count := fld t.cmd 10 2
  let dest := fld t.cmd 16 8
  let es := entriesFrom s first count
  if 255 < first then badArg s mb 8
  else if count = 0 ∨ 256 < count then badArg s mb 10
  else if !destOk s dest (32 * es.length) then badArg s mb 16
  else
    respond (unitWrite s .hygarOther dest (es.flatMap entryBytes)) mb stOk 0
      [(8, 2, es.length), (10, 2, (first + es.length) % 256)]

def execLogRead (src : CmdSrc) (s : State) : Out := mailboxRow 0x03 logReadWork src s

/-! ### PART_SET (R230, R343) -/

/-- A package coordinate in a command. -/
def coordAt (c : Line) (off : Nat) : Nat × Nat × Nat := (fld c off 2, fld c (off + 2) 2, fld c (off + 4) 2)

def partitionOf (c : Line) : Partition :=
  { id := BitVec.ofNat 16 (fld c 8 2), jobTag := BitVec.ofNat 32 (fld c 12 4), lo := coordAt c 16, hi := coordAt c 24,
    own := coordAt c 32, die := fld c 38 1 }

/-- Offset of the lowest field that breaks R343. -/
def partitionFault (s : State) (p : Partition) : Option Nat :=
  if p.hi.1 < p.lo.1 ∨ p.hi.2.1 < p.lo.2.1 ∨ p.hi.2.2 < p.lo.2.2 then some 16
  else if !inBox p p.own.1 p.own.2.1 p.own.2.2 then some 32
  else if p.die ≠ s.fuses.die.toNat then some 38
  else none

/-- The partition: rank, fences, and every port's heartbeat timer anew (R212, R230, R231). -/
def partWork (mb : Fin 8) (t : TakenCmd) (s : State) : State :=
  let p := partitionOf t.cmd
  match partitionFault s p with
  | some o => badArg s mb o
  | none =>
    respondOk { s with
      job.part := some p
      job.state := 1
      job.formed := false
      ports.fenced := fencedMask p
      ports.linkFault := 0
      agree.lastBeat := Vector.replicate 8 s.time.gtc
      agree.portSuspect := 0
      agree.wintering := 0
      agree.missMark := Vector.replicate 8 s.time.gtc
      agree.watchAt := [] } mb

def execPartSet (src : CmdSrc) (s : State) : Out := mailboxRow 0x04 partWork src s

/-! ### ABORT (R331, R332) -/

/-- OK for an ABORT whose command has ended, with that command's final status. -/
def abortOk (s : State) (mb named : Fin 8) : State := respond s mb stOk 0 [(8, 1, (box s named).code.toNat)]

/-- Stop the long command of a mailbox: ACCEPTED, then OK once its final response is written; another long command goes
on. -/
def abortRunning (s : State) (mb named : Fin 8) : State :=
  match (box s named).op.toNat % 128 with
  | 0x0C =>
    match s.apply.run with
    | none => wrongState s mb
    | some r =>
      let t := stopApply (accepted s mb) .abort
      { t with apply.run := t.apply.run.map fun q => { q with aborts := r.aborts ++ [mb] } }
  | 0x0D =>
    match s.exch.reduces.find? fun r => r.mailbox = named with
    | none => wrongState s mb
    | some r =>
      if r.stop = .none then
        (if phaseBegun r then
          (if phaseEnded s r then respond s mb stAlreadyDone 0 [] else setReduce s { r with aborts := r.aborts ++ [mb] })
        else abortOk (cancelReduce (accepted s mb) r) mb named)
      else if phaseEnded s r then abortOk (finishReduce (accepted s mb) r) mb named
      else setReduce s { r with aborts := r.aborts ++ [mb] }
  | 0x0E =>
    match s.exch.compress with
    | none => wrongState s mb
    | some c =>
      let t := accepted s mb
      let d := { c with stop := if c.stop = .none then .abort else c.stop, aborts := c.aborts ++ [mb] }
      { t with exch.compress := some d }
  | 0x16 =>
    let t := accepted s mb
    { t with bist := { t.bist with stop := true, aborts := t.bist.aborts ++ [mb] } }
  | _ => wrongState s mb

/-- ABORT. -/
def abortWork (mb : Fin 8) (t : TakenCmd) (s : State) : State :=
  let n := fld t.cmd 8 1
  if h : n < 8 then
    let named : Fin 8 := ⟨n, h⟩
    if !abortReaches mb named then respond s mb stNotPermitted (bindCode mb) []
    else if named = mb then badArg s mb 8
    else if (box s named).tag.toNat ≠ fld t.cmd 10 2 then badArg s mb 10
    else if !(box s named).busy then respond s mb stAlreadyDone 0 []
    else abortRunning s mb named
  else badArg s mb 8

def execAbort (src : CmdSrc) (s : State) : Out := mailboxRow 0x17 abortWork src s

end Sys2Proof.Machine
end

