-- ==== Sys2Proof/Machine/Dispatch.lean ====
section
/-! DEFINITION. The effect of each command: one arm for each row of spec/opcode_table.json. -/

namespace Sys2Proof.Machine

def exec (i : Instr) (s : State) : Host.Outcome State Fault Refusal :=
  match i with
  | .fwInfo src => Sys2Proof.Machine.execFwInfo src s
  | .statusGet src => Sys2Proof.Machine.execStatusGet src s
  | .logRead src => Sys2Proof.Machine.execLogRead src s
  | .partSet src => Sys2Proof.Machine.execPartSet src s
  | .planLoad src plan => Sys2Proof.Machine.execPlanLoad src plan s
  | .regionDeclare src => Sys2Proof.Machine.execRegionDeclare src s
  | .coveForm src => Sys2Proof.Machine.execCoveForm src s
  | .tideOpen src => Sys2Proof.Machine.execTideOpen src s
  | .tideSeal src => Sys2Proof.Machine.execTideSeal src s
  | .tidePolicy src => Sys2Proof.Machine.execTidePolicy src s
  | .recipeLoad src => Sys2Proof.Machine.execRecipeLoad src s
  | .applyRun src => Sys2Proof.Machine.execApplyRun src s
  | .exchReduce src => Sys2Proof.Machine.execExchReduce src s
  | .exchCompress src => Sys2Proof.Machine.execExchCompress src s
  | .tierQuotaSet src => Sys2Proof.Machine.execTierQuotaSet src s
  | .prefetchPlan src => Sys2Proof.Machine.execPrefetchPlan src s
  | .drainStart src => Sys2Proof.Machine.execDrainStart src s
  | .rebuildStart src => Sys2Proof.Machine.execRebuildStart src s
  | .reshardStart src plan => Sys2Proof.Machine.execReshardStart src plan s
  | .twinPair src => Sys2Proof.Machine.execTwinPair src s
  | .powerSet src => Sys2Proof.Machine.execPowerSet src s
  | .bistRun src => Sys2Proof.Machine.execBistRun src s
  | .abort src => Sys2Proof.Machine.execAbort src s
  | .unitFence src => Sys2Proof.Machine.execUnitFence src s
  | .latticeRemap src => Sys2Proof.Machine.execLatticeRemap src s
  | .codingSuspend src => Sys2Proof.Machine.execCodingSuspend src s
  | .codingResume src => Sys2Proof.Machine.execCodingResume src s
  | .coveRelease src => Sys2Proof.Machine.execCoveRelease src s
  | .peerClaim src => Sys2Proof.Machine.execPeerClaim src s
  | .peerRankMove src => Sys2Proof.Machine.execPeerRankMove src s
  | .peerPlan src plan => Sys2Proof.Machine.execPeerPlan src plan s
  | .mbAck mb port priv => Sys2Proof.Machine.execMbAck mb port priv s
  | .capEn port priv on => Sys2Proof.Machine.execCapEn port priv on s
  | .foldEn port priv on => Sys2Proof.Machine.execFoldEn port priv on s
  | .applyEn port priv on => Sys2Proof.Machine.execApplyEn port priv on s
  | .exchEn port priv on => Sys2Proof.Machine.execExchEn port priv on s
  | .compatA port priv on => Sys2Proof.Machine.execCompatA port priv on s
  | .rstCtrlCore port => Sys2Proof.Machine.execRstCtrlCore port s
  | .rstCtrlSys port => Sys2Proof.Machine.execRstCtrlSys port s
  | .rstCtrlUnit port units => Sys2Proof.Machine.execRstCtrlUnit port units s
  | .errRel port priv n => Sys2Proof.Machine.execErrRel port priv n s
  | .errSel port index => Sys2Proof.Machine.execErrSel port index s
  | .clearOvf port priv => Sys2Proof.Machine.execClearOvf port priv s
  | .cntClear port priv => Sys2Proof.Machine.execCntClear port priv s
  | .applyMapWrite port priv value => Sys2Proof.Machine.execApplyMapWrite port priv value s
  | .timeLoRead port => Sys2Proof.Machine.execTimeLoRead port s
  | .registerWrite port priv offset value => Sys2Proof.Machine.execRegisterWrite port priv offset value s
  | .snoopWrite r => Sys2Proof.Machine.execSnoopWrite r s
  | .snoopAtomicResult r => Sys2Proof.Machine.execSnoopAtomicResult r s
  | .snoopRead tag line master => Sys2Proof.Machine.execSnoopRead tag line master s
  | .snoopObserve r => Sys2Proof.Machine.execSnoopObserve r s
  | .oldLineReadReturn line => Sys2Proof.Machine.execOldLineReadReturn line s
  | .captureLine => Sys2Proof.Machine.execCaptureLine s
  | .codeRecord => Sys2Proof.Machine.execCodeRecord s
  | .foldStoreSend dir => Sys2Proof.Machine.execFoldStoreSend dir s
  | .foldStore p => Sys2Proof.Machine.execFoldStore p s
  | .foldRecord => Sys2Proof.Machine.execFoldRecord s
  | .paritySlotCopy lines => Sys2Proof.Machine.execParitySlotCopy lines s
  | .filterSetAck => Sys2Proof.Machine.execFilterSetAck s
  | .captureDrainDone => Sys2Proof.Machine.execCaptureDrainDone s
  | .foldDisableDone => Sys2Proof.Machine.execFoldDisableDone s
  | .closeMarkerSend dest => Sys2Proof.Machine.execCloseMarkerSend dest s
  | .closeMarker m => Sys2Proof.Machine.execCloseMarker m s
  | .sealReady => Sys2Proof.Machine.execSealReady s
  | .markPart m => Sys2Proof.Machine.execMarkPart m s
  | .ready m => Sys2Proof.Machine.execReady m s
  | .report m => Sys2Proof.Machine.execReport m s
  | .commit m => Sys2Proof.Machine.execCommit m s
  | .flipped m => Sys2Proof.Machine.execFlipped m s
  | .release m => Sys2Proof.Machine.execRelease m s
  | .abandon m => Sys2Proof.Machine.execAbandon m s
  | .query m => Sys2Proof.Machine.execQuery m s
  | .switch m => Sys2Proof.Machine.execSwitch m s
  | .sealResend => Sys2Proof.Machine.execSealResend s
  | .decisionResend => Sys2Proof.Machine.execDecisionResend s
  | .heartbeatInstant => Sys2Proof.Machine.execHeartbeatInstant s
  | .beat port b => Sys2Proof.Machine.execBeat port b s
  | .suspicionTimeout port => Sys2Proof.Machine.execSuspicionTimeout port s
  | .probeReceive offset => Sys2Proof.Machine.execProbeReceive offset s
  | .probeResult rank ans => Sys2Proof.Machine.execProbeResult rank ans s
  | .watchProbe port => Sys2Proof.Machine.execWatchProbe port s
  | .suspect m => Sys2Proof.Machine.execSuspect m s
  | .proposeTimer => Sys2Proof.Machine.execProposeTimer s
  | .proposeWait => Sys2Proof.Machine.execProposeWait s
  | .retryWait => Sys2Proof.Machine.execRetryWait s
  | .prepare m => Sys2Proof.Machine.execPrepare m s
  | .promise m => Sys2Proof.Machine.execPromise m s
  | .accept m => Sys2Proof.Machine.execAccept m s
  | .accepted m => Sys2Proof.Machine.execAccepted m s
  | .nack m => Sys2Proof.Machine.execNack m s
  | .install m => Sys2Proof.Machine.execInstall m s
  | .installed m => Sys2Proof.Machine.execInstalled m s
  | .noQuorum => Sys2Proof.Machine.execNoQuorum s
  | .collAbort m => Sys2Proof.Machine.execCollAbort m s
  | .collStopped group => Sys2Proof.Machine.execCollStopped group s
  | .renewalPropose => Sys2Proof.Machine.execRenewalPropose s
  | .planPart m => Sys2Proof.Machine.execPlanPart m s
  | .planNeed m => Sys2Proof.Machine.execPlanNeed m s
  | .planAck m => Sys2Proof.Machine.execPlanAck m s
  | .planSilence => Sys2Proof.Machine.execPlanSilence s
  | .planChildProbe child => Sys2Proof.Machine.execPlanChildProbe child s
  | .planDiscard => Sys2Proof.Machine.execPlanDiscard s
  | .claim m fromRank => Sys2Proof.Machine.execClaim m fromRank s
  | .claimAck m fromRank => Sys2Proof.Machine.execClaimAck m fromRank s
  | .rankMove m => Sys2Proof.Machine.execRankMove m s
  | .rollbackDone => Sys2Proof.Machine.execRollbackDone s
  | .ringGroupStart g => Sys2Proof.Machine.execRingGroupStart g s
  | .part m => Sys2Proof.Machine.execPart m s
  | .ringRestart g => Sys2Proof.Machine.execRingRestart g s
  | .pieceReq m => Sys2Proof.Machine.execPieceReq m s
  | .piece m => Sys2Proof.Machine.execPiece m s
  | .pieceReqRetry line => Sys2Proof.Machine.execPieceReqRetry line s
  | .tmark m => Sys2Proof.Machine.execTmark m s
  | .tmarkReq m => Sys2Proof.Machine.execTmarkReq m s
  | .mirror m => Sys2Proof.Machine.execMirror m s
  | .handoverCopyDone => Sys2Proof.Machine.execHandoverCopyDone s
  | .move m => Sys2Proof.Machine.execMove m s
  | .twinSum m => Sys2Proof.Machine.execTwinSum m s
  | .twinBays m => Sys2Proof.Machine.execTwinBays m s
  | .twinRange m => Sys2Proof.Machine.execTwinRange m s
  | .lkpStoreDiscard offset vc bytes => Sys2Proof.Machine.execLkpStoreDiscard offset vc bytes s
  | .exp r => Sys2Proof.Machine.execExp r s
  | .grant r => Sys2Proof.Machine.execGrant r s
  | .data r => Sys2Proof.Machine.execData r s
  | .cancel r => Sys2Proof.Machine.execCancel r s
  | .exchReduceComplete group seq => Sys2Proof.Machine.execExchReduceComplete group seq s
  | .exchCompressComplete => Sys2Proof.Machine.execExchCompressComplete s
  | .applyTileDone cluster => Sys2Proof.Machine.execApplyTileDone cluster s
  | .applyRunComplete => Sys2Proof.Machine.execApplyRunComplete s
  | .coveFormComplete => Sys2Proof.Machine.execCoveFormComplete s
  | .codingResumeComplete => Sys2Proof.Machine.execCodingResumeComplete s
  | .prefetchEntryComplete entry => Sys2Proof.Machine.execPrefetchEntryComplete entry s
  | .beaconSample events temp supply power => Sys2Proof.Machine.execBeaconSample events temp supply power s
  | .wake => Sys2Proof.Machine.execWake s
  | .springStepDone => Sys2Proof.Machine.execSpringStepDone s
  | .seasonReached => Sys2Proof.Machine.execSeasonReached s
  | .fwImageTransaction offset bytes => Sys2Proof.Machine.execFwImageTransaction offset bytes s
  | .bootCheckDone => Sys2Proof.Machine.execBootCheckDone s
  | .firmwareReady => Sys2Proof.Machine.execFirmwareReady s
  | .powerOn => Sys2Proof.Machine.execPowerOn s
  | .sysSupply => Sys2Proof.Machine.execSysSupply s
  | .sysThermal => Sys2Proof.Machine.execSysThermal s
  | .resetInitDone => Sys2Proof.Machine.execResetInitDone s
  | .watchdogExpiry => Sys2Proof.Machine.execWatchdogExpiry s
  | .coreResetStopTimeout => Sys2Proof.Machine.execCoreResetStopTimeout s
  | .gtcFault kind => Sys2Proof.Machine.execGtcFault kind s
  | .gtcRelock value => Sys2Proof.Machine.execGtcRelock value s
  | .patrolScrub mac tile upset live => Sys2Proof.Machine.execPatrolScrub mac tile upset live s
  | .fenceTestDone signature => Sys2Proof.Machine.execFenceTestDone signature s
  | .bistUnitDone signature => Sys2Proof.Machine.execBistUnitDone signature s
  | .referenceEdge edges value rate => Sys2Proof.Machine.execReferenceEdge edges value rate s
  | .powerRemoval => Sys2Proof.Machine.execPowerRemoval s
  | .poisonedReadData unit addr => Sys2Proof.Machine.execPoisonedReadData unit addr s
  | .wrapperInstructionUpdate code => Sys2Proof.Machine.execWrapperInstructionUpdate code s
  | .hyLatticeAccess w => Sys2Proof.Machine.execHyLatticeAccess w s
  | .prefetchPlanComplete => Sys2Proof.Machine.execPrefetchPlanComplete s
  | .planLoadLocalDone => Sys2Proof.Machine.execPlanLoadLocalDone s
  | .digestRecomputeDone => Sys2Proof.Machine.execDigestRecomputeDone s
  | .twinPeerLost => Sys2Proof.Machine.execTwinPeerLost s

end Sys2Proof.Machine
end

