-- ==== Sys2Proof/Machine/Wire.lean ====
section
/-! DEFINITION. The bytes of messages, records, events and the status line, the fields of a store at LKP, and the requests at
MSP: how what the model keeps as fields lies in bytes, lowest byte first (R8, R52, R95, R102, R124, R190, R211, R217, R258,
R279, R284 to R288, R292). -/

namespace Sys2Proof.Machine

/-! ### Fields of a header (R8) -/

/-- `n` bytes whose fields (offset, size, value) are given; bytes of no field are zero. -/
def header (n : Nat) (fields : List (Nat × Nat × Nat)) : List Byte :=
  (List.range n).map fun i =>
    match fields.find? fun f => f.1 ≤ i ∧ i < f.1 + f.2.1 with
    | some f => BitVec.ofNat 8 (f.2.2 / 256 ^ (i - f.1))
    | none => 0

/-- A field read back as bits. -/
def fieldBits (w : Nat) (bs : List Byte) (off : Nat) : BitVec w := BitVec.ofNat w (fldAt bs off (w / 8))

/-- The extent of a body or payload, from the length field at offset 2 (R287). -/
def extent (bs : List Byte) (start : Nat) : List Byte := (bs.drop start).take (fldAt bs 2 2)

/-! ### Fold-stores and close markers (R95, R102) -/

def recBytes (r : FsRec) : List Byte := leBytes 2 r.line.toNat ++ r.thin

def foldStorePayload (p : FoldStore) : List Byte := p.recs.flatMap recBytes

def foldStoreBytes (p : FoldStore) : List Byte :=
  let body := foldStorePayload p
  header 24 [(0, 1, 0x10), (1, 1, bit p.ca + 2 * bit p.fwd), (2, 2, body.length), (4, 2, p.cove.toNat),
    (6, 1, p.origin.toNat), (7, 1, p.sender.toNat), (8, 1, p.dest.toNat), (9, 1, p.recs.length), (10, 2, p.view.toNat),
    (12, 6, p.tide.toNat), (18, 2, p.bay.toNat), (20, 4, p.seq.toNat)] ++ body

/-- Bytes of a thinned line at the head of a list: the mask, the counts, and the words (R90). -/
def thinLength (bs : List Byte) : Nat :=
  let k := maskCount (leNat (bs.take 2))
  let nc := (k + 3) / 4
  let counts := leNat ((bs.drop 2).take nc)
  2 + nc + ((List.range k).map fun i => 4 - counts / 4 ^ i % 4).sum

/-- The records of a payload, one after another with no gaps (R95). -/
def readRecords : Nat → List Byte → List FsRec
  | 0, _ => []
  | n + 1, bs =>
    let rest := bs.drop 2
    let k := thinLength rest
    { line := fieldBits 16 bs 0, thin := rest.take k } :: readRecords n (rest.drop k)

def readFoldStore (bs : List Byte) : FoldStore :=
  { ca := (fldAt bs 1 1).testBit 0, fwd := (fldAt bs 1 1).testBit 1, cove := fieldBits 16 bs 4, origin := fieldBits 8 bs 6,
    sender := fieldBits 8 bs 7, dest := fieldBits 8 bs 8, view := fieldBits 16 bs 10, tide := fieldBits 48 bs 12,
    bay := fieldBits 16 bs 18, seq := fieldBits 32 bs 20, recs := readRecords (fldAt bs 9 1) (extent bs 24) }

def markerBytes (m : Marker) : List Byte :=
  header 40 [(0, 1, 0x11), (4, 2, m.cove.toNat), (6, 1, m.origin.toNat), (7, 1, m.sender.toNat), (8, 1, m.dest.toNat),
    (10, 2, m.view.toNat), (12, 6, m.tide.toNat), (20, 4, m.directPackets.toNat), (24, 8, m.directRecords.toNat),
    (32, 8, m.forwardedRecords.toNat)]

def readMarker (bs : List Byte) : Marker :=
  { cove := fieldBits 16 bs 4, origin := fieldBits 8 bs 6, sender := fieldBits 8 bs 7, dest := fieldBits 8 bs 8,
    view := fieldBits 16 bs 10, tide := fieldBits 48 bs 12, directPackets := fieldBits 32 bs 20,
    directRecords := fieldBits 64 bs 24, forwardedRecords := fieldBits 64 bs 32 }

/-! ### Seal, agreement and rebuild messages, and heartbeats (R124, R211, R217, R258) -/

def sealBytes (type : Byte) (m : SealMsg) : List Byte :=
  header 24 [(0, 1, type.toNat), (1, 1, bit m.tree), (2, 2, m.body.length), (4, 2, m.cove.toNat), (6, 1, m.origin.toNat),
    (7, 1, m.sender.toNat), (8, 1, m.dest.toNat), (10, 2, m.view.toNat), (12, 6, m.tide.toNat), (18, 2, m.destCove.toNat),
    (20, 4, m.arg.toNat)] ++ m.body

def readSeal (bs : List Byte) : SealMsg :=
  { tree := (fldAt bs 1 1).testBit 0, cove := fieldBits 16 bs 4, origin := fieldBits 8 bs 6, sender := fieldBits 8 bs 7,
    dest := fieldBits 8 bs 8, view := fieldBits 16 bs 10, tide := fieldBits 48 bs 12, destCove := fieldBits 16 bs 18,
    arg := fieldBits 32 bs 20, body := extent bs 24 }

def beatBytes (b : Beat) : List Byte :=
  header 16 [(0, 1, 0x20), (1, 1, b.health.toNat), (2, 1, b.season.toNat), (3, 1, b.position.toNat), (4, 4, b.jobTag.toNat),
    (8, 2, b.cove.toNat), (10, 2, b.epoch.toNat), (12, 4, b.seq.toNat)]

def readBeat (bs : List Byte) : Beat :=
  { health := fieldBits 8 bs 1, season := fieldBits 8 bs 2, position := fieldBits 8 bs 3, jobTag := fieldBits 32 bs 4,
    cove := fieldBits 16 bs 8, epoch := fieldBits 16 bs 10, seq := fieldBits 32 bs 12 }

def agreeBytes (type : Byte) (m : AgreeMsg) : List Byte :=
  header 32 [(0, 1, type.toNat), (2, 2, m.body.length), (4, 4, m.jobTag.toNat), (8, 2, m.cove.toNat), (10, 1, m.sender.toNat),
    (11, 1, m.dest.toNat), (12, 4, m.epoch.toNat), (16, 4, m.ballot.toNat), (20, 4, m.arg.toNat), (24, 8, m.gtc.toNat)] ++ m.body

def readAgree (bs : List Byte) : AgreeMsg :=
  { jobTag := fieldBits 32 bs 4, cove := fieldBits 16 bs 8, sender := fieldBits 8 bs 10, dest := fieldBits 8 bs 11,
    epoch := fieldBits 32 bs 12, ballot := fieldBits 32 bs 16, arg := fieldBits 32 bs 20, gtc := fieldBits 64 bs 24,
    body := extent bs 32 }

def rebuildBytes (type : Byte) (m : RbMsg) : List Byte :=
  header 32 [(0, 1, type.toNat), (1, 1, bit m.parity + 2 * bit m.final + 4 * bit m.stale), (2, 2, m.payload.length),
    (4, 2, m.cove.toNat), (6, 1, m.target.toNat), (7, 1, m.sender.toNat), (8, 1, m.dest.toNat), (9, 1, m.stage.toNat),
    (10, 2, m.view.toNat), (12, 6, m.tide.toNat), (18, 2, m.bay.toNat), (20, 1, m.base.toNat), (21, 1, m.piece.toNat),
    (22, 2, m.depth.toNat), (24, 1, m.count.toNat), (28, 4, m.seq.toNat)] ++ m.payload

def readRebuild (bs : List Byte) : RbMsg :=
  let f := fldAt bs 1 1
  { parity := f.testBit 0, final := f.testBit 1, stale := f.testBit 2, cove := fieldBits 16 bs 4, target := fieldBits 8 bs 6,
    sender := fieldBits 8 bs 7, dest := fieldBits 8 bs 8, stage := fieldBits 8 bs 9, view := fieldBits 16 bs 10,
    tide := fieldBits 48 bs 12, bay := fieldBits 16 bs 18, base := fieldBits 8 bs 20, piece := fieldBits 8 bs 21,
    depth := fieldBits 16 bs 22, count := fieldBits 8 bs 24, seq := fieldBits 32 bs 28, payload := extent bs 32 }

/-! ### Exchange records, the status line, and events (R190, R285, R292) -/

def recordBytes (type : Byte) (r : ExRec) : List Byte :=
  header 32 [(0, 1, type.toNat), (1, 1, bit r.compressed), (2, 2, r.group.toNat), (4, 4, r.seq.toNat), (8, 3, r.sender.toNat),
    (11, 1, r.count.toNat), (12, 3, r.dest.toNat), (15, 1, r.format.toNat), (16, 8, r.first.toNat), (24, 4, r.payload.length),
    (28, 4, r.covered.toNat)] ++ r.payload

def readRecord (bs : List Byte) : ExRec :=
  { compressed := (fldAt bs 1 1).testBit 0, group := fieldBits 16 bs 2, seq := fieldBits 32 bs 4, sender := fieldBits 24 bs 8,
    count := fieldBits 8 bs 11, dest := fieldBits 24 bs 12, format := fieldBits 8 bs 15, first := fieldBits 64 bs 16,
    covered := fieldBits 32 bs 28, payload := (bs.drop 32).take (fldAt bs 24 4) }

def statusBytes (l : StatusLine) : List Byte :=
  header 64 [(0, 1, l.season.toNat), (1, 1, l.health.toNat), (2, 1, l.position.toNat), (3, 1, l.agreeState.toNat),
    (4, 4, l.jobTag.toNat), (8, 2, l.cove.toNat), (10, 2, l.live.toNat), (12, 4, l.epoch.toNat), (16, 6, l.sealedTide.toNat),
    (22, 1, l.phase.toNat), (24, 8, l.gtc.toNat)]

def readStatus (bs : List Byte) : StatusLine :=
  { season := fieldBits 8 bs 0, health := fieldBits 8 bs 1, position := fieldBits 8 bs 2, agreeState := fieldBits 8 bs 3,
    jobTag := fieldBits 32 bs 4, cove := fieldBits 16 bs 8, live := fieldBits 16 bs 10, epoch := fieldBits 32 bs 12,
    sealedTide := fieldBits 48 bs 16, phase := fieldBits 8 bs 22, gtc := fieldBits 64 bs 24 }

def eventBytes (e : Event) : List Byte :=
  header 16 [(0, 1, e.code.toNat), (1, 1, e.arg.toNat), (2, 2, e.count.toNat), (8, 8, e.gtc.toNat)]

/-! ### Stores at LKP (R284, R286 to R288) -/

/-- A message's own bytes. -/
def msgBytes : Msg → List Byte
  | .foldStore p => foldStoreBytes p
  | .marker m => markerBytes m
  | .sealMsg t m => sealBytes t m
  | .beat b => beatBytes b
  | .agree t m => agreeBytes t m
  | .rebuild t m => rebuildBytes t m

/-- Padded with zero bytes to a multiple of 8 B (R287). -/
def padded (bs : List Byte) : List Byte := bs ++ List.replicate (stored bs.length - bs.length) 0

/-- The message that the bytes of a store spell: its first byte is its type, its length fields give its extent (R287, R288). -/
def readMsg (bs : List Byte) : Option Msg :=
  let t : Byte := fieldBits 8 bs 0
  let n := t.toNat
  if n = 0x10 then some (.foldStore (readFoldStore bs))
  else if n = 0x11 then some (.marker (readMarker bs))
  else if 0x12 ≤ n ∧ n ≤ 0x1A then some (.sealMsg t (readSeal bs))
  else if n = 0x20 then some (.beat (readBeat bs))
  else if (0x21 ≤ n ∧ n ≤ 0x2F) ∨ (0x50 ≤ n ∧ n ≤ 0x52) then some (.agree t (readAgree bs))
  else if 0x40 ≤ n ∧ n ≤ 0x46 then some (.rebuild t (readRebuild bs))
  else none

/-- Offset in the LKP window of the port that a channel's stores go to (R284). -/
def windowOffset : Vc → U16
  | .va => 0x0100
  | .vf => 0x0200

/-- The fields of a message store (R286). -/
structure StoreFields where
  address : U64
  vc : Vc
  route : Route
  offset : U16
  length : Nat
  bytes : List Byte
deriving DecidableEq, Repr

/-- Address of an instance's LKP window: the fabric map's for the die of that rank in the partition box (R230, R286; log
entry 91). -/
def windowAddress (s : State) (rank : Nat) : U64 :=
  match s.job.part with
  | some p =>
    let q := p.asRank rank
    Config.windowAddress q.own.1 q.own.2.1 q.own.2.2 q.die
  | none => Config.windowAddress 0 0 0 rank

/-- What a store that the instance hands to the router carries (R286); a probe or an answer is no store. -/
def storeFields (s : State) : LkpOut → Option StoreFields
  | .store rank vc route msg =>
    let bs := padded (msgBytes msg)
    some { address := windowAddress s rank, vc := vc, route := route, offset := windowOffset vc, length := bs.length,
           bytes := bs }
  | .probe _ => none
  | .answer _ => none

/-- The bytes that answer a remote load of the window: the status line, or zero bytes (R284, R285). -/
def answerBytes : Option StatusLine → List Byte
  | some l => statusBytes l
  | none => List.replicate 64 0

/-! ### Requests at MSP (R52, R279) -/

/-- The units that issue requests at MSP. -/
inductive MspPart where
  | capture | apply | exchange | fold | rebuild | tide | mover
deriving DecidableEq, Repr

/-- What a request at MSP is for, row by row of R279. -/
inductive MspKind where
  | lineRead
  | lineWrite
  | narrowWrite
  | bypassWrite
  | mergedWrite
  | internalWrite
  | tileTransfer
  | rowRead
  | filterSet
deriving DecidableEq, Repr

/-- The parts that issue a kind of request. -/
def mspIssuers : MspKind → List MspPart
  | .lineRead => [.capture, .apply, .exchange, .fold, .rebuild]
  | .lineWrite => [.apply, .exchange]
  | .narrowWrite => [.apply, .exchange]
  | .bypassWrite => [.rebuild]
  | .mergedWrite => [.capture]
  | .internalWrite => [.fold, .capture, .tide, .rebuild]
  | .tileTransfer => [.mover]
  | .rowRead => [.mover]
  | .filterSet => [.capture]

/-- Smallest and largest size in bytes. -/
def mspSize : MspKind → Option (Nat × Nat)
  | .narrowWrite => some (1, 63)
  | .tileTransfer => some (16384, 16384)
  | .rowRead => some (64, 16384)
  | .filterSet => none
  | _ => some (64, 64)

/-- The request is presented to the snoop where the filter matches its address; a tile transfer only as a write of a
protected home, which `home` says. -/
def mspPresented (k : MspKind) (home : Bool) : Bool :=
  match k with
  | .lineWrite => true
  | .narrowWrite => true
  | .tileTransfer => home
  | _ => false

/-- The class of R52 that a far-tier request carries: 1 a stash write, and what the mover serves by its entry (`entry`). -/
def mspClass (k : MspKind) (part : MspPart) (entry : Nat) : Option Nat :=
  match k, part with
  | .internalWrite, .capture => some 1
  | .tileTransfer, _ => some entry
  | .rowRead, _ => some entry
  | _, _ => none

end Sys2Proof.Machine
end

