-- ==== Sys2Proof/Safety.lean ====
section
/-! DEFINITION. What counts as a safe state of the block, in the terms the claims use. -/

namespace Sys2Proof

/-- The memory is in canonical form. -/
def memorySafe (s : Machine.State) : Prop := s.mem.wf = true

end Sys2Proof
end

