-- ==== Sys2Proof/WellFormed.lean ====
section
/-! DEFINITION. Well-formed commands: the shapes the specification's formats fix that the operand types leave open. -/

namespace Sys2Proof

/-- A snoop record names a 64 B line (R278). -/
def SnoopRec.wf (r : SnoopRec) : Bool := decide (r.line.toNat % 64 = 0)

/-- A fold-store holds 1 to 42 records, in 6 to 256 B of payload, each a 14-bit line index and 4 to 70 B (R95). -/
def FoldStore.wf (p : FoldStore) : Bool :=
  decide (1 ≤ p.recs.length ∧ p.recs.length ≤ 42) &&
  decide ((p.recs.map fun r => 2 + r.thin.length).sum ≤ 256) &&
  p.recs.all fun r => decide (r.line.toNat < 16384) && decide (4 ≤ r.thin.length ∧ r.thin.length ≤ 70)

/-- A message body is at most 256 B (R124, R217). -/
def SealMsg.wf (m : SealMsg) : Bool := decide (m.body.length ≤ 256)

def AgreeMsg.wf (m : AgreeMsg) : Bool := decide (m.body.length ≤ 256)

/-- A rebuild packet carries at most 256 B (R258). -/
def RbMsg.wf (m : RbMsg) : Bool := decide (m.payload.length ≤ 256)

/-- A ring group has one to four lines (R257). -/
def RingId.wf (g : RingId) : Bool := decide (1 ≤ g.count.toNat ∧ g.count.toNat ≤ 4)

/-- An exchange record's payload is at most 16,400 B (R282). -/
def ExRec.wf (r : ExRec) : Bool := decide (r.payload.length ≤ 16400)

/-- Members of a layout (R63). -/
def layoutMembers : Layout → Nat
  | .c8 => 8
  | .l12 => 12
  | .c16 => 16

/-- Every cove of a plan has as many members as its layout. -/
def Plan.wf (p : Plan) : Bool := p.coves.all fun c => decide (c.members.length = layoutMembers c.layout)

/-- Well-formed commands. -/
def Instr.wf : Instr → Bool
  | .planLoad _ p => p.wf
  | .reshardStart _ p => p.wf
  | .peerPlan _ p => p.wf
  | .snoopWrite r => r.wf
  | .snoopAtomicResult r => r.wf
  | .snoopObserve r => r.wf
  | .snoopRead _ line _ => decide (line.toNat % 64 = 0)
  | .oldLineReadReturn line => decide (line.toNat % 64 = 0)
  | .foldStore p => p.wf
  | .markPart m | .ready m | .report m | .commit m | .flipped m | .release m | .abandon m | .query m | .switch m => m.wf
  | .suspect m | .prepare m | .promise m | .accept m | .accepted m | .nack m | .install m | .installed m => m.wf
  | .collAbort m | .planPart m | .planNeed m | .planAck m | .rankMove m | .twinSum m | .twinBays m | .twinRange m => m.wf
  | .claim m _ | .claimAck m _ => m.wf
  | .ringGroupStart g | .ringRestart g => g.wf
  | .part m | .pieceReq m | .piece m | .tmark m | .tmarkReq m | .mirror m | .move m => m.wf
  | .exp r | .grant r | .data r | .cancel r => r.wf
  | .beaconSample events _ _ _ => decide (events.length = 6)
  | .fwImageTransaction _ bytes => decide (bytes.length = 256)
  | .patrolScrub mac _ upset _ => decide (mac < 96) && upset.all fun u => decide (u.1 < 288)
  | .referenceEdge edges _ _ => decide (1 ≤ edges)
  | _ => true

end Sys2Proof
end

