-- ==== Sys2Proof/Certificates/Slice0/Obligations.lean ====
section
/-! DEFINITION. The statements about the block, drawn from the numbered rules of the specification, for the provers. -/

open Sys2Proof Sys2Proof.Machine

/-- The command ends in a next state that has the property: it neither faults nor is refused. -/
abbrev Sys2Proof.Ends (c : Instr) (s : State) (P : State → Prop) : Prop := ∃ t, exec c s = .next t ∧ P t

/-- A register write that R336 passes: the port is present, the master may touch privileged fields where the register
has some, and in Winter the block answers. -/
abbrev Sys2Proof.Reaches (s : State) (port : Port) (priv : Bool) (off : Nat) : Prop :=
  ((port = .fbp ∧ s.ports.fbp = true ∧ (pvMask off = 0 ∨ priv = true)) ∨ (port = .mgp ∧ s.ports.mgp = true)) ∧
    (s.power.season.get ≠ 2 ∨ winterAnswers off = true)

/-- The memory outside the bytes `[a, a + n)` is as it was. -/
abbrev Sys2Proof.SameOutside (s t : State) (a n : Nat) : Prop := ∀ x, x < a ∨ a + n ≤ x → t.mem.byte x = s.mem.byte x

/-! ### Registers (R305, R335 to R354) -/

/-- The error log and counter controls (R350, R351, R352): releasing drops the oldest entries and moves OLDEST on,
selecting latches one whole entry or zeros, the two clear bits set their counts to zero; and each changes nothing
else. -/
def Obligations.ErrorLogAndCounterControls : Prop :=
  ∀ (s : State) (port : Port) (priv : Bool),
    (∀ n : BitVec 9, Reaches s port priv 0x2008 →
      Ends (.errRel port priv n) s fun t =>
        t = { s with log := { s.log with
          entries := s.log.entries.drop n.toNat
          oldest := s.log.oldest + BitVec.ofNat 8 (min n.toNat s.log.entries.length) } }) ∧
    (Reaches s port priv 0x2004 →
      Ends (.clearOvf port priv) s fun t => t = { s with log := { s.log with ovf := Vector.replicate 16 0 } }) ∧
    (Reaches s port priv 0x3000 →
      Ends (.cntClear port priv) s fun t => t = { s with cnt := Vector.replicate 23 0 }) ∧
    (∀ i : Byte, Reaches s port priv 0x2010 →
      Ends (.errSel port i) s fun t =>
        t = { s with log := { s.log with sel := i, ent := t.log.ent } } ∧
        (∀ (k : Nat) (e : ErrEntry), k < 256 → s.log.entries[k]? = some e → i = s.log.oldest + BitVec.ofNat 8 k →
          t.log.ent.extractLsb' 0 8 = e.cls ∧
          t.log.ent.extractLsb' 8 8 = (if e.uncorr then 1 else 0) ∧
          t.log.ent.extractLsb' 16 16 = e.source ∧
          t.log.ent.extractLsb' 32 32 = e.count ∧
          t.log.ent.extractLsb' 64 64 = e.first ∧
          t.log.ent.extractLsb' 128 64 = e.last ∧
          t.log.ent.extractLsb' 192 64 = e.detail) ∧
        ((∀ k : Nat, k < 256 → k < s.log.entries.length → i ≠ s.log.oldest + BitVec.ofNat 8 k) → t.log.ent = 0))

/-- The enable bits of the fold receive side, and of the apply and exchange units while nothing runs there (R112, R338,
R344, R345): a write that sets the bit returns a function that reports DISABLED to service, and during a stop takes
effect once the stop has ended; one that clears it disables the function or begins its stop; clearing FOLD_EN while
coding is active is refused and sets CFG_IGNORED. Nothing else changes. -/
def Obligations.EnableBitsOfIdleFunctions : Prop :=
  ∀ (s : State) (port : Port) (priv : Bool), Reaches s port priv 0x0100 →
    (Ends (.foldEn port priv true) s fun t =>
      t = { s with
        ctrl.foldEn := V3.all 1
        stat.foldState := if s.stat.foldState = 2 then 0 else s.stat.foldState
        stat.foldAgain := s.stat.foldAgain || decide (s.stat.foldState = 1) }) ∧
    (s.ctrl.foldEn.get = 0 → Ends (.foldEn port priv false) s fun t => t = s) ∧
    (s.ctrl.foldEn.get = 1 → s.stat.foldState = 0 → codingActive s = false → Ends (.foldEn port priv false) s fun t =>
      t = { s with ctrl.foldEn := V3.all 0, stat.foldState := 1, stat.foldAgain := false }) ∧
    (s.ctrl.foldEn.get = 1 → codingActive s = true → Ends (.foldEn port priv false) s fun t =>
      t = { s with stat.cfgIgnored := true }) ∧
    (s.apply.run = none → Ends (.applyEn port priv true) s fun t =>
      t = { s with ctrl.applyEn := V3.all 1, apply.state := 0 }) ∧
    (s.ctrl.applyEn.get = 1 → s.apply.run = none → Ends (.applyEn port priv false) s fun t =>
      t = { s with ctrl.applyEn := V3.all 0, apply.state := 3 }) ∧
    (s.exch.compress = none → Ends (.exchEn port priv true) s fun t =>
      t = { s with ctrl.exchEn := V3.all 1, exch.disabled := false }) ∧
    (s.ctrl.exchEn.get = 1 → s.exch.reduces = [] → s.exch.compress = none → Ends (.exchEn port priv false) s fun t =>
      t = { s with ctrl.exchEn := V3.all 0, exch.disabled := true }) ∧
    (s.ctrl.exchEn.get = 0 → Ends (.exchEn port priv false) s fun t => t = { s with ctrl.exchEn := V3.all 0 })

/-- The fields that a disabled owner alone takes (R147, R334, R337): COMPAT_A while the mailbox function is disabled,
APPLY_MAP while APPLY_STAT.STATE is DISABLED; the current value is never refused and changes nothing; any other write
sets CFG_IGNORED and nothing else, as an invalid map does. -/
def Obligations.FieldsOfDisabledOwners : Prop :=
  ∀ (s : State) (port : Port) (priv : Bool),
    (Reaches s port priv 0x0100 → ∀ on : Bool,
      (s.ctrl.compatA.get = (if on then 1 else 0) → Ends (.compatA port priv on) s fun t => t = s) ∧
      (s.ctrl.compatA.get ≠ (if on then 1 else 0) → s.stat.fwState.get ≠ 2 → Ends (.compatA port priv on) s fun t =>
        t = { s with ctrl.compatA := V3.all (if on then 1 else 0) }) ∧
      (s.ctrl.compatA.get ≠ (if on then 1 else 0) → s.stat.fwState.get = 2 → s.rst.phase = .running →
        Ends (.compatA port priv on) s fun t => t = { s with stat.cfgIgnored := true })) ∧
    (Reaches s port priv 0x0140 → ∀ v : U32,
      (s.power.asleep = false → s.apply.state = 3 →
        (∀ i j : Fin 4, v.toNat / 2 ^ (3 * i.val) % 8 ≤ 4 ∧
          (i ≠ j → v.toNat / 2 ^ (3 * i.val) % 8 ≠ v.toNat / 2 ^ (3 * j.val) % 8)) →
        Ends (.applyMapWrite port priv v) s fun t => t = { s with ctrl := { s.ctrl with
          phys0 := V3.all (v.extractLsb' 0 3)
          phys1 := V3.all (v.extractLsb' 3 3)
          phys2 := V3.all (v.extractLsb' 6 3)
          phys3 := V3.all (v.extractLsb' 9 3) } }) ∧
      (s.power.asleep = false → s.apply.state = 3 →
        (∃ i j : Fin 4, 4 < v.toNat / 2 ^ (3 * i.val) % 8 ∨
          (i ≠ j ∧ v.toNat / 2 ^ (3 * i.val) % 8 = v.toNat / 2 ^ (3 * j.val) % 8)) →
        Ends (.applyMapWrite port priv v) s fun t => t = { s with stat.cfgIgnored := true }) ∧
      (s.power.asleep = false → s.apply.state = 0 →
        Ends (.applyMapWrite port priv v) s fun t =>
          t = (if v.extractLsb' 0 3 = s.ctrl.phys0.get ∧ v.extractLsb' 3 3 = s.ctrl.phys1.get ∧
                  v.extractLsb' 6 3 = s.ctrl.phys2.get ∧ v.extractLsb' 9 3 = s.ctrl.phys3.get
               then s else { s with stat.cfgIgnored := true })))

/-- A read of TIME_LO latches the upper half of the same snapshot, which the port's next read of TIME_HI returns,
whatever snapshot is taken in between (R305); nothing else changes, and another port's latch is its own. -/
def Obligations.TimeHighLatch : Prop :=
  ∀ (s : State) (port : Port),
    ((port = .fbp ∧ s.ports.fbp = true) ∨ (port = .mgp ∧ s.ports.mgp = true) ∨
      (port = .tap ∧ s.power.on = true ∧ s.fuses.lcs ≠ 1) → s.power.season.get ≠ 2 →
      Ends (.timeLoRead port) s fun t =>
        t = { s with time := { s.time with
          latchFbp := t.time.latchFbp, latchMgp := t.time.latchMgp, latchTap := t.time.latchTap } } ∧
        (port ≠ .fbp → t.time.latchFbp = s.time.latchFbp) ∧ (port ≠ .mgp → t.time.latchMgp = s.time.latchMgp) ∧
        (port ≠ .tap → t.time.latchTap = s.time.latchTap) ∧
        ∀ (snap : List (Nat × U32)) (priv : Bool),
          readRegister { t with time := { t.time with snap := snap } } port priv 0x7004 =
            (match find 0x7004 s.time.snap with
             | some w => w
             | none => BitVec.ofNat 32 (s.time.gtc.toNat / 2 ^ 32))) ∧
    (port = .lkp ∨ (port = .tap ∧ s.fuses.lcs = 1) ∨ s.power.season.get = 2 →
      Ends (.timeLoRead port) s fun t => t = s)

/-- A register write applies each field by its own access code (R12, R237, R336, R346, R347, R350, R353): a bit that is
cleared by writing one stays where zero is written, a threshold register takes the value written, a field that is
read-only takes nothing. -/
def Obligations.RegisterWriteFields : Prop :=
  ∀ (s : State) (port : Port) (priv : Bool) (v : U32),
    (Reaches s port priv 0x0200 → Ends (.registerWrite port priv 0x0200 v) s fun t =>
      t = { s with stat := { s.stat with
        cfgIgnored := s.stat.cfgIgnored && !v.getLsbD 0
        evtOvf := s.stat.evtOvf &&& ~~~(v.extractLsb' 24 8) } }) ∧
    (Reaches s port priv 0x0300 → Ends (.registerWrite port priv 0x0300 v) s fun t =>
      t = { s with rst := t.rst } ∧ t.rst.phase = s.rst.phase ∧ causeWord t.rst = causeWord s.rst &&& ~~~v) ∧
    (Reaches s port priv 0x2010 → Ends (.registerWrite port priv 0x2010 v) s fun t =>
      t = { s with log := { s.log with sel := v.extractLsb' 0 8, ent := t.log.ent } }) ∧
    (Reaches s port priv 0x4010 → Ends (.registerWrite port priv 0x4010 v) s fun t =>
      t = { s with lat := { s.lat with sel := v.extractLsb' 0 10 } }) ∧
    (Reaches s port priv 0x5040 → Ends (.registerWrite port priv 0x5040 v) s fun t =>
      t = { s with beacon := t.beacon } ∧ liveWord t 0x5040 = v) ∧
    (Reaches s port priv 0x5044 → Ends (.registerWrite port priv 0x5044 v) s fun t =>
      t = { s with beacon := { s.beacon with handEn := v.getLsbD 0, wakeEn := v.getLsbD 1 } }) ∧
    (∀ off : U16, off ∈ [0x0000, 0x0004, 0x0210, 0x0214, 0x0230, 0x0240, 0x2000, 0x2020, 0x3010, 0x5000, 0x6000, 0x7000] →
      Reaches s port priv off.toNat → Ends (.registerWrite port priv off v) s fun t => t = s)

/-- The offsets of the window that hold registers, by R335 and the tables it names. -/
def Sys2Proof.namedOffset (off : Nat) : Bool :=
  [0x0000, 0x0004, 0x0008, 0x000C, 0x0010, 0x0100, 0x0140, 0x0200, 0x0210, 0x0214, 0x0218, 0x021C, 0x0230, 0x0234,
   0x0238, 0x023C, 0x0240, 0x0244, 0x0248, 0x024C, 0x0250, 0x0254, 0x0258, 0x0260, 0x0300, 0x0310, 0x2000, 0x2004,
   0x2008, 0x2010, 0x3000, 0x4000, 0x4004, 0x4008, 0x4010, 0x4040, 0x4044, 0x5000, 0x5004, 0x5010, 0x5040, 0x5044,
   0x5048, 0x6000, 0x6004, 0x6008, 0x600C, 0x7000, 0x7004, 0x7010].contains off ||
  (decide (0x1000 ≤ off ∧ off < 0x1800) && decide (off % 0x100 < 0x8C)) ||
  decide (0x2020 ≤ off ∧ off < 0x2080) || decide (0x3010 ≤ off ∧ off < 0x306C) || decide (0x4020 ≤ off ∧ off < 0x4040) ||
  decide (0x5020 ≤ off ∧ off < 0x5038)

/-- Accesses that write nothing (R281, R335, R336, R348, R351): every offset that names no register is reserved, so a
write to it is ignored and logs nothing, and a read of it returns zero; a write that is not aligned takes effect nowhere
and is logged against the port; and a master without privilege writes no privileged field, but leaves one ACCESS report.
Only the error log may change. -/
def Obligations.AccessesThatWriteNothing : Prop :=
  (∀ (s : State) (port : Port) (priv : Bool) (off : U16) (v : U32), off.toNat < 0x8000 →
    (off.toNat % 4 = 0 → namedOffset off.toNat = false →
      (Ends (.registerWrite port priv off v) s fun t => t = s) ∧
        readRegister s port priv off.toNat = 0) ∧
    (off.toNat % 4 ≠ 0 → portOpen s port = true → s.log.entries = [] →
      Ends (.registerWrite port priv off v) s fun t =>
        t = { s with log := t.log } ∧ t.log = { s.log with entries := t.log.entries } ∧
        ∃ e : ErrEntry, t.log.entries = [e] ∧ e.cls = 10 ∧ e.count = 1 ∧ e.first = s.time.gtc ∧
          e.detail = off.zeroExtend 64)) ∧
  (∀ (s : State) (c : Instr),
    c ∈ [.capEn .fbp false true, .capEn .fbp false false, .foldEn .fbp false true, .foldEn .fbp false false,
         .applyEn .fbp false true, .applyEn .fbp false false, .exchEn .fbp false true, .exchEn .fbp false false,
         .compatA .fbp false true, .compatA .fbp false false, .clearOvf .fbp false, .cntClear .fbp false] ∨
    (∃ n, c = .errRel .fbp false n) ∨ (∃ v, c = .applyMapWrite .fbp false v) ∨
    (∃ v off, c = .registerWrite .fbp false off v ∧ off ∈ [0x0100, 0x0140, 0x0300, 0x2004, 0x2008, 0x3000, 0x4010, 0x5040, 0x5044]) →
    s.ports.fbp = true → s.log.entries.length < 256 → (∀ e ∈ s.log.entries, e.cls ≠ 10) →
    Ends c s fun t =>
      t = { s with log := { s.log with entries := t.log.entries } } ∧
      ∃ e : ErrEntry, t.log.entries = s.log.entries ++ [e] ∧ e.cls = 10 ∧ e.uncorr = false ∧ e.count = 1 ∧
        e.first = s.time.gtc ∧ e.last = s.time.gtc)

/-! ### Mailboxes (R313 to R326, R330) -/

/-- The opcode of a mailbox row of the catalogue (R325), and how the command reaches firmware. -/
def Sys2Proof.mailboxForm : Instr → Option (Nat × CmdSrc)
  | .fwInfo c => some (0x01, c)
  | .statusGet c => some (0x02, c)
  | .logRead c => some (0x03, c)
  | .partSet c => some (0x04, c)
  | .planLoad c _ => some (0x05, c)
  | .regionDeclare c => some (0x06, c)
  | .coveForm c => some (0x07, c)
  | .tideOpen c => some (0x08, c)
  | .tideSeal c => some (0x09, c)
  | .tidePolicy c => some (0x0A, c)
  | .recipeLoad c => some (0x0B, c)
  | .applyRun c => some (0x0C, c)
  | .exchReduce c => some (0x0D, c)
  | .exchCompress c => some (0x0E, c)
  | .tierQuotaSet c => some (0x0F, c)
  | .prefetchPlan c => some (0x10, c)
  | .drainStart c => some (0x11, c)
  | .rebuildStart c => some (0x12, c)
  | .reshardStart c _ => some (0x13, c)
  | .twinPair c => some (0x14, c)
  | .powerSet c => some (0x15, c)
  | .bistRun c => some (0x16, c)
  | .abort c => some (0x17, c)
  | .unitFence c => some (0x18, c)
  | .latticeRemap c => some (0x19, c)
  | .codingSuspend c => some (0x1A, c)
  | .codingResume c => some (0x1B, c)
  | .coveRelease c => some (0x1C, c)
  | .peerClaim c => some (0x20, c)
  | .peerRankMove c => some (0x21, c)
  | .peerPlan c _ => some (0x22, c)
  | _ => none

/-- The port of a mailbox (R313): 0 to 4 FBP, 5 MGP, 6 TAP, 7 LKP. -/
def Sys2Proof.portOf (mb : Fin 8) : Port :=
  if mb.val ≤ 4 then .fbp else if mb.val = 5 then .mgp else if mb.val = 6 then .tap else .lkp

/-- A GO that firmware handles at once: the port of the mailbox answers, firmware runs outside Winter, the mailbox is
free, and no earlier take waits or is still being handled (R313, R318, R320). -/
abbrev Sys2Proof.Prompt (s : State) (mb : Fin 8) (op : Nat) (cmd : Line) : Prop :=
  fld cmd 0 1 % 128 = op ∧ s.stat.fwState.get = 2 ∧ s.power.season.get ≠ 2 ∧
    (mb.val ≤ 4 → s.ports.fbp = true) ∧ (mb.val = 5 → s.ports.mgp = true) ∧ (6 ≤ mb.val → s.power.on = true) ∧
    (box s mb).busy = false ∧ (box s mb).long = false ∧ s.mb.waiting = [] ∧ s.stat.suspendMb = none ∧
    s.twin.mailbox = none ∧
    (op = 0x17 → ∀ m : Fin 8, fld cmd 8 1 = m.val → m = mb ∨ (box s m).busy = false ∨ (box s m).long = true)

/-- The port may use the command's class (R322), opcode by opcode. -/
abbrev Sys2Proof.Permitted (mb : Fin 8) (priv : Bool) (op : Nat) : Prop :=
  if mb.val ≤ 4 then op ∈ [0x01, 0x02, 0x03] ∨ (priv = true ∧ (op ∈ [0x05, 0x06, 0x07, 0x08, 0x09, 0x0A, 0x0B, 0x0C, 0x0D,
      0x0E, 0x0F, 0x10, 0x11, 0x12, 0x13, 0x14, 0x17, 0x1C]))
  else if mb.val = 5 then op ∉ [0x20, 0x21, 0x22]
  else if mb.val = 6 then op ∈ [0x01, 0x02, 0x03, 0x16, 0x17]
  else op ∈ [0x20, 0x21, 0x22]

/-- Commands that the job state accepts (R324). -/
abbrev Sys2Proof.StateTakes (js : Nat) (op : Nat) : Prop :=
  op ∈ [0x01, 0x02, 0x03, 0x15, 0x16, 0x17, 0x18, 0x19, 0x1A, 0x1B] ∨
    (js = 0 ∧ op = 0x04) ∨ (js = 1 ∧ op ∈ [0x04, 0x05, 0x22]) ∨
    (js = 2 ∧ op ∈ [0x06, 0x0F, 0x0A, 0x0B, 0x10, 0x07, 0x14, 0x0C, 0x0D, 0x0E, 0x12, 0x20, 0x21, 0x22]) ∨
    (js = 3 ∧ op ∈ [0x06, 0x08, 0x09, 0x0A, 0x0B, 0x0C, 0x0D, 0x0E, 0x0F, 0x10, 0x11, 0x12, 0x13, 0x14, 0x1C, 0x20, 0x21,
      0x22]) ∨
    (js = 4 ∧ op = 0x1C)

/-- A command that reaches its own meaning: handled at once, permitted, no reserved byte set, no self-test, the job
state accepts it, the season is Summer, and the command gives its own parameters (R9, R322, R324, R326, R388, R396). -/
abbrev Sys2Proof.Handled (s : State) (mb : Fin 8) (priv : Bool) (op : Nat) (cmd : Line) : Prop :=
  Prompt s mb op cmd ∧ Permitted mb priv op ∧ (∀ e, catalogue op = some e → badByte e cmd = none ∧ usesProfile e cmd = false) ∧
    s.bist.run = none ∧ StateTakes s.job.state.toNat op ∧ s.power.season.get = 0

/-- The final response of a command stands in its mailbox (R317, R319): BUSY and LONG clear, DONE set, COUNT risen by
one, and the opcode, status, tag and detail in place. -/
abbrev Sys2Proof.Answered (s t : State) (mb : Fin 8) (cmd : Line) (status detail : Nat) : Prop :=
  (box t mb).busy = false ∧ (box t mb).long = false ∧ (box t mb).done = true ∧
    (box t mb).count = (box s mb).count + 1 ∧ (box t mb).code.toNat = status ∧
    fld (box t mb).rsp 0 1 = fld cmd 0 1 ∧ fld (box t mb).rsp 1 1 = status ∧ fld (box t mb).rsp 2 2 = fld cmd 2 2 ∧
    fld (box t mb).rsp 4 4 = detail

/-- A long command has been accepted and runs (R319): BUSY kept, LONG and DONE set, COUNT risen by one, and the
ACCEPTED response in place. -/
abbrev Sys2Proof.RunsLong (s t : State) (mb : Fin 8) (cmd : Line) : Prop :=
  (box t mb).busy = true ∧ (box t mb).long = true ∧ (box t mb).done = true ∧
    (box t mb).count = (box s mb).count + 1 ∧ (box t mb).code = 1 ∧
    fld (box t mb).rsp 0 1 = fld cmd 0 1 ∧ fld (box t mb).rsp 1 1 = 1 ∧ fld (box t mb).rsp 2 2 = fld cmd 2 2 ∧
    fld (box t mb).rsp 4 4 = 0

/-- Every other mailbox is as it was. -/
abbrev Sys2Proof.OtherBoxes (s t : State) (mb : Fin 8) : Prop := ∀ m : Fin 8, m ≠ mb → box t m = box s m

/-- A response changes its own mailbox and, for mailbox 5, raises its event: nothing else (R319). -/
abbrev Sys2Proof.OnlyAnswer (s t : State) (mb : Fin 8) : Prop :=
  t = { s with mb := { s.mb with boxes := t.mb.boxes }, events := t.events, stat := { s.stat with evtOvf := t.stat.evtOvf } } ∧
    OtherBoxes s t mb ∧ (mb ≠ 5 → t.events = s.events ∧ t.stat.evtOvf = s.stat.evtOvf)

/-- A response leaves the other mailboxes and the waiting commands as they are, and raises no event but that of mailbox 5
(R319). -/
abbrev Sys2Proof.BoxFrame (s t : State) (mb : Fin 8) : Prop :=
  OtherBoxes s t mb ∧ t.mb.waiting = s.mb.waiting ∧ (mb ≠ 5 → t.events = s.events ∧ t.stat.evtOvf = s.stat.evtOvf)

/-- A command outside the permissions of its port gets NOT_PERMITTED with the binding of its mailbox, and nothing else
changes: for every mailbox row of the table (R317, R319, R322, R330). -/
def Obligations.CommandOutsidePermissionIsRefused : Prop :=
  ∀ (s : State) (c : Instr) (op : Nat) (mb : Fin 8) (priv : Bool) (cmd : Line),
    mailboxForm c = some (op, .issue mb (portOf mb) priv cmd) → Prompt s mb op cmd → ¬ Permitted mb priv op →
    Ends c s fun t => Answered s t mb cmd 0x11 (if mb.val ≤ 4 then 0 else mb.val - 4) ∧ OnlyAnswer s t mb

/-- What firmware checks before a command's own meaning runs; each refusal changes nothing else (R9, R316, R324, R326,
R330): a nonzero reserved byte gets BAD_ARG with the offset of the first such byte among bytes 4 to 63 that are no
parameters; a command that the job state does not accept gets WRONG_STATE with the job state and PHASE; a basic command
whose profile the plan does not hold for this instance gets BAD_ARG at 4, and WRONG_STATE before any plan is loaded. -/
def Obligations.CommandIsCheckedBeforeItRuns : Prop :=
  ∀ (s : State) (c : Instr) (op : Nat) (mb : Fin 8) (priv : Bool) (cmd : Line) (e : CatEntry),
    mailboxForm c = some (op, .issue mb (portOf mb) priv cmd) → Prompt s mb op cmd → Permitted mb priv op →
    catalogue op = some e →
    (∀ i, (e.same = true ∨ 128 ≤ fld cmd 0 1) → fld cmd 1 1 = 0 →
      4 ≤ i → i < 64 → (∀ p ∈ e.params, i < p.1 ∨ p.1 + p.2 ≤ i) → lineByte cmd i ≠ 0 →
      (∀ j, 4 ≤ j → j < i → (∀ p ∈ e.params, j < p.1 ∨ p.1 + p.2 ≤ j) → lineByte cmd j = 0) →
      Ends c s fun t => Answered s t mb cmd 0x10 i ∧ OnlyAnswer s t mb) ∧
    (badByte e cmd = none → s.bist.run = none → s.job.state.toNat ≤ 4 → ¬ StateTakes s.job.state.toNat op →
      Ends c s fun t =>
        Answered s t mb cmd 0x12 (s.job.state.toNat + 256 * s.tide.phase.get.toNat) ∧ OnlyAnswer s t mb) ∧
    (∀ n, e.same = false → cmd = mkLine [(0, 1, op), (2, 2, fld cmd 2 2), (4, 2, n)] → n < 65536 → s.bist.run = none →
      StateTakes s.job.state.toNat op → s.power.season.get = 0 →
      (s.job.plan = none → Ends c s fun t =>
        Answered s t mb cmd 0x12 (s.job.state.toNat + 256 * s.tide.phase.get.toNat) ∧ OnlyAnswer s t mb) ∧
      (∀ p, s.job.plan = some p → op ≠ 0x07 →
        (∀ f ∈ p.profiles, f.rank ≠ ownRank s ∨ f.op.toNat ≠ op ∨ f.number ≠ n) →
        Ends c s fun t => Answered s t mb cmd 0x10 4 ∧ OnlyAnswer s t mb))

/-- GO, ACK and OVERRUN (R314, R315, R318, R319): GO on a free mailbox takes the command of the command area, sets BUSY,
clears DONE and records OP and TAG, and firmware will handle it after the commands taken before it; a GO or a write of
the command area while BUSY sets OVERRUN and changes nothing; ACK clears DONE and leaves the response; a write of one
clears OVERRUN. -/
def Obligations.MailboxGoAckAndOverrun : Prop :=
  ∀ (s : State) (mb : Fin 8) (port : Port) (priv : Bool),
    port = portOf mb → mb.val ≤ 5 → (mb.val ≤ 4 → s.ports.fbp = true) → (mb.val = 5 → s.ports.mgp = true) →
    s.stat.fwState.get = 2 → s.power.season.get ≠ 2 →
    (Ends (.mbAck mb port priv) s fun t =>
      box t mb = { box s mb with done := false } ∧ OtherBoxes s t mb ∧
        t = { s with mb := { s.mb with boxes := t.mb.boxes } }) ∧
    (∀ off : U16, off.toNat = 0x1084 + 0x100 * mb.val →
      ((box s mb).busy = true → Ends (.registerWrite port priv off 1) s fun t =>
        box t mb = { box s mb with overrun := true } ∧ OtherBoxes s t mb ∧
          t = { s with mb := { s.mb with boxes := t.mb.boxes } }) ∧
      ((box s mb).busy = false → (∃ e, catalogue (fld (box s mb).cmd 0 1 % 128) = some e) →
        fld (box s mb).cmd 0 1 % 128 ≠ 9 → Ends (.registerWrite port priv off 1) s fun t =>
        (box t mb).busy = true ∧ (box t mb).done = false ∧ (box t mb).cmd = (box s mb).cmd ∧
          (box t mb).rsp = (box s mb).rsp ∧ (box t mb).count = (box s mb).count ∧
          (box t mb).op.toNat = fld (box s mb).cmd 0 1 ∧ (box t mb).tag.toNat = fld (box s mb).cmd 2 2 ∧
          OtherBoxes s t mb ∧
          t = { s with mb := { s.mb with boxes := t.mb.boxes, waiting := s.mb.waiting ++ [mb] } })) ∧
    (∀ (off : U16) (j : Nat) (v : U32), j < 16 → off.toNat = 0x1000 + 0x100 * mb.val + 4 * j →
      ((box s mb).busy = true → Ends (.registerWrite port priv off v) s fun t =>
        box t mb = { box s mb with overrun := true } ∧ OtherBoxes s t mb ∧
          t = { s with mb := { s.mb with boxes := t.mb.boxes } }) ∧
      ((box s mb).busy = false → Ends (.registerWrite port priv off v) s fun t =>
        box t mb = { box s mb with cmd := (box t mb).cmd } ∧ lineWord (box t mb).cmd j = v ∧
          (∀ k, k < 16 → k ≠ j → lineWord (box t mb).cmd k = lineWord (box s mb).cmd k) ∧ OtherBoxes s t mb ∧
          t = { s with mb := { s.mb with boxes := t.mb.boxes } })) ∧
    (∀ off : U16, off.toNat = 0x1080 + 0x100 * mb.val → Ends (.registerWrite port priv off 0x800) s fun t =>
      box t mb = { box s mb with overrun := false } ∧ OtherBoxes s t mb ∧
        t = { s with mb := { s.mb with boxes := t.mb.boxes } })

/-! ### Info commands, the partition, and ABORT (R212, R230, R329, R331, R343) -/

/-- The Info commands report what R329 lists and write their blocks to dest; page 1 of STATUS_GET writes the group table
and host step record of the last recovery's tidemark, LOG_READ the entries that the ring holds from the index it names,
and neither changes anything else, but that a line the apply unit has read is then a race. PART_SET gives the instance
its partition and rank, fences the ports that leave the box, and starts every heartbeat timer anew; a partition that
R343 rejects is BAD_ARG with the lowest offset and changes nothing. ABORT of a command that has completed is
ALREADY_DONE, with another tag BAD_ARG at 10, of its own mailbox BAD_ARG at 8, outside its reach NOT_PERMITTED; of a
running EXCH_COMPRESS it is accepted, and the compression stops (R331). With no tidemark taken by a recovery, page 1 is
WRONG_STATE: a reading of the model's (log entry 76). -/
def Obligations.InfoPartitionAndAbort : Prop :=
  ∀ (s : State) (mb : Fin 8) (priv : Bool) (cmd : Line),
    (Handled s mb priv 0x01 cmd → Ends (.fwInfo (.issue mb (portOf mb) priv cmd)) s fun t =>
      Answered s t mb cmd 0 0 ∧ OnlyAnswer s t mb ∧ fld (box t mb).rsp 8 2 = 0x0402 ∧ fld (box t mb).rsp 10 1 = 0xB0 ∧
      fld (box t mb).rsp 11 1 = s.fuses.lcs.toNat ∧ fld (box t mb).rsp 12 4 = fldAt s.fw.image 12 4 ∧
      fld (box t mb).rsp 16 4 = fldAt s.fw.image 16 4 ∧
      (s.ctrl.compatA.get = 0 → fld (box t mb).rsp 32 32 = fldAt s.fw.image 32 32)) ∧
    (Handled s mb priv 0x02 cmd →
      (2 < fld cmd 8 1 → Ends (.statusGet (.issue mb (portOf mb) priv cmd)) s fun t =>
        Answered s t mb cmd 0x10 8 ∧ OnlyAnswer s t mb) ∧
      (fld cmd 8 1 = 0 → fld cmd 16 8 = 0 → Ends (.statusGet (.issue mb (portOf mb) priv cmd)) s fun t =>
        Answered s t mb cmd 0 0 ∧ OnlyAnswer s t mb ∧ fld (box t mb).rsp 8 1 = s.job.state.toNat ∧
        fld (box t mb).rsp 9 1 = s.power.season.get.toNat ∧ fld (box t mb).rsp 11 1 = s.tide.phase.get.toNat ∧
        fld (box t mb).rsp 14 2 = s.agree.live.get.toNat ∧ fld (box t mb).rsp 16 4 = s.agree.epoch.get.toNat ∧
        fld (box t mb).rsp 20 6 = (sealedTide s).toNat ∧ fld (box t mb).rsp 26 1 = s.recov.state.get.toNat ∧
        fld (box t mb).rsp 27 1 = s.agree.state.toNat ∧
        (s.ctrl.compatA.get = 0 → fld (box t mb).rsp 32 8 = s.time.gtc.toNat ∧
          fld (box t mb).rsp 40 4 = (jobTag s).toNat)) ∧
      (fld cmd 8 1 = 1 → destOk s (fld cmd 16 8) 4224 = true →
        (s.tide.stepRecord = none → Ends (.statusGet (.issue mb (portOf mb) priv cmd)) s fun t =>
          Answered s t mb cmd 0x12 (s.job.state.toNat + 256 * s.tide.phase.get.toNat) ∧ OnlyAnswer s t mb) ∧
        (∀ (tide : U48) (bs : List Byte), s.tide.stepRecord = some (tide, bs) → bs.length = 4224 → s.cap.filter = [] →
          s.tier.staged = [] → s.tier.rows = [] → fld cmd 16 8 + 4224 ≤ 2 ^ 64 →
          Ends (.statusGet (.issue mb (portOf mb) priv cmd)) s fun t =>
            Answered s t mb cmd 0 0 ∧ BoxFrame s t mb ∧ fld (box t mb).rsp 8 6 = tide.toNat ∧
            t.mem.bytes (fld cmd 16 8) 4224 = bs ∧ SameOutside s t (fld cmd 16 8) 4224 ∧
            t = { s with
              mb := t.mb, events := t.events, stat := { s.stat with evtOvf := t.stat.evtOvf }
              mem := t.mem
              apply := { s.apply with issued := s.apply.issued.map (fun e =>
                if fld cmd 16 8 ≤ e.addr ∧ e.addr < fld cmd 16 8 + 4224 ∧ e.addr % 64 = 0 then { e with raced := true }
                else e) } }))) ∧
    (Handled s mb priv 0x03 cmd →
      (255 < fld cmd 8 2 → Ends (.logRead (.issue mb (portOf mb) priv cmd)) s fun t =>
        Answered s t mb cmd 0x10 8 ∧ OnlyAnswer s t mb) ∧
      (fld cmd 8 2 ≤ 255 → fld cmd 10 2 = 0 ∨ 256 < fld cmd 10 2 →
        Ends (.logRead (.issue mb (portOf mb) priv cmd)) s fun t => Answered s t mb cmd 0x10 10 ∧ OnlyAnswer s t mb) ∧
      (∀ n : Nat, s.log.entries.length ≤ 256 →
        fld cmd 8 2 = s.log.oldest.toNat → 1 ≤ fld cmd 10 2 → fld cmd 10 2 ≤ 256 →
        n = min (fld cmd 10 2) s.log.entries.length → destOk s (fld cmd 16 8) (32 * n) = true → s.cap.filter = [] →
        s.tier.staged = [] → s.tier.rows = [] → fld cmd 16 8 + 32 * n ≤ 2 ^ 64 →
        Ends (.logRead (.issue mb (portOf mb) priv cmd)) s fun t =>
          Answered s t mb cmd 0 0 ∧ BoxFrame s t mb ∧ fld (box t mb).rsp 8 2 = n ∧
          fld (box t mb).rsp 10 2 = (fld cmd 8 2 + n) % 256 ∧
          (∀ (k : Nat) (e : ErrEntry), k < n → s.log.entries[k]? = some e →
            t.mem.bytes (fld cmd 16 8 + 32 * k) 32 = entryBytes e) ∧
          SameOutside s t (fld cmd 16 8) (32 * n) ∧
          t = { s with
            mb := t.mb, events := t.events, stat := { s.stat with evtOvf := t.stat.evtOvf }
            mem := t.mem
            apply := { s.apply with issued := s.apply.issued.map (fun e =>
              if fld cmd 16 8 ≤ e.addr ∧ e.addr < fld cmd 16 8 + 32 * n ∧ e.addr % 64 = 0 then { e with raced := true }
              else e) } })) ∧
    (Handled s mb priv 0x04 cmd → ∀ p : Partition, p = ⟨BitVec.ofNat 16 (fld cmd 8 2), BitVec.ofNat 32 (fld cmd 12 4),
        (fld cmd 16 2, fld cmd 18 2, fld cmd 20 2), (fld cmd 24 2, fld cmd 26 2, fld cmd 28 2),
        (fld cmd 32 2, fld cmd 34 2, fld cmd 36 2), fld cmd 38 1⟩ →
      (p.hi.1 < p.lo.1 ∨ p.hi.2.1 < p.lo.2.1 ∨ p.hi.2.2 < p.lo.2.2 →
        Ends (.partSet (.issue mb (portOf mb) priv cmd)) s fun t => Answered s t mb cmd 0x10 16 ∧ OnlyAnswer s t mb) ∧
      (p.lo.1 ≤ p.hi.1 → p.lo.2.1 ≤ p.hi.2.1 → p.lo.2.2 ≤ p.hi.2.2 →
        (inBox p p.own.1 p.own.2.1 p.own.2.2 = false → Ends (.partSet (.issue mb (portOf mb) priv cmd)) s fun t =>
          Answered s t mb cmd 0x10 32 ∧ OnlyAnswer s t mb) ∧
        (inBox p p.own.1 p.own.2.1 p.own.2.2 = true → p.die ≠ s.fuses.die.toNat →
          Ends (.partSet (.issue mb (portOf mb) priv cmd)) s fun t =>
            Answered s t mb cmd 0x10 38 ∧ OnlyAnswer s t mb) ∧
        (inBox p p.own.1 p.own.2.1 p.own.2.2 = true → p.die = s.fuses.die.toNat →
          Ends (.partSet (.issue mb (portOf mb) priv cmd)) s fun t =>
            Answered s t mb cmd 0 0 ∧ BoxFrame s t mb ∧
            ownRank t = (((p.own.1 - p.lo.1) * (p.hi.2.1 - p.lo.2.1 + 1) + (p.own.2.1 - p.lo.2.1)) *
              (p.hi.2.2 - p.lo.2.2 + 1) + (p.own.2.2 - p.lo.2.2)) * 64 + p.die ∧
            t = { s with
              mb := t.mb, events := t.events, stat := { s.stat with evtOvf := t.stat.evtOvf }
              job := { s.job with part := some p, state := 1, formed := false }
              ports := { s.ports with fenced := fencedMask p, linkFault := 0 }
              agree := { s.agree with
                lastBeat := Vector.replicate 8 s.time.gtc, portSuspect := 0, watchAt := [], wintering := 0
                missMark := Vector.replicate 8 s.time.gtc } }))) ∧
    (Handled s mb priv 0x17 cmd →
      (8 ≤ fld cmd 8 1 ∨ fld cmd 8 1 = mb.val → Ends (.abort (.issue mb (portOf mb) priv cmd)) s fun t =>
        Answered s t mb cmd 0x10 8 ∧ OnlyAnswer s t mb) ∧
      (∀ named : Fin 8, fld cmd 8 1 = named.val → named ≠ mb →
        (mb.val < 5 ∧ 5 ≤ named.val ∨ mb.val = 6 → Ends (.abort (.issue mb (portOf mb) priv cmd)) s fun t =>
          Answered s t mb cmd 0x11 (if mb.val < 5 then 0 else 2) ∧ OnlyAnswer s t mb) ∧
        (mb.val < 5 ∧ named.val < 5 ∨ mb.val = 5 →
          ((box s named).tag.toNat ≠ fld cmd 10 2 → Ends (.abort (.issue mb (portOf mb) priv cmd)) s fun t =>
            Answered s t mb cmd 0x10 10 ∧ OnlyAnswer s t mb) ∧
          ((box s named).tag.toNat = fld cmd 10 2 → (box s named).busy = false →
            Ends (.abort (.issue mb (portOf mb) priv cmd)) s fun t => Answered s t mb cmd 0x02 0 ∧ OnlyAnswer s t mb) ∧
          ((box s named).tag.toNat = fld cmd 10 2 → (box s named).busy = true → (box s named).op = 0x10 →
            Ends (.abort (.issue mb (portOf mb) priv cmd)) s fun t =>
              Answered s t mb cmd 0x12 (s.job.state.toNat + 256 * s.tide.phase.get.toNat) ∧ OnlyAnswer s t mb) ∧
          (∀ c : Compress, (box s named).tag.toNat = fld cmd 10 2 → (box s named).busy = true →
            (box s named).op = 0x0E → s.exch.compress = some c → c.stop = .none →
            Ends (.abort (.issue mb (portOf mb) priv cmd)) s fun t =>
              RunsLong s t mb cmd ∧ BoxFrame s t mb ∧
              t = { s with
                mb := t.mb, events := t.events, stat := { s.stat with evtOvf := t.stat.evtOvf }
                exch := { s.exch with compress := some { c with stop := .abort, aborts := c.aborts ++ [mb] } } }))))

/-! ### Coves, floods and the tier (R37, R41, R45, R49 to R53, R106, R110, R114, R118, R135, R139, R142, R251, R277, R324,
R328, R330, R378, R379) -/

/-- COVE_FORM (R114, R139, R324, R379): accepted, the instance joins the planned cove with every position live in epoch
1, no flood open and slot 0 sealed for tide 0; the filter names the protected homes; slot 0 is zero, the key ladder
stands, and the pass over the declared lines stands at its beginning. A cove that is not the instance's is BAD_ARG at 8,
and a PARITY window too small is RESOURCE at 20. The command completes when the pass has gone out and come in whole and
every record is held: the tidemark of tide 0 stands in area 0 and the instance is FORMED. COVE_RELEASE with a seal
running is WRONG_STATE, with another long command BUSY; otherwise the instance is PLANNED, out of its cove, with its
filter cleared. -/
def Obligations.CovesFormAndAreReleased : Prop :=
  ∀ (s : State) (mb : Fin 8) (priv : Bool) (cmd : Line),
    (∀ (p : Plan) (c : CovePlan) (pos : Nat), Handled s mb priv 0x07 cmd → s.job.plan = some p →
      coveOfRank p (ownRank s) = some (c, pos) → pos < 16 →
      (c.coveId.toNat ≠ fld cmd 8 2 → Ends (.coveForm (.issue mb (portOf mb) priv cmd)) s fun t =>
        Answered s t mb cmd 0x10 8 ∧ OnlyAnswer s t mb) ∧
      (c.coveId.toNat = fld cmd 8 2 → s.tide.forming = none → s.agree.cove = none →
        (s.tier.quotas.parity < parityNeed c → Ends (.coveForm (.issue mb (portOf mb) priv cmd)) s fun t =>
          Answered s t mb cmd 0x30 20 ∧ OnlyAnswer s t mb) ∧
        (parityNeed c ≤ s.tier.quotas.parity → farStashHolds c s.tier.regions s.tier.quotas = true →
          Ends (.coveForm (.issue mb (portOf mb) priv cmd)) s fun t =>
            RunsLong s t mb cmd ∧ BoxFrame s t mb ∧
            t.agree.state = 1 ∧ t.agree.position.toNat = pos ∧
            t.agree.live.get = maskOf 16 (List.range (Layout.n c.layout)) ∧ t.agree.epoch.get = 1 ∧
            t.agree.cove = some c.coveId ∧ t.tide.phase.get = 0 ∧ t.tide.slot.get = 0 ∧ t.tide.tideLo.get = 0 ∧
            t.tide.tideHi.get = 0 ∧ t.tide.forming = some (some mb) ∧ t.job = { s.job with rankChanges := [], formed := true } ∧
            t.cap.filter = filterEntries s false ∧ t.cap.filterPending = s.cap.filterPending + 1 ∧
            t.cap.held = s.cap.held ∧ t.cap.queue = s.cap.queue ∧
            t.cap.records = s.cap.records ∧ t.cap.pass = some 0 ∧
            (∀ row, row < rowsY t →
              t.mem.bytes (ladderBase t + 2048 * row) 2048 = ladderRow (bayKey s row)) ∧
            (∀ x, x < ladderBase t ∨ ladderBase t + 2048 * rowsY t ≤ x →
              t.mem.byte x = if slotBase t 0 ≤ x ∧ x < slotBase t 0 + slotSize t then 0 else s.mem.byte x) ∧
            t.tier = s.tier ∧ t.ctrl = s.ctrl ∧ t.apply = s.apply ∧ t.exch = s.exch ∧ t.power = s.power ∧
            t.cnt = s.cnt ∧ t.log = s.log ∧ t.out = s.out ∧ t.time = s.time))) ∧
    (∀ o : Option (Fin 8), s.tide.forming = some o → passDone s = false ∨ allRecords s = false →
      Ends .coveFormComplete s fun t => t = s) ∧
    (s.tide.forming = some (some mb) → s.stat.fwState.get = 2 → passDone s = true → allRecords s = true →
      Ends .coveFormComplete s fun t =>
        t.job = { s.job with state := 3 } ∧ t.tide.forming = none ∧ t.tide.phase = s.tide.phase ∧
        t.tide.tideLo = s.tide.tideLo ∧ t.tide.tideHi = s.tide.tideHi ∧ t.tide.slot = s.tide.slot ∧
        t.mem = s.mem.write (areaBase s 0)
          (recordsBytes s ++ leBytes 6 0 ++ leBytes 2 0 ++ sha256 (recordsBytes s) ++ List.replicate 24 0) ∧
        (box t mb).busy = false ∧ (box t mb).long = false ∧ (box t mb).done = true ∧ (box t mb).code = 0 ∧
        (box t mb).count = (box s mb).count + 1 ∧ BoxFrame s t mb ∧ t.cap = s.cap ∧ t.tier = s.tier ∧ t.recov = s.recov) ∧
    (Handled s mb priv 0x1C cmd →
      (sealRuns s = true → Ends (.coveRelease (.issue mb (portOf mb) priv cmd)) s fun t =>
        Answered s t mb cmd 0x12 (s.job.state.toNat + 256 * s.tide.phase.get.toNat) ∧ OnlyAnswer s t mb) ∧
      (∀ o : Fin 8, sealRuns s = false → o ≠ mb → (box s o).long = true →
        (∀ m : Fin 8, m.val < o.val → m ≠ mb → (box s m).long = false) →
        Ends (.coveRelease (.issue mb (portOf mb) priv cmd)) s fun t =>
          Answered s t mb cmd 0x13 o.val ∧ OnlyAnswer s t mb) ∧
      (sealRuns s = false → (∀ m : Fin 8, m ≠ mb → (box s m).long = false) → s.cap.oldReads = [] → s.cap.held = [] →
        Ends (.coveRelease (.issue mb (portOf mb) priv cmd)) s fun t =>
          Answered s t mb cmd 0 0 ∧ BoxFrame s t mb ∧ t.job.state = 2 ∧ t.job.plan = s.job.plan ∧
          t.job.part = s.job.part ∧ t.agree.state = 0 ∧ t.agree.cove = none ∧ t.agree.live.get = 0 ∧
          t.agree.epoch.get = 0 ∧ t.tide.phase.get = 0 ∧ t.cap.filter = [] ∧
          t.cap.filterPending = s.cap.filterPending + 1 ∧ t.cap.queue = [] ∧ t.cap.records = [] ∧ t.mem = s.mem ∧
          t.tier = s.tier ∧ t.ctrl = s.ctrl ∧ t.apply = s.apply ∧ t.exch = s.exch ∧ t.cnt = s.cnt ∧ t.log = s.log ∧
          t.out = s.out))

/-- Floods (R106, R110, R114, R142, R251, R324, R378, R379). TIDE_OPEN opens a flood after COVE_FORM or a resumable
recovery and answers with its number and its interval; in another phase it is WRONG_STATE. TIDE_POLICY is checked field
by field and stands ready for the next flood. DRAIN_START stops capture, or completes at once with capture already
disabled. CODING_SUSPEND stops capture and gives no response yet; it is WRONG_STATE outside a flood and BUSY while an
APPLY_RUN runs. CODING_RESUME clears the working slot and starts the pass of every declared line; its completion opens
the flood to writes again. -/
def Obligations.FloodsOpenSuspendAndResume : Prop :=
  ∀ (s : State) (mb : Fin 8) (priv : Bool) (cmd : Line),
    (Handled s mb priv 0x08 cmd →
      (s.tide.phase.get ≠ 0 → s.tide.phase.get ≠ 5 → Ends (.tideOpen (.issue mb (portOf mb) priv cmd)) s fun t =>
        Answered s t mb cmd 0x12 (s.job.state.toNat + 256 * s.tide.phase.get.toNat) ∧ OnlyAnswer s t mb) ∧
      (∀ c : CovePlan, ownCove s = some c → stashHolds s.tier.regions s.tier.quotas = true →
        farStashHolds c s.tier.regions s.tier.quotas = true → s.cap.held = [] → s.agree.renewalDue = false →
        s.tide.forming = none → sealedTide s ≠ 0xFFFFFFFFFFFE →
        (s.tide.phase.get = 0 ∨ (s.tide.phase.get = 5 ∧ s.recov.state.get = 5 ∧ s.recov.lost.get = 0)) →
        Ends (.tideOpen (.issue mb (portOf mb) priv cmd)) s fun t =>
          Answered s t mb cmd 0 0 ∧ BoxFrame s t mb ∧ fld (box t mb).rsp 10 6 = (sealedTide s + 1).toNat ∧
          (openInterval s.tide.nextPolicy < 8192 → fld (box t mb).rsp 16 2 = openInterval s.tide.nextPolicy ∧
            t.tide.n.get.toNat = openInterval s.tide.nextPolicy) ∧
          t.tide.phase.get = 1 ∧ t.tide.steps = 0 ∧ t.tide.policy = s.tide.nextPolicy ∧
          t.fold.share = s.fold.nextShare ∧ t.tide.slot = s.tide.slot ∧ t.tide.tideLo = s.tide.tideLo ∧
          t.tide.tideHi = s.tide.tideHi ∧ t.cap.nearFill = 0 ∧ t.cap.farFill = 0 ∧ t.cap.touchValid = [] ∧
          (s.tide.phase.get = 0 → t.tide.jobStart = s.time.gtc) ∧
          (s.tide.phase.get = 5 → t.recov.state.get = 7) ∧
          t.mem = s.mem ∧ t.digests = s.digests ∧ t.job = s.job ∧ t.tier = s.tier ∧ t.agree = s.agree ∧
          t.apply = s.apply ∧ t.ctrl = s.ctrl ∧ t.cnt = s.cnt ∧ t.log = s.log ∧ t.out = s.out)) ∧
    (Handled s mb priv 0x0A cmd →
      (1 < fld cmd 8 1 → Ends (.tidePolicy (.issue mb (portOf mb) priv cmd)) s fun t =>
        Answered s t mb cmd 0x10 8 ∧ OnlyAnswer s t mb) ∧
      (fld cmd 8 1 ≤ 1 → fld cmd 9 1 = 0 ∨ 8 < fld cmd 9 1 →
        Ends (.tidePolicy (.issue mb (portOf mb) priv cmd)) s fun t => Answered s t mb cmd 0x10 9 ∧ OnlyAnswer s t mb) ∧
      (fld cmd 8 1 ≤ 1 → 1 ≤ fld cmd 9 1 → fld cmd 9 1 ≤ 8 → 1 ≤ fld cmd 10 2 → fld cmd 10 2 ≤ 4096 →
        1 ≤ fld cmd 12 2 → fld cmd 12 2 ≤ fld cmd 14 2 → fld cmd 14 2 ≤ 4096 → 1 ≤ fld cmd 20 4 →
        Ends (.tidePolicy (.issue mb (portOf mb) priv cmd)) s fun t =>
          Answered s t mb cmd 0 0 ∧ BoxFrame s t mb ∧
          t.tide.nextPolicy = ⟨decide (fld cmd 8 1 = 1), fld cmd 9 1, fld cmd 10 2, fld cmd 12 2, fld cmd 14 2,
            fld cmd 16 2, fld cmd 20 4⟩ ∧
          t = { s with
            mb := t.mb, events := t.events, stat := { s.stat with evtOvf := t.stat.evtOvf }
            tide := { s.tide with nextPolicy := t.tide.nextPolicy }
            fold := { s.fold with nextShare := fld cmd 9 1 } })) ∧
    (Handled s mb priv 0x11 cmd →
      (∀ o : Fin 8, s.stat.drainMb = some o → Ends (.drainStart (.issue mb (portOf mb) priv cmd)) s fun t =>
        Answered s t mb cmd 0x13 o.val ∧ OnlyAnswer s t mb) ∧
      (s.stat.drainMb = none → s.stat.capState = 2 → Ends (.drainStart (.issue mb (portOf mb) priv cmd)) s fun t =>
        Answered s t mb cmd 0 0 ∧ OnlyAnswer s t mb) ∧
      (s.stat.drainMb = none → s.stat.capState = 0 → Ends (.drainStart (.issue mb (portOf mb) priv cmd)) s fun t =>
        RunsLong s t mb cmd ∧ BoxFrame s t mb ∧
        t = { s with
          mb := t.mb, events := t.events
          stat := { s.stat with evtOvf := t.stat.evtOvf, capState := 1, drainMb := some mb } })) ∧
    (Handled s mb priv 0x1A cmd →
      (s.job.state ≠ 3 ∨ s.tide.phase.get ≠ 1 → Ends (.codingSuspend (.issue mb (portOf mb) priv cmd)) s fun t =>
        Answered s t mb cmd 0x12 (s.job.state.toNat + 256 * s.tide.phase.get.toNat) ∧ OnlyAnswer s t mb) ∧
      (s.job.state = 3 → s.tide.phase.get = 1 → s.agree.cove = some (BitVec.ofNat 16 (fld cmd 8 2)) →
        (∀ r, s.apply.run = some r → Ends (.codingSuspend (.issue mb (portOf mb) priv cmd)) s fun t =>
          Answered s t mb cmd 0x13 r.mailbox.val ∧ OnlyAnswer s t mb) ∧
        (s.apply.run = none → Ends (.codingSuspend (.issue mb (portOf mb) priv cmd)) s fun t =>
          (box t mb).busy = true ∧ (box t mb).long = false ∧ (box t mb).count = (box s mb).count ∧
          (box t mb).rsp = (box s mb).rsp ∧ OtherBoxes s t mb ∧
          t = { s with mb := t.mb, stat := { s.stat with capState := 1, suspendMb := some mb } }))) ∧
    (Handled s mb priv 0x1B cmd →
      (s.job.state ≠ 3 ∨ s.tide.phase.get ≠ 6 → Ends (.codingResume (.issue mb (portOf mb) priv cmd)) s fun t =>
        Answered s t mb cmd 0x12 (s.job.state.toNat + 256 * s.tide.phase.get.toNat) ∧ OnlyAnswer s t mb) ∧
      (s.job.state = 3 → s.tide.phase.get = 6 → sealRuns s = false →
        s.agree.cove = some (BitVec.ofNat 16 (fld cmd 8 2)) → s.tide.resuming = none →
        Ends (.codingResume (.issue mb (portOf mb) priv cmd)) s fun t =>
          RunsLong s t mb cmd ∧ BoxFrame s t mb ∧ t.tide.phase = s.tide.phase ∧ t.tide.resuming = some (some mb) ∧
          t.tide.closeSent = [] ∧ t.cap.filter = filterEntries s false ∧
          t.cap.records = s.cap.records ∧ t.cap.pass = some 0 ∧
          (∀ b ∈ declaredBays s, t.mem.bytes ((farStash s).1 + b * 2048) 2048 = List.replicate 2048 0xFF) ∧
          (∀ x, (∀ b ∈ declaredBays s, x < (farStash s).1 + b * 2048 ∨ (farStash s).1 + b * 2048 + 2048 ≤ x) →
            t.mem.byte x = if slotBase s (workingSlot s) ≤ x ∧ x < slotBase s (workingSlot s) + slotSize s then 0
              else s.mem.byte x) ∧
          t.job = s.job ∧ t.tier = s.tier ∧ t.agree = s.agree ∧ t.recov = s.recov ∧ t.apply = s.apply ∧ t.ctrl = s.ctrl ∧
          t.cnt = s.cnt ∧ t.log = s.log ∧ t.out = s.out)) ∧
    (∀ o : Option (Fin 8), s.tide.resuming = some o → passDone s = false →
      Ends .codingResumeComplete s fun t => t = s) ∧
    (s.tide.resuming = some (some mb) → passDone s = true → s.cap.held = [] → s.stat.fwState.get = 2 →
      Ends .codingResumeComplete s fun t =>
        (box t mb).busy = false ∧ (box t mb).done = true ∧ (box t mb).code = 0 ∧
        (box t mb).count = (box s mb).count + 1 ∧ BoxFrame s t mb ∧ t.tide.phase.get = 1 ∧
        t = { s with
          mb := t.mb, events := t.events, stat := { s.stat with evtOvf := t.stat.evtOvf }
          tide := { s.tide with resuming := none, closeSent := [], phase := t.tide.phase } })

/-- Regions, quotas and the tier mover (R37, R41, R45, R49, R53, R277, R327, R328). REGION_DECLARE adds the region,
placed near as far as the near DATA quota goes, and answers the near bays; an id in use is BAD_ARG at 8. TIER_QUOTA_SET
changes the selected quotas, none when it would lower one below its use or leave a window wrong, and frees the staged
tiles and row slots that the STAGE window no longer holds. PREFETCH_PLAN is taken once its lines and entries are right,
and then replaces the schedule and sets the cursor line's filter entry, with no entry in flight (log entry 77). An
OFFLOAD or RETURN entry in flight copies its tiles between the buffer and the region's home, is complete, and the
progress line says so; a FETCH entry of one far tile stages it at the base of an empty STAGE window. An entry not in
flight does nothing, and neither does one while a due entry started before it is still to be served (R52). -/
def Obligations.RegionsQuotasAndPrefetch : Prop :=
  ∀ (s : State) (mb : Fin 8) (priv : Bool) (cmd : Line) (p : Plan), s.job.plan = some p →
    (Handled s mb priv 0x06 cmd →
      ((∃ g ∈ s.tier.regions, g.id = (regionOf cmd).id) → Ends (.regionDeclare (.issue mb (portOf mb) priv cmd)) s fun t =>
        Answered s t mb cmd 0x10 8 ∧ OnlyAnswer s t mb) ∧
      (regionFieldFault s p (fld cmd 9 1) (regionOf cmd) = none →
        (regionOf cmd).protected_ = false ∨ coveStands s = false →
        homeFault s p { regionOf cmd with nearBays := placeNear s (regionOf cmd) } = none →
        regionShortfall s { regionOf cmd with nearBays := placeNear s (regionOf cmd) } = none →
        Ends (.regionDeclare (.issue mb (portOf mb) priv cmd)) s fun t =>
          Answered s t mb cmd 0 0 ∧ BoxFrame s t mb ∧
          fld (box t mb).rsp 8 4 = placeNear s (regionOf cmd) ∧
          t = { s with
            mb := t.mb, events := t.events, stat := { s.stat with evtOvf := t.stat.evtOvf }
            tier := { s.tier with
              regions := s.tier.regions ++ [{ regionOf cmd with nearBays := placeNear s (regionOf cmd) }] } })) ∧
    (Handled s mb priv 0x0F cmd → fld cmd 52 2 < 2048 →
      windowFault p s.tier.regions (quotasOf s.tier.quotas cmd) = none →
      (∀ i : Nat, i ∈ [2, 4, 6, 8] → s.job.formed = true →
        quotaField (quotasOf s.tier.quotas cmd) i ≠ quotaField s.tier.quotas i →
        Ends (.tierQuotaSet (.issue mb (portOf mb) priv cmd)) s fun t =>
          Answered s t mb cmd 0x12 (s.job.state.toNat + 256 * s.tide.phase.get.toNat) ∧ OnlyAnswer s t mb) ∧
      ((∀ i ∈ [2, 4, 6, 8], s.job.formed = true →
          quotaField (quotasOf s.tier.quotas cmd) i = quotaField s.tier.quotas i) →
        (quotaField (quotasOf s.tier.quotas cmd) 0 < s.tier.quotas.dataNear →
          quotaField (quotasOf s.tier.quotas cmd) 0 < nearInUse s.tier.regions →
          Ends (.tierQuotaSet (.issue mb (portOf mb) priv cmd)) s fun t =>
            Answered s t mb cmd 0x30 8 ∧ OnlyAnswer s t mb) ∧
        ((∀ i, i < 11 → loweredBelow s (quotasOf s.tier.quotas cmd) i = false) →
          stashHolds s.tier.regions (quotasOf s.tier.quotas cmd) = true →
          Ends (.tierQuotaSet (.issue mb (portOf mb) priv cmd)) s fun t =>
            Answered s t mb cmd 0 0 ∧ BoxFrame s t mb ∧
            (∀ i, i < 11 → quotaField t.tier.quotas i =
              if (fld cmd 52 2).testBit i then fld cmd (8 + 4 * i) 4 else quotaField s.tier.quotas i) ∧
            t.tier.staged = s.tier.staged.filter (fun q => decide (quotaField t.tier.quotas 8 * 2 ^ 20 ≤ q.addr ∧
              q.addr + 16384 ≤ (quotaField t.tier.quotas 8 + quotaField t.tier.quotas 9) * 2 ^ 20)) ∧
            t.tier.rows = (if quotaField t.tier.quotas 8 = quotaField s.tier.quotas 8 then
              s.tier.rows.filter fun q => decide ((q.slot + 1) * 2 ^ q.shift ≤ quotaField t.tier.quotas 9 * 2 ^ 20)
              else []) ∧
            t = { s with
              mb := t.mb, events := t.events, stat := { s.stat with evtOvf := t.stat.evtOvf }
              tier := { s.tier with
                quotas := t.tier.quotas, staged := t.tier.staged, rows := t.tier.rows
                lastSeq := t.tier.lastSeq } }))) ∧
    (Handled s mb priv 0x10 cmd → fld cmd 8 8 % 64 = 0 → inNear p (fld cmd 8 8) (24 * fld cmd 16 4) = true →
      0 < fld cmd 16 4 → fld cmd 16 4 ≤ 65536 →
      fld cmd 24 8 % 64 = 0 → inNear p (fld cmd 24 8) 64 = true → fld cmd 32 8 % 64 = 0 →
      inNear p (fld cmd 32 8) 64 = true →
      (∀ r ∈ s.tier.regions, ∀ h ∈ regionHomes r, overlap (fld cmd 24 8) 64 h.1 h.2.1 = false ∧
        overlap (fld cmd 32 8) 64 h.1 h.2.1 = false) →
      s.tier.loading = none →
      (∀ o, entryFault s (s.mem.bytes (fld cmd 8 8) 24) = some o →
        Ends (.prefetchPlan (.issue mb (portOf mb) priv cmd)) s fun t =>
          Answered s t mb cmd 0x10 (0x10000 + o) ∧ OnlyAnswer s t mb) ∧
      ((∀ i, i < fld cmd 16 4 → entryFault s (s.mem.bytes (fld cmd 8 8 + 24 * i) 24) = none) →
        Ends (.prefetchPlan (.issue mb (portOf mb) priv cmd)) s fun t =>
          RunsLong s t mb cmd ∧ BoxFrame s t mb ∧ t.tier.schedule = s.tier.schedule ∧
          t = { s with
            mb := t.mb, events := t.events, stat := { s.stat with evtOvf := t.stat.evtOvf }
            tier := { s.tier with loading := t.tier.loading } })) ∧
    (s.tier.loading = none → Ends .prefetchPlanComplete s fun t => t = s) ∧
    (∀ (es : List PfEntry) (cursor progress : U64) (stands : Bool), s.tier.loading = some (mb, es, cursor, progress, stands) →
      s.stat.fwState.get = 2 → Ends .prefetchPlanComplete s fun t =>
        (box t mb).busy = false ∧ (box t mb).done = true ∧ (box t mb).code = 0 ∧
        (box t mb).count = (box s mb).count + 1 ∧ BoxFrame s t mb ∧
        t = { s with
          mb := t.mb, events := t.events, stat := { s.stat with evtOvf := t.stat.evtOvf }
          tier := { s.tier with
            loading := none, schedule := es, flight := [], progressLine := some progress, position := 0, step := 0
            cursorLine := if stands = true then some cursor else none }
          cap := { s.cap with lineEntry := some cursor, filterPending := s.cap.filterPending + 1 } }) ∧
    (∀ i : Nat, (∀ f ∈ s.tier.flight, f.index ≠ i) ∨ s.tier.halted = 15 →
      Ends (.prefetchEntryComplete i) s fun t => t = s) ∧
    (∀ f g : Flight, s.tier.flight = [f, g] → f.index ≠ g.index → f.stalled = false → f.entry.action ≠ 2 →
      f.entry.position.toNat ≤ s.tier.position.toNat → Ends (.prefetchEntryComplete g.index) s fun t => t = s) ∧
    (∀ (f : Flight) (e : PfEntry) (r : Region) (prog : U64), s.tier.flight = [f] → f.step = s.tier.step →
      s.tier.schedule[f.index]? = some e → s.tier.halted ≠ 15 → s.power.season.get = 0 →
      s.tier.regions = [r] → r.id = f.entry.region → s.tier.progressLine = some prog → s.tier.haltFlag = false →
      (f.entry.action = 2 ∨ f.entry.action = 3 → Ends (.prefetchEntryComplete f.index) s fun t =>
        (∀ x, x < prog.toNat ∨ prog.toNat + 64 ≤ x → t.mem.byte x =
          (let home := regionAddr r (f.entry.firstTile.toNat * 16384)
           let src := if f.entry.action = 2 then f.entry.nearAddr.toNat else home
           let dst := if f.entry.action = 2 then home else f.entry.nearAddr.toNat
           if dst ≤ x ∧ x < dst + f.entry.tiles.toNat * 16384 then s.mem.byte (src + (x - dst)) else s.mem.byte x)) ∧
        fld (t.mem.line prog.toNat) 0 2 = donePosition t.tier.schedule ∧
        fld (t.mem.line prog.toNat) 2 2 = (if ∀ q ∈ t.tier.schedule, q.done = true ∨ q.failed = true then 1 else 0) ∧
        fld (t.mem.line prog.toNat) 8 8 = s.tier.step.toNat ∧ fld (t.mem.line prog.toNat) 16 8 = s.time.gtc.toNat ∧
        t = { s with mem := t.mem, tier := { s.tier with
          flight := [], schedule := s.tier.schedule.set f.index { e with done := true, failed := false } } }) ∧
      (f.entry.action = 0 → f.entry.tiles.toNat = 1 → r.nearBays * 64 ≤ f.entry.firstTile.toNat → rebuilding s = false →
        s.recov.target = false → s.tier.staged = [] → s.tier.rows = [] → 0 < s.tier.quotas.stage →
        Ends (.prefetchEntryComplete f.index) s fun t =>
          (∀ x, x < prog.toNat ∨ prog.toNat + 64 ≤ x → t.mem.byte x =
            (let dst := s.tier.quotas.stageBase * 2 ^ 20
             if dst ≤ x ∧ x < dst + 16384 then s.mem.byte (regionAddr r (f.entry.firstTile.toNat * 16384) + (x - dst))
             else s.mem.byte x)) ∧
          t = { s with mem := t.mem, tier := { s.tier with
            flight := [], schedule := s.tier.schedule.set f.index { e with done := true, failed := false }
            staged := [⟨r.id, f.entry.firstTile.toNat, s.tier.quotas.stageBase * 2 ^ 20, f.entry.position, f.step⟩] } }))

/-! ### Delta capture (R16 to R19, R80 to R93, R110, R111, R277, R278, R345) -/

/-- The window of a line and an address lie apart. -/
abbrev Sys2Proof.outsideLine (a x : Nat) : Prop := x < a ∨ a + 64 ≤ x

/-- An access that the snoop filter does not present, or that meets an absent MSP, completes uncaptured: verdict PASS,
and the enabled bytes reach memory; every other byte stays, but for the copies that the apply and exchange units write
through (R16, R47, R277, R278). -/
def Obligations.UnfilteredAccessIsUncaptured : Prop :=
  ∀ (s : State) (r : SnoopRec),
    (∀ e ∈ s.cap.filter, r.line.toNat < e.base ∨ e.base + e.size ≤ r.line.toNat) ∨ s.ports.msp = false →
    ∀ c ∈ [Instr.snoopWrite r, Instr.snoopAtomicResult r],
    Ends c s fun t =>
      t = { s with
        mem := t.mem
        tier := { s.tier with staged := t.tier.staged, rows := t.tier.rows }
        cap := { s.cap with verdicts := s.cap.verdicts ++ [(r.tag, .pass)] }
        apply := { s.apply with issued := t.apply.issued } } ∧
      (∀ i : Nat, i < 64 → (r.master ≠ .apply ∧ r.master ≠ .exchange ∨ copiesOf s r.line.toNat = []) →
        t.mem.byte (r.line.toNat + i) =
          if r.be.getLsbD i then lineByte r.data i else s.mem.byte (r.line.toNat + i)) ∧
      (∀ x : Nat, outsideLine r.line.toNat x →
        (r.master = .apply ∨ r.master = .exchange → ∀ a ∈ copiesOf s r.line.toNat, outsideLine a x) →
        t.mem.byte x = s.mem.byte x)

/-- A read passes at once unless its line waits to be rebuilt; an observed write of the cursor line moves the layer
cursor, and of any other line moves nothing of the tier mover (R49, R261, R277, R278). As the cursor moves within a
step, a FETCH entry not yet started starts once the cursor is its lead or less before its position, and no sooner (R51).
-/
def Obligations.ReadsPassAndCursorLineMoves : Prop :=
  ∀ s : State,
    (∀ (tag : BitVec 9) (line : U64) (m : Master), s.recov.target = false →
      Ends (.snoopRead tag line m) s fun t =>
        t = { s with cap := { s.cap with verdicts := s.cap.verdicts ++ [(tag, .pass)] } }) ∧
    (∀ r : SnoopRec, r.master ≠ .apply → r.master ≠ .exchange → r.master ≠ .hygarOther → r.be = BitVec.allOnes 64 →
      s.power.season.get = 0 →
      (∀ a, s.tier.progressLine = some a → a.toNat + 64 ≤ r.line.toNat ∨ r.line.toNat + 64 ≤ a.toNat) →
      Ends (.snoopObserve r) s fun t =>
        t.cap = { s.cap with verdicts := s.cap.verdicts ++ [(r.tag, .pass)] } ∧
        t.mem.line r.line.toNat = r.data ∧
        (s.tier.cursorLine = some r.line →
          t.tier.position.toNat = fld r.data 0 2 ∧ t.tier.step.toNat = fld r.data 8 8 ∧
          ∀ e : PfEntry, s.tier.schedule = [e] → e.started = false → e.action = 0 → e.lead.toNat ≤ e.position.toNat →
            fld r.data 8 8 = s.tier.step.toNat →
            (e.position.toNat ≤ fld r.data 0 2 + e.lead.toNat → ∃ f : Flight, t.tier.flight = s.tier.flight ++ [f] ∧
              f.index = 0 ∧ f.step = s.tier.step ∧ f.entry.region = e.region ∧ f.entry.firstTile = e.firstTile ∧
              f.entry.tiles = e.tiles) ∧
            (fld r.data 0 2 + e.lead.toNat < e.position.toNat → t.tier.flight = s.tier.flight)) ∧
        (s.tier.cursorLine ≠ some r.line →
          t.tier.position = s.tier.position ∧ t.tier.step = s.tier.step ∧ t.tier.schedule = s.tier.schedule))

/-- Capture takes a protected write in an open flood (R17, R81, R85, R86): a write by any master but the apply unit has
its old line read first and is held without a verdict; a narrow one counts a read-modify-write. While a seal runs, or
capture is stopped, the write waits without a verdict and memory is untouched (R19, R110). -/
def Obligations.ProtectedWriteIsCapturedOrHeld : Prop :=
  ∀ (s : State) (r : SnoopRec) (e : FilterEntry), s.ports.msp = true → e ∈ s.cap.filter →
    e.base ≤ r.line.toNat → r.line.toNat < e.base + e.size → s.recov.target = false → r.master ≠ .apply →
    (s.ctrl.capEn.get = 1 → s.stat.capState = 0 → s.tide.phase.get = 1 → s.cap.barred = false → s.cap.recompute = [] →
      (∀ h ∈ s.cap.held, h.acc.line ≠ r.line) → s.cap.queue.length < 256 → s.cap.oldReads.length < 128 →
      (∀ o ∈ s.cap.oldReads, o.addr ≠ r.line.toNat) → s.apply.issued = [] →
      (r.be = BitVec.allOnes 64 → Ends (.snoopWrite r) s fun t =>
        t = { s with cap := { s.cap with oldReads := s.cap.oldReads ++ [⟨r.line.toNat, [⟨.write, r⟩]⟩] } }) ∧
      (r.be ≠ BitVec.allOnes 64 → Ends (.snoopWrite r) s fun t =>
        t = { s with
          cap := { s.cap with oldReads := s.cap.oldReads ++ [⟨r.line.toNat, [⟨.write, r⟩]⟩] }
          cnt := s.cnt.set 2 (s.cnt.get 2 + 1) }) ∧
      Ends (.snoopAtomicResult r) s fun t =>
        t = { s with
          cap := { s.cap with oldReads := s.cap.oldReads ++ [⟨r.line.toNat, [⟨.atomic, r⟩]⟩] }
          cnt := s.cnt.set 2 (s.cnt.get 2 + 1) }) ∧
    (s.ctrl.capEn.get = 0 ∨ s.stat.capState ≠ 0 ∨ s.tide.phase.get = 2 ∨ s.tide.phase.get = 3 ∨ s.tide.phase.get = 4 ∨
        s.tide.phase.get = 5 ∨ s.cap.barred = true →
      Ends (.snoopWrite r) s fun t =>
        t = { s with
          cap := { s.cap with held := s.cap.held ++ [⟨.write, r⟩] }
          tide := { s.tide with holdSince := t.tide.holdSince }
          apply := { s.apply with issued := t.apply.issued } } ∧
        (s.tide.phase.get = 2 → s.tide.holdSince = none → t.tide.holdSince = some s.time.gtc))

/-- A write of the apply unit to a line it has read itself and no other master has written since needs no second read:
the whole line it issued enters the capture queue with the value the apply unit read, the write passes at once, and
memory takes the line (R17, R81, R82, R154); the run notes when it was captured (R181). -/
def Obligations.ApplyWriteUsesItsOwnRead : Prop :=
  ∀ (s : State) (r : SnoopRec) (e : FilterEntry) (q : ApplyLine) (b l : Nat), s.ports.msp = true → e ∈ s.cap.filter →
    e.base ≤ r.line.toNat → r.line.toNat < e.base + e.size → s.recov.target = false → r.master = .apply →
    s.ctrl.capEn.get = 1 → s.stat.capState = 0 → s.tide.phase.get = 1 → s.cap.barred = false →
    s.cap.recompute = [] → s.cap.held = [] → s.cap.queue.length < 256 → (∀ c ∈ s.cap.queue, c.tags = []) →
    s.cap.oldReads = [] → s.apply.issued = [q] → q.addr = r.line.toNat → q.raced = false → q.stale = false →
    copiesOf s r.line.toNat = [] → bayLine s r.line.toNat = some (b, l) →
    Ends (.snoopWrite r) s fun t =>
      t = { s with
        mem := s.mem.writeLine r.line.toNat q.new
        cap := { s.cap with
          queue := if q.old = q.new then s.cap.queue else s.cap.queue ++ [⟨b, l, q.old, q.new, [], [.apply]⟩]
          verdicts := s.cap.verdicts ++ [(r.tag, .pass)] }
        cnt := if q.old = q.new then s.cnt.set 1 (s.cnt.get 1 + 1) else s.cnt.set 0 (s.cnt.get 0 + 1)
        apply := { s.apply with
          issued := [], run := s.apply.run.map fun u => { u with lastGtc := some s.time.gtc } } }

/-- Byte `i` of a line after writes over it, in presentation order (R86). -/
def Sys2Proof.lastWritten (i : Nat) : Byte → List Held → Byte
  | b, [] => b
  | b, h :: t => lastWritten i (if h.acc.be.getLsbD i then lineByte h.acc.data i else b) t

/-- The return of an old-line read (R81, R82, R83, R85, R86, R280): the writes it serves merge over the line. A nonzero
delta enters the capture queue and is counted; where every write is whole they pass at once and memory takes the line,
where one is narrow the merged line waits in the queue, unwritten and with no verdict, until its delta has been handed
on. A zero delta is counted and not queued, and its writes end at once: absorbed where one is narrow, passed otherwise.
-/
def Obligations.OldLineReadCompletesTheWrites : Prop :=
  ∀ (s : State) (line : U64) (o : OldRead) (b l : Nat), o ∈ s.cap.oldReads → o.addr = line.toNat →
    (∀ q ∈ s.cap.oldReads, q.addr = line.toNat → q = o) → s.cap.queue.length < 256 → s.cap.held = [] →
    (∀ c ∈ s.cap.queue, c.tags = []) → o.recs ≠ [] →
    (∀ h ∈ o.recs, h.acc.master ≠ .apply ∧ h.acc.master ≠ .exchange) → bayLine s o.addr = some (b, l) →
    Ends (.oldLineReadReturn line) s fun t => ∃ new : Line,
      (∀ i : Nat, i < 64 → lineByte new i = lastWritten i (s.mem.byte (o.addr + i)) o.recs) ∧
      t = { s with
        mem := t.mem
        cap := { s.cap with oldReads := s.cap.oldReads.erase o, queue := t.cap.queue, verdicts := t.cap.verdicts }
        tier := { s.tier with staged := t.tier.staged, rows := t.tier.rows }
        apply := { s.apply with issued := t.apply.issued }
        cnt := t.cnt } ∧
      (new = s.mem.line o.addr →
        t.cap.queue = s.cap.queue ∧ t.cnt = s.cnt.set 1 (s.cnt.get 1 + 1) ∧ (∀ x, t.mem.byte x = s.mem.byte x) ∧
        t.cap.verdicts = s.cap.verdicts ++ o.recs.map fun h =>
          (h.acc.tag, if ∃ g ∈ o.recs, g.kind = .atomic ∨ g.acc.be ≠ BitVec.allOnes 64 then .absorb else .pass)) ∧
      (new ≠ s.mem.line o.addr → t.cnt = s.cnt.set 0 (s.cnt.get 0 + 1) ∧
        ((∀ h ∈ o.recs, h.kind ≠ .atomic ∧ h.acc.be = BitVec.allOnes 64) →
          t.cap.queue = s.cap.queue ++ [⟨b, l, s.mem.line o.addr, new, [], o.recs.map fun h => h.acc.master⟩] ∧
          t.cap.verdicts = s.cap.verdicts ++ o.recs.map (fun h => (h.acc.tag, .pass)) ∧ t.mem.line o.addr = new ∧
          (∀ x : Nat, outsideLine o.addr x → t.mem.byte x = s.mem.byte x)) ∧
        ((∃ h ∈ o.recs, h.kind = .atomic ∨ h.acc.be ≠ BitVec.allOnes 64) →
          t.cap.queue = s.cap.queue ++ [⟨b, l, s.mem.line o.addr, new, o.recs.map (fun h => h.acc.tag),
            o.recs.map fun h => h.acc.master⟩] ∧
          t.cap.verdicts = s.cap.verdicts ∧ t.mem = s.mem))

/-- The capture queue's oldest line leaves it as a delta once the GF array is free (R83, R87, R88, R89, R108, R139,
R280): its row's running digest takes the line's term, the delta goes to the GF array, and on the first touch in the
flood the before-image enters the stash and the line counts as touched; a whole line already touched writes no memory at
all. A merged line is then written, and its narrow writes absorbed. While a delta is in the GF array, the queue waits.
-/
def Obligations.CapturedLineIsStashedDigestedAndQueued : Prop :=
  ∀ (s : State) (c : CapLine) (rest : List CapLine), s.cap.queue = c :: rest → s.cap.held = [] → s.recov.handover = none →
    (s.cap.records ≠ [] → Ends .captureLine s fun t => t = s) ∧
    (s.cap.records = [] →
      Ends .captureLine s fun t =>
        t = { s with
          mem := t.mem
          cap := { s.cap with
            queue := rest
            records := [⟨c.bay, c.line, c.old ^^^ c.new, true, true⟩]
            touchCache := t.cap.touchCache
            touchValid := t.cap.touchValid
            nearFill := t.cap.nearFill
            farFill := t.cap.farFill
            verdicts := s.cap.verdicts ++ c.tags.map fun g => (g, .absorb) }
          tier := { s.tier with staged := t.tier.staged, rows := t.tier.rows }
          apply := { s.apply with issued := t.apply.issued }
          digests := t.digests
          freeCtr := t.freeCtr } ∧
        digestOf t c.bay = digestOf s c.bay ^^^ lineTerm (bayKey s c.bay) c.line (c.old ^^^ c.new) ∧
        (∀ row, row ≠ c.bay → digestOf t row = digestOf s row) ∧
        touched t c.bay c.line = true ∧ 
        (s.cap.touchCache.length < 2048 → t.cap.touchValid = s.cap.touchValid ∧ t.freeCtr = s.freeCtr) ∧
        (c.tags = [] → t.tier = s.tier ∧ t.apply = s.apply) ∧
        (∀ a, c.tags ≠ [] → lineHome s c.bay c.line = some a → copiesOf s a = [] → t.mem.line a = c.new) ∧
        (touched s c.bay c.line = true →
          t.cap.nearFill = s.cap.nearFill ∧ t.cap.farFill = s.cap.farFill ∧
            (c.tags = [] → s.cap.touchCache.length < 2048 → t.mem = s.mem)) ∧
        (touched s c.bay c.line = false →
          (s.cap.farFill = 0 → s.cap.nearFill + (stashEntry c.bay c.line (foldTide s) c.old).length ≤ (nearStash s).2 →
            t.cap.nearFill = s.cap.nearFill + (stashEntry c.bay c.line (foldTide s) c.old).length ∧ t.cap.farFill = 0 ∧
            (c.tags = [] → s.cap.touchCache.length < 2048 →
              t.mem.bytes ((nearStash s).1 + s.cap.nearFill) (stashEntry c.bay c.line (foldTide s) c.old).length =
                stashEntry c.bay c.line (foldTide s) c.old ∧
              SameOutside s t ((nearStash s).1 + s.cap.nearFill) (stashEntry c.bay c.line (foldTide s) c.old).length)) ∧
          ((s.cap.farFill ≠ 0 ∨ (nearStash s).2 < s.cap.nearFill + (stashEntry c.bay c.line (foldTide s) c.old).length) →
            t.cap.farFill = s.cap.farFill + (stashEntry c.bay c.line (foldTide s) c.old).length ∧
            t.cap.nearFill = s.cap.nearFill ∧
            (c.tags = [] → s.cap.touchCache.length < 2048 →
              t.mem.bytes (farEntries s + s.cap.farFill) (stashEntry c.bay c.line (foldTide s) c.old).length =
                stashEntry c.bay c.line (foldTide s) c.old ∧
              SameOutside s t (farEntries s + s.cap.farFill) (stashEntry c.bay c.line (foldTide s) c.old).length))))

/-- The records that one delta puts into a send queue (R92): none without a headland there, one coded record to the only
headland, one uncoded record to the nearest of several. -/
def Sys2Proof.codedItems (s : State) (r : DeltaRec) (d : Dir) : List SendItem :=
  match headlandsToward (covLayout s) (ownPos s) r.bay r.line d with
  | [] => []
  | [h] => [⟨h.1, true, false, ownPos s, r.bay, r.line, thin (scaleLine h.2 r.delta), foldTide s⟩]
  | h :: _ => [⟨h.1, false, false, ownPos s, r.bay, r.line, thin r.delta, foldTide s⟩]

/-- The GF array codes its delta toward each side of the ring whose send queue has 280 B free (R92, R108); a queue
without room leaves the delta waiting for that side alone. With no delta in the array, the pass against zero brings in
its next declared line, and ends where none is left (R114); with no pass either, nothing happens. -/
def Obligations.DeltaIsCodedTowardItsHeadlands : Prop :=
  ∀ s : State, s.recov.shadow = none →
    (∀ (r : DeltaRec) (rest : List DeltaRec), s.cap.records = r :: rest →
      (queueBytes s.fold.sendPlus + 280 ≤ 65536 → queueBytes s.fold.sendMinus + 280 ≤ 65536 →
        Ends .codeRecord s fun t =>
          t = { s with
            cap := { s.cap with records := rest }
            fold := { s.fold with
              sendPlus := s.fold.sendPlus ++ (if r.plus = true then codedItems s r .plus else [])
              sendMinus := s.fold.sendMinus ++ (if r.minus = true then codedItems s r .minus else [])
              directSent := t.fold.directSent
              fwdSent := t.fold.fwdSent } }) ∧
      (65536 < queueBytes s.fold.sendPlus + 280 → r.plus = true →
        headlandsToward (covLayout s) (ownPos s) r.bay r.line .plus ≠ [] → queueBytes s.fold.sendMinus + 280 ≤ 65536 →
        Ends .codeRecord s fun t =>
          t = { s with
            cap := { s.cap with records := { r with plus := true, minus := false } :: rest }
            fold := { s.fold with
              sendMinus := s.fold.sendMinus ++ (if r.minus = true then codedItems s r .minus else [])
              directSent := t.fold.directSent
              fwdSent := t.fold.fwdSent } }) ∧
      (65536 < queueBytes s.fold.sendMinus + 280 → r.minus = true →
        headlandsToward (covLayout s) (ownPos s) r.bay r.line .minus ≠ [] → queueBytes s.fold.sendPlus + 280 ≤ 65536 →
        Ends .codeRecord s fun t =>
          t = { s with
            cap := { s.cap with records := { r with plus := false, minus := true } :: rest }
            fold := { s.fold with
              sendPlus := s.fold.sendPlus ++ (if r.plus = true then codedItems s r .plus else [])
              directSent := t.fold.directSent
              fwdSent := t.fold.fwdSent } }) ∧
      (65536 < queueBytes s.fold.sendPlus + 280 → 65536 < queueBytes s.fold.sendMinus + 280 → r.plus = true →
        r.minus = true → headlandsToward (covLayout s) (ownPos s) r.bay r.line .plus ≠ [] →
        headlandsToward (covLayout s) (ownPos s) r.bay r.line .minus ≠ [] → Ends .codeRecord s fun t => t = s)) ∧
    (s.cap.records = [] → s.cap.pass = none → Ends .codeRecord s fun t => t = s) ∧
    (∀ i : Nat, s.cap.records = [] → s.cap.pass = some i →
      ((∀ e ∈ declaredLines s, e.1 < i) → Ends .codeRecord s fun t => t = { s with cap := { s.cap with pass := none } }) ∧
      (∀ e ∈ declaredLines s, i ≤ e.1 → (∀ f ∈ declaredLines s, i ≤ f.1 → f = e ∨ e.1 < f.1) →
        queueBytes s.fold.sendPlus + 280 ≤ 65536 → queueBytes s.fold.sendMinus + 280 ≤ 65536 →
        Ends .codeRecord s fun t =>
          t = { s with
            cap := { s.cap with pass := some (e.1 + 1) }
            fold := { s.fold with
              sendPlus := s.fold.sendPlus ++ codedItems s ⟨e.2.1, e.2.2, lineValue s e.2.1 e.2.2, true, true⟩ .plus
              sendMinus := s.fold.sendMinus ++ codedItems s ⟨e.2.1, e.2.2, lineValue s e.2.1 e.2.2, true, true⟩ .minus
              directSent := t.fold.directSent
              fwdSent := t.fold.fwdSent } }))

/-- Stopping capture and the filter's acknowledgement (R110, R111, R277, R345): clearing CAP_EN begins a stop; once
everything captured has been sent, capture is DISABLED and a waiting DRAIN_START is answered OK; setting CAP_EN in
DISABLED returns capture to service; an acknowledged filter update is no longer pending. -/
def Obligations.CaptureStopsOnceDrained : Prop :=
  ∀ s : State,
    (∀ (port : Port) (priv : Bool), Reaches s port priv 0x0100 →
      (s.ctrl.capEn.get = 1 → s.stat.capState = 0 → Ends (.capEn port priv false) s fun t =>
        t = { s with ctrl := { s.ctrl with capEn := V3.all 0 }, stat := { s.stat with capState := 1, capAgain := false } }) ∧
      (s.stat.capState = 1 → Ends (.capEn port priv true) s fun t =>
        t = { s with ctrl := { s.ctrl with capEn := V3.all 1 }, stat := { s.stat with capAgain := true } }) ∧
      (s.stat.capState = 2 → s.cap.held = [] → Ends (.capEn port priv true) s fun t =>
        t = { s with ctrl := { s.ctrl with capEn := V3.all 1 }, stat := { s.stat with capState := 0, capAgain := false } })) ∧
    (s.stat.capState = 1 → s.cap.queue = [] → s.cap.oldReads = [] → s.cap.records = [] → s.cap.pass = none →
      s.fold.sendPlus = [] → s.fold.sendMinus = [] → s.stat.suspendMb = none → s.stat.capAgain = false →
      s.stat.fwState.get = 2 →
      Ends .captureDrainDone s fun t =>
        t.stat.capState = 2 ∧ t.stat.drainMb = none ∧ t.cap = s.cap ∧ t.mem = s.mem ∧ t.fold = s.fold ∧
        ∀ mb, s.stat.drainMb = some mb →
          (box t mb).busy = false ∧ (box t mb).done = true ∧ (box t mb).code = 0 ∧
            (box t mb).count = (box s mb).count + 1) ∧
    (s.stat.capState = 1 → s.cap.queue ≠ [] ∨ s.fold.sendPlus ≠ [] ∨ s.fold.sendMinus ≠ [] →
      Ends .captureDrainDone s fun t => t = s) ∧
    Ends .filterSetAck s fun t => t = { s with cap := { s.cap with filterPending := s.cap.filterPending - 1 } }

/-! ### The fold channel (R95 to R112, R403) -/

/-- The send queue and bucket of a direction. -/
def Sys2Proof.queueOf (s : State) : Dir → List SendItem
  | .plus => s.fold.sendPlus
  | .minus => s.fold.sendMinus

def Sys2Proof.bucketOf (s : State) : Dir → Nat
  | .plus => s.fold.tokPlus
  | .minus => s.fold.tokMinus

/-- Items that may share a packet: one destination, origin, bay and flags (R96). -/
abbrev Sys2Proof.alike (i j : SendItem) : Prop :=
  i.dest = j.dest ∧ i.ca = j.ca ∧ i.fwd = j.fwd ∧ i.origin = j.origin ∧ i.bay = j.bay ∧ i.tide = j.tide

/-- Bytes of payload that items take (R95). -/
def Sys2Proof.payloadOf (is : List SendItem) : Nat := (is.map fun i => 2 + i.thin.length).sum

/-- A packet leaves a send queue (R95, R96, R97, R106): it takes alike records from the front, as many as fit 256 B, and
no fewer; the bucket pays its padded length; it carries the stream's next sequence number, and is counted. While the
bucket holds less than a header, or the port is fenced, nothing moves. -/
def Obligations.FoldStoreTakesTheLongestAlikePrefix : Prop :=
  ∀ (s : State) (d : Dir) (i : SendItem) (tl : List SendItem), queueOf s d = i :: tl → s.recov.shadow = none →
    (2 + i.thin.length ≤ 256 → 280 ≤ bucketOf s d → s.agree.state ≠ 4 → s.agree.state ≠ 5 → s.agree.withdrawn = false →
      s.ports.fenced.getLsbD (match d with | .plus => 6 | .minus => 7) = false → s.ports.lkp = true →
      Ends (.foldStoreSend d) s fun t => ∃ (train rest : List SendItem) (p : FoldStore),
        i :: tl = train ++ rest ∧ train ≠ [] ∧ (∀ j ∈ train, alike i j) ∧ payloadOf train ≤ 256 ∧
        (∀ j more, rest = j :: more → ¬ alike i j ∨ 256 < payloadOf (train ++ [j])) ∧
        p.ca = i.ca ∧ p.fwd = i.fwd ∧ p.cove = ownCoveId s ∧ p.origin.toNat = i.origin % 256 ∧
        p.sender.toNat = s.agree.position.toNat ∧ p.dest.toNat = i.dest % 256 ∧ p.view = viewNow s ∧ p.tide = i.tide ∧
        p.bay.toNat = i.bay % 65536 ∧ p.seq = seqKey s.fold.seqs i.origin i.dest ∧
        p.recs = train.map (fun j => ⟨BitVec.ofNat 16 j.line, j.thin⟩) ∧
        t.out.lkp = s.out.lkp ++ [.store (rankAt s (ownCoveId s) i.dest) .vf (.w d) (.foldStore p)] ∧
        queueOf t d = rest ∧ bucketOf t d = bucketOf s d - (24 + payloadOf train + 7) / 8 * 8 ∧
        seqKey t.fold.seqs i.origin i.dest = p.seq + 1 ∧ t.cnt = s.cnt.set 4 (s.cnt.get 4 + 1) ∧
        t = { s with
          fold := { s.fold with
            sendPlus := t.fold.sendPlus, sendMinus := t.fold.sendMinus, tokPlus := t.fold.tokPlus,
            tokMinus := t.fold.tokMinus, seqs := t.fold.seqs }
          out := { s.out with lkp := t.out.lkp }
          cnt := t.cnt }) ∧
    (bucketOf s d < 24 ∨ s.ports.fenced.getLsbD (match d with | .plus => 6 | .minus => 7) = true →
      Ends (.foldStoreSend d) s fun t => t = s)

/-- What R98 asks of a packet at an open fold port: the member's cove, view and flood, from a live origin. -/
abbrev Sys2Proof.Deliverable (s : State) (p : FoldStore) : Prop :=
  s.agree.state ≠ 4 ∧ s.agree.state ≠ 5 ∧ s.agree.withdrawn = false ∧ s.agree.cove = some p.cove ∧ p.view = viewNow s ∧
    p.tide = foldTide s ∧ (liveSet s).getLsbD p.origin.toNat = true

/-- A fold-store at the fold port (R97, R98, R99, R403): the packet a stream expects is taken record by record into the
fold buffer and the stream moves on; a packet of another view, cove or flood, or of a broken stream, is dropped and
counted; a packet out of sequence breaks its stream. A record that another headland of its side must have goes on into
the send queue (R93), and waits with the router while that queue lacks room. While the port is shut, above high-water or
disabled, the packet stays with the router. -/
def Obligations.FoldStoreIsTakenDroppedOrBreaksItsStream : Prop :=
  ∀ (s : State) (p : FoldStore), s.ports.lkp = true → s.power.season.get ≠ 2 → s.recov.shadow = none →
    (s.fold.high = true ∨ s.stat.foldState ≠ 0 → Ends (.foldStore p) s fun t => t = s) ∧
    (s.fold.high = false → s.stat.foldState = 0 → s.agree.cove.isSome = true →
      (p.ca = true ∨ ∀ r ∈ p.recs, onward s p.origin.toNat p.bay.toNat r.line.toNat = none) →
      (¬ Deliverable s p → Ends (.foldStore p) s fun t => t = { s with cnt := s.cnt.set 6 (s.cnt.get 6 + 1) }) ∧
      (Deliverable s p → (streamOf s p).broken = true →
        Ends (.foldStore p) s fun t => t = { s with cnt := s.cnt.set 6 (s.cnt.get 6 + 1) }) ∧
      (Deliverable s p → (streamOf s p).broken = false → p.seq ≠ (streamOf s p).next →
        Ends (.foldStore p) s fun t =>
          (streamOf t p).broken = true ∧ t.cnt = s.cnt.set 7 (s.cnt.get 7 + 1) ∧ t.fold.buffer = s.fold.buffer ∧
            t.mem = s.mem ∧ t.tide = s.tide) ∧
      (Deliverable s p → (streamOf s p).broken = false → p.seq = (streamOf s p).next → badRecord s p = false →
        (s.fold.buffer.map fun r => 2 + r.thin.length).sum + (p.recs.map fun r => 2 + r.thin.length).sum < 3 * 1048576 →
        Ends (.foldStore p) s fun t =>
          t = { s with fold := { s.fold with buffer := t.fold.buffer, streams := t.fold.streams } } ∧
            t.fold.buffer = s.fold.buffer ++ p.recs.map (fun r =>
              ⟨p.origin.toNat, p.fwd, p.bay.toNat, r.line.toNat, p.ca, r.thin⟩) ∧
            (streamOf t p).next = p.seq + 1 ∧ (streamOf t p).broken = false)) ∧
    (∀ (r : FsRec) (d : Nat), s.fold.high = false → s.stat.foldState = 0 → s.agree.cove.isSome = true → p.ca = false →
      p.recs = [r] → onward s p.origin.toNat p.bay.toNat r.line.toNat = some d →
      (65536 < payloadOf (queueOf s (travel s p.origin.toNat)) + 280 → Ends (.foldStore p) s fun t => t = s) ∧
      (payloadOf (queueOf s (travel s p.origin.toNat)) + 280 ≤ 65536 → Deliverable s p → (streamOf s p).broken = false →
        p.seq = (streamOf s p).next → badRecord s p = false →
        (s.fold.buffer.map fun r => 2 + r.thin.length).sum + (2 + r.thin.length) < 3 * 1048576 →
        Ends (.foldStore p) s fun t =>
          t.fold.buffer = s.fold.buffer ++
            [⟨p.origin.toNat, p.fwd, p.bay.toNat, r.line.toNat, false, r.thin⟩] ∧
          queueOf t (travel s p.origin.toNat) = queueOf s (travel s p.origin.toNat) ++
            [⟨d, false, true, p.origin.toNat, p.bay.toNat, r.line.toNat, r.thin, p.tide⟩] ∧
          t.mem = s.mem ∧ t.cnt = s.cnt ∧ t.out = s.out))

/-- One read and one write of a parity line folds every record of the buffer for that line (R99, R100, R104, R108): the
line becomes its old value plus each record's delta, the records leave the buffer and are counted, and no other byte of
memory changes. With a copy cursor that has passed no record's line, nothing happens. -/
def Obligations.FoldAddsEveryRecordOfTheLine : Prop :=
  ∀ (s : State), s.recov.shadow = none → s.recov.handover = none →
    (∀ (r0 : FbRec) (rest : List FbRec), s.fold.buffer = r0 :: rest → s.fold.copyCursor = none → s.fold.high = false →
      Ends .foldRecord s fun t =>
        t = { s with
          mem := t.mem
          fold := { s.fold with buffer := t.fold.buffer, folded := t.fold.folded }
          cnt := t.cnt } ∧
        t.mem.line (slotBase s (foldSlot s) + recOffset s r0) =
          (s.fold.buffer.filter fun r => recOffset s r = recOffset s r0).foldl (fun l r => l ^^^ recDelta s r)
            (s.mem.line (slotBase s (foldSlot s) + recOffset s r0)) ∧
        (∀ x, outsideLine (slotBase s (foldSlot s) + recOffset s r0) x → t.mem.byte x = s.mem.byte x) ∧
        t.fold.buffer = s.fold.buffer.filter (fun r => recOffset s r ≠ recOffset s r0) ∧
        t.cnt.get 5 = s.cnt.get 5 +
          BitVec.ofNat 32 (s.fold.buffer.filter fun r => recOffset s r = recOffset s r0).length) ∧
    (∀ c, s.fold.copyCursor = some c → (∀ r ∈ s.fold.buffer, c < recOffset s r + 64) →
      Ends .foldRecord s fun t => t = s)

/-- The copy of the sealed parity slot into the working slot (R100, R129), and the end of the receive side (R112): the
cursor moves up by the lines copied, the bytes it passes equal the sealed slot's, and no other byte changes; at the
slot's end no copy is due. The receive side is DISABLED once its buffer is empty. -/
def Obligations.SlotCopyAndFoldDisable : Prop :=
  ∀ (s : State) (lines : Nat),
    (∀ c, s.fold.copyCursor = some c → s.tide.phase.get ≠ 0 → s.tide.phase.get ≠ 4 → c ≤ slotSize s →
      Ends (.paritySlotCopy lines) s fun t =>
        t = { s with mem := t.mem, fold := { s.fold with copyCursor := t.fold.copyCursor } } ∧
        (∀ i, i < min (lines * 64) (slotSize s - c) →
          t.mem.byte (slotBase s (workingSlot s) + c + i) = s.mem.byte (slotBase s (sealedSlot s) + c + i)) ∧
        (∀ x, x < slotBase s (workingSlot s) + c ∨
            slotBase s (workingSlot s) + c + min (lines * 64) (slotSize s - c) ≤ x →
          t.mem.byte x = s.mem.byte x) ∧
        (c + lines * 64 < slotSize s → t.fold.copyCursor = some (c + lines * 64)) ∧
        (slotSize s ≤ c + lines * 64 → t.fold.copyCursor = none)) ∧
    (s.fold.copyCursor = none → Ends (.paritySlotCopy lines) s fun t => t = s) ∧
    (s.stat.foldState = 1 → s.fold.buffer = [] → s.stat.foldAgain = false → Ends .foldDisableDone s fun t =>
      t = { s with stat := { s.stat with foldState := 2 } }) ∧
    (s.stat.foldState = 1 → s.fold.buffer = [] → s.stat.foldAgain = true → Ends .foldDisableDone s fun t =>
      t = { s with stat := { s.stat with foldState := 0, foldAgain := false } }) ∧
    (s.fold.buffer ≠ [] → Ends .foldDisableDone s fun t => t = s)

/-- Close markers (R102, R103, R114, R124): a member that closes a flood, forms its cove or resumes coding, and has
nothing left for a destination, sends its record as fragments and then one marker, on one channel, whose counts are
those of the flood; while something is left, or the marker has been sent, nothing happens. A marker of the member's
cove, view and flood is kept, replacing an earlier one of its origin, and any other is dropped and counted. -/
def Obligations.CloseMarkersFollowTheRecord : Prop :=
  ∀ (s : State), s.ports.lkp = true → s.power.season.get ≠ 2 → s.recov.shadow = none →
    (∀ d : Byte, s.tide.phase.get = 2 ∨ forming s = true ∨ s.tide.resuming.isSome = true → s.cap.queue = [] →
      s.cap.oldReads = [] → s.cap.records = [] → s.cap.pass = none → s.cap.recompute = [] →
      (∀ i ∈ s.fold.sendPlus ++ s.fold.sendMinus, i.fwd = true ∨ i.dest ≠ d.toNat) →
      d.toNat < 16 → (liveSet s).getLsbD d.toNat = true → d.toNat ≠ s.agree.position.toNat →
      d.toNat ∉ s.tide.closeSent →
      Ends (.closeMarkerSend d) s fun t => ∃ (bodies : List (List Byte)) (args : List U32) (m : Marker),
        t.out.lkp = s.out.lkp ++ (List.zip args bodies).map (fun e =>
            .store (rankAt s (ownCoveId s) d.toNat) .va .any (.sealMsg 0x12
              ⟨false, ownCoveId s, BitVec.ofNat 8 (ownPos s), BitVec.ofNat 8 (ownPos s), d, viewNow s, foldTide s,
                ownCoveId s, e.1, e.2⟩)) ++
          [.store (rankAt s (ownCoveId s) d.toNat) .va .any (.marker m)] ∧
        bodies.flatten = t.tide.ownRecord ∧ args.length = bodies.length ∧
        (s.tide.ownRecord ≠ [] → t.tide.ownRecord = s.tide.ownRecord) ∧
        m.cove = ownCoveId s ∧ m.origin.toNat = ownPos s ∧ m.dest = d ∧ m.view = viewNow s ∧ m.tide = foldTide s ∧
        m.directPackets = seqKey s.fold.seqs (ownPos s) d.toNat ∧
        m.directRecords = BitVec.ofNat 64 (look 0 d.toNat s.fold.directSent) ∧
        m.forwardedRecords = BitVec.ofNat 64 (look 0 d.toNat s.fold.fwdSent) ∧
        t.tide.closeSent = s.tide.closeSent ++ [d.toNat] ∧ t.mem = s.mem ∧ t.fold = s.fold ∧ t.cap = s.cap) ∧
    (∀ d : Byte, (s.tide.phase.get ≠ 2 ∧ forming s = false ∧ s.tide.resuming = none) ∨ s.cap.queue ≠ [] ∨
        s.cap.oldReads ≠ [] ∨ s.cap.records ≠ [] ∨ s.cap.recompute ≠ [] ∨ d.toNat ∈ s.tide.closeSent ∨
        (∃ i ∈ s.fold.sendPlus ++ s.fold.sendMinus, i.fwd = false ∧ i.dest = d.toNat) →
      Ends (.closeMarkerSend d) s fun t => t = s) ∧
    (∀ m : Marker, s.agree.cove = some m.cove → m.view = viewNow s → m.tide = foldTide s →
      (liveSet s).getLsbD m.origin.toNat = true → m.dest.toNat = s.agree.position.toNat → s.tide.phase.get ≠ 0 →
      Ends (.closeMarker m) s fun t =>
        t = { s with tide := { s.tide with markers := s.tide.markers.filter (fun k => k.origin ≠ m.origin) ++ [m] } }) ∧
    (∀ m : Marker, s.agree.cove.isSome = true → m.view ≠ viewNow s → Ends (.closeMarker m) s fun t =>
      t = { s with cnt := s.cnt.set 16 (s.cnt.get 16 + 1) })

/-! ### The seal (R114 to R144, R244, R267) -/

/-- A seal message of the member's own cove under its own view, at an open agreement port (R124, R274). -/
abbrev Sys2Proof.FromOwnCove (s : State) (m : SealMsg) : Prop :=
  s.ports.lkp = true ∧ s.power.season.get ≠ 2 ∧ s.recov.shadow = none ∧ s.recov.target = false ∧ m.tree = false ∧
    s.agree.cove = some m.cove ∧ m.view = viewNow s

/-- TIDE_SEAL (R116, R117): below the interval it is counted, answered OK at once, and starts nothing; the one that
brings the count to N is ACCEPTED and PHASE becomes CLOSING; while a seal runs it gets BUSY and is not counted; with no
flood open it gets WRONG_STATE and is not counted; a block that is not wholly inside the near range is BAD_ARG at 8. -/
def Obligations.TideSealCountsAndStartsTheSeal : Prop :=
  ∀ (s : State) (mb : Fin 8) (priv : Bool) (cmd : Line), Handled s mb priv 0x09 cmd →
    (s.tide.phase.get = 1 ∨ s.tide.phase.get = 6 → sealBlockOk s (fld cmd 8 8) = true →
      s.tide.steps.toNat + 1 < s.tide.n.get.toNat →
      Ends (.tideSeal (.issue mb (portOf mb) priv cmd)) s fun t =>
        Answered s t mb cmd 0 0 ∧ fld (box t mb).rsp 8 1 = 0 ∧ fld (box t mb).rsp 10 6 = (sealedTide s).toNat ∧
        fld (box t mb).rsp 16 2 = s.tide.steps.toNat + 1 ∧
        t = { s with
          mb := t.mb, events := t.events, stat := { s.stat with evtOvf := t.stat.evtOvf }
          tide := { s.tide with steps := s.tide.steps + 1, counted := s.tide.counted + 1 } }) ∧
    (s.tide.phase.get = 1 → sealBlockOk s (fld cmd 8 8) = true → s.tide.n.get.toNat ≤ s.tide.steps.toNat + 1 →
      tableFault (s.mem.bytes (fld cmd 8 8) 128) = none →
      Ends (.tideSeal (.issue mb (portOf mb) priv cmd)) s fun t =>
        RunsLong s t mb cmd ∧ t.tide.phase.get = 2 ∧ t.tide.steps = s.tide.n.get ∧ t.tide.counted = s.tide.counted + 1 ∧
        t.tide.mailbox = some mb ∧ t.tide.gtcClose = s.time.gtc ∧ t.mem = s.mem ∧ t.fold = s.fold ∧ t.cap = s.cap) ∧
    (s.tide.phase.get = 2 ∨ s.tide.phase.get = 3 ∨ s.tide.phase.get = 4 →
      Ends (.tideSeal (.issue mb (portOf mb) priv cmd)) s fun t =>
        Answered s t mb cmd 0x13 (match s.tide.mailbox with | some o => o.val | none => 0xFF) ∧ OnlyAnswer s t mb) ∧
    (s.tide.phase.get = 0 ∨ s.tide.phase.get = 5 →
      Ends (.tideSeal (.issue mb (portOf mb) priv cmd)) s fun t =>
        Answered s t mb cmd 0x12 (s.job.state.toNat + 256 * s.tide.phase.get.toNat) ∧ OnlyAnswer s t mb) ∧
    (s.tide.phase.get = 1 ∨ s.tide.phase.get = 6 → sealBlockOk s (fld cmd 8 8) = false →
      Ends (.tideSeal (.issue mb (portOf mb) priv cmd)) s fun t =>
        Answered s t mb cmd 0x10 8 ∧ OnlyAnswer s t mb)

/-- A member becomes READY once it is complete for every other member, has sent its own record to all of them and holds
all records (R104, R125 step 5, R135): the records in position order, the tide number and the SHA-256 of the records go
into the working slot's tidemark area, and READY with that digest goes to every other live member. Before, nothing
happens. The statement is of a member that is no captain. -/
def Obligations.MemberBecomesReady : Prop :=
  ∀ (s : State), s.recov.shadow = none → isCaptain s = false →
    (s.tide.phase.get = 2 → readyDue s = true → allRecords s = true → s.ports.lkp = true →
      Ends .sealReady s fun t =>
        t.tide.phase.get = 3 ∧
        t.mem = s.mem.write (areaBase s (workingSlot s))
          (recordsBytes s ++ leBytes 6 (sealedTide s + 1).toNat ++ [0, 0] ++ sha256 (recordsBytes s) ++
            List.replicate 24 0) ∧
        find (ownPos s) t.tide.readies = some (sha256 (recordsBytes s)) ∧
        t.out.lkp = s.out.lkp ++ (otherLive s).map (fun q =>
          .store (rankAt s (ownCoveId s) q) .va .any (.sealMsg 0x13
            ⟨false, ownCoveId s, BitVec.ofNat 8 (ownPos s), BitVec.ofNat 8 (ownPos s), BitVec.ofNat 8 q, viewNow s,
              sealedTide s + 1, ownCoveId s, 0, sha256 (recordsBytes s)⟩)) ∧
        t.cap = s.cap ∧ t.fold = s.fold ∧ t.digests = s.digests) ∧
    (s.tide.phase.get ≠ 2 ∨ readyDue s = false ∨ allRecords s = false → Ends .sealReady s fun t => t = s)

/-- Fragments of another member's record join in order, a first fragment starts the record again, and a fragment out of
order is left out (R124, R130); READY of the seal's tide is kept for its origin; a READY of another tide changes
nothing. The statement about READY is of a member that is no captain. -/
def Obligations.RecordsAndReadyAreGathered : Prop :=
  ∀ (s : State) (m : SealMsg), FromOwnCove s m →
    (m.tide = foldTide s →
      (m.arg = 0 → (look [] m.origin.toNat s.tide.parts).take m.body.length ≠ m.body →
        Ends (.markPart m) s fun t => t = { s with tide := { s.tide with parts := t.tide.parts } } ∧
          look [] m.origin.toNat t.tide.parts = m.body ∧
          ∀ o, o ≠ m.origin.toNat → look [] o t.tide.parts = look [] o s.tide.parts) ∧
      (m.arg ≠ 0 → m.arg.toNat = (look [] m.origin.toNat s.tide.parts).length →
        Ends (.markPart m) s fun t => t = { s with tide := { s.tide with parts := t.tide.parts } } ∧
          look [] m.origin.toNat t.tide.parts = look [] m.origin.toNat s.tide.parts ++ m.body ∧
          ∀ o, o ≠ m.origin.toNat → look [] o t.tide.parts = look [] o s.tide.parts) ∧
      (m.arg ≠ 0 → m.arg.toNat ≠ (look [] m.origin.toNat s.tide.parts).length →
        Ends (.markPart m) s fun t => t = s)) ∧
    (m.tide = sealedTide s + 1 → s.tide.phase.get ≠ 5 → isCaptain s = false →
      Ends (.ready m) s fun t => t = { s with tide := { s.tide with readies := t.tide.readies } } ∧
        find m.origin.toNat t.tide.readies = some m.body ∧
        ∀ o, o ≠ m.origin.toNat → find o t.tide.readies = find o s.tide.readies) ∧
    (m.tide ≠ sealedTide s + 1 → Ends (.ready m) s fun t => t = s)

/-- COMMIT flips a READY member (R125 step 8, R129): the other slot becomes the sealed one, the sealed tide is the
message's, PHASE is COMMITTED, the flood's accounts and buffers start afresh behind the copy cursor, and FLIPPED goes to
every other live member. Memory, the digests and the stash stay. The statement is of a member that is no captain, with
no handover. -/
def Obligations.CommitFlipsTheSlots : Prop :=
  ∀ (s : State) (m : SealMsg), FromOwnCove s m → isCaptain s = false → s.recov.handover = none →
    s.tide.phase.get = 3 → m.tide = sealedTide s + 1 → decisionCode s m.tide = 0 →
    Ends (.commit m) s fun t =>
      t.tide.slot.get = ~~~ s.tide.slot.get ∧ sealedTide t = m.tide ∧ t.tide.phase.get = 4 ∧
      t.tide.decision = some (m.tide, .commit (BitVec.ofNat 16 (fldAt m.body 0 2)) (BitVec.ofNat 32 (fldAt m.body 4 4))) ∧
      ownPos s ∈ t.tide.flips ∧ t.fold.seqs = [] ∧ t.fold.streams = [] ∧ t.fold.buffer = [] ∧ t.fold.sendPlus = [] ∧
      t.fold.sendMinus = [] ∧ t.fold.copyCursor = some 0 ∧ t.tide.markers = [] ∧
      t.mem = s.mem ∧ t.digests = s.digests ∧ t.cap = s.cap ∧
      t.out.lkp = s.out.lkp ++ (otherLive s).map (fun q =>
        .store (rankAt s (ownCoveId s) q) .va .any (.sealMsg 0x16
          ⟨false, ownCoveId s, BitVec.ofNat 8 (ownPos s), BitVec.ofNat 8 (ownPos s), BitVec.ofNat 8 q, viewNow s, m.tide,
            ownCoveId s, 0, []⟩))

/-- RELEASE on a member that has flipped (R116, R121, R125 step 11, R142): PHASE FLOOD opens with the interval that
COMMIT carried and a count of zero, the stash is discarded, and the TIDE_SEAL that started the seal completes OK with
sealed = 1. No byte of memory changes. The statement is of a member that is no captain, holds no write, and takes part
in no recovery and no twin comparison. -/
def Obligations.ReleaseOpensTheNextFlood : Prop :=
  ∀ (s : State) (m : SealMsg) (n : U16) (l : U32) (mb : Fin 8), FromOwnCove s m → isCaptain s = false →
    isRootCove s = false → s.tide.phase.get = 4 → m.tide = sealedTide s → m.tide.toNat ≠ 2 ^ 48 - 2 →
    s.tide.decision = some (m.tide, .commit n l) → n.toNat < 8192 → s.tide.released = false → s.cap.held = [] →
    s.recov.waiting = [] → s.recov.state.get = 0 → s.twin.state = 0 → s.tide.mailbox = some mb →
    s.stat.fwState.get = 2 →
    Ends (.release m) s fun t =>
      t.tide.phase.get = 1 ∧ t.tide.n.get.toNat = n.toNat ∧ t.tide.steps = 0 ∧ t.tide.mailbox = none ∧
      t.tide.released = true ∧ t.cap.nearFill = 0 ∧ t.cap.farFill = 0 ∧ t.cap.touchValid = [] ∧ t.cap.touchCache = [] ∧ t.mem = s.mem ∧
      t.digests = s.digests ∧ t.tide.slot = s.tide.slot ∧ sealedTide t = sealedTide s ∧
      (box t mb).busy = false ∧ (box t mb).done = true ∧ (box t mb).code = 0 ∧
      (box t mb).count = (box s mb).count + 1 ∧ fld (box t mb).rsp 8 1 = 1 ∧
      fld (box t mb).rsp 10 6 = (sealedTide s).toNat

/-- ABANDON (R130, R133, R245): with reason 1 the member goes back to PHASE FLOOD in the same flood, with its count at N
and its stash kept, and TIDE_SEAL completes with FAULT; with reason 0 it goes to PHASE HELD, TIDE_SEAL completes with
LOST_MEMBER, and running apply and exchange commands are told to stop. Memory is untouched by both. The statement is of
a READY member that is no captain and holds no write. -/
def Obligations.AbandonResumesOrHoldsTheFlood : Prop :=
  ∀ (s : State) (m : SealMsg) (mb : Fin 8), FromOwnCove s m → isCaptain s = false → isRootCove s = false →
    s.tide.phase.get = 3 → m.tide = sealedTide s + 1 → decisionCode s m.tide = 0 → s.cap.held = [] →
    s.tide.mailbox = some mb → s.stat.fwState.get = 2 →
    (m.arg = 1 → Ends (.abandon m) s fun t =>
      t.tide.phase.get = 1 ∧ t.tide.steps = s.tide.steps ∧ t.tide.n = s.tide.n ∧ t.tide.counted = s.tide.counted ∧
      t.tide.mailbox = none ∧ t.tide.readies = [] ∧ t.cap = s.cap ∧ t.mem = s.mem ∧ t.fold = s.fold ∧
      (box t mb).busy = false ∧ (box t mb).done = true ∧ (box t mb).code = 0x20 ∧ fld (box t mb).rsp 8 1 = 0) ∧
    (m.arg = 0 → s.recov.state.get ≠ 6 → s.power.season.get = 0 → s.power.moving = false → s.tide.noTide = false →
      beyondTolerance s (liveSet s) = false → Ends (.abandon m) s fun t =>
      t.tide.phase.get = 5 ∧ t.tide.slot = s.tide.slot ∧ sealedTide t = sealedTide s ∧ t.recov.tide = sealedTide s ∧
      t.tide.mailbox = none ∧ t.cap = s.cap ∧ t.mem = s.mem ∧ t.fold = s.fold ∧
      t.apply.run = s.apply.run.map (fun r => { r with stop := releaseStop r.stop .lost }) ∧
      t.exch.reduces = s.exch.reduces.map (fun r => { r with stop := releaseStop r.stop .lost }) ∧
      t.exch.compress = s.exch.compress.map (fun r => { r with stop := releaseStop r.stop .lost }) ∧
      (box t mb).busy = false ∧ (box t mb).done = true ∧ (box t mb).code = 0x21 ∧ fld (box t mb).rsp 8 1 = 0)

/-- The tree's upward messages at a captain below the root (R125 steps 6 and 9, R127, R131): a child cove's READY
completes the subtree and REPORT READY goes to every member of the parent cove; FLIPPED of the last child cove sends
FLIPPED up; a QUERY is answered with REPORT OPEN where nothing is settled; and a REPORT is sent again 200 µs after it
was last sent, and not before. -/
def Obligations.CaptainReportsUpTheTree : Prop :=
  ∀ (s : State) (m : SealMsg) (p : Plan) (own parent child : CovePlan),
    s.ports.lkp = true → s.power.season.get ≠ 2 → s.recov.shadow = none → s.recov.hoKnown = none → s.recov.state.get = 0 →
    isCaptain s = true → isRootCove s = false → s.job.plan = some p → s.agree.cove = some own.coveId →
    planCove p own.coveId = some own → planCove p m.cove = some child → childCoves p own.coveId = [child] →
    parentCove p own.coveId = some parent → parent.members.length = 1 → m.tree = true → m.destCove = own.coveId →
    m.cove = child.coveId → coveDamaged s = false → (sealedTide s).toNat + 1 < 2 ^ 48 →
    (m.tide = sealedTide s + 1 → m.arg = 0 → decisionCode s m.tide = 0 → decisionCode s (sealedTide s) = 0 →
      allReady s = true → manifestsDiffer s = false → s.tide.upReport = none → s.tide.reports = [] →
      Ends (.report m) s fun t =>
        t.tide.upReport = some (0, m.tide, s.time.gtc + 200000) ∧ t.mem = s.mem ∧ t.cap = s.cap ∧ t.fold = s.fold ∧
        t.out.lkp = s.out.lkp ++ [.store (rankAt s parent.coveId 0) .va .any (.sealMsg 0x14
          ⟨true, own.coveId, BitVec.ofNat 8 (ownPos s), BitVec.ofNat 8 (ownPos s), 0, viewNow s, m.tide, parent.coveId, 0,
            leBytes 4 (s.tide.lossesHere + fldAt m.body 0 4) ++
              leBytes 4 (((livePositions s).map (memberCost s) ++ [fldAt m.body 4 4]).foldl max s.tide.costNs)⟩)]) ∧
    (m.tide = sealedTide s → decisionCode s m.tide = 1 → s.tide.released = false → s.tide.upFlipped = none →
      (∀ q ∈ livePositions s, q ∈ s.tide.flips) →
      Ends (.flipped m) s fun t =>
        t.tide.upFlipped = some (s.time.gtc + 200000) ∧ t.tide.upReport = none ∧ child.coveId ∈ t.tide.childFlips ∧
        t.out.lkp = s.out.lkp ++ [.store (rankAt s parent.coveId 0) .va .any (.sealMsg 0x16
          ⟨true, own.coveId, BitVec.ofNat 8 (ownPos s), BitVec.ofNat 8 (ownPos s), 0, viewNow s, m.tide, parent.coveId, 0,
            []⟩)]) ∧
    (m.tide = sealedTide s + 1 → decisionCode s m.tide = 0 → allReady s = false → manifestsDiffer s = false →
      (∀ r, childReport s m.tide child.coveId = some r → r.state ≠ 3) →
      Ends (.query m) s fun t => t.tide.upReport = some (2, m.tide, s.time.gtc + 200000) ∧ t.tide.phase = s.tide.phase ∧
        t.mem = s.mem ∧ t.cap = s.cap ∧ t.fold = s.fold) ∧
    (∀ st t0, s.tide.upReport = some (st, t0, s.time.gtc) → s.tide.upFlipped = none → Ends .sealResend s fun t =>
      t.tide.upReport = some (st, t0, s.time.gtc + 200000) ∧ t.out.lkp.length = s.out.lkp.length + 1) ∧
    (∀ st t0 due, s.tide.upReport = some (st, t0, due) → s.tide.upFlipped = none → s.time.gtc.toNat < due.toNat →
      Ends .sealResend s fun t => t = s)

/-- At the root (R128, R132, R143): with every member of a one-cove job ready, REPORT of none being due, the last READY
decides COMMIT, which goes to the other members; the members without an acknowledgement get it again every 200 µs, and
acknowledged ones do not. -/
def Obligations.RootDecidesAndRepeatsTheDecision : Prop :=
  ∀ (s : State) (m : SealMsg) (p : Plan), FromOwnCove s m → isCaptain s = true → s.job.plan = some p →
    p.coves.length = 1 → isRootCove s = true → s.recov.state.get = 0 → (sealedTide s).toNat + 1 < 2 ^ 48 → coveDamaged s = false → s.recov.handover = none →
    s.recov.hoKnown = none →
    (m.tide = sealedTide s + 1 → s.tide.phase.get = 3 → s.tide.decision = none → s.tide.nextPolicy.auto = false →
      (livePositions s).all (fun q => find q (put m.origin.toNat m.body s.tide.readies) = some m.body) = true →
      (∃ q, q ∈ otherLive s) → s.tide.flips = [] →
      Ends (.ready m) s fun t =>
        (∃ l, t.tide.decision = some (m.tide, .commit (BitVec.ofNat 16 s.tide.nextPolicy.nFixed) l)) ∧
        t.tide.phase.get = 4 ∧ sealedTide t = m.tide ∧ t.tide.released = false ∧ t.mem = s.mem) ∧
    (∀ t0 n l, s.tide.decision = some (t0, .commit n l) → s.tide.released = false →
      s.tide.rootSent.toNat + 200000 ≤ s.time.gtc.toNat → unacked s 0 ≠ [] →
      Ends .decisionResend s fun t =>
        t = { s with tide := { s.tide with rootSent := s.time.gtc }, out := { s.out with lkp := t.out.lkp } } ∧
        t.out.lkp = s.out.lkp ++ (unacked s 0).map (fun q =>
          .store (rankAt s (ownCoveId s) q) .va .any (.sealMsg 0x15
            ⟨false, ownCoveId s, BitVec.ofNat 8 (ownPos s), BitVec.ofNat 8 (ownPos s), BitVec.ofNat 8 q, viewNow s, t0,
              ownCoveId s, 0, leBytes 2 n.toNat ++ [0, 0] ++ leBytes 4 l.toNat⟩))) ∧
    (unacked s 0 = [] → unacked s 1 = [] → unacked s 2 = [] → Ends .decisionResend s fun t => t = s)

/-- SWITCH makes the shadows of a re-shard current (R267 step 6): the new plan, regions, windows and digests stand in
one step, the restored tide is sealed in slot 0 with PHASE HELD, REC_STAT is RESUMABLE and no position is lost. Without
a shadow the message is dropped and counted. The statement is of a member that is not the forming cove's captain. -/
def Obligations.SwitchMakesTheShadowsCurrent : Prop :=
  ∀ (s : State) (m : SealMsg), s.ports.lkp = true → s.power.season.get ≠ 2 →
    (s.recov.shadow = none → Ends (.switch m) s fun t => t = { s with cnt := s.cnt.set 16 (s.cnt.get 16 + 1) }) ∧
    (∀ sh : Shadow, s.recov.shadow = some sh → m.tree = false → sh.agree.cove = some m.cove →
      m.view = sh.agree.epoch.get.truncate 16 → sh.tide.released = false →
      isCaptain { s with job := { s.job with plan := some sh.plan }, agree := sh.agree } = false →
      Ends (.switch m) s fun t =>
        t.job.plan = some sh.plan ∧ t.job.state = 3 ∧ t.tier.regions = sh.regions ∧ t.tier.quotas = sh.quotas ∧
        t.digests = sh.digests ∧ t.agree.cove = some m.cove ∧ t.recov.shadow = none ∧ t.recov.state.get = 5 ∧
        t.recov.lost.get = 0 ∧ t.recov.target = false ∧ t.tide.slot.get = 0 ∧ t.tide.phase.get = 5 ∧ t.mem = s.mem ∧
        t.cap.nearFill = 0 ∧ t.cap.farFill = 0)

/-! ### Heartbeats, suspicion and views (R211 to R228, R247, R284, R285) -/

/-- A member of a formed cove in Summer, to which a message of its own job and its own cove comes (R217, R220). -/
abbrev Sys2Proof.OwnCoveMember (s : State) (m : AgreeMsg) : Prop :=
  s.ports.lkp = true ∧ s.job.part.isSome = true ∧ m.jobTag = jobTag s ∧ s.power.season.get = 0 ∧ s.power.moving = false ∧
    s.agree.cove = some m.cove ∧ (∃ p, s.job.plan = some p ∧ (planCove p m.cove).isSome = true) ∧
    s.agree.state ≠ 0 ∧ s.agree.state ≠ 4 ∧ s.agree.state ≠ 5 ∧ s.agree.withdrawn = false

/-- The message of the agreement header that the instance sends to a position of its own cove (R217). -/
def Sys2Proof.toPosition (s : State) (pos : Nat) (type : Byte) (epoch ballot arg : U32) (body : List Byte) : LkpOut :=
  .store (rankAt s (ownCoveId s) pos) .va .any (.agree type
    ⟨jobTag s, ownCoveId s, BitVec.ofNat 8 (ownPos s), BitVec.ofNat 8 pos, epoch, ballot, arg, s.time.gtc, body⟩)

/-- Heartbeats and probes (R211, R212, R214, R215, R284, R285): at a multiple of 8000 ns BEAT goes out on each port
whose far end lies in the partition and the status line is written anew; a valid BEAT refreshes its port alone; before
32 µs of silence nothing is suspected, and then a die of the job is probed: one in no cove, unless it said it winters,
or through ±W one of another cove; the watch probes again after 1 ms; the status line answers a probe; and a refuting
answer about a port whose far end is no member of the own cove logs the link and starts its watch. That a member or a
die in no cove that winters is remembered by its last BEAT is the model's reading of R242 (log entry 83). -/
def Obligations.HeartbeatsSuspicionAndProbes : Prop :=
  ∀ (s : State),
    (∀ p : Partition, s.job.part = some p → s.time.gtc.toNat % 8000 = 0 → s.power.on = true → s.ports.lkp = true →
      s.agree.withdrawn = false →
      Ends .heartbeatInstant s fun t =>
        t = { s with
          agree := { s.agree with statusLine := t.agree.statusLine }
          out := { s.out with lkp := t.out.lkp } } ∧
        t.out.lkp = s.out.lkp ++ (List.finRange 8).filterMap (fun q => (farRank p q).map fun r =>
          .store r .va (.direct q) (.beat ⟨s.agree.health, s.power.season.get.zeroExtend 8,
            if isMember s then s.agree.position.zeroExtend 8 else 0xFF, p.jobTag,
            if isMember s then ownCoveId s else 0, viewNow s, BitVec.ofNat 32 (s.time.gtc.toNat / 8000)⟩)) ∧
        t.agree.statusLine = ⟨s.power.season.get.zeroExtend 8, s.agree.health,
          if isMember s then s.agree.position.zeroExtend 8 else 0xFF, s.agree.state.zeroExtend 8, p.jobTag,
          if isMember s then ownCoveId s else 0, liveSet s, epochNow s, sealedTide s, s.tide.phase.get.zeroExtend 8,
          s.time.gtc⟩) ∧
    (s.job.part = none → s.time.gtc.toNat % 8000 = 0 → s.power.on = true → s.ports.lkp = true →
      Ends .heartbeatInstant s fun t => t = { s with agree := { s.agree with statusLine := t.agree.statusLine } } ∧
        t.agree.statusLine.gtc = s.time.gtc ∧ t.agree.statusLine.season = s.power.season.get.zeroExtend 8) ∧
    (s.time.gtc.toNat % 8000 ≠ 0 → Ends .heartbeatInstant s fun t => t = s) ∧
    (∀ (q : Fin 8) (b : Beat), s.ports.lkp = true → s.job.part.isSome = true → s.power.season.get ≠ 2 →
      s.ports.fenced.getLsbD q.val = false →
      (b.jobTag = jobTag s → b.season ≠ 2 →
        (portMember s q = none ∨ (b.epoch - viewNow s).toNat = 0 ∨ 32767 < (b.epoch - viewNow s).toNat) →
        Ends (.beat q b) s fun t =>
          t = { s with
            ports := { s.ports with linkFault := t.ports.linkFault }
            agree := { s.agree with
              lastBeat := s.agree.lastBeat.set q.val s.time.gtc q.isLt
              portSuspect := t.agree.portSuspect
              wintering := t.agree.wintering
              missed := s.agree.missed + ((s.time.gtc - s.agree.missMark.get q).toNat / 8000 - 1)
              missMark := s.agree.missMark.set q.val s.time.gtc q.isLt
              watchAt := s.agree.watchAt.filter fun w => w.1 ≠ q } } ∧
          ∀ r : Fin 8, t.agree.portSuspect.getLsbD r.val = (decide (r ≠ q) && s.agree.portSuspect.getLsbD r.val) ∧
            t.agree.wintering.getLsbD r.val = (decide (r ≠ q) && s.agree.wintering.getLsbD r.val) ∧
            t.ports.linkFault.getLsbD r.val = (decide (r ≠ q) && s.ports.linkFault.getLsbD r.val)) ∧
      (b.jobTag = jobTag s → b.season = 2 → Ends (.beat q b) s fun t =>
        t = { s with agree := { s.agree with wintering := t.agree.wintering } } ∧
        ∀ r : Fin 8, t.agree.wintering.getLsbD r.val = (decide (r = q) || s.agree.wintering.getLsbD r.val)) ∧
      (b.jobTag = jobTag s → b.season ≠ 2 → (portMember s q).isSome = true → 0 < (b.epoch - viewNow s).toNat →
        (b.epoch - viewNow s).toNat ≤ 32767 → Ends (.beat q b) s fun t => t = s) ∧
      (b.jobTag ≠ jobTag s → Ends (.beat q b) s fun t => t = { s with cnt := s.cnt.set 16 (s.cnt.get 16 + 1) })) ∧
    (∀ q : Fin 8, s.time.gtc.toNat < (s.agree.lastBeat.get q).toNat + 32000 →
      Ends (.suspicionTimeout q) s fun t => t = s) ∧
    (∀ (q : Fin 8) (r : Nat), (s.agree.lastBeat.get q).toNat + 32000 ≤ s.time.gtc.toNat →
      s.ports.fenced.getLsbD q.val = false → s.agree.portSuspect.getLsbD q.val = false → s.job.part.isSome = true →
      s.power.season.get ≠ 2 → (∀ w ∈ s.agree.watchAt, w.1 ≠ q) → s.ports.lkp = true → portRank s q = some r →
      (namedRank s r = false ∨ (s.agree.wintering.getLsbD q.val = true ∧ memberAt s r = none) →
        Ends (.suspicionTimeout q) s fun t => t = s) ∧
      (namedRank s r = true → (s.agree.wintering.getLsbD q.val = false ∧ memberAt s r = none) ∨
          (6 ≤ q.val ∧ ∃ c p, memberAt s r = some (c, p) ∧ inCove s c = false) → Ends (.suspicionTimeout q) s fun t =>
        t = { s with
          agree := { s.agree with
            portSuspect := t.agree.portSuspect
            probes := s.agree.probes ++ [(r, .port q)] }
          out := { s.out with lkp := s.out.lkp ++ [.probe r] }
          cnt := t.cnt } ∧
        t.agree.portSuspect.getLsbD q.val = true ∧ t.cnt.get 19 = s.cnt.get 19 + 1 ∧ t.cnt.get 20 = s.cnt.get 20 + 1 ∧
        ∀ i : Fin 23, i ≠ 19 → i ≠ 20 → t.cnt.get i = s.cnt.get i)) ∧
    (∀ (q : Fin 8) (r : Nat) (due : U64), find q s.agree.watchAt = some due → portRank s q = some r →
      s.ports.lkp = true →
      (s.time.gtc.toNat < due.toNat → Ends (.watchProbe q) s fun t => t = s) ∧
      (due.toNat ≤ s.time.gtc.toNat → Ends (.watchProbe q) s fun t =>
        t = { s with
          agree := { s.agree with watchAt := t.agree.watchAt, probes := s.agree.probes ++ [(r, .watch q)] }
          out := { s.out with lkp := s.out.lkp ++ [.probe r] }
          cnt := s.cnt.set 20 (s.cnt.get 20 + 1) } ∧
        find q t.agree.watchAt = some (s.time.gtc + 1000000))) ∧
    (s.ports.lkp = true →
      (Ends (.probeReceive 0) s fun t =>
        t = { s with out := { s.out with lkp := s.out.lkp ++ [.answer (some s.agree.statusLine)] } }) ∧
      (∀ off : U16, off ≠ 0 → Ends (.probeReceive off) s fun t =>
        t = { s with
          out := { s.out with lkp := s.out.lkp ++ [.answer none] }
          cnt := s.cnt.set 17 (s.cnt.get 17 + 1) })) ∧
    (∀ (q : Fin 8) (r : Nat) (rest : List (Nat × ProbeWhy)), s.agree.probes = (r, .port q) :: rest → portMember s q = none →
      (Ends (.probeResult r .poison) s fun t => t = { s with agree := { s.agree with probes := rest } }) ∧
      (∀ l : StatusLine, l.jobTag = jobTag s → l.season ≠ 2 → s.log.entries = [] →
        Ends (.probeResult r (.status l)) s fun t =>
          t = { s with
            ports := { s.ports with linkFault := t.ports.linkFault }
            agree := { s.agree with probes := rest, watchAt := t.agree.watchAt }
            log := { s.log with entries := t.log.entries } } ∧
          t.ports.linkFault.getLsbD q.val = true ∧ find q t.agree.watchAt = some (s.time.gtc + 1000000) ∧
          ∃ e : ErrEntry, t.log.entries = [e] ∧ e.cls = 7 ∧ e.count = 1 ∧ e.uncorr = false))

/-- A member's answers of R220: PREPARE above every ballot promised is promised, and PROMISE carries the ACCEPT last
accepted; ACCEPT at least the ballot promised is accepted; else NACK names the ballot promised; PREPARE of an epoch
already installed gets the INSTALL held for it; in PHASE HELD a member whose fold path is not idle answers no PREPARE
(R247). Nothing else of the member changes. -/
def Obligations.MembersAnswerByBallot : Prop :=
  ∀ (s : State) (m : AgreeMsg), OwnCoveMember s m →
    (m.epoch.toNat = (epochNow s).toNat + 1 → s.tide.phase.get ≠ 5 ∨ foldIdle s = true → s.agree.promised.toNat < m.ballot.toNat →
      Ends (.prepare m) s fun t =>
        t = { s with
          agree := { s.agree with promised := m.ballot, state := 3 }
          out := { s.out with lkp := t.out.lkp } } ∧
        (s.agree.accepted = none → t.out.lkp = s.out.lkp ++
          [toPosition s m.sender.toNat 0x23 m.epoch m.ballot 0 (List.replicate 8 0 ++ sealInfo s)]) ∧
        (∀ a, s.agree.accepted = some a → t.out.lkp = s.out.lkp ++
          [toPosition s m.sender.toNat 0x23 m.epoch m.ballot a.ballot
            (leBytes 2 a.live.toNat ++ leBytes 1 a.reason.toNat ++ [0] ++ leBytes 4 a.joining.toNat ++ sealInfo s)])) ∧
    (m.epoch.toNat = (epochNow s).toNat + 1 → m.ballot.toNat ≤ s.agree.promised.toNat →
      Ends (.prepare m) s fun t => t = { s with out := { s.out with lkp := s.out.lkp ++
        [toPosition s m.sender.toNat 0x26 m.epoch m.ballot s.agree.promised []] } }) ∧
    (m.epoch.toNat = (epochNow s).toNat + 1 → s.tide.phase.get = 5 → foldIdle s = false →
      s.agree.promised.toNat < m.ballot.toNat → Ends (.prepare m) s fun t => t = s) ∧
    (m.epoch.toNat ≤ (epochNow s).toNat → (∀ i ∈ s.agree.installs, i.epoch ≠ m.epoch) →
      Ends (.prepare m) s fun t => t = s) ∧
    (∀ i, m.epoch.toNat ≤ (epochNow s).toNat → s.agree.installs.find? (fun j => j.epoch = m.epoch) = some i →
      Ends (.prepare m) s fun t => t = { s with out := { s.out with lkp := s.out.lkp ++
        [toPosition s m.sender.toNat 0x27 i.epoch i.ballot i.arg i.body] } }) ∧
    (m.epoch.toNat = (epochNow s).toNat + 1 → s.agree.promised.toNat ≤ m.ballot.toNat →
      Ends (.accept m) s fun t => t = { s with
        agree := { s.agree with
          promised := m.ballot
          accepted := some ⟨m.ballot, BitVec.ofNat 16 (fldAt m.body 0 2), m.arg, BitVec.ofNat 32 (fldAt m.body 4 4)⟩
          state := 3 }
        out := { s.out with lkp := s.out.lkp ++ [toPosition s m.sender.toNat 0x25 m.epoch m.ballot 0 []] } }) ∧
    (m.epoch.toNat = (epochNow s).toNat + 1 → m.ballot.toNat < s.agree.promised.toNat →
      Ends (.accept m) s fun t => t = { s with out := { s.out with lkp := s.out.lkp ++
        [toPosition s m.sender.toNat 0x26 m.epoch m.ballot s.agree.promised []] } })

/-- The proposer's side of R221: SUSPECT adds its position to the suspects and starts the 300 µs timer; the timer's end
probes the lower positions and starts it again (that it probes the suspects too is the model's choice, log entry 83); a
retry and a renewal (R247) begin a round with PREPARE to every other live member; answers are kept; without a quorum
after 50 µs the proposal is retried after own position times 20 µs, and with a quorum of PROMISE that carry no accepted
view, ACCEPT proposes the live set less the confirmed losses. -/
def Obligations.ProposersFollowTheRounds : Prop :=
  ∀ (s : State),
    (∀ (m : AgreeMsg) (q r : Nat), OwnCoveMember s m → m.arg.toNat = q → (m.sender = 0xFF ∨ m.epoch = epochNow s) →
      m.epoch.toNat ≤ (epochNow s).toNat → (liveSet s).getLsbD q = true → q ≠ ownPos s → r < ownPos s → r ≠ q →
      (liveSet s).getLsbD r = true → r ∉ s.agree.suspects → (∀ x ∈ s.agree.suspects, (liveSet s).getLsbD x = true) →
      Ends (.suspect m) s fun t => t = { s with agree := { s.agree with
        suspects := if q ∈ s.agree.suspects then s.agree.suspects else s.agree.suspects ++ [q]
        firstSuspicion := some (s.agree.firstSuspicion.getD s.time.gtc)
        state := if s.agree.state = 1 then 2 else s.agree.state
        timerAt := some (s.agree.timerAt.getD (s.time.gtc + 300000)) } }) ∧
    (s.agree.cove.isSome = true → s.agree.state ≠ 0 → s.agree.state ≠ 4 → s.agree.state ≠ 5 →
      s.agree.withdrawn = false → s.ports.lkp = true →
      (∀ (due : U64) (r : Nat), s.agree.timerAt = some due → due.toNat ≤ s.time.gtc.toNat → s.agree.suspects ≠ [] →
        s.agree.proposal = none → s.agree.probes = [] → s.agree.suspects.Nodup → r < ownPos s →
        (liveSet s).getLsbD r = true → r ∉ s.agree.confirmed →
        Ends .proposeTimer s fun t =>
          t = { s with
            agree := { s.agree with timerAt := some (s.time.gtc + 300000), probes := t.agree.probes }
            out := { s.out with lkp := t.out.lkp }
            cnt := t.cnt } ∧
          t.out.lkp = s.out.lkp ++ ((List.range 16).filter fun q =>
            (liveSet s).getLsbD q && decide (q < ownPos s) && decide (q ∉ s.agree.confirmed)).map
              (fun q => .probe (rankAt s (ownCoveId s) q)) ++
            (s.agree.suspects.filter fun q => decide (q ∉ s.agree.confirmed) &&
              !((liveSet s).getLsbD q && decide (q < 16 ∧ q < ownPos s))).map
              (fun q => .probe (rankAt s (ownCoveId s) q))) ∧
      (s.agree.proposal = none → s.agree.promised.toNat < (s.agree.round + 1) * 256 + ownPos s →
        (s.agree.round + 1) * 256 + ownPos s < 2 ^ 32 →
        ((∃ due, s.agree.retryAt = some due ∧ due.toNat ≤ s.time.gtc.toNat) → s.tide.phase.get ≠ 5 →
          Ends .retryWait s fun t =>
            t = { s with agree := t.agree, out := { s.out with lkp := t.out.lkp } } ∧
            t.out.lkp = s.out.lkp ++ (otherLive s).map (fun q =>
              toPosition s q 0x22 (epochNow s + 1) (BitVec.ofNat 32 ((s.agree.round + 1) * 256 + ownPos s)) 0 []) ∧
            t.agree.round = s.agree.round + 1 ∧ t.agree.state = 3 ∧ t.agree.retryAt = none ∧
            t.agree.live = s.agree.live ∧ t.agree.epoch = s.agree.epoch ∧ t.agree.suspects = s.agree.suspects ∧
            ∃ p, t.agree.proposal = some p ∧ p.epoch = epochNow s + 1 ∧ p.accepting = false ∧
              p.ballot.toNat = (s.agree.round + 1) * 256 + ownPos s ∧ p.since = s.time.gtc ∧
              p.promises = [⟨ownPos s, s.agree.accepted, sealInfo s⟩]) ∧
        (s.agree.renewalDue = true → isCaptain s = true → s.tide.phase.get = 5 → foldIdle s = true →
          s.agree.wishes = [] → Ends .renewalPropose s fun t =>
            t = { s with agree := t.agree, out := { s.out with lkp := t.out.lkp } } ∧
            t.agree.wishes = [(16, 0, 0xFFFFFFFF)] ∧ t.agree.round = s.agree.round + 1 ∧
            t.agree.proposal.isSome = true ∧ t.agree.live = s.agree.live ∧ t.agree.epoch = s.agree.epoch ∧
            t.out.lkp = s.out.lkp ++ (otherLive s).map (fun q =>
              toPosition s q 0x22 (epochNow s + 1) (BitVec.ofNat 32 ((s.agree.round + 1) * 256 + ownPos s)) 0 []))) ∧
      (∀ (p : Proposal), s.agree.proposal = some p →
        (s.time.gtc.toNat < p.since.toNat + 50000 → Ends .proposeWait s fun t => t = s) ∧
        (p.since.toNat + 50000 ≤ s.time.gtc.toNat → p.accepting = false → p.promises.length ≤ (livePositions s).length / 2 →
          Ends .proposeWait s fun t => t = { s with agree := { s.agree with
            proposal := none
            round := max s.agree.round (p.nackMax.toNat / 256)
            retryAt := some (s.time.gtc + BitVec.ofNat 64 (20000 * ownPos s)) } }) ∧
        (p.since.toNat + 50000 ≤ s.time.gtc.toNat → p.accepting = false → (livePositions s).length / 2 < p.promises.length →
          (∀ r ∈ p.promises, r.acc = none) → (∃ q ∈ s.agree.confirmed, (liveSet s).getLsbD q = true) →
          Ends .proposeWait s fun t => ∃ l : U16,
            (∀ i, i < 16 → l.getLsbD i = ((liveSet s).getLsbD i && decide (i ∉ s.agree.confirmed))) ∧
            t = { s with agree := t.agree, out := { s.out with lkp := t.out.lkp } } ∧
            t.out.lkp = s.out.lkp ++ (otherLive s).map (fun q => toPosition s q 0x24 (epochNow s + 1) p.ballot 0
              (leBytes 2 l.toNat ++ [0, 0, 0xFF, 0xFF, 0xFF, 0xFF])) ∧
            t.agree.live = s.agree.live ∧ t.agree.epoch = s.agree.epoch ∧
            ∃ p', t.agree.proposal = some p' ∧ p'.accepting = true ∧ p'.live = l ∧ p'.reason = 0 ∧
              p'.ballot = p.ballot) ∧
        (∀ (m : AgreeMsg) (u : Nat), OwnCoveMember s m → m.epoch = p.epoch → m.ballot = p.ballot →
          m.epoch.toNat ≤ (epochNow s).toNat + 1 → (liveSet s).getLsbD m.sender.toNat = true →
          m.sender.toNat ∉ p.answered → (liveSet s).getLsbD u = true → u ≠ ownPos s → u ∉ s.agree.confirmed →
          u ∉ p.answered → u ≠ m.sender.toNat →
          (p.accepting = false → m.arg = 0 → Ends (.promise m) s fun t => t = { s with agree := { s.agree with
            proposal := some { p with
              promises := p.promises ++ [⟨m.sender.toNat, none, (m.body.drop 8).take 16⟩]
              answered := p.answered ++ [m.sender.toNat] } } }) ∧
          (p.accepting = true → Ends (.accepted m) s fun t => t = { s with agree := { s.agree with
            proposal := some { p with
              acceptedBy := p.acceptedBy ++ [m.sender.toNat], answered := p.answered ++ [m.sender.toNat] } } }) ∧
          (Ends (.nack m) s fun t => t = { s with agree := { s.agree with
            proposal := some { p with
              nackMax := if p.nackMax.toNat < m.arg.toNat then m.arg else p.nackMax
              answered := p.answered ++ [m.sender.toNat] } } }))))

/-- Views and their consequences (R20, R220, R223 to R225, R228, R247): a stale INSTALL changes nothing; one that omits
the member makes it EXCLUDED; a renewal installs the next epoch over the same live set; a LOSS leaves the member
deciding, with its running commands told that a member is lost; 1.5 ms after the first suspicion, without a new view or
a quorum, the state is NO_QUORUM; and COLL_ABORT stops the group's reductions, once. Views are stated for a member that
is no captain. -/
def Obligations.ViewsAndAborts : Prop :=
  ∀ (s : State) (m : AgreeMsg), OwnCoveMember s m → s.recov.shadow = none →
    (m.epoch.toNat ≤ (epochNow s).toNat → Ends (.install m) s fun t => t = s) ∧
    ((epochNow s).toNat < m.epoch.toNat → (BitVec.ofNat 16 (fldAt m.body 0 2)).getLsbD (ownPos s) = false →
      Ends (.install m) s fun t =>
        t.agree.state = 5 ∧ t.job.state = 4 ∧ t.cap = { s.cap with barred := true } ∧ t.agree.proposal = none ∧
        t.agree.epoch = s.agree.epoch ∧ t.agree.live = s.agree.live ∧ t.mem = s.mem ∧ t.fold = s.fold ∧
        t.tide.slot = s.tide.slot ∧ t.tide.phase = s.tide.phase ∧ t.digests = s.digests) ∧
    ((epochNow s).toNat < m.epoch.toNat → BitVec.ofNat 16 (fldAt m.body 0 2) = liveSet s →
      (liveSet s).getLsbD (ownPos s) = true → m.arg = 0 → fldAt m.body 12 4 = 0xFFFFFFFF → captainOf (liveSet s) ≠ ownPos s →
      s.agree.suspects = [] → s.agree.wishes = [] → s.recov.waiting = [] → s.recov.target = false → s.recov.lost.get = 0 →
      Ends (.install m) s fun t =>
        t.agree.epoch.get = m.epoch ∧ t.agree.live.get = liveSet s ∧ t.agree.promised = 0 ∧ t.agree.accepted = none ∧
        t.agree.proposal = none ∧ t.agree.installs = s.agree.installs ++ [m] ∧ t.agree.state = 1 ∧ t.mem = s.mem ∧
        t.tide.phase = s.tide.phase ∧ t.tide.slot = s.tide.slot ∧ t.recov.lost = s.recov.lost ∧
        (s.tide.phase.get = 5 → t.fold.buffer = [] ∧ t.fold.sendPlus = [] ∧ t.fold.sendMinus = []) ∧
        ∃ body, t.out.lkp = s.out.lkp ++ [toPosition s (captainOf (liveSet s)) 0x28 m.epoch 0 0 body]) ∧
    (∀ g : Nat, (epochNow s).toNat < m.epoch.toNat → g < 16 → g ≠ ownPos s → (liveSet s).getLsbD g = true →
      BitVec.ofNat 16 (fldAt m.body 0 2) = liveSet s &&& ~~~(BitVec.ofNat 16 (2 ^ g)) → m.arg = 0 →
      fldAt m.body 12 4 = 0xFFFFFFFF → captainOf (BitVec.ofNat 16 (fldAt m.body 0 2)) ≠ ownPos s →
      s.agree.suspects = [] → s.agree.wishes = [] → s.tide.phase.get = 1 → s.tide.noTide = false → s.tide.forming = none →
      s.tide.mailbox = none → s.recov.state.get = 0 → s.recov.target = false → (liveSet s).getLsbD (ownPos s) = true →
      beyondTolerance s (BitVec.ofNat 16 (fldAt m.body 0 2)) = false →
      Ends (.install m) s fun t =>
        t.agree.epoch.get = m.epoch ∧ t.agree.live.get = BitVec.ofNat 16 (fldAt m.body 0 2) ∧ t.recov.state.get = 1 ∧
        t.recov.lost.get = BitVec.ofNat 16 (2 ^ g) ∧ t.tide.phase.get = 1 ∧ t.mem = s.mem ∧ t.fold = s.fold ∧
        t.cap = s.cap ∧ t.digests = s.digests ∧
        t.apply.run = s.apply.run.map (fun r => { r with stop := releaseStop r.stop .lost }) ∧
        t.exch.reduces = s.exch.reduces.map (fun r => { r with stop := releaseStop r.stop .lost })) ∧
    (m.epoch = epochNow s → isCaptain s = false → Ends (.installed m) s fun t =>
      t = { s with agree := { s.agree with infos := t.agree.infos } } ∧
        find m.sender.toNat t.agree.infos = some (m.body.take 16)) ∧
    (∀ at_ : U64, s.agree.firstSuspicion = some at_ →
      (s.time.gtc.toNat < at_.toNat + 1500000 → Ends .noQuorum s fun t => t = s) ∧
      (hasQuorum s = true → Ends .noQuorum s fun t => t = s) ∧
      (at_.toNat + 1500000 ≤ s.time.gtc.toNat → hasQuorum s = false → Ends .noQuorum s fun t =>
        t.agree.state = 4 ∧ t.cap = { s.cap with barred := true } ∧ t.agree.proposal = none ∧ t.mem = s.mem ∧
        t.fold = s.fold ∧ t.tide.phase = s.tide.phase ∧ t.agree.epoch = s.agree.epoch ∧ t.agree.live = s.agree.live ∧
        ∀ mb, s.tide.mailbox = some mb → s.stat.fwState.get = 2 → s.stat.drainMb = none → s.stat.suspendMb = none →
          s.tide.forming = none → s.tide.resuming = none →
          (box t mb).busy = false ∧ (box t mb).done = true ∧ (box t mb).code = 0x22)) ∧
    (m.epoch.toNat ≤ (epochNow s).toNat → s.ports.fbp = true →
      ((m.cove, m.epoch, m.arg) ∈ s.agree.relayed → Ends (.collAbort m) s fun t => t = s) ∧
      ((m.cove, m.epoch, m.arg) ∉ s.agree.relayed → Ends (.collAbort m) s fun t =>
        t = { s with
          agree := { s.agree with relayed := s.agree.relayed ++ [(m.cove, m.epoch, m.arg)] }
          exch := { s.exch with reduces := s.exch.reduces.map fun r =>
            if r.group = m.arg.truncate 16 ∧ r.stop = .none then { r with stop := .lost } else r }
          out := { lkp := t.out.lkp, fbp := s.out.fbp ++ [.collStop (m.arg.truncate 16)] } } ∧
        ∀ p g i, s.job.plan = some p → p.groups = [g] → g.id = m.arg.truncate 16 →
          ((g.ranks.map (currentDie s)).filter fun r => r ≠ fldAt m.body 0 4).findIdx? (fun r => r = ownRank s) = some i →
          t.out.lkp.length = s.out.lkp.length + min 8
            (((g.ranks.map (currentDie s)).filter fun r => r ≠ fldAt m.body 0 4).length - (8 * i + 1)))) ∧
    (∀ g : U16, Ends (.collStopped g) s fun t => t = s)

/-! ### Plans (R230, R239 to R241, R266, R324, R325, R402) -/

/-- A message of the own job that comes in Summer (R217, R231). -/
abbrev Sys2Proof.OwnJobMessage (s : State) (m : AgreeMsg) : Prop :=
  s.ports.lkp = true ∧ s.job.part.isSome = true ∧ m.jobTag = jobTag s ∧ s.power.season.get = 0 ∧ s.power.moving = false

/-- A plan message of R239. -/
def Sys2Proof.planStore (s : State) (rank : Nat) (vc : Vc) (type : Byte) (epoch : Nat) (body : List Byte) : LkpOut :=
  .store rank vc .any (.agree type
    ⟨jobTag s, 0, 0xFF, 0xFF, BitVec.ofNat 32 epoch, s.bcast.ballot, BitVec.ofNat 32 (ownRank s), s.time.gtc, body⟩)

/-- The broadcast of a plan (R239 to R241): a relay takes the fragment it expects and forwards it to every child; it
drops a repeated one and counts it; a gap, or 1 ms of silence while incomplete, makes it probe its parent; PLAN_NEED is
served from the index it names; with the verified plan and the last child's PLAN_ACK it acknowledges its subtree; a
child silent for 5 ms is probed; 10 ms after the last fragment, with rank 0 lost, every other die discards a partial
plan. -/
def Obligations.PlanTravelsTheTree : Prop :=
  ∀ (s : State),
    (∀ m : AgreeMsg, OwnJobMessage s m →
      (s.bcast = BcastS.reset → m.epoch = 0 → Ends (.planPart m) s fun t =>
        t = { s with bcast := t.bcast, out := { s.out with lkp := t.out.lkp } } ∧
        t.bcast.fragments = [m.body] ∧ t.bcast.parent = some m.arg.toNat ∧ t.bcast.ballot = m.ballot ∧
        t.bcast.length = fldAt m.body 0 8 ∧ t.bcast.digest = (m.body.drop 8).take 32 ∧ t.bcast.complete = false ∧
        t.bcast.children = treeChildren s (ownRank s) ∧ t.bcast.lastFragment = s.time.gtc ∧
        t.out.lkp = s.out.lkp ++ (treeChildren s (ownRank s)).map fun c =>
          .store c .vf .any (.agree 0x2A
            ⟨jobTag s, 0, 0xFF, 0xFF, 0, m.ballot, BitVec.ofNat 32 (ownRank s), s.time.gtc, m.body⟩)) ∧
      (s.bcast.fragments ≠ [] → s.bcast.complete = false → s.bcast.ended = false → m.ballot = s.bcast.ballot →
        (m.epoch.toNat = s.bcast.fragments.length → m.epoch.toNat < (s.bcast.length + 255) / 256 →
          Ends (.planPart m) s fun t =>
            t = { s with
              bcast := { s.bcast with
                fragments := s.bcast.fragments ++ [m.body], lastFragment := s.time.gtc, sentAt := t.bcast.sentAt }
              out := { s.out with lkp := t.out.lkp } } ∧
            t.out.lkp = s.out.lkp ++ s.bcast.children.map fun c => planStore s c .vf 0x2A m.epoch.toNat m.body) ∧
        (m.epoch.toNat < s.bcast.fragments.length → Ends (.planPart m) s fun t =>
          t = { s with cnt := s.cnt.set 18 (s.cnt.get 18 + 1) }) ∧
        (∀ r, s.bcast.fragments.length < m.epoch.toNat → s.bcast.parent = some r → s.agree.probes = [] →
          Ends (.planPart m) s fun t =>
            t = { s with
              agree := { s.agree with probes := [(r, .planParent)] }
              out := { s.out with lkp := s.out.lkp ++ [.probe r] }
              cnt := s.cnt.set 20 (s.cnt.get 20 + 1) })) ∧
      (s.bcast.fragments ≠ [] → s.bcast.complete = false → s.bcast.ended = false → m.ballot ≠ s.bcast.ballot →
        Ends (.planPart m) s fun t => t = { s with cnt := s.cnt.set 18 (s.cnt.get 18 + 1) }) ∧
      (s.bcast.fragments ≠ [] → Ends (.planNeed m) s fun t =>
        t = { s with
          bcast := { s.bcast with children := t.bcast.children, sentAt := t.bcast.sentAt }
          out := { s.out with lkp := t.out.lkp } } ∧
        m.arg.toNat ∈ t.bcast.children ∧
        t.out.lkp = s.out.lkp ++ ((List.zip (List.range s.bcast.fragments.length) s.bcast.fragments).drop
          m.epoch.toNat).map (fun e => planStore s m.arg.toNat .vf 0x2A e.1 e.2)) ∧
      (∀ r, s.bcast.fragments ≠ [] → m.ballot = s.bcast.ballot → s.bcast.children = [m.arg.toNat] →
        s.bcast.complete = true → s.bcast.ended = false → s.bcast.mailbox = none → s.bcast.parent = some r →
        s.bcast.lostChildren = [] → s.bcast.acked = [] →
        Ends (.planAck m) s fun t =>
          t = { s with
            bcast := { s.bcast with acked := [(m.arg.toNat, m.epoch.toNat, fldAt m.body 0 4)], ended := true }
            out := { s.out with lkp := s.out.lkp ++
              [planStore s r .va 0x2C (1 + m.epoch.toNat) (leBytes 4 (fldAt m.body 0 4))] } })) ∧
    (s.ports.lkp = true →
      (∀ r, s.bcast.complete = false → s.bcast.ended = false → s.bcast.parent = some r → s.agree.probes = [] →
        (s.time.gtc.toNat < s.bcast.lastFragment.toNat + 1000000 → Ends .planSilence s fun t => t = s) ∧
        (s.bcast.lastFragment.toNat + 1000000 ≤ s.time.gtc.toNat → Ends .planSilence s fun t =>
          t = { s with
            agree := { s.agree with probes := [(r, .planParent)] }
            out := { s.out with lkp := s.out.lkp ++ [.probe r] }
            cnt := s.cnt.set 20 (s.cnt.get 20 + 1) })) ∧
      (∀ (c : Nat) (at_ : U64), find c s.bcast.sentAt = some at_ → s.bcast.complete = true → s.bcast.ended = false →
        c ∈ s.bcast.children → (∀ a ∈ s.bcast.acked, a.1 ≠ c) → c ∉ s.bcast.lostChildren →
        (s.time.gtc.toNat < at_.toNat + 5000000 → Ends (.planChildProbe c) s fun t => t = s) ∧
        (at_.toNat + 5000000 ≤ s.time.gtc.toNat → Ends (.planChildProbe c) s fun t =>
          t = { s with
            agree := { s.agree with probes := s.agree.probes ++ [(c, .planChild c)] }
            out := { s.out with lkp := s.out.lkp ++ [.probe c] }
            cnt := s.cnt.set 20 (s.cnt.get 20 + 1) })) ∧
      (s.bcast.fragments ≠ [] → s.bcast.complete = false → ownRank s ≠ 0 →
        s.bcast.lastFragment.toNat + 10000000 ≤ s.time.gtc.toNat →
        Ends .planDiscard s fun t => t = { s with bcast := BcastS.reset }) ∧
      (s.bcast.fragments = [] ∨ s.bcast.complete = true ∨ ownRank s = 0 ∨
          s.time.gtc.toNat < s.bcast.lastFragment.toNat + 10000000 → Ends .planDiscard s fun t => t = s))

/-- Commands that take a plan (R239, R266, R324, R325, R402): each checks its fields, is accepted as long, and leaves
the plan in force as it is; PLAN_LOAD with DIST off rank 0 is BAD_ARG at 1, and a plan that breaks a rule is BAD_ARG
too; RESHARD_START with a flood open is WRONG_STATE; and once the plan has been taken, the instance is PLANNED under it
and PLAN_LOAD completes OK for one die. -/
def Obligations.PlansAreTakenByCommand : Prop :=
  ∀ (s : State) (mb : Fin 8) (priv : Bool) (cmd : Line) (plan : Plan),
    (Handled s mb priv 0x05 cmd → s.job.taking = none → s.bcast.mailbox = none →
      (fld cmd 1 1 = 0 → fld cmd 8 8 % 64 = 0 → 0 < fld cmd 16 4 → fld cmd 16 4 ≤ 8388608 → planOk s plan = true →
        Ends (.planLoad (.issue mb (portOf mb) priv cmd) plan) s fun t =>
          RunsLong s t mb cmd ∧ t.job = { s.job with taking := some (mb, plan, false) } ∧
          t = { s with mb := t.mb, events := t.events, stat := { s.stat with evtOvf := t.stat.evtOvf }, job := t.job }) ∧
      (fld cmd 1 1 = 0 → fld cmd 8 8 % 64 = 0 → 0 < fld cmd 16 4 → fld cmd 16 4 ≤ 8388608 → planOk s plan = false →
        Ends (.planLoad (.issue mb (portOf mb) priv cmd) plan) s fun t =>
          (box t mb).busy = false ∧ (box t mb).done = true ∧ (box t mb).code = 0x10 ∧ t.job = s.job ∧ t.bcast = s.bcast ∧
          t.tier = s.tier ∧ t.mem = s.mem) ∧
      (fld cmd 1 1 = 1 → ownRank s ≠ 0 → Ends (.planLoad (.issue mb (portOf mb) priv cmd) plan) s fun t =>
        Answered s t mb cmd 0x10 1 ∧ OnlyAnswer s t mb) ∧
      (fld cmd 1 1 = 0 → fld cmd 8 8 % 64 ≠ 0 → Ends (.planLoad (.issue mb (portOf mb) priv cmd) plan) s fun t =>
        Answered s t mb cmd 0x10 8 ∧ OnlyAnswer s t mb) ∧
      (fld cmd 1 1 = 0 → fld cmd 8 8 % 64 = 0 → 8388608 < fld cmd 16 4 →
        Ends (.planLoad (.issue mb (portOf mb) priv cmd) plan) s fun t =>
          Answered s t mb cmd 0x10 16 ∧ OnlyAnswer s t mb)) ∧
    (Handled s mb priv 0x13 cmd → fld cmd 1 1 = 1 → fld cmd 8 8 % 64 = 0 → 0 < fld cmd 16 4 →
      fld cmd 16 4 ≤ 8388608 → ownRank s = 0 →
      (s.tide.phase.get = 5 → s.recov.state.get = 5 ∨ s.recov.state.get = 3 → planOk s plan = true → s.job.taking = none →
        s.bcast.mailbox = none → (∃ v, declareShadow s plan none = .inr v) →
        Ends (.reshardStart (.issue mb (portOf mb) priv cmd) plan) s fun t =>
          RunsLong s t mb cmd ∧ t.job = { s.job with taking := some (mb, plan, true) } ∧ t.mem = s.mem ∧
          t.tide = s.tide ∧ t.recov = s.recov ∧ t.bcast.reshard = true ∧ t.bcast.complete = true ∧
          t.bcast.children = treeChildren s 0 ∧ t.bcast.length = fld cmd 16 4 ∧
          t.bcast.digest = sha256 (s.mem.bytes (fld cmd 8 8) (fld cmd 16 4))) ∧
      (s.tide.phase.get = 1 → Ends (.reshardStart (.issue mb (portOf mb) priv cmd) plan) s fun t =>
        Answered s t mb cmd 0x12 (s.job.state.toNat + 256) ∧ OnlyAnswer s t mb)) ∧
    (Handled s 7 priv 0x22 cmd → fld cmd 1 1 = 0 → s.job.taking = none → planOk s plan = true → s.bcast.complete = true →
      fld cmd 8 8 = s.bcast.length → fld cmd 24 32 = leNat s.bcast.digest →
      Ends (.peerPlan (.issue 7 .lkp priv cmd) plan) s fun t =>
        RunsLong s t 7 cmd ∧ t.job = { s.job with taking := some (7, plan, false) } ∧ t.job.plan = s.job.plan ∧
        t.mem = s.mem ∧ t.bcast = s.bcast) ∧
    (s.job.taking = some (mb, plan, false) → s.bcast.mailbox = none → (box s 7).done = false → mb ≠ 7 →
      s.stat.fwState.get = 2 → s.ctrl.compatA.get = 0 →
      Ends .planLoadLocalDone s fun t =>
        t.job = { s.job with taking := none, plan := some (localPlan (ownRank s) plan), state := if s.job.state = 1 then 2 else s.job.state } ∧
        t.tide = { s.tide with policy := plan.policy, nextPolicy := plan.policy } ∧ t.mem = s.mem ∧
        t.agree = s.agree ∧ (box t mb).busy = false ∧ (box t mb).done = true ∧ (box t mb).code = 0 ∧
        (box t mb).count = (box s mb).count + 1 ∧ fld (box t mb).rsp 8 4 = 1 ∧ fld (box t mb).rsp 12 4 = 0 ∧
        OtherBoxes s t mb) ∧
    (s.job.taking = none → Ends .planLoadLocalDone s fun t => t = s)

/-! ### Recovery: claims, rollback, the ring decode, the target (R248 to R268) -/

/-- CLAIM_ACK from a standby (R254). -/
def Sys2Proof.claimAckStore (s : State) (rank : Nat) (cove : U16) (epoch pos refused : Nat) : LkpOut :=
  .store rank .va .any (.agree 0x2E ⟨jobTag s, cove, 0xFF, 0xFF, BitVec.ofNat 32 epoch, BitVec.ofNat 32 pos,
    BitVec.ofNat 32 refused, s.time.gtc, []⟩)

/-- Claims, rank moves and REBUILD_START (R254 to R256, R313, R402): a CLAIM or RANK_MOVE becomes the peer command of
mailbox 7; a standby that does not qualify, or is granted, answers CLAIM_ACK, and grants the same claim again; a refusal
makes the captain claim the next standby, and with none left REC_STAT is WAIT_TARGET and the event goes out; a grant
makes it propose JOIN; RANK_MOVE maps a position to its new die; REBUILD_START probes every member of the cove for its
view, or takes the position of the CLAIM it holds. The ballot field of CLAIM_ACK and the members probed are the model's
reading (log entries 25 and 33). -/
def Obligations.TargetsAreClaimedAndTaken : Prop :=
  ∀ (s : State),
    (∀ (m : AgreeMsg) (r : Nat), OwnJobMessage s m → s.stat.fwState.get = 2 → (box s 7).busy = false → s.mb.peer = [] →
      (Ends (.claim m r) s fun t =>
        t = { s with mb := t.mb } ∧ OtherBoxes s t 7 ∧ t.mb.waiting = s.mb.waiting ++ [7] ∧ (box t 7).busy = true ∧
        (box t 7).op = 0x20 ∧ fld (box t 7).cmd 8 2 = m.cove.toNat ∧ fld (box t 7).cmd 10 1 = m.arg.toNat % 256 ∧
        fld (box t 7).cmd 12 4 = m.epoch.toNat ∧ fld (box t 7).cmd 16 4 = r % 2 ^ 32) ∧
      (planGroup s (m.arg.truncate 16) = none → Ends (.rankMove m) s fun t =>
        t = { s with mb := t.mb } ∧ OtherBoxes s t 7 ∧ t.mb.waiting = s.mb.waiting ++ [7] ∧ (box t 7).busy = true ∧
        (box t 7).op = 0x21 ∧ fld (box t 7).cmd 8 2 = m.cove.toNat ∧ fld (box t 7).cmd 24 4 = fldAt m.body 0 4 ∧
        fld (box t 7).cmd 28 4 = fldAt m.body 4 4)) ∧
    (∀ (m : AgreeMsg) (r pos : Nat) (p : Plan), OwnCoveMember s m → isCaptain s = true → s.job.plan = some p →
      m.ballot.toNat = pos → pos < 16 → (liveSet s).getLsbD pos = false → lostPositions s = [pos] →
      s.recov.asked = some (pos, r) → s.agree.wishes = [] → s.agree.proposal = none →
      (m.arg = 0 → Ends (.claimAck m r) s fun t =>
        t = { s with agree := t.agree, recov := { s.recov with asked := none }, out := { s.out with lkp := t.out.lkp } } ∧
        t.agree.wishes = [(pos, 2, BitVec.ofNat 32 r)] ∧ t.agree.proposal.isSome = true ∧
        t.agree.live = s.agree.live ∧ t.agree.epoch = s.agree.epoch) ∧
      (∀ r2, m.arg = 1 → p.standbys[s.recov.tried]? = some r2 → s.recov.state.get ≠ 1 →
        Ends (.claimAck m r) s fun t => t = { s with
          recov := { s.recov with asked := some (pos, r2), tried := s.recov.tried + 1 }
          out := { s.out with lkp := s.out.lkp ++ [.store r2 .va .any (.agree 0x2D
            ⟨jobTag s, ownCoveId s, BitVec.ofNat 8 (ownPos s), 0xFF, epochNow s, 0, BitVec.ofNat 32 pos, s.time.gtc,
              leBytes 6 s.recov.tide.toNat ++ leBytes 2 (liveSet s).toNat ++ [BitVec.ofNat 8 (Layout.code (covLayout s))] ++
                List.replicate 7 0⟩)] } }) ∧
      (m.arg = 1 → p.standbys[s.recov.tried]? = none → s.recov.state.get ≠ 1 → s.recov.state.get ≠ 6 → s.recov.rollingBack = false →
        s.ports.mgp = true → Ends (.claimAck m r) s fun t => t = { s with
          recov := { s.recov with asked := none, state := V3.all 3 }
          events := { s.events with
            delivered := s.events.delivered ++ [⟨6, BitVec.ofNat 8 pos, 1, s.time.gtc⟩] } })) ∧
    (∀ (priv : Bool) (cmd : Line) (p : Plan) (c : CovePlan), Handled s 7 priv 0x20 cmd → s.mb.peer = [] →
      s.ports.lkp = true → s.job.plan = some p → planCove p (BitVec.ofNat 16 (fld cmd 8 2)) = some c →
      fld cmd 10 1 < Layout.n c.layout →
      (s.recov.grant = none →
        qualifies s (BitVec.ofNat 16 (fld cmd 8 2)) (fld cmd 10 1) (BitVec.ofNat 16 (fld cmd 30 2)) = false →
        Ends (.peerClaim (.issue 7 .lkp priv cmd)) s fun t =>
          (box t 7).busy = false ∧ (box t 7).done = false ∧ (box t 7).code = 0x12 ∧
          t = { s with mb := t.mb, out := { s.out with lkp := s.out.lkp ++ [claimAckStore s (fld cmd 16 4)
            (BitVec.ofNat 16 (fld cmd 8 2)) (fld cmd 12 4) (fld cmd 10 1) 1] } }) ∧
      (∀ u, s.recov.grant = none →
        qualifies s (BitVec.ofNat 16 (fld cmd 8 2)) (fld cmd 10 1) (BitVec.ofNat 16 (fld cmd 30 2)) = true →
        takeRegions s p c (fld cmd 10 1) = .inr u →
        Ends (.peerClaim (.issue 7 .lkp priv cmd)) s fun t =>
          (box t 7).busy = false ∧ (box t 7).done = false ∧ (box t 7).code = 0 ∧
          t = { s with
            mb := t.mb, tier := u.tier, recov := { s.recov with grant := t.recov.grant }
            out := { s.out with lkp := s.out.lkp ++ [claimAckStore s (fld cmd 16 4) (BitVec.ofNat 16 (fld cmd 8 2))
              (fld cmd 12 4) (fld cmd 10 1) 0] } } ∧
          ∃ g, t.recov.grant = some g ∧ g.cove.toNat = fld cmd 8 2 ∧ g.position = fld cmd 10 1 ∧
            g.captainRank = fld cmd 16 4 ∧ g.live.toNat = fld cmd 30 2 ∧ g.handover = false) ∧
      (∀ g, s.recov.grant = some g → g.cove.toNat = fld cmd 8 2 → g.position = fld cmd 10 1 →
        g.epoch.toNat = fld cmd 12 4 → g.handover = false → Ends (.peerClaim (.issue 7 .lkp priv cmd)) s fun t =>
          (box t 7).code = 0 ∧ t = { s with mb := t.mb, out := { s.out with lkp := s.out.lkp ++ [claimAckStore s (fld cmd 16 4)
            (BitVec.ofNat 16 (fld cmd 8 2)) (fld cmd 12 4) (fld cmd 10 1) 0] } })) ∧
    (∀ (priv : Bool) (cmd : Line) (p : Plan) (c : U16) (i : Nat), Handled s 7 priv 0x21 cmd → s.mb.peer = [] →
      s.job.plan = some p → jobPlace p.coves (fld cmd 24 4) = some (c, i) → s.agree.cove ≠ some c → s.job.rankChanges = [] →
      Ends (.peerRankMove (.issue 7 .lkp priv cmd)) s fun t =>
        (box t 7).busy = false ∧ (box t 7).done = false ∧ (box t 7).code = 0 ∧ (box t 7).count = (box s 7).count + 1 ∧
        OtherBoxes s t 7 ∧ t.job = { s.job with rankChanges := [(jobRank p c i, fld cmd 28 4)] } ∧
        rankAt t c i = fld cmd 28 4 ∧ t = { s with mb := t.mb, job := t.job, agree := { s.agree with moved := t.agree.moved } }) ∧
    (∀ (mb : Fin 8) (priv : Bool) (cmd : Line) (p : Plan) (c : CovePlan), Handled s mb priv 0x12 cmd →
      fld cmd 8 1 = 0 → s.job.plan = some p → planCove p (BitVec.ofNat 16 (fld cmd 10 2)) = some c →
      (fld cmd 9 1 = 0 ∨ 8 < fld cmd 9 1 → Ends (.rebuildStart (.issue mb (portOf mb) priv cmd)) s fun t =>
        Answered s t mb cmd 0x10 9 ∧ OnlyAnswer s t mb) ∧
      (1 ≤ fld cmd 9 1 → fld cmd 9 1 + c.share ≤ 8 → fld cmd 12 1 < Layout.n c.layout → s.recov.ask = none →
        s.recov.mailbox = none → s.agree.cove = none → s.job.state = 2 → s.ports.lkp = true →
        (s.recov.grant = none → Ends (.rebuildStart (.issue mb (portOf mb) priv cmd)) s fun t =>
          (box t mb).busy = true ∧ (box t mb).rsp = (box s mb).rsp ∧
          t = { s with
            mb := t.mb, agree := { s.agree with probes := t.agree.probes }, recov := { s.recov with ask := t.recov.ask }
            out := { s.out with lkp := s.out.lkp ++ (List.range c.members.length).map (fun q =>
              .probe (rankAt s (BitVec.ofNat 16 (fld cmd 10 2)) q)) }
            cnt := t.cnt } ∧ t.recov.ask.isSome = true) ∧
        (∀ g, s.recov.grant = some g → g.cove.toNat = fld cmd 10 2 → g.position = fld cmd 12 1 →
          g.live.getLsbD g.position = false → qualifies s g.cove g.position g.live = true →
          Ends (.rebuildStart (.issue mb (portOf mb) priv cmd)) s fun t =>
            RunsLong s t mb cmd ∧ t.recov.mailbox = some mb ∧ t.recov.share = fld cmd 9 1 ∧ t.mem = s.mem ∧
            t.tier = s.tier ∧ t.agree = s.agree ∧ t.job = s.job ∧
            t.out.lkp = s.out.lkp ++
              [claimAckStore s (rankAt s g.cove (captainOf g.live)) g.cove g.epoch.toNat g.position 0])))

/-- Rollback (R20, R246, R248, R249), once the commands that the loss stopped have ended: the stashed line has its
before-image again, its row's digest follows, the stash stays in place and the recovery is RESUMABLE where no position
is lost; with a digest that does not match the record of the restored tide, recovery has FAILED. Stated for one stash
entry. -/
def Obligations.RollbackRestoresTheBeforeImage : Prop :=
  ∀ (s : State) (b l n : Nat) (v : Line) (a : Nat), s.recov.rollingBack = true → s.cap.queue = [] → s.cap.oldReads = [] →
    s.power.asleep = false → commandsEnded s = true → s.recov.state.get ≠ 6 → stashEntries s = [(b, l, n, v)] →
    lineHome s b l = some a →
    (digestsMatch (restoreLine s (b, l, n, v)) = true → s.recov.lost.get = 0 → s.recov.waiting = [] →
      Ends .rollbackDone s fun t =>
      t = { s with
        mem := t.mem, digests := t.digests
        apply := { s.apply with issued := s.apply.issued.map fun e => if e.addr = a then { e with stale := true } else e }
        recov := { s.recov with rollingBack := false, state := V3.all 5 } } ∧
      t.mem.line a = v ∧ digestOf t b = digestOf s b ^^^ lineTerm (bayKey s b) l (s.mem.line a ^^^ v) ∧
      ∀ row, row ≠ b → digestOf t row = digestOf s row) ∧
    (digestsMatch (restoreLine s (b, l, n, v)) = false → s.recov.mailbox = none → s.ports.mgp = true →
      Ends .rollbackDone s fun t =>
        t.recov.state.get = 9 ∧ t.recov.rollingBack = false ∧ t.mem.line a = v ∧ t.cap = s.cap ∧ t.tide = s.tide ∧
        (⟨0x0B, 0, 1, s.time.gtc⟩ : Event) ∈ t.events.delivered)

/-- A rebuild packet of the instance to a position of its cove (R258). -/
def Sys2Proof.rbStore (s : State) (pos : Nat) (type : Byte) (route : Route) (m : RbMsg) : LkpOut :=
  .store (rankAt s (ownCoveId s) pos) .vf route (.rebuild type { m with
    cove := ownCoveId s, sender := BitVec.ofNat 8 (ownPos s), dest := BitVec.ofNat 8 pos, view := viewNow s,
    seq := look 0 (rankAt s (ownCoveId s) pos) s.recov.seqs })

/-- The ring decode at a holder (R257 to R259, R261): the first holder sends its product on, data row by row, while its
bucket holds the packet; a later holder folds its own in, and the last sends FINAL to the target; a packet comes back
STALE when the holder's sealed tide has moved past it, and waits while nothing is offered; PIECE_REQ is answered with
the product; a group that could not be gathered starts again after 20 µs. -/
def Obligations.HoldersPassTheRing : Prop :=
  ∀ (s : State), s.ports.lkp = true → s.power.season.get ≠ 2 →
    (∀ (g : RingId) (c : Byte) (h : Nat × Byte) (rest : List (Nat × Byte)) (T : U48), g.depth.toNat % 2 = 0 →
      s.recov.state.get = 5 ∨ s.recov.state.get = (if g.parity then 4 else 6) → s.recov.target = false →
      (g.parity = true ∨ ∀ b, b < g.bay.toNat → rowLeft s false b = true) →
      groupValid s g = true → g ∉ s.recov.groupsLeft →
      s.recov.halted.getLsbD (g.depth.toNat / 4 % 4) = false → groupHolders s g = (ownPos s, c) :: h :: rest →
      offers s = some T →
      (32 + 64 * g.count.toNat ≤ s.fold.rbTokPlus → Ends (.ringGroupStart g) s fun t =>
        t = { s with
          recov := { s.recov with
            state := t.recov.state, groupsLeft := s.recov.groupsLeft ++ [g], restartAt := t.recov.restartAt
            seqs := t.recov.seqs }
          cap := { s.cap with filter := t.cap.filter, filterPending := t.cap.filterPending }
          fold := { s.fold with rbTokPlus := s.fold.rbTokPlus - (32 + 64 * g.count.toNat) }
          out := { s.out with lkp := s.out.lkp ++ [rbStore s h.1 0x40 (.w .plus)
            ⟨g.parity, false, false, 0, g.target, 0, 0, 1, 0, T, g.bay, g.base, g.piece, g.depth, g.count, 0,
              (products s c g.bay.toNat g.base.toNat g.depth.toNat g.count.toNat).flatMap lineBytes⟩] } } ∧
        (t.recov.state = s.recov.state → t.cap = s.cap)) ∧
      (s.fold.rbTokPlus < 32 + 64 * g.count.toNat → Ends (.ringGroupStart g) s fun t => t = s)) ∧
    (∀ m : RbMsg, s.agree.cove = some m.cove → m.view = viewNow s → m.final = false → m.stale = false →
      (offers s = none → Ends (.part m) s fun t =>
        t = { s with recov := { s.recov with waiting := s.recov.waiting ++ [(0x40, m)] } }) ∧
      (∀ T h rest, offers s = some T → m.tide.toNat < T.toNat → groupHolders s (groupOf m) = h :: rest → h.1 ≠ ownPos s →
        Ends (.part m) s fun t =>
          t = { s with
            recov := { s.recov with seqs := t.recov.seqs }
            fold := { s.fold with rbTokPlus := t.fold.rbTokPlus, rbTokMinus := t.fold.rbTokMinus }
            out := { s.out with lkp := s.out.lkp ++ [rbStore s h.1 0x40 .any { m with stale := true, payload := [] }] } }) ∧
      (∀ (c : Byte) (before rest : List (Nat × Byte)), offers s = some m.tide → m.depth.toNat % 2 = 0 →
        s.recov.state.get = 5 ∨ s.recov.state.get = (if m.parity then 4 else 6) → groupOf m ∉ s.recov.groupsLeft →
        groupHolders s (groupOf m) = before ++ (ownPos s, c) :: rest → (∀ h ∈ before, h.1 ≠ ownPos s) →
        Ends (.part m) s fun t => ∃ (p : RbMsg) (dst : Nat) (route : Route),
          t = { s with
            recov := { s.recov with
              state := t.recov.state, groupsLeft := s.recov.groupsLeft ++ [groupOf m], seqs := t.recov.seqs }
            cap := { s.cap with filter := t.cap.filter, filterPending := t.cap.filterPending }
            fold := { s.fold with rbTokPlus := t.fold.rbTokPlus, rbTokMinus := t.fold.rbTokMinus }
            out := { s.out with lkp := s.out.lkp ++ [rbStore s dst 0x40 route p] } } ∧
          p.payload = (xorLines (payloadLines m.payload)
            (products s c m.bay.toNat m.base.toNat m.depth.toNat m.count.toNat)).flatMap lineBytes ∧
          p.stage = m.stage + 1 ∧ p.tide = m.tide ∧ p.stale = false ∧ groupOf p = groupOf m ∧
          (∀ h more, rest = h :: more → dst = h.1 ∧ route = .w .plus ∧ p.final = false) ∧
          (rest = [] → dst = m.target.toNat ∧ route = .any ∧ p.final = true) ∧
          (t.recov.state = s.recov.state → t.cap = s.cap)) ∧
      (offers s = none → Ends (.pieceReq m) s fun t =>
        t = { s with recov := { s.recov with waiting := s.recov.waiting ++ [(0x41, m)] } }) ∧
      (∀ T, offers s = some T → Ends (.pieceReq m) s fun t =>
        t = { s with
          recov := { s.recov with seqs := t.recov.seqs }
          fold := { s.fold with rbTokPlus := t.fold.rbTokPlus, rbTokMinus := t.fold.rbTokMinus }
          out := { s.out with lkp := s.out.lkp ++ [rbStore s m.sender.toNat 0x42 .any { m with
            tide := T, payload := (products s (holderCoeff s m (ownPos s)) m.bay.toNat m.base.toNat m.depth.toNat
              m.count.toNat).flatMap lineBytes }] } })) ∧
    (∀ (g : RingId) (at_ : U64), find g s.recov.restartAt = some at_ →
      (s.time.gtc.toNat < at_.toNat + 20000 → Ends (.ringRestart g) s fun t => t = s) ∧
      (at_.toNat + 20000 ≤ s.time.gtc.toNat → offers s = none → Ends (.ringRestart g) s fun t =>
        t = { s with recov := { s.recov with restartAt := t.recov.restartAt } } ∧
          find g t.recov.restartAt = some s.time.gtc) ∧
      (∀ (c : Byte) (h : Nat × Byte) (rest : List (Nat × Byte)) (T : U48), at_.toNat + 20000 ≤ s.time.gtc.toNat →
        offers s = some T → g.depth.toNat % 2 = 0 →
        s.recov.state.get = 5 ∨ s.recov.state.get = (if g.parity then 4 else 6) →
        groupHolders s g = (ownPos s, c) :: h :: rest → Ends (.ringRestart g) s fun t =>
          t = { s with
            recov := { s.recov with
              state := t.recov.state, groupsLeft := t.recov.groupsLeft, restartAt := t.recov.restartAt
              seqs := t.recov.seqs }
            cap := { s.cap with filter := t.cap.filter, filterPending := t.cap.filterPending }
            fold := { s.fold with rbTokPlus := t.fold.rbTokPlus, rbTokMinus := t.fold.rbTokMinus }
            out := { s.out with lkp := s.out.lkp ++ [rbStore s h.1 0x40 (.w .plus)
              ⟨g.parity, false, false, 0, g.target, 0, 0, 1, 0, T, g.bay, g.base, g.piece, g.depth, g.count, 0,
                (products s c g.bay.toNat g.base.toNat g.depth.toNat g.count.toNat).flatMap lineBytes⟩] } } ∧
          find g t.recov.restartAt = some s.time.gtc))

/-- The target (R256, R258 to R262, R264, R267): a FINAL parity packet is written into the sealed slot; a FINAL data
packet writes its line past capture, sets its bit and adds to its row's verify digest, and is discarded where the bit is
set; a reply is kept until every holder of the selection has answered, and the request goes out again after 20 µs; TMARK
fragments are gathered by a target that has no store yet, which learns the restored tide from the first, and a survivor
answers TMARK_REQ for the tide it holds; a MIRROR line is written at the handover's target; the outgoing member's copy
sends every line that is left, up to four in a packet; a MOVE line is written into the shadow. Packets of one line. -/
def Obligations.TargetsTakeWhatTheyAreSent : Prop :=
  ∀ (s : State), s.ports.lkp = true → s.power.season.get ≠ 2 →
    (∀ (m : RbMsg) (v : Line), s.agree.cove = some m.cove → m.view = viewNow s → m.final = true →
      s.recov.target = true → m.target.toNat = ownPos s → m.payload = lineBytes v →
      (m.parity = true → groupOf m ∉ s.recov.parityDone →
        covers s.recov.parityDone (ownPos s) m.bay.toNat m.base.toNat m.depth.toNat = false → s.recov.state.get = 4 → Ends (.part m) s fun t =>
        t = { s with mem := t.mem, recov := { s.recov with
          state := t.recov.state, parityDone := s.recov.parityDone ++ [groupOf m] } } ∧
        t.mem.line (slotBase s (sealedSlot s) +
          parityOffset (covLayout s) m.bay.toNat m.piece.toNat m.depth.toNat) = v ∧
        (∀ x, outsideLine (slotBase s (sealedSlot s) +
            parityOffset (covLayout s) m.bay.toNat m.piece.toNat m.depth.toNat) x → t.mem.byte x = s.mem.byte x)) ∧
      (∀ l a, m.parity = false → columnLine (covLayout s) m.bay.toNat m.piece.toNat m.depth.toNat = l → l < 16384 →
        lineHome s m.bay.toNat l = some a →
        (rebuiltBit s m.bay.toNat l = true → Ends (.part m) s fun t => t = s) ∧
        (rebuiltBit s m.bay.toNat l = false → s.cap.held = [] → outsideLine a (mapBase s + m.bay.toNat * 2048 + l / 8) →
          (rowCheck s m.bay.toNat).lines + 1 < 16384 → (rowCheck s m.bay.toNat).done = false →
          Ends (.part m) s fun t =>
            t = { s with mem := t.mem, recov := { s.recov with rows := t.recov.rows, reqs := t.recov.reqs } } ∧
            t.mem.line a = v ∧ rebuiltBit t m.bay.toNat l = true ∧
            (∀ x, outsideLine a x → x ≠ mapBase s + m.bay.toNat * 2048 + l / 8 → t.mem.byte x = s.mem.byte x) ∧
            (rowCheck t m.bay.toNat).lines = (rowCheck s m.bay.toNat).lines + 1 ∧
            (rowCheck t m.bay.toNat).digest =
              (rowCheck s m.bay.toNat).digest ^^^ lineTerm (bayKey s m.bay.toNat) l v))) ∧
    (∀ (m : RbMsg) (q : LineReq), s.recov.reqs = [q] → q.sel = 0 → m.stage = 0 → q.bay = m.bay.toNat →
      q.line = columnLine (covLayout s) m.bay.toNat m.piece.toNat m.depth.toNat → s.agree.cove = some m.cove →
      m.view = viewNow s → q.replies = [] →
      (∃ h ∈ askedHolders s q, h ≠ m.sender.toNat) →
      Ends (.piece m) s fun t => t = { s with recov := { s.recov with
        reqs := [{ q with replies := [(m.sender.toNat, m.tide, (payloadLines m.payload).headD 0)] }] } }) ∧
    (∀ (x : U64) (q : LineReq), bayLine s x.toNat = some (q.bay, q.line) → s.recov.reqs = [q] →
      (s.time.gtc.toNat < q.sentAt.toNat + 20000 → Ends (.pieceReqRetry x) s fun t => t = s) ∧
      (q.sentAt.toNat + 20000 ≤ s.time.gtc.toNat → Ends (.pieceReqRetry x) s fun t =>
        t = { s with
          recov := { s.recov with reqs := [{ q with sentAt := s.time.gtc }], seqs := t.recov.seqs }
          fold := { s.fold with rbTokPlus := t.fold.rbTokPlus, rbTokMinus := t.fold.rbTokMinus }
          out := { s.out with lkp := t.out.lkp } } ∧
        t.out.lkp.length = s.out.lkp.length + (otherLive s).length)) ∧
    (∀ (m : RbMsg) (c : CovePlan), s.agree.cove = some m.cove → m.view = viewNow s → ownCove s = some c →
      (m.tide ≠ sealedTide s → Ends (.tmarkReq m) s fun t => t = s) ∧
      (m.tide = sealedTide s → s.tide.phase.get ≠ 4 → m.depth = 0 → m.bay = 0 → Ends (.tmarkReq m) s fun t =>
        ∃ ps : List RbMsg, t = { s with
          recov := { s.recov with seqs := t.recov.seqs }
          fold := { s.fold with rbTokPlus := t.fold.rbTokPlus, rbTokMinus := t.fold.rbTokMinus }
          out := { s.out with lkp := t.out.lkp } } ∧
          t.out.lkp = s.out.lkp ++ ps.map (fun p =>
            .store (rankAt s (ownCoveId s) m.sender.toNat) .vf .any (.rebuild 0x43 p)) ∧
          ps.map (fun p => p.payload) = chunks 256 (s.mem.bytes (areaBase s (sealedSlot s)) (areaSize c)) ∧
          (∀ i p, ps[i]? = some p → p.depth = BitVec.ofNat 16 i) ∧ (∀ p ∈ ps, p.tide = sealedTide s)) ∧
      (s.recov.handover = none → s.recov.target = true → s.tide.stepRecord = none →
        m.sender.toNat = s.recov.tmarkFrom → m.depth.toNat = 0 → s.recov.tmark = [] → 256 < areaSize c →
        Ends (.tmark m) s fun t =>
          t = { s with
            recov := { s.recov with tide := m.tide, tmark := [(0, m.payload)] }
            tide := { s.tide with tideLo := t.tide.tideLo, tideHi := t.tide.tideHi } } ∧
          sealedTide t = m.tide) ∧
      (s.recov.handover = none → s.recov.target = false ∨ s.tide.stepRecord.isSome = true →
        Ends (.tmark m) s fun t => t = s)) ∧
    (∀ m : RbMsg, s.recov.handover = none → Ends (.mirror m) s fun t => t = s) ∧
    (∀ (m : RbMsg) (h : Handover) (v : Line) (a : Nat), s.recov.handover = some h → h.outgoing = false →
      s.agree.cove = some m.cove → m.count = 1 → m.payload = lineBytes v → m.parity = false →
      m.bay.toNat * copyUnits (covLayout s) + m.depth.toNat + 1 < rowsY s * copyUnits (covLayout s) →
      lineHome s m.bay.toNat m.depth.toNat = some a → Ends (.mirror m) s fun t =>
        t = { s with mem := t.mem, recov := { s.recov with handover := some { h with
          cursor := max h.cursor (m.bay.toNat * copyUnits (covLayout s) + m.depth.toNat + 1) } } } ∧
        t.mem.line a = v ∧ ∀ x, outsideLine a x → t.mem.byte x = s.mem.byte x) ∧
    (∀ h : Handover, s.recov.handover = some h → h.outgoing = true → h.finished = false →
      h.cursor < rowsY s * copyUnits (covLayout s) →
      Ends .handoverCopyDone s fun t => ∃ ps : List RbMsg,
        t = { s with
          recov := { s.recov with
            seqs := t.recov.seqs
            handover := some { h with cursor := rowsY s * copyUnits (covLayout s), finished := true } }
          fold := { s.fold with rbTokPlus := t.fold.rbTokPlus, rbTokMinus := t.fold.rbTokMinus }
          out := { s.out with lkp := s.out.lkp ++ ps.map (fun p => .store h.peerRank .vf .any (.rebuild 0x44 p)) } } ∧
        (∀ p ∈ ps, 1 ≤ p.count.toNat ∧ p.count.toNat ≤ 4 ∧ p.payload.length = 64 * p.count.toNat) ∧
        (ps.map fun p => p.count.toNat).sum = rowsY s * copyUnits (covLayout s) - h.cursor) ∧
    (∀ h : Handover, s.recov.handover = some h → h.outgoing = false ∨ h.finished = true →
      Ends .handoverCopyDone s fun t => t = s) ∧
    (∀ m : RbMsg, s.recov.shadow = none → Ends (.move m) s fun t => t = s) ∧
    (∀ (m : RbMsg) (sh : Shadow) (r : Region) (v : Line), s.recov.shadow = some sh → m.stale = false → m.count = 1 →
      m.payload = lineBytes v → shadowRegion sh (moveRegion m) = some r → moveLine m < r.bays * 16384 →
      (gotLines sh (moveRegion m) (moveLine m / 256)).length < 255 →
      Ends (.move m) s fun t => ∃ more,
        t = { s with mem := t.mem, recov := { s.recov with shadow := some { sh with
          got := sh.got.filter (fun g => !decide (g.1 = moveRegion m ∧ g.2.1 = moveLine m / 256)) ++ more } } } ∧
        more = [(moveRegion m, moveLine m / 256,
          addNew (moveLine m % 256) (gotLines sh (moveRegion m) (moveLine m / 256)))] ∧
        t.mem.line (regionLineAddr r (moveLine m)) = v ∧
        ∀ x, outsideLine (regionLineAddr r (moveLine m)) x → t.mem.byte x = s.mem.byte x)

/-! ### Twin mode (R269 to R271) and stores that no port takes (R284) -/

/-- A twin message's store (R269). -/
def Sys2Proof.twinStore (s : State) (rank : Nat) (type : Byte) (arg : U32) (body : List Byte) : LkpOut :=
  .store rank .va .any (.agree type ⟨jobTag s, 0, 0xFF, 0xFF, 0, 0, arg, s.time.gtc, body⟩)

/-- Twin mode (R269, R270): TWIN_PAIR sends the first summary and waits for the peer's, and refuses a peer in its own
package; OFF ends the pair; a peer of another row count is BAD_ARG; equal summaries of one tide match, and different
ones start the search over [0, 16384), and a tide already compared is not compared again; the other twin opens it at the
lowest bay that differs; each round keeps the half whose digests differ; an ended search sets DIVERGED with bay and
line; and a lost peer sets PEER_LOST. -/
def Obligations.TwinsCompareAndSearch : Prop :=
  ∀ (s : State),
    (∀ (mb : Fin 8) (priv : Bool) (cmd : Line), Handled s mb priv 0x14 cmd → 128 ≤ fld cmd 0 1 →
      (fld cmd 12 1 = 0 → Ends (.twinPair (.issue mb (portOf mb) priv cmd)) s fun t =>
        Answered s t mb cmd 0 0 ∧ t.twin = { s.twin with state := 0, peer := none, mode := 0, own := [], theirs := [], compared := none } ∧
        t = { s with mb := t.mb, events := t.events, stat := { s.stat with evtOvf := t.stat.evtOvf }, twin := t.twin }) ∧
      (∀ p, s.job.part = some p → fld cmd 12 1 = 1 → fld cmd 8 4 / 64 = p.rank / 64 →
        Ends (.twinPair (.issue mb (portOf mb) priv cmd)) s fun t =>
          Answered s t mb cmd 0x10 8 ∧ OnlyAnswer s t mb) ∧
      (∀ p, s.job.part = some p → s.ports.lkp = true → fld cmd 12 1 = 1 ∨ fld cmd 12 1 = 2 →
        fld cmd 8 4 / 64 ≠ p.rank / 64 → fld cmd 8 4 < partitionDies p →
        Ends (.twinPair (.issue mb (portOf mb) priv cmd)) s fun t =>
          t.twin = { s.twin with
            state := 1, peer := some (fld cmd 8 4), mode := BitVec.ofNat 8 (fld cmd 12 1), own := t.twin.own, theirs := [],
            compared := none, rowsChecked := false, mailbox := some mb } ∧
          (box t mb).busy = true ∧ (box t mb).rsp = (box s mb).rsp ∧
          t = { s with mb := t.mb, twin := t.twin, out := { s.out with lkp := t.out.lkp } } ∧
          ∃ body, t.out.lkp = s.out.lkp ++ [twinStore s (fld cmd 8 4) 0x50 0 body] ∧
            fldAt body 0 6 = (sealedTide s).toNat ∧ t.twin.own = [(sealedTide s, body.drop 16)])) ∧
    (∀ (m : AgreeMsg) (r : Nat), s.ports.lkp = true → s.job.part.isSome = true → m.jobTag = jobTag s →
      s.power.season.get ≠ 2 → s.twin.peer = some r →
      (∀ mb, fldAt m.body 8 4 ≠ twinRows s → s.twin.rowsChecked = false → s.twin.mailbox = some mb →
        s.stat.fwState.get = 2 → Ends (.twinSum m) s fun t =>
          t.twin = { s.twin with state := 0, peer := none, mode := 0, mailbox := none } ∧
          (box t mb).busy = false ∧ (box t mb).code = 0x10 ∧ fld (box t mb).rsp 4 4 = 8 ∧ OtherBoxes s t mb) ∧
      (∀ d, s.twin.rowsChecked = true → s.twin.mailbox = none → s.job.state = 3 → s.twin.theirs = [] →
        s.twin.own = [(BitVec.ofNat 48 (fldAt m.body 0 6), d)] →
        (s.twin.compared = some (BitVec.ofNat 48 (fldAt m.body 0 6)) → Ends (.twinSum m) s fun t =>
          t = { s with twin := { s.twin with
            theirs := [(BitVec.ofNat 48 (fldAt m.body 0 6), (m.body.drop 16).take 32)] } }) ∧
        (s.twin.compared ≠ some (BitVec.ofNat 48 (fldAt m.body 0 6)) → (m.body.drop 16).take 32 = d → Ends (.twinSum m) s fun t =>
          t = { s with twin := { s.twin with
            theirs := [(BitVec.ofNat 48 (fldAt m.body 0 6), d)], state := 2
            tide := BitVec.ofNat 48 (fldAt m.body 0 6)
            compared := some (BitVec.ofNat 48 (fldAt m.body 0 6)) } }) ∧
        (s.twin.compared ≠ some (BitVec.ofNat 48 (fldAt m.body 0 6)) → (m.body.drop 16).take 32 ≠ d → r ≤ ownRank s → Ends (.twinSum m) s fun t =>
          t = { s with twin := { s.twin with
            theirs := [(BitVec.ofNat 48 (fldAt m.body 0 6), (m.body.drop 16).take 32)], state := 3
            tide := BitVec.ofNat 48 (fldAt m.body 0 6)
            compared := some (BitVec.ofNat 48 (fldAt m.body 0 6)), lineValid := false, lo := 0, hi := 16384 } })) ∧
      (∀ i, s.twin.state = 3 → r ≤ ownRank s → s.twin.lo = 0 → s.twin.hi = 16384 → i < m.body.length / 8 →
        (m.body.drop (8 * i)).take 8 ≠ ((digestSection s s.twin.tide).drop (8 * (m.arg.toNat + i))).take 8 →
        (∀ j, j < i → (m.body.drop (8 * j)).take 8 = ((digestSection s s.twin.tide).drop (8 * (m.arg.toNat + j))).take 8) →
        Ends (.twinBays m) s fun t =>
          t = { s with
            twin := { s.twin with bay := BitVec.ofNat 16 (m.arg.toNat + i) }
            out := { s.out with lkp := s.out.lkp ++ [twinStore s r 0x52 (BitVec.ofNat 32 (m.arg.toNat + i))
              ([0, 0, 0, 0x20, 0, 0, 0, 0] ++ leBytes 8 (rangeDigest s (m.arg.toNat + i) 0 8192).toNat)] } }) ∧
      (∀ f e, s.twin.state = 3 → fldAt m.body 0 2 = f → fldAt m.body 2 2 = e → f + 1 < e →
        (fldAt m.body 8 8 ≠ (rangeDigest s m.arg.toNat f e).toNat → Ends (.twinRange m) s fun t =>
          t = { s with
            twin := { s.twin with lo := f, hi := e }
            out := { s.out with lkp := t.out.lkp } } ∧ t.out.lkp.length = s.out.lkp.length + 1) ∧
        (fldAt m.body 8 8 = (rangeDigest s m.arg.toNat f e).toNat → Ends (.twinRange m) s fun t =>
          t = { s with
            twin := { s.twin with lo := e, hi := 2 * e - f }
            out := { s.out with lkp := t.out.lkp } } ∧ t.out.lkp.length = s.out.lkp.length + 1)) ∧
      (∀ f, s.twin.state = 3 → fldAt m.body 0 2 = f → fldAt m.body 2 2 = f + 1 → s.ports.mgp = true →
        Ends (.twinRange m) s fun t =>
          t.twin.state = 4 ∧ t.twin.divEvt = true ∧ t.twin.lineValid = true ∧ t.twin.bay = m.arg.truncate 16 ∧
          t.twin.line = (if fldAt m.body 8 8 ≠ (rangeDigest s m.arg.toNat f (f + 1)).toNat then BitVec.ofNat 14 f
            else BitVec.ofNat 14 (f + 1)) ∧
          t.events.delivered = s.events.delivered ++ [⟨7, 0, 1, s.time.gtc⟩] ∧
          t = { s with twin := t.twin, events := t.events, out := { s.out with lkp := t.out.lkp } }) ∧
      (s.twin.state ≠ 0 → s.twin.mailbox = none → s.ports.mgp = true → Ends .twinPeerLost s fun t =>
        t = { s with
          twin := { s.twin with state := 5 }
          events := { s.events with delivered := s.events.delivered ++ [⟨8, 0, 1, s.time.gtc⟩] } })) ∧
    (∀ (off : U16) (vc : Vc) (bytes : List Byte), s.ports.lkp = true → s.power.season.get ≠ 2 →
      (off ≠ 0x0100 ∧ off ≠ 0x0200) ∨ (off = 0x0100 ∧ vc = .vf) ∨ (off = 0x0200 ∧ vc = .va) →
      Ends (.lkpStoreDiscard off vc bytes) s fun t => t = { s with cnt := s.cnt.set 17 (s.cnt.get 17 + 1) })

/-! ### The exchange unit (R183 to R210) -/

/-- The unit carries records, and one running reduction is the one a record names. -/
abbrev Sys2Proof.OneReduction (s : State) (r : Reduce) (x : ExRec) : Prop :=
  s.ports.fbp = true ∧ s.power.season.get = 0 ∧ s.exch.reduces = [r] ∧ r.stop = .none ∧ r.waits = [] ∧ x.group = r.group ∧
    x.seq = r.seq

/-- A float reduction (R186, R189, R191, R192, R194, R198, R204, R205, R207, R282): EXCH_REDUCE is accepted and runs; an
offered record that names a running reduction is accepted, one that names none is refused and left alone, and one of a
completed reduction is accepted and counted; EXP records are gathered, each raising its blocks' exponent, and the last
gives GRANT; on GRANT the rank sends its DATA to that owner; a contribution is converted and added into a stage slot,
and the last one forms the results and writes the slice; CANCEL ends the reduction with FAULT and names the rank, once a
write phase has ended; completion writes nothing more, and one stopped by a loss reports whether its write phase had
begun. -/
def Obligations.ReductionsGatherGrantAndComplete : Prop :=
  ∀ (s : State),
    (∀ (mb : Fin 8) (priv : Bool) (cmd : Line) (p : Plan), Handled s mb priv 0x0D cmd → s.job.plan = some p →
      (s.ctrl.exchEn.get = 0 → Ends (.exchReduce (.issue mb (portOf mb) priv cmd)) s fun t =>
        Answered s t mb cmd 0x12 (s.job.state.toNat + 256 * s.tide.phase.get.toNat) ∧ OnlyAnswer s t mb) ∧
      (s.ctrl.exchEn.get = 1 → s.exch.disabled = false → exchStopping s = false → s.exch.reduces.length < 4 → fld cmd 8 8 % 64 = 0 →
        inNear p (fld cmd 8 8) 64 = true →
        (∃ g, groupPlace s (BitVec.ofNat 16 (fldAt (s.mem.bytes (fld cmd 8 8) 320) 2 2)) = some g ∧
          reduceFault s p (some g) (s.mem.bytes (fld cmd 8 8) 320) = none) →
        Ends (.exchReduce (.issue mb (portOf mb) priv cmd)) s fun t =>
          RunsLong s t mb cmd ∧ t.tide = s.tide ∧ t.cap = s.cap ∧
          (∃ r : Reduce, t.exch.reduces = s.exch.reduces ++ [r] ∧ r.mailbox = mb ∧
            r.group.toNat = fldAt (s.mem.bytes (fld cmd 8 8) 320) 2 2 ∧
            r.seq.toNat = fldAt (s.mem.bytes (fld cmd 8 8) 320) 4 4 ∧
            r.contributions = fldAt (s.mem.bytes (fld cmd 8 8) 320) 24 4 ∧
            r.dst = fldAt (s.mem.bytes (fld cmd 8 8) 320) 32 8 ∧ r.stop = .none ∧ r.granted = false) ∧
          (fldAt (s.mem.bytes (fld cmd 8 8) 320) 29 1 ≠ 0xB → t.mem = s.mem ∧
            ∃ recs : List ExRec, t.out.fbp = s.out.fbp ++ recs.map (fun x => .record 0x30 x)) ∧
          (fldAt (s.mem.bytes (fld cmd 8 8) 320) 29 1 = 0xB →
            ∃ recs : List ExRec, t.out.fbp = s.out.fbp ++ recs.map (fun x => .record 0x32 x)))) ∧
    (∀ (r : Reduce) (x : ExRec), OneReduction s r x →
      (∀ m, isIntReduce r = false → r.granted = false → x.sender.toNat < r.ranks → r.exps = [] → 1 < r.ranks →
        slicePlace r x 256 = some m → x.payload.length = (x.covered.toNat + 255) / 256 →
        x.covered.toNat ≤ (sliceOf r r.rank).2 → Ends (.exp x) s fun t => ∃ r1 : Reduce,
          t = { s with
            exch := { s.exch with reduces := [r1] }, out := { s.out with fbp := s.out.fbp ++ [.answer true] } } ∧
          r1 = { r with exps := [(x.sender.toNat, x.count.toNat, x.covered.toNat)], blocks := r1.blocks } ∧
          r1.blocks.length = r.blocks.length ∧
          ∀ i b, r.blocks[i]? = some b → r1.blocks[i]? = some (
            if h : m ≤ i ∧ i - m < x.payload.length then
              (if x.payload[i - m]'h.2 = 0 then b else
                { b with x := some (max ((x.payload[i - m]'h.2).toNat : Int) (b.x.getD ((x.payload[i - m]'h.2).toNat : Int))) })
            else b)) ∧
      (isIntReduce r = false → r.granted = false → r.ranks = 1 → r.rank = 0 → x.sender = 0 → r.exps = [] →
        slicePlace r x 256 = some 0 → x.payload.length = (x.covered.toNat + 255) / 256 →
        x.covered.toNat = (sliceOf r 0).2 → x.count.toNat = r.contributions → r.add = false → r.total = false →
        r.blocks.length = x.payload.length →
        Ends (.exp x) s fun t => ∃ r1 : Reduce,
          t = { s with
            mem := t.mem, exch := { s.exch with reduces := [r1] }
            out := { s.out with fbp := s.out.fbp ++ [.answer true, .record 0x31 ⟨false, r.group, r.seq, 0, 0, 0, 0,
              BitVec.ofNat 64 r.elemBase, BitVec.ofNat 32 (sliceOf r 0).2, []⟩] } } ∧
          r1.granted = true ∧ SameOutside s t (r.scratch + 4096 * ownBlocks r) (128 * r.blocks.length) ∧
          ∀ b ∈ r1.blocks, b.q = (match b.x with | some v => v - 181 | none => -32768)) ∧
      (isIntReduce r = false → rebuilding s = false → x.sender.toNat ∈ ownersOf r → x.sender.toNat ∉ r.sentTo → Ends (.grant x) s fun t =>
        t = { s with
          exch := { s.exch with reduces := [{ r with sentTo := r.sentTo ++ [x.sender.toNat] }] }
          out := { s.out with fbp := t.out.fbp } } ∧
        ∃ recs : List ExRec, t.out.fbp = s.out.fbp ++ .answer true :: recs.map (fun y => .record 0x32 y) ∧
          recs.length = ((sliceOf r x.sender.toNat).2 + 4095) / 4096 * r.sources.length ∧
          ∀ y ∈ recs, y.group = r.group ∧ y.seq = r.seq ∧ y.dest = BitVec.ofNat 24 x.sender.toNat) ∧
      (∀ b : ExBlock, isIntReduce r = false → r.granted = true → r.blocks = [b] → x.format = 0 →
        slicePlace r x 4096 = some 0 → dataFits r x = true → x.covered.toNat ≤ 256 → b.received + 1 < r.contributions →
        s.exch.slots = [] → Ends (.data x) s fun t => ∃ b1 : ExBlock,
          t = { s with
            mem := t.mem
            out := { s.out with fbp := s.out.fbp ++ [.answer true] }
            exch := { s.exch with
              reduces := [{ r with blocks := [b1] }]
              slots := [⟨r.group, r.seq, 0, 1,
                (pad256 ((chunks 4 x.payload).map fun c => codeVal 0 (leNat c))).map (toBlock b.q)⟩] } } ∧
          b1.received = b.received + 1 ∧ b1.x = b.x ∧ b1.q = b.q ∧ b1.spills = b.spills ∧
          SameOutside s t (r.scratch + 4096 * ownBlocks r) 128) ∧
      (∀ (u : State) (r1 : Reduce) (n : Nat), isIntReduce r = false → r.granted = true → r.blocks.length = 1 →
        (∃ b, r.blocks = [b] ∧ b.received + 1 = r.contributions) → slicePlace r x 4096 = some 0 → dataFits r x = true →
        x.covered.toNat ≤ 256 → r.formed = none →
        u = contribute (answerOffer s true) r.group r.seq 0 (payloadVals x.format.toNat x.payload x.covered.toNat) →
        reduceOf u r.group r.seq = some r1 → n = (reduceResult u r1).bytes.length →
        (r.noWrite = true → Ends (.data x) s fun t => t.mem = u.mem ∧ t.exch.reduces = [{ r1 with
          formed := some ⟨false, n, (reduceResult u r1).steps, 0, (reduceResult u r1).saturated⟩ }]) ∧
        (r.noWrite = false → r.dst % 64 = 0 → r.dst + 64 ≤ 2 ^ 64 → s.cap.filter = [] → s.tier.staged = [] →
          s.tier.rows = [] → 0 < n → n ≤ 64 → Ends (.data x) s fun t =>
          t.mem.bytes r.dst n = (reduceResult u r1).bytes ∧ SameOutside u t r.dst n ∧ t.exch.reduces = [{ r1 with
            formed := some ⟨true, n, (reduceResult u r1).steps, (reduceResult u r1).nonfinite,
              (reduceResult u r1).saturated⟩ }])) ∧
      (phaseEnded s r = false → Ends (.cancel x) s fun t =>
        t = { s with
          out := { s.out with fbp := s.out.fbp ++ [.answer true] }
          exch := { s.exch with reduces := [{ r with stop := .fault, cancelBy := some x.sender.toNat }] } }) ∧
      (s.stat.fwState.get = 2 → s.log.entries.length < 256 → r.aborts = [] → phaseEnded s r = true →
        Ends (.cancel x) s fun t =>
        t.exch.reduces = [] ∧ (r.group, r.seq) ∈ t.exch.completed ∧ t.mem = s.mem ∧
        (box t r.mailbox).busy = false ∧ (box t r.mailbox).code = 0x20 ∧ OtherBoxes s t r.mailbox ∧
        fld (box t r.mailbox).rsp 8 1 = 0 ∧ fld (box t r.mailbox).rsp 9 1 = bit (formedOf r).written ∧
        fld (box t r.mailbox).rsp 12 3 = x.sender.toNat ∧ ∃ e ∈ t.log.entries, e.cls = 8)) ∧
    (∀ x : ExRec, s.ports.fbp = true → s.power.season.get = 0 → s.exch.reduces = [] →
      ((x.group, x.seq) ∉ s.exch.completed → (x.group, x.seq) ∉ s.exch.ended →
        ∀ c ∈ [Instr.exp x, Instr.grant x, Instr.data x, Instr.cancel x], Ends c s fun t => t = { s with out := { s.out with fbp := s.out.fbp ++ [.answer false] } }) ∧
      ((x.group, x.seq) ∈ s.exch.completed → ∀ c ∈ [Instr.exp x, Instr.grant x, Instr.data x, Instr.cancel x],
        Ends c s fun t => t.cnt = s.cnt.set 15 (s.cnt.get 15 + 1) ∧ t.exch = s.exch ∧ t.mem = s.mem ∧ t.mb = s.mb ∧
          t.out = { s.out with fbp := s.out.fbp ++ [.answer true] })) ∧
    (∀ r : Reduce, s.exch.reduces = [r] → s.stat.fwState.get = 2 → r.waits = [] → r.aborts = [] →
      (r.stop = .none → (∃ b ∈ r.blocks, b.received ≠ r.contributions) →
        Ends (.exchReduceComplete r.group r.seq) s fun t => t = s) ∧
      (phaseEnded s r = false → Ends (.exchReduceComplete r.group r.seq) s fun t => t = s) ∧
      (r.stop = .lost → phaseEnded s r = true → Ends (.exchReduceComplete r.group r.seq) s fun t =>
        t.exch.reduces = [] ∧ t.mem = s.mem ∧ t.cap = s.cap ∧ (box t r.mailbox).busy = false ∧
        (box t r.mailbox).code = 0x21 ∧ fld (box t r.mailbox).rsp 9 1 = bit (formedOf r).written ∧ OtherBoxes s t r.mailbox) ∧
      (r.stop = .none → phaseEnded s r = true → (∀ b ∈ r.blocks, b.received = r.contributions) →
        (∀ o ∈ ownersOf r, o ∈ r.sentTo) → Ends (.exchReduceComplete r.group r.seq) s fun t =>
          t.exch.reduces = [] ∧ (r.group, r.seq) ∈ t.exch.completed ∧ t.mem = s.mem ∧ t.cap = s.cap ∧
          (box t r.mailbox).busy = false ∧ (box t r.mailbox).code = 0 ∧ fld (box t r.mailbox).rsp 8 1 = 0 ∧
          fld (box t r.mailbox).rsp 9 1 = bit (formedOf r).written ∧ fld (box t r.mailbox).rsp 12 3 = 0xFFFFFF ∧
          fld (box t r.mailbox).rsp 16 4 = (formedOf r).steps % 2 ^ 32 ∧
          fld (box t r.mailbox).rsp 20 4 = (formedOf r).nonfinite % 2 ^ 32 ∧ OtherBoxes s t r.mailbox))

/-- Compression and poisoned loads (R199, R203, R205, R206, R207): EXCH_COMPRESS is accepted where the unit is enabled
and free, refused where it is not, and BUSY while one runs; done with its last block it completes OK and names the end;
stopped by a loss at its end it has LOST_MEMBER; a poisoned load is logged and stops a reduction or a compression with
FAULT, and an apply run at once, without a resume point. -/
def Obligations.CompressionRunsAndPoisonStops : Prop :=
  ∀ (s : State),
    (∀ (mb : Fin 8) (priv : Bool) (cmd : Line) (p : Plan), Handled s mb priv 0x0E cmd → s.job.plan = some p →
      (s.ctrl.exchEn.get = 0 → Ends (.exchCompress (.issue mb (portOf mb) priv cmd)) s fun t =>
        Answered s t mb cmd 0x12 (s.job.state.toNat + 256 * s.tide.phase.get.toNat) ∧ OnlyAnswer s t mb) ∧
      (∀ c, s.ctrl.exchEn.get = 1 → s.exch.disabled = false → exchStopping s = false → s.exch.compress = some c →
        Ends (.exchCompress (.issue mb (portOf mb) priv cmd)) s fun t =>
          Answered s t mb cmd 0x13 c.mailbox.val ∧ OnlyAnswer s t mb) ∧
      (s.ctrl.exchEn.get = 1 → s.exch.disabled = false → exchStopping s = false → s.exch.compress = none →
        fld cmd 8 8 % 64 = 0 →
        inNear p (fld cmd 8 8) 64 = true → compressFault (s.mem.bytes (fld cmd 8 8) 64) = none →
        Ends (.exchCompress (.issue mb (portOf mb) priv cmd)) s fun t =>
          RunsLong s t mb cmd ∧
          t = { s with
            mb := t.mb, events := t.events, stat := { s.stat with evtOvf := t.stat.evtOvf }
            exch := { s.exch with compress := t.exch.compress } } ∧
          ∃ c, t.exch.compress = some c ∧ c.mailbox = mb ∧ c.mode = fldAt (s.mem.bytes (fld cmd 8 8) 64) 2 1 ∧
            c.elements = fldAt (s.mem.bytes (fld cmd 8 8) 64) 16 4 ∧ c.block = fldAt (s.mem.bytes (fld cmd 8 8) 64) 20 4 ∧
            c.grad = fldAt (s.mem.bytes (fld cmd 8 8) 64) 24 8 ∧ c.out = fldAt (s.mem.bytes (fld cmd 8 8) 64) 40 8 ∧
            c.stop = .none)) ∧
    (∀ c : Compress, s.exch.compress = some c → s.stat.fwState.get = 2 → c.aborts = [] →
      (c.stop = .none → c.block = (c.elements + 4095) / 4096 → Ends .exchCompressComplete s fun t =>
        t.exch.compress = none ∧ t.mem = s.mem ∧ t.cap = s.cap ∧ (box t c.mailbox).busy = false ∧
        (box t c.mailbox).code = 0 ∧ fld (box t c.mailbox).rsp 8 1 = 0 ∧
        fld (box t c.mailbox).rsp 12 4 = (c.elements + 4095) / 4096 % 2 ^ 32 ∧
        fld (box t c.mailbox).rsp 24 8 = c.bytesOut % 2 ^ 64 ∧ OtherBoxes s t c.mailbox) ∧
      (c.stop = .none → rebuilding s = false → c.block + 1 = (c.elements + 4095) / 4096 → Ends .exchCompressComplete s fun t =>
        t.exch.compress = none ∧ (box t c.mailbox).busy = false ∧ (box t c.mailbox).code = 0 ∧
        fld (box t c.mailbox).rsp 12 4 = (c.elements + 4095) / 4096 % 2 ^ 32 ∧ t.tide.phase = s.tide.phase ∧
        t.agree = s.agree) ∧
      (c.stop = .lost → c.block = (c.elements + 4095) / 4096 → Ends .exchCompressComplete s fun t =>
        t.exch.compress = none ∧ t.mem = s.mem ∧ (box t c.mailbox).code = 0x21 ∧ OtherBoxes s t c.mailbox) ∧
      (∀ a : U64, s.log.entries = [] → Ends (.poisonedReadData .compress a) s fun t =>
        t.exch.compress = none ∧ t.mem = s.mem ∧ (box t c.mailbox).code = 0x20 ∧ OtherBoxes s t c.mailbox ∧
        ∃ e, t.log.entries = [e] ∧ e.cls = 4 ∧ e.uncorr = true ∧ e.detail = a)) ∧
    (∀ (r : Reduce) (a : U64), s.exch.reduces = [r] → s.stat.fwState.get = 2 → r.aborts = [] → s.log.entries = [] →
      Ends (.poisonedReadData (.reduce r.group r.seq) a) s fun t =>
        t.exch.reduces = [] ∧ t.mem = s.mem ∧ (box t r.mailbox).code = 0x20 ∧ OtherBoxes s t r.mailbox ∧
        ∃ e, t.log.entries = [e] ∧ e.cls = 4 ∧ e.uncorr = true ∧ e.detail = a) ∧
    (∀ (r : ApplyRun) (a : U64), s.apply.run = some r → r.stop = .none → s.log.entries = [] →
      Ends (.poisonedReadData .apply a) s fun t =>
        t.apply = { s.apply with run := t.apply.run } ∧ t.mem = s.mem ∧ t.mb = s.mb ∧
        (∃ q, t.apply.run = some q ∧ q.stop = .fault ∧ q.layer = r.layer ∧ q.tile = r.tile) ∧
        ∃ e, t.log.entries = [e] ∧ e.cls = 4 ∧ e.uncorr = true ∧ e.detail = a)

/-! ### The apply unit and completions (R145 to R181, R20, R50, R379, R371) -/

/-- The layers an APPLY_RUN covers: first layer, first tile, and the layer at which it ends (R174). -/
abbrev Sys2Proof.RunCovers (r : Recipe) (cmd : Line) (lo tile hi : Nat) : Prop :=
  (fld cmd 0 1 < 128 ∧ lo = 0 ∧ tile = 0 ∧ hi = r.layers.length) ∨
    (128 ≤ fld cmd 0 1 ∧ lo = fld cmd 10 2 ∧ tile = fld cmd 12 2 ∧
      ((fld cmd 14 2 = 0 ∧ hi = r.layers.length) ∨
        (0 < fld cmd 14 2 ∧ fld cmd 14 2 ≤ r.layers.length ∧ hi = min r.layers.length (lo + fld cmd 14 2))))

/-- The apply unit (R145, R154, R167, R174, R177, R179 to R181): RECIPE_LOAD keeps a well-formed image as its recipe in
place of one of the same id, and APPLY_RUN is accepted and its first tiles start, in order, on the clusters their
numbers name; while a run exists both are BUSY; a finished tile of a recipe that loads and stores one FP32 line leaves
that line in the destination stream, or issues it where the line is protected, and frees its cluster; a paused cluster
finishes no tile; a run without tiles left completes OK with the end as its resume point, and one that a loss stopped
has LOST_MEMBER and no resume point. -/
def Obligations.ApplyRunsTilesInOrder : Prop :=
  ∀ (s : State),
    (∀ (mb : Fin 8) (priv : Bool) (cmd : Line) (r : ApplyRun), s.apply.run = some r →
      (Handled s mb priv 0x0B cmd → Ends (.recipeLoad (.issue mb (portOf mb) priv cmd)) s fun t =>
        Answered s t mb cmd 0x13 r.mailbox.val ∧ OnlyAnswer s t mb) ∧
      (Handled s mb priv 0x0C cmd → Ends (.applyRun (.issue mb (portOf mb) priv cmd)) s fun t =>
        Answered s t mb cmd 0x13 r.mailbox.val ∧ OnlyAnswer s t mb)) ∧
    (∀ (mb : Fin 8) (priv : Bool) (cmd : Line) (p : Plan), s.job.plan = some p → s.apply.run = none →
      (Handled s mb priv 0x0B cmd → fld cmd 8 1 ≤ 7 → fld cmd 16 8 % 64 = 0 →
        inNear p (fld cmd 16 8) (fld cmd 24 4) = true → 64 ≤ fld cmd 24 4 → fld cmd 24 4 ≤ 197504 →
        recipeFault (fld cmd 8 1) (s.mem.bytes (fld cmd 16 8) (fld cmd 24 4)) = none →
        (recipeOf (s.mem.bytes (fld cmd 16 8) (fld cmd 24 4))).length ≤ fld cmd 24 4 →
        ((s.apply.recipes.filter fun r => r.id ≠ fld cmd 8 1).map Recipe.length).sum +
          (recipeOf (s.mem.bytes (fld cmd 16 8) (fld cmd 24 4))).length ≤ 262144 →
        Ends (.recipeLoad (.issue mb (portOf mb) priv cmd)) s fun t =>
          Answered s t mb cmd 0 0 ∧
          t = { s with
            mb := t.mb, events := t.events, stat := { s.stat with evtOvf := t.stat.evtOvf }
            apply := { s.apply with recipes := t.apply.recipes } } ∧
          ∃ r : Recipe, t.apply.recipes = (s.apply.recipes.filter fun q => q.id ≠ fld cmd 8 1) ++ [r] ∧
            r.id = fld cmd 8 1 ∧
            r.slots.length = fldAt (s.mem.bytes (fld cmd 16 8) (fld cmd 24 4)) 2 1 ∧
            r.layers.length = fldAt (s.mem.bytes (fld cmd 16 8) (fld cmd 24 4)) 6 2) ∧
      (∀ (r : Recipe) (lo tile hi : Nat), Handled s mb priv 0x0C cmd →
        s.apply.recipes.find? (fun q => q.id = fld cmd 8 1) = some r → RunCovers r cmd lo tile hi →
        lo < r.layers.length → tile < layerTiles r lo →
        fld cmd 24 8 = 0 ∨ (fld cmd 24 8 % 64 = 0 ∧ inNear p (fld cmd 24 8) 128 = true ∧
          fldAt (s.mem.bytes (fld cmd 24 8) 128) 2 6 = 0 ∧ fldAt (s.mem.bytes (fld cmd 24 8) 128) 80 48 = 0) →
        (∀ x ∈ storedExtents r lo hi, extentBad s x = false) → s.ctrl.applyEn.get = 1 → s.apply.state ≠ 3 →
        s.tide.phase.get = 1 ∨ s.tide.phase.get = 6 ∨ (∀ x ∈ storedExtents r lo hi, extentProtected s x = false) →
        recoveryOpen s = false →
        Ends (.applyRun (.issue mb (portOf mb) priv cmd)) s fun t =>
          RunsLong s t mb cmd ∧ t.apply.state = (if s.fold.high then 2 else 1) ∧ t.cap = s.cap ∧ t.tide = s.tide ∧
          t.apply.recipes = s.apply.recipes ∧ t.apply.issued = s.apply.issued ∧
          (s.tier.cursorLine = none → t.mem = s.mem ∧ t.tier = s.tier) ∧
          ∃ q, t.apply.run = some q ∧ q.recipe = r ∧ q.mailbox = mb ∧ q.stop = .none ∧ q.endLayer = hi ∧
            q.step.toNat = (if fld cmd 0 1 < 128 then s.tide.counted.toNat else fld cmd 16 8) ∧
            q.reduceBase = (if fld cmd 24 8 = 0 then 0 else fldAt (s.mem.bytes (fld cmd 24 8) 128) 8 8) ∧
            q.running.get ⟨tile % 4, Nat.mod_lt _ (by decide)⟩ = some (lo, tile) ∧
            (tile + 1 < layerTiles r lo →
              q.running.get ⟨(tile + 1) % 4, Nat.mod_lt _ (by decide)⟩ = some (lo, tile + 1)))) ∧
    (∀ (r : ApplyRun) (c : Fin 4), s.apply.run = some r →
      (clusterPaused s c = true ∨ r.running.get c = none → Ends (.applyTileDone c) s fun t => t = s) ∧
      (∀ (ly : LayerEntry) (b0 b1 : Nat) (more : List Nat), r.running.get c = some (0, 0) → s.apply.state = 1 →
        s.cap.held = [] → r.stop = .none → r.layer = 1 → r.endLayer = 1 → s.apply.switching = none → rebuilding s = false →
        r.recipe.slots = [0x8000000000000000, 0xA400000000000000] → r.recipe.streams = [(0, 0), (0, 0)] →
        r.recipe.layers = [ly] → ly.elements = 16 → ly.bases = b0 :: b1 :: more → b0 % 64 = 0 → b1 % 64 = 0 →
        b1 + 64 ≤ 2 ^ 64 → s.tier.staged = [] → s.tier.rows = [] → s.tier.regions = [] →
        (s.cap.filter = [] → Ends (.applyTileDone c) s fun t =>
          t = { s with
            mem := t.mem, freeCtr := t.freeCtr
            apply := { s.apply with run := t.apply.run, issued := t.apply.issued } } ∧
          (∃ n, t.apply.run = some { r with running := r.running.set c.val none c.isLt, laneOps := n }) ∧
          t.apply.issued.length = s.apply.issued.length ∧
          t.mem.line b1 = s.mem.line b0 ∧ ∀ x, outsideLine b1 x → t.mem.byte x = s.mem.byte x) ∧
        (filtered s b1 = true → Ends (.applyTileDone c) s fun t =>
          t = { s with
            freeCtr := t.freeCtr, apply := { s.apply with run := t.apply.run, issued := t.apply.issued } } ∧
          (∃ n, t.apply.run = some { r with running := r.running.set c.val none c.isLt, laneOps := n }) ∧
          t.apply.issued = s.apply.issued ++ [⟨c, b1, s.mem.line b1, s.mem.line b0, false, false⟩]))) ∧
    (∀ r : ApplyRun, s.apply.run = some r → s.stat.fwState.get = 2 → s.apply.switching = none → r.aborts = [] →
      (r.stop = .none → runIdle s r = false → Ends .applyRunComplete s fun t => t = s) ∧
      (r.stop = .none → runIdle s r = true → Ends .applyRunComplete s fun t =>
          t.apply.run = none ∧ t.apply.state = (if s.ctrl.applyEn.get = 0 then 3 else 0) ∧ t.mem = s.mem ∧
          t.cap = s.cap ∧ (box t r.mailbox).busy = false ∧ (box t r.mailbox).code = 0 ∧
          fld (box t r.mailbox).rsp 8 2 = r.layer % 65536 ∧ fld (box t r.mailbox).rsp 10 2 = r.tile % 65536 ∧
          fld (box t r.mailbox).rsp 12 1 = 0 ∧
          (∀ g, r.lastGtc = some g → fld (box t r.mailbox).rsp 32 8 = (g - r.startGtc).toNat) ∧
          OtherBoxes s t r.mailbox) ∧
      (r.stop = .lost → (∀ c, r.running.get c = none) → Ends .applyRunComplete s fun t =>
        t.apply.run = none ∧ t.mem = s.mem ∧ t.cap = s.cap ∧ (box t r.mailbox).busy = false ∧
        (box t r.mailbox).code = 0x21 ∧ fld (box t r.mailbox).rsp 4 4 = s.agree.removed.toNat ∧
        fld (box t r.mailbox).rsp 8 2 = 0xFFFF ∧ OtherBoxes s t r.mailbox) ∧
      (r.stop = .lost → Ends .applyRunComplete s fun t =>
        t.apply.run = none ∧ (box t r.mailbox).busy = false ∧ (box t r.mailbox).code = 0x21 ∧
        fld (box t r.mailbox).rsp 8 2 = 0xFFFF ∧ OtherBoxes s t r.mailbox))

/-! ### The Beacon and the seasons (R232 to R234, R236, R292, R354, R387 to R391) -/

/-- A Beacon sample (R232, R233, R234, R354): every bucket of classes 0 to 5 gains its events and leaks, saturating; a
class is lasting from a bucket at its threshold until both buckets are empty; junction temperature and supply count
consecutive samples; a class that becomes lasting sets ALERT; a decision of HANDOVER asks for it while HAND_EN is 1; and
health follows. Class 5 counts the heartbeat intervals missed at the open ports since the last sample. Without power,
and at a GTC value that is no multiple of 1,000,000 ns, nothing is sampled. -/
def Obligations.BeaconSampling : Prop :=
  ∀ (s : State) (events : List Nat) (temp supply : Byte) (power : U16),
    (s.power.on = false ∨ s.time.gtc.toNat % 1000000 ≠ 0 → Ends (.beaconSample events temp supply power) s fun t => t = s) ∧
    (s.power.on = true → s.time.gtc.toNat % 1000000 = 0 → s.lat.mended = [] → s.bist.run = none →
      Ends (.beaconSample events temp supply power) s fun t =>
        t = { s with
          beacon := t.beacon, events := t.events, stat := { s.stat with evtOvf := t.stat.evtOvf }
          agree := { s.agree with health := t.agree.health, missed := 0, missMark := t.agree.missMark } } ∧
        (s.power.season.get ≠ 2 → s.ports.lkp = true → ∀ q ∈ openPorts s, (s.time.gtc - t.agree.missMark.get q).toNat < 8000) ∧
        t.beacon.mends = 0 ∧ t.beacon.temp = temp ∧ t.beacon.supply = supply ∧ t.beacon.power = power ∧
        t.beacon.peak.toNat = max s.beacon.peak.toNat power.toNat ∧
        t.beacon.tempAlert = s.beacon.tempAlert ∧ t.beacon.supAlert = s.beacon.supAlert ∧
        t.beacon.handEn = s.beacon.handEn ∧ t.beacon.wakeEn = s.beacon.wakeEn ∧ t.beacon.wake = s.beacon.wake ∧
        (∀ (c : Fin 6) (e : Nat), e = (if c = 5 then
            s.agree.missed + (if s.power.season.get = 2 ∨ s.ports.lkp = false then 0 else ((openPorts s).map (missedOn s)).sum)
            else events.getD c.val 0 + (if c = 0 then s.beacon.mends else 0)) →
          (t.beacon.bktA.get c).toNat = min 4095 ((s.beacon.bktA.get c).toNat + 10 * e - 16) ∧
          (t.beacon.bktB.get c).toNat = min 1048575 ((s.beacon.bktB.get c).toNat + 1000 * e - 64) ∧
          t.beacon.lasting.getLsbD c.val =
            (if 160 ≤ (t.beacon.bktA.get c).toNat ∨ 64000 ≤ (t.beacon.bktB.get c).toNat then true
             else if (t.beacon.bktA.get c).toNat = 0 ∧ (t.beacon.bktB.get c).toNat = 0 then false
             else s.beacon.lasting.getLsbD c.val)) ∧
        t.beacon.hotAlert = (if s.beacon.tempAlert.toNat < temp.toNat then s.beacon.hotAlert + 1 else 0) ∧
        t.beacon.hotHand = (if s.beacon.tempHand.toNat < temp.toNat then s.beacon.hotHand + 1 else 0) ∧
        t.beacon.lowAlert = (if supply.toNat < s.beacon.supAlert.toNat then s.beacon.lowAlert + 1 else 0) ∧
        t.beacon.lowHand = (if supply.toNat < s.beacon.supHand.toNat then s.beacon.lowHand + 1 else 0) ∧
        (8 ≤ t.beacon.hotAlert → t.beacon.lasting.getLsbD 6 = true) ∧
        (8 ≤ t.beacon.lowAlert → t.beacon.lasting.getLsbD 7 = true) ∧
        (t.beacon.alert = true ↔ s.beacon.alert = true ∨
          ∃ c, c < 8 ∧ s.beacon.lasting.getLsbD c = false ∧ t.beacon.lasting.getLsbD c = true) ∧
        (t.beacon.handoverReq = true ↔ s.beacon.handoverReq = true ∨ (s.beacon.handEn = true ∧
          ((s.beacon.lasting.getLsbD 1 = false ∧ t.beacon.lasting.getLsbD 1 = true) ∨ t.beacon.hotHand = 8 ∨
            t.beacon.lowHand = 8))) ∧
        t.agree.health = (if t.beacon.handoverReq then 2 else if t.beacon.lasting ≠ 0 then 1 else 0))

/-- Seasons (R236, R387 to R391). POWER_SET from Summer: an argument above 2 is BAD_ARG at 8, Summer is OK at once,
Autumn waits for no long command of its list and no recovery, Winter for a job without a cove; otherwise the transition
starts. From Autumn, POWER_SET Summer starts Spring. SEASON_REACHED ends the transition: Autumn drops staged data and
answers; Winter keeps the Beacon, image, remaps, partition and memory, and takes MSP and FBP away. A wake request starts
Spring while WAKE_EN is 1. Spring's steps follow one another; from Winter the third needs a good image, else LOAD_FAILED
with cause DIGEST; the last leads to Summer. -/
def Obligations.SeasonsFollowTheirSteps : Prop :=
  ∀ (s : State),
    (∀ (priv : Bool) (cmd : Line), Handled s 5 priv 0x15 cmd → s.power.moving = false →
      (2 < fld cmd 8 1 → Ends (.powerSet (.issue 5 .mgp priv cmd)) s fun t =>
        Answered s t 5 cmd 0x10 8 ∧ OnlyAnswer s t 5) ∧
      (fld cmd 8 1 = 0 → Ends (.powerSet (.issue 5 .mgp priv cmd)) s fun t =>
        Answered s t 5 cmd 0 0 ∧ OnlyAnswer s t 5) ∧
      (∀ m : Fin 8, fld cmd 8 1 = 1 → m ≠ 5 → (box s m).long = true →
        (box s m).op ∈ [0x0C, 0x0D, 0x0E, 0x10, 0x12, 0x13, 0x1B] → (∀ q : Fin 8, q ≠ m → (box s q).long = false) →
        Ends (.powerSet (.issue 5 .mgp priv cmd)) s fun t => Answered s t 5 cmd 0x13 m.val ∧ OnlyAnswer s t 5) ∧
      ((∀ q : Fin 8, (box s q).long = false) → s.bist.test = none →
        (fld cmd 8 1 = 1 → s.recov.state.get ∈ [1, 2, 3, 4, 5, 6, 8] ∨ s.twin.state ≠ 0 →
          Ends (.powerSet (.issue 5 .mgp priv cmd)) s fun t =>
            Answered s t 5 cmd 0x12 (s.job.state.toNat + 256 * s.tide.phase.get.toNat) ∧ OnlyAnswer s t 5) ∧
        (fld cmd 8 1 = 2 → 2 < s.job.state.toNat → Ends (.powerSet (.issue 5 .mgp priv cmd)) s fun t =>
          Answered s t 5 cmd 0x12 (s.job.state.toNat + 256 * s.tide.phase.get.toNat) ∧ OnlyAnswer s t 5) ∧
        ((fld cmd 8 1 = 1 ∧ s.recov.state.get ∈ [0, 7, 9] ∧ s.twin.state = 0) ∨
            (fld cmd 8 1 = 2 ∧ s.job.state.toNat ≤ 2) → Ends (.powerSet (.issue 5 .mgp priv cmd)) s fun t =>
          RunsLong s t 5 cmd ∧ BoxFrame s t 5 ∧
          t = { s with
            mb := t.mb, events := t.events, stat := { s.stat with evtOvf := t.stat.evtOvf }
            power := { s.power with moving := true, target := BitVec.ofNat 2 (fld cmd 8 1), mailbox := some 5 } }))) ∧
    (∀ (priv : Bool) (cmd : Line) (e : CatEntry), Prompt s 5 0x15 cmd → catalogue 0x15 = some e → badByte e cmd = none →
      usesProfile e cmd = false → s.bist.run = none → s.power.season.get = 1 → s.power.moving = false → fld cmd 8 1 = 0 →
      Ends (.powerSet (.issue 5 .mgp priv cmd)) s fun t =>
        RunsLong s t 5 cmd ∧ BoxFrame s t 5 ∧ t.power.season.get = 3 ∧ t.power.moving = true ∧ t.power.target = 0 ∧
        t.power.springStep = 0 ∧ t.power.fromWinter = false ∧ t.power.mailbox = some 5 ∧
        t = { s with
          mb := t.mb, events := t.events, stat := { s.stat with evtOvf := t.stat.evtOvf }, power := t.power }) ∧
    (s.power.moving = false → Ends .seasonReached s fun t => t = s) ∧
    (s.power.moving = true → s.power.wakeKept = false → s.rst.heldMgp = false → s.rst.heldWdog = false →
      (∀ mb : Fin 8, s.power.target = 1 → s.power.mailbox = some mb → s.stat.fwState.get = 2 →
        Ends .seasonReached s fun t =>
          (box t mb).busy = false ∧ (box t mb).done = true ∧ (box t mb).code = 0 ∧
          (box t mb).count = (box s mb).count + 1 ∧ BoxFrame s t mb ∧ t.power.season.get = 1 ∧ t.power.moving = false ∧
          t.power.asleep = true ∧ t.tier.staged = [] ∧ t.tier.rows = [] ∧ t.tier.lastSeq = [] ∧
          t.tier.cursorLine = none ∧ t.tier.flight = [] ∧
          t = { s with
            mb := t.mb, events := t.events, stat := { s.stat with evtOvf := t.stat.evtOvf }
            power := t.power
            tier := { s.tier with
              staged := [], rows := [], lastSeq := [], cursorLine := none, flight := [], loading := t.tier.loading
              schedule := t.tier.schedule } }) ∧
      (s.power.target = 2 → s.ports.wrapped = none → s.cap.held = [] → s.cap.oldReads = [] → s.cap.queue = [] →
        Ends .seasonReached s fun t =>
          t.power.season.get = 2 ∧ t.power.moving = false ∧ t.power.asleep = true ∧ t.ports.msp = false ∧
          t.ports.fbp = false ∧ t.ports.lkp = true ∧ t.ports.mgp = true ∧ t.job.part = s.job.part ∧
          t.job.plan = none ∧ t.job.state = (if s.job.part.isSome then 1 else 0) ∧ t.fuses = s.fuses ∧
          t.fw.image = s.fw.image ∧ t.ctrl.compatA = s.ctrl.compatA ∧ t.lat.remaps = s.lat.remaps ∧
          t.lat.softFb = s.lat.softFb ∧ t.lat.softPs = s.lat.softPs ∧ t.beacon = s.beacon ∧ t.mem = s.mem ∧
          t.tier.regions = [] ∧ t.tier.schedule = [] ∧ t.apply.recipes = [] ∧ t.cap.filter = [] ∧ t.agree.cove = none ∧
          t.pending = s.pending)) ∧
    (s.ports.mgp = true →
      (s.beacon.wakeEn = false → Ends .wake s fun t => t = s) ∧
      (s.power.moving = false → s.power.season.get = 0 → Ends .wake s fun t => t = s) ∧
      (s.beacon.wakeEn = true → s.power.moving = false → s.power.season.get = 1 ∨ s.power.season.get = 2 →
        Ends .wake s fun t =>
          t = { s with
            beacon := { s.beacon with wake := true }
            events := { s.events with delivered := s.events.delivered ++ [⟨4, 0, 1, s.time.gtc⟩] }
            power := { s.power with
              moving := true, target := 0, springStep := 0, fromWinter := decide (s.power.season.get = 2),
              season := V3.all 3 } })) ∧
    (s.power.moving = false → Ends .springStepDone s fun t => t = s) ∧
    (s.power.moving = true → s.power.season.get = 3 → s.power.fromWinter = false →
      (s.power.springStep < 2 → Ends .springStepDone s fun t =>
        t = { s with power := { s.power with springStep := s.power.springStep + 1 } }) ∧
      (2 ≤ s.power.springStep → s.bcast.wokeBy = none → s.rst.heldMgp = false → s.rst.heldWdog = false →
        s.power.mailbox = none → Ends .springStepDone s fun t =>
          t.power.season.get = 0 ∧ t.power.moving = false ∧ t.power.asleep = false ∧ t.power.target = 0 ∧
          t.agree.statusLine.season = 0 ∧
          t = { s with power := t.power, agree := { s.agree with statusLine := t.agree.statusLine } })) ∧
    (s.power.moving = true → s.power.season.get = 3 → s.power.fromWinter = true →
      (s.power.springStep = 0 → Ends .springStepDone s fun t => t = { s with power := { s.power with springStep := 1 } }) ∧
      (s.power.springStep = 1 → s.cap.held = [] → s.cap.oldReads = [] → s.cap.queue = [] → Ends .springStepDone s fun t =>
        t.power = { s.power with springStep := 2 } ∧ t.stat.fwState.get = 1 ∧ t.fw.image = s.fw.image ∧
        t.job.part = s.job.part ∧ t.lat.remaps = s.lat.remaps ∧ t.mem = s.mem ∧ t.ports.msp = s.ports.msp ∧
        t.log.entries = [] ∧ t.beacon = s.beacon) ∧
      (s.power.springStep = 2 → s.stat.fwState.get = 1 → s.fw.checked = false → s.rst.phase = .running →
        (imageGood s = true → Ends .springStepDone s fun t =>
          t = { s with fw := { s.fw with checked := true }, power := { s.power with springStep := 3 } }) ∧
        (imageGood s = false → Ends .springStepDone s fun t =>
          t.stat.fwState.get = 3 ∧ t.stat.fwCause = 5 ∧ t.fw.expected = 0 ∧ t.power = s.power ∧ t.job = s.job ∧
          t.mem = s.mem)) ∧
      (3 ≤ s.power.springStep → s.bcast.wokeBy = none → s.rst.heldMgp = false → s.rst.heldWdog = false →
        s.power.mailbox = none → s.ports.wrapped = none → Ends .springStepDone s fun t =>
          t.power.season.get = 0 ∧ t.power.moving = false ∧ t.stat.fwState.get = 2 ∧
          t.job = { s.job with state := if s.job.part.isSome then 1 else 0 } ∧ t.ports.msp = true ∧ t.ports.fbp = true ∧
          t.ports.lkp = true ∧ t.ports.mgp = true ∧ t.mem = s.mem ∧ t.lat = s.lat ∧ t.fuses = s.fuses))

/-! ### Resets and the firmware image (R273, R292, R310 to R312, R345, R347, R348, R381 to R386) -/

/-- What a reset of the machine does to memory behind MSP and to the verdicts given (R275): with no write held and none
merged, memory is as it was; else only the lines of those writes may differ. -/
abbrev Sys2Proof.KeptByReset (s t : State) : Prop :=
  t.cap = { CapS.reset with verdicts := s.cap.verdicts } ∧
    (s.cap.held = [] → s.cap.oldReads = [] → (∀ c ∈ s.cap.queue, c.tags = []) → t.mem = s.mem) ∧
    (s.tier.staged = [] → s.tier.rows = [] →
      ∀ x, (∀ h ∈ (s.cap.oldReads.flatMap fun o => o.recs) ++ s.cap.held, outsideLine h.acc.line.toNat x) →
        (∀ c ∈ s.cap.queue, ∀ a, lineHome s c.bay c.line = some a → outsideLine a x) → t.mem.byte x = s.mem.byte x)

/-- The reset levels (R273, R345, R347, R348, R381 to R386). A power-on reset leaves every field at its reset value, but
for the fuses, the memory behind MSP and what has been handed over; a removal of power does so too, with no power. A
system reset also spares RST_CAUSE, which gains its cause, and the wrapper's instruction. MGP becomes present once the
reset block has written every macro. A core reset through MGP puts FW_STATE to CHECKING, enables the apply and exchange
units and keeps capture, folds, seals, agreement, log and mailboxes; it joins a core reset that runs, waits for a season
transition, and is refused through another port. The watchdog counts only while firmware runs, on a control core that
no self-test halts. An apply stop that lasts 100 us ends without a resume point. Each unit named is reset alone, when
idle, and otherwise CFG_IGNORED is set. -/
def Obligations.ResetLevels : Prop :=
  ∀ (s : State),
    (Ends .powerOn s fun t => KeptByReset s t ∧ t = { State.reset with
      fuses := s.fuses, mem := t.mem, cap := t.cap
      events := { queue := [], delivered := s.events.delivered }, out := s.out, freeCtr := s.freeCtr
      pending := s.pending }) ∧
    (Ends .powerRemoval s fun t => KeptByReset s t ∧ t = { State.reset with
      fuses := s.fuses, mem := t.mem, cap := t.cap
      events := { queue := [], delivered := s.events.delivered }, out := s.out, freeCtr := s.freeCtr
      pending := s.pending, power := { PowerS.reset with on := false } }) ∧
    (s.power.on = false → (Ends .sysSupply s fun t => t = s) ∧ Ends .sysThermal s fun t => t = s) ∧
    (∀ (c : Instr) (r : ResetS),
      (c = .sysSupply ∧ s.power.on = true ∧ r = { s.rst with sysSupply := true }) ∨
      (c = .sysThermal ∧ s.power.on = true ∧ r = { s.rst with sysThermal := true }) ∨
      (c = .rstCtrlSys .mgp ∧ s.ports.mgp = true ∧ r = { s.rst with sysMgp := true }) →
      Ends c s fun t => KeptByReset s t ∧ t = { State.reset with
        fuses := s.fuses, rst := { r with phase := .initialising, heldMgp := false, heldWdog := false, results := [] }
        mem := t.mem, cap := t.cap
        events := { queue := [], delivered := s.events.delivered }
        ports := { PortS.reset with wir := s.ports.wir, wrapped := s.ports.wrapped.map fun _ => (false, false, false, false) }
        out := s.out, freeCtr := s.freeCtr, pending := s.pending }) ∧
    (∀ (c : Instr) (u : BitVec 4), u ≠ 0 →
      (c ∈ [.rstCtrlSys .fbp, .rstCtrlCore .fbp, .rstCtrlUnit .fbp u] ∧ s.ports.fbp = true ∨
          c ∈ [.rstCtrlSys .tap, .rstCtrlCore .tap, .rstCtrlUnit .tap u] ∧ s.power.on = true →
        s.power.season.get ≠ 2 → Ends c s fun t => t = { s with stat := { s.stat with cfgIgnored := true } }) ∧
      (c ∈ [.rstCtrlSys .fbp, .rstCtrlCore .fbp, .rstCtrlUnit .fbp u] ∧ s.ports.fbp = false ∨
          c ∈ [.rstCtrlSys .tap, .rstCtrlCore .tap, .rstCtrlUnit .tap u] ∧ s.power.on = false ∨
          c ∈ [.rstCtrlSys .mgp, .rstCtrlCore .mgp, .rstCtrlUnit .mgp u] ∧ s.ports.mgp = false ∨
          c ∈ [.rstCtrlSys .lkp, .rstCtrlCore .lkp, .rstCtrlUnit .lkp u] →
        Ends c s fun t => t = s)) ∧
    (s.rst.phase ≠ .initialising → Ends .resetInitDone s fun t => t = s) ∧
    (s.rst.phase = .initialising → s.power.on = true → s.ports.wrapped = none → s.cap.held = [] → s.cap.oldReads = [] →
      s.cap.queue = [] → Ends .resetInitDone s fun t =>
      t = { s with
        rst := { s.rst with phase := .running }
        ports := { s.ports with msp := false, fbp := false, lkp := false, mgp := true }
        events := { queue := [], delivered := s.events.delivered ++ s.events.queue } }) ∧
    (s.ports.mgp = true →
      (s.rst.phase = .coreBooting → Ends (.rstCtrlCore .mgp) s fun t =>
        t = { s with rst := { s.rst with coreMgp := true } }) ∧
      (s.rst.phase = .running → s.power.moving = true → s.bist.run = none → Ends (.rstCtrlCore .mgp) s fun t =>
        t = { s with rst := { s.rst with heldMgp := true } }) ∧
      (s.rst.phase = .running → s.power.moving = false → s.bist.run.isSome → Ends (.rstCtrlCore .mgp) s fun t =>
        t = { s with rst := { s.rst with heldMgp := true }, bist := { s.bist with stop := true } }) ∧
      (s.rst.phase = .running → s.power.moving = false → s.power.season.get = 2 → s.bist.run = none →
        Ends (.rstCtrlCore .mgp) s fun t => t = { s with rst := { s.rst with heldMgp := true } }) ∧
      (s.rst.phase = .running → s.power.moving = false → s.power.season.get ≠ 2 → s.bist.run = none →
        Ends (.rstCtrlCore .mgp) s fun t =>
          t.stat.fwState.get = 1 ∧ t.stat.fwCause = 0 ∧ t.rst.coreMgp = true ∧
          t.ctrl = { s.ctrl with applyEn := V3.all 1, exchEn := V3.all 1 } ∧ t.mb = { s.mb with waiting := [] } ∧
          t.exch.reduces = [] ∧ t.exch.compress = none ∧ t.exch.disabled = false ∧ t.agree = s.agree ∧
          t.job.part = s.job.part ∧ t.job.plan = s.job.plan ∧ t.job.state = s.job.state ∧ t.beacon = s.beacon ∧
          t.log = s.log ∧ t.lat = s.lat ∧ t.fw.image = s.fw.image ∧
          (s.apply.run = none → t.apply.run = none ∧ t.apply.state = 0 ∧ t.rst.phase = .coreBooting) ∧
          (∀ r, s.apply.run = some r → finishesTiles r.stop = true →
            t.apply.run = some { r with stop := .coreReset, aborts := [] } ∧ t.rst.phase = .coreStopping s.time.gtc) ∧
          (∀ r, s.apply.run = some r → finishesTiles r.stop = false →
            t.apply.run = none ∧ t.apply.state = 0 ∧ t.rst.phase = .coreBooting)) ∧
      (s.rst.phase = .running → s.power.moving = false → s.power.season.get ≠ 2 → s.bist.run = none →
        s.apply.run = none → s.exch.reduces = [] → s.exch.compress = none → s.recov.state.get = 0 →
        Ends (.rstCtrlCore .mgp) s fun t =>
          t.stat.fwState.get = 1 ∧ t.stat.fwCause = 0 ∧ t.rst = { s.rst with coreMgp := true, phase := .coreBooting } ∧
          t.ctrl = { s.ctrl with applyEn := V3.all 1, exchEn := V3.all 1 } ∧ t.apply.state = 0 ∧
          t.exch.disabled = false ∧ t.mb = { s.mb with waiting := [] } ∧ t.mem = s.mem ∧ t.cap = s.cap ∧
          t.fold = s.fold ∧ t.digests = s.digests ∧ t.tide.phase = s.tide.phase ∧ t.tide.tideLo = s.tide.tideLo ∧
          t.tide.tideHi = s.tide.tideHi ∧ t.tide.slot = s.tide.slot ∧ t.tide.ownRecord = s.tide.ownRecord ∧
          t.agree = s.agree ∧ t.job.part = s.job.part ∧ t.job.plan = s.job.plan ∧ t.job.state = s.job.state ∧
          t.tier.regions = s.tier.regions ∧ t.tier.schedule = s.tier.schedule ∧ t.beacon = s.beacon ∧ t.log = s.log ∧
          t.cnt = s.cnt ∧ t.ports = s.ports ∧ t.lat = s.lat ∧ t.fw.image = s.fw.image ∧ t.out = s.out)) ∧
    (s.stat.fwState.get ≠ 2 → Ends .watchdogExpiry s fun t => t = s) ∧
    (s.stat.fwState.get = 2 → s.rst.phase = .running → s.power.moving = false → s.power.season.get ≠ 2 →
      s.bist.run = none → s.apply.run = none → s.exch.reduces = [] → s.exch.compress = none → s.recov.state.get = 0 →
      s.log.entries = [] → Ends .watchdogExpiry s fun t =>
        t.stat.fwState.get = 1 ∧ t.rst = { s.rst with coreWdog := true, phase := .coreBooting } ∧ t.mem = s.mem ∧
        t.cap = s.cap ∧ t.fold = s.fold ∧ t.agree = s.agree ∧ t.mb = { s.mb with waiting := [] } ∧
        ∃ e : ErrEntry, t.log.entries = [e] ∧ e.cls = 11 ∧ e.first = s.time.gtc) ∧
    (∀ (g : U64) (r : ApplyRun), s.rst.phase = .coreStopping g → s.apply.run = some r →
      (s.time.gtc.toNat < g.toNat + 100000 → Ends .coreResetStopTimeout s fun t => t = s) ∧
      (g.toNat + 100000 ≤ s.time.gtc.toNat → Ends .coreResetStopTimeout s fun t =>
        t.apply.run = none ∧ t.apply.state = 0 ∧ t.rst.phase = .coreBooting ∧
        ∃ fs, t.rst.results = s.rst.results ++ [(r.mailbox, fs)] ∧ (8, 2, 0xFFFF) ∈ fs ∧ (10, 2, 0xFFFF) ∈ fs) ∧
      (g.toNat + 100000 ≤ s.time.gtc.toNat → s.apply.switching = none → (∀ c, r.running.get c = none) →
        Ends .coreResetStopTimeout s fun t =>
        t = { s with
          freeCtr := s.freeCtr + 1
          apply := { s.apply with run := none, state := 0, layer := 0, tile := 0 }
          rst := { s.rst with
            phase := .coreBooting
            results := s.rst.results ++ [(r.mailbox, applyResults s r 0xFFFF 0xFFFF 0)] } })) ∧
    (s.apply.run = none → Ends .coreResetStopTimeout s fun t => t = s) ∧
    (∀ port : Port, Ends (.rstCtrlUnit port 0) s fun t => t = s) ∧
    (∀ u : BitVec 4, u ≠ 0 → s.ports.mgp = true → coreResetRuns s = true ∨ s.power.moving = true ∨ s.bist.run.isSome →
      Ends (.rstCtrlUnit .mgp u) s fun t => t = { s with stat := { s.stat with cfgIgnored := true } }) ∧
    (s.ports.mgp = true → s.rst.phase = .running → s.power.moving = false → s.bist.run = none →
      (∀ u : BitVec 4, Ends (.rstCtrlUnit .mgp u) s fun t =>
        (∀ i : Fin 4, t.rst.unit.getLsbD i.val = (s.rst.unit.getLsbD i.val || (u.getLsbD i.val && unitIdle s i.val))) ∧
        (t.stat.cfgIgnored = true ↔
          s.stat.cfgIgnored = true ∨ ∃ i : Fin 4, u.getLsbD i.val = true ∧ unitIdle s i.val = false) ∧
        t.mb = s.mb ∧ t.agree = s.agree ∧ t.log = s.log ∧ t.job = s.job) ∧
      (applyState s = 3 → Ends (.rstCtrlUnit .mgp 1) s fun t =>
        t = { s with apply := { s.apply with state := 3 }, rst := { s.rst with unit := s.rst.unit ||| 1 } }) ∧
      (applyState s ≠ 3 → Ends (.rstCtrlUnit .mgp 1) s fun t =>
        t = { s with stat := { s.stat with cfgIgnored := true } }) ∧
      (exchState s = 3 → Ends (.rstCtrlUnit .mgp 2) s fun t =>
        t = { s with exch := { ExchS.reset with disabled := true }, rst := { s.rst with unit := s.rst.unit ||| 2 } }) ∧
      (s.tier.flight = [] → s.tier.progressLine = none →
        Ends (.rstCtrlUnit .mgp 4) s fun t =>
          t = { s with
            tier := { s.tier with halted := 0, staged := [], rows := [], lastSeq := [], haltFlag := false }
            rst := { s.rst with unit := s.rst.unit ||| 4 } }) ∧
      (s.tier.flight ≠ [] → s.tier.halted ≠ 15 →
        Ends (.rstCtrlUnit .mgp 4) s fun t => t = { s with stat := { s.stat with cfgIgnored := true } }) ∧
      (s.recov.state.get = 0 → s.recov.shadow = none → s.recov.handover = none → s.twin.state ≠ 3 →
        Ends (.rstCtrlUnit .mgp 8) s fun t =>
          t = { s with
            recov := { s.recov with halted := 0 }, twin := { s.twin with own := [], theirs := [] }
            rst := { s.rst with unit := s.rst.unit ||| 8 } }) ∧
      (s.twin.state = 3 → Ends (.rstCtrlUnit .mgp 8) s fun t =>
        t = { s with stat := { s.stat with cfgIgnored := true } })) ∧
    (∀ k ∈ [13, 16, 20], s.bist.run.isSome = true → s.bist.left.head? = some k →
      Ends .watchdogExpiry s fun t => t = s) ∧
    (s.ports.mgp = true → Ends (.rstCtrlSys .mgp) s fun t =>
      t.rst = { s.rst with
        sysMgp := true, phase := .initialising, heldMgp := false, heldWdog := false, results := [] } ∧
      t.stat = State.reset.stat ∧ t.job = State.reset.job ∧ t.mb = State.reset.mb ∧ t.fuses = s.fuses)

/-- Firmware comes up (R309 to R312, R384, R385). The boot ROM takes the transaction it expects, drops an earlier one,
and ends the load at a later one with cause GAP; the header's magic, stepping and length are checked at offset 0; the
last byte starts the digest check. LOAD_FAILED waits for offset 0. A transaction while firmware runs is only logged.
What is written anew holds no lattice error any more. A good image is followed by FIRMWARE_READY, which makes every port
present: after a boot in Summer, which also ends a Spring that came from Winter; after a core reset, every interrupted
mailbox has FAULT with detail 0xFFFF. A bad image is LOAD_FAILED with cause DIGEST. -/
def Obligations.FirmwareComesUp : Prop :=
  ∀ (s : State),
    (∀ (off : U32) (bs : List Byte), imageOpen s = false → Ends (.fwImageTransaction off bs) s fun t => t = s) ∧
    (∀ (off : U32) (bs : List Byte), bs.length = 256 → imageOpen s = true →
      (s.stat.fwState.get = 0 →
        (off.toNat < s.fw.expected → Ends (.fwImageTransaction off bs) s fun t => t = s) ∧
        (off.toNat = s.fw.expected → off ≠ 0 → Ends (.fwImageTransaction off bs) s fun t =>
          t.stat.fwState.get = (if s.fw.length ≤ s.fw.expected + 256 then 1 else 0) ∧
          t = { s with
            fw := { s.fw with image := s.fw.image.take s.fw.expected ++ bs, expected := s.fw.expected + 256 }
            lat := { s.lat with errors := s.lat.errors.filter (fun e =>
              e.mac ≠ s.fw.expected / 256 / 384 ∨ e.tile ≠ s.fw.expected / 256 % 384) }
            stat := { s.stat with fwState := t.stat.fwState } }) ∧
        (s.fw.expected = 0 → off = 0 →
          (fldAt bs 0 4 ≠ 0x48594657 → Ends (.fwImageTransaction off bs) s fun t =>
            t.stat.fwState.get = 3 ∧ t.stat.fwCause = 1 ∧ t.fw.expected = 0) ∧
          (fldAt bs 0 4 = 0x48594657 → fldAt bs 6 1 ≠ 0xB0 → Ends (.fwImageTransaction off bs) s fun t =>
            t.stat.fwState.get = 3 ∧ t.stat.fwCause = 2 ∧ t.fw.expected = 0) ∧
          (fldAt bs 0 4 = 0x48594657 → fldAt bs 6 1 = 0xB0 → fldAt bs 16 4 < 4096 ∨ 393216 < fldAt bs 16 4 →
            Ends (.fwImageTransaction off bs) s fun t =>
              t.stat.fwState.get = 3 ∧ t.stat.fwCause = 3 ∧ t.fw.expected = 0) ∧
          (fldAt bs 0 4 = 0x48594657 → fldAt bs 6 1 = 0xB0 → fldAt bs 16 4 % 256 = 0 → 4096 ≤ fldAt bs 16 4 →
            fldAt bs 16 4 ≤ 393216 → Ends (.fwImageTransaction off bs) s fun t =>
              t = { s with
                fw := { s.fw with image := bs, expected := 256, length := fldAt bs 16 4 }
                lat := { s.lat with errors := s.lat.errors.filter fun e => e.mac ≠ 0 ∨ e.tile ≠ 0 } })) ∧
        (s.fw.expected < off.toNat → Ends (.fwImageTransaction off bs) s fun t =>
          t.stat.fwState.get = 3 ∧ t.stat.fwCause = 4 ∧ t.fw.expected = 0 ∧ t.mem = s.mem ∧ t.job = s.job)) ∧
      (s.stat.fwState.get = 3 → off ≠ 0 → Ends (.fwImageTransaction off bs) s fun t => t = s) ∧
      (s.stat.fwState.get = 3 → off = 0 → fldAt bs 0 4 = 0x48594657 → fldAt bs 6 1 = 0xB0 → fldAt bs 16 4 % 256 = 0 →
        4096 ≤ fldAt bs 16 4 → fldAt bs 16 4 ≤ 393216 → Ends (.fwImageTransaction off bs) s fun t =>
          t = { s with
            fw := { s.fw with image := bs, expected := 256, length := fldAt bs 16 4 }
            stat := { s.stat with fwState := V3.all 0, fwCause := 0 }
            lat := { s.lat with errors := s.lat.errors.filter fun e => e.mac ≠ 0 ∨ e.tile ≠ 0 } }) ∧
      (s.stat.fwState.get ≠ 0 → s.stat.fwState.get ≠ 3 → s.log.entries = [] → Ends (.fwImageTransaction off bs) s fun t =>
        t = { s with log := t.log } ∧ ∃ e : ErrEntry, t.log.entries = [e] ∧ e.cls = 10 ∧ e.detail = off.zeroExtend 64)) ∧
    (bootChecks s = false → Ends .bootCheckDone s fun t => t = s) ∧
    (s.stat.fwState.get = 1 → s.fw.checked = false → s.rst.phase = .running ∨ s.rst.phase = .coreBooting →
      (imageGood s = true → Ends .bootCheckDone s fun t => t = { s with
        fw := { s.fw with checked := true }
        power := if s.power.moving ∧ s.power.fromWinter ∧ s.power.springStep = 2 then { s.power with springStep := 3 }
          else s.power }) ∧
      (imageGood s = false → Ends .bootCheckDone s fun t =>
        t.stat.fwState.get = 3 ∧ t.stat.fwCause = 5 ∧ t.fw.expected = 0 ∧ t.fw.image = s.fw.image ∧ t.mem = s.mem ∧
        t.job = s.job ∧ t.rst = s.rst)) ∧
    (s.stat.fwState.get ≠ 1 ∨ s.fw.checked = false → Ends .firmwareReady s fun t => t = s) ∧
    (s.stat.fwState.get = 1 → s.fw.checked = true → s.ports.wrapped = none →
      (s.rst.phase = .running → s.power.moving = true → s.power.fromWinter = true → Ends .firmwareReady s fun t =>
        t.stat.fwState.get = 2 ∧ t.power.season.get = 0 ∧ t.power.moving = false ∧ t.ports.msp = true ∧
        t.ports.fbp = true ∧ t.ports.lkp = true ∧ t.ports.mgp = true) ∧
      (s.rst.phase = .running → s.power.moving = false ∨ s.power.fromWinter = false → Ends .firmwareReady s fun t =>
        t.stat.fwState.get = 2 ∧ t.power.season.get = 0 ∧
        t = { s with
          stat := { s.stat with fwState := t.stat.fwState }
          fw := { s.fw with checked := false }
          lat := { s.lat with errors := s.lat.errors.filter fun e => e.mac ≠ 90 ∧ e.mac ≠ 91 }
          power := { s.power with season := t.power.season, target := 0 }
          ports := { s.ports with msp := true, fbp := true, lkp := true, mgp := true }
          events := { queue := [], delivered := s.events.delivered ++ s.events.queue } }) ∧
      (s.rst.phase = .coreBooting → s.mb.peer = [] →
        (∀ r ∈ s.rst.results, ∀ f ∈ r.2, 8 ≤ f.1) →
        Ends .firmwareReady s fun t =>
          t.stat.fwState.get = 2 ∧
          (∀ m : Fin 8, (box s m).busy = true → (box t m).busy = false ∧ (box t m).long = false ∧
            (box t m).done = true ∧ (box t m).code = 0x20 ∧ (box t m).count = (box s m).count + 1 ∧
            fld (box t m).rsp 4 4 = 0xFFFF) ∧
          (∀ m : Fin 8, (box s m).busy = false → box t m = box s m) ∧
          ((box s 5).busy = false → s.events.queue = [] → t.events = s.events ∧ t.stat.evtOvf = s.stat.evtOvf) ∧
          t = { s with
            mb := { s.mb with boxes := t.mb.boxes, waiting := [] }
            events := t.events
            stat := { s.stat with fwState := t.stat.fwState, evtOvf := t.stat.evtOvf }
            fw := { s.fw with checked := false }
            lat := { s.lat with errors := s.lat.errors.filter fun e => e.mac ≠ 90 ∧ e.mac ≠ 91 }
            rst := { s.rst with phase := .running, results := [] }
            ports := { s.ports with msp := true, fbp := true, lkp := true, mgp := true } }))

/-! ### The lattice code, fences, self-test and time (R60, R293 to R296, R305, R339, R352, R358 to R377, R394 to R398) -/

/-- Scrubs and remaps (R359 to R371). A tile with one bad symbol is mended, counted and logged, and its word is remapped
at the second mend within a second; an uncorrectable tile is logged, kept, and does what its macro's owner does about
it. LATTICE_REMAP checks its fields, installs into the first free entry, and releases; HY_LATTICE writes entries unless
the life-cycle state makes it read-only. The digests that wait for a recomputation are formed from their bays at home.
-/
def Obligations.LatticeScrubsAndRemaps : Prop :=
  ∀ (s : State),
    (∀ (m tile : Nat) (upset : List (Nat × Byte)) (live : Bool),
      (s.power.on = false ∨ s.power.season.get = 2 ∨ macroTiles m ≤ tile →
        Ends (.patrolScrub m tile upset live) s fun t => t = s) ∧
      (s.power.on = true → s.power.season.get ≠ 2 → s.rst.phase = .running → tile < macroTiles m → s.log.entries = [] →
        (judgeTile (tilePattern s m tile upset) = .clean → Ends (.patrolScrub m tile upset live) s fun t =>
          t = { s with lat := { s.lat with errors := s.lat.errors.filter fun e => !decide (e.mac = m ∧ e.tile = tile) } }) ∧
        (∀ sym, judgeTile (tilePattern s m tile upset) = .data sym →
          (s.lat.mended = [] → Ends (.patrolScrub m tile upset live) s fun t =>
            t = { s with
              lat := { s.lat with
                corr := true, lastMacro := BitVec.ofNat 10 m, lastTile := BitVec.ofNat 20 tile
                lastSymbol := BitVec.ofNat 5 sym
                errors := s.lat.errors.filter fun e => !decide (e.mac = m ∧ e.tile = tile)
                mended := [(m, tile * 32 + sym, 1, s.time.gtc)] }
              beacon := { s.beacon with mends := s.beacon.mends + 1 }
              cnt := s.cnt.set 21 (s.cnt.get 21 + 1), log := t.log } ∧
            ∃ e : ErrEntry, t.log.entries = [e] ∧ e.cls = 0 ∧ e.uncorr = false ∧ e.first = s.time.gtc ∧
              e.detail = BitVec.ofNat 64 (tile + sym * 2 ^ 24 + m * 2 ^ 32)) ∧
          (∀ g : U64, s.lat.mended = [(m, tile * 32 + sym, 1, g)] → s.time.gtc.toNat < g.toNat + 1000000000 →
            s.stat.fwState.get = 2 → s.lat.remaps = [] → 40 ≤ m → Ends (.patrolScrub m tile upset live) s fun t =>
              t.lat.remaps = [⟨m, 0, tile * 32 + sym⟩] ∧ t.lat.mended = [] ∧ t.lat.softFb = s.lat.softFb ∧
              t.lat.softPs = s.lat.softPs ∧ t.mem = s.mem)) ∧
        (judgeTile (tilePattern s m tile upset) = .uncorrectable → s.ports.mgp = true →
          (live = false → Ends (.patrolScrub m tile upset live) s fun t =>
            t = { s with
              lat := { s.lat with
                uncorr := true, lastMacro := BitVec.ofNat 10 m, lastTile := BitVec.ofNat 20 tile
                errors := (s.lat.errors.filter fun e => !decide (e.mac = m ∧ e.tile = tile)) ++
                  [⟨m, tile, tilePattern s m tile upset, true⟩] }
              log := t.log
              events := { s.events with delivered := s.events.delivered ++ [⟨0x0A, 1, 1, s.time.gtc⟩] } } ∧
            ∃ e : ErrEntry, t.log.entries = [e] ∧ e.cls = 1 ∧ e.uncorr = true ∧ e.first = s.time.gtc ∧
              e.detail = BitVec.ofNat 64 (tile + m * 2 ^ 32)) ∧
          (live = true →
            (m = 90 ∨ m = 91 ∨ m < 4 → s.stat.fwState.get = 2 → Ends (.patrolScrub m tile upset live) s fun t =>
              t.stat.fwState.get = 4 ∧ t.mem = s.mem ∧ t.cap = s.cap ∧ t.fold = s.fold ∧ t.tide = s.tide ∧
              t.agree = s.agree) ∧
            (4 ≤ m → m < 40 → codingActive s = true → Ends (.patrolScrub m tile upset live) s fun t =>
              t.cap = { s.cap with barred := true } ∧ t.agree.withdrawn = true ∧ t.agree.statusLine.jobTag = 0 ∧
              t.stat.fwState = s.stat.fwState ∧ t.mem = s.mem ∧ t.tide = s.tide) ∧
            (∀ c, c < 4 → m = 73 + c → s.tier.progressLine = none → Ends (.patrolScrub m tile upset live) s fun t =>
              t.tier = { s.tier with halted := s.tier.halted ||| BitVec.ofNat 4 (2 ^ c), haltFlag := true } ∧
              t.stat.fwState = s.stat.fwState ∧ t.mem = s.mem ∧ t.cap = s.cap))))) ∧
    (∀ (mb : Fin 8) (priv : Bool) (cmd : Line), Handled s mb priv 0x19 cmd →
      (96 ≤ fld cmd 8 2 → Ends (.latticeRemap (.issue mb (portOf mb) priv cmd)) s fun t =>
        Answered s t mb cmd 0x10 8 ∧ OnlyAnswer s t mb) ∧
      (fld cmd 8 2 < 96 → 1 < fld cmd 10 1 → Ends (.latticeRemap (.issue mb (portOf mb) priv cmd)) s fun t =>
        Answered s t mb cmd 0x10 10 ∧ OnlyAnswer s t mb) ∧
      (fld cmd 8 2 < 96 → fld cmd 10 1 ≤ 1 → macroWords (fld cmd 8 2) ≤ fld cmd 12 4 →
        Ends (.latticeRemap (.issue mb (portOf mb) priv cmd)) s fun t => Answered s t mb cmd 0x10 12 ∧ OnlyAnswer s t mb) ∧
      (40 ≤ fld cmd 8 2 → fld cmd 8 2 < 96 → fld cmd 12 4 < macroWords (fld cmd 8 2) →
        (fld cmd 10 1 = 0 → (∀ r ∈ s.lat.remaps, r.mac ≠ fld cmd 8 2) →
          Ends (.latticeRemap (.issue mb (portOf mb) priv cmd)) s fun t =>
            Answered s t mb cmd 0 0 ∧ BoxFrame s t mb ∧
            t = { s with
              mb := t.mb, events := t.events, stat := { s.stat with evtOvf := t.stat.evtOvf }
              lat := { s.lat with remaps := s.lat.remaps ++ [⟨fld cmd 8 2, 0, fld cmd 12 4⟩] } }) ∧
        (fld cmd 10 1 = 0 → (∀ j, j < 8 → ∃ r ∈ s.lat.remaps, r.mac = fld cmd 8 2 ∧ r.entry = j) →
          (∀ r ∈ s.lat.remaps, r.mac = fld cmd 8 2 → r.word ≠ fld cmd 12 4) →
          Ends (.latticeRemap (.issue mb (portOf mb) priv cmd)) s fun t =>
            Answered s t mb cmd 0x30 0xFFFF ∧ BoxFrame s t mb ∧
            t = { s with
              mb := t.mb, events := t.events, stat := { s.stat with evtOvf := t.stat.evtOvf }
              lat := { s.lat with remapFull := true } }) ∧
        (fld cmd 10 1 = 1 → (∀ r ∈ s.lat.remaps, r.mac = fld cmd 8 2 → r.word ≠ fld cmd 12 4) →
          Ends (.latticeRemap (.issue mb (portOf mb) priv cmd)) s fun t =>
            Answered s t mb cmd 0x12 (s.job.state.toNat + 256 * s.tide.phase.get.toNat) ∧ OnlyAnswer s t mb) ∧
        (fld cmd 10 1 = 1 → (∃ r ∈ s.lat.remaps, r.mac = fld cmd 8 2 ∧ r.word = fld cmd 12 4) →
          Ends (.latticeRemap (.issue mb (portOf mb) priv cmd)) s fun t =>
            Answered s t mb cmd 0 0 ∧ BoxFrame s t mb ∧
            (∀ r, r ∈ t.lat.remaps ↔ r ∈ s.lat.remaps ∧ ¬ (r.mac = fld cmd 8 2 ∧ r.word = fld cmd 12 4)) ∧
            t = { s with
              mb := t.mb, events := t.events, stat := { s.stat with evtOvf := t.stat.evtOvf }
              lat := { s.lat with remaps := t.lat.remaps } }))) ∧
    (∀ w : LatticeWrite, s.power.on = false ∨ s.fuses.lcs = 1 → Ends (.hyLatticeAccess w) s fun t => t = s) ∧
    (s.power.on = true → s.fuses.lcs ≠ 1 →
      (∀ (m : Nat) (entry : Fin 8) (word : BitVec 20) (valid : Bool), 40 ≤ m → word.toNat < macroWords m →
        Ends (.hyLatticeAccess (.setEntry m entry word valid)) s fun t =>
          t = { s with lat := { s.lat with remaps := t.lat.remaps } } ∧
          ∀ r, r ∈ t.lat.remaps ↔ (r ∈ s.lat.remaps ∧ ¬ (r.mac = m ∧ r.entry = entry.val)) ∨
            (valid = true ∧ r = ⟨m, entry.val, word.toNat⟩)) ∧
      Ends (.hyLatticeAccess .makePermanent) s fun t =>
        t = { s with
          fuses := { s.fuses with
            fbRows := s.fuses.fbRows + BitVec.ofNat 8 s.lat.softFb.length
            psRows := s.fuses.psRows + BitVec.ofNat 8 s.lat.softPs.length }
          lat := { s.lat with softFb := [], softPs := [] } }) ∧
    (s.cap.recompute = [] → Ends .digestRecomputeDone s fun t => t = s) ∧
    (s.cap.recompute ≠ [] → s.cap.queue = [] → s.cap.oldReads = [] → s.cap.held = [] → Ends .digestRecomputeDone s fun t =>
      t.cap = { s.cap with recompute := [] } ∧ t.mem = s.mem ∧
      (∀ b ∈ s.cap.recompute, digestOf t b = homeDigest s b) ∧
      (∀ b, b ∉ s.cap.recompute → digestOf t b = digestOf s b) ∧
      (∀ e ∈ t.lat.errors, e ∈ s.lat.errors ∧ ¬ (40 ≤ e.mac ∧ e.mac ≤ 43)))

/-- Fences and self-test (R295, R323, R375 to R377, R394 to R398). UNIT_FENCE checks its fields; the first GF slice is
fenced, a second is WRONG_STATE; the reserve cluster is fenced, a named one gives way to it at once while nothing runs;
a unit that is not fenced is WRONG_STATE to return; fence-and-test goes on until its signature comes, and completes OK
whatever the verdict. BIST_RUN is restricted in Field-Production, checks its set and mask, and runs; each unit's
signature is compared, and the last ends the run with its results together. The wrapper's instruction is decoded, and
under WS_SAFE, WS_EXTEST and WS_CLAMP every port is absent to its partner. -/
def Obligations.FencesAndSelfTests : Prop :=
  ∀ (s : State),
    (∀ (mb : Fin 8) (priv : Bool) (cmd : Line), Handled s mb priv 0x18 cmd →
      (1 < fld cmd 8 1 → Ends (.unitFence (.issue mb (portOf mb) priv cmd)) s fun t =>
        Answered s t mb cmd 0x10 8 ∧ OnlyAnswer s t mb) ∧
      ((fld cmd 8 1 = 0 ∧ 5 ≤ fld cmd 9 1) ∨ (fld cmd 8 1 = 1 ∧ 8 ≤ fld cmd 9 1) →
        Ends (.unitFence (.issue mb (portOf mb) priv cmd)) s fun t => Answered s t mb cmd 0x10 9 ∧ OnlyAnswer s t mb) ∧
      (fld cmd 8 1 = 1 → fld cmd 9 1 < 8 →
        (2 < fld cmd 10 1 → Ends (.unitFence (.issue mb (portOf mb) priv cmd)) s fun t =>
          Answered s t mb cmd 0x10 10 ∧ OnlyAnswer s t mb) ∧
        (fld cmd 10 1 = 0 → s.apply.sliceFenced = none → Ends (.unitFence (.issue mb (portOf mb) priv cmd)) s fun t =>
          (box t mb).busy = false ∧ (box t mb).long = false ∧ (box t mb).code = 0 ∧
          (box t mb).count = (box s mb).count + 2 ∧ OtherBoxes s t mb ∧
          t = { s with
            mb := t.mb, events := t.events, stat := { s.stat with evtOvf := t.stat.evtOvf }, log := t.log
            apply := { s.apply with sliceFenced := some (fld cmd 9 1) } }) ∧
        (∀ i, fld cmd 10 1 = 0 → s.apply.sliceFenced = some i → i ≠ fld cmd 9 1 →
          Ends (.unitFence (.issue mb (portOf mb) priv cmd)) s fun t =>
            Answered s t mb cmd 0x12 (s.job.state.toNat + 256 * s.tide.phase.get.toNat) ∧ OnlyAnswer s t mb) ∧
        (fld cmd 10 1 = 1 → s.bist.state ≠ 1 → s.apply.sliceFenced = none →
          Ends (.unitFence (.issue mb (portOf mb) priv cmd)) s fun t =>
            RunsLong s t mb cmd ∧ OtherBoxes s t mb ∧ t.bist.state = 1 ∧ t.bist.set = 0x81 ∧
            t.bist.test = some (some mb, true, fld cmd 9 1) ∧ t.apply.sliceFenced = some (fld cmd 9 1) ∧
            t.mem = s.mem ∧ t.cap = s.cap ∧ t.ctrl = s.ctrl) ∧
        (fld cmd 10 1 = 2 → s.apply.sliceFenced = some (fld cmd 9 1) →
          Ends (.unitFence (.issue mb (portOf mb) priv cmd)) s fun t =>
            Answered s t mb cmd 0 0 ∧ OtherBoxes s t mb ∧ t.apply = { s.apply with sliceFenced := none } ∧
            t.ctrl = s.ctrl ∧ t.mem = s.mem) ∧
        (fld cmd 10 1 = 2 → s.apply.sliceFenced = none → Ends (.unitFence (.issue mb (portOf mb) priv cmd)) s fun t =>
          Answered s t mb cmd 0x12 (s.job.state.toNat + 256 * s.tide.phase.get.toNat) ∧ OnlyAnswer s t mb)) ∧
      (fld cmd 8 1 = 0 → fld cmd 9 1 < 5 → fld cmd 10 1 = 0 → s.apply.switching = none → s.apply.run = none →
        (∀ l : Fin 4, physOf s.ctrl l < 5 ∧ ∀ k : Fin 4, k ≠ l → physOf s.ctrl k ≠ physOf s.ctrl l) →
        ((∀ l : Fin 4, physOf s.ctrl l ≠ fld cmd 9 1) → Ends (.unitFence (.issue mb (portOf mb) priv cmd)) s fun t =>
          (box t mb).busy = false ∧ (box t mb).code = 0 ∧ OtherBoxes s t mb ∧ t.ctrl = s.ctrl ∧
          t.apply = { s.apply with fenced := addNew (fld cmd 9 1) s.apply.fenced }) ∧
        (∀ l : Fin 4, physOf s.ctrl l = fld cmd 9 1 → s.apply.fenced = [] →
          Ends (.unitFence (.issue mb (portOf mb) priv cmd)) s fun t =>
            (box t mb).busy = false ∧ (box t mb).code = 0 ∧ OtherBoxes s t mb ∧ t.apply.fenced = [fld cmd 9 1] ∧
            (∀ k : Fin 4, k ≠ l → physOf t.ctrl k = physOf s.ctrl k) ∧ physOf t.ctrl l < 5 ∧
            (∀ k : Fin 4, physOf t.ctrl k ≠ fld cmd 9 1) ∧ t.mem = s.mem) ∧
        (∀ l : Fin 4, physOf s.ctrl l = fld cmd 9 1 → reserveOf s.ctrl ∈ s.apply.fenced →
          Ends (.unitFence (.issue mb (portOf mb) priv cmd)) s fun t =>
            Answered s t mb cmd 0x12 (s.job.state.toNat + 256 * s.tide.phase.get.toNat) ∧ OnlyAnswer s t mb))) ∧
    (∀ signature : U64,
      (s.bist.test = none → Ends (.fenceTestDone signature) s fun t => t = s) ∧
      (∀ (mb : Fin 8) (i : Nat), s.bist.test = some (some mb, true, i) → s.stat.fwState.get = 2 → i < 8 →
        Ends (.fenceTestDone signature) s fun t =>
          (box t mb).busy = false ∧ (box t mb).done = true ∧ (box t mb).code = 0 ∧
          (box t mb).count = (box s mb).count + 1 ∧ OtherBoxes s t mb ∧ t.bist.state = 2 ∧ t.bist.test = none ∧
          t.bist.sig = signature ∧ t.apply = s.apply ∧
          (signature = fusedSignature s 0x81 i → t.bist.verdict = 0 ∧ t.bist.fail = 0 ∧ t.log = s.log) ∧
          (signature ≠ fusedSignature s 0x81 i → t.bist.verdict = 1 ∧ t.bist.fail = BitVec.ofNat 32 (2 ^ i)))) ∧
    (∀ (mb : Fin 8) (priv : Bool) (cmd : Line), Handled s mb priv 0x16 cmd →
      (s.fuses.lcs = 1 → mb.val = 6 ∨ fld cmd 8 1 ≠ 0 → Ends (.bistRun (.issue mb (portOf mb) priv cmd)) s fun t =>
        Answered s t mb cmd 0x11 (if mb.val = 6 then 2 else 1) ∧ OnlyAnswer s t mb) ∧
      (s.fuses.lcs ≠ 1 → 3 < fld cmd 8 1 → Ends (.bistRun (.issue mb (portOf mb) priv cmd)) s fun t =>
        Answered s t mb cmd 0x10 8 ∧ OnlyAnswer s t mb) ∧
      (s.fuses.lcs ≠ 1 → fld cmd 8 1 = 0 →
        (∀ b, b < 32 → (b = 15 ∨ 22 ≤ b) → (fld cmd 12 4).testBit b = true →
          Ends (.bistRun (.issue mb (portOf mb) priv cmd)) s fun t => Answered s t mb cmd 0x10 12 ∧ OnlyAnswer s t mb) ∧
        ((∀ b, b < 32 → (b = 15 ∨ 22 ≤ b) → (fld cmd 12 4).testBit b = false) →
          (2 < s.job.state.toNat → Ends (.bistRun (.issue mb (portOf mb) priv cmd)) s fun t =>
            Answered s t mb cmd 0x12 (s.job.state.toNat + 256 * s.tide.phase.get.toNat) ∧ OnlyAnswer s t mb) ∧
          (s.job.state.toNat ≤ 2 → (∀ m : Fin 8, m ≠ mb → (box s m).long = false) → s.bist.test = none →
            Ends (.bistRun (.issue mb (portOf mb) priv cmd)) s fun t =>
              RunsLong s t mb cmd ∧ BoxFrame s t mb ∧ t.bist.state = 1 ∧ t.bist.set = 0 ∧ t.bist.verdict = 2 ∧
              t.bist.fail = 0 ∧ t.bist.run = some mb ∧
              (∀ u, u ∈ t.bist.left ↔ u < 22 ∧ u ≠ 15 ∧ (fld cmd 12 4 = 0 ∨ (fld cmd 12 4).testBit u = true)) ∧
              t = { s with
                mb := t.mb, events := t.events, stat := { s.stat with evtOvf := t.stat.evtOvf }, bist := t.bist })))) ∧
    (∀ signature : U64,
      (s.bist.run = none → Ends (.bistUnitDone signature) s fun t => t = s) ∧
      (∀ (mb : Fin 8) (u : Nat) (rest : List Nat), s.bist.run = some mb → s.bist.left = u :: rest →
        s.stat.fwState.get = 2 →
        (rest ≠ [] → s.bist.stop = false → signature = fusedSignature s s.bist.set.toNat u →
          Ends (.bistUnitDone signature) s fun t =>
            t = { s with bist := { s.bist with left := rest, lastSig := signature } }) ∧
        (rest ≠ [] → s.bist.stop = false → signature ≠ fusedSignature s s.bist.set.toNat u → u < 32 →
          Ends (.bistUnitDone signature) s fun t =>
            t.bist.left = rest ∧ t.bist.failed = s.bist.failed ||| BitVec.ofNat 32 (2 ^ u) ∧ t.bist.run = some mb ∧
            t.mb = s.mb ∧ t.mem = s.mem ∧ (s.log.entries = [] → ∃ e : ErrEntry, t.log.entries = [e] ∧ e.cls = 13)) ∧
        (rest = [] → s.bist.stop = false → s.bist.aborts = [] → s.rst.heldMgp = false → s.rst.heldWdog = false →
          signature = fusedSignature s s.bist.set.toNat u → Ends (.bistUnitDone signature) s fun t =>
            t.bist.state = 2 ∧ t.bist.run = none ∧ t.bist.fail = s.bist.failed ∧
            t.bist.verdict = (if s.bist.failed = 0 then 0 else 1) ∧ (box t mb).busy = false ∧ (box t mb).code = 0 ∧
            fld (box t mb).rsp 8 1 = (if s.bist.failed = 0 then 0 else 1) ∧
            fld (box t mb).rsp 12 4 = s.bist.failed.toNat ∧ OtherBoxes s t mb ∧ t.mem = s.mem ∧ t.log = s.log))) ∧
    (∀ code : Option (BitVec 4), s.power.on = false → Ends (.wrapperInstructionUpdate code) s fun t => t = s) ∧
    (s.power.on = true →
      (∀ c : BitVec 4, s.ports.wrapped = none → s.cap.held = [] → s.cap.oldReads = [] → s.cap.queue = [] →
        c = 4 ∨ (s.fuses.lcs ≠ 1 ∧ (c = 1 ∨ c = 3)) → Ends (.wrapperInstructionUpdate (some c)) s fun t =>
          t = { s with ports := { s.ports with
            wir := c, wrapped := some (s.ports.msp, s.ports.fbp, s.ports.lkp, s.ports.mgp)
            msp := false, fbp := false, lkp := false, mgp := false } }) ∧
      (∀ c : BitVec 4, s.ports.wrapped = none → c = 0 ∨ 4 < c.toNat ∨ (s.fuses.lcs = 1 ∧ (c = 1 ∨ c = 3)) →
        Ends (.wrapperInstructionUpdate (some c)) s fun t => t = { s with ports := { s.ports with wir := 0 } }) ∧
      (∀ p : Bool × Bool × Bool × Bool, s.ports.wrapped = some p → s.ports.msp = false → s.events.queue = [] →
        Ends (.wrapperInstructionUpdate none) s fun t =>
          t = { s with ports := { s.ports with
            wir := 0, wrapped := none, msp := p.1, fbp := p.2.1, lkp := p.2.2.1, mgp := p.2.2.2 } }))

/-- Time and voted copies (R293, R294, R304, R305, R339, R352). A reference edge sets the time, counts the microsecond
boundaries of the _US counters whose condition holds, fills the buckets, rewrites every copy of a V3 field from the
majority, with one CNT_VOTE_FIX and a VOTE entry for each copy repaired and no value changed, and takes the snapshot. An
edge with another value than the one due, or a GTC fault, clears GTC_LOCK, sets GTC_FAULT, is logged, raises event 0x09
and leaves the time to the delay line; four good edges later the input's value is the time, and timers shift with it. -/
def Obligations.EdgesKeepTimeAndVotedCopies : Prop :=
  ∀ (s : State),
    (∀ (edges : Nat) (value : U64) (rate : BitVec 12),
      (s.power.on = false → Ends (.referenceEdge edges value rate) s fun t => t = s) ∧
      (s.power.on = true → s.time.onDelayLine = false → 1 ≤ s.time.goodEdges →
        value = s.time.gtc + BitVec.ofNat 64 (10 * edges) → Ends (.referenceEdge edges value rate) s fun t =>
          t.time.gtc = value ∧ t.time.onDelayLine = false ∧ t.time.goodEdges = min 4 (s.time.goodEdges + edges) ∧
          t.ports = { s.ports with gtcLock := s.ports.gtcLock || decide (4 ≤ s.time.goodEdges + edges) } ∧
          t.time.snap = snapshot t ∧
          (∀ f ∈ copyFaults t, f.2 = 0) ∧
          t.cnt.get 22 = s.cnt.get 22 + BitVec.ofNat 32 ((copyFaults s).map Prod.snd).sum ∧
          ((copyFaults s).all (fun f => f.2 = 0) = true → t.log = s.log) ∧
          (s.log.entries = [] → (∃ f ∈ copyFaults s, 0 < f.2) → ∃ e ∈ t.log.entries, e.cls = 14) ∧
          t.ctrl.capEn.get = s.ctrl.capEn.get ∧ t.ctrl.foldEn.get = s.ctrl.foldEn.get ∧
          t.ctrl.applyEn.get = s.ctrl.applyEn.get ∧ t.ctrl.exchEn.get = s.ctrl.exchEn.get ∧
          t.ctrl.compatA.get = s.ctrl.compatA.get ∧ (∀ l : Fin 4, physOf t.ctrl l = physOf s.ctrl l) ∧
          t.stat.fwState.get = s.stat.fwState.get ∧ t.tide.slot.get = s.tide.slot.get ∧
          t.tide.phase.get = s.tide.phase.get ∧ sealedTide t = sealedTide s ∧ t.tide.n.get = s.tide.n.get ∧
          t.agree.live.get = s.agree.live.get ∧ t.agree.epoch.get = s.agree.epoch.get ∧
          t.recov.state.get = s.recov.state.get ∧ t.recov.lost.get = s.recov.lost.get ∧
          t.power.season.get = s.power.season.get ∧
          t.cnt.get 8 = s.cnt.get 8 + (if 3145728 ≤ fbBytes s.fold.buffer
            then BitVec.ofNat 32 (value.toNat / 1000 - s.time.gtc.toNat / 1000) else 0) ∧
          t.cnt.get 11 = s.cnt.get 11 + (if 256 ≤ s.cap.queue.length
            then BitVec.ofNat 32 (value.toNat / 1000 - s.time.gtc.toNat / 1000) else 0) ∧
          (s.time.boundary = true → value.toNat / 1000 = s.time.gtc.toNat / 1000 + 1 →
            t.time.rate = rate ∧ t.time.belowSlow = decide (rate.toNat < 900) ∧
            t.time.rateMin = (if s.time.measured = true ∧ s.time.rateMin.toNat ≤ rate.toNat then s.time.rateMin else rate)) ∧
          (value.toNat / 1000 = s.time.gtc.toNat / 1000 → t.time.rate = s.time.rate ∧ t.time.rateMin = s.time.rateMin) ∧
          t.fold.tokPlus = min 8192 (s.fold.tokPlus + s.fold.share * 480 * edges) ∧
          t.mem = s.mem ∧ t.cap = s.cap ∧ t.mb = s.mb ∧ t.job = s.job ∧ t.tier = s.tier ∧ t.digests = s.digests ∧
          t.apply = s.apply ∧ t.exch = s.exch ∧ t.beacon = s.beacon ∧ (s.recov.handover = none → t.out = s.out)) ∧
      (s.power.on = true → s.time.onDelayLine = false → 1 ≤ s.time.goodEdges →
        value ≠ s.time.gtc + BitVec.ofNat 64 (10 * edges) → s.ports.mgp = true → s.log.entries = [] →
        Ends (.referenceEdge edges value rate) s fun t =>
          t.time.gtc = s.time.gtc + BitVec.ofNat 64 (10 * edges) ∧ t.time.onDelayLine = true ∧
          t.ports = { s.ports with gtcLock := false, gtcFault := true } ∧
          (∃ e ∈ t.log.entries, e.cls = 9) ∧ (∃ e ∈ t.events.delivered, e.code = 9 ∧ e.arg = 0) ∧
          t.mem = s.mem ∧ t.cap = s.cap ∧ t.mb = s.mb)) ∧
    (∀ kind : GtcFaultKind,
      (s.power.on = false → Ends (.gtcFault kind) s fun t => t = s) ∧
      (s.power.on = true → s.ports.mgp = true → s.log.entries = [] → Ends (.gtcFault kind) s fun t =>
        t = { s with
          ports := { s.ports with gtcLock := false, gtcFault := true }
          time := { s.time with onDelayLine := true, goodEdges := 0 }
          log := t.log, events := t.events } ∧
        (∃ e : ErrEntry, t.log.entries = [e] ∧ e.cls = 9 ∧ e.first = s.time.gtc) ∧
        ∃ e ∈ t.events.delivered, e.code = 9 ∧ e.arg = 0 ∧ e.gtc = s.time.gtc)) ∧
    (∀ value : U64,
      (s.power.on = false ∨ s.time.onDelayLine = false → Ends (.gtcRelock value) s fun t => t = s) ∧
      (s.power.on = true → s.time.onDelayLine = true → Ends (.gtcRelock value) s fun t =>
        t.time = { s.time with gtc := value, onDelayLine := false, goodEdges := 4 } ∧
        t.ports = { s.ports with gtcLock := true } ∧
        (∀ q : Fin 8, value - t.agree.lastBeat.get q = s.time.gtc - s.agree.lastBeat.get q) ∧
        (∀ q : Fin 8, value - t.agree.missMark.get q = s.time.gtc - s.agree.missMark.get q) ∧
        value - t.bcast.lastFragment = s.time.gtc - s.bcast.lastFragment ∧ t.mem = s.mem ∧ t.cap = s.cap ∧
        t.fold = s.fold ∧ t.job = s.job ∧ t.mb = s.mb ∧ t.log = s.log ∧ t.events = s.events))

/-! ### Codes, steps, memory and reset (R90, R91, R341, R358, R359) -/

/-- A message that its channel carries: its type belongs to it, its body fits (R95, R124, R217, R258, R288), and a fold-store's
records are thinned lines (R90). -/
def Sys2Proof.msgFits : Msg → Bool
  | .foldStore p => p.wf && p.recs.all fun r => decide (r.thin = thin (expand r.thin))
  | .marker _ => true
  | .sealMsg t m => m.wf && decide (0x12 ≤ t.toNat ∧ t.toNat ≤ 0x1A)
  | .beat _ => true
  | .agree t m => m.wf && decide ((0x21 ≤ t.toNat ∧ t.toNat ≤ 0x2F) ∨ (0x50 ≤ t.toNat ∧ t.toNat ≤ 0x52))
  | .rebuild t m => m.wf && decide (0x40 ≤ t.toNat ∧ t.toNat ≤ 0x46)

/-- What the codes carry comes back. A thinned line expands to the line it was made from, and its length is the one its
mask and counts give; the worked example of R91 is coded as it is printed there (R90, R91). A lattice tile is judged by
its syndromes as the table of R359 says, and an error confined to one symbol, whatever its bytes, is mended as that
symbol: of the data, or of P, or of Q (R358, R359). Every message is read back from the bytes a store carries, padding
included (R8, R95, R102, R124, R211, R217, R258, R287), and so are an exchange record and the status line (R190, R285). -/
def Obligations.CodesBringBackWhatTheyCarry : Prop :=
  (∀ l : Line, expand (thin l) = l ∧
    (thin l).length = 2 + ((thinWords l).length + 3) / 4 + ((thinWords l).map fun w => 4 - zeroHigh w).sum ∧
    (∀ w ∈ thinWords l, w ≠ 0 ∧ w.toNat < 2 ^ (8 * (4 - zeroHigh w)) ∧
      (zeroHigh w < 3 → 2 ^ (8 * (3 - zeroHigh w)) ≤ w.toNat))) ∧
  thin (mkLine [(4, 4, 0x3A10), (8, 4, 0x12F00), (16, 4, 0xC5), (20, 4, 0x80000000), (36, 4, 0x417), (60, 4, 1)]) =
    [0x36, 0x82, 0x36, 0x0E, 0x10, 0x3A, 0x00, 0x2F, 0x01, 0xC5, 0x00, 0x00, 0x00, 0x80, 0x17, 0x04, 0x01] ∧
  (∀ p : List (Nat × Byte),
    ((∀ j, j < 16 → sp p j = 0) →
      ((∀ j, j < 16 → sq p j = 0) → judgeTile p = .clean) ∧
      (∀ h j, h < 2 → j < 16 → sq p j ≠ 0 → (∀ k, k < 16 → k / 8 ≠ h → sq p k = 0) → judgeTile p = .parityQ) ∧
      (∀ j k, j < 8 → 8 ≤ k → k < 16 → sq p j ≠ 0 → sq p k ≠ 0 → judgeTile p = .uncorrectable)) ∧
    (∀ h j, h < 2 → j < 16 → sp p j ≠ 0 → (∀ k, k < 16 → k / 8 ≠ h → sp p k = 0) →
      ((∀ k, k < 16 → sq p k = 0) → judgeTile p = .parityP) ∧
      (∀ r, r < 16 → (∀ k, k < 16 → sq p k = gfMul (gfExp r) (sp p k)) → judgeTile p = .data (2 * r + h)) ∧
      ((∃ k, k < 16 ∧ sq p k ≠ 0) → (∀ r, r < 16 → ∃ k, k < 16 ∧ sq p k ≠ gfMul (gfExp r) (sp p k)) →
        judgeTile p = .uncorrectable)) ∧
    (∀ j k, j < 8 → 8 ≤ k → k < 16 → sp p j ≠ 0 → sp p k ≠ 0 → judgeTile p = .uncorrectable) ∧
    (∀ sym off, (∀ e ∈ p, e.1 / 8 = sym) → errAt p off ≠ 0 →
      (sym < 32 → judgeTile p = .data sym) ∧ (sym = 32 ∨ sym = 33 → judgeTile p = .parityP) ∧
      (sym = 34 ∨ sym = 35 → judgeTile p = .parityQ))) ∧
  (∀ m : Msg, msgFits m = true → readMsg (padded (msgBytes m)) = some m) ∧
  (∀ (t : Byte) (r : ExRec), r.wf = true → readRecord (recordBytes t r) = r) ∧
  (∀ l : StatusLine, readStatus (statusBytes l) = l)

/-- A step takes the command at the front of the queue and runs it on the state with the queue's rest; every command of
the table, whatever the state and its operands, ends in a next state: none faults and none is refused. That the block
idles on an empty queue is the model's choice (log entry 3). -/
def Obligations.StepRunsTheFrontCommand : Prop :=
  (∀ (s : State) (c : Instr) (rest : List Instr), s.pending = c :: rest → step s = exec c { s with pending := rest }) ∧
  (∀ (c : Instr) (s : State), ∃ t, exec c s = .next t) ∧
  (∀ s : State, s.pending = [] → step s = .next s)

/-- Every step of every command keeps the memory in its canonical form: addresses strictly rising, no entry that reads
as an unlisted byte does, and no entry inside a range whose bytes are undefined. -/
def Obligations.EveryStepKeepsTheMemoryForm : Prop :=
  ∀ s t : State, memorySafe s → step s = .next t → memorySafe t

/-- After a power-on reset (R341) the registers read what their tables give: HY_CTRL 0x0000000F, APPLY_MAP naming
clusters 0 to 3, RST_CAUSE with POR alone, FW_STATE LOADER, PHASE NONE, the Beacon's thresholds and enables, BIST not
run; every port is absent, no job, no cove, nothing logged or counted; and the memory is in its canonical form, with
nothing listed. That an unlisted byte reads 0 is the model's choice (log entry 6), and so is that the queue of commands
is empty. -/
def Obligations.ResetLeavesTheTablesValues : Prop :=
  liveWord State.reset 0x0100 = 0xF ∧ liveWord State.reset 0x0140 = 0o3210 ∧ liveWord State.reset 0x0200 = 0 ∧
    liveWord State.reset 0x0210 = 0 ∧ liveWord State.reset 0x0300 = 1 ∧ liveWord State.reset 0x5000 = 0 ∧
    liveWord State.reset 0x5040 = 0x888C6E69 ∧ liveWord State.reset 0x5044 = 3 ∧ liveWord State.reset 0x5048 = 0 ∧
    State.reset.bist.state = 0 ∧ State.reset.bist.verdict = 2 ∧ State.reset.stat.fwState.get = 0 ∧
    State.reset.ports.msp = false ∧ State.reset.ports.fbp = false ∧ State.reset.ports.lkp = false ∧
    State.reset.ports.mgp = false ∧ State.reset.job.state = 0 ∧ State.reset.job.part = none ∧
    State.reset.agree.cove = none ∧ State.reset.log.entries = [] ∧ (∀ i : Fin 23, State.reset.cnt.get i = 0) ∧
    (∀ mb : Fin 8, (box State.reset mb).busy = false ∧ (box State.reset mb).done = false ∧
      (box State.reset mb).count = 0) ∧
    State.reset.cap.filter = [] ∧ memorySafe State.reset ∧ (∀ a, State.reset.mem.byte a = 0) ∧ State.reset.pending = []
end

