-- ==== Sys2Proof/Laws/State.lean ====
section
/-! SUPPORT. What each named update of the state leaves in every field: one lemma for each field, so that no proof unfolds
a record update. -/

namespace Sys2Proof.Machine

/-! ### countN -/

@[simp] theorem countN_fuses (s : State) (i : Fin 23) (n : Nat) : (countN s i n).fuses = s.fuses := rfl
@[simp] theorem countN_ctrl (s : State) (i : Fin 23) (n : Nat) : (countN s i n).ctrl = s.ctrl := rfl
@[simp] theorem countN_stat (s : State) (i : Fin 23) (n : Nat) : (countN s i n).stat = s.stat := rfl
@[simp] theorem countN_rst (s : State) (i : Fin 23) (n : Nat) : (countN s i n).rst = s.rst := rfl
@[simp] theorem countN_fw (s : State) (i : Fin 23) (n : Nat) : (countN s i n).fw = s.fw := rfl
@[simp] theorem countN_mb (s : State) (i : Fin 23) (n : Nat) : (countN s i n).mb = s.mb := rfl
@[simp] theorem countN_job (s : State) (i : Fin 23) (n : Nat) : (countN s i n).job = s.job := rfl
@[simp] theorem countN_mem (s : State) (i : Fin 23) (n : Nat) : (countN s i n).mem = s.mem := rfl
@[simp] theorem countN_tier (s : State) (i : Fin 23) (n : Nat) : (countN s i n).tier = s.tier := rfl
@[simp] theorem countN_cap (s : State) (i : Fin 23) (n : Nat) : (countN s i n).cap = s.cap := rfl
@[simp] theorem countN_fold (s : State) (i : Fin 23) (n : Nat) : (countN s i n).fold = s.fold := rfl
@[simp] theorem countN_digests (s : State) (i : Fin 23) (n : Nat) : (countN s i n).digests = s.digests := rfl
@[simp] theorem countN_tide (s : State) (i : Fin 23) (n : Nat) : (countN s i n).tide = s.tide := rfl
@[simp] theorem countN_agree (s : State) (i : Fin 23) (n : Nat) : (countN s i n).agree = s.agree := rfl
@[simp] theorem countN_bcast (s : State) (i : Fin 23) (n : Nat) : (countN s i n).bcast = s.bcast := rfl
@[simp] theorem countN_recov (s : State) (i : Fin 23) (n : Nat) : (countN s i n).recov = s.recov := rfl
@[simp] theorem countN_twin (s : State) (i : Fin 23) (n : Nat) : (countN s i n).twin = s.twin := rfl
@[simp] theorem countN_apply (s : State) (i : Fin 23) (n : Nat) : (countN s i n).apply = s.apply := rfl
@[simp] theorem countN_exch (s : State) (i : Fin 23) (n : Nat) : (countN s i n).exch = s.exch := rfl
@[simp] theorem countN_beacon (s : State) (i : Fin 23) (n : Nat) : (countN s i n).beacon = s.beacon := rfl
@[simp] theorem countN_power (s : State) (i : Fin 23) (n : Nat) : (countN s i n).power = s.power := rfl
@[simp] theorem countN_bist (s : State) (i : Fin 23) (n : Nat) : (countN s i n).bist = s.bist := rfl
@[simp] theorem countN_lat (s : State) (i : Fin 23) (n : Nat) : (countN s i n).lat = s.lat := rfl
@[simp] theorem countN_log (s : State) (i : Fin 23) (n : Nat) : (countN s i n).log = s.log := rfl
@[simp] theorem countN_cnt (s : State) (i : Fin 23) (n : Nat) : (countN s i n).cnt = s.cnt.set i.val (s.cnt.get i + BitVec.ofNat 32 n) i.isLt := rfl
@[simp] theorem countN_events (s : State) (i : Fin 23) (n : Nat) : (countN s i n).events = s.events := rfl
@[simp] theorem countN_ports (s : State) (i : Fin 23) (n : Nat) : (countN s i n).ports = s.ports := rfl
@[simp] theorem countN_time (s : State) (i : Fin 23) (n : Nat) : (countN s i n).time = s.time := rfl
@[simp] theorem countN_out (s : State) (i : Fin 23) (n : Nat) : (countN s i n).out = s.out := rfl
@[simp] theorem countN_freeCtr (s : State) (i : Fin 23) (n : Nat) : (countN s i n).freeCtr = s.freeCtr := rfl
@[simp] theorem countN_pending (s : State) (i : Fin 23) (n : Nat) : (countN s i n).pending = s.pending := rfl

/-! ### count -/

@[simp] theorem count_fuses (s : State) (i : Fin 23) : (count s i).fuses = s.fuses := rfl
@[simp] theorem count_ctrl (s : State) (i : Fin 23) : (count s i).ctrl = s.ctrl := rfl
@[simp] theorem count_stat (s : State) (i : Fin 23) : (count s i).stat = s.stat := rfl
@[simp] theorem count_rst (s : State) (i : Fin 23) : (count s i).rst = s.rst := rfl
@[simp] theorem count_fw (s : State) (i : Fin 23) : (count s i).fw = s.fw := rfl
@[simp] theorem count_mb (s : State) (i : Fin 23) : (count s i).mb = s.mb := rfl
@[simp] theorem count_job (s : State) (i : Fin 23) : (count s i).job = s.job := rfl
@[simp] theorem count_mem (s : State) (i : Fin 23) : (count s i).mem = s.mem := rfl
@[simp] theorem count_tier (s : State) (i : Fin 23) : (count s i).tier = s.tier := rfl
@[simp] theorem count_cap (s : State) (i : Fin 23) : (count s i).cap = s.cap := rfl
@[simp] theorem count_fold (s : State) (i : Fin 23) : (count s i).fold = s.fold := rfl
@[simp] theorem count_digests (s : State) (i : Fin 23) : (count s i).digests = s.digests := rfl
@[simp] theorem count_tide (s : State) (i : Fin 23) : (count s i).tide = s.tide := rfl
@[simp] theorem count_agree (s : State) (i : Fin 23) : (count s i).agree = s.agree := rfl
@[simp] theorem count_bcast (s : State) (i : Fin 23) : (count s i).bcast = s.bcast := rfl
@[simp] theorem count_recov (s : State) (i : Fin 23) : (count s i).recov = s.recov := rfl
@[simp] theorem count_twin (s : State) (i : Fin 23) : (count s i).twin = s.twin := rfl
@[simp] theorem count_apply (s : State) (i : Fin 23) : (count s i).apply = s.apply := rfl
@[simp] theorem count_exch (s : State) (i : Fin 23) : (count s i).exch = s.exch := rfl
@[simp] theorem count_beacon (s : State) (i : Fin 23) : (count s i).beacon = s.beacon := rfl
@[simp] theorem count_power (s : State) (i : Fin 23) : (count s i).power = s.power := rfl
@[simp] theorem count_bist (s : State) (i : Fin 23) : (count s i).bist = s.bist := rfl
@[simp] theorem count_lat (s : State) (i : Fin 23) : (count s i).lat = s.lat := rfl
@[simp] theorem count_log (s : State) (i : Fin 23) : (count s i).log = s.log := rfl
@[simp] theorem count_cnt (s : State) (i : Fin 23) : (count s i).cnt = s.cnt.set i.val (s.cnt.get i + 1) i.isLt := rfl
@[simp] theorem count_events (s : State) (i : Fin 23) : (count s i).events = s.events := rfl
@[simp] theorem count_ports (s : State) (i : Fin 23) : (count s i).ports = s.ports := rfl
@[simp] theorem count_time (s : State) (i : Fin 23) : (count s i).time = s.time := rfl
@[simp] theorem count_out (s : State) (i : Fin 23) : (count s i).out = s.out := rfl
@[simp] theorem count_freeCtr (s : State) (i : Fin 23) : (count s i).freeCtr = s.freeCtr := rfl
@[simp] theorem count_pending (s : State) (i : Fin 23) : (count s i).pending = s.pending := rfl

/-! ### setPhase -/

@[simp] theorem setPhase_fuses (s : State) (p : BitVec 3) : (setPhase s p).fuses = s.fuses := rfl
@[simp] theorem setPhase_ctrl (s : State) (p : BitVec 3) : (setPhase s p).ctrl = s.ctrl := rfl
@[simp] theorem setPhase_stat (s : State) (p : BitVec 3) : (setPhase s p).stat = s.stat := rfl
@[simp] theorem setPhase_rst (s : State) (p : BitVec 3) : (setPhase s p).rst = s.rst := rfl
@[simp] theorem setPhase_fw (s : State) (p : BitVec 3) : (setPhase s p).fw = s.fw := rfl
@[simp] theorem setPhase_mb (s : State) (p : BitVec 3) : (setPhase s p).mb = s.mb := rfl
@[simp] theorem setPhase_job (s : State) (p : BitVec 3) : (setPhase s p).job = s.job := rfl
@[simp] theorem setPhase_mem (s : State) (p : BitVec 3) : (setPhase s p).mem = s.mem := rfl
@[simp] theorem setPhase_tier (s : State) (p : BitVec 3) : (setPhase s p).tier = s.tier := rfl
@[simp] theorem setPhase_cap (s : State) (p : BitVec 3) : (setPhase s p).cap = s.cap := rfl
@[simp] theorem setPhase_fold (s : State) (p : BitVec 3) : (setPhase s p).fold = s.fold := rfl
@[simp] theorem setPhase_digests (s : State) (p : BitVec 3) : (setPhase s p).digests = s.digests := rfl
@[simp] theorem setPhase_tide (s : State) (p : BitVec 3) : (setPhase s p).tide = { s.tide with phase := V3.all p } := rfl
@[simp] theorem setPhase_agree (s : State) (p : BitVec 3) : (setPhase s p).agree = s.agree := rfl
@[simp] theorem setPhase_bcast (s : State) (p : BitVec 3) : (setPhase s p).bcast = s.bcast := rfl
@[simp] theorem setPhase_recov (s : State) (p : BitVec 3) : (setPhase s p).recov = s.recov := rfl
@[simp] theorem setPhase_twin (s : State) (p : BitVec 3) : (setPhase s p).twin = s.twin := rfl
@[simp] theorem setPhase_apply (s : State) (p : BitVec 3) : (setPhase s p).apply = s.apply := rfl
@[simp] theorem setPhase_exch (s : State) (p : BitVec 3) : (setPhase s p).exch = s.exch := rfl
@[simp] theorem setPhase_beacon (s : State) (p : BitVec 3) : (setPhase s p).beacon = s.beacon := rfl
@[simp] theorem setPhase_power (s : State) (p : BitVec 3) : (setPhase s p).power = s.power := rfl
@[simp] theorem setPhase_bist (s : State) (p : BitVec 3) : (setPhase s p).bist = s.bist := rfl
@[simp] theorem setPhase_lat (s : State) (p : BitVec 3) : (setPhase s p).lat = s.lat := rfl
@[simp] theorem setPhase_log (s : State) (p : BitVec 3) : (setPhase s p).log = s.log := rfl
@[simp] theorem setPhase_cnt (s : State) (p : BitVec 3) : (setPhase s p).cnt = s.cnt := rfl
@[simp] theorem setPhase_events (s : State) (p : BitVec 3) : (setPhase s p).events = s.events := rfl
@[simp] theorem setPhase_ports (s : State) (p : BitVec 3) : (setPhase s p).ports = s.ports := rfl
@[simp] theorem setPhase_time (s : State) (p : BitVec 3) : (setPhase s p).time = s.time := rfl
@[simp] theorem setPhase_out (s : State) (p : BitVec 3) : (setPhase s p).out = s.out := rfl
@[simp] theorem setPhase_freeCtr (s : State) (p : BitVec 3) : (setPhase s p).freeCtr = s.freeCtr := rfl
@[simp] theorem setPhase_pending (s : State) (p : BitVec 3) : (setPhase s p).pending = s.pending := rfl

/-! ### setBox -/

@[simp] theorem setBox_fuses (s : State) (m : Fin 8) (b : Mailbox) : (setBox s m b).fuses = s.fuses := rfl
@[simp] theorem setBox_ctrl (s : State) (m : Fin 8) (b : Mailbox) : (setBox s m b).ctrl = s.ctrl := rfl
@[simp] theorem setBox_stat (s : State) (m : Fin 8) (b : Mailbox) : (setBox s m b).stat = s.stat := rfl
@[simp] theorem setBox_rst (s : State) (m : Fin 8) (b : Mailbox) : (setBox s m b).rst = s.rst := rfl
@[simp] theorem setBox_fw (s : State) (m : Fin 8) (b : Mailbox) : (setBox s m b).fw = s.fw := rfl
@[simp] theorem setBox_mb (s : State) (m : Fin 8) (b : Mailbox) : (setBox s m b).mb = { s.mb with boxes := s.mb.boxes.set m.val b m.isLt } := rfl
@[simp] theorem setBox_job (s : State) (m : Fin 8) (b : Mailbox) : (setBox s m b).job = s.job := rfl
@[simp] theorem setBox_mem (s : State) (m : Fin 8) (b : Mailbox) : (setBox s m b).mem = s.mem := rfl
@[simp] theorem setBox_tier (s : State) (m : Fin 8) (b : Mailbox) : (setBox s m b).tier = s.tier := rfl
@[simp] theorem setBox_cap (s : State) (m : Fin 8) (b : Mailbox) : (setBox s m b).cap = s.cap := rfl
@[simp] theorem setBox_fold (s : State) (m : Fin 8) (b : Mailbox) : (setBox s m b).fold = s.fold := rfl
@[simp] theorem setBox_digests (s : State) (m : Fin 8) (b : Mailbox) : (setBox s m b).digests = s.digests := rfl
@[simp] theorem setBox_tide (s : State) (m : Fin 8) (b : Mailbox) : (setBox s m b).tide = s.tide := rfl
@[simp] theorem setBox_agree (s : State) (m : Fin 8) (b : Mailbox) : (setBox s m b).agree = s.agree := rfl
@[simp] theorem setBox_bcast (s : State) (m : Fin 8) (b : Mailbox) : (setBox s m b).bcast = s.bcast := rfl
@[simp] theorem setBox_recov (s : State) (m : Fin 8) (b : Mailbox) : (setBox s m b).recov = s.recov := rfl
@[simp] theorem setBox_twin (s : State) (m : Fin 8) (b : Mailbox) : (setBox s m b).twin = s.twin := rfl
@[simp] theorem setBox_apply (s : State) (m : Fin 8) (b : Mailbox) : (setBox s m b).apply = s.apply := rfl
@[simp] theorem setBox_exch (s : State) (m : Fin 8) (b : Mailbox) : (setBox s m b).exch = s.exch := rfl
@[simp] theorem setBox_beacon (s : State) (m : Fin 8) (b : Mailbox) : (setBox s m b).beacon = s.beacon := rfl
@[simp] theorem setBox_power (s : State) (m : Fin 8) (b : Mailbox) : (setBox s m b).power = s.power := rfl
@[simp] theorem setBox_bist (s : State) (m : Fin 8) (b : Mailbox) : (setBox s m b).bist = s.bist := rfl
@[simp] theorem setBox_lat (s : State) (m : Fin 8) (b : Mailbox) : (setBox s m b).lat = s.lat := rfl
@[simp] theorem setBox_log (s : State) (m : Fin 8) (b : Mailbox) : (setBox s m b).log = s.log := rfl
@[simp] theorem setBox_cnt (s : State) (m : Fin 8) (b : Mailbox) : (setBox s m b).cnt = s.cnt := rfl
@[simp] theorem setBox_events (s : State) (m : Fin 8) (b : Mailbox) : (setBox s m b).events = s.events := rfl
@[simp] theorem setBox_ports (s : State) (m : Fin 8) (b : Mailbox) : (setBox s m b).ports = s.ports := rfl
@[simp] theorem setBox_time (s : State) (m : Fin 8) (b : Mailbox) : (setBox s m b).time = s.time := rfl
@[simp] theorem setBox_out (s : State) (m : Fin 8) (b : Mailbox) : (setBox s m b).out = s.out := rfl
@[simp] theorem setBox_freeCtr (s : State) (m : Fin 8) (b : Mailbox) : (setBox s m b).freeCtr = s.freeCtr := rfl
@[simp] theorem setBox_pending (s : State) (m : Fin 8) (b : Mailbox) : (setBox s m b).pending = s.pending := rfl

/-! ### addDigest -/

@[simp] theorem addDigest_fuses (s : State) (row : Nat) (d : U64) : (addDigest s row d).fuses = s.fuses := rfl
@[simp] theorem addDigest_ctrl (s : State) (row : Nat) (d : U64) : (addDigest s row d).ctrl = s.ctrl := rfl
@[simp] theorem addDigest_stat (s : State) (row : Nat) (d : U64) : (addDigest s row d).stat = s.stat := rfl
@[simp] theorem addDigest_rst (s : State) (row : Nat) (d : U64) : (addDigest s row d).rst = s.rst := rfl
@[simp] theorem addDigest_fw (s : State) (row : Nat) (d : U64) : (addDigest s row d).fw = s.fw := rfl
@[simp] theorem addDigest_mb (s : State) (row : Nat) (d : U64) : (addDigest s row d).mb = s.mb := rfl
@[simp] theorem addDigest_job (s : State) (row : Nat) (d : U64) : (addDigest s row d).job = s.job := rfl
@[simp] theorem addDigest_mem (s : State) (row : Nat) (d : U64) : (addDigest s row d).mem = s.mem := rfl
@[simp] theorem addDigest_tier (s : State) (row : Nat) (d : U64) : (addDigest s row d).tier = s.tier := rfl
@[simp] theorem addDigest_cap (s : State) (row : Nat) (d : U64) : (addDigest s row d).cap = s.cap := rfl
@[simp] theorem addDigest_fold (s : State) (row : Nat) (d : U64) : (addDigest s row d).fold = s.fold := rfl
@[simp] theorem addDigest_digests (s : State) (row : Nat) (d : U64) : (addDigest s row d).digests = putDigest s.digests row (digestOf s row ^^^ d) := rfl
@[simp] theorem addDigest_tide (s : State) (row : Nat) (d : U64) : (addDigest s row d).tide = s.tide := rfl
@[simp] theorem addDigest_agree (s : State) (row : Nat) (d : U64) : (addDigest s row d).agree = s.agree := rfl
@[simp] theorem addDigest_bcast (s : State) (row : Nat) (d : U64) : (addDigest s row d).bcast = s.bcast := rfl
@[simp] theorem addDigest_recov (s : State) (row : Nat) (d : U64) : (addDigest s row d).recov = s.recov := rfl
@[simp] theorem addDigest_twin (s : State) (row : Nat) (d : U64) : (addDigest s row d).twin = s.twin := rfl
@[simp] theorem addDigest_apply (s : State) (row : Nat) (d : U64) : (addDigest s row d).apply = s.apply := rfl
@[simp] theorem addDigest_exch (s : State) (row : Nat) (d : U64) : (addDigest s row d).exch = s.exch := rfl
@[simp] theorem addDigest_beacon (s : State) (row : Nat) (d : U64) : (addDigest s row d).beacon = s.beacon := rfl
@[simp] theorem addDigest_power (s : State) (row : Nat) (d : U64) : (addDigest s row d).power = s.power := rfl
@[simp] theorem addDigest_bist (s : State) (row : Nat) (d : U64) : (addDigest s row d).bist = s.bist := rfl
@[simp] theorem addDigest_lat (s : State) (row : Nat) (d : U64) : (addDigest s row d).lat = s.lat := rfl
@[simp] theorem addDigest_log (s : State) (row : Nat) (d : U64) : (addDigest s row d).log = s.log := rfl
@[simp] theorem addDigest_cnt (s : State) (row : Nat) (d : U64) : (addDigest s row d).cnt = s.cnt := rfl
@[simp] theorem addDigest_events (s : State) (row : Nat) (d : U64) : (addDigest s row d).events = s.events := rfl
@[simp] theorem addDigest_ports (s : State) (row : Nat) (d : U64) : (addDigest s row d).ports = s.ports := rfl
@[simp] theorem addDigest_time (s : State) (row : Nat) (d : U64) : (addDigest s row d).time = s.time := rfl
@[simp] theorem addDigest_out (s : State) (row : Nat) (d : U64) : (addDigest s row d).out = s.out := rfl
@[simp] theorem addDigest_freeCtr (s : State) (row : Nat) (d : U64) : (addDigest s row d).freeCtr = s.freeCtr := rfl
@[simp] theorem addDigest_pending (s : State) (row : Nat) (d : U64) : (addDigest s row d).pending = s.pending := rfl

/-! ### setFilter -/

@[simp] theorem setFilter_fuses (s : State) (f : List FilterEntry) : (setFilter s f).fuses = s.fuses := rfl
@[simp] theorem setFilter_ctrl (s : State) (f : List FilterEntry) : (setFilter s f).ctrl = s.ctrl := rfl
@[simp] theorem setFilter_stat (s : State) (f : List FilterEntry) : (setFilter s f).stat = s.stat := rfl
@[simp] theorem setFilter_rst (s : State) (f : List FilterEntry) : (setFilter s f).rst = s.rst := rfl
@[simp] theorem setFilter_fw (s : State) (f : List FilterEntry) : (setFilter s f).fw = s.fw := rfl
@[simp] theorem setFilter_mb (s : State) (f : List FilterEntry) : (setFilter s f).mb = s.mb := rfl
@[simp] theorem setFilter_job (s : State) (f : List FilterEntry) : (setFilter s f).job = s.job := rfl
@[simp] theorem setFilter_mem (s : State) (f : List FilterEntry) : (setFilter s f).mem = s.mem := rfl
@[simp] theorem setFilter_tier (s : State) (f : List FilterEntry) : (setFilter s f).tier = s.tier := rfl
@[simp] theorem setFilter_cap (s : State) (f : List FilterEntry) : (setFilter s f).cap = { s.cap with filter := f, filterPending := s.cap.filterPending + 1 } := rfl
@[simp] theorem setFilter_fold (s : State) (f : List FilterEntry) : (setFilter s f).fold = s.fold := rfl
@[simp] theorem setFilter_digests (s : State) (f : List FilterEntry) : (setFilter s f).digests = s.digests := rfl
@[simp] theorem setFilter_tide (s : State) (f : List FilterEntry) : (setFilter s f).tide = s.tide := rfl
@[simp] theorem setFilter_agree (s : State) (f : List FilterEntry) : (setFilter s f).agree = s.agree := rfl
@[simp] theorem setFilter_bcast (s : State) (f : List FilterEntry) : (setFilter s f).bcast = s.bcast := rfl
@[simp] theorem setFilter_recov (s : State) (f : List FilterEntry) : (setFilter s f).recov = s.recov := rfl
@[simp] theorem setFilter_twin (s : State) (f : List FilterEntry) : (setFilter s f).twin = s.twin := rfl
@[simp] theorem setFilter_apply (s : State) (f : List FilterEntry) : (setFilter s f).apply = s.apply := rfl
@[simp] theorem setFilter_exch (s : State) (f : List FilterEntry) : (setFilter s f).exch = s.exch := rfl
@[simp] theorem setFilter_beacon (s : State) (f : List FilterEntry) : (setFilter s f).beacon = s.beacon := rfl
@[simp] theorem setFilter_power (s : State) (f : List FilterEntry) : (setFilter s f).power = s.power := rfl
@[simp] theorem setFilter_bist (s : State) (f : List FilterEntry) : (setFilter s f).bist = s.bist := rfl
@[simp] theorem setFilter_lat (s : State) (f : List FilterEntry) : (setFilter s f).lat = s.lat := rfl
@[simp] theorem setFilter_log (s : State) (f : List FilterEntry) : (setFilter s f).log = s.log := rfl
@[simp] theorem setFilter_cnt (s : State) (f : List FilterEntry) : (setFilter s f).cnt = s.cnt := rfl
@[simp] theorem setFilter_events (s : State) (f : List FilterEntry) : (setFilter s f).events = s.events := rfl
@[simp] theorem setFilter_ports (s : State) (f : List FilterEntry) : (setFilter s f).ports = s.ports := rfl
@[simp] theorem setFilter_time (s : State) (f : List FilterEntry) : (setFilter s f).time = s.time := rfl
@[simp] theorem setFilter_out (s : State) (f : List FilterEntry) : (setFilter s f).out = s.out := rfl
@[simp] theorem setFilter_freeCtr (s : State) (f : List FilterEntry) : (setFilter s f).freeCtr = s.freeCtr := rfl
@[simp] theorem setFilter_pending (s : State) (f : List FilterEntry) : (setFilter s f).pending = s.pending := rfl

/-! ### verdict -/

@[simp] theorem verdict_fuses (s : State) (tag : BitVec 9) (v : Verdict) : (verdict s tag v).fuses = s.fuses := rfl
@[simp] theorem verdict_ctrl (s : State) (tag : BitVec 9) (v : Verdict) : (verdict s tag v).ctrl = s.ctrl := rfl
@[simp] theorem verdict_stat (s : State) (tag : BitVec 9) (v : Verdict) : (verdict s tag v).stat = s.stat := rfl
@[simp] theorem verdict_rst (s : State) (tag : BitVec 9) (v : Verdict) : (verdict s tag v).rst = s.rst := rfl
@[simp] theorem verdict_fw (s : State) (tag : BitVec 9) (v : Verdict) : (verdict s tag v).fw = s.fw := rfl
@[simp] theorem verdict_mb (s : State) (tag : BitVec 9) (v : Verdict) : (verdict s tag v).mb = s.mb := rfl
@[simp] theorem verdict_job (s : State) (tag : BitVec 9) (v : Verdict) : (verdict s tag v).job = s.job := rfl
@[simp] theorem verdict_mem (s : State) (tag : BitVec 9) (v : Verdict) : (verdict s tag v).mem = s.mem := rfl
@[simp] theorem verdict_tier (s : State) (tag : BitVec 9) (v : Verdict) : (verdict s tag v).tier = s.tier := rfl
@[simp] theorem verdict_cap (s : State) (tag : BitVec 9) (v : Verdict) : (verdict s tag v).cap = { s.cap with verdicts := s.cap.verdicts ++ [(tag, v)] } := rfl
@[simp] theorem verdict_fold (s : State) (tag : BitVec 9) (v : Verdict) : (verdict s tag v).fold = s.fold := rfl
@[simp] theorem verdict_digests (s : State) (tag : BitVec 9) (v : Verdict) : (verdict s tag v).digests = s.digests := rfl
@[simp] theorem verdict_tide (s : State) (tag : BitVec 9) (v : Verdict) : (verdict s tag v).tide = s.tide := rfl
@[simp] theorem verdict_agree (s : State) (tag : BitVec 9) (v : Verdict) : (verdict s tag v).agree = s.agree := rfl
@[simp] theorem verdict_bcast (s : State) (tag : BitVec 9) (v : Verdict) : (verdict s tag v).bcast = s.bcast := rfl
@[simp] theorem verdict_recov (s : State) (tag : BitVec 9) (v : Verdict) : (verdict s tag v).recov = s.recov := rfl
@[simp] theorem verdict_twin (s : State) (tag : BitVec 9) (v : Verdict) : (verdict s tag v).twin = s.twin := rfl
@[simp] theorem verdict_apply (s : State) (tag : BitVec 9) (v : Verdict) : (verdict s tag v).apply = s.apply := rfl
@[simp] theorem verdict_exch (s : State) (tag : BitVec 9) (v : Verdict) : (verdict s tag v).exch = s.exch := rfl
@[simp] theorem verdict_beacon (s : State) (tag : BitVec 9) (v : Verdict) : (verdict s tag v).beacon = s.beacon := rfl
@[simp] theorem verdict_power (s : State) (tag : BitVec 9) (v : Verdict) : (verdict s tag v).power = s.power := rfl
@[simp] theorem verdict_bist (s : State) (tag : BitVec 9) (v : Verdict) : (verdict s tag v).bist = s.bist := rfl
@[simp] theorem verdict_lat (s : State) (tag : BitVec 9) (v : Verdict) : (verdict s tag v).lat = s.lat := rfl
@[simp] theorem verdict_log (s : State) (tag : BitVec 9) (v : Verdict) : (verdict s tag v).log = s.log := rfl
@[simp] theorem verdict_cnt (s : State) (tag : BitVec 9) (v : Verdict) : (verdict s tag v).cnt = s.cnt := rfl
@[simp] theorem verdict_events (s : State) (tag : BitVec 9) (v : Verdict) : (verdict s tag v).events = s.events := rfl
@[simp] theorem verdict_ports (s : State) (tag : BitVec 9) (v : Verdict) : (verdict s tag v).ports = s.ports := rfl
@[simp] theorem verdict_time (s : State) (tag : BitVec 9) (v : Verdict) : (verdict s tag v).time = s.time := rfl
@[simp] theorem verdict_out (s : State) (tag : BitVec 9) (v : Verdict) : (verdict s tag v).out = s.out := rfl
@[simp] theorem verdict_freeCtr (s : State) (tag : BitVec 9) (v : Verdict) : (verdict s tag v).freeCtr = s.freeCtr := rfl
@[simp] theorem verdict_pending (s : State) (tag : BitVec 9) (v : Verdict) : (verdict s tag v).pending = s.pending := rfl

/-! ### setRec -/

@[simp] theorem setRec_fuses (s : State) (v : BitVec 4) : (setRec s v).fuses = s.fuses := by
  unfold setRec; dsimp only; split <;> rfl
@[simp] theorem setRec_ctrl (s : State) (v : BitVec 4) : (setRec s v).ctrl = s.ctrl := by
  unfold setRec; dsimp only; split <;> rfl
@[simp] theorem setRec_stat (s : State) (v : BitVec 4) : (setRec s v).stat = s.stat := by
  unfold setRec; dsimp only; split <;> rfl
@[simp] theorem setRec_rst (s : State) (v : BitVec 4) : (setRec s v).rst = s.rst := by
  unfold setRec; dsimp only; split <;> rfl
@[simp] theorem setRec_fw (s : State) (v : BitVec 4) : (setRec s v).fw = s.fw := by
  unfold setRec; dsimp only; split <;> rfl
@[simp] theorem setRec_mb (s : State) (v : BitVec 4) : (setRec s v).mb = s.mb := by
  unfold setRec; dsimp only; split <;> rfl
@[simp] theorem setRec_job (s : State) (v : BitVec 4) : (setRec s v).job = s.job := by
  unfold setRec; dsimp only; split <;> rfl
@[simp] theorem setRec_mem (s : State) (v : BitVec 4) : (setRec s v).mem = s.mem := by
  unfold setRec; dsimp only; split <;> rfl
@[simp] theorem setRec_tier (s : State) (v : BitVec 4) : (setRec s v).tier = s.tier := by
  unfold setRec; dsimp only; split <;> rfl
@[simp] theorem setRec_fold (s : State) (v : BitVec 4) : (setRec s v).fold = s.fold := by
  unfold setRec; dsimp only; split <;> rfl
@[simp] theorem setRec_digests (s : State) (v : BitVec 4) : (setRec s v).digests = s.digests := by
  unfold setRec; dsimp only; split <;> rfl
@[simp] theorem setRec_tide (s : State) (v : BitVec 4) : (setRec s v).tide = s.tide := by
  unfold setRec; dsimp only; split <;> rfl
@[simp] theorem setRec_agree (s : State) (v : BitVec 4) : (setRec s v).agree = s.agree := by
  unfold setRec; dsimp only; split <;> rfl
@[simp] theorem setRec_bcast (s : State) (v : BitVec 4) : (setRec s v).bcast = s.bcast := by
  unfold setRec; dsimp only; split <;> rfl
@[simp] theorem setRec_recov (s : State) (v : BitVec 4) : (setRec s v).recov = { s.recov with state := V3.all v } := by
  unfold setRec; dsimp only; split <;> rfl
@[simp] theorem setRec_twin (s : State) (v : BitVec 4) : (setRec s v).twin = s.twin := by
  unfold setRec; dsimp only; split <;> rfl
@[simp] theorem setRec_apply (s : State) (v : BitVec 4) : (setRec s v).apply = s.apply := by
  unfold setRec; dsimp only; split <;> rfl
@[simp] theorem setRec_exch (s : State) (v : BitVec 4) : (setRec s v).exch = s.exch := by
  unfold setRec; dsimp only; split <;> rfl
@[simp] theorem setRec_beacon (s : State) (v : BitVec 4) : (setRec s v).beacon = s.beacon := by
  unfold setRec; dsimp only; split <;> rfl
@[simp] theorem setRec_power (s : State) (v : BitVec 4) : (setRec s v).power = s.power := by
  unfold setRec; dsimp only; split <;> rfl
@[simp] theorem setRec_bist (s : State) (v : BitVec 4) : (setRec s v).bist = s.bist := by
  unfold setRec; dsimp only; split <;> rfl
@[simp] theorem setRec_lat (s : State) (v : BitVec 4) : (setRec s v).lat = s.lat := by
  unfold setRec; dsimp only; split <;> rfl
@[simp] theorem setRec_log (s : State) (v : BitVec 4) : (setRec s v).log = s.log := by
  unfold setRec; dsimp only; split <;> rfl
@[simp] theorem setRec_cnt (s : State) (v : BitVec 4) : (setRec s v).cnt = s.cnt := by
  unfold setRec; dsimp only; split <;> rfl
@[simp] theorem setRec_events (s : State) (v : BitVec 4) : (setRec s v).events = s.events := by
  unfold setRec; dsimp only; split <;> rfl
@[simp] theorem setRec_ports (s : State) (v : BitVec 4) : (setRec s v).ports = s.ports := by
  unfold setRec; dsimp only; split <;> rfl
@[simp] theorem setRec_time (s : State) (v : BitVec 4) : (setRec s v).time = s.time := by
  unfold setRec; dsimp only; split <;> rfl
@[simp] theorem setRec_out (s : State) (v : BitVec 4) : (setRec s v).out = s.out := by
  unfold setRec; dsimp only; split <;> rfl
@[simp] theorem setRec_freeCtr (s : State) (v : BitVec 4) : (setRec s v).freeCtr = s.freeCtr := by
  unfold setRec; dsimp only; split <;> rfl
@[simp] theorem setRec_pending (s : State) (v : BitVec 4) : (setRec s v).pending = s.pending := by
  unfold setRec; dsimp only; split <;> rfl
/-- Outside a change into or out of DATA, STATE alone changes (R277). -/
theorem setRec_same (s : State) (v : BitVec 4) (h : decide (recState s = recData) = decide (v = recData)) :
    setRec s v = { s with recov.state := V3.all v } := by
  unfold setRec; rw [if_pos h]

/-! ### discardStash -/

@[simp] theorem discardStash_fuses (s : State) : (discardStash s).fuses = s.fuses := rfl
@[simp] theorem discardStash_ctrl (s : State) : (discardStash s).ctrl = s.ctrl := rfl
@[simp] theorem discardStash_stat (s : State) : (discardStash s).stat = s.stat := rfl
@[simp] theorem discardStash_rst (s : State) : (discardStash s).rst = s.rst := rfl
@[simp] theorem discardStash_fw (s : State) : (discardStash s).fw = s.fw := rfl
@[simp] theorem discardStash_mb (s : State) : (discardStash s).mb = s.mb := rfl
@[simp] theorem discardStash_job (s : State) : (discardStash s).job = s.job := rfl
@[simp] theorem discardStash_mem (s : State) : (discardStash s).mem = s.mem := rfl
@[simp] theorem discardStash_tier (s : State) : (discardStash s).tier = s.tier := rfl
@[simp] theorem discardStash_cap (s : State) : (discardStash s).cap = { s.cap with nearFill := 0, farFill := 0, touchValid := [], touchCache := [] } := rfl
@[simp] theorem discardStash_fold (s : State) : (discardStash s).fold = s.fold := rfl
@[simp] theorem discardStash_digests (s : State) : (discardStash s).digests = s.digests := rfl
@[simp] theorem discardStash_tide (s : State) : (discardStash s).tide = s.tide := rfl
@[simp] theorem discardStash_agree (s : State) : (discardStash s).agree = s.agree := rfl
@[simp] theorem discardStash_bcast (s : State) : (discardStash s).bcast = s.bcast := rfl
@[simp] theorem discardStash_recov (s : State) : (discardStash s).recov = s.recov := rfl
@[simp] theorem discardStash_twin (s : State) : (discardStash s).twin = s.twin := rfl
@[simp] theorem discardStash_apply (s : State) : (discardStash s).apply = s.apply := rfl
@[simp] theorem discardStash_exch (s : State) : (discardStash s).exch = s.exch := rfl
@[simp] theorem discardStash_beacon (s : State) : (discardStash s).beacon = s.beacon := rfl
@[simp] theorem discardStash_power (s : State) : (discardStash s).power = s.power := rfl
@[simp] theorem discardStash_bist (s : State) : (discardStash s).bist = s.bist := rfl
@[simp] theorem discardStash_lat (s : State) : (discardStash s).lat = s.lat := rfl
@[simp] theorem discardStash_log (s : State) : (discardStash s).log = s.log := rfl
@[simp] theorem discardStash_cnt (s : State) : (discardStash s).cnt = s.cnt := rfl
@[simp] theorem discardStash_events (s : State) : (discardStash s).events = s.events := rfl
@[simp] theorem discardStash_ports (s : State) : (discardStash s).ports = s.ports := rfl
@[simp] theorem discardStash_time (s : State) : (discardStash s).time = s.time := rfl
@[simp] theorem discardStash_out (s : State) : (discardStash s).out = s.out := rfl
@[simp] theorem discardStash_freeCtr (s : State) : (discardStash s).freeCtr = s.freeCtr := rfl
@[simp] theorem discardStash_pending (s : State) : (discardStash s).pending = s.pending := rfl

/-! ### clearFoldCounts -/

@[simp] theorem clearFoldCounts_fuses (s : State) : (clearFoldCounts s).fuses = s.fuses := rfl
@[simp] theorem clearFoldCounts_ctrl (s : State) : (clearFoldCounts s).ctrl = s.ctrl := rfl
@[simp] theorem clearFoldCounts_stat (s : State) : (clearFoldCounts s).stat = s.stat := rfl
@[simp] theorem clearFoldCounts_rst (s : State) : (clearFoldCounts s).rst = s.rst := rfl
@[simp] theorem clearFoldCounts_fw (s : State) : (clearFoldCounts s).fw = s.fw := rfl
@[simp] theorem clearFoldCounts_mb (s : State) : (clearFoldCounts s).mb = s.mb := rfl
@[simp] theorem clearFoldCounts_job (s : State) : (clearFoldCounts s).job = s.job := rfl
@[simp] theorem clearFoldCounts_mem (s : State) : (clearFoldCounts s).mem = s.mem := rfl
@[simp] theorem clearFoldCounts_tier (s : State) : (clearFoldCounts s).tier = s.tier := rfl
@[simp] theorem clearFoldCounts_cap (s : State) : (clearFoldCounts s).cap = s.cap := rfl
@[simp] theorem clearFoldCounts_fold (s : State) : (clearFoldCounts s).fold = { s.fold with seqs := [], directSent := [], fwdSent := [], streams := [], folded := [] } := rfl
@[simp] theorem clearFoldCounts_digests (s : State) : (clearFoldCounts s).digests = s.digests := rfl
@[simp] theorem clearFoldCounts_tide (s : State) : (clearFoldCounts s).tide = s.tide := rfl
@[simp] theorem clearFoldCounts_agree (s : State) : (clearFoldCounts s).agree = s.agree := rfl
@[simp] theorem clearFoldCounts_bcast (s : State) : (clearFoldCounts s).bcast = s.bcast := rfl
@[simp] theorem clearFoldCounts_recov (s : State) : (clearFoldCounts s).recov = s.recov := rfl
@[simp] theorem clearFoldCounts_twin (s : State) : (clearFoldCounts s).twin = s.twin := rfl
@[simp] theorem clearFoldCounts_apply (s : State) : (clearFoldCounts s).apply = s.apply := rfl
@[simp] theorem clearFoldCounts_exch (s : State) : (clearFoldCounts s).exch = s.exch := rfl
@[simp] theorem clearFoldCounts_beacon (s : State) : (clearFoldCounts s).beacon = s.beacon := rfl
@[simp] theorem clearFoldCounts_power (s : State) : (clearFoldCounts s).power = s.power := rfl
@[simp] theorem clearFoldCounts_bist (s : State) : (clearFoldCounts s).bist = s.bist := rfl
@[simp] theorem clearFoldCounts_lat (s : State) : (clearFoldCounts s).lat = s.lat := rfl
@[simp] theorem clearFoldCounts_log (s : State) : (clearFoldCounts s).log = s.log := rfl
@[simp] theorem clearFoldCounts_cnt (s : State) : (clearFoldCounts s).cnt = s.cnt := rfl
@[simp] theorem clearFoldCounts_events (s : State) : (clearFoldCounts s).events = s.events := rfl
@[simp] theorem clearFoldCounts_ports (s : State) : (clearFoldCounts s).ports = s.ports := rfl
@[simp] theorem clearFoldCounts_time (s : State) : (clearFoldCounts s).time = s.time := rfl
@[simp] theorem clearFoldCounts_out (s : State) : (clearFoldCounts s).out = s.out := rfl
@[simp] theorem clearFoldCounts_freeCtr (s : State) : (clearFoldCounts s).freeCtr = s.freeCtr := rfl
@[simp] theorem clearFoldCounts_pending (s : State) : (clearFoldCounts s).pending = s.pending := rfl

/-! ### refreshStatusLine -/

@[simp] theorem refreshStatusLine_fuses (s : State) : (refreshStatusLine s).fuses = s.fuses := rfl
@[simp] theorem refreshStatusLine_ctrl (s : State) : (refreshStatusLine s).ctrl = s.ctrl := rfl
@[simp] theorem refreshStatusLine_stat (s : State) : (refreshStatusLine s).stat = s.stat := rfl
@[simp] theorem refreshStatusLine_rst (s : State) : (refreshStatusLine s).rst = s.rst := rfl
@[simp] theorem refreshStatusLine_fw (s : State) : (refreshStatusLine s).fw = s.fw := rfl
@[simp] theorem refreshStatusLine_mb (s : State) : (refreshStatusLine s).mb = s.mb := rfl
@[simp] theorem refreshStatusLine_job (s : State) : (refreshStatusLine s).job = s.job := rfl
@[simp] theorem refreshStatusLine_mem (s : State) : (refreshStatusLine s).mem = s.mem := rfl
@[simp] theorem refreshStatusLine_tier (s : State) : (refreshStatusLine s).tier = s.tier := rfl
@[simp] theorem refreshStatusLine_cap (s : State) : (refreshStatusLine s).cap = s.cap := rfl
@[simp] theorem refreshStatusLine_fold (s : State) : (refreshStatusLine s).fold = s.fold := rfl
@[simp] theorem refreshStatusLine_digests (s : State) : (refreshStatusLine s).digests = s.digests := rfl
@[simp] theorem refreshStatusLine_tide (s : State) : (refreshStatusLine s).tide = s.tide := rfl
@[simp] theorem refreshStatusLine_agree (s : State) : (refreshStatusLine s).agree = { s.agree with statusLine := (refreshStatusLine s).agree.statusLine } := rfl
@[simp] theorem refreshStatusLine_bcast (s : State) : (refreshStatusLine s).bcast = s.bcast := rfl
@[simp] theorem refreshStatusLine_recov (s : State) : (refreshStatusLine s).recov = s.recov := rfl
@[simp] theorem refreshStatusLine_twin (s : State) : (refreshStatusLine s).twin = s.twin := rfl
@[simp] theorem refreshStatusLine_apply (s : State) : (refreshStatusLine s).apply = s.apply := rfl
@[simp] theorem refreshStatusLine_exch (s : State) : (refreshStatusLine s).exch = s.exch := rfl
@[simp] theorem refreshStatusLine_beacon (s : State) : (refreshStatusLine s).beacon = s.beacon := rfl
@[simp] theorem refreshStatusLine_power (s : State) : (refreshStatusLine s).power = s.power := rfl
@[simp] theorem refreshStatusLine_bist (s : State) : (refreshStatusLine s).bist = s.bist := rfl
@[simp] theorem refreshStatusLine_lat (s : State) : (refreshStatusLine s).lat = s.lat := rfl
@[simp] theorem refreshStatusLine_log (s : State) : (refreshStatusLine s).log = s.log := rfl
@[simp] theorem refreshStatusLine_cnt (s : State) : (refreshStatusLine s).cnt = s.cnt := rfl
@[simp] theorem refreshStatusLine_events (s : State) : (refreshStatusLine s).events = s.events := rfl
@[simp] theorem refreshStatusLine_ports (s : State) : (refreshStatusLine s).ports = s.ports := rfl
@[simp] theorem refreshStatusLine_time (s : State) : (refreshStatusLine s).time = s.time := rfl
@[simp] theorem refreshStatusLine_out (s : State) : (refreshStatusLine s).out = s.out := rfl
@[simp] theorem refreshStatusLine_freeCtr (s : State) : (refreshStatusLine s).freeCtr = s.freeCtr := rfl
@[simp] theorem refreshStatusLine_pending (s : State) : (refreshStatusLine s).pending = s.pending := rfl

/-! ### ignoredWrite -/

@[simp] theorem ignoredWrite_fuses (s : State) : (ignoredWrite s).fuses = s.fuses := rfl
@[simp] theorem ignoredWrite_ctrl (s : State) : (ignoredWrite s).ctrl = s.ctrl := rfl
@[simp] theorem ignoredWrite_stat (s : State) : (ignoredWrite s).stat = { s.stat with cfgIgnored := true } := rfl
@[simp] theorem ignoredWrite_rst (s : State) : (ignoredWrite s).rst = s.rst := rfl
@[simp] theorem ignoredWrite_fw (s : State) : (ignoredWrite s).fw = s.fw := rfl
@[simp] theorem ignoredWrite_mb (s : State) : (ignoredWrite s).mb = s.mb := rfl
@[simp] theorem ignoredWrite_job (s : State) : (ignoredWrite s).job = s.job := rfl
@[simp] theorem ignoredWrite_mem (s : State) : (ignoredWrite s).mem = s.mem := rfl
@[simp] theorem ignoredWrite_tier (s : State) : (ignoredWrite s).tier = s.tier := rfl
@[simp] theorem ignoredWrite_cap (s : State) : (ignoredWrite s).cap = s.cap := rfl
@[simp] theorem ignoredWrite_fold (s : State) : (ignoredWrite s).fold = s.fold := rfl
@[simp] theorem ignoredWrite_digests (s : State) : (ignoredWrite s).digests = s.digests := rfl
@[simp] theorem ignoredWrite_tide (s : State) : (ignoredWrite s).tide = s.tide := rfl
@[simp] theorem ignoredWrite_agree (s : State) : (ignoredWrite s).agree = s.agree := rfl
@[simp] theorem ignoredWrite_bcast (s : State) : (ignoredWrite s).bcast = s.bcast := rfl
@[simp] theorem ignoredWrite_recov (s : State) : (ignoredWrite s).recov = s.recov := rfl
@[simp] theorem ignoredWrite_twin (s : State) : (ignoredWrite s).twin = s.twin := rfl
@[simp] theorem ignoredWrite_apply (s : State) : (ignoredWrite s).apply = s.apply := rfl
@[simp] theorem ignoredWrite_exch (s : State) : (ignoredWrite s).exch = s.exch := rfl
@[simp] theorem ignoredWrite_beacon (s : State) : (ignoredWrite s).beacon = s.beacon := rfl
@[simp] theorem ignoredWrite_power (s : State) : (ignoredWrite s).power = s.power := rfl
@[simp] theorem ignoredWrite_bist (s : State) : (ignoredWrite s).bist = s.bist := rfl
@[simp] theorem ignoredWrite_lat (s : State) : (ignoredWrite s).lat = s.lat := rfl
@[simp] theorem ignoredWrite_log (s : State) : (ignoredWrite s).log = s.log := rfl
@[simp] theorem ignoredWrite_cnt (s : State) : (ignoredWrite s).cnt = s.cnt := rfl
@[simp] theorem ignoredWrite_events (s : State) : (ignoredWrite s).events = s.events := rfl
@[simp] theorem ignoredWrite_ports (s : State) : (ignoredWrite s).ports = s.ports := rfl
@[simp] theorem ignoredWrite_time (s : State) : (ignoredWrite s).time = s.time := rfl
@[simp] theorem ignoredWrite_out (s : State) : (ignoredWrite s).out = s.out := rfl
@[simp] theorem ignoredWrite_freeCtr (s : State) : (ignoredWrite s).freeCtr = s.freeCtr := rfl
@[simp] theorem ignoredWrite_pending (s : State) : (ignoredWrite s).pending = s.pending := rfl

/-! ### ackBox -/

@[simp] theorem ackBox_fuses (s : State) (m : Fin 8) : (ackBox s m).fuses = s.fuses := rfl
@[simp] theorem ackBox_ctrl (s : State) (m : Fin 8) : (ackBox s m).ctrl = s.ctrl := rfl
@[simp] theorem ackBox_stat (s : State) (m : Fin 8) : (ackBox s m).stat = s.stat := rfl
@[simp] theorem ackBox_rst (s : State) (m : Fin 8) : (ackBox s m).rst = s.rst := rfl
@[simp] theorem ackBox_fw (s : State) (m : Fin 8) : (ackBox s m).fw = s.fw := rfl
@[simp] theorem ackBox_mb (s : State) (m : Fin 8) : (ackBox s m).mb = { s.mb with boxes := s.mb.boxes.set m.val { box s m with done := false } m.isLt } := rfl
@[simp] theorem ackBox_job (s : State) (m : Fin 8) : (ackBox s m).job = s.job := rfl
@[simp] theorem ackBox_mem (s : State) (m : Fin 8) : (ackBox s m).mem = s.mem := rfl
@[simp] theorem ackBox_tier (s : State) (m : Fin 8) : (ackBox s m).tier = s.tier := rfl
@[simp] theorem ackBox_cap (s : State) (m : Fin 8) : (ackBox s m).cap = s.cap := rfl
@[simp] theorem ackBox_fold (s : State) (m : Fin 8) : (ackBox s m).fold = s.fold := rfl
@[simp] theorem ackBox_digests (s : State) (m : Fin 8) : (ackBox s m).digests = s.digests := rfl
@[simp] theorem ackBox_tide (s : State) (m : Fin 8) : (ackBox s m).tide = s.tide := rfl
@[simp] theorem ackBox_agree (s : State) (m : Fin 8) : (ackBox s m).agree = s.agree := rfl
@[simp] theorem ackBox_bcast (s : State) (m : Fin 8) : (ackBox s m).bcast = s.bcast := rfl
@[simp] theorem ackBox_recov (s : State) (m : Fin 8) : (ackBox s m).recov = s.recov := rfl
@[simp] theorem ackBox_twin (s : State) (m : Fin 8) : (ackBox s m).twin = s.twin := rfl
@[simp] theorem ackBox_apply (s : State) (m : Fin 8) : (ackBox s m).apply = s.apply := rfl
@[simp] theorem ackBox_exch (s : State) (m : Fin 8) : (ackBox s m).exch = s.exch := rfl
@[simp] theorem ackBox_beacon (s : State) (m : Fin 8) : (ackBox s m).beacon = s.beacon := rfl
@[simp] theorem ackBox_power (s : State) (m : Fin 8) : (ackBox s m).power = s.power := rfl
@[simp] theorem ackBox_bist (s : State) (m : Fin 8) : (ackBox s m).bist = s.bist := rfl
@[simp] theorem ackBox_lat (s : State) (m : Fin 8) : (ackBox s m).lat = s.lat := rfl
@[simp] theorem ackBox_log (s : State) (m : Fin 8) : (ackBox s m).log = s.log := rfl
@[simp] theorem ackBox_cnt (s : State) (m : Fin 8) : (ackBox s m).cnt = s.cnt := rfl
@[simp] theorem ackBox_events (s : State) (m : Fin 8) : (ackBox s m).events = s.events := rfl
@[simp] theorem ackBox_ports (s : State) (m : Fin 8) : (ackBox s m).ports = s.ports := rfl
@[simp] theorem ackBox_time (s : State) (m : Fin 8) : (ackBox s m).time = s.time := rfl
@[simp] theorem ackBox_out (s : State) (m : Fin 8) : (ackBox s m).out = s.out := rfl
@[simp] theorem ackBox_freeCtr (s : State) (m : Fin 8) : (ackBox s m).freeCtr = s.freeCtr := rfl
@[simp] theorem ackBox_pending (s : State) (m : Fin 8) : (ackBox s m).pending = s.pending := rfl

end Sys2Proof.Machine
end

