-- ==== Sys2Proof/Laws/Frames.lean ====
section
/-! SUPPORT. The shared operations that choose between updates: every field that each of them leaves alone. -/

namespace Sys2Proof.Machine

/-! ### raiseEvent -/

theorem raiseEvent_frame (s : State) (code arg : Byte) :
    raiseEvent s code arg = { s with events := (raiseEvent s code arg).events, stat := (raiseEvent s code arg).stat } := by
  unfold raiseEvent
  split <;> first | rfl | (split <;> first | rfl | (split <;> rfl))

@[simp] theorem raiseEvent_fuses (s : State) (code arg : Byte) : (raiseEvent s code arg).fuses = s.fuses := by
  rw [raiseEvent_frame]
@[simp] theorem raiseEvent_ctrl (s : State) (code arg : Byte) : (raiseEvent s code arg).ctrl = s.ctrl := by
  rw [raiseEvent_frame]
@[simp] theorem raiseEvent_rst (s : State) (code arg : Byte) : (raiseEvent s code arg).rst = s.rst := by
  rw [raiseEvent_frame]
@[simp] theorem raiseEvent_fw (s : State) (code arg : Byte) : (raiseEvent s code arg).fw = s.fw := by
  rw [raiseEvent_frame]
@[simp] theorem raiseEvent_mb (s : State) (code arg : Byte) : (raiseEvent s code arg).mb = s.mb := by
  rw [raiseEvent_frame]
@[simp] theorem raiseEvent_job (s : State) (code arg : Byte) : (raiseEvent s code arg).job = s.job := by
  rw [raiseEvent_frame]
@[simp] theorem raiseEvent_mem (s : State) (code arg : Byte) : (raiseEvent s code arg).mem = s.mem := by
  rw [raiseEvent_frame]
@[simp] theorem raiseEvent_tier (s : State) (code arg : Byte) : (raiseEvent s code arg).tier = s.tier := by
  rw [raiseEvent_frame]
@[simp] theorem raiseEvent_cap (s : State) (code arg : Byte) : (raiseEvent s code arg).cap = s.cap := by
  rw [raiseEvent_frame]
@[simp] theorem raiseEvent_fold (s : State) (code arg : Byte) : (raiseEvent s code arg).fold = s.fold := by
  rw [raiseEvent_frame]
@[simp] theorem raiseEvent_digests (s : State) (code arg : Byte) : (raiseEvent s code arg).digests = s.digests := by
  rw [raiseEvent_frame]
@[simp] theorem raiseEvent_tide (s : State) (code arg : Byte) : (raiseEvent s code arg).tide = s.tide := by
  rw [raiseEvent_frame]
@[simp] theorem raiseEvent_agree (s : State) (code arg : Byte) : (raiseEvent s code arg).agree = s.agree := by
  rw [raiseEvent_frame]
@[simp] theorem raiseEvent_bcast (s : State) (code arg : Byte) : (raiseEvent s code arg).bcast = s.bcast := by
  rw [raiseEvent_frame]
@[simp] theorem raiseEvent_recov (s : State) (code arg : Byte) : (raiseEvent s code arg).recov = s.recov := by
  rw [raiseEvent_frame]
@[simp] theorem raiseEvent_twin (s : State) (code arg : Byte) : (raiseEvent s code arg).twin = s.twin := by
  rw [raiseEvent_frame]
@[simp] theorem raiseEvent_apply (s : State) (code arg : Byte) : (raiseEvent s code arg).apply = s.apply := by
  rw [raiseEvent_frame]
@[simp] theorem raiseEvent_exch (s : State) (code arg : Byte) : (raiseEvent s code arg).exch = s.exch := by
  rw [raiseEvent_frame]
@[simp] theorem raiseEvent_beacon (s : State) (code arg : Byte) : (raiseEvent s code arg).beacon = s.beacon := by
  rw [raiseEvent_frame]
@[simp] theorem raiseEvent_power (s : State) (code arg : Byte) : (raiseEvent s code arg).power = s.power := by
  rw [raiseEvent_frame]
@[simp] theorem raiseEvent_bist (s : State) (code arg : Byte) : (raiseEvent s code arg).bist = s.bist := by
  rw [raiseEvent_frame]
@[simp] theorem raiseEvent_lat (s : State) (code arg : Byte) : (raiseEvent s code arg).lat = s.lat := by
  rw [raiseEvent_frame]
@[simp] theorem raiseEvent_log (s : State) (code arg : Byte) : (raiseEvent s code arg).log = s.log := by
  rw [raiseEvent_frame]
@[simp] theorem raiseEvent_cnt (s : State) (code arg : Byte) : (raiseEvent s code arg).cnt = s.cnt := by
  rw [raiseEvent_frame]
@[simp] theorem raiseEvent_ports (s : State) (code arg : Byte) : (raiseEvent s code arg).ports = s.ports := by
  rw [raiseEvent_frame]
@[simp] theorem raiseEvent_time (s : State) (code arg : Byte) : (raiseEvent s code arg).time = s.time := by
  rw [raiseEvent_frame]
@[simp] theorem raiseEvent_out (s : State) (code arg : Byte) : (raiseEvent s code arg).out = s.out := by
  rw [raiseEvent_frame]
@[simp] theorem raiseEvent_freeCtr (s : State) (code arg : Byte) : (raiseEvent s code arg).freeCtr = s.freeCtr := by
  rw [raiseEvent_frame]
@[simp] theorem raiseEvent_pending (s : State) (code arg : Byte) : (raiseEvent s code arg).pending = s.pending := by
  rw [raiseEvent_frame]

/-! ### logReport -/

theorem logReport_frame (s : State) (cls : Nat) (src : U16) (detail : Nat) :
    logReport s cls src detail = { s with
      log := (logReport s cls src detail).log, events := (logReport s cls src detail).events
      stat := (logReport s cls src detail).stat } := by
  have ev : ∀ t : State, (if classUncorr cls then raiseEvent t evErrUncorr (BitVec.ofNat 8 cls) else t) =
      { t with
        events := (if classUncorr cls then raiseEvent t evErrUncorr (BitVec.ofNat 8 cls) else t).events
        stat := (if classUncorr cls then raiseEvent t evErrUncorr (BitVec.ofNat 8 cls) else t).stat } := by
    intro t
    split
    · exact raiseEvent_frame t _ _
    · rfl
  unfold logReport
  dsimp only
  split
  · split
    · rw [ev]
    · rw [ev]
  · split
    · split
      · rw [ev]
      · rw [ev]
    · split
      · rfl
      · split
        · rw [ev]
        · rw [ev]

@[simp] theorem logReport_fuses (s : State) (cls : Nat) (src : U16) (detail : Nat) : (logReport s cls src detail).fuses = s.fuses := by
  rw [logReport_frame]
@[simp] theorem logReport_ctrl (s : State) (cls : Nat) (src : U16) (detail : Nat) : (logReport s cls src detail).ctrl = s.ctrl := by
  rw [logReport_frame]
@[simp] theorem logReport_rst (s : State) (cls : Nat) (src : U16) (detail : Nat) : (logReport s cls src detail).rst = s.rst := by
  rw [logReport_frame]
@[simp] theorem logReport_fw (s : State) (cls : Nat) (src : U16) (detail : Nat) : (logReport s cls src detail).fw = s.fw := by
  rw [logReport_frame]
@[simp] theorem logReport_mb (s : State) (cls : Nat) (src : U16) (detail : Nat) : (logReport s cls src detail).mb = s.mb := by
  rw [logReport_frame]
@[simp] theorem logReport_job (s : State) (cls : Nat) (src : U16) (detail : Nat) : (logReport s cls src detail).job = s.job := by
  rw [logReport_frame]
@[simp] theorem logReport_mem (s : State) (cls : Nat) (src : U16) (detail : Nat) : (logReport s cls src detail).mem = s.mem := by
  rw [logReport_frame]
@[simp] theorem logReport_tier (s : State) (cls : Nat) (src : U16) (detail : Nat) : (logReport s cls src detail).tier = s.tier := by
  rw [logReport_frame]
@[simp] theorem logReport_cap (s : State) (cls : Nat) (src : U16) (detail : Nat) : (logReport s cls src detail).cap = s.cap := by
  rw [logReport_frame]
@[simp] theorem logReport_fold (s : State) (cls : Nat) (src : U16) (detail : Nat) : (logReport s cls src detail).fold = s.fold := by
  rw [logReport_frame]
@[simp] theorem logReport_digests (s : State) (cls : Nat) (src : U16) (detail : Nat) : (logReport s cls src detail).digests = s.digests := by
  rw [logReport_frame]
@[simp] theorem logReport_tide (s : State) (cls : Nat) (src : U16) (detail : Nat) : (logReport s cls src detail).tide = s.tide := by
  rw [logReport_frame]
@[simp] theorem logReport_agree (s : State) (cls : Nat) (src : U16) (detail : Nat) : (logReport s cls src detail).agree = s.agree := by
  rw [logReport_frame]
@[simp] theorem logReport_bcast (s : State) (cls : Nat) (src : U16) (detail : Nat) : (logReport s cls src detail).bcast = s.bcast := by
  rw [logReport_frame]
@[simp] theorem logReport_recov (s : State) (cls : Nat) (src : U16) (detail : Nat) : (logReport s cls src detail).recov = s.recov := by
  rw [logReport_frame]
@[simp] theorem logReport_twin (s : State) (cls : Nat) (src : U16) (detail : Nat) : (logReport s cls src detail).twin = s.twin := by
  rw [logReport_frame]
@[simp] theorem logReport_apply (s : State) (cls : Nat) (src : U16) (detail : Nat) : (logReport s cls src detail).apply = s.apply := by
  rw [logReport_frame]
@[simp] theorem logReport_exch (s : State) (cls : Nat) (src : U16) (detail : Nat) : (logReport s cls src detail).exch = s.exch := by
  rw [logReport_frame]
@[simp] theorem logReport_beacon (s : State) (cls : Nat) (src : U16) (detail : Nat) : (logReport s cls src detail).beacon = s.beacon := by
  rw [logReport_frame]
@[simp] theorem logReport_power (s : State) (cls : Nat) (src : U16) (detail : Nat) : (logReport s cls src detail).power = s.power := by
  rw [logReport_frame]
@[simp] theorem logReport_bist (s : State) (cls : Nat) (src : U16) (detail : Nat) : (logReport s cls src detail).bist = s.bist := by
  rw [logReport_frame]
@[simp] theorem logReport_lat (s : State) (cls : Nat) (src : U16) (detail : Nat) : (logReport s cls src detail).lat = s.lat := by
  rw [logReport_frame]
@[simp] theorem logReport_cnt (s : State) (cls : Nat) (src : U16) (detail : Nat) : (logReport s cls src detail).cnt = s.cnt := by
  rw [logReport_frame]
@[simp] theorem logReport_ports (s : State) (cls : Nat) (src : U16) (detail : Nat) : (logReport s cls src detail).ports = s.ports := by
  rw [logReport_frame]
@[simp] theorem logReport_time (s : State) (cls : Nat) (src : U16) (detail : Nat) : (logReport s cls src detail).time = s.time := by
  rw [logReport_frame]
@[simp] theorem logReport_out (s : State) (cls : Nat) (src : U16) (detail : Nat) : (logReport s cls src detail).out = s.out := by
  rw [logReport_frame]
@[simp] theorem logReport_freeCtr (s : State) (cls : Nat) (src : U16) (detail : Nat) : (logReport s cls src detail).freeCtr = s.freeCtr := by
  rw [logReport_frame]
@[simp] theorem logReport_pending (s : State) (cls : Nat) (src : U16) (detail : Nat) : (logReport s cls src detail).pending = s.pending := by
  rw [logReport_frame]

/-! ### logAccess -/

@[simp] theorem logAccess_fuses (s : State) (port : Port) (off : Nat) : (logAccess s port off).fuses = s.fuses := by
  unfold logAccess
  simp
@[simp] theorem logAccess_ctrl (s : State) (port : Port) (off : Nat) : (logAccess s port off).ctrl = s.ctrl := by
  unfold logAccess
  simp
@[simp] theorem logAccess_rst (s : State) (port : Port) (off : Nat) : (logAccess s port off).rst = s.rst := by
  unfold logAccess
  simp
@[simp] theorem logAccess_fw (s : State) (port : Port) (off : Nat) : (logAccess s port off).fw = s.fw := by
  unfold logAccess
  simp
@[simp] theorem logAccess_mb (s : State) (port : Port) (off : Nat) : (logAccess s port off).mb = s.mb := by
  unfold logAccess
  simp
@[simp] theorem logAccess_job (s : State) (port : Port) (off : Nat) : (logAccess s port off).job = s.job := by
  unfold logAccess
  simp
@[simp] theorem logAccess_mem (s : State) (port : Port) (off : Nat) : (logAccess s port off).mem = s.mem := by
  unfold logAccess
  simp
@[simp] theorem logAccess_tier (s : State) (port : Port) (off : Nat) : (logAccess s port off).tier = s.tier := by
  unfold logAccess
  simp
@[simp] theorem logAccess_cap (s : State) (port : Port) (off : Nat) : (logAccess s port off).cap = s.cap := by
  unfold logAccess
  simp
@[simp] theorem logAccess_fold (s : State) (port : Port) (off : Nat) : (logAccess s port off).fold = s.fold := by
  unfold logAccess
  simp
@[simp] theorem logAccess_digests (s : State) (port : Port) (off : Nat) : (logAccess s port off).digests = s.digests := by
  unfold logAccess
  simp
@[simp] theorem logAccess_tide (s : State) (port : Port) (off : Nat) : (logAccess s port off).tide = s.tide := by
  unfold logAccess
  simp
@[simp] theorem logAccess_agree (s : State) (port : Port) (off : Nat) : (logAccess s port off).agree = s.agree := by
  unfold logAccess
  simp
@[simp] theorem logAccess_bcast (s : State) (port : Port) (off : Nat) : (logAccess s port off).bcast = s.bcast := by
  unfold logAccess
  simp
@[simp] theorem logAccess_recov (s : State) (port : Port) (off : Nat) : (logAccess s port off).recov = s.recov := by
  unfold logAccess
  simp
@[simp] theorem logAccess_twin (s : State) (port : Port) (off : Nat) : (logAccess s port off).twin = s.twin := by
  unfold logAccess
  simp
@[simp] theorem logAccess_apply (s : State) (port : Port) (off : Nat) : (logAccess s port off).apply = s.apply := by
  unfold logAccess
  simp
@[simp] theorem logAccess_exch (s : State) (port : Port) (off : Nat) : (logAccess s port off).exch = s.exch := by
  unfold logAccess
  simp
@[simp] theorem logAccess_beacon (s : State) (port : Port) (off : Nat) : (logAccess s port off).beacon = s.beacon := by
  unfold logAccess
  simp
@[simp] theorem logAccess_power (s : State) (port : Port) (off : Nat) : (logAccess s port off).power = s.power := by
  unfold logAccess
  simp
@[simp] theorem logAccess_bist (s : State) (port : Port) (off : Nat) : (logAccess s port off).bist = s.bist := by
  unfold logAccess
  simp
@[simp] theorem logAccess_lat (s : State) (port : Port) (off : Nat) : (logAccess s port off).lat = s.lat := by
  unfold logAccess
  simp
@[simp] theorem logAccess_cnt (s : State) (port : Port) (off : Nat) : (logAccess s port off).cnt = s.cnt := by
  unfold logAccess
  simp
@[simp] theorem logAccess_ports (s : State) (port : Port) (off : Nat) : (logAccess s port off).ports = s.ports := by
  unfold logAccess
  simp
@[simp] theorem logAccess_time (s : State) (port : Port) (off : Nat) : (logAccess s port off).time = s.time := by
  unfold logAccess
  simp
@[simp] theorem logAccess_out (s : State) (port : Port) (off : Nat) : (logAccess s port off).out = s.out := by
  unfold logAccess
  simp
@[simp] theorem logAccess_freeCtr (s : State) (port : Port) (off : Nat) : (logAccess s port off).freeCtr = s.freeCtr := by
  unfold logAccess
  simp
@[simp] theorem logAccess_pending (s : State) (port : Port) (off : Nat) : (logAccess s port off).pending = s.pending := by
  unfold logAccess
  simp


/-! ### mbDoneEvent -/

@[simp] theorem mbDoneEvent_fuses (s : State) (m : Fin 8) : (mbDoneEvent s m).fuses = s.fuses := by
  unfold mbDoneEvent
  split <;> simp
@[simp] theorem mbDoneEvent_ctrl (s : State) (m : Fin 8) : (mbDoneEvent s m).ctrl = s.ctrl := by
  unfold mbDoneEvent
  split <;> simp
@[simp] theorem mbDoneEvent_rst (s : State) (m : Fin 8) : (mbDoneEvent s m).rst = s.rst := by
  unfold mbDoneEvent
  split <;> simp
@[simp] theorem mbDoneEvent_fw (s : State) (m : Fin 8) : (mbDoneEvent s m).fw = s.fw := by
  unfold mbDoneEvent
  split <;> simp
@[simp] theorem mbDoneEvent_mb (s : State) (m : Fin 8) : (mbDoneEvent s m).mb = s.mb := by
  unfold mbDoneEvent
  split <;> simp
@[simp] theorem mbDoneEvent_job (s : State) (m : Fin 8) : (mbDoneEvent s m).job = s.job := by
  unfold mbDoneEvent
  split <;> simp
@[simp] theorem mbDoneEvent_mem (s : State) (m : Fin 8) : (mbDoneEvent s m).mem = s.mem := by
  unfold mbDoneEvent
  split <;> simp
@[simp] theorem mbDoneEvent_tier (s : State) (m : Fin 8) : (mbDoneEvent s m).tier = s.tier := by
  unfold mbDoneEvent
  split <;> simp
@[simp] theorem mbDoneEvent_cap (s : State) (m : Fin 8) : (mbDoneEvent s m).cap = s.cap := by
  unfold mbDoneEvent
  split <;> simp
@[simp] theorem mbDoneEvent_fold (s : State) (m : Fin 8) : (mbDoneEvent s m).fold = s.fold := by
  unfold mbDoneEvent
  split <;> simp
@[simp] theorem mbDoneEvent_digests (s : State) (m : Fin 8) : (mbDoneEvent s m).digests = s.digests := by
  unfold mbDoneEvent
  split <;> simp
@[simp] theorem mbDoneEvent_tide (s : State) (m : Fin 8) : (mbDoneEvent s m).tide = s.tide := by
  unfold mbDoneEvent
  split <;> simp
@[simp] theorem mbDoneEvent_agree (s : State) (m : Fin 8) : (mbDoneEvent s m).agree = s.agree := by
  unfold mbDoneEvent
  split <;> simp
@[simp] theorem mbDoneEvent_bcast (s : State) (m : Fin 8) : (mbDoneEvent s m).bcast = s.bcast := by
  unfold mbDoneEvent
  split <;> simp
@[simp] theorem mbDoneEvent_recov (s : State) (m : Fin 8) : (mbDoneEvent s m).recov = s.recov := by
  unfold mbDoneEvent
  split <;> simp
@[simp] theorem mbDoneEvent_twin (s : State) (m : Fin 8) : (mbDoneEvent s m).twin = s.twin := by
  unfold mbDoneEvent
  split <;> simp
@[simp] theorem mbDoneEvent_apply (s : State) (m : Fin 8) : (mbDoneEvent s m).apply = s.apply := by
  unfold mbDoneEvent
  split <;> simp
@[simp] theorem mbDoneEvent_exch (s : State) (m : Fin 8) : (mbDoneEvent s m).exch = s.exch := by
  unfold mbDoneEvent
  split <;> simp
@[simp] theorem mbDoneEvent_beacon (s : State) (m : Fin 8) : (mbDoneEvent s m).beacon = s.beacon := by
  unfold mbDoneEvent
  split <;> simp
@[simp] theorem mbDoneEvent_power (s : State) (m : Fin 8) : (mbDoneEvent s m).power = s.power := by
  unfold mbDoneEvent
  split <;> simp
@[simp] theorem mbDoneEvent_bist (s : State) (m : Fin 8) : (mbDoneEvent s m).bist = s.bist := by
  unfold mbDoneEvent
  split <;> simp
@[simp] theorem mbDoneEvent_lat (s : State) (m : Fin 8) : (mbDoneEvent s m).lat = s.lat := by
  unfold mbDoneEvent
  split <;> simp
@[simp] theorem mbDoneEvent_log (s : State) (m : Fin 8) : (mbDoneEvent s m).log = s.log := by
  unfold mbDoneEvent
  split <;> simp
@[simp] theorem mbDoneEvent_cnt (s : State) (m : Fin 8) : (mbDoneEvent s m).cnt = s.cnt := by
  unfold mbDoneEvent
  split <;> simp
@[simp] theorem mbDoneEvent_ports (s : State) (m : Fin 8) : (mbDoneEvent s m).ports = s.ports := by
  unfold mbDoneEvent
  split <;> simp
@[simp] theorem mbDoneEvent_time (s : State) (m : Fin 8) : (mbDoneEvent s m).time = s.time := by
  unfold mbDoneEvent
  split <;> simp
@[simp] theorem mbDoneEvent_out (s : State) (m : Fin 8) : (mbDoneEvent s m).out = s.out := by
  unfold mbDoneEvent
  split <;> simp
@[simp] theorem mbDoneEvent_freeCtr (s : State) (m : Fin 8) : (mbDoneEvent s m).freeCtr = s.freeCtr := by
  unfold mbDoneEvent
  split <;> simp
@[simp] theorem mbDoneEvent_pending (s : State) (m : Fin 8) : (mbDoneEvent s m).pending = s.pending := by
  unfold mbDoneEvent
  split <;> simp


/-! ### respond -/

@[simp] theorem respond_fuses (s : State) (m : Fin 8) (status detail : Nat) (results : List (Nat × Nat × Nat)) : (respond s m status detail results).fuses = s.fuses := by
  unfold respond
  split <;> simp
@[simp] theorem respond_ctrl (s : State) (m : Fin 8) (status detail : Nat) (results : List (Nat × Nat × Nat)) : (respond s m status detail results).ctrl = s.ctrl := by
  unfold respond
  split <;> simp
@[simp] theorem respond_fw (s : State) (m : Fin 8) (status detail : Nat) (results : List (Nat × Nat × Nat)) : (respond s m status detail results).fw = s.fw := by
  unfold respond
  split <;> simp
@[simp] theorem respond_job (s : State) (m : Fin 8) (status detail : Nat) (results : List (Nat × Nat × Nat)) : (respond s m status detail results).job = s.job := by
  unfold respond
  split <;> simp
@[simp] theorem respond_mem (s : State) (m : Fin 8) (status detail : Nat) (results : List (Nat × Nat × Nat)) : (respond s m status detail results).mem = s.mem := by
  unfold respond
  split <;> simp
@[simp] theorem respond_tier (s : State) (m : Fin 8) (status detail : Nat) (results : List (Nat × Nat × Nat)) : (respond s m status detail results).tier = s.tier := by
  unfold respond
  split <;> simp
@[simp] theorem respond_cap (s : State) (m : Fin 8) (status detail : Nat) (results : List (Nat × Nat × Nat)) : (respond s m status detail results).cap = s.cap := by
  unfold respond
  split <;> simp
@[simp] theorem respond_fold (s : State) (m : Fin 8) (status detail : Nat) (results : List (Nat × Nat × Nat)) : (respond s m status detail results).fold = s.fold := by
  unfold respond
  split <;> simp
@[simp] theorem respond_digests (s : State) (m : Fin 8) (status detail : Nat) (results : List (Nat × Nat × Nat)) : (respond s m status detail results).digests = s.digests := by
  unfold respond
  split <;> simp
@[simp] theorem respond_tide (s : State) (m : Fin 8) (status detail : Nat) (results : List (Nat × Nat × Nat)) : (respond s m status detail results).tide = s.tide := by
  unfold respond
  split <;> simp
@[simp] theorem respond_agree (s : State) (m : Fin 8) (status detail : Nat) (results : List (Nat × Nat × Nat)) : (respond s m status detail results).agree = s.agree := by
  unfold respond
  split <;> simp
@[simp] theorem respond_bcast (s : State) (m : Fin 8) (status detail : Nat) (results : List (Nat × Nat × Nat)) : (respond s m status detail results).bcast = s.bcast := by
  unfold respond
  split <;> simp
@[simp] theorem respond_recov (s : State) (m : Fin 8) (status detail : Nat) (results : List (Nat × Nat × Nat)) : (respond s m status detail results).recov = s.recov := by
  unfold respond
  split <;> simp
@[simp] theorem respond_twin (s : State) (m : Fin 8) (status detail : Nat) (results : List (Nat × Nat × Nat)) : (respond s m status detail results).twin = s.twin := by
  unfold respond
  split <;> simp
@[simp] theorem respond_apply (s : State) (m : Fin 8) (status detail : Nat) (results : List (Nat × Nat × Nat)) : (respond s m status detail results).apply = s.apply := by
  unfold respond
  split <;> simp
@[simp] theorem respond_exch (s : State) (m : Fin 8) (status detail : Nat) (results : List (Nat × Nat × Nat)) : (respond s m status detail results).exch = s.exch := by
  unfold respond
  split <;> simp
@[simp] theorem respond_beacon (s : State) (m : Fin 8) (status detail : Nat) (results : List (Nat × Nat × Nat)) : (respond s m status detail results).beacon = s.beacon := by
  unfold respond
  split <;> simp
@[simp] theorem respond_power (s : State) (m : Fin 8) (status detail : Nat) (results : List (Nat × Nat × Nat)) : (respond s m status detail results).power = s.power := by
  unfold respond
  split <;> simp
@[simp] theorem respond_bist (s : State) (m : Fin 8) (status detail : Nat) (results : List (Nat × Nat × Nat)) : (respond s m status detail results).bist = s.bist := by
  unfold respond
  split <;> simp
@[simp] theorem respond_lat (s : State) (m : Fin 8) (status detail : Nat) (results : List (Nat × Nat × Nat)) : (respond s m status detail results).lat = s.lat := by
  unfold respond
  split <;> simp
@[simp] theorem respond_log (s : State) (m : Fin 8) (status detail : Nat) (results : List (Nat × Nat × Nat)) : (respond s m status detail results).log = s.log := by
  unfold respond
  split <;> simp
@[simp] theorem respond_cnt (s : State) (m : Fin 8) (status detail : Nat) (results : List (Nat × Nat × Nat)) : (respond s m status detail results).cnt = s.cnt := by
  unfold respond
  split <;> simp
@[simp] theorem respond_ports (s : State) (m : Fin 8) (status detail : Nat) (results : List (Nat × Nat × Nat)) : (respond s m status detail results).ports = s.ports := by
  unfold respond
  split <;> simp
@[simp] theorem respond_time (s : State) (m : Fin 8) (status detail : Nat) (results : List (Nat × Nat × Nat)) : (respond s m status detail results).time = s.time := by
  unfold respond
  split <;> simp
@[simp] theorem respond_out (s : State) (m : Fin 8) (status detail : Nat) (results : List (Nat × Nat × Nat)) : (respond s m status detail results).out = s.out := by
  unfold respond
  split <;> simp
@[simp] theorem respond_freeCtr (s : State) (m : Fin 8) (status detail : Nat) (results : List (Nat × Nat × Nat)) : (respond s m status detail results).freeCtr = s.freeCtr := by
  unfold respond
  split <;> simp
@[simp] theorem respond_pending (s : State) (m : Fin 8) (status detail : Nat) (results : List (Nat × Nat × Nat)) : (respond s m status detail results).pending = s.pending := by
  unfold respond
  split <;> simp


/-! ### accepted -/

@[simp] theorem accepted_fuses (s : State) (m : Fin 8) : (accepted s m).fuses = s.fuses := by
  unfold accepted
  simp
@[simp] theorem accepted_ctrl (s : State) (m : Fin 8) : (accepted s m).ctrl = s.ctrl := by
  unfold accepted
  simp
@[simp] theorem accepted_rst (s : State) (m : Fin 8) : (accepted s m).rst = s.rst := by
  unfold accepted
  simp
@[simp] theorem accepted_fw (s : State) (m : Fin 8) : (accepted s m).fw = s.fw := by
  unfold accepted
  simp
@[simp] theorem accepted_job (s : State) (m : Fin 8) : (accepted s m).job = s.job := by
  unfold accepted
  simp
@[simp] theorem accepted_mem (s : State) (m : Fin 8) : (accepted s m).mem = s.mem := by
  unfold accepted
  simp
@[simp] theorem accepted_tier (s : State) (m : Fin 8) : (accepted s m).tier = s.tier := by
  unfold accepted
  simp
@[simp] theorem accepted_cap (s : State) (m : Fin 8) : (accepted s m).cap = s.cap := by
  unfold accepted
  simp
@[simp] theorem accepted_fold (s : State) (m : Fin 8) : (accepted s m).fold = s.fold := by
  unfold accepted
  simp
@[simp] theorem accepted_digests (s : State) (m : Fin 8) : (accepted s m).digests = s.digests := by
  unfold accepted
  simp
@[simp] theorem accepted_tide (s : State) (m : Fin 8) : (accepted s m).tide = s.tide := by
  unfold accepted
  simp
@[simp] theorem accepted_agree (s : State) (m : Fin 8) : (accepted s m).agree = s.agree := by
  unfold accepted
  simp
@[simp] theorem accepted_bcast (s : State) (m : Fin 8) : (accepted s m).bcast = s.bcast := by
  unfold accepted
  simp
@[simp] theorem accepted_recov (s : State) (m : Fin 8) : (accepted s m).recov = s.recov := by
  unfold accepted
  simp
@[simp] theorem accepted_twin (s : State) (m : Fin 8) : (accepted s m).twin = s.twin := by
  unfold accepted
  simp
@[simp] theorem accepted_apply (s : State) (m : Fin 8) : (accepted s m).apply = s.apply := by
  unfold accepted
  simp
@[simp] theorem accepted_exch (s : State) (m : Fin 8) : (accepted s m).exch = s.exch := by
  unfold accepted
  simp
@[simp] theorem accepted_beacon (s : State) (m : Fin 8) : (accepted s m).beacon = s.beacon := by
  unfold accepted
  simp
@[simp] theorem accepted_power (s : State) (m : Fin 8) : (accepted s m).power = s.power := by
  unfold accepted
  simp
@[simp] theorem accepted_bist (s : State) (m : Fin 8) : (accepted s m).bist = s.bist := by
  unfold accepted
  simp
@[simp] theorem accepted_lat (s : State) (m : Fin 8) : (accepted s m).lat = s.lat := by
  unfold accepted
  simp
@[simp] theorem accepted_log (s : State) (m : Fin 8) : (accepted s m).log = s.log := by
  unfold accepted
  simp
@[simp] theorem accepted_cnt (s : State) (m : Fin 8) : (accepted s m).cnt = s.cnt := by
  unfold accepted
  simp
@[simp] theorem accepted_ports (s : State) (m : Fin 8) : (accepted s m).ports = s.ports := by
  unfold accepted
  simp
@[simp] theorem accepted_time (s : State) (m : Fin 8) : (accepted s m).time = s.time := by
  unfold accepted
  simp
@[simp] theorem accepted_out (s : State) (m : Fin 8) : (accepted s m).out = s.out := by
  unfold accepted
  simp
@[simp] theorem accepted_freeCtr (s : State) (m : Fin 8) : (accepted s m).freeCtr = s.freeCtr := by
  unfold accepted
  simp
@[simp] theorem accepted_pending (s : State) (m : Fin 8) : (accepted s m).pending = s.pending := by
  unfold accepted
  simp


/-! ### respondOk -/

@[simp] theorem respondOk_fuses (s : State) (m : Fin 8) : (respondOk s m).fuses = s.fuses := by
  unfold respondOk
  simp
@[simp] theorem respondOk_ctrl (s : State) (m : Fin 8) : (respondOk s m).ctrl = s.ctrl := by
  unfold respondOk
  simp
@[simp] theorem respondOk_fw (s : State) (m : Fin 8) : (respondOk s m).fw = s.fw := by
  unfold respondOk
  simp
@[simp] theorem respondOk_job (s : State) (m : Fin 8) : (respondOk s m).job = s.job := by
  unfold respondOk
  simp
@[simp] theorem respondOk_mem (s : State) (m : Fin 8) : (respondOk s m).mem = s.mem := by
  unfold respondOk
  simp
@[simp] theorem respondOk_tier (s : State) (m : Fin 8) : (respondOk s m).tier = s.tier := by
  unfold respondOk
  simp
@[simp] theorem respondOk_cap (s : State) (m : Fin 8) : (respondOk s m).cap = s.cap := by
  unfold respondOk
  simp
@[simp] theorem respondOk_fold (s : State) (m : Fin 8) : (respondOk s m).fold = s.fold := by
  unfold respondOk
  simp
@[simp] theorem respondOk_digests (s : State) (m : Fin 8) : (respondOk s m).digests = s.digests := by
  unfold respondOk
  simp
@[simp] theorem respondOk_tide (s : State) (m : Fin 8) : (respondOk s m).tide = s.tide := by
  unfold respondOk
  simp
@[simp] theorem respondOk_agree (s : State) (m : Fin 8) : (respondOk s m).agree = s.agree := by
  unfold respondOk
  simp
@[simp] theorem respondOk_bcast (s : State) (m : Fin 8) : (respondOk s m).bcast = s.bcast := by
  unfold respondOk
  simp
@[simp] theorem respondOk_recov (s : State) (m : Fin 8) : (respondOk s m).recov = s.recov := by
  unfold respondOk
  simp
@[simp] theorem respondOk_twin (s : State) (m : Fin 8) : (respondOk s m).twin = s.twin := by
  unfold respondOk
  simp
@[simp] theorem respondOk_apply (s : State) (m : Fin 8) : (respondOk s m).apply = s.apply := by
  unfold respondOk
  simp
@[simp] theorem respondOk_exch (s : State) (m : Fin 8) : (respondOk s m).exch = s.exch := by
  unfold respondOk
  simp
@[simp] theorem respondOk_beacon (s : State) (m : Fin 8) : (respondOk s m).beacon = s.beacon := by
  unfold respondOk
  simp
@[simp] theorem respondOk_power (s : State) (m : Fin 8) : (respondOk s m).power = s.power := by
  unfold respondOk
  simp
@[simp] theorem respondOk_bist (s : State) (m : Fin 8) : (respondOk s m).bist = s.bist := by
  unfold respondOk
  simp
@[simp] theorem respondOk_lat (s : State) (m : Fin 8) : (respondOk s m).lat = s.lat := by
  unfold respondOk
  simp
@[simp] theorem respondOk_log (s : State) (m : Fin 8) : (respondOk s m).log = s.log := by
  unfold respondOk
  simp
@[simp] theorem respondOk_cnt (s : State) (m : Fin 8) : (respondOk s m).cnt = s.cnt := by
  unfold respondOk
  simp
@[simp] theorem respondOk_ports (s : State) (m : Fin 8) : (respondOk s m).ports = s.ports := by
  unfold respondOk
  simp
@[simp] theorem respondOk_time (s : State) (m : Fin 8) : (respondOk s m).time = s.time := by
  unfold respondOk
  simp
@[simp] theorem respondOk_out (s : State) (m : Fin 8) : (respondOk s m).out = s.out := by
  unfold respondOk
  simp
@[simp] theorem respondOk_freeCtr (s : State) (m : Fin 8) : (respondOk s m).freeCtr = s.freeCtr := by
  unfold respondOk
  simp
@[simp] theorem respondOk_pending (s : State) (m : Fin 8) : (respondOk s m).pending = s.pending := by
  unfold respondOk
  simp


/-! ### badArg -/

@[simp] theorem badArg_fuses (s : State) (m : Fin 8) (off : Nat) : (badArg s m off).fuses = s.fuses := by
  unfold badArg
  simp
@[simp] theorem badArg_ctrl (s : State) (m : Fin 8) (off : Nat) : (badArg s m off).ctrl = s.ctrl := by
  unfold badArg
  simp
@[simp] theorem badArg_fw (s : State) (m : Fin 8) (off : Nat) : (badArg s m off).fw = s.fw := by
  unfold badArg
  simp
@[simp] theorem badArg_job (s : State) (m : Fin 8) (off : Nat) : (badArg s m off).job = s.job := by
  unfold badArg
  simp
@[simp] theorem badArg_mem (s : State) (m : Fin 8) (off : Nat) : (badArg s m off).mem = s.mem := by
  unfold badArg
  simp
@[simp] theorem badArg_tier (s : State) (m : Fin 8) (off : Nat) : (badArg s m off).tier = s.tier := by
  unfold badArg
  simp
@[simp] theorem badArg_cap (s : State) (m : Fin 8) (off : Nat) : (badArg s m off).cap = s.cap := by
  unfold badArg
  simp
@[simp] theorem badArg_fold (s : State) (m : Fin 8) (off : Nat) : (badArg s m off).fold = s.fold := by
  unfold badArg
  simp
@[simp] theorem badArg_digests (s : State) (m : Fin 8) (off : Nat) : (badArg s m off).digests = s.digests := by
  unfold badArg
  simp
@[simp] theorem badArg_tide (s : State) (m : Fin 8) (off : Nat) : (badArg s m off).tide = s.tide := by
  unfold badArg
  simp
@[simp] theorem badArg_agree (s : State) (m : Fin 8) (off : Nat) : (badArg s m off).agree = s.agree := by
  unfold badArg
  simp
@[simp] theorem badArg_bcast (s : State) (m : Fin 8) (off : Nat) : (badArg s m off).bcast = s.bcast := by
  unfold badArg
  simp
@[simp] theorem badArg_recov (s : State) (m : Fin 8) (off : Nat) : (badArg s m off).recov = s.recov := by
  unfold badArg
  simp
@[simp] theorem badArg_twin (s : State) (m : Fin 8) (off : Nat) : (badArg s m off).twin = s.twin := by
  unfold badArg
  simp
@[simp] theorem badArg_apply (s : State) (m : Fin 8) (off : Nat) : (badArg s m off).apply = s.apply := by
  unfold badArg
  simp
@[simp] theorem badArg_exch (s : State) (m : Fin 8) (off : Nat) : (badArg s m off).exch = s.exch := by
  unfold badArg
  simp
@[simp] theorem badArg_beacon (s : State) (m : Fin 8) (off : Nat) : (badArg s m off).beacon = s.beacon := by
  unfold badArg
  simp
@[simp] theorem badArg_power (s : State) (m : Fin 8) (off : Nat) : (badArg s m off).power = s.power := by
  unfold badArg
  simp
@[simp] theorem badArg_bist (s : State) (m : Fin 8) (off : Nat) : (badArg s m off).bist = s.bist := by
  unfold badArg
  simp
@[simp] theorem badArg_lat (s : State) (m : Fin 8) (off : Nat) : (badArg s m off).lat = s.lat := by
  unfold badArg
  simp
@[simp] theorem badArg_log (s : State) (m : Fin 8) (off : Nat) : (badArg s m off).log = s.log := by
  unfold badArg
  simp
@[simp] theorem badArg_cnt (s : State) (m : Fin 8) (off : Nat) : (badArg s m off).cnt = s.cnt := by
  unfold badArg
  simp
@[simp] theorem badArg_ports (s : State) (m : Fin 8) (off : Nat) : (badArg s m off).ports = s.ports := by
  unfold badArg
  simp
@[simp] theorem badArg_time (s : State) (m : Fin 8) (off : Nat) : (badArg s m off).time = s.time := by
  unfold badArg
  simp
@[simp] theorem badArg_out (s : State) (m : Fin 8) (off : Nat) : (badArg s m off).out = s.out := by
  unfold badArg
  simp
@[simp] theorem badArg_freeCtr (s : State) (m : Fin 8) (off : Nat) : (badArg s m off).freeCtr = s.freeCtr := by
  unfold badArg
  simp
@[simp] theorem badArg_pending (s : State) (m : Fin 8) (off : Nat) : (badArg s m off).pending = s.pending := by
  unfold badArg
  simp


/-! ### badBlock -/

@[simp] theorem badBlock_fuses (s : State) (m : Fin 8) (off : Nat) : (badBlock s m off).fuses = s.fuses := by
  unfold badBlock
  simp
@[simp] theorem badBlock_ctrl (s : State) (m : Fin 8) (off : Nat) : (badBlock s m off).ctrl = s.ctrl := by
  unfold badBlock
  simp
@[simp] theorem badBlock_fw (s : State) (m : Fin 8) (off : Nat) : (badBlock s m off).fw = s.fw := by
  unfold badBlock
  simp
@[simp] theorem badBlock_job (s : State) (m : Fin 8) (off : Nat) : (badBlock s m off).job = s.job := by
  unfold badBlock
  simp
@[simp] theorem badBlock_mem (s : State) (m : Fin 8) (off : Nat) : (badBlock s m off).mem = s.mem := by
  unfold badBlock
  simp
@[simp] theorem badBlock_tier (s : State) (m : Fin 8) (off : Nat) : (badBlock s m off).tier = s.tier := by
  unfold badBlock
  simp
@[simp] theorem badBlock_cap (s : State) (m : Fin 8) (off : Nat) : (badBlock s m off).cap = s.cap := by
  unfold badBlock
  simp
@[simp] theorem badBlock_fold (s : State) (m : Fin 8) (off : Nat) : (badBlock s m off).fold = s.fold := by
  unfold badBlock
  simp
@[simp] theorem badBlock_digests (s : State) (m : Fin 8) (off : Nat) : (badBlock s m off).digests = s.digests := by
  unfold badBlock
  simp
@[simp] theorem badBlock_tide (s : State) (m : Fin 8) (off : Nat) : (badBlock s m off).tide = s.tide := by
  unfold badBlock
  simp
@[simp] theorem badBlock_agree (s : State) (m : Fin 8) (off : Nat) : (badBlock s m off).agree = s.agree := by
  unfold badBlock
  simp
@[simp] theorem badBlock_bcast (s : State) (m : Fin 8) (off : Nat) : (badBlock s m off).bcast = s.bcast := by
  unfold badBlock
  simp
@[simp] theorem badBlock_recov (s : State) (m : Fin 8) (off : Nat) : (badBlock s m off).recov = s.recov := by
  unfold badBlock
  simp
@[simp] theorem badBlock_twin (s : State) (m : Fin 8) (off : Nat) : (badBlock s m off).twin = s.twin := by
  unfold badBlock
  simp
@[simp] theorem badBlock_apply (s : State) (m : Fin 8) (off : Nat) : (badBlock s m off).apply = s.apply := by
  unfold badBlock
  simp
@[simp] theorem badBlock_exch (s : State) (m : Fin 8) (off : Nat) : (badBlock s m off).exch = s.exch := by
  unfold badBlock
  simp
@[simp] theorem badBlock_beacon (s : State) (m : Fin 8) (off : Nat) : (badBlock s m off).beacon = s.beacon := by
  unfold badBlock
  simp
@[simp] theorem badBlock_power (s : State) (m : Fin 8) (off : Nat) : (badBlock s m off).power = s.power := by
  unfold badBlock
  simp
@[simp] theorem badBlock_bist (s : State) (m : Fin 8) (off : Nat) : (badBlock s m off).bist = s.bist := by
  unfold badBlock
  simp
@[simp] theorem badBlock_lat (s : State) (m : Fin 8) (off : Nat) : (badBlock s m off).lat = s.lat := by
  unfold badBlock
  simp
@[simp] theorem badBlock_log (s : State) (m : Fin 8) (off : Nat) : (badBlock s m off).log = s.log := by
  unfold badBlock
  simp
@[simp] theorem badBlock_cnt (s : State) (m : Fin 8) (off : Nat) : (badBlock s m off).cnt = s.cnt := by
  unfold badBlock
  simp
@[simp] theorem badBlock_ports (s : State) (m : Fin 8) (off : Nat) : (badBlock s m off).ports = s.ports := by
  unfold badBlock
  simp
@[simp] theorem badBlock_time (s : State) (m : Fin 8) (off : Nat) : (badBlock s m off).time = s.time := by
  unfold badBlock
  simp
@[simp] theorem badBlock_out (s : State) (m : Fin 8) (off : Nat) : (badBlock s m off).out = s.out := by
  unfold badBlock
  simp
@[simp] theorem badBlock_freeCtr (s : State) (m : Fin 8) (off : Nat) : (badBlock s m off).freeCtr = s.freeCtr := by
  unfold badBlock
  simp
@[simp] theorem badBlock_pending (s : State) (m : Fin 8) (off : Nat) : (badBlock s m off).pending = s.pending := by
  unfold badBlock
  simp


/-! ### wrongState -/

@[simp] theorem wrongState_fuses (s : State) (m : Fin 8) : (wrongState s m).fuses = s.fuses := by
  unfold wrongState
  simp
@[simp] theorem wrongState_ctrl (s : State) (m : Fin 8) : (wrongState s m).ctrl = s.ctrl := by
  unfold wrongState
  simp
@[simp] theorem wrongState_fw (s : State) (m : Fin 8) : (wrongState s m).fw = s.fw := by
  unfold wrongState
  simp
@[simp] theorem wrongState_job (s : State) (m : Fin 8) : (wrongState s m).job = s.job := by
  unfold wrongState
  simp
@[simp] theorem wrongState_mem (s : State) (m : Fin 8) : (wrongState s m).mem = s.mem := by
  unfold wrongState
  simp
@[simp] theorem wrongState_tier (s : State) (m : Fin 8) : (wrongState s m).tier = s.tier := by
  unfold wrongState
  simp
@[simp] theorem wrongState_cap (s : State) (m : Fin 8) : (wrongState s m).cap = s.cap := by
  unfold wrongState
  simp
@[simp] theorem wrongState_fold (s : State) (m : Fin 8) : (wrongState s m).fold = s.fold := by
  unfold wrongState
  simp
@[simp] theorem wrongState_digests (s : State) (m : Fin 8) : (wrongState s m).digests = s.digests := by
  unfold wrongState
  simp
@[simp] theorem wrongState_tide (s : State) (m : Fin 8) : (wrongState s m).tide = s.tide := by
  unfold wrongState
  simp
@[simp] theorem wrongState_agree (s : State) (m : Fin 8) : (wrongState s m).agree = s.agree := by
  unfold wrongState
  simp
@[simp] theorem wrongState_bcast (s : State) (m : Fin 8) : (wrongState s m).bcast = s.bcast := by
  unfold wrongState
  simp
@[simp] theorem wrongState_recov (s : State) (m : Fin 8) : (wrongState s m).recov = s.recov := by
  unfold wrongState
  simp
@[simp] theorem wrongState_twin (s : State) (m : Fin 8) : (wrongState s m).twin = s.twin := by
  unfold wrongState
  simp
@[simp] theorem wrongState_apply (s : State) (m : Fin 8) : (wrongState s m).apply = s.apply := by
  unfold wrongState
  simp
@[simp] theorem wrongState_exch (s : State) (m : Fin 8) : (wrongState s m).exch = s.exch := by
  unfold wrongState
  simp
@[simp] theorem wrongState_beacon (s : State) (m : Fin 8) : (wrongState s m).beacon = s.beacon := by
  unfold wrongState
  simp
@[simp] theorem wrongState_power (s : State) (m : Fin 8) : (wrongState s m).power = s.power := by
  unfold wrongState
  simp
@[simp] theorem wrongState_bist (s : State) (m : Fin 8) : (wrongState s m).bist = s.bist := by
  unfold wrongState
  simp
@[simp] theorem wrongState_lat (s : State) (m : Fin 8) : (wrongState s m).lat = s.lat := by
  unfold wrongState
  simp
@[simp] theorem wrongState_log (s : State) (m : Fin 8) : (wrongState s m).log = s.log := by
  unfold wrongState
  simp
@[simp] theorem wrongState_cnt (s : State) (m : Fin 8) : (wrongState s m).cnt = s.cnt := by
  unfold wrongState
  simp
@[simp] theorem wrongState_ports (s : State) (m : Fin 8) : (wrongState s m).ports = s.ports := by
  unfold wrongState
  simp
@[simp] theorem wrongState_time (s : State) (m : Fin 8) : (wrongState s m).time = s.time := by
  unfold wrongState
  simp
@[simp] theorem wrongState_out (s : State) (m : Fin 8) : (wrongState s m).out = s.out := by
  unfold wrongState
  simp
@[simp] theorem wrongState_freeCtr (s : State) (m : Fin 8) : (wrongState s m).freeCtr = s.freeCtr := by
  unfold wrongState
  simp
@[simp] theorem wrongState_pending (s : State) (m : Fin 8) : (wrongState s m).pending = s.pending := by
  unfold wrongState
  simp


/-! ### busyWith -/

@[simp] theorem busyWith_fuses (s : State) (m : Fin 8) (o : Option (Fin 8)) : (busyWith s m o).fuses = s.fuses := by
  unfold busyWith
  simp
@[simp] theorem busyWith_ctrl (s : State) (m : Fin 8) (o : Option (Fin 8)) : (busyWith s m o).ctrl = s.ctrl := by
  unfold busyWith
  simp
@[simp] theorem busyWith_fw (s : State) (m : Fin 8) (o : Option (Fin 8)) : (busyWith s m o).fw = s.fw := by
  unfold busyWith
  simp
@[simp] theorem busyWith_job (s : State) (m : Fin 8) (o : Option (Fin 8)) : (busyWith s m o).job = s.job := by
  unfold busyWith
  simp
@[simp] theorem busyWith_mem (s : State) (m : Fin 8) (o : Option (Fin 8)) : (busyWith s m o).mem = s.mem := by
  unfold busyWith
  simp
@[simp] theorem busyWith_tier (s : State) (m : Fin 8) (o : Option (Fin 8)) : (busyWith s m o).tier = s.tier := by
  unfold busyWith
  simp
@[simp] theorem busyWith_cap (s : State) (m : Fin 8) (o : Option (Fin 8)) : (busyWith s m o).cap = s.cap := by
  unfold busyWith
  simp
@[simp] theorem busyWith_fold (s : State) (m : Fin 8) (o : Option (Fin 8)) : (busyWith s m o).fold = s.fold := by
  unfold busyWith
  simp
@[simp] theorem busyWith_digests (s : State) (m : Fin 8) (o : Option (Fin 8)) : (busyWith s m o).digests = s.digests := by
  unfold busyWith
  simp
@[simp] theorem busyWith_tide (s : State) (m : Fin 8) (o : Option (Fin 8)) : (busyWith s m o).tide = s.tide := by
  unfold busyWith
  simp
@[simp] theorem busyWith_agree (s : State) (m : Fin 8) (o : Option (Fin 8)) : (busyWith s m o).agree = s.agree := by
  unfold busyWith
  simp
@[simp] theorem busyWith_bcast (s : State) (m : Fin 8) (o : Option (Fin 8)) : (busyWith s m o).bcast = s.bcast := by
  unfold busyWith
  simp
@[simp] theorem busyWith_recov (s : State) (m : Fin 8) (o : Option (Fin 8)) : (busyWith s m o).recov = s.recov := by
  unfold busyWith
  simp
@[simp] theorem busyWith_twin (s : State) (m : Fin 8) (o : Option (Fin 8)) : (busyWith s m o).twin = s.twin := by
  unfold busyWith
  simp
@[simp] theorem busyWith_apply (s : State) (m : Fin 8) (o : Option (Fin 8)) : (busyWith s m o).apply = s.apply := by
  unfold busyWith
  simp
@[simp] theorem busyWith_exch (s : State) (m : Fin 8) (o : Option (Fin 8)) : (busyWith s m o).exch = s.exch := by
  unfold busyWith
  simp
@[simp] theorem busyWith_beacon (s : State) (m : Fin 8) (o : Option (Fin 8)) : (busyWith s m o).beacon = s.beacon := by
  unfold busyWith
  simp
@[simp] theorem busyWith_power (s : State) (m : Fin 8) (o : Option (Fin 8)) : (busyWith s m o).power = s.power := by
  unfold busyWith
  simp
@[simp] theorem busyWith_bist (s : State) (m : Fin 8) (o : Option (Fin 8)) : (busyWith s m o).bist = s.bist := by
  unfold busyWith
  simp
@[simp] theorem busyWith_lat (s : State) (m : Fin 8) (o : Option (Fin 8)) : (busyWith s m o).lat = s.lat := by
  unfold busyWith
  simp
@[simp] theorem busyWith_log (s : State) (m : Fin 8) (o : Option (Fin 8)) : (busyWith s m o).log = s.log := by
  unfold busyWith
  simp
@[simp] theorem busyWith_cnt (s : State) (m : Fin 8) (o : Option (Fin 8)) : (busyWith s m o).cnt = s.cnt := by
  unfold busyWith
  simp
@[simp] theorem busyWith_ports (s : State) (m : Fin 8) (o : Option (Fin 8)) : (busyWith s m o).ports = s.ports := by
  unfold busyWith
  simp
@[simp] theorem busyWith_time (s : State) (m : Fin 8) (o : Option (Fin 8)) : (busyWith s m o).time = s.time := by
  unfold busyWith
  simp
@[simp] theorem busyWith_out (s : State) (m : Fin 8) (o : Option (Fin 8)) : (busyWith s m o).out = s.out := by
  unfold busyWith
  simp
@[simp] theorem busyWith_freeCtr (s : State) (m : Fin 8) (o : Option (Fin 8)) : (busyWith s m o).freeCtr = s.freeCtr := by
  unfold busyWith
  simp
@[simp] theorem busyWith_pending (s : State) (m : Fin 8) (o : Option (Fin 8)) : (busyWith s m o).pending = s.pending := by
  unfold busyWith
  simp


/-! ### resource -/

@[simp] theorem resource_fuses (s : State) (m : Fin 8) (off : Nat) : (resource s m off).fuses = s.fuses := by
  unfold resource
  simp
@[simp] theorem resource_ctrl (s : State) (m : Fin 8) (off : Nat) : (resource s m off).ctrl = s.ctrl := by
  unfold resource
  simp
@[simp] theorem resource_fw (s : State) (m : Fin 8) (off : Nat) : (resource s m off).fw = s.fw := by
  unfold resource
  simp
@[simp] theorem resource_job (s : State) (m : Fin 8) (off : Nat) : (resource s m off).job = s.job := by
  unfold resource
  simp
@[simp] theorem resource_mem (s : State) (m : Fin 8) (off : Nat) : (resource s m off).mem = s.mem := by
  unfold resource
  simp
@[simp] theorem resource_tier (s : State) (m : Fin 8) (off : Nat) : (resource s m off).tier = s.tier := by
  unfold resource
  simp
@[simp] theorem resource_cap (s : State) (m : Fin 8) (off : Nat) : (resource s m off).cap = s.cap := by
  unfold resource
  simp
@[simp] theorem resource_fold (s : State) (m : Fin 8) (off : Nat) : (resource s m off).fold = s.fold := by
  unfold resource
  simp
@[simp] theorem resource_digests (s : State) (m : Fin 8) (off : Nat) : (resource s m off).digests = s.digests := by
  unfold resource
  simp
@[simp] theorem resource_tide (s : State) (m : Fin 8) (off : Nat) : (resource s m off).tide = s.tide := by
  unfold resource
  simp
@[simp] theorem resource_agree (s : State) (m : Fin 8) (off : Nat) : (resource s m off).agree = s.agree := by
  unfold resource
  simp
@[simp] theorem resource_bcast (s : State) (m : Fin 8) (off : Nat) : (resource s m off).bcast = s.bcast := by
  unfold resource
  simp
@[simp] theorem resource_recov (s : State) (m : Fin 8) (off : Nat) : (resource s m off).recov = s.recov := by
  unfold resource
  simp
@[simp] theorem resource_twin (s : State) (m : Fin 8) (off : Nat) : (resource s m off).twin = s.twin := by
  unfold resource
  simp
@[simp] theorem resource_apply (s : State) (m : Fin 8) (off : Nat) : (resource s m off).apply = s.apply := by
  unfold resource
  simp
@[simp] theorem resource_exch (s : State) (m : Fin 8) (off : Nat) : (resource s m off).exch = s.exch := by
  unfold resource
  simp
@[simp] theorem resource_beacon (s : State) (m : Fin 8) (off : Nat) : (resource s m off).beacon = s.beacon := by
  unfold resource
  simp
@[simp] theorem resource_power (s : State) (m : Fin 8) (off : Nat) : (resource s m off).power = s.power := by
  unfold resource
  simp
@[simp] theorem resource_bist (s : State) (m : Fin 8) (off : Nat) : (resource s m off).bist = s.bist := by
  unfold resource
  simp
@[simp] theorem resource_lat (s : State) (m : Fin 8) (off : Nat) : (resource s m off).lat = s.lat := by
  unfold resource
  simp
@[simp] theorem resource_log (s : State) (m : Fin 8) (off : Nat) : (resource s m off).log = s.log := by
  unfold resource
  simp
@[simp] theorem resource_cnt (s : State) (m : Fin 8) (off : Nat) : (resource s m off).cnt = s.cnt := by
  unfold resource
  simp
@[simp] theorem resource_ports (s : State) (m : Fin 8) (off : Nat) : (resource s m off).ports = s.ports := by
  unfold resource
  simp
@[simp] theorem resource_time (s : State) (m : Fin 8) (off : Nat) : (resource s m off).time = s.time := by
  unfold resource
  simp
@[simp] theorem resource_out (s : State) (m : Fin 8) (off : Nat) : (resource s m off).out = s.out := by
  unfold resource
  simp
@[simp] theorem resource_freeCtr (s : State) (m : Fin 8) (off : Nat) : (resource s m off).freeCtr = s.freeCtr := by
  unfold resource
  simp
@[simp] theorem resource_pending (s : State) (m : Fin 8) (off : Nat) : (resource s m off).pending = s.pending := by
  unfold resource
  simp


/-! ### respondOpt -/

@[simp] theorem respondOpt_fuses (s : State) (m : Option (Fin 8)) (status detail : Nat) : (respondOpt s m status detail).fuses = s.fuses := by
  unfold respondOpt
  split <;> simp
@[simp] theorem respondOpt_ctrl (s : State) (m : Option (Fin 8)) (status detail : Nat) : (respondOpt s m status detail).ctrl = s.ctrl := by
  unfold respondOpt
  split <;> simp
@[simp] theorem respondOpt_fw (s : State) (m : Option (Fin 8)) (status detail : Nat) : (respondOpt s m status detail).fw = s.fw := by
  unfold respondOpt
  split <;> simp
@[simp] theorem respondOpt_job (s : State) (m : Option (Fin 8)) (status detail : Nat) : (respondOpt s m status detail).job = s.job := by
  unfold respondOpt
  split <;> simp
@[simp] theorem respondOpt_mem (s : State) (m : Option (Fin 8)) (status detail : Nat) : (respondOpt s m status detail).mem = s.mem := by
  unfold respondOpt
  split <;> simp
@[simp] theorem respondOpt_tier (s : State) (m : Option (Fin 8)) (status detail : Nat) : (respondOpt s m status detail).tier = s.tier := by
  unfold respondOpt
  split <;> simp
@[simp] theorem respondOpt_cap (s : State) (m : Option (Fin 8)) (status detail : Nat) : (respondOpt s m status detail).cap = s.cap := by
  unfold respondOpt
  split <;> simp
@[simp] theorem respondOpt_fold (s : State) (m : Option (Fin 8)) (status detail : Nat) : (respondOpt s m status detail).fold = s.fold := by
  unfold respondOpt
  split <;> simp
@[simp] theorem respondOpt_digests (s : State) (m : Option (Fin 8)) (status detail : Nat) : (respondOpt s m status detail).digests = s.digests := by
  unfold respondOpt
  split <;> simp
@[simp] theorem respondOpt_tide (s : State) (m : Option (Fin 8)) (status detail : Nat) : (respondOpt s m status detail).tide = s.tide := by
  unfold respondOpt
  split <;> simp
@[simp] theorem respondOpt_agree (s : State) (m : Option (Fin 8)) (status detail : Nat) : (respondOpt s m status detail).agree = s.agree := by
  unfold respondOpt
  split <;> simp
@[simp] theorem respondOpt_bcast (s : State) (m : Option (Fin 8)) (status detail : Nat) : (respondOpt s m status detail).bcast = s.bcast := by
  unfold respondOpt
  split <;> simp
@[simp] theorem respondOpt_recov (s : State) (m : Option (Fin 8)) (status detail : Nat) : (respondOpt s m status detail).recov = s.recov := by
  unfold respondOpt
  split <;> simp
@[simp] theorem respondOpt_twin (s : State) (m : Option (Fin 8)) (status detail : Nat) : (respondOpt s m status detail).twin = s.twin := by
  unfold respondOpt
  split <;> simp
@[simp] theorem respondOpt_apply (s : State) (m : Option (Fin 8)) (status detail : Nat) : (respondOpt s m status detail).apply = s.apply := by
  unfold respondOpt
  split <;> simp
@[simp] theorem respondOpt_exch (s : State) (m : Option (Fin 8)) (status detail : Nat) : (respondOpt s m status detail).exch = s.exch := by
  unfold respondOpt
  split <;> simp
@[simp] theorem respondOpt_beacon (s : State) (m : Option (Fin 8)) (status detail : Nat) : (respondOpt s m status detail).beacon = s.beacon := by
  unfold respondOpt
  split <;> simp
@[simp] theorem respondOpt_power (s : State) (m : Option (Fin 8)) (status detail : Nat) : (respondOpt s m status detail).power = s.power := by
  unfold respondOpt
  split <;> simp
@[simp] theorem respondOpt_bist (s : State) (m : Option (Fin 8)) (status detail : Nat) : (respondOpt s m status detail).bist = s.bist := by
  unfold respondOpt
  split <;> simp
@[simp] theorem respondOpt_lat (s : State) (m : Option (Fin 8)) (status detail : Nat) : (respondOpt s m status detail).lat = s.lat := by
  unfold respondOpt
  split <;> simp
@[simp] theorem respondOpt_log (s : State) (m : Option (Fin 8)) (status detail : Nat) : (respondOpt s m status detail).log = s.log := by
  unfold respondOpt
  split <;> simp
@[simp] theorem respondOpt_cnt (s : State) (m : Option (Fin 8)) (status detail : Nat) : (respondOpt s m status detail).cnt = s.cnt := by
  unfold respondOpt
  split <;> simp
@[simp] theorem respondOpt_ports (s : State) (m : Option (Fin 8)) (status detail : Nat) : (respondOpt s m status detail).ports = s.ports := by
  unfold respondOpt
  split <;> simp
@[simp] theorem respondOpt_time (s : State) (m : Option (Fin 8)) (status detail : Nat) : (respondOpt s m status detail).time = s.time := by
  unfold respondOpt
  split <;> simp
@[simp] theorem respondOpt_out (s : State) (m : Option (Fin 8)) (status detail : Nat) : (respondOpt s m status detail).out = s.out := by
  unfold respondOpt
  split <;> simp
@[simp] theorem respondOpt_freeCtr (s : State) (m : Option (Fin 8)) (status detail : Nat) : (respondOpt s m status detail).freeCtr = s.freeCtr := by
  unfold respondOpt
  split <;> simp
@[simp] theorem respondOpt_pending (s : State) (m : Option (Fin 8)) (status detail : Nat) : (respondOpt s m status detail).pending = s.pending := by
  unfold respondOpt
  split <;> simp


/-! ### sendTo -/

@[simp] theorem sendTo_fuses (s : State) (rank : Nat) (vc : Vc) (route : Route) (msg : Msg) : (sendTo s rank vc route msg).fuses = s.fuses := by
  unfold sendTo
  split <;> rfl
@[simp] theorem sendTo_ctrl (s : State) (rank : Nat) (vc : Vc) (route : Route) (msg : Msg) : (sendTo s rank vc route msg).ctrl = s.ctrl := by
  unfold sendTo
  split <;> rfl
@[simp] theorem sendTo_stat (s : State) (rank : Nat) (vc : Vc) (route : Route) (msg : Msg) : (sendTo s rank vc route msg).stat = s.stat := by
  unfold sendTo
  split <;> rfl
@[simp] theorem sendTo_rst (s : State) (rank : Nat) (vc : Vc) (route : Route) (msg : Msg) : (sendTo s rank vc route msg).rst = s.rst := by
  unfold sendTo
  split <;> rfl
@[simp] theorem sendTo_fw (s : State) (rank : Nat) (vc : Vc) (route : Route) (msg : Msg) : (sendTo s rank vc route msg).fw = s.fw := by
  unfold sendTo
  split <;> rfl
@[simp] theorem sendTo_mb (s : State) (rank : Nat) (vc : Vc) (route : Route) (msg : Msg) : (sendTo s rank vc route msg).mb = s.mb := by
  unfold sendTo
  split <;> rfl
@[simp] theorem sendTo_job (s : State) (rank : Nat) (vc : Vc) (route : Route) (msg : Msg) : (sendTo s rank vc route msg).job = s.job := by
  unfold sendTo
  split <;> rfl
@[simp] theorem sendTo_mem (s : State) (rank : Nat) (vc : Vc) (route : Route) (msg : Msg) : (sendTo s rank vc route msg).mem = s.mem := by
  unfold sendTo
  split <;> rfl
@[simp] theorem sendTo_tier (s : State) (rank : Nat) (vc : Vc) (route : Route) (msg : Msg) : (sendTo s rank vc route msg).tier = s.tier := by
  unfold sendTo
  split <;> rfl
@[simp] theorem sendTo_cap (s : State) (rank : Nat) (vc : Vc) (route : Route) (msg : Msg) : (sendTo s rank vc route msg).cap = s.cap := by
  unfold sendTo
  split <;> rfl
@[simp] theorem sendTo_fold (s : State) (rank : Nat) (vc : Vc) (route : Route) (msg : Msg) : (sendTo s rank vc route msg).fold = s.fold := by
  unfold sendTo
  split <;> rfl
@[simp] theorem sendTo_digests (s : State) (rank : Nat) (vc : Vc) (route : Route) (msg : Msg) : (sendTo s rank vc route msg).digests = s.digests := by
  unfold sendTo
  split <;> rfl
@[simp] theorem sendTo_tide (s : State) (rank : Nat) (vc : Vc) (route : Route) (msg : Msg) : (sendTo s rank vc route msg).tide = s.tide := by
  unfold sendTo
  split <;> rfl
@[simp] theorem sendTo_agree (s : State) (rank : Nat) (vc : Vc) (route : Route) (msg : Msg) : (sendTo s rank vc route msg).agree = s.agree := by
  unfold sendTo
  split <;> rfl
@[simp] theorem sendTo_bcast (s : State) (rank : Nat) (vc : Vc) (route : Route) (msg : Msg) : (sendTo s rank vc route msg).bcast = s.bcast := by
  unfold sendTo
  split <;> rfl
@[simp] theorem sendTo_recov (s : State) (rank : Nat) (vc : Vc) (route : Route) (msg : Msg) : (sendTo s rank vc route msg).recov = s.recov := by
  unfold sendTo
  split <;> rfl
@[simp] theorem sendTo_twin (s : State) (rank : Nat) (vc : Vc) (route : Route) (msg : Msg) : (sendTo s rank vc route msg).twin = s.twin := by
  unfold sendTo
  split <;> rfl
@[simp] theorem sendTo_apply (s : State) (rank : Nat) (vc : Vc) (route : Route) (msg : Msg) : (sendTo s rank vc route msg).apply = s.apply := by
  unfold sendTo
  split <;> rfl
@[simp] theorem sendTo_exch (s : State) (rank : Nat) (vc : Vc) (route : Route) (msg : Msg) : (sendTo s rank vc route msg).exch = s.exch := by
  unfold sendTo
  split <;> rfl
@[simp] theorem sendTo_beacon (s : State) (rank : Nat) (vc : Vc) (route : Route) (msg : Msg) : (sendTo s rank vc route msg).beacon = s.beacon := by
  unfold sendTo
  split <;> rfl
@[simp] theorem sendTo_power (s : State) (rank : Nat) (vc : Vc) (route : Route) (msg : Msg) : (sendTo s rank vc route msg).power = s.power := by
  unfold sendTo
  split <;> rfl
@[simp] theorem sendTo_bist (s : State) (rank : Nat) (vc : Vc) (route : Route) (msg : Msg) : (sendTo s rank vc route msg).bist = s.bist := by
  unfold sendTo
  split <;> rfl
@[simp] theorem sendTo_lat (s : State) (rank : Nat) (vc : Vc) (route : Route) (msg : Msg) : (sendTo s rank vc route msg).lat = s.lat := by
  unfold sendTo
  split <;> rfl
@[simp] theorem sendTo_log (s : State) (rank : Nat) (vc : Vc) (route : Route) (msg : Msg) : (sendTo s rank vc route msg).log = s.log := by
  unfold sendTo
  split <;> rfl
@[simp] theorem sendTo_cnt (s : State) (rank : Nat) (vc : Vc) (route : Route) (msg : Msg) : (sendTo s rank vc route msg).cnt = s.cnt := by
  unfold sendTo
  split <;> rfl
@[simp] theorem sendTo_events (s : State) (rank : Nat) (vc : Vc) (route : Route) (msg : Msg) : (sendTo s rank vc route msg).events = s.events := by
  unfold sendTo
  split <;> rfl
@[simp] theorem sendTo_ports (s : State) (rank : Nat) (vc : Vc) (route : Route) (msg : Msg) : (sendTo s rank vc route msg).ports = s.ports := by
  unfold sendTo
  split <;> rfl
@[simp] theorem sendTo_time (s : State) (rank : Nat) (vc : Vc) (route : Route) (msg : Msg) : (sendTo s rank vc route msg).time = s.time := by
  unfold sendTo
  split <;> rfl
@[simp] theorem sendTo_freeCtr (s : State) (rank : Nat) (vc : Vc) (route : Route) (msg : Msg) : (sendTo s rank vc route msg).freeCtr = s.freeCtr := by
  unfold sendTo
  split <;> rfl
@[simp] theorem sendTo_pending (s : State) (rank : Nat) (vc : Vc) (route : Route) (msg : Msg) : (sendTo s rank vc route msg).pending = s.pending := by
  unfold sendTo
  split <;> rfl


/-! ### sendProbe -/

@[simp] theorem sendProbe_fuses (s : State) (rank : Nat) (why : ProbeWhy) : (sendProbe s rank why).fuses = s.fuses := by
  unfold sendProbe
  split <;> rfl
@[simp] theorem sendProbe_ctrl (s : State) (rank : Nat) (why : ProbeWhy) : (sendProbe s rank why).ctrl = s.ctrl := by
  unfold sendProbe
  split <;> rfl
@[simp] theorem sendProbe_stat (s : State) (rank : Nat) (why : ProbeWhy) : (sendProbe s rank why).stat = s.stat := by
  unfold sendProbe
  split <;> rfl
@[simp] theorem sendProbe_rst (s : State) (rank : Nat) (why : ProbeWhy) : (sendProbe s rank why).rst = s.rst := by
  unfold sendProbe
  split <;> rfl
@[simp] theorem sendProbe_fw (s : State) (rank : Nat) (why : ProbeWhy) : (sendProbe s rank why).fw = s.fw := by
  unfold sendProbe
  split <;> rfl
@[simp] theorem sendProbe_mb (s : State) (rank : Nat) (why : ProbeWhy) : (sendProbe s rank why).mb = s.mb := by
  unfold sendProbe
  split <;> rfl
@[simp] theorem sendProbe_job (s : State) (rank : Nat) (why : ProbeWhy) : (sendProbe s rank why).job = s.job := by
  unfold sendProbe
  split <;> rfl
@[simp] theorem sendProbe_mem (s : State) (rank : Nat) (why : ProbeWhy) : (sendProbe s rank why).mem = s.mem := by
  unfold sendProbe
  split <;> rfl
@[simp] theorem sendProbe_tier (s : State) (rank : Nat) (why : ProbeWhy) : (sendProbe s rank why).tier = s.tier := by
  unfold sendProbe
  split <;> rfl
@[simp] theorem sendProbe_cap (s : State) (rank : Nat) (why : ProbeWhy) : (sendProbe s rank why).cap = s.cap := by
  unfold sendProbe
  split <;> rfl
@[simp] theorem sendProbe_fold (s : State) (rank : Nat) (why : ProbeWhy) : (sendProbe s rank why).fold = s.fold := by
  unfold sendProbe
  split <;> rfl
@[simp] theorem sendProbe_digests (s : State) (rank : Nat) (why : ProbeWhy) : (sendProbe s rank why).digests = s.digests := by
  unfold sendProbe
  split <;> rfl
@[simp] theorem sendProbe_tide (s : State) (rank : Nat) (why : ProbeWhy) : (sendProbe s rank why).tide = s.tide := by
  unfold sendProbe
  split <;> rfl
@[simp] theorem sendProbe_bcast (s : State) (rank : Nat) (why : ProbeWhy) : (sendProbe s rank why).bcast = s.bcast := by
  unfold sendProbe
  split <;> rfl
@[simp] theorem sendProbe_recov (s : State) (rank : Nat) (why : ProbeWhy) : (sendProbe s rank why).recov = s.recov := by
  unfold sendProbe
  split <;> rfl
@[simp] theorem sendProbe_twin (s : State) (rank : Nat) (why : ProbeWhy) : (sendProbe s rank why).twin = s.twin := by
  unfold sendProbe
  split <;> rfl
@[simp] theorem sendProbe_apply (s : State) (rank : Nat) (why : ProbeWhy) : (sendProbe s rank why).apply = s.apply := by
  unfold sendProbe
  split <;> rfl
@[simp] theorem sendProbe_exch (s : State) (rank : Nat) (why : ProbeWhy) : (sendProbe s rank why).exch = s.exch := by
  unfold sendProbe
  split <;> rfl
@[simp] theorem sendProbe_beacon (s : State) (rank : Nat) (why : ProbeWhy) : (sendProbe s rank why).beacon = s.beacon := by
  unfold sendProbe
  split <;> rfl
@[simp] theorem sendProbe_power (s : State) (rank : Nat) (why : ProbeWhy) : (sendProbe s rank why).power = s.power := by
  unfold sendProbe
  split <;> rfl
@[simp] theorem sendProbe_bist (s : State) (rank : Nat) (why : ProbeWhy) : (sendProbe s rank why).bist = s.bist := by
  unfold sendProbe
  split <;> rfl
@[simp] theorem sendProbe_lat (s : State) (rank : Nat) (why : ProbeWhy) : (sendProbe s rank why).lat = s.lat := by
  unfold sendProbe
  split <;> rfl
@[simp] theorem sendProbe_log (s : State) (rank : Nat) (why : ProbeWhy) : (sendProbe s rank why).log = s.log := by
  unfold sendProbe
  split <;> rfl
@[simp] theorem sendProbe_events (s : State) (rank : Nat) (why : ProbeWhy) : (sendProbe s rank why).events = s.events := by
  unfold sendProbe
  split <;> rfl
@[simp] theorem sendProbe_ports (s : State) (rank : Nat) (why : ProbeWhy) : (sendProbe s rank why).ports = s.ports := by
  unfold sendProbe
  split <;> rfl
@[simp] theorem sendProbe_time (s : State) (rank : Nat) (why : ProbeWhy) : (sendProbe s rank why).time = s.time := by
  unfold sendProbe
  split <;> rfl
@[simp] theorem sendProbe_freeCtr (s : State) (rank : Nat) (why : ProbeWhy) : (sendProbe s rank why).freeCtr = s.freeCtr := by
  unfold sendProbe
  split <;> rfl
@[simp] theorem sendProbe_pending (s : State) (rank : Nat) (why : ProbeWhy) : (sendProbe s rank why).pending = s.pending := by
  unfold sendProbe
  split <;> rfl


/-! ### sendAgree -/

@[simp] theorem sendAgree_fuses (s : State) (rank : Nat) (type : Byte) (dest : Nat) (epoch ballot arg : U32) (body : List Byte) : (sendAgree s rank type dest epoch ballot arg body).fuses = s.fuses := by
  unfold sendAgree
  simp
@[simp] theorem sendAgree_ctrl (s : State) (rank : Nat) (type : Byte) (dest : Nat) (epoch ballot arg : U32) (body : List Byte) : (sendAgree s rank type dest epoch ballot arg body).ctrl = s.ctrl := by
  unfold sendAgree
  simp
@[simp] theorem sendAgree_stat (s : State) (rank : Nat) (type : Byte) (dest : Nat) (epoch ballot arg : U32) (body : List Byte) : (sendAgree s rank type dest epoch ballot arg body).stat = s.stat := by
  unfold sendAgree
  simp
@[simp] theorem sendAgree_rst (s : State) (rank : Nat) (type : Byte) (dest : Nat) (epoch ballot arg : U32) (body : List Byte) : (sendAgree s rank type dest epoch ballot arg body).rst = s.rst := by
  unfold sendAgree
  simp
@[simp] theorem sendAgree_fw (s : State) (rank : Nat) (type : Byte) (dest : Nat) (epoch ballot arg : U32) (body : List Byte) : (sendAgree s rank type dest epoch ballot arg body).fw = s.fw := by
  unfold sendAgree
  simp
@[simp] theorem sendAgree_mb (s : State) (rank : Nat) (type : Byte) (dest : Nat) (epoch ballot arg : U32) (body : List Byte) : (sendAgree s rank type dest epoch ballot arg body).mb = s.mb := by
  unfold sendAgree
  simp
@[simp] theorem sendAgree_job (s : State) (rank : Nat) (type : Byte) (dest : Nat) (epoch ballot arg : U32) (body : List Byte) : (sendAgree s rank type dest epoch ballot arg body).job = s.job := by
  unfold sendAgree
  simp
@[simp] theorem sendAgree_mem (s : State) (rank : Nat) (type : Byte) (dest : Nat) (epoch ballot arg : U32) (body : List Byte) : (sendAgree s rank type dest epoch ballot arg body).mem = s.mem := by
  unfold sendAgree
  simp
@[simp] theorem sendAgree_tier (s : State) (rank : Nat) (type : Byte) (dest : Nat) (epoch ballot arg : U32) (body : List Byte) : (sendAgree s rank type dest epoch ballot arg body).tier = s.tier := by
  unfold sendAgree
  simp
@[simp] theorem sendAgree_cap (s : State) (rank : Nat) (type : Byte) (dest : Nat) (epoch ballot arg : U32) (body : List Byte) : (sendAgree s rank type dest epoch ballot arg body).cap = s.cap := by
  unfold sendAgree
  simp
@[simp] theorem sendAgree_fold (s : State) (rank : Nat) (type : Byte) (dest : Nat) (epoch ballot arg : U32) (body : List Byte) : (sendAgree s rank type dest epoch ballot arg body).fold = s.fold := by
  unfold sendAgree
  simp
@[simp] theorem sendAgree_digests (s : State) (rank : Nat) (type : Byte) (dest : Nat) (epoch ballot arg : U32) (body : List Byte) : (sendAgree s rank type dest epoch ballot arg body).digests = s.digests := by
  unfold sendAgree
  simp
@[simp] theorem sendAgree_tide (s : State) (rank : Nat) (type : Byte) (dest : Nat) (epoch ballot arg : U32) (body : List Byte) : (sendAgree s rank type dest epoch ballot arg body).tide = s.tide := by
  unfold sendAgree
  simp
@[simp] theorem sendAgree_agree (s : State) (rank : Nat) (type : Byte) (dest : Nat) (epoch ballot arg : U32) (body : List Byte) : (sendAgree s rank type dest epoch ballot arg body).agree = s.agree := by
  unfold sendAgree
  simp
@[simp] theorem sendAgree_bcast (s : State) (rank : Nat) (type : Byte) (dest : Nat) (epoch ballot arg : U32) (body : List Byte) : (sendAgree s rank type dest epoch ballot arg body).bcast = s.bcast := by
  unfold sendAgree
  simp
@[simp] theorem sendAgree_recov (s : State) (rank : Nat) (type : Byte) (dest : Nat) (epoch ballot arg : U32) (body : List Byte) : (sendAgree s rank type dest epoch ballot arg body).recov = s.recov := by
  unfold sendAgree
  simp
@[simp] theorem sendAgree_twin (s : State) (rank : Nat) (type : Byte) (dest : Nat) (epoch ballot arg : U32) (body : List Byte) : (sendAgree s rank type dest epoch ballot arg body).twin = s.twin := by
  unfold sendAgree
  simp
@[simp] theorem sendAgree_apply (s : State) (rank : Nat) (type : Byte) (dest : Nat) (epoch ballot arg : U32) (body : List Byte) : (sendAgree s rank type dest epoch ballot arg body).apply = s.apply := by
  unfold sendAgree
  simp
@[simp] theorem sendAgree_exch (s : State) (rank : Nat) (type : Byte) (dest : Nat) (epoch ballot arg : U32) (body : List Byte) : (sendAgree s rank type dest epoch ballot arg body).exch = s.exch := by
  unfold sendAgree
  simp
@[simp] theorem sendAgree_beacon (s : State) (rank : Nat) (type : Byte) (dest : Nat) (epoch ballot arg : U32) (body : List Byte) : (sendAgree s rank type dest epoch ballot arg body).beacon = s.beacon := by
  unfold sendAgree
  simp
@[simp] theorem sendAgree_power (s : State) (rank : Nat) (type : Byte) (dest : Nat) (epoch ballot arg : U32) (body : List Byte) : (sendAgree s rank type dest epoch ballot arg body).power = s.power := by
  unfold sendAgree
  simp
@[simp] theorem sendAgree_bist (s : State) (rank : Nat) (type : Byte) (dest : Nat) (epoch ballot arg : U32) (body : List Byte) : (sendAgree s rank type dest epoch ballot arg body).bist = s.bist := by
  unfold sendAgree
  simp
@[simp] theorem sendAgree_lat (s : State) (rank : Nat) (type : Byte) (dest : Nat) (epoch ballot arg : U32) (body : List Byte) : (sendAgree s rank type dest epoch ballot arg body).lat = s.lat := by
  unfold sendAgree
  simp
@[simp] theorem sendAgree_log (s : State) (rank : Nat) (type : Byte) (dest : Nat) (epoch ballot arg : U32) (body : List Byte) : (sendAgree s rank type dest epoch ballot arg body).log = s.log := by
  unfold sendAgree
  simp
@[simp] theorem sendAgree_cnt (s : State) (rank : Nat) (type : Byte) (dest : Nat) (epoch ballot arg : U32) (body : List Byte) : (sendAgree s rank type dest epoch ballot arg body).cnt = s.cnt := by
  unfold sendAgree
  simp
@[simp] theorem sendAgree_events (s : State) (rank : Nat) (type : Byte) (dest : Nat) (epoch ballot arg : U32) (body : List Byte) : (sendAgree s rank type dest epoch ballot arg body).events = s.events := by
  unfold sendAgree
  simp
@[simp] theorem sendAgree_ports (s : State) (rank : Nat) (type : Byte) (dest : Nat) (epoch ballot arg : U32) (body : List Byte) : (sendAgree s rank type dest epoch ballot arg body).ports = s.ports := by
  unfold sendAgree
  simp
@[simp] theorem sendAgree_time (s : State) (rank : Nat) (type : Byte) (dest : Nat) (epoch ballot arg : U32) (body : List Byte) : (sendAgree s rank type dest epoch ballot arg body).time = s.time := by
  unfold sendAgree
  simp
@[simp] theorem sendAgree_freeCtr (s : State) (rank : Nat) (type : Byte) (dest : Nat) (epoch ballot arg : U32) (body : List Byte) : (sendAgree s rank type dest epoch ballot arg body).freeCtr = s.freeCtr := by
  unfold sendAgree
  simp
@[simp] theorem sendAgree_pending (s : State) (rank : Nat) (type : Byte) (dest : Nat) (epoch ballot arg : U32) (body : List Byte) : (sendAgree s rank type dest epoch ballot arg body).pending = s.pending := by
  unfold sendAgree
  simp


/-! ### sendAgreePos -/

@[simp] theorem sendAgreePos_fuses (s : State) (pos : Nat) (type : Byte) (epoch ballot arg : U32) (body : List Byte) : (sendAgreePos s pos type epoch ballot arg body).fuses = s.fuses := by
  unfold sendAgreePos
  simp
@[simp] theorem sendAgreePos_ctrl (s : State) (pos : Nat) (type : Byte) (epoch ballot arg : U32) (body : List Byte) : (sendAgreePos s pos type epoch ballot arg body).ctrl = s.ctrl := by
  unfold sendAgreePos
  simp
@[simp] theorem sendAgreePos_stat (s : State) (pos : Nat) (type : Byte) (epoch ballot arg : U32) (body : List Byte) : (sendAgreePos s pos type epoch ballot arg body).stat = s.stat := by
  unfold sendAgreePos
  simp
@[simp] theorem sendAgreePos_rst (s : State) (pos : Nat) (type : Byte) (epoch ballot arg : U32) (body : List Byte) : (sendAgreePos s pos type epoch ballot arg body).rst = s.rst := by
  unfold sendAgreePos
  simp
@[simp] theorem sendAgreePos_fw (s : State) (pos : Nat) (type : Byte) (epoch ballot arg : U32) (body : List Byte) : (sendAgreePos s pos type epoch ballot arg body).fw = s.fw := by
  unfold sendAgreePos
  simp
@[simp] theorem sendAgreePos_mb (s : State) (pos : Nat) (type : Byte) (epoch ballot arg : U32) (body : List Byte) : (sendAgreePos s pos type epoch ballot arg body).mb = s.mb := by
  unfold sendAgreePos
  simp
@[simp] theorem sendAgreePos_job (s : State) (pos : Nat) (type : Byte) (epoch ballot arg : U32) (body : List Byte) : (sendAgreePos s pos type epoch ballot arg body).job = s.job := by
  unfold sendAgreePos
  simp
@[simp] theorem sendAgreePos_mem (s : State) (pos : Nat) (type : Byte) (epoch ballot arg : U32) (body : List Byte) : (sendAgreePos s pos type epoch ballot arg body).mem = s.mem := by
  unfold sendAgreePos
  simp
@[simp] theorem sendAgreePos_tier (s : State) (pos : Nat) (type : Byte) (epoch ballot arg : U32) (body : List Byte) : (sendAgreePos s pos type epoch ballot arg body).tier = s.tier := by
  unfold sendAgreePos
  simp
@[simp] theorem sendAgreePos_cap (s : State) (pos : Nat) (type : Byte) (epoch ballot arg : U32) (body : List Byte) : (sendAgreePos s pos type epoch ballot arg body).cap = s.cap := by
  unfold sendAgreePos
  simp
@[simp] theorem sendAgreePos_fold (s : State) (pos : Nat) (type : Byte) (epoch ballot arg : U32) (body : List Byte) : (sendAgreePos s pos type epoch ballot arg body).fold = s.fold := by
  unfold sendAgreePos
  simp
@[simp] theorem sendAgreePos_digests (s : State) (pos : Nat) (type : Byte) (epoch ballot arg : U32) (body : List Byte) : (sendAgreePos s pos type epoch ballot arg body).digests = s.digests := by
  unfold sendAgreePos
  simp
@[simp] theorem sendAgreePos_tide (s : State) (pos : Nat) (type : Byte) (epoch ballot arg : U32) (body : List Byte) : (sendAgreePos s pos type epoch ballot arg body).tide = s.tide := by
  unfold sendAgreePos
  simp
@[simp] theorem sendAgreePos_agree (s : State) (pos : Nat) (type : Byte) (epoch ballot arg : U32) (body : List Byte) : (sendAgreePos s pos type epoch ballot arg body).agree = s.agree := by
  unfold sendAgreePos
  simp
@[simp] theorem sendAgreePos_bcast (s : State) (pos : Nat) (type : Byte) (epoch ballot arg : U32) (body : List Byte) : (sendAgreePos s pos type epoch ballot arg body).bcast = s.bcast := by
  unfold sendAgreePos
  simp
@[simp] theorem sendAgreePos_recov (s : State) (pos : Nat) (type : Byte) (epoch ballot arg : U32) (body : List Byte) : (sendAgreePos s pos type epoch ballot arg body).recov = s.recov := by
  unfold sendAgreePos
  simp
@[simp] theorem sendAgreePos_twin (s : State) (pos : Nat) (type : Byte) (epoch ballot arg : U32) (body : List Byte) : (sendAgreePos s pos type epoch ballot arg body).twin = s.twin := by
  unfold sendAgreePos
  simp
@[simp] theorem sendAgreePos_apply (s : State) (pos : Nat) (type : Byte) (epoch ballot arg : U32) (body : List Byte) : (sendAgreePos s pos type epoch ballot arg body).apply = s.apply := by
  unfold sendAgreePos
  simp
@[simp] theorem sendAgreePos_exch (s : State) (pos : Nat) (type : Byte) (epoch ballot arg : U32) (body : List Byte) : (sendAgreePos s pos type epoch ballot arg body).exch = s.exch := by
  unfold sendAgreePos
  simp
@[simp] theorem sendAgreePos_beacon (s : State) (pos : Nat) (type : Byte) (epoch ballot arg : U32) (body : List Byte) : (sendAgreePos s pos type epoch ballot arg body).beacon = s.beacon := by
  unfold sendAgreePos
  simp
@[simp] theorem sendAgreePos_power (s : State) (pos : Nat) (type : Byte) (epoch ballot arg : U32) (body : List Byte) : (sendAgreePos s pos type epoch ballot arg body).power = s.power := by
  unfold sendAgreePos
  simp
@[simp] theorem sendAgreePos_bist (s : State) (pos : Nat) (type : Byte) (epoch ballot arg : U32) (body : List Byte) : (sendAgreePos s pos type epoch ballot arg body).bist = s.bist := by
  unfold sendAgreePos
  simp
@[simp] theorem sendAgreePos_lat (s : State) (pos : Nat) (type : Byte) (epoch ballot arg : U32) (body : List Byte) : (sendAgreePos s pos type epoch ballot arg body).lat = s.lat := by
  unfold sendAgreePos
  simp
@[simp] theorem sendAgreePos_log (s : State) (pos : Nat) (type : Byte) (epoch ballot arg : U32) (body : List Byte) : (sendAgreePos s pos type epoch ballot arg body).log = s.log := by
  unfold sendAgreePos
  simp
@[simp] theorem sendAgreePos_cnt (s : State) (pos : Nat) (type : Byte) (epoch ballot arg : U32) (body : List Byte) : (sendAgreePos s pos type epoch ballot arg body).cnt = s.cnt := by
  unfold sendAgreePos
  simp
@[simp] theorem sendAgreePos_events (s : State) (pos : Nat) (type : Byte) (epoch ballot arg : U32) (body : List Byte) : (sendAgreePos s pos type epoch ballot arg body).events = s.events := by
  unfold sendAgreePos
  simp
@[simp] theorem sendAgreePos_ports (s : State) (pos : Nat) (type : Byte) (epoch ballot arg : U32) (body : List Byte) : (sendAgreePos s pos type epoch ballot arg body).ports = s.ports := by
  unfold sendAgreePos
  simp
@[simp] theorem sendAgreePos_time (s : State) (pos : Nat) (type : Byte) (epoch ballot arg : U32) (body : List Byte) : (sendAgreePos s pos type epoch ballot arg body).time = s.time := by
  unfold sendAgreePos
  simp
@[simp] theorem sendAgreePos_freeCtr (s : State) (pos : Nat) (type : Byte) (epoch ballot arg : U32) (body : List Byte) : (sendAgreePos s pos type epoch ballot arg body).freeCtr = s.freeCtr := by
  unfold sendAgreePos
  simp
@[simp] theorem sendAgreePos_pending (s : State) (pos : Nat) (type : Byte) (epoch ballot arg : U32) (body : List Byte) : (sendAgreePos s pos type epoch ballot arg body).pending = s.pending := by
  unfold sendAgreePos
  simp


/-! ### sendSeal -/

@[simp] theorem sendSeal_fuses (s : State) (pos : Nat) (type : Byte) (tide : U48) (arg : U32) (body : List Byte) : (sendSeal s pos type tide arg body).fuses = s.fuses := by
  unfold sendSeal
  simp
@[simp] theorem sendSeal_ctrl (s : State) (pos : Nat) (type : Byte) (tide : U48) (arg : U32) (body : List Byte) : (sendSeal s pos type tide arg body).ctrl = s.ctrl := by
  unfold sendSeal
  simp
@[simp] theorem sendSeal_stat (s : State) (pos : Nat) (type : Byte) (tide : U48) (arg : U32) (body : List Byte) : (sendSeal s pos type tide arg body).stat = s.stat := by
  unfold sendSeal
  simp
@[simp] theorem sendSeal_rst (s : State) (pos : Nat) (type : Byte) (tide : U48) (arg : U32) (body : List Byte) : (sendSeal s pos type tide arg body).rst = s.rst := by
  unfold sendSeal
  simp
@[simp] theorem sendSeal_fw (s : State) (pos : Nat) (type : Byte) (tide : U48) (arg : U32) (body : List Byte) : (sendSeal s pos type tide arg body).fw = s.fw := by
  unfold sendSeal
  simp
@[simp] theorem sendSeal_mb (s : State) (pos : Nat) (type : Byte) (tide : U48) (arg : U32) (body : List Byte) : (sendSeal s pos type tide arg body).mb = s.mb := by
  unfold sendSeal
  simp
@[simp] theorem sendSeal_job (s : State) (pos : Nat) (type : Byte) (tide : U48) (arg : U32) (body : List Byte) : (sendSeal s pos type tide arg body).job = s.job := by
  unfold sendSeal
  simp
@[simp] theorem sendSeal_mem (s : State) (pos : Nat) (type : Byte) (tide : U48) (arg : U32) (body : List Byte) : (sendSeal s pos type tide arg body).mem = s.mem := by
  unfold sendSeal
  simp
@[simp] theorem sendSeal_tier (s : State) (pos : Nat) (type : Byte) (tide : U48) (arg : U32) (body : List Byte) : (sendSeal s pos type tide arg body).tier = s.tier := by
  unfold sendSeal
  simp
@[simp] theorem sendSeal_cap (s : State) (pos : Nat) (type : Byte) (tide : U48) (arg : U32) (body : List Byte) : (sendSeal s pos type tide arg body).cap = s.cap := by
  unfold sendSeal
  simp
@[simp] theorem sendSeal_fold (s : State) (pos : Nat) (type : Byte) (tide : U48) (arg : U32) (body : List Byte) : (sendSeal s pos type tide arg body).fold = s.fold := by
  unfold sendSeal
  simp
@[simp] theorem sendSeal_digests (s : State) (pos : Nat) (type : Byte) (tide : U48) (arg : U32) (body : List Byte) : (sendSeal s pos type tide arg body).digests = s.digests := by
  unfold sendSeal
  simp
@[simp] theorem sendSeal_tide (s : State) (pos : Nat) (type : Byte) (tide : U48) (arg : U32) (body : List Byte) : (sendSeal s pos type tide arg body).tide = s.tide := by
  unfold sendSeal
  simp
@[simp] theorem sendSeal_agree (s : State) (pos : Nat) (type : Byte) (tide : U48) (arg : U32) (body : List Byte) : (sendSeal s pos type tide arg body).agree = s.agree := by
  unfold sendSeal
  simp
@[simp] theorem sendSeal_bcast (s : State) (pos : Nat) (type : Byte) (tide : U48) (arg : U32) (body : List Byte) : (sendSeal s pos type tide arg body).bcast = s.bcast := by
  unfold sendSeal
  simp
@[simp] theorem sendSeal_recov (s : State) (pos : Nat) (type : Byte) (tide : U48) (arg : U32) (body : List Byte) : (sendSeal s pos type tide arg body).recov = s.recov := by
  unfold sendSeal
  simp
@[simp] theorem sendSeal_twin (s : State) (pos : Nat) (type : Byte) (tide : U48) (arg : U32) (body : List Byte) : (sendSeal s pos type tide arg body).twin = s.twin := by
  unfold sendSeal
  simp
@[simp] theorem sendSeal_apply (s : State) (pos : Nat) (type : Byte) (tide : U48) (arg : U32) (body : List Byte) : (sendSeal s pos type tide arg body).apply = s.apply := by
  unfold sendSeal
  simp
@[simp] theorem sendSeal_exch (s : State) (pos : Nat) (type : Byte) (tide : U48) (arg : U32) (body : List Byte) : (sendSeal s pos type tide arg body).exch = s.exch := by
  unfold sendSeal
  simp
@[simp] theorem sendSeal_beacon (s : State) (pos : Nat) (type : Byte) (tide : U48) (arg : U32) (body : List Byte) : (sendSeal s pos type tide arg body).beacon = s.beacon := by
  unfold sendSeal
  simp
@[simp] theorem sendSeal_power (s : State) (pos : Nat) (type : Byte) (tide : U48) (arg : U32) (body : List Byte) : (sendSeal s pos type tide arg body).power = s.power := by
  unfold sendSeal
  simp
@[simp] theorem sendSeal_bist (s : State) (pos : Nat) (type : Byte) (tide : U48) (arg : U32) (body : List Byte) : (sendSeal s pos type tide arg body).bist = s.bist := by
  unfold sendSeal
  simp
@[simp] theorem sendSeal_lat (s : State) (pos : Nat) (type : Byte) (tide : U48) (arg : U32) (body : List Byte) : (sendSeal s pos type tide arg body).lat = s.lat := by
  unfold sendSeal
  simp
@[simp] theorem sendSeal_log (s : State) (pos : Nat) (type : Byte) (tide : U48) (arg : U32) (body : List Byte) : (sendSeal s pos type tide arg body).log = s.log := by
  unfold sendSeal
  simp
@[simp] theorem sendSeal_cnt (s : State) (pos : Nat) (type : Byte) (tide : U48) (arg : U32) (body : List Byte) : (sendSeal s pos type tide arg body).cnt = s.cnt := by
  unfold sendSeal
  simp
@[simp] theorem sendSeal_events (s : State) (pos : Nat) (type : Byte) (tide : U48) (arg : U32) (body : List Byte) : (sendSeal s pos type tide arg body).events = s.events := by
  unfold sendSeal
  simp
@[simp] theorem sendSeal_ports (s : State) (pos : Nat) (type : Byte) (tide : U48) (arg : U32) (body : List Byte) : (sendSeal s pos type tide arg body).ports = s.ports := by
  unfold sendSeal
  simp
@[simp] theorem sendSeal_time (s : State) (pos : Nat) (type : Byte) (tide : U48) (arg : U32) (body : List Byte) : (sendSeal s pos type tide arg body).time = s.time := by
  unfold sendSeal
  simp
@[simp] theorem sendSeal_freeCtr (s : State) (pos : Nat) (type : Byte) (tide : U48) (arg : U32) (body : List Byte) : (sendSeal s pos type tide arg body).freeCtr = s.freeCtr := by
  unfold sendSeal
  simp
@[simp] theorem sendSeal_pending (s : State) (pos : Nat) (type : Byte) (tide : U48) (arg : U32) (body : List Byte) : (sendSeal s pos type tide arg body).pending = s.pending := by
  unfold sendSeal
  simp


/-! ### sendRecord -/

@[simp] theorem sendRecord_fuses (s : State) (type : Byte) (r : ExRec) : (sendRecord s type r).fuses = s.fuses := by
  unfold sendRecord
  split <;> rfl
@[simp] theorem sendRecord_ctrl (s : State) (type : Byte) (r : ExRec) : (sendRecord s type r).ctrl = s.ctrl := by
  unfold sendRecord
  split <;> rfl
@[simp] theorem sendRecord_stat (s : State) (type : Byte) (r : ExRec) : (sendRecord s type r).stat = s.stat := by
  unfold sendRecord
  split <;> rfl
@[simp] theorem sendRecord_rst (s : State) (type : Byte) (r : ExRec) : (sendRecord s type r).rst = s.rst := by
  unfold sendRecord
  split <;> rfl
@[simp] theorem sendRecord_fw (s : State) (type : Byte) (r : ExRec) : (sendRecord s type r).fw = s.fw := by
  unfold sendRecord
  split <;> rfl
@[simp] theorem sendRecord_mb (s : State) (type : Byte) (r : ExRec) : (sendRecord s type r).mb = s.mb := by
  unfold sendRecord
  split <;> rfl
@[simp] theorem sendRecord_job (s : State) (type : Byte) (r : ExRec) : (sendRecord s type r).job = s.job := by
  unfold sendRecord
  split <;> rfl
@[simp] theorem sendRecord_mem (s : State) (type : Byte) (r : ExRec) : (sendRecord s type r).mem = s.mem := by
  unfold sendRecord
  split <;> rfl
@[simp] theorem sendRecord_tier (s : State) (type : Byte) (r : ExRec) : (sendRecord s type r).tier = s.tier := by
  unfold sendRecord
  split <;> rfl
@[simp] theorem sendRecord_cap (s : State) (type : Byte) (r : ExRec) : (sendRecord s type r).cap = s.cap := by
  unfold sendRecord
  split <;> rfl
@[simp] theorem sendRecord_fold (s : State) (type : Byte) (r : ExRec) : (sendRecord s type r).fold = s.fold := by
  unfold sendRecord
  split <;> rfl
@[simp] theorem sendRecord_digests (s : State) (type : Byte) (r : ExRec) : (sendRecord s type r).digests = s.digests := by
  unfold sendRecord
  split <;> rfl
@[simp] theorem sendRecord_tide (s : State) (type : Byte) (r : ExRec) : (sendRecord s type r).tide = s.tide := by
  unfold sendRecord
  split <;> rfl
@[simp] theorem sendRecord_agree (s : State) (type : Byte) (r : ExRec) : (sendRecord s type r).agree = s.agree := by
  unfold sendRecord
  split <;> rfl
@[simp] theorem sendRecord_bcast (s : State) (type : Byte) (r : ExRec) : (sendRecord s type r).bcast = s.bcast := by
  unfold sendRecord
  split <;> rfl
@[simp] theorem sendRecord_recov (s : State) (type : Byte) (r : ExRec) : (sendRecord s type r).recov = s.recov := by
  unfold sendRecord
  split <;> rfl
@[simp] theorem sendRecord_twin (s : State) (type : Byte) (r : ExRec) : (sendRecord s type r).twin = s.twin := by
  unfold sendRecord
  split <;> rfl
@[simp] theorem sendRecord_apply (s : State) (type : Byte) (r : ExRec) : (sendRecord s type r).apply = s.apply := by
  unfold sendRecord
  split <;> rfl
@[simp] theorem sendRecord_exch (s : State) (type : Byte) (r : ExRec) : (sendRecord s type r).exch = s.exch := by
  unfold sendRecord
  split <;> rfl
@[simp] theorem sendRecord_beacon (s : State) (type : Byte) (r : ExRec) : (sendRecord s type r).beacon = s.beacon := by
  unfold sendRecord
  split <;> rfl
@[simp] theorem sendRecord_power (s : State) (type : Byte) (r : ExRec) : (sendRecord s type r).power = s.power := by
  unfold sendRecord
  split <;> rfl
@[simp] theorem sendRecord_bist (s : State) (type : Byte) (r : ExRec) : (sendRecord s type r).bist = s.bist := by
  unfold sendRecord
  split <;> rfl
@[simp] theorem sendRecord_lat (s : State) (type : Byte) (r : ExRec) : (sendRecord s type r).lat = s.lat := by
  unfold sendRecord
  split <;> rfl
@[simp] theorem sendRecord_log (s : State) (type : Byte) (r : ExRec) : (sendRecord s type r).log = s.log := by
  unfold sendRecord
  split <;> rfl
@[simp] theorem sendRecord_cnt (s : State) (type : Byte) (r : ExRec) : (sendRecord s type r).cnt = s.cnt := by
  unfold sendRecord
  split <;> rfl
@[simp] theorem sendRecord_events (s : State) (type : Byte) (r : ExRec) : (sendRecord s type r).events = s.events := by
  unfold sendRecord
  split <;> rfl
@[simp] theorem sendRecord_ports (s : State) (type : Byte) (r : ExRec) : (sendRecord s type r).ports = s.ports := by
  unfold sendRecord
  split <;> rfl
@[simp] theorem sendRecord_time (s : State) (type : Byte) (r : ExRec) : (sendRecord s type r).time = s.time := by
  unfold sendRecord
  split <;> rfl
@[simp] theorem sendRecord_freeCtr (s : State) (type : Byte) (r : ExRec) : (sendRecord s type r).freeCtr = s.freeCtr := by
  unfold sendRecord
  split <;> rfl
@[simp] theorem sendRecord_pending (s : State) (type : Byte) (r : ExRec) : (sendRecord s type r).pending = s.pending := by
  unfold sendRecord
  split <;> rfl


/-! ### freshFlood -/

@[simp] theorem freshFlood_fuses (s : State) : (freshFlood s).fuses = s.fuses := rfl
@[simp] theorem freshFlood_ctrl (s : State) : (freshFlood s).ctrl = s.ctrl := rfl
@[simp] theorem freshFlood_stat (s : State) : (freshFlood s).stat = s.stat := rfl
@[simp] theorem freshFlood_rst (s : State) : (freshFlood s).rst = s.rst := rfl
@[simp] theorem freshFlood_fw (s : State) : (freshFlood s).fw = s.fw := rfl
@[simp] theorem freshFlood_mb (s : State) : (freshFlood s).mb = s.mb := rfl
@[simp] theorem freshFlood_job (s : State) : (freshFlood s).job = s.job := rfl
@[simp] theorem freshFlood_mem (s : State) : (freshFlood s).mem = s.mem := rfl
@[simp] theorem freshFlood_tier (s : State) : (freshFlood s).tier = s.tier := rfl
@[simp] theorem freshFlood_cap (s : State) : (freshFlood s).cap = s.cap := rfl
@[simp] theorem freshFlood_digests (s : State) : (freshFlood s).digests = s.digests := rfl
@[simp] theorem freshFlood_agree (s : State) : (freshFlood s).agree = s.agree := rfl
@[simp] theorem freshFlood_bcast (s : State) : (freshFlood s).bcast = s.bcast := rfl
@[simp] theorem freshFlood_recov (s : State) : (freshFlood s).recov = s.recov := rfl
@[simp] theorem freshFlood_twin (s : State) : (freshFlood s).twin = s.twin := rfl
@[simp] theorem freshFlood_apply (s : State) : (freshFlood s).apply = s.apply := rfl
@[simp] theorem freshFlood_exch (s : State) : (freshFlood s).exch = s.exch := rfl
@[simp] theorem freshFlood_beacon (s : State) : (freshFlood s).beacon = s.beacon := rfl
@[simp] theorem freshFlood_power (s : State) : (freshFlood s).power = s.power := rfl
@[simp] theorem freshFlood_bist (s : State) : (freshFlood s).bist = s.bist := rfl
@[simp] theorem freshFlood_lat (s : State) : (freshFlood s).lat = s.lat := rfl
@[simp] theorem freshFlood_log (s : State) : (freshFlood s).log = s.log := rfl
@[simp] theorem freshFlood_cnt (s : State) : (freshFlood s).cnt = s.cnt := rfl
@[simp] theorem freshFlood_events (s : State) : (freshFlood s).events = s.events := rfl
@[simp] theorem freshFlood_ports (s : State) : (freshFlood s).ports = s.ports := rfl
@[simp] theorem freshFlood_time (s : State) : (freshFlood s).time = s.time := rfl
@[simp] theorem freshFlood_out (s : State) : (freshFlood s).out = s.out := rfl
@[simp] theorem freshFlood_freeCtr (s : State) : (freshFlood s).freeCtr = s.freeCtr := rfl
@[simp] theorem freshFlood_pending (s : State) : (freshFlood s).pending = s.pending := rfl


/-! ### stopCapture -/

@[simp] theorem stopCapture_fuses (s : State) : (stopCapture s).fuses = s.fuses := by
  unfold stopCapture
  split <;> rfl
@[simp] theorem stopCapture_ctrl (s : State) : (stopCapture s).ctrl = s.ctrl := by
  unfold stopCapture
  split <;> rfl
@[simp] theorem stopCapture_rst (s : State) : (stopCapture s).rst = s.rst := by
  unfold stopCapture
  split <;> rfl
@[simp] theorem stopCapture_fw (s : State) : (stopCapture s).fw = s.fw := by
  unfold stopCapture
  split <;> rfl
@[simp] theorem stopCapture_mb (s : State) : (stopCapture s).mb = s.mb := by
  unfold stopCapture
  split <;> rfl
@[simp] theorem stopCapture_job (s : State) : (stopCapture s).job = s.job := by
  unfold stopCapture
  split <;> rfl
@[simp] theorem stopCapture_mem (s : State) : (stopCapture s).mem = s.mem := by
  unfold stopCapture
  split <;> rfl
@[simp] theorem stopCapture_tier (s : State) : (stopCapture s).tier = s.tier := by
  unfold stopCapture
  split <;> rfl
@[simp] theorem stopCapture_cap (s : State) : (stopCapture s).cap = s.cap := by
  unfold stopCapture
  split <;> rfl
@[simp] theorem stopCapture_fold (s : State) : (stopCapture s).fold = s.fold := by
  unfold stopCapture
  split <;> rfl
@[simp] theorem stopCapture_digests (s : State) : (stopCapture s).digests = s.digests := by
  unfold stopCapture
  split <;> rfl
@[simp] theorem stopCapture_tide (s : State) : (stopCapture s).tide = s.tide := by
  unfold stopCapture
  split <;> rfl
@[simp] theorem stopCapture_agree (s : State) : (stopCapture s).agree = s.agree := by
  unfold stopCapture
  split <;> rfl
@[simp] theorem stopCapture_bcast (s : State) : (stopCapture s).bcast = s.bcast := by
  unfold stopCapture
  split <;> rfl
@[simp] theorem stopCapture_recov (s : State) : (stopCapture s).recov = s.recov := by
  unfold stopCapture
  split <;> rfl
@[simp] theorem stopCapture_twin (s : State) : (stopCapture s).twin = s.twin := by
  unfold stopCapture
  split <;> rfl
@[simp] theorem stopCapture_apply (s : State) : (stopCapture s).apply = s.apply := by
  unfold stopCapture
  split <;> rfl
@[simp] theorem stopCapture_exch (s : State) : (stopCapture s).exch = s.exch := by
  unfold stopCapture
  split <;> rfl
@[simp] theorem stopCapture_beacon (s : State) : (stopCapture s).beacon = s.beacon := by
  unfold stopCapture
  split <;> rfl
@[simp] theorem stopCapture_power (s : State) : (stopCapture s).power = s.power := by
  unfold stopCapture
  split <;> rfl
@[simp] theorem stopCapture_bist (s : State) : (stopCapture s).bist = s.bist := by
  unfold stopCapture
  split <;> rfl
@[simp] theorem stopCapture_lat (s : State) : (stopCapture s).lat = s.lat := by
  unfold stopCapture
  split <;> rfl
@[simp] theorem stopCapture_log (s : State) : (stopCapture s).log = s.log := by
  unfold stopCapture
  split <;> rfl
@[simp] theorem stopCapture_cnt (s : State) : (stopCapture s).cnt = s.cnt := by
  unfold stopCapture
  split <;> rfl
@[simp] theorem stopCapture_events (s : State) : (stopCapture s).events = s.events := by
  unfold stopCapture
  split <;> rfl
@[simp] theorem stopCapture_ports (s : State) : (stopCapture s).ports = s.ports := by
  unfold stopCapture
  split <;> rfl
@[simp] theorem stopCapture_time (s : State) : (stopCapture s).time = s.time := by
  unfold stopCapture
  split <;> rfl
@[simp] theorem stopCapture_out (s : State) : (stopCapture s).out = s.out := by
  unfold stopCapture
  split <;> rfl
@[simp] theorem stopCapture_freeCtr (s : State) : (stopCapture s).freeCtr = s.freeCtr := by
  unfold stopCapture
  split <;> rfl
@[simp] theorem stopCapture_pending (s : State) : (stopCapture s).pending = s.pending := by
  unfold stopCapture
  split <;> rfl


/-! ### takePolicy -/

@[simp] theorem takePolicy_fuses (s : State) : (takePolicy s).fuses = s.fuses := rfl
@[simp] theorem takePolicy_ctrl (s : State) : (takePolicy s).ctrl = s.ctrl := rfl
@[simp] theorem takePolicy_stat (s : State) : (takePolicy s).stat = s.stat := rfl
@[simp] theorem takePolicy_rst (s : State) : (takePolicy s).rst = s.rst := rfl
@[simp] theorem takePolicy_fw (s : State) : (takePolicy s).fw = s.fw := rfl
@[simp] theorem takePolicy_mb (s : State) : (takePolicy s).mb = s.mb := rfl
@[simp] theorem takePolicy_job (s : State) : (takePolicy s).job = s.job := rfl
@[simp] theorem takePolicy_mem (s : State) : (takePolicy s).mem = s.mem := rfl
@[simp] theorem takePolicy_tier (s : State) : (takePolicy s).tier = s.tier := rfl
@[simp] theorem takePolicy_cap (s : State) : (takePolicy s).cap = s.cap := rfl
@[simp] theorem takePolicy_digests (s : State) : (takePolicy s).digests = s.digests := rfl
@[simp] theorem takePolicy_agree (s : State) : (takePolicy s).agree = s.agree := rfl
@[simp] theorem takePolicy_bcast (s : State) : (takePolicy s).bcast = s.bcast := rfl
@[simp] theorem takePolicy_recov (s : State) : (takePolicy s).recov = s.recov := rfl
@[simp] theorem takePolicy_twin (s : State) : (takePolicy s).twin = s.twin := rfl
@[simp] theorem takePolicy_apply (s : State) : (takePolicy s).apply = s.apply := rfl
@[simp] theorem takePolicy_exch (s : State) : (takePolicy s).exch = s.exch := rfl
@[simp] theorem takePolicy_beacon (s : State) : (takePolicy s).beacon = s.beacon := rfl
@[simp] theorem takePolicy_power (s : State) : (takePolicy s).power = s.power := rfl
@[simp] theorem takePolicy_bist (s : State) : (takePolicy s).bist = s.bist := rfl
@[simp] theorem takePolicy_lat (s : State) : (takePolicy s).lat = s.lat := rfl
@[simp] theorem takePolicy_log (s : State) : (takePolicy s).log = s.log := rfl
@[simp] theorem takePolicy_cnt (s : State) : (takePolicy s).cnt = s.cnt := rfl
@[simp] theorem takePolicy_events (s : State) : (takePolicy s).events = s.events := rfl
@[simp] theorem takePolicy_ports (s : State) : (takePolicy s).ports = s.ports := rfl
@[simp] theorem takePolicy_time (s : State) : (takePolicy s).time = s.time := rfl
@[simp] theorem takePolicy_out (s : State) : (takePolicy s).out = s.out := rfl
@[simp] theorem takePolicy_freeCtr (s : State) : (takePolicy s).freeCtr = s.freeCtr := rfl
@[simp] theorem takePolicy_pending (s : State) : (takePolicy s).pending = s.pending := rfl


/-! ### openFlood -/

@[simp] theorem openFlood_fuses (s : State) (n : Nat) : (openFlood s n).fuses = s.fuses := by
  unfold openFlood
  simp
@[simp] theorem openFlood_ctrl (s : State) (n : Nat) : (openFlood s n).ctrl = s.ctrl := by
  unfold openFlood
  simp
@[simp] theorem openFlood_stat (s : State) (n : Nat) : (openFlood s n).stat = s.stat := by
  unfold openFlood
  simp
@[simp] theorem openFlood_rst (s : State) (n : Nat) : (openFlood s n).rst = s.rst := by
  unfold openFlood
  simp
@[simp] theorem openFlood_fw (s : State) (n : Nat) : (openFlood s n).fw = s.fw := by
  unfold openFlood
  simp
@[simp] theorem openFlood_mb (s : State) (n : Nat) : (openFlood s n).mb = s.mb := by
  unfold openFlood
  simp
@[simp] theorem openFlood_job (s : State) (n : Nat) : (openFlood s n).job = s.job := by
  unfold openFlood
  simp
@[simp] theorem openFlood_mem (s : State) (n : Nat) : (openFlood s n).mem = s.mem := by
  unfold openFlood
  simp
@[simp] theorem openFlood_tier (s : State) (n : Nat) : (openFlood s n).tier = s.tier := by
  unfold openFlood
  simp
@[simp] theorem openFlood_digests (s : State) (n : Nat) : (openFlood s n).digests = s.digests := by
  unfold openFlood
  simp
@[simp] theorem openFlood_agree (s : State) (n : Nat) : (openFlood s n).agree = s.agree := by
  unfold openFlood
  simp
@[simp] theorem openFlood_bcast (s : State) (n : Nat) : (openFlood s n).bcast = s.bcast := by
  unfold openFlood
  simp
@[simp] theorem openFlood_recov (s : State) (n : Nat) : (openFlood s n).recov = s.recov := by
  unfold openFlood
  simp
@[simp] theorem openFlood_twin (s : State) (n : Nat) : (openFlood s n).twin = s.twin := by
  unfold openFlood
  simp
@[simp] theorem openFlood_apply (s : State) (n : Nat) : (openFlood s n).apply = s.apply := by
  unfold openFlood
  simp
@[simp] theorem openFlood_exch (s : State) (n : Nat) : (openFlood s n).exch = s.exch := by
  unfold openFlood
  simp
@[simp] theorem openFlood_beacon (s : State) (n : Nat) : (openFlood s n).beacon = s.beacon := by
  unfold openFlood
  simp
@[simp] theorem openFlood_power (s : State) (n : Nat) : (openFlood s n).power = s.power := by
  unfold openFlood
  simp
@[simp] theorem openFlood_bist (s : State) (n : Nat) : (openFlood s n).bist = s.bist := by
  unfold openFlood
  simp
@[simp] theorem openFlood_lat (s : State) (n : Nat) : (openFlood s n).lat = s.lat := by
  unfold openFlood
  simp
@[simp] theorem openFlood_log (s : State) (n : Nat) : (openFlood s n).log = s.log := by
  unfold openFlood
  simp
@[simp] theorem openFlood_cnt (s : State) (n : Nat) : (openFlood s n).cnt = s.cnt := by
  unfold openFlood
  simp
@[simp] theorem openFlood_events (s : State) (n : Nat) : (openFlood s n).events = s.events := by
  unfold openFlood
  simp
@[simp] theorem openFlood_ports (s : State) (n : Nat) : (openFlood s n).ports = s.ports := by
  unfold openFlood
  simp
@[simp] theorem openFlood_time (s : State) (n : Nat) : (openFlood s n).time = s.time := by
  unfold openFlood
  simp
@[simp] theorem openFlood_out (s : State) (n : Nat) : (openFlood s n).out = s.out := by
  unfold openFlood
  simp
@[simp] theorem openFlood_freeCtr (s : State) (n : Nat) : (openFlood s n).freeCtr = s.freeCtr := by
  unfold openFlood
  simp
@[simp] theorem openFlood_pending (s : State) (n : Nat) : (openFlood s n).pending = s.pending := by
  unfold openFlood
  simp


/-! ### noteAccess -/

@[simp] theorem noteAccess_fuses (s : State) (a : Nat) : (noteAccess s a).fuses = s.fuses := by
  unfold noteAccess
  split <;> first | rfl | (split <;> rfl)
@[simp] theorem noteAccess_ctrl (s : State) (a : Nat) : (noteAccess s a).ctrl = s.ctrl := by
  unfold noteAccess
  split <;> first | rfl | (split <;> rfl)
@[simp] theorem noteAccess_stat (s : State) (a : Nat) : (noteAccess s a).stat = s.stat := by
  unfold noteAccess
  split <;> first | rfl | (split <;> rfl)
@[simp] theorem noteAccess_rst (s : State) (a : Nat) : (noteAccess s a).rst = s.rst := by
  unfold noteAccess
  split <;> first | rfl | (split <;> rfl)
@[simp] theorem noteAccess_fw (s : State) (a : Nat) : (noteAccess s a).fw = s.fw := by
  unfold noteAccess
  split <;> first | rfl | (split <;> rfl)
@[simp] theorem noteAccess_mb (s : State) (a : Nat) : (noteAccess s a).mb = s.mb := by
  unfold noteAccess
  split <;> first | rfl | (split <;> rfl)
@[simp] theorem noteAccess_job (s : State) (a : Nat) : (noteAccess s a).job = s.job := by
  unfold noteAccess
  split <;> first | rfl | (split <;> rfl)
@[simp] theorem noteAccess_mem (s : State) (a : Nat) : (noteAccess s a).mem = s.mem := by
  unfold noteAccess
  split <;> first | rfl | (split <;> rfl)
@[simp] theorem noteAccess_tier (s : State) (a : Nat) : (noteAccess s a).tier = s.tier := by
  unfold noteAccess
  split <;> first | rfl | (split <;> rfl)
@[simp] theorem noteAccess_cap (s : State) (a : Nat) : (noteAccess s a).cap = s.cap := by
  unfold noteAccess
  split <;> first | rfl | (split <;> rfl)
@[simp] theorem noteAccess_fold (s : State) (a : Nat) : (noteAccess s a).fold = s.fold := by
  unfold noteAccess
  split <;> first | rfl | (split <;> rfl)
@[simp] theorem noteAccess_digests (s : State) (a : Nat) : (noteAccess s a).digests = s.digests := by
  unfold noteAccess
  split <;> first | rfl | (split <;> rfl)
@[simp] theorem noteAccess_tide (s : State) (a : Nat) : (noteAccess s a).tide = s.tide := by
  unfold noteAccess
  split <;> first | rfl | (split <;> rfl)
@[simp] theorem noteAccess_agree (s : State) (a : Nat) : (noteAccess s a).agree = s.agree := by
  unfold noteAccess
  split <;> first | rfl | (split <;> rfl)
@[simp] theorem noteAccess_bcast (s : State) (a : Nat) : (noteAccess s a).bcast = s.bcast := by
  unfold noteAccess
  split <;> first | rfl | (split <;> rfl)
@[simp] theorem noteAccess_twin (s : State) (a : Nat) : (noteAccess s a).twin = s.twin := by
  unfold noteAccess
  split <;> first | rfl | (split <;> rfl)
@[simp] theorem noteAccess_apply (s : State) (a : Nat) : (noteAccess s a).apply = s.apply := by
  unfold noteAccess
  split <;> first | rfl | (split <;> rfl)
@[simp] theorem noteAccess_exch (s : State) (a : Nat) : (noteAccess s a).exch = s.exch := by
  unfold noteAccess
  split <;> first | rfl | (split <;> rfl)
@[simp] theorem noteAccess_beacon (s : State) (a : Nat) : (noteAccess s a).beacon = s.beacon := by
  unfold noteAccess
  split <;> first | rfl | (split <;> rfl)
@[simp] theorem noteAccess_power (s : State) (a : Nat) : (noteAccess s a).power = s.power := by
  unfold noteAccess
  split <;> first | rfl | (split <;> rfl)
@[simp] theorem noteAccess_bist (s : State) (a : Nat) : (noteAccess s a).bist = s.bist := by
  unfold noteAccess
  split <;> first | rfl | (split <;> rfl)
@[simp] theorem noteAccess_lat (s : State) (a : Nat) : (noteAccess s a).lat = s.lat := by
  unfold noteAccess
  split <;> first | rfl | (split <;> rfl)
@[simp] theorem noteAccess_log (s : State) (a : Nat) : (noteAccess s a).log = s.log := by
  unfold noteAccess
  split <;> first | rfl | (split <;> rfl)
@[simp] theorem noteAccess_cnt (s : State) (a : Nat) : (noteAccess s a).cnt = s.cnt := by
  unfold noteAccess
  split <;> first | rfl | (split <;> rfl)
@[simp] theorem noteAccess_events (s : State) (a : Nat) : (noteAccess s a).events = s.events := by
  unfold noteAccess
  split <;> first | rfl | (split <;> rfl)
@[simp] theorem noteAccess_ports (s : State) (a : Nat) : (noteAccess s a).ports = s.ports := by
  unfold noteAccess
  split <;> first | rfl | (split <;> rfl)
@[simp] theorem noteAccess_time (s : State) (a : Nat) : (noteAccess s a).time = s.time := by
  unfold noteAccess
  split <;> first | rfl | (split <;> rfl)
@[simp] theorem noteAccess_out (s : State) (a : Nat) : (noteAccess s a).out = s.out := by
  unfold noteAccess
  split <;> first | rfl | (split <;> rfl)
@[simp] theorem noteAccess_freeCtr (s : State) (a : Nat) : (noteAccess s a).freeCtr = s.freeCtr := by
  unfold noteAccess
  split <;> first | rfl | (split <;> rfl)
@[simp] theorem noteAccess_pending (s : State) (a : Nat) : (noteAccess s a).pending = s.pending := by
  unfold noteAccess
  split <;> first | rfl | (split <;> rfl)


/-! ### dropCopies -/

@[simp] theorem dropCopies_fuses (s : State) (a : Nat) : (dropCopies s a).fuses = s.fuses := rfl
@[simp] theorem dropCopies_ctrl (s : State) (a : Nat) : (dropCopies s a).ctrl = s.ctrl := rfl
@[simp] theorem dropCopies_stat (s : State) (a : Nat) : (dropCopies s a).stat = s.stat := rfl
@[simp] theorem dropCopies_rst (s : State) (a : Nat) : (dropCopies s a).rst = s.rst := rfl
@[simp] theorem dropCopies_fw (s : State) (a : Nat) : (dropCopies s a).fw = s.fw := rfl
@[simp] theorem dropCopies_mb (s : State) (a : Nat) : (dropCopies s a).mb = s.mb := rfl
@[simp] theorem dropCopies_job (s : State) (a : Nat) : (dropCopies s a).job = s.job := rfl
@[simp] theorem dropCopies_mem (s : State) (a : Nat) : (dropCopies s a).mem = s.mem := rfl
@[simp] theorem dropCopies_cap (s : State) (a : Nat) : (dropCopies s a).cap = s.cap := rfl
@[simp] theorem dropCopies_fold (s : State) (a : Nat) : (dropCopies s a).fold = s.fold := rfl
@[simp] theorem dropCopies_digests (s : State) (a : Nat) : (dropCopies s a).digests = s.digests := rfl
@[simp] theorem dropCopies_tide (s : State) (a : Nat) : (dropCopies s a).tide = s.tide := rfl
@[simp] theorem dropCopies_agree (s : State) (a : Nat) : (dropCopies s a).agree = s.agree := rfl
@[simp] theorem dropCopies_bcast (s : State) (a : Nat) : (dropCopies s a).bcast = s.bcast := rfl
@[simp] theorem dropCopies_recov (s : State) (a : Nat) : (dropCopies s a).recov = s.recov := rfl
@[simp] theorem dropCopies_twin (s : State) (a : Nat) : (dropCopies s a).twin = s.twin := rfl
@[simp] theorem dropCopies_apply (s : State) (a : Nat) : (dropCopies s a).apply = s.apply := rfl
@[simp] theorem dropCopies_exch (s : State) (a : Nat) : (dropCopies s a).exch = s.exch := rfl
@[simp] theorem dropCopies_beacon (s : State) (a : Nat) : (dropCopies s a).beacon = s.beacon := rfl
@[simp] theorem dropCopies_power (s : State) (a : Nat) : (dropCopies s a).power = s.power := rfl
@[simp] theorem dropCopies_bist (s : State) (a : Nat) : (dropCopies s a).bist = s.bist := rfl
@[simp] theorem dropCopies_lat (s : State) (a : Nat) : (dropCopies s a).lat = s.lat := rfl
@[simp] theorem dropCopies_log (s : State) (a : Nat) : (dropCopies s a).log = s.log := rfl
@[simp] theorem dropCopies_cnt (s : State) (a : Nat) : (dropCopies s a).cnt = s.cnt := rfl
@[simp] theorem dropCopies_events (s : State) (a : Nat) : (dropCopies s a).events = s.events := rfl
@[simp] theorem dropCopies_ports (s : State) (a : Nat) : (dropCopies s a).ports = s.ports := rfl
@[simp] theorem dropCopies_time (s : State) (a : Nat) : (dropCopies s a).time = s.time := rfl
@[simp] theorem dropCopies_out (s : State) (a : Nat) : (dropCopies s a).out = s.out := rfl
@[simp] theorem dropCopies_freeCtr (s : State) (a : Nat) : (dropCopies s a).freeCtr = s.freeCtr := rfl
@[simp] theorem dropCopies_pending (s : State) (a : Nat) : (dropCopies s a).pending = s.pending := rfl


/-! ### markRace -/

@[simp] theorem markRace_fuses (s : State) (a : Nat) (ms : List Master) : (markRace s a ms).fuses = s.fuses := by
  unfold markRace
  split <;> rfl
@[simp] theorem markRace_ctrl (s : State) (a : Nat) (ms : List Master) : (markRace s a ms).ctrl = s.ctrl := by
  unfold markRace
  split <;> rfl
@[simp] theorem markRace_stat (s : State) (a : Nat) (ms : List Master) : (markRace s a ms).stat = s.stat := by
  unfold markRace
  split <;> rfl
@[simp] theorem markRace_rst (s : State) (a : Nat) (ms : List Master) : (markRace s a ms).rst = s.rst := by
  unfold markRace
  split <;> rfl
@[simp] theorem markRace_fw (s : State) (a : Nat) (ms : List Master) : (markRace s a ms).fw = s.fw := by
  unfold markRace
  split <;> rfl
@[simp] theorem markRace_mb (s : State) (a : Nat) (ms : List Master) : (markRace s a ms).mb = s.mb := by
  unfold markRace
  split <;> rfl
@[simp] theorem markRace_job (s : State) (a : Nat) (ms : List Master) : (markRace s a ms).job = s.job := by
  unfold markRace
  split <;> rfl
@[simp] theorem markRace_mem (s : State) (a : Nat) (ms : List Master) : (markRace s a ms).mem = s.mem := by
  unfold markRace
  split <;> rfl
@[simp] theorem markRace_tier (s : State) (a : Nat) (ms : List Master) : (markRace s a ms).tier = s.tier := by
  unfold markRace
  split <;> rfl
@[simp] theorem markRace_cap (s : State) (a : Nat) (ms : List Master) : (markRace s a ms).cap = s.cap := by
  unfold markRace
  split <;> rfl
@[simp] theorem markRace_fold (s : State) (a : Nat) (ms : List Master) : (markRace s a ms).fold = s.fold := by
  unfold markRace
  split <;> rfl
@[simp] theorem markRace_digests (s : State) (a : Nat) (ms : List Master) : (markRace s a ms).digests = s.digests := by
  unfold markRace
  split <;> rfl
@[simp] theorem markRace_tide (s : State) (a : Nat) (ms : List Master) : (markRace s a ms).tide = s.tide := by
  unfold markRace
  split <;> rfl
@[simp] theorem markRace_agree (s : State) (a : Nat) (ms : List Master) : (markRace s a ms).agree = s.agree := by
  unfold markRace
  split <;> rfl
@[simp] theorem markRace_bcast (s : State) (a : Nat) (ms : List Master) : (markRace s a ms).bcast = s.bcast := by
  unfold markRace
  split <;> rfl
@[simp] theorem markRace_recov (s : State) (a : Nat) (ms : List Master) : (markRace s a ms).recov = s.recov := by
  unfold markRace
  split <;> rfl
@[simp] theorem markRace_twin (s : State) (a : Nat) (ms : List Master) : (markRace s a ms).twin = s.twin := by
  unfold markRace
  split <;> rfl
@[simp] theorem markRace_exch (s : State) (a : Nat) (ms : List Master) : (markRace s a ms).exch = s.exch := by
  unfold markRace
  split <;> rfl
@[simp] theorem markRace_beacon (s : State) (a : Nat) (ms : List Master) : (markRace s a ms).beacon = s.beacon := by
  unfold markRace
  split <;> rfl
@[simp] theorem markRace_power (s : State) (a : Nat) (ms : List Master) : (markRace s a ms).power = s.power := by
  unfold markRace
  split <;> rfl
@[simp] theorem markRace_bist (s : State) (a : Nat) (ms : List Master) : (markRace s a ms).bist = s.bist := by
  unfold markRace
  split <;> rfl
@[simp] theorem markRace_lat (s : State) (a : Nat) (ms : List Master) : (markRace s a ms).lat = s.lat := by
  unfold markRace
  split <;> rfl
@[simp] theorem markRace_log (s : State) (a : Nat) (ms : List Master) : (markRace s a ms).log = s.log := by
  unfold markRace
  split <;> rfl
@[simp] theorem markRace_cnt (s : State) (a : Nat) (ms : List Master) : (markRace s a ms).cnt = s.cnt := by
  unfold markRace
  split <;> rfl
@[simp] theorem markRace_events (s : State) (a : Nat) (ms : List Master) : (markRace s a ms).events = s.events := by
  unfold markRace
  split <;> rfl
@[simp] theorem markRace_ports (s : State) (a : Nat) (ms : List Master) : (markRace s a ms).ports = s.ports := by
  unfold markRace
  split <;> rfl
@[simp] theorem markRace_time (s : State) (a : Nat) (ms : List Master) : (markRace s a ms).time = s.time := by
  unfold markRace
  split <;> rfl
@[simp] theorem markRace_out (s : State) (a : Nat) (ms : List Master) : (markRace s a ms).out = s.out := by
  unfold markRace
  split <;> rfl
@[simp] theorem markRace_freeCtr (s : State) (a : Nat) (ms : List Master) : (markRace s a ms).freeCtr = s.freeCtr := by
  unfold markRace
  split <;> rfl
@[simp] theorem markRace_pending (s : State) (a : Nat) (ms : List Master) : (markRace s a ms).pending = s.pending := by
  unfold markRace
  split <;> rfl


/-! ### commitLine -/

@[simp] theorem commitLine_fuses (s : State) (a : Nat) (new : Line) (ms : List Master) : (commitLine s a new ms).fuses = s.fuses := by
  unfold commitLine
  dsimp only
  split <;> simp
@[simp] theorem commitLine_ctrl (s : State) (a : Nat) (new : Line) (ms : List Master) : (commitLine s a new ms).ctrl = s.ctrl := by
  unfold commitLine
  dsimp only
  split <;> simp
@[simp] theorem commitLine_stat (s : State) (a : Nat) (new : Line) (ms : List Master) : (commitLine s a new ms).stat = s.stat := by
  unfold commitLine
  dsimp only
  split <;> simp
@[simp] theorem commitLine_rst (s : State) (a : Nat) (new : Line) (ms : List Master) : (commitLine s a new ms).rst = s.rst := by
  unfold commitLine
  dsimp only
  split <;> simp
@[simp] theorem commitLine_fw (s : State) (a : Nat) (new : Line) (ms : List Master) : (commitLine s a new ms).fw = s.fw := by
  unfold commitLine
  dsimp only
  split <;> simp
@[simp] theorem commitLine_mb (s : State) (a : Nat) (new : Line) (ms : List Master) : (commitLine s a new ms).mb = s.mb := by
  unfold commitLine
  dsimp only
  split <;> simp
@[simp] theorem commitLine_job (s : State) (a : Nat) (new : Line) (ms : List Master) : (commitLine s a new ms).job = s.job := by
  unfold commitLine
  dsimp only
  split <;> simp
@[simp] theorem commitLine_cap (s : State) (a : Nat) (new : Line) (ms : List Master) : (commitLine s a new ms).cap = s.cap := by
  unfold commitLine
  dsimp only
  split <;> simp
@[simp] theorem commitLine_fold (s : State) (a : Nat) (new : Line) (ms : List Master) : (commitLine s a new ms).fold = s.fold := by
  unfold commitLine
  dsimp only
  split <;> simp
@[simp] theorem commitLine_digests (s : State) (a : Nat) (new : Line) (ms : List Master) : (commitLine s a new ms).digests = s.digests := by
  unfold commitLine
  dsimp only
  split <;> simp
@[simp] theorem commitLine_tide (s : State) (a : Nat) (new : Line) (ms : List Master) : (commitLine s a new ms).tide = s.tide := by
  unfold commitLine
  dsimp only
  split <;> simp
@[simp] theorem commitLine_agree (s : State) (a : Nat) (new : Line) (ms : List Master) : (commitLine s a new ms).agree = s.agree := by
  unfold commitLine
  dsimp only
  split <;> simp
@[simp] theorem commitLine_bcast (s : State) (a : Nat) (new : Line) (ms : List Master) : (commitLine s a new ms).bcast = s.bcast := by
  unfold commitLine
  dsimp only
  split <;> simp
@[simp] theorem commitLine_recov (s : State) (a : Nat) (new : Line) (ms : List Master) : (commitLine s a new ms).recov = s.recov := by
  unfold commitLine
  dsimp only
  split <;> simp
@[simp] theorem commitLine_twin (s : State) (a : Nat) (new : Line) (ms : List Master) : (commitLine s a new ms).twin = s.twin := by
  unfold commitLine
  dsimp only
  split <;> simp
@[simp] theorem commitLine_exch (s : State) (a : Nat) (new : Line) (ms : List Master) : (commitLine s a new ms).exch = s.exch := by
  unfold commitLine
  dsimp only
  split <;> simp
@[simp] theorem commitLine_beacon (s : State) (a : Nat) (new : Line) (ms : List Master) : (commitLine s a new ms).beacon = s.beacon := by
  unfold commitLine
  dsimp only
  split <;> simp
@[simp] theorem commitLine_power (s : State) (a : Nat) (new : Line) (ms : List Master) : (commitLine s a new ms).power = s.power := by
  unfold commitLine
  dsimp only
  split <;> simp
@[simp] theorem commitLine_bist (s : State) (a : Nat) (new : Line) (ms : List Master) : (commitLine s a new ms).bist = s.bist := by
  unfold commitLine
  dsimp only
  split <;> simp
@[simp] theorem commitLine_lat (s : State) (a : Nat) (new : Line) (ms : List Master) : (commitLine s a new ms).lat = s.lat := by
  unfold commitLine
  dsimp only
  split <;> simp
@[simp] theorem commitLine_log (s : State) (a : Nat) (new : Line) (ms : List Master) : (commitLine s a new ms).log = s.log := by
  unfold commitLine
  dsimp only
  split <;> simp
@[simp] theorem commitLine_cnt (s : State) (a : Nat) (new : Line) (ms : List Master) : (commitLine s a new ms).cnt = s.cnt := by
  unfold commitLine
  dsimp only
  split <;> simp
@[simp] theorem commitLine_events (s : State) (a : Nat) (new : Line) (ms : List Master) : (commitLine s a new ms).events = s.events := by
  unfold commitLine
  dsimp only
  split <;> simp
@[simp] theorem commitLine_ports (s : State) (a : Nat) (new : Line) (ms : List Master) : (commitLine s a new ms).ports = s.ports := by
  unfold commitLine
  dsimp only
  split <;> simp
@[simp] theorem commitLine_time (s : State) (a : Nat) (new : Line) (ms : List Master) : (commitLine s a new ms).time = s.time := by
  unfold commitLine
  dsimp only
  split <;> simp
@[simp] theorem commitLine_out (s : State) (a : Nat) (new : Line) (ms : List Master) : (commitLine s a new ms).out = s.out := by
  unfold commitLine
  dsimp only
  split <;> simp
@[simp] theorem commitLine_freeCtr (s : State) (a : Nat) (new : Line) (ms : List Master) : (commitLine s a new ms).freeCtr = s.freeCtr := by
  unfold commitLine
  dsimp only
  split <;> simp
@[simp] theorem commitLine_pending (s : State) (a : Nat) (new : Line) (ms : List Master) : (commitLine s a new ms).pending = s.pending := by
  unfold commitLine
  dsimp only
  split <;> simp


/-! ### commitBytes -/

@[simp] theorem commitBytes_fuses (s : State) (r : SnoopRec) : (commitBytes s r).fuses = s.fuses := by
  unfold commitBytes
  simp
@[simp] theorem commitBytes_ctrl (s : State) (r : SnoopRec) : (commitBytes s r).ctrl = s.ctrl := by
  unfold commitBytes
  simp
@[simp] theorem commitBytes_stat (s : State) (r : SnoopRec) : (commitBytes s r).stat = s.stat := by
  unfold commitBytes
  simp
@[simp] theorem commitBytes_rst (s : State) (r : SnoopRec) : (commitBytes s r).rst = s.rst := by
  unfold commitBytes
  simp
@[simp] theorem commitBytes_fw (s : State) (r : SnoopRec) : (commitBytes s r).fw = s.fw := by
  unfold commitBytes
  simp
@[simp] theorem commitBytes_mb (s : State) (r : SnoopRec) : (commitBytes s r).mb = s.mb := by
  unfold commitBytes
  simp
@[simp] theorem commitBytes_job (s : State) (r : SnoopRec) : (commitBytes s r).job = s.job := by
  unfold commitBytes
  simp
@[simp] theorem commitBytes_cap (s : State) (r : SnoopRec) : (commitBytes s r).cap = s.cap := by
  unfold commitBytes
  simp
@[simp] theorem commitBytes_fold (s : State) (r : SnoopRec) : (commitBytes s r).fold = s.fold := by
  unfold commitBytes
  simp
@[simp] theorem commitBytes_digests (s : State) (r : SnoopRec) : (commitBytes s r).digests = s.digests := by
  unfold commitBytes
  simp
@[simp] theorem commitBytes_tide (s : State) (r : SnoopRec) : (commitBytes s r).tide = s.tide := by
  unfold commitBytes
  simp
@[simp] theorem commitBytes_agree (s : State) (r : SnoopRec) : (commitBytes s r).agree = s.agree := by
  unfold commitBytes
  simp
@[simp] theorem commitBytes_bcast (s : State) (r : SnoopRec) : (commitBytes s r).bcast = s.bcast := by
  unfold commitBytes
  simp
@[simp] theorem commitBytes_recov (s : State) (r : SnoopRec) : (commitBytes s r).recov = s.recov := by
  unfold commitBytes
  simp
@[simp] theorem commitBytes_twin (s : State) (r : SnoopRec) : (commitBytes s r).twin = s.twin := by
  unfold commitBytes
  simp
@[simp] theorem commitBytes_exch (s : State) (r : SnoopRec) : (commitBytes s r).exch = s.exch := by
  unfold commitBytes
  simp
@[simp] theorem commitBytes_beacon (s : State) (r : SnoopRec) : (commitBytes s r).beacon = s.beacon := by
  unfold commitBytes
  simp
@[simp] theorem commitBytes_power (s : State) (r : SnoopRec) : (commitBytes s r).power = s.power := by
  unfold commitBytes
  simp
@[simp] theorem commitBytes_bist (s : State) (r : SnoopRec) : (commitBytes s r).bist = s.bist := by
  unfold commitBytes
  simp
@[simp] theorem commitBytes_lat (s : State) (r : SnoopRec) : (commitBytes s r).lat = s.lat := by
  unfold commitBytes
  simp
@[simp] theorem commitBytes_log (s : State) (r : SnoopRec) : (commitBytes s r).log = s.log := by
  unfold commitBytes
  simp
@[simp] theorem commitBytes_cnt (s : State) (r : SnoopRec) : (commitBytes s r).cnt = s.cnt := by
  unfold commitBytes
  simp
@[simp] theorem commitBytes_events (s : State) (r : SnoopRec) : (commitBytes s r).events = s.events := by
  unfold commitBytes
  simp
@[simp] theorem commitBytes_ports (s : State) (r : SnoopRec) : (commitBytes s r).ports = s.ports := by
  unfold commitBytes
  simp
@[simp] theorem commitBytes_time (s : State) (r : SnoopRec) : (commitBytes s r).time = s.time := by
  unfold commitBytes
  simp
@[simp] theorem commitBytes_out (s : State) (r : SnoopRec) : (commitBytes s r).out = s.out := by
  unfold commitBytes
  simp
@[simp] theorem commitBytes_freeCtr (s : State) (r : SnoopRec) : (commitBytes s r).freeCtr = s.freeCtr := by
  unfold commitBytes
  simp
@[simp] theorem commitBytes_pending (s : State) (r : SnoopRec) : (commitBytes s r).pending = s.pending := by
  unfold commitBytes
  simp


/-! ### failRecovery -/

@[simp] theorem failRecovery_fuses (s : State) : (failRecovery s).fuses = s.fuses := by
  unfold failRecovery
  simp
@[simp] theorem failRecovery_ctrl (s : State) : (failRecovery s).ctrl = s.ctrl := by
  unfold failRecovery
  simp
@[simp] theorem failRecovery_fw (s : State) : (failRecovery s).fw = s.fw := by
  unfold failRecovery
  simp
@[simp] theorem failRecovery_job (s : State) : (failRecovery s).job = s.job := by
  unfold failRecovery
  simp
@[simp] theorem failRecovery_mem (s : State) : (failRecovery s).mem = s.mem := by
  unfold failRecovery
  simp
@[simp] theorem failRecovery_tier (s : State) : (failRecovery s).tier = s.tier := by
  unfold failRecovery
  simp
@[simp] theorem failRecovery_fold (s : State) : (failRecovery s).fold = s.fold := by
  unfold failRecovery
  simp
@[simp] theorem failRecovery_digests (s : State) : (failRecovery s).digests = s.digests := by
  unfold failRecovery
  simp
@[simp] theorem failRecovery_tide (s : State) : (failRecovery s).tide = s.tide := by
  unfold failRecovery
  simp
@[simp] theorem failRecovery_agree (s : State) : (failRecovery s).agree = s.agree := by
  unfold failRecovery
  simp
@[simp] theorem failRecovery_bcast (s : State) : (failRecovery s).bcast = s.bcast := by
  unfold failRecovery
  simp
@[simp] theorem failRecovery_twin (s : State) : (failRecovery s).twin = s.twin := by
  unfold failRecovery
  simp
@[simp] theorem failRecovery_apply (s : State) : (failRecovery s).apply = s.apply := by
  unfold failRecovery
  simp
@[simp] theorem failRecovery_exch (s : State) : (failRecovery s).exch = s.exch := by
  unfold failRecovery
  simp
@[simp] theorem failRecovery_beacon (s : State) : (failRecovery s).beacon = s.beacon := by
  unfold failRecovery
  simp
@[simp] theorem failRecovery_power (s : State) : (failRecovery s).power = s.power := by
  unfold failRecovery
  simp
@[simp] theorem failRecovery_bist (s : State) : (failRecovery s).bist = s.bist := by
  unfold failRecovery
  simp
@[simp] theorem failRecovery_lat (s : State) : (failRecovery s).lat = s.lat := by
  unfold failRecovery
  simp
@[simp] theorem failRecovery_log (s : State) : (failRecovery s).log = s.log := by
  unfold failRecovery
  simp
@[simp] theorem failRecovery_cnt (s : State) : (failRecovery s).cnt = s.cnt := by
  unfold failRecovery
  simp
@[simp] theorem failRecovery_ports (s : State) : (failRecovery s).ports = s.ports := by
  unfold failRecovery
  simp
@[simp] theorem failRecovery_time (s : State) : (failRecovery s).time = s.time := by
  unfold failRecovery
  simp
@[simp] theorem failRecovery_out (s : State) : (failRecovery s).out = s.out := by
  unfold failRecovery
  simp
@[simp] theorem failRecovery_freeCtr (s : State) : (failRecovery s).freeCtr = s.freeCtr := by
  unfold failRecovery
  simp
@[simp] theorem failRecovery_pending (s : State) : (failRecovery s).pending = s.pending := by
  unfold failRecovery
  simp


end Sys2Proof.Machine
end

