-- ==== Sys2Proof/Laws/Memory.lean ====
section
/-! SUPPORT. Memory: every operation keeps the canonical form, a read after a write gives what was written, and a write
leaves every other byte alone (R279). -/

namespace Sys2Proof.Machine

/-! ### Undefined ranges -/

/-- Whether some range of a list holds an address. -/
def covered (u : List (Nat × Nat × Nat)) (a : Nat) : Prop := ∃ r ∈ u, r.1 ≤ a ∧ a < r.2.1

theorem Mem.inUndef_iff (m : Mem) (a : Nat) : m.inUndef a = true ↔ covered m.undef a := by
  simp [Mem.inUndef, Mem.undefAt, covered]

theorem Mem.inUndef_false_iff (m : Mem) (a : Nat) : m.inUndef a = false ↔ ¬ covered m.undef a := by
  rw [← Mem.inUndef_iff]; simp

theorem covered_nil (a : Nat) : ¬ covered [] a := by simp [covered]

theorem covered_cons (r : Nat × Nat × Nat) (u : List (Nat × Nat × Nat)) (a : Nat) :
    covered (r :: u) a ↔ (r.1 ≤ a ∧ a < r.2.1) ∨ covered u a := by simp [covered]

theorem covered_append (u v : List (Nat × Nat × Nat)) (a : Nat) :
    covered (u ++ v) a ↔ covered u a ∨ covered v a := by
  simp only [covered, List.mem_append]
  constructor
  · rintro ⟨r, h | h, w⟩
    · exact .inl ⟨r, h, w⟩
    · exact .inr ⟨r, h, w⟩
  · rintro (⟨r, h, w⟩ | ⟨r, h, w⟩)
    · exact ⟨r, .inl h, w⟩
    · exact ⟨r, .inr h, w⟩

/-- Cutting `[lo, hi)` out of the ranges leaves exactly the other addresses. -/
theorem covered_cutRanges (lo hi a : Nat) (u : List (Nat × Nat × Nat)) :
    covered (cutRanges lo hi u) a ↔ covered u a ∧ (a < lo ∨ hi ≤ a) := by
  induction u with
  | nil => simp [cutRanges, covered]
  | cons r t ih =>
    obtain ⟨b, c, g⟩ := r
    simp only [cutRanges, covered_append, covered_cons, ih]
    have left : covered (if b < lo ∧ b < c then [(b, if c < lo then c else lo, g)] else []) a ↔
        b ≤ a ∧ a < c ∧ a < lo := by
      split
      · rw [covered_cons]; simp only [covered_nil, or_false]; split <;> omega
      · simp only [covered_nil, false_iff]; omega
    have right : covered (if hi < c ∧ b < c then [(if b < hi then hi else b, c, g)] else []) a ↔
        b ≤ a ∧ a < c ∧ hi ≤ a := by
      split
      · rw [covered_cons]; simp only [covered_nil, or_false]; split <;> omega
      · simp only [covered_nil, false_iff]; omega
    rw [left, right]
    constructor
    · rintro ((h | h) | h)
      · exact ⟨.inl ⟨h.1, h.2.1⟩, .inl h.2.2⟩
      · exact ⟨.inl ⟨h.1, h.2.1⟩, .inr h.2.2⟩
      · exact ⟨.inr h.1, h.2⟩
    · rintro ⟨h | h, w⟩
      · rcases w with w | w
        · exact .inl (.inl ⟨h.1, h.2, w⟩)
        · exact .inl (.inr ⟨h.1, h.2, w⟩)
      · exact .inr ⟨h, w⟩

theorem covered_cutAll (rs : List (Nat × Nat)) (u : List (Nat × Nat × Nat)) (a : Nat)
    (h : covered (rs.foldl (fun v r => cutRanges r.1 r.2 v) u) a) : covered u a := by
  induction rs generalizing u with
  | nil => exact h
  | cons r t ih => exact ((covered_cutRanges _ _ _ _).1 (ih _ h)).1

/-! ### The canonical form -/

/-- The canonical form as a proposition: rising addresses, and each listed byte nonzero outside undefined ranges. -/
theorem Mem.wf_iff (m : Mem) : m.wf = true ↔
    (m.cells.Pairwise fun c d => c.1 < d.1) ∧ ∀ c ∈ m.cells, c.2 ≠ 0 ∧ ¬ covered m.undef c.1 := by
  simp only [Mem.wf, Bool.and_eq_true, decide_eq_true_eq, List.all_eq_true, Bool.not_eq_true']
  simp only [Mem.inUndef_false_iff]

theorem cellsOf_mem (bs : List Byte) (a : Nat) :
    ∀ c ∈ cellsOf a bs, a ≤ c.1 ∧ c.1 < a + bs.length ∧ c.2 ≠ 0 := by
  induction bs generalizing a with
  | nil => simp [cellsOf]
  | cons b t ih =>
    intro c hc
    simp only [cellsOf] at hc
    split at hc
    · have := ih (a + 1) c hc
      simp only [List.length_cons]
      exact ⟨by omega, by omega, this.2.2⟩
    · rcases List.mem_cons.1 hc with rfl | hc
      · simp only [List.length_cons]; exact ⟨le_refl _, by omega, by assumption⟩
      · have := ih (a + 1) c hc
        simp only [List.length_cons]; exact ⟨by omega, by omega, this.2.2⟩

theorem cellsOf_rising (bs : List Byte) (a : Nat) : (cellsOf a bs).Pairwise fun c d => c.1 < d.1 := by
  induction bs generalizing a with
  | nil => simp [cellsOf]
  | cons b t ih =>
    simp only [cellsOf]
    split
    · exact ih _
    · refine List.pairwise_cons.2 ⟨fun c hc => ?_, ih _⟩
      have := cellsOf_mem t (a + 1) c hc
      show a < c.1
      omega

/-- Cells put between those below and those above keep the form. -/
theorem splice_wf (m : Mem) (h : m.wf = true) (a n : Nat) (mid : List Host.Cell) (u : List (Nat × Nat × Nat))
    (hp : mid.Pairwise fun c d => c.1 < d.1)
    (hm : ∀ c ∈ mid, (a ≤ c.1 ∧ c.1 < a + n) ∧ c.2 ≠ 0 ∧ ¬ covered u c.1)
    (hu : ∀ x, covered u x → covered m.undef x) :
    Mem.wf { cells := m.cells.filter (fun c => decide (c.1 < a)) ++ mid ++
               m.cells.filter (fun c => decide (a + n ≤ c.1)),
             undef := u, gen := m.gen } = true := by
  obtain ⟨hs, hc⟩ := (Mem.wf_iff m).1 h
  refine (Mem.wf_iff _).2 ⟨?_, ?_⟩
  · refine List.pairwise_append.2 ⟨List.pairwise_append.2 ⟨hs.filter _, hp, ?_⟩, hs.filter _, ?_⟩
    · intro c hc d hd
      have := (hm d hd).1
      simp only [List.mem_filter, decide_eq_true_eq] at hc
      omega
    · intro c hc d hd
      simp only [List.mem_filter, List.mem_append, decide_eq_true_eq] at hc hd
      rcases hc with hc | hc
      · omega
      · have := (hm c hc).1; omega
  · intro c hc'
    simp only [List.mem_append, List.mem_filter] at hc'
    rcases hc' with (hc' | hc') | hc'
    · exact ⟨(hc c hc'.1).1, fun w => (hc c hc'.1).2 (hu _ w)⟩
    · exact (hm c hc').2
    · exact ⟨(hc c hc'.1).1, fun w => (hc c hc'.1).2 (hu _ w)⟩

theorem Mem.write_wf (m : Mem) (a : Nat) (bs : List Byte) (h : m.wf = true) : (m.write a bs).wf = true := by
  refine splice_wf m h a bs.length (cellsOf a bs) _ (cellsOf_rising _ _) (fun c hc => ?_) (fun x hx => ?_)
  · have := cellsOf_mem bs a c hc
    refine ⟨⟨this.1, this.2.1⟩, this.2.2, fun w => ?_⟩
    have := ((covered_cutRanges _ _ _ _).1 w).2
    omega
  · exact ((covered_cutRanges _ _ _ _).1 hx).1

theorem Mem.writeLine_wf (m : Mem) (a : Nat) (l : Line) (h : m.wf = true) : (m.writeLine a l).wf = true :=
  m.write_wf a _ h

theorem Mem.zero_wf (m : Mem) (a n : Nat) (h : m.wf = true) : (m.zero a n).wf = true := by
  obtain ⟨hs, hc⟩ := (Mem.wf_iff m).1 h
  refine (Mem.wf_iff _).2 ⟨hs.filter _, fun c hc' => ?_⟩
  have hc' := (List.mem_filter.1 hc').1
  exact ⟨(hc c hc').1, fun w => (hc c hc').2 ((covered_cutRanges _ _ _ _).1 w).1⟩

theorem Mem.forget_wf (m : Mem) (rs : List (Nat × Nat)) (h : m.wf = true) : (m.forget rs).wf = true := by
  obtain ⟨hs, hc⟩ := (Mem.wf_iff m).1 h
  refine (Mem.wf_iff _).2 ⟨hs.filter _, fun c hc' => ?_⟩
  simp only [Mem.forget, List.mem_filter, Bool.not_eq_true', List.any_eq_false, Bool.and_eq_true,
    decide_eq_true_eq] at hc'
  refine ⟨(hc c hc'.1).1, fun w => ?_⟩
  rcases (covered_append _ _ _).1 w with w | ⟨r, hr, w⟩
  · exact (hc c hc'.1).2 (covered_cutAll _ _ _ w)
  · obtain ⟨q, hq, rfl⟩ := List.mem_map.1 hr
    exact hc'.2 q hq w

theorem Mem.copy_wf (m : Mem) (src dst n : Nat) (h : m.wf = true) : (m.copy src dst n).wf = true := by
  unfold Mem.copy
  split
  · exact m.write_wf _ _ h
  · rename_i hu
    have hz := m.zero_wf dst n h
    obtain ⟨hs, hc⟩ := (Mem.wf_iff m).1 h
    refine splice_wf (m.zero dst n) hz dst n _ _ ?_ (fun c hc' => ?_) (fun x hx => hx)
    · refine List.pairwise_map.2 (List.Pairwise.imp_of_mem ?_ (hs.filter _))
      intro c d hc hd hcd
      simp only [List.mem_filter, decide_eq_true_eq] at hc hd
      simp only; omega
    · obtain ⟨d, hd, rfl⟩ := List.mem_map.1 hc'
      simp only [List.mem_filter, decide_eq_true_eq] at hd
      refine ⟨by simp only; omega, (hc d hd.1).1, fun w => ?_⟩
      have := ((covered_cutRanges _ _ _ _).1 w).2
      simp only at this; omega

theorem Mem.reset_wf : Mem.reset.wf = true := by decide

/-! ### Reading what was written -/

theorem look_append_of_not_mem (l r : List Host.Cell) (a : Nat) (h : ∀ c ∈ l, c.1 ≠ a) :
    look (0 : Byte) a (l ++ r) = look 0 a r := by
  induction l with
  | nil => rfl
  | cons c t ih =>
    obtain ⟨x, b⟩ := c
    simp only [List.mem_cons, forall_eq_or_imp] at h
    simp only [List.cons_append, look, h.1, if_false]
    exact ih h.2

theorem look_append_right (l r : List Host.Cell) (a : Nat) (h : ∀ c ∈ r, c.1 ≠ a) :
    look (0 : Byte) a (l ++ r) = look 0 a l := by
  induction l with
  | nil =>
    induction r with
    | nil => rfl
    | cons c t ih =>
      obtain ⟨x, b⟩ := c
      simp only [List.mem_cons, forall_eq_or_imp] at h
      simp only [List.nil_append, look, h.1, if_false] at ih ⊢
      exact ih h.2
  | cons c t ih =>
    obtain ⟨x, b⟩ := c
    simp only [List.cons_append, look]
    split
    · rfl
    · exact ih

/-- Cells kept by a test on their address answer as before at an address the test keeps. -/
theorem look_filter (l : List Host.Cell) (p : Nat → Bool) (a : Nat) (h : p a = true) :
    look (0 : Byte) a (l.filter fun c => p c.1) = look 0 a l := by
  induction l with
  | nil => rfl
  | cons c t ih =>
    obtain ⟨x, b⟩ := c
    simp only [List.filter_cons]
    by_cases hx : x = a
    · subst hx
      simp only [h, if_true, look]
    · by_cases hp : p x = true
      · simp only [hp, if_true, look, hx, if_false]
        exact ih
      · simp only [hp, look, hx, if_false]
        exact ih

theorem undefAt_cut (m : Mem) (lo hi a : Nat) (c : List Host.Cell) (hlh : lo ≤ hi)
    (h : a < lo ∨ hi ≤ a) :
    Mem.undefAt { m with cells := c, undef := cutRanges lo hi m.undef } a = m.undefAt a := by
  obtain ⟨cs, u, g⟩ := m
  simp only [Mem.undefAt]
  induction u with
  | nil => simp [cutRanges]
  | cons r t ih =>
    obtain ⟨b, e, k⟩ := r
    simp only [cutRanges, List.append_assoc, List.find?_append]
    by_cases hr : b ≤ a ∧ a < e
    · have hit : (decide (b ≤ a) && decide (a < e)) = true := by simpa using hr
      rcases h with h | h
      · have h1 : b < lo ∧ b < e := by omega
        have h2 : (decide (b ≤ a) && decide (a < if e < lo then e else lo)) = true := by
          simp only [Bool.and_eq_true, decide_eq_true_eq]; split <;> omega
        simp only [h1, and_self, if_true, List.find?_cons, h2, hit, Option.some_or, Option.map_some]
      · have h1 : hi < e ∧ b < e := by omega
        have h2 : (decide ((if b < hi then hi else b) ≤ a) && decide (a < e)) = true := by
          simp only [Bool.and_eq_true, decide_eq_true_eq]; split <;> omega
        have h3 : (if b < lo ∧ b < e then [(b, if e < lo then e else lo, k)] else []).find?
            (fun r => decide (r.1 ≤ a) && decide (a < r.2.1)) = none := by
          split
          · have : (decide (b ≤ a) && decide (a < if e < lo then e else lo)) = false := by
              rw [Bool.and_eq_false_iff]; right; simp only [decide_eq_false_iff_not]; split <;> omega
            simp only [List.find?_cons, this, List.find?_nil]
          · rfl
        rw [h3]
        simp only [h1, and_self, if_true, List.find?_cons, h2, hit, Option.none_or, Option.some_or, Option.map_some]
    · have hl : ∀ k' : Nat, (if b < lo ∧ b < e then [(b, (if e < lo then e else lo), k')] else []).find?
          (fun r => decide (r.1 ≤ a) && decide (a < r.2.1)) = none := by
        intro k'
        split
        · have : ¬ (b ≤ a ∧ a < (if e < lo then e else lo)) := by split <;> omega
          simpa using this
        · rfl
      have hq : ∀ k' : Nat, (if hi < e ∧ b < e then [((if b < hi then hi else b), e, k')] else []).find?
          (fun r => decide (r.1 ≤ a) && decide (a < r.2.1)) = none := by
        intro k'
        split
        · have : ¬ ((if b < hi then hi else b) ≤ a ∧ a < e) := by split <;> omega
          simpa using this
        · rfl
      rw [hl, hq]
      simp only [Option.none_or]
      have : (decide (b ≤ a) && decide (a < e)) = false := by simpa using hr
      simp only [List.find?_cons, this]
      exact ih

/-- A write leaves every byte outside the block as it was. -/
theorem Mem.byte_write_other (m : Mem) (a : Nat) (bs : List Byte) (x : Nat) (h : x < a ∨ a + bs.length ≤ x) :
    (m.write a bs).byte x = m.byte x := by
  have hu : (m.write a bs).undefAt x = m.undefAt x := undefAt_cut m _ _ _ _ (Nat.le_add_right _ _) h
  simp only [Mem.byte, hu]
  cases m.undefAt x with
  | some g => rfl
  | none =>
    simp only [Mem.write]
    rcases h with h | h
    · rw [look_append_right, look_append_right]
      · exact look_filter m.cells (fun c => decide (c < a)) x (by simpa using h)
      · intro c hc
        have := cellsOf_mem bs a c hc; omega
      · intro c hc
        simp only [List.mem_filter, decide_eq_true_eq] at hc; omega
    · rw [List.append_assoc, look_append_of_not_mem, look_append_of_not_mem]
      · exact look_filter m.cells (fun c => decide (a + bs.length ≤ c)) x (by simpa using h)
      · intro c hc
        have := cellsOf_mem bs a c hc; omega
      · intro c hc
        simp only [List.mem_filter, decide_eq_true_eq] at hc; omega

theorem look_cellsOf (bs : List Byte) (a i : Nat) : look (0 : Byte) (a + i) (cellsOf a bs) = bs.getD i 0 := by
  induction bs generalizing a i with
  | nil => simp [cellsOf, look]
  | cons b t ih =>
    have later : ∀ j, look (0 : Byte) (a + (j + 1)) (cellsOf (a + 1) t) = t.getD j 0 := by
      intro j
      have := ih (a + 1) j
      rwa [show a + 1 + j = a + (j + 1) by omega] at this
    have head : look (0 : Byte) a (cellsOf (a + 1) t) = 0 := by
      rw [← List.append_nil (cellsOf (a + 1) t), look_append_of_not_mem]
      · rfl
      · intro c hc
        have := cellsOf_mem t (a + 1) c hc; omega
    simp only [cellsOf]
    split
    · rename_i hb
      cases i with
      | zero => simpa [hb] using head
      | succ j => simpa using later j
    · cases i with
      | zero => simp [look]
      | succ j => simpa [look] using later j

/-- A byte of the block reads as it was written. -/
theorem Mem.byte_write_same (m : Mem) (a : Nat) (bs : List Byte) (i : Nat) (h : i < bs.length) :
    (m.write a bs).byte (a + i) = bs.getD i 0 := by
  have hu : (m.write a bs).undefAt (a + i) = none := by
    cases hx : (m.write a bs).undefAt (a + i) with
    | none => rfl
    | some g =>
      have : covered (m.write a bs).undef (a + i) := by
        rw [← Mem.inUndef_iff, Mem.inUndef, hx]; rfl
      have := ((covered_cutRanges _ _ _ _).1 this).2
      omega
  simp only [Mem.byte, hu]
  simp only [Mem.write]
  rw [look_append_right, look_append_of_not_mem]
  · exact look_cellsOf bs a i
  · intro c hc
    simp only [List.mem_filter, decide_eq_true_eq] at hc; omega
  · intro c hc
    simp only [List.mem_filter, decide_eq_true_eq] at hc; omega

theorem lineBytes_length (l : Line) : (lineBytes l).length = 64 := rfl

end Sys2Proof.Machine
end

