-- ==== Sys2Proof/Laws/Shared.lean ====
section
/-! SUPPORT. What each shared operation does: events, the error log, responses, and the way of a mailbox command to its
meaning. -/

namespace Sys2Proof.Machine

/-! ### Boxes -/

theorem box_setBox_same (s : State) (m : Fin 8) (b : Mailbox) : box (setBox s m b) m = b := by
  show (s.mb.boxes.set m.val b m.isLt)[m.val] = b
  simp

theorem box_setBox_other (s : State) (m n : Fin 8) (b : Mailbox) (h : n ≠ m) : box (setBox s m b) n = box s n := by
  have e : m.val ≠ n.val := fun e => h (Fin.ext e.symm)
  show (s.mb.boxes.set m.val b m.isLt)[n.val] = s.mb.boxes[n.val]
  simp [e]

theorem box_of_mb_eq (s t : State) (m : Fin 8) (h : s.mb = t.mb) : box s m = box t m := by simp [box, h]

@[simp] theorem mbDoneEvent_box (s : State) (m n : Fin 8) : box (mbDoneEvent s m) n = box s n :=
  box_of_mb_eq _ _ _ (by simp)

/-! ### Events and the error log -/

/-- While MGP is present an event is handed over at once (R292). -/
theorem raiseEvent_present (s : State) (code arg : Byte) (h : s.ports.mgp = true) :
    raiseEvent s code arg = { s with events := { s.events with
      delivered := s.events.delivered ++ [{ code := code, arg := arg, count := 1, gtc := s.time.gtc }] } } := by
  simp [raiseEvent, h]

/-- While MGP is absent an event waits in the queue, as long as there is room (R292). -/
theorem raiseEvent_absent (s : State) (code arg : Byte) (h : s.ports.mgp = false) (q : s.events.queue.length < 32) :
    raiseEvent s code arg = { s with events := { s.events with
      queue := s.events.queue ++ [{ code := code, arg := arg, count := 1, gtc := s.time.gtc }] } } := by
  simp [raiseEvent, h, q]

theorem newestEntry_none (cls : Byte) (src : U16) (i : Nat) (es : List ErrEntry) (h : ∀ e ∈ es, e.cls ≠ cls) :
    newestEntry cls src i es = none := by
  induction es generalizing i with
  | nil => rfl
  | cons e t ih =>
    have h1 := h e (by simp)
    have h2 := ih (i + 1) (fun x hx => h x (by simp [hx]))
    simp [newestEntry, h1, h2]

/-- A report of a class that the log does not hold starts an entry, while the ring has room (R349, R372). -/
theorem logReport_fresh (s : State) (cls : Nat) (src : U16) (detail : Nat) (n : s.log.entries.length < 256)
    (h : ∀ e ∈ s.log.entries, e.cls ≠ BitVec.ofNat 8 cls) :
    (logReport s cls src detail).log.entries = s.log.entries ++
      [{ cls := BitVec.ofNat 8 cls, uncorr := classUncorr cls, source := src, count := 1, first := s.time.gtc,
         last := s.time.gtc, detail := BitVec.ofNat 64 detail }] := by
  have e := newestEntry_none (BitVec.ofNat 8 cls) src 0 _ h
  simp only [logReport, e, n, if_true]
  split
  · rw [raiseEvent_log]
  · rfl

/-- A class that is not uncorrectable raises no event. -/
theorem logReport_quiet (s : State) (cls : Nat) (src : U16) (detail : Nat) (h : classUncorr cls = false) :
    (logReport s cls src detail).events = s.events ∧ (logReport s cls src detail).stat = s.stat := by
  simp only [logReport, h]
  constructor <;> (split <;> split <;> first | rfl | (split <;> first | rfl | (split <;> rfl)))

/-! ### Responses -/

/-- A final response stands in its mailbox, and no other mailbox changes (R317, R319). -/
theorem respond_box_same (s : State) (m : Fin 8) (status detail : Nat) (rs : List (Nat × Nat × Nat))
    (h : fwRunning s = true) :
    box (respond s m status detail rs) m = answered (s.ctrl.compatA.get = 1) (box s m) status detail rs := by
  simp [respond, h, box_setBox_same]

theorem respond_box_other (s : State) (m n : Fin 8) (status detail : Nat) (rs : List (Nat × Nat × Nat)) (h : n ≠ m) :
    box (respond s m status detail rs) n = box s n := by
  unfold respond
  split
  · simp [box_setBox_other _ _ _ _ h]
  · rfl

theorem respond_waiting (s : State) (m : Fin 8) (status detail : Nat) (rs : List (Nat × Nat × Nat)) :
    (respond s m status detail rs).mb.waiting = s.mb.waiting ∧ (respond s m status detail rs).mb.peer = s.mb.peer := by
  unfold respond
  split <;> simp

/-- ACCEPTED keeps the command taken (R319). -/
theorem accepted_box_same (s : State) (m : Fin 8) :
    box (accepted s m) m = { box s m with
      rsp := responseLine (s.ctrl.compatA.get = 1) (box s m).op (box s m).tag stAccepted 0 [], code := 1, long := true,
      done := true, count := (box s m).count + 1 } := by
  simp [accepted, box_setBox_same]

theorem accepted_box_other (s : State) (m n : Fin 8) (h : n ≠ m) : box (accepted s m) n = box s n := by
  simp [accepted, box_setBox_other _ _ _ _ h]

theorem accepted_waiting (s : State) (m : Fin 8) :
    (accepted s m).mb.waiting = s.mb.waiting ∧ (accepted s m).mb.peer = s.mb.peer := by
  simp [accepted]

/-! ### The way of a mailbox command to its meaning -/

/-- A GO on a free mailbox takes the command and appends the mailbox to those that wait (R318, R320). -/
theorem takeCmd_free (m : Fin 8) (port : Port) (priv : Bool) (cmd : Line) (s : State) (e : CatEntry)
    (hc : catalogue (opcodeOf cmd) = some e) (h9 : opcodeOf cmd ≠ 9) (hb : (box s m).busy = false) :
    takeCmd m port priv cmd s = { s with mb := { s.mb with
      boxes := s.mb.boxes.set m.val (takeBox (box s m) cmd port priv) m.isLt
      waiting := s.mb.waiting ++ [m] } } := by
  simp only [takeCmd, hb, hc, h9, if_false, Bool.false_eq_true]
  rfl

/-- A GO on a busy mailbox sets OVERRUN and changes nothing else (R318). -/
theorem takeCmd_busy (m : Fin 8) (port : Port) (priv : Bool) (cmd : Line) (s : State) (hb : (box s m).busy = true) :
    takeCmd m port priv cmd s = setBox s m { box s m with overrun := true } := by
  simp [takeCmd, hb]

/-- A taken command that firmware handles at once runs the checks of `handle` (R320). -/
theorem mailboxState_issue (op : Nat) (work : Fin 8 → TakenCmd → State → State) (m : Fin 8) (priv : Bool) (cmd : Line)
    (s u : State) (hop : opcodeOf cmd = op) (hs : submits s (boundPort m) = true) (hw : mailboxesOpen s = true)
    (hb : (box s m).busy = false) (hu : takeCmd m (boundPort m) priv cmd s = u) (hf : fwRunning u = true)
    (ht : (box u m).taken = some { cmd := cmd, port := boundPort m, priv := priv }) (hl : (box u m).long = false)
    (hn : op = 9 ∨ nextToHandle u = some m) :
    mailboxState op work (.issue m (boundPort m) priv cmd) s =
      handle op work m { cmd := cmd, port := boundPort m, priv := priv }
        { u with mb := { u.mb with waiting := u.mb.waiting.filter fun k => k ≠ m } } := by
  simp [mailboxState, hop, hs, hw, hb, hu, handleTaken, ht, hf, hl, hn]

/-- Past every check of firmware's, the command's own meaning runs. -/
theorem handle_work (op : Nat) (work : Fin 8 → TakenCmd → State → State) (m : Fin 8) (t : TakenCmd) (s : State)
    (e : CatEntry) (hc : catalogue op = some e) (ha : classAllowed m t.priv e.cls = true) (hb : badByte e t.cmd = none)
    (hr : s.bist.run = none) (hj : stateAccepts s.job.state.toNat op e.cls = true) (hs : s.power.season.get ≠ 1)
    (hu : usesProfile e t.cmd = false) : handle op work m t s = work m t s := by
  simp [handle, hc, ha, hb, hr, hj, hu]
  exact fun h => absurd h hs

/-- A command of a class that its mailbox may not use (R322). -/
theorem handle_notPermitted (op : Nat) (work : Fin 8 → TakenCmd → State → State) (m : Fin 8) (t : TakenCmd) (s : State)
    (e : CatEntry) (hc : catalogue op = some e) (ha : classAllowed m t.priv e.cls = false) :
    handle op work m t s = respond s m stNotPermitted (bindCode m) [] := by
  simp [handle, hc, ha]

/-- A nonzero reserved byte (R9, R316). -/
theorem handle_reserved (op : Nat) (work : Fin 8 → TakenCmd → State → State) (m : Fin 8) (t : TakenCmd) (s : State)
    (e : CatEntry) (i : Nat) (hc : catalogue op = some e) (ha : classAllowed m t.priv e.cls = true)
    (hb : badByte e t.cmd = some i) : handle op work m t s = badArg s m i := by
  simp [handle, hc, ha, hb]

/-! ### Steps -/

theorem step_front (s : State) (c : Instr) (rest : List Instr) (h : s.pending = c :: rest) (t : State)
    (e : step s = .next t) : exec c { s with pending := rest } = .next t := by
  rw [step, h] at e
  exact e

end Sys2Proof.Machine
end

