-- ==== Sys2Proof/Laws/MemoryForm.lean ====
section
/-! SUPPORT. The shared operations that write memory keep its canonical form. -/

namespace Sys2Proof.Machine

/-- What each pass of a loop keeps, the loop keeps. -/
theorem forEach_keeps {α : Type} (P : State → Prop) (l : List α) (f : State → α → State) (s : State)
    (hf : ∀ t x, P t → P (f t x)) (h : P s) : P (forEach l f s) := by
  induction l generalizing s with
  | nil => exact h
  | cons x t ih => exact ih _ (hf _ _ h)

theorem foldl_keeps {α β : Type} (P : β → Prop) (l : List α) (f : β → α → β) (b : β) (hf : ∀ t x, P t → P (f t x))
    (h : P b) : P (l.foldl f b) := by
  induction l generalizing b with
  | nil => exact h
  | cons x t ih => exact ih _ (hf _ _ h)

theorem commitLine_wf (s : State) (a : Nat) (new : Line) (ms : List Master) (h : s.mem.wf = true) :
    (commitLine s a new ms).mem.wf = true := by
  have h : (markRace s a ms).mem.wf = true := by simpa using h
  unfold commitLine
  dsimp only
  split
  · exact foldl_keeps (fun mm : Mem => mm.wf = true) _ _ _ (fun mm c hm => mm.writeLine_wf c new hm)
      (Mem.writeLine_wf _ a new h)
  · exact Mem.writeLine_wf _ a new h

theorem commitBytes_wf (s : State) (r : SnoopRec) (h : s.mem.wf = true) : (commitBytes s r).mem.wf = true := by
  unfold commitBytes
  exact commitLine_wf s _ _ _ h

end Sys2Proof.Machine
end

