-- ==== Sys2Proof/Laws/PerInstr.lean ====
section
/-! SUPPORT. The store that carries a well-formed message is at most 288 B long (R286): one lemma per command. -/

namespace Sys2Proof.Laws.StoreLength

/-- A well-formed command arrives in a store of at most 288 B. -/
def Statement (i : Instr) : Prop := i.wf = true → Machine.storeLength i ≤ 288

/-- A header of at most 32 B and a body of at most 256 B, padded. -/
theorem stored_le (h n : Nat) (hh : h ≤ 32) (hn : n ≤ 256) : Machine.stored (h + n) ≤ 288 := by
  unfold Machine.stored Machine.roundUp
  omega

/-- A well-formed fold-store's records take at most 256 B. -/
theorem payload_le (p : FoldStore) (w : p.wf = true) : (p.recs.map fun r => 2 + r.thin.length).sum ≤ 256 := by
  simp only [FoldStore.wf, Bool.and_eq_true, decide_eq_true_eq] at w
  exact w.1.2

theorem fwInfo (src : _) : Statement (.fwInfo src) := fun _ => Nat.zero_le _
theorem statusGet (src : _) : Statement (.statusGet src) := fun _ => Nat.zero_le _
theorem logRead (src : _) : Statement (.logRead src) := fun _ => Nat.zero_le _
theorem partSet (src : _) : Statement (.partSet src) := fun _ => Nat.zero_le _
theorem planLoad (src : _) (plan : _) : Statement (.planLoad src plan) := fun _ => Nat.zero_le _
theorem regionDeclare (src : _) : Statement (.regionDeclare src) := fun _ => Nat.zero_le _
theorem coveForm (src : _) : Statement (.coveForm src) := fun _ => Nat.zero_le _
theorem tideOpen (src : _) : Statement (.tideOpen src) := fun _ => Nat.zero_le _
theorem tideSeal (src : _) : Statement (.tideSeal src) := fun _ => Nat.zero_le _
theorem tidePolicy (src : _) : Statement (.tidePolicy src) := fun _ => Nat.zero_le _
theorem recipeLoad (src : _) : Statement (.recipeLoad src) := fun _ => Nat.zero_le _
theorem applyRun (src : _) : Statement (.applyRun src) := fun _ => Nat.zero_le _
theorem exchReduce (src : _) : Statement (.exchReduce src) := fun _ => Nat.zero_le _
theorem exchCompress (src : _) : Statement (.exchCompress src) := fun _ => Nat.zero_le _
theorem tierQuotaSet (src : _) : Statement (.tierQuotaSet src) := fun _ => Nat.zero_le _
theorem prefetchPlan (src : _) : Statement (.prefetchPlan src) := fun _ => Nat.zero_le _
theorem drainStart (src : _) : Statement (.drainStart src) := fun _ => Nat.zero_le _
theorem rebuildStart (src : _) : Statement (.rebuildStart src) := fun _ => Nat.zero_le _
theorem reshardStart (src : _) (plan : _) : Statement (.reshardStart src plan) := fun _ => Nat.zero_le _
theorem twinPair (src : _) : Statement (.twinPair src) := fun _ => Nat.zero_le _
theorem powerSet (src : _) : Statement (.powerSet src) := fun _ => Nat.zero_le _
theorem bistRun (src : _) : Statement (.bistRun src) := fun _ => Nat.zero_le _
theorem abort (src : _) : Statement (.abort src) := fun _ => Nat.zero_le _
theorem unitFence (src : _) : Statement (.unitFence src) := fun _ => Nat.zero_le _
theorem latticeRemap (src : _) : Statement (.latticeRemap src) := fun _ => Nat.zero_le _
theorem codingSuspend (src : _) : Statement (.codingSuspend src) := fun _ => Nat.zero_le _
theorem codingResume (src : _) : Statement (.codingResume src) := fun _ => Nat.zero_le _
theorem coveRelease (src : _) : Statement (.coveRelease src) := fun _ => Nat.zero_le _
theorem peerClaim (src : _) : Statement (.peerClaim src) := fun _ => Nat.zero_le _
theorem peerRankMove (src : _) : Statement (.peerRankMove src) := fun _ => Nat.zero_le _
theorem peerPlan (src : _) (plan : _) : Statement (.peerPlan src plan) := fun _ => Nat.zero_le _
theorem mbAck (mb : _) (port : _) (priv : _) : Statement (.mbAck mb port priv) := fun _ => Nat.zero_le _
theorem capEn (port : _) (priv : _) (on : _) : Statement (.capEn port priv on) := fun _ => Nat.zero_le _
theorem foldEn (port : _) (priv : _) (on : _) : Statement (.foldEn port priv on) := fun _ => Nat.zero_le _
theorem applyEn (port : _) (priv : _) (on : _) : Statement (.applyEn port priv on) := fun _ => Nat.zero_le _
theorem exchEn (port : _) (priv : _) (on : _) : Statement (.exchEn port priv on) := fun _ => Nat.zero_le _
theorem compatA (port : _) (priv : _) (on : _) : Statement (.compatA port priv on) := fun _ => Nat.zero_le _
theorem rstCtrlCore (port : _) : Statement (.rstCtrlCore port) := fun _ => Nat.zero_le _
theorem rstCtrlSys (port : _) : Statement (.rstCtrlSys port) := fun _ => Nat.zero_le _
theorem rstCtrlUnit (port : _) (units : _) : Statement (.rstCtrlUnit port units) := fun _ => Nat.zero_le _
theorem errRel (port : _) (priv : _) (n : _) : Statement (.errRel port priv n) := fun _ => Nat.zero_le _
theorem errSel (port : _) (index : _) : Statement (.errSel port index) := fun _ => Nat.zero_le _
theorem clearOvf (port : _) (priv : _) : Statement (.clearOvf port priv) := fun _ => Nat.zero_le _
theorem cntClear (port : _) (priv : _) : Statement (.cntClear port priv) := fun _ => Nat.zero_le _
theorem applyMapWrite (port : _) (priv : _) (value : _) : Statement (.applyMapWrite port priv value) := fun _ => Nat.zero_le _
theorem timeLoRead (port : _) : Statement (.timeLoRead port) := fun _ => Nat.zero_le _
theorem registerWrite (port : _) (priv : _) (offset : _) (value : _) : Statement (.registerWrite port priv offset value) := fun _ => Nat.zero_le _
theorem snoopWrite (r : _) : Statement (.snoopWrite r) := fun _ => Nat.zero_le _
theorem snoopAtomicResult (r : _) : Statement (.snoopAtomicResult r) := fun _ => Nat.zero_le _
theorem snoopRead (tag : _) (line : _) (master : _) : Statement (.snoopRead tag line master) := fun _ => Nat.zero_le _
theorem snoopObserve (r : _) : Statement (.snoopObserve r) := fun _ => Nat.zero_le _
theorem oldLineReadReturn (line : _) : Statement (.oldLineReadReturn line) := fun _ => Nat.zero_le _
theorem captureLine : Statement (.captureLine) := fun _ => Nat.zero_le _
theorem codeRecord : Statement (.codeRecord) := fun _ => Nat.zero_le _
theorem foldStoreSend (dir : _) : Statement (.foldStoreSend dir) := fun _ => Nat.zero_le _
theorem foldStore (p : _) : Statement (.foldStore p) := fun w =>
  stored_le _ _ (by decide) (payload_le p w)
theorem foldRecord : Statement (.foldRecord) := fun _ => Nat.zero_le _
theorem paritySlotCopy (lines : _) : Statement (.paritySlotCopy lines) := fun _ => Nat.zero_le _
theorem filterSetAck : Statement (.filterSetAck) := fun _ => Nat.zero_le _
theorem captureDrainDone : Statement (.captureDrainDone) := fun _ => Nat.zero_le _
theorem foldDisableDone : Statement (.foldDisableDone) := fun _ => Nat.zero_le _
theorem closeMarkerSend (dest : _) : Statement (.closeMarkerSend dest) := fun _ => Nat.zero_le _
theorem closeMarker (m : _) : Statement (.closeMarker m) := fun _ => Nat.le_of_ble_eq_true rfl
theorem sealReady : Statement (.sealReady) := fun _ => Nat.zero_le _
theorem markPart (m : _) : Statement (.markPart m) := fun w =>
  stored_le _ _ (by decide) (of_decide_eq_true w)
theorem ready (m : _) : Statement (.ready m) := fun w =>
  stored_le _ _ (by decide) (of_decide_eq_true w)
theorem report (m : _) : Statement (.report m) := fun w =>
  stored_le _ _ (by decide) (of_decide_eq_true w)
theorem commit (m : _) : Statement (.commit m) := fun w =>
  stored_le _ _ (by decide) (of_decide_eq_true w)
theorem flipped (m : _) : Statement (.flipped m) := fun w =>
  stored_le _ _ (by decide) (of_decide_eq_true w)
theorem release (m : _) : Statement (.release m) := fun w =>
  stored_le _ _ (by decide) (of_decide_eq_true w)
theorem abandon (m : _) : Statement (.abandon m) := fun w =>
  stored_le _ _ (by decide) (of_decide_eq_true w)
theorem query (m : _) : Statement (.query m) := fun w =>
  stored_le _ _ (by decide) (of_decide_eq_true w)
theorem switch (m : _) : Statement (.switch m) := fun w =>
  stored_le _ _ (by decide) (of_decide_eq_true w)
theorem sealResend : Statement (.sealResend) := fun _ => Nat.zero_le _
theorem decisionResend : Statement (.decisionResend) := fun _ => Nat.zero_le _
theorem heartbeatInstant : Statement (.heartbeatInstant) := fun _ => Nat.zero_le _
theorem beat (port : _) (b : _) : Statement (.beat port b) := fun _ => Nat.le_of_ble_eq_true rfl
theorem suspicionTimeout (port : _) : Statement (.suspicionTimeout port) := fun _ => Nat.zero_le _
theorem probeReceive (offset : _) : Statement (.probeReceive offset) := fun _ => Nat.zero_le _
theorem probeResult (rank : _) (ans : _) : Statement (.probeResult rank ans) := fun _ => Nat.zero_le _
theorem watchProbe (port : _) : Statement (.watchProbe port) := fun _ => Nat.zero_le _
theorem suspect (m : _) : Statement (.suspect m) := fun w =>
  stored_le _ _ (by decide) (of_decide_eq_true w)
theorem proposeTimer : Statement (.proposeTimer) := fun _ => Nat.zero_le _
theorem proposeWait : Statement (.proposeWait) := fun _ => Nat.zero_le _
theorem retryWait : Statement (.retryWait) := fun _ => Nat.zero_le _
theorem prepare (m : _) : Statement (.prepare m) := fun w =>
  stored_le _ _ (by decide) (of_decide_eq_true w)
theorem promise (m : _) : Statement (.promise m) := fun w =>
  stored_le _ _ (by decide) (of_decide_eq_true w)
theorem accept (m : _) : Statement (.accept m) := fun w =>
  stored_le _ _ (by decide) (of_decide_eq_true w)
theorem accepted (m : _) : Statement (.accepted m) := fun w =>
  stored_le _ _ (by decide) (of_decide_eq_true w)
theorem nack (m : _) : Statement (.nack m) := fun w =>
  stored_le _ _ (by decide) (of_decide_eq_true w)
theorem install (m : _) : Statement (.install m) := fun w =>
  stored_le _ _ (by decide) (of_decide_eq_true w)
theorem installed (m : _) : Statement (.installed m) := fun w =>
  stored_le _ _ (by decide) (of_decide_eq_true w)
theorem noQuorum : Statement (.noQuorum) := fun _ => Nat.zero_le _
theorem collAbort (m : _) : Statement (.collAbort m) := fun w =>
  stored_le _ _ (by decide) (of_decide_eq_true w)
theorem collStopped (group : _) : Statement (.collStopped group) := fun _ => Nat.zero_le _
theorem renewalPropose : Statement (.renewalPropose) := fun _ => Nat.zero_le _
theorem planPart (m : _) : Statement (.planPart m) := fun w =>
  stored_le _ _ (by decide) (of_decide_eq_true w)
theorem planNeed (m : _) : Statement (.planNeed m) := fun w =>
  stored_le _ _ (by decide) (of_decide_eq_true w)
theorem planAck (m : _) : Statement (.planAck m) := fun w =>
  stored_le _ _ (by decide) (of_decide_eq_true w)
theorem planSilence : Statement (.planSilence) := fun _ => Nat.zero_le _
theorem planChildProbe (child : _) : Statement (.planChildProbe child) := fun _ => Nat.zero_le _
theorem planDiscard : Statement (.planDiscard) := fun _ => Nat.zero_le _
theorem claim (m : _) (fromRank : _) : Statement (.claim m fromRank) := fun w =>
  stored_le _ _ (by decide) (of_decide_eq_true w)
theorem claimAck (m : _) (fromRank : _) : Statement (.claimAck m fromRank) := fun w =>
  stored_le _ _ (by decide) (of_decide_eq_true w)
theorem rankMove (m : _) : Statement (.rankMove m) := fun w =>
  stored_le _ _ (by decide) (of_decide_eq_true w)
theorem rollbackDone : Statement (.rollbackDone) := fun _ => Nat.zero_le _
theorem ringGroupStart (g : _) : Statement (.ringGroupStart g) := fun _ => Nat.zero_le _
theorem part (m : _) : Statement (.part m) := fun w =>
  stored_le _ _ (by decide) (of_decide_eq_true w)
theorem ringRestart (g : _) : Statement (.ringRestart g) := fun _ => Nat.zero_le _
theorem pieceReq (m : _) : Statement (.pieceReq m) := fun w =>
  stored_le _ _ (by decide) (of_decide_eq_true w)
theorem piece (m : _) : Statement (.piece m) := fun w =>
  stored_le _ _ (by decide) (of_decide_eq_true w)
theorem pieceReqRetry (line : _) : Statement (.pieceReqRetry line) := fun _ => Nat.zero_le _
theorem tmark (m : _) : Statement (.tmark m) := fun w =>
  stored_le _ _ (by decide) (of_decide_eq_true w)
theorem tmarkReq (m : _) : Statement (.tmarkReq m) := fun w =>
  stored_le _ _ (by decide) (of_decide_eq_true w)
theorem mirror (m : _) : Statement (.mirror m) := fun w =>
  stored_le _ _ (by decide) (of_decide_eq_true w)
theorem handoverCopyDone : Statement (.handoverCopyDone) := fun _ => Nat.zero_le _
theorem move (m : _) : Statement (.move m) := fun w =>
  stored_le _ _ (by decide) (of_decide_eq_true w)
theorem twinSum (m : _) : Statement (.twinSum m) := fun w =>
  stored_le _ _ (by decide) (of_decide_eq_true w)
theorem twinBays (m : _) : Statement (.twinBays m) := fun w =>
  stored_le _ _ (by decide) (of_decide_eq_true w)
theorem twinRange (m : _) : Statement (.twinRange m) := fun w =>
  stored_le _ _ (by decide) (of_decide_eq_true w)
theorem lkpStoreDiscard (offset : _) (vc : _) (bytes : _) : Statement (.lkpStoreDiscard offset vc bytes) := fun _ => Nat.zero_le _
theorem exp (r : _) : Statement (.exp r) := fun _ => Nat.zero_le _
theorem grant (r : _) : Statement (.grant r) := fun _ => Nat.zero_le _
theorem data (r : _) : Statement (.data r) := fun _ => Nat.zero_le _
theorem cancel (r : _) : Statement (.cancel r) := fun _ => Nat.zero_le _
theorem exchReduceComplete (group : _) (seq : _) : Statement (.exchReduceComplete group seq) := fun _ => Nat.zero_le _
theorem exchCompressComplete : Statement (.exchCompressComplete) := fun _ => Nat.zero_le _
theorem applyTileDone (cluster : _) : Statement (.applyTileDone cluster) := fun _ => Nat.zero_le _
theorem applyRunComplete : Statement (.applyRunComplete) := fun _ => Nat.zero_le _
theorem coveFormComplete : Statement (.coveFormComplete) := fun _ => Nat.zero_le _
theorem codingResumeComplete : Statement (.codingResumeComplete) := fun _ => Nat.zero_le _
theorem prefetchEntryComplete (entry : _) : Statement (.prefetchEntryComplete entry) := fun _ => Nat.zero_le _
theorem beaconSample (events : _) (temp : _) (supply : _) (power : _) : Statement (.beaconSample events temp supply power) := fun _ => Nat.zero_le _
theorem wake : Statement (.wake) := fun _ => Nat.zero_le _
theorem springStepDone : Statement (.springStepDone) := fun _ => Nat.zero_le _
theorem seasonReached : Statement (.seasonReached) := fun _ => Nat.zero_le _
theorem fwImageTransaction (offset : _) (bytes : _) : Statement (.fwImageTransaction offset bytes) := fun _ => Nat.zero_le _
theorem bootCheckDone : Statement (.bootCheckDone) := fun _ => Nat.zero_le _
theorem firmwareReady : Statement (.firmwareReady) := fun _ => Nat.zero_le _
theorem powerOn : Statement (.powerOn) := fun _ => Nat.zero_le _
theorem sysSupply : Statement (.sysSupply) := fun _ => Nat.zero_le _
theorem sysThermal : Statement (.sysThermal) := fun _ => Nat.zero_le _
theorem resetInitDone : Statement (.resetInitDone) := fun _ => Nat.zero_le _
theorem watchdogExpiry : Statement (.watchdogExpiry) := fun _ => Nat.zero_le _
theorem coreResetStopTimeout : Statement (.coreResetStopTimeout) := fun _ => Nat.zero_le _
theorem gtcFault (kind : _) : Statement (.gtcFault kind) := fun _ => Nat.zero_le _
theorem gtcRelock (value : _) : Statement (.gtcRelock value) := fun _ => Nat.zero_le _
theorem patrolScrub (mac : _) (tile : _) (upset : _) (live : _) : Statement (.patrolScrub mac tile upset live) := fun _ => Nat.zero_le _
theorem fenceTestDone (signature : _) : Statement (.fenceTestDone signature) := fun _ => Nat.zero_le _
theorem bistUnitDone (signature : _) : Statement (.bistUnitDone signature) := fun _ => Nat.zero_le _
theorem referenceEdge (edges : _) (value : _) (rate : _) : Statement (.referenceEdge edges value rate) := fun _ => Nat.zero_le _
theorem powerRemoval : Statement (.powerRemoval) := fun _ => Nat.zero_le _
theorem poisonedReadData (unit : _) (addr : _) : Statement (.poisonedReadData unit addr) := fun _ => Nat.zero_le _
theorem wrapperInstructionUpdate (code : _) : Statement (.wrapperInstructionUpdate code) := fun _ => Nat.zero_le _
theorem hyLatticeAccess (w : _) : Statement (.hyLatticeAccess w) := fun _ => Nat.zero_le _
theorem prefetchPlanComplete : Statement (.prefetchPlanComplete) := fun _ => Nat.zero_le _
theorem planLoadLocalDone : Statement (.planLoadLocalDone) := fun _ => Nat.zero_le _
theorem digestRecomputeDone : Statement (.digestRecomputeDone) := fun _ => Nat.zero_le _
theorem twinPeerLost : Statement (.twinPeerLost) := fun _ => Nat.zero_le _

end Sys2Proof.Laws.StoreLength
end

