-- ==== Sys2Proof/Tests/Slice0.lean ====
section
/-! SUPPORT. The author's own checks: an ill-formed term for each check of WellFormed, the worked examples of the
specification, one-step tests on small states, and for every statement states and operands that meet the hypotheses of
each of its clauses. -/

open Sys2Proof Sys2Proof.Machine

namespace Sys2Proof.Tests

set_option Elab.async false

/-! ### Sample states and operands -/

/-- A running instance: firmware up, every port present. -/
def up : State :=
  { State.reset with
    stat.fwState := V3.all 2
    rst.phase := .running
    time.gtc := 1000000
    ports := { PortS.reset with msp := true, fbp := true, lkp := true, mgp := true } }
def err1 : ErrEntry := { cls := 3, uncorr := true, source := 7, count := 2, first := 5, last := 9, detail := 0x1234 }
def winter (s : State) : State := { s with power.season := V3.all 2 }
def part0 : Partition := { id := 7, jobTag := 0x51, lo := (0,0,0), hi := (1,0,0), own := (0,0,0), die := 0 }
/-- A mailbox command: opcode, tag 7, then parameters. -/
def c8 (op : Nat) (fs : List (Nat × Nat × Nat)) : Line := mkLine ((0, 1, op) :: (2, 2, 7) :: fs)
def cove1 : CovePlan := { coveId := 1, layout := .c8, rows := 2, share := 4, members := [0, 1, 2, 3, 4, 5, 6, 7] }
def cove2 : CovePlan := { coveId := 2, layout := .c8, rows := 1, share := 4, members := [64, 65, 66, 67, 68, 69, 70, 71] }
def quotas0 : Quotas :=
  { dataNear := 2, dataFar := 2, parityBase := 16, parity := 4, stashNearBase := 24, stashNear := 4,
    stashFarBase := 1048576, stashFar := 4, stageBase := 32, stage := 4, offload := 2 }
/-- Two coves of eight; the instance is rank 0, position 0 of cove 1. -/
def plan0 : Plan :=
  { coves := [cove1, cove2], bayKeys := [0x1234567, 0x89], seed := 5, groups := [⟨9, [0, 1, 2]⟩], standbys := [16, 17],
    profiles := [], quotas := [], policy := Policy.default, nearRange := ⟨0, 67108864⟩, farRange := ⟨1099511627776, 67108864⟩,
    moves := [], moveKey := 3, ranges := [] }
def region0 : Region :=
  { id := 1, protected_ := true, placement := 0, cove := 1, bays := 1, firstBay := 0, nearBase := 0, farBase := 0,
    nearBays := 1 }
/-- A planned instance, with one protected region declared. -/
def planned : State :=
  { up with
    job := { up.job with state := 2, part := some part0, plan := some plan0 }
    tier := { up.tier with regions := [region0], quotas := quotas0 } }
/-- A member of a formed cove, position 0, its flood open. -/
def member : State :=
  { planned with
    job := { planned.job with state := 3 }
    agree := { planned.agree with
      state := 1, live := V3.all 0xFF, epoch := V3.all 1, cove := some 1, posRank := [0, 1, 2, 3, 4, 5, 6, 7] }
    tide := { planned.tide with phase := V3.all 1, n := V3.all 8, tideLo := V3.all 5 } }
def withData0 (s : State) : State := { s with mem := s.mem.write 64 [1, 2, 3] }
/-- The member with its filter set: capture takes writes to its protected region. -/
def capS : State := { withData0 member with cap.filter := filterEntries member false }
def sFoldOff : State := { up with ctrl.foldEn := V3.all 0, stat.foldState := 1, stat.foldAgain := false }
def sIdleOff : State := { up with ctrl.foldEn := V3.all 0, ctrl.exchEn := V3.all 0 }
def sActive : State := { up with job.state := 3 , tide.phase := V3.all 1}
def sApplyOff : State := { up with apply.state := 3, ctrl.applyEn := V3.all 0 }
def sFwOff : State := { up with stat.fwState := V3.all 3 }
def sSnap : State := { up with time.snap := [(0x7004, 77)], time.latchFbp := some 5 , stat.cfgIgnored := true, stat.evtOvf := 0xFF, rst.por := true, rst.coreWdog := true}
def partd : State := { up with job.state := 1 }
def busyBox (m : Mailbox) : Mailbox := { m with busy := true, long := true, op := 0x0E, tag := 7 }
def comp0 : Compress := { mailbox := 0, mode := 0, valueFormat := 0, k := 1, elements := 256, block := 0, grad := 0, resid := 0, out := 0, stop := .none, aborts := [], nonfinite := 0, saturated := 0, bytesOut := 0, startGtc := 0 }
def comp : State := { setBox (setBox member 1 (busyBox (box member 1))) 6 { busyBox (box member 6) with op := 0x10 } with exch.compress := some comp0 }
def comp2 : State := { setBox (setBox member 1 { busyBox (box member 1) with op := 0x10}) 6 { (box member 6) with tag := 7 } with exch.compress := some comp0 }
def logged : State := { member with log := { member.log with entries := [err1, { err1 with cls := 4 }], oldest := 254 }, tide.stepRecord := some (3, List.replicate 4224 7) }
def plannedB : State := { planned with job.plan := none, job.state := 2 }
def cmds0 : List Line := [c8 1 [], c8 0x81 [], c8 0x82 [(8,1,0)], c8 0x82 [(8,1,1),(16,8,0x2000000)], c8 0x82 [(8,1,3)], c8 0x82 [(8,1,2)],c8 3 [(8,2,254),(10,2,2),(16,8,0x2000000)], c8 3 [(8,2,254),(10,2,256),(16,8,0x2000000)], c8 3 [(8,2,256)], c8 3 [(8,2,4),(10,2,257)],
  c8 0x84 [(8,2,7),(12,4,0x51),(24,2,1)], c8 0x84 [(8,2,7),(12,4,0x51),(24,2,1),(38,1,1)], c8 0x84 [(8,2,7),(16,2,1)], c8 0x84 [(8,2,7),(32,2,1)], c8 0x97 [(8,1,9)], c8 0x97 [(8,1,0)], c8 0x97 [(8,1,1),(10,2,7)], c8 0x97 [(8,1,1),(10,2,8)], c8 0x97 [(8,1,6),(10,2,7)], c8 0x97 [(8,1,6)], c8 0x97 [(8,1,1),(10,2,0)],c8 0x97 [(8,1,3),(10,2,0)]]
def withData (s : State) : State := { s with mem := s.mem.write 64 [1,2,3] }
def formS : State := withData planned
def smallPar : State := { planned with tier.quotas := { quotas0 with parity := 1 } }
def forming1 : State := { formS with tide.forming := some (some 0) , agree := member.agree}
def mk0 (p : Nat) : Marker := { cove := 1, origin := BitVec.ofNat 8 p, sender := BitVec.ofNat 8 p, dest := 0, view := 1, tide := 0, directPackets := 0, directRecords := 0, forwardedRecords := 0 }
def formDone : State := { forming1 with tide.closeSent := [1,2,3,4,5,6,7], tide.markers := (List.range 8).map mk0, tide.ownRecord := List.replicate (recordSize 2) 0, tide.parts := [1,2,3,4,5,6,7].map fun p => (p, List.replicate (recordSize 2) 0) }
def sealing : State := { member with tide.phase := V3.all 2 }
def longBox : State := setBox member 2 { box member 2 with long := true }
def formed0 : State := { member with tide.phase := V3.all 0, tide.tideLo := V3.all 0 }
def resumable : State := { member with tide.phase := V3.all 5, recov.state := V3.all 5 }
def drain1 : State := { member with stat.drainMb := some 3, stat.capState := 1 }
def drain2 : State := { member with stat.capState := 2 }
def susp : State := withData { member with tide.phase := V3.all 6 }
def run0 : ApplyRun := { mailbox := 3, recipe := { id := 1, length := 0, slots := [], scalars := [], streams := [], layers := [] }, step := 0, reduceBase := 0, scalars := [], layer := 0, tile := 0, endLayer := 1, running := Vector.replicate 4 none, stop := .none, aborts := [], faultIndex := 0, startGtc := 0, lastGtc := none, laneOps := 0, nonfinite := 0, races := 0 }
def applying : State := { member with apply.run := some run0 }
def notformed : State := planned
def resuming1 : State := { susp with tide.resuming := some (some 5) }
def mk6 (p : Nat) : Marker := { mk0 p with tide := 6 }
def resumeDone : State := { resuming1 with tide.closeSent := [1,2,3,4,5,6,7], tide.markers := (List.range 8).map mk6 }
def pf0 : PfEntry := { action := 0, region := 1, position := 5, lead := 1, firstTile := 0, tiles := 1, nearAddr := 0x2900000, started := false, done := false, late := false, failed := false }
def pfLoading : State := { planned with tier.loading := some (0, [pf0], 0x2800400, 0x2800440, true) }
def fl0 (a : Byte) : Flight := { index := 0, entry := { pf0 with action := a, started := true }, step := 0, mask := [], stalled := false }
def fl1 : Flight := { fl0 0 with index := 1, entry := { pf0 with position := 9 } }
def pfRun : State := { planned with tier := { planned.tier with regions := [{ region0 with protected_ := false, nearBays := 0, farBase := 1099511627776+16777216, placement := 2 }], schedule := [{ pf0 with action := 2, started := true }], progressLine := some 0x2800440 }, mem := planned.mem.write 0x2900000 [1,2,3] }
def pfFlyA (a : Byte) : State := { pfRun with tier.flight := [fl0 a], tier.schedule := [{ pf0 with action := a, started := true }] }
def pfTwo : State := { pfRun with tier.flight := [{ fl0 0 with entry := { pf0 with position := 0 } }, fl1] }
def pfFar : State := { planned with tier.regions := [{ region0 with placement := 1, bays := 2, nearBays := 1, farBase := 1099511627776+16777216 }], mem := planned.mem.write 0x2800000 ([0, 1] ++ leBytes 2 5 ++ [2,0,0,0] ++ leBytes 4 0 ++ leBytes 4 64 ++ leBytes 8 0) }
def rec0 : SnoopRec := { tag := 3, line := 64, be := BitVec.allOnes 64, data := mkLine [(0,1,9)], master := .matrix }
def recN : SnoopRec := { rec0 with be := 5, tag := 4 }
def recA : SnoopRec := { rec0 with master := .apply }
def undefS : State := { capS with mem.undef := [(0, 128, 1)] }
def capOff : State := { capS with stat.capState := 1 }
def closing : State := { capS with tide.phase := V3.all 2 }
def issuedS : State := { capS with apply.issued := [{ cluster := 0, addr := 64, old := capS.mem.line 64, new := rec0.data, raced := false, stale := false }] }
def issuedZ : State := { capS with apply.issued := [{ cluster := 0, addr := 64, old := rec0.data, new := rec0.data, raced := false, stale := false }] }
def or0 : OldRead := { addr := 64, recs := [⟨.write, recN⟩, ⟨.write, rec0⟩, ⟨.atomic, { recN with tag := 9, be := 2 }⟩] }
def orS : State := { capS with cap.oldReads := [or0] }
def orSU : State := { undefS with cap.oldReads := [or0] }
def cl0 : CapLine := { bay := 0, line := 1, old := capS.mem.line 64, new := rec0.data, tags := [], masters := [] }
def q0 : State := { capS with cap.queue := [cl0] }
def dr0 : DeltaRec := { bay := 0, line := 1, delta := rec0.data, plus := true, minus := true }
def dr1 : DeltaRec := { bay := 1, line := 16383, delta := rec0.data, plus := true, minus := true }
def cr0 : State := { capS with cap.records := [dr0] }
def cr1 : State := { capS with cap.records := [dr1, dr0] }
def cr2 : State := { cr1 with agree := { cr1.agree with position := 3 } }
def it0 : SendItem := { dest := 1, ca := true, fwd := false, origin := 0, bay := 0, line := 1, thin := thin rec0.data, tide := 6 }
def big (s : State) (plus minus : Bool) : State := { s with fold.sendPlus := if plus then List.replicate 930 { it0 with thin := List.replicate 70 1 } else [], fold.sendMinus := if minus then List.replicate 930 { it0 with thin := List.replicate 70 1 } else [] }
def capOff0 : State := { capS with stat.capState := 2 , ctrl.capEn := V3.all 0}
def drained : State := { capS with stat.capState := 1, stat.drainMb := some 0 , fold.sendPlus := [{ it0 with fwd := true }]}
def draining : State := { q0 with stat.capState := 1 }
def at3 (s : State) (n : BitVec 4) : State := { s with agree := { s.agree with position := n } }
def fit (s : State) : State := { s with fold.sendPlus := [it0, { it0 with line := 2 }, { it0 with line := 3, thin := List.replicate 70 1 }, { it0 with line := 4, thin := List.replicate 70 1 }, { it0 with line := 5, thin := List.replicate 70 1 }, { it0 with line := 5, thin := List.replicate 70 1 }], fold.sendMinus := [{ it0 with dest := 7 }, { it0 with dest := 6 }] }
def fs1 : State := fit capS
def fs2 : State := { fs1 with fold.tokPlus := 23, fold.tokMinus := 280, fold.seqs := [(0,7,41)] }
def fs3 : State := { fs1 with ports.fenced := 64 }
def fp0 : FoldStore := { ca := true, fwd := false, cove := 1, origin := 3, sender := 3, dest := 0, view := 1, tide := 6, bay := 0, seq := 0, recs := [⟨1, thin rec0.data⟩] }
def fr0 : FbRec := { origin := 3, fwd := false, bay := 1, line := 1, coded := false, thin := thin rec0.data }
def fb0 : State := { capS with fold.buffer := [fr0, { fr0 with line := 2 }, { fr0 with origin := 4 }, { fr0 with coded := true } ] }
def fbc : State := { fb0 with fold.copyCursor := some 0 }
def brk : State := { capS with fold.streams := [{ origin := 3, sender := 3, next := 0, broken := true }] }
def fdis : State := { capS with stat.foldState := 1 }
def fdis2 : State := { capS with stat.foldState := 1, stat.foldAgain := true }
def cpy : State := { capS with fold.copyCursor := some 0, mem := capS.mem.write (slotBase capS 0 + 100) [5,6,7] }
def cpy1 : State := { cpy with fold.copyCursor := some (slotSize capS - 64) }
def closeS : State := { closing with tide.ownRecord := List.replicate (recordSize 2) 3, fold.seqs := [(0,3,41)], fold.directSent := [(3,9)] }
def mk1 : Marker := { cove := 1, origin := 3, sender := 3, dest := 0, view := 1, tide := 6, directPackets := 5, directRecords := 4, forwardedRecords := 0 }
def marked : State := { closing with tide.markers := [{ mk1 with directPackets := 77 }] }
/-- The member at position 3, no captain, with an open flood and TIDE_SEAL waiting in mailbox 0. -/
def m3 : State := at3 capS 3
def withBox (s : State) : State := { setBox s 0 { box s 0 with busy := true, long := true, op := 9, tag := 4 } with tide.mailbox := some 0 }
def nearN : State := { capS with tide.steps := 7, mem := capS.mem.write 0x2000000 emptyTable }
def sealRec : List Byte := List.replicate (recordSize 2) 3
def readyS : State := { at3 closing 3 with tide.closeSent := [0,1,2,4,5,6,7], tide.markers := (List.range 8).map (fun p => { mk1 with origin := BitVec.ofNat 8 p, directPackets := 0, directRecords := 0, forwardedRecords := 0 }), tide.ownRecord := sealRec, tide.parts := [0,1,2,4,5,6,7].map fun p => (p, sealRec) }
def sm (type : Nat) : SealMsg := { tree := false, cove := 1, origin := 5, sender := 5, dest := 3, view := 1, tide := 6, destCove := 1, arg := BitVec.ofNat 32 type, body := [1,2,3] }
def partsS : State := { m3 with tide.parts := [(5, [9,9,9])], tide.phase := V3.all 2 }
def ready2 (s : State) : State := { s with agree := { s.agree with cove := some 2 }, tide.phase := V3.all 3, tide.slot := V3.all 1 }
def readyM : State := withBox (ready2 m3)
def held : State := { readyM with cap.held := [⟨.write, rec0⟩] }
def smc : SealMsg := { sm 0 with cove := 2, body := leBytes 2 12 ++ [0,0] ++ leBytes 4 3 }
def commitd : State := { readyM with tide.phase := V3.all 4, tide.decision := some (5, .commit 12 3), mem := readyM.mem.write 0x1000000 [1] }
def heldSt : State := { readyM with apply.run := some { mailbox := 3, recipe := { id := 1, length := 0, slots := [], scalars := [], streams := [], layers := [] }, step := 0, reduceBase := 0, scalars := [], layer := 0, tile := 0, endLayer := 1, running := Vector.replicate 4 none, stop := .none, aborts := [], faultIndex := 0, startGtc := 0, lastGtc := none, laneOps := 0, nonfinite := 0, races := 0 } }
def cvP : CovePlan := { coveId := 50, layout := .c8, rows := 1, share := 4, members := [99] }
def cvN (i : Nat) : CovePlan := { coveId := BitVec.ofNat 16 (60 + i), layout := .c8, rows := 1, share := 4, members := [200] }
def planT : Plan := { plan0 with coves := [cvP, cove1] ++ (List.range 7).map cvN ++ [cove2] }
/-- A captain below the root: cove 1 under cove 50, with cove 2 as its one child. -/
def capT : State := { capS with job := { capS.job with plan := some planT }, tide.phase := V3.all 3, tide.readies := (List.range 8).map fun p => (p, [1,2,3]) }
def capT2 : State := { capT with tide.phase := V3.all 4, tide.decision := some (5, .commit 12 3), tide.flips := List.range 8 , tide.upReport := some (0, 5, 9)}
def capQ : State := { capT with tide.readies := [], tide.reports := [⟨2, 6, 0, 0, 0, false⟩] }
def capR : State := { capT with tide.upReport := some (2, 6, 1000000) }
def capRl : State := { capT with tide.upReport := some (2, 6, 1000001) }
def tm : SealMsg := { tree := true, cove := 2, origin := 0, sender := 0, dest := 0, view := 1, tide := 6, destCove := 1, arg := 0, body := leBytes 4 7 ++ leBytes 4 9 }
def plan1 : Plan := { plan0 with coves := [cove1] }
def rootS : State := { capS with job := { capS.job with plan := some plan1 }, tide.phase := V3.all 3, tide.readies := [0,1,2,3,4,6,7].map fun p => (p, [1,2,3]) }
def rootD : State := { rootS with tide.phase := V3.all 4, tide.decision := some (5, .commit 12 3), tide.acks := [(0, 5)], tide.rootSent := 800000 }
def rootA : State := { rootD with tide.acks := (List.range 8).flatMap fun q => [(0,q),(1,q),(2,q)] }
def shadow0 : Shadow := { plan := plan1, regions := [], quotas := quotas0, digests := [(0,7)], agree := { m3.agree with epoch := V3.all 1 }, tide := { m3.tide with phase := V3.all 4, slot := V3.all 1, tideLo := V3.all 5 }, mailbox := none, got := [], doneTiles := [], retried := [], parts := [], passed := true }
def shS : State := { capS with recov.shadow := some shadow0, tide.phase := V3.all 5 }
def planG : Plan := { plan0 with groups := [⟨9, [0, 1, 16]⟩] }
def hb : State := { capS with time.gtc := 1000000 }
def hbOff : State := { hb with time.gtc := 1000001 }
def watchS : State := { hb with agree := { hb.agree with watchAt := [(0, 1000000)] } }
def watchL : State := { hb with agree := { hb.agree with watchAt := [(0, 1000001)] } }
def beat0 : Beat := { health := 0, season := 0, position := 1, jobTag := 0x51, cove := 1, epoch := 1, seq := 125 }
def suspB : State := { hb with agree := { hb.agree with portSuspect := 0xFF, watchAt := [(1, 5), (0, 7)] }, ports.linkFault := 0xFF }
def sl0 : StatusLine := { season := 0, health := 0, position := 1, agreeState := 1, jobTag := 0x51, cove := 1, live := 0xFF, epoch := 1, sealedTide := 5, phase := 1, gtc := 9 }
def am (epoch ballot : U32) : AgreeMsg := { jobTag := 0x51, cove := 1, sender := 5, dest := 3, epoch := epoch, ballot := ballot, arg := 0, gtc := 0, body := List.replicate 16 0 }
def promd : State := { m3 with agree := { m3.agree with promised := 0x105, accepted := some ⟨0x105, 0xF7, 0, 0xFFFFFFFF⟩ } }
def heldI : State := { m3 with agree := { m3.agree with installs := [am 1 0x105] } }
def suspS : State := { m3 with agree := { m3.agree with suspects := [5], firstSuspicion := some 900000, timerAt := some 1000000, state := 2 } }
def retryS : State := { m3 with agree := { m3.agree with retryAt := some 1000000, confirmed := [5] , round := 2} }
def prop0 : Proposal := { epoch := 2, ballot := 0x103, accepting := false, promises := [⟨3, none, []⟩], acceptedBy := [], nackMax := 0x505, answered := [3], live := 0, reason := 0, joining := 0xFFFFFFFF, since := 950000 }
def propS (p : Proposal) : State := { m3 with agree := { m3.agree with proposal := some p, confirmed := [5], suspects := [5], state := 3, round := 1 } }
def prop5 : Proposal := { prop0 with promises := [0,1,2,3,4].map fun q => ⟨q, none, []⟩, answered := [0,1,2,3,4] }
def propA : Proposal := { prop0 with accepting := true, acceptedBy := [3] }
def propL : Proposal := { prop0 with since := 950001 }
def renewS : State := { capS with agree := { capS.agree with renewalDue := true }, tide.phase := V3.all 5 }
def inst (epoch : U32) (live : Nat) : AgreeMsg := { am epoch 0x103 with body := leBytes 2 live ++ leBytes 2 0 ++ leBytes 8 7 ++ leBytes 4 0xFFFFFFFF }
def red0 : Reduce := { mailbox := 2, group := 9, seq := 1, ranks := 3, rank := 0, elemBase := 0, elements := 256, shardLen := 256, contributions := 3, dstFormat := 0, add := false, sat := false, noWrite := false, total := false, dst := 0, scratch := 0, sources := [], exps := [], granted := false, sentTo := [], blocks := [], waits := [], formed := none, stop := .none, aborts := [], cancelBy := none, startGtc := 0 }
def redS : State := { heldSt with agree := { m3.agree with state := 1 }, tide.phase := V3.all 1, tide.slot := V3.all 0, exch.reduces := [red0, { red0 with group := 8 }], tide.mailbox := none, job := { m3.job with plan := some planG } }
def relayedS : State := { redS with agree := { redS.agree with relayed := [(1, 1, 9)] } }
def susNo : State := withBox { m3 with agree := { m3.agree with firstSuspicion := some 0 }, time.gtc := 1500000 }
def susYes : State := withBox { m3 with agree := { m3.agree with firstSuspicion := some 1 }, time.gtc := 1500000 }
def ca (rank : Nat) : AgreeMsg := { am 1 0 with arg := 9, body := leBytes 4 rank }
def after (c : Instr) (s : State) : State := match exec c s with | .next t => t | _ => s
def pm (epoch ballot : U32) : AgreeMsg := { jobTag := 0x51, cove := 0, sender := 0xFF, dest := 0xFF, epoch := epoch, ballot := ballot, arg := 2, gtc := 0, body := leBytes 8 600 ++ List.replicate 248 7 }
def bc0 : BcastS := { BcastS.reset with children := [1, 2], parent := some 0, ballot := 77, length := 600, digest := List.replicate 32 7, fragments := [(pm 0 77).body, (pm 0 77).body], lastFragment := 0, sentAt := [(1, 5), (2, 5)] }
def bcS : State := { member with bcast := bc0 }
def bcL : State := { member with bcast := { bc0 with lastFragment := 1 } }
def bcDone : State := { member with bcast := { bc0 with children := [2], complete := true, fragments := bc0.fragments ++ [[], []] }, time.gtc := 5000005 }
def bcDoneE : State := { bcDone with time.gtc := 5000004 }
def bcRoot : State := { member with bcast := { bc0 with parent := none }, time.gtc := 10000000 }
def planN : Plan := { plan0 with coves := [cove2], groups := [] }
def partdS : State := { up with job := { up.job with state := 1, part := some part0 } }
def partd5 : State := { partdS with job := { partdS.job with part := some { part0 with die := 5 } } }
def resume0 : State := { capS with tide.phase := V3.all 5, recov.state := V3.all 5 , mem := capS.mem.write 0x2000000 [1,2,3]}
def takingS : State := withBox { partdS with job := { partdS.job with taking := some (0, plan0, false) } }
def peerS : State := { partdS with bcast := { bc0 with complete := true, digest := List.replicate 32 7 } }
def claimM : AgreeMsg := { (am 1 4) with arg := 0 }
def lostC : State := { capS with agree := { capS.agree with live := V3.all 0xEF }, recov := { capS.recov with lost := V3.all 0x10, asked := some (4, 20), state := V3.all 2 } }
def lostC2 : State := { lostC with recov := { lostC.recov with tried := 2 } }
def standby : State := { planned with job := { planned.job with plan := some planN }, tier.regions := [] }
def grantG : Grant := { cove := 2, position := 3, epoch := 1, live := 0xF7, captainRank := 64, share := 4, handover := false, restored := 5 }
def granted : State := { standby with recov.grant := some grantG }
def cl7 : Line := c8 0x20 [(8,2,2),(10,1,3),(12,4,1),(16,4,64),(24,6,5),(30,2,0xF7),(32,1,0)]
def rb0 : State := { after .captureLine { q0 with mem := q0.mem.writeLine 64 rec0.data } with recov := { q0.recov with rollingBack := true }, tide.phase := V3.all 5 }
def rbBad : State := { rb0 with digests := [] }
def coveV : CovePlan := { cove1 with members := [0, 64, 128, 192, 256, 320, 384, 448] }
def planV : Plan := { plan0 with coves := [coveV], groups := [], standbys := [1] }
def planW : Plan := { planV with coves := [{ coveV with members := [1, 65, 129, 193, 257, 321, 385, 449] }] }
def quotasB : Quotas := { quotas0 with parityBase := 40, stashNearBase := 48, stashFarBase := 1048584, stageBase := 56 }
def planR : Plan := { planW with quotas := [1, 65, 129, 193, 257, 321, 385, 449].map fun r => (r, quotasB) }
def part8 : Partition := { part0 with hi := (7, 0, 0) }
def in8 (s : State) : State := { s with job := { s.job with part := some part8 } }
def ringS : State := { capS with recov := { capS.recov with lost := V3.all 0x10, state := V3.all 4 }, tide.phase := V3.all 5, fold.rbTokPlus := 288 }
def ringP : State := { ringS with fold.rbTokPlus := 287 }
def ringD : State := { ringS with recov := { ringS.recov with state := V3.all 6 }, fold.rbTokPlus := 8192 }
def gP : RingId := { parity := true, target := 4, bay := 0, base := 5, piece := 1, depth := 0, count := 4 }
def gD : RingId := { parity := false, target := 4, bay := 0, base := 0, piece := 4, depth := 0, count := 4 }
def rm : RbMsg := { parity := false, final := false, stale := false, cove := 1, target := 4, sender := 0, dest := 0, stage := 1, view := 1, tide := 5, bay := 0, base := 0, piece := 4, depth := 0, count := 4, seq := 0, payload := List.replicate 256 9 }
def ringD1 : State := { ringD with agree := { ringD.agree with position := 1 } }
def ringD6 : State := { ringD with agree := { ringD.agree with position := 6 } }
def waitS : State := { ringD1 with tide.phase := V3.all 4 }
def restartS : State := { waitS with recov := { waitS.recov with restartAt := [(gD, 980000)] } }
def restartL : State := { waitS with recov := { waitS.recov with restartAt := [(gD, 980001)] } }
def tgt : State := { ringD with agree := { ringD.agree with position := 4 }, recov := { ringD.recov with target := true } }
def tgtP : State := { tgt with recov := { tgt.recov with state := V3.all 4 } }
def tgtSet : State := setRebuilt tgt 0 (columnLine .c8 0 4 0)
def ln9 : Line := lineOf (List.replicate 64 9)
def fin : RbMsg := { rm with final := true, count := 1, payload := lineBytes ln9 }
def finP : RbMsg := { fin with parity := true, base := 5, piece := 1 }
def reqS : State := { tgt with recov := { tgt.recov with reqs := [{ bay := 0, line := columnLine .c8 0 4 0, sel := 0, sentAt := 980000, replies := [] }] } }
def reqL : State := { tgt with recov := { tgt.recov with reqs := [{ bay := 0, line := columnLine .c8 0 4 0, sel := 0, sentAt := 980001, replies := [] }] } }
def tmS : State := { tgt with tide.stepRecord := some (5, []), recov := { tgt.recov with tide := 6, tmarkFrom := 3 } }
def ho0 : Handover := { outgoing := false, position := 4, peerRank := 20, cursor := 0, finished := false, cutover := false }
def hoS : State := { tgt with recov := { tgt.recov with handover := some ho0 } }
def hoO : State := { capS with recov := { capS.recov with handover := some { ho0 with outgoing := true, cursor := 43690 } } }
def sh1 : Shadow := { shadow0 with regions := [{ region0 with nearBase := 0x2400000 }] }
def shM : State := { capS with recov := { capS.recov with shadow := some sh1 } }
def mv : RbMsg := { rm with count := 1, payload := lineBytes ln9, bay := 5, base := 0, piece := 0, depth := 1 }
def twin0 : State := { capS with twin := { capS.twin with state := 1, peer := some 64, mode := 1, mailbox := some 0 } }
def twinR : State := { capS with twin := { capS.twin with state := 1, peer := some 0, mode := 1, rowsChecked := true, own := [(5, List.replicate 32 7)] } }
def twinD : State := { twinR with twin := { twinR.twin with state := 3, lo := 0, hi := 16384 } }
def twinC : State := { twinR with twin := { twinR.twin with compared := some 5 } }
def tw (body : List Byte) : AgreeMsg := { pm 0 0 with arg := 0, body := body }
def restartG : State := { ringS with recov := { ringS.recov with restartAt := [(gP, 980000)] } }
def restartGD : State := { ringD with recov := { ringD.recov with restartAt := [(gD, 980000)], groupsLeft := [gD] } }
/-- A reduce descriptor at 0x2800000: 256 FP32 elements, three contributions, one source. -/
def desc0 (dstF : Nat) : List Byte := leBytes 2 1 ++ leBytes 2 9 ++ leBytes 4 1 ++ leBytes 8 0 ++ leBytes 4 256 ++ leBytes 4 4096 ++ leBytes 4 3 ++ [1, BitVec.ofNat 8 dstF, 0, 0] ++ leBytes 8 0x2900000 ++ leBytes 8 0x2A00000 ++ leBytes 8 4224 ++ leBytes 8 0 ++ leBytes 8 0x2B00000 ++ leBytes 8 0
def exS : State := { member with mem := member.mem.write 0x2800000 (desc0 0) }
def exOff : State := { exS with ctrl.exchEn := V3.all 0 }
def eb0 : ExBlock := { x := none, q := 0, received := 0, spills := 0, nan := 0, posInf := 0, negInf := 0, old := [] }
def redR : Reduce := { red0 with shardLen := 4096, blocks := [eb0], sources := [⟨0x2B00000, 0⟩], dst := 0x2900000, scratch := 0x2A00000 }
def busy2 (s : State) : State := setBox s 2 { box s 2 with busy := true, long := true, op := 0x0D, tag := 4 }
def withRed (r : Reduce) : State := busy2 { member with exch.reduces := [r], mem := member.mem.write 0x2B00000 [0,0,0x80,0x3F] }
def ex0 : ExRec := { compressed := false, group := 9, seq := 1, sender := 1, count := 1, dest := 0, format := 0, first := 0, covered := 256, payload := [130] }
def red1 : Reduce := { redR with ranks := 1, contributions := 1 }
def redG : Reduce := { redR with granted := true, blocks := [{ eb0 with x := some 130, q := 0 }] }
def redDone : Reduce := { redR with ranks := 1, contributions := 1, granted := true, sentTo := [0], elements := 16, blocks := [{ eb0 with received := 1 }] }
def dat0 : ExRec := { ex0 with payload := List.replicate 1024 0 }
def doneS : State := { member with exch.completed := [(9, 1)] }
def cdesc : List Byte := leBytes 2 1 ++ [1, 0] ++ leBytes 2 16 ++ leBytes 2 0 ++ leBytes 8 0 ++ leBytes 4 4096 ++ leBytes 4 0 ++ leBytes 8 0x2900000 ++ leBytes 8 0x2A00000 ++ leBytes 8 0x2B00000 ++ leBytes 8 16448 ++ leBytes 8 0
def cmpS : State := { member with mem := member.mem.write 0x2800000 cdesc }
def cm0 : Compress := { mailbox := 2, mode := 1, valueFormat := 0, k := 1, elements := 4096, block := 1, grad := 0x2900000, resid := 0x2A00000, out := 0x2B00000, stop := .none, aborts := [], nonfinite := 0, saturated := 0, bytesOut := 12, startGtc := 0 }
def withCmp (c : Compress) : State := busy2 { member with exch.compress := some c }
def poisonA : State := { member with apply.run := heldSt.apply.run }
def img : List Byte := leBytes 2 1 ++ [2, 0, 2, 1] ++ leBytes 2 1 ++ List.replicate 56 0 ++ leBytes 8 0x8000000000000000 ++ leBytes 8 0xA400000000000000 ++ List.replicate 16 0 ++ List.replicate 32 0 ++ leBytes 4 0 ++ leBytes 4 16 ++ leBytes 8 0 ++ leBytes 8 0x2900000 ++ leBytes 8 0x2A00000 ++ List.replicate 64 0
def recS : State := { member with mem := member.mem.write 0x2800000 img }
def ly0 : LayerEntry := { position := 0, elements := 16, elemBase := 0, bases := [0x2900000, 0x2A00000, 0, 0, 0, 0, 0, 0], redTileBase := 0 }
def rcp : Recipe := { id := 1, length := 224, slots := [0x8000000000000000, 0xA400000000000000], scalars := [], streams := [(0, 0), (0, 0)], layers := [ly0] }
def rcp2 : Recipe := { rcp with layers := [{ ly0 with elements := 16384 }] }
def runS2 : State := { member with apply.recipes := [rcp2] }
def ar0 : ApplyRun := { mailbox := 2, recipe := rcp, step := 0, reduceBase := 0, scalars := [], layer := 1, tile := 0, endLayer := 1, running := (Vector.replicate 4 none).set 0 (some (0, 0)), stop := .none, aborts := [], faultIndex := 0, startGtc := 0, lastGtc := none, laneOps := 0, nonfinite := 0, races := 0 }
def applyT : State := busy2 { member with apply := { member.apply with state := 1, run := some ar0 }, tier.regions := [], mem := member.mem.write 0x2900000 [1,2,3,4,5] }
def arEnd : ApplyRun := { ar0 with running := Vector.replicate 4 none }
def withRun (r : ApplyRun) : State := busy2 { member with apply := { member.apply with state := 1, run := some r } }
def hot : State := { up with beacon := { up.beacon with hotAlert := 7, hotHand := 7, lowHand := 7, lowAlert := 7, bktA := up.beacon.bktA.set 1 150, mends := 20, bktB := up.beacon.bktB.set 2 1048575 } }
def offP : State := { up with power.on := false }
def redL : Reduce := { redG with elements := 16, blocks := [{ eb0 with x := some 130, q := -51, received := 2 }] }
def datL : ExRec := { ex0 with covered := 16, payload := (List.range 64).map (BitVec.ofNat 8 ·) }
def uL (r : Reduce) : State := contribute (answerOffer (withRed r) true) 9 1 0 (payloadVals 0 datL.payload 16)
def r1L (r : Reduce) : Reduce := (reduceOf (uL r) 9 1).getD red0
def redPh : Reduce := { redDone with formed := some ⟨true, 64, 0, 0, 0⟩ }
def heldX : State := { withRed redPh with cap.held := [⟨.write, { rec0 with line := 0x2900000, master := .exchange }⟩] }
def exI : State := { member with mem := member.mem.write 0x2800000 (leBytes 2 1 ++ leBytes 2 9 ++ leBytes 4 1 ++ leBytes 8 0 ++ leBytes 4 256 ++ leBytes 4 4096 ++ leBytes 4 3 ++ [1, 0xB, 0, 0] ++ leBytes 8 0x2900000 ++ leBytes 8 0x2A00000 ++ leBytes 8 4224 ++ leBytes 8 0 ++ leBytes 8 0x2B00000 ++ leBytes 8 0xB) }
def applyX : State := { withRun ar0 with apply.recipes := [rcp] }
def applyF : State := { applyT with cap.filter := [⟨0x2A00000, 64, false⟩], mem := member.mem.write 0x2900000 [1,2,3,4,5] }
def runE (fs : List (Nat × Nat × Nat)) : Line := c8 0x8c ([(8,1,1)] ++ fs)
def runB : State := { runS2 with mem := member.mem.write 0x2800000 (leBytes 8 1 ++ leBytes 8 0x2B00000) }
def movingTo (s : State) (tgt : BitVec 2) : State := { s with power := { s.power with moving := true, target := tgt } }
def mv1 : State := busy2 { (movingTo member 1) with power.mailbox := some 2 }
def mv2 : State := { (movingTo up 2) with power.mailbox := some 2 }
def autumn : State := { member with power := { member.power with season := V3.all 1, asleep := true } }
def longOther : State := setBox up 2 { box up 2 with busy := true, long := true, op := 0x10, tag := 3 }
def recovering : State := { member with recov.state := V3.all 3 }
def wakeS : State := { up with beacon.wakeEn := true }
def wakeW : State := { (winter up) with beacon.wakeEn := true }
def spring (n : Nat) (fw : Bool) : State := { up with power := { up.power with season := V3.all 3, moving := true, target := 0, springStep := n, fromWinter := fw } }
def img0 : List Byte := List.replicate 4032 0x5A
def goodHead : List Byte := leBytes 4 0x48594657 ++ [0, 0, 0xB0, 0] ++ List.replicate 8 0 ++ leBytes 4 4096 ++ List.replicate 12 0
def goodImage : List Byte := goodHead ++ sha256 img0 ++ img0
def loaded (s : State) : State := { s with fw := { image := goodImage, expected := 4096, length := 4096, checked := false }, stat.fwState := V3.all 1 }
def loadedBad (s : State) : State := { s with fw := { image := [0x57], expected := 4096, length := 4096, checked := false }, stat.fwState := V3.all 1 }
def offS : State := { up with power.on := false }
def initS : State := State.reset
def coreBoot : State := { up with rst.phase := .coreBooting, stat.fwState := V3.all 1 }
def bistRunS : State := setBox { up with bist := { up.bist with run := some 2, left := [3, 4], state := 1 } } 2 { box up 2 with busy := true, long := true, op := 0x16, tag := 4 }
def bistCore (k : Nat) : State := { bistRunS with bist.left := [k] }
def bistLast : State := { bistRunS with bist.left := [4] }
def coreStop : State := { applyT with rst.phase := .coreStopping 1000 }
def coreStop2 : State := { coreStop with time.gtc := 50000 }
def applyAsleep : State := { up with power.asleep := true }
def started : State := { up with tier.schedule := [{ action := 0, region := 1, position := 0, lead := 0, firstTile := 0, tiles := 1, nearAddr := 0, started := true, done := false, late := false, failed := false }] }
def fw0 : State := { up with stat.fwState := V3.all 0 }
def fw0e (n len : Nat) : State := { fw0 with fw := { image := List.replicate n 0, expected := n, length := len, checked := false } }
def fw3 : State := { up with stat.fwState := V3.all 3 }
def hdr (m st len : Nat) : List Byte := leBytes 4 m ++ [0, 0, BitVec.ofNat 8 st, 0] ++ List.replicate 8 0 ++ leBytes 4 len ++ List.replicate 236 0
def checkedS (s : State) : State := { (loaded s) with fw.checked := true }
def coreBootC : State := { (checkedS coreBoot) with rst.results := [(2, [(8, 1, 3)])] }
def coreStopE : State := { coreStop with apply.run := some arEnd }
def flying : State := { started with tier.flight := [⟨0, { action := 0, region := 1, position := 0, lead := 0, firstTile := 0, tiles := 1, nearAddr := 0, started := true, done := false, late := false, failed := false }, 0, [], false⟩] }
def mended1 : State := { up with lat.mended := [(60, 2 * 32 + 3, 1, 1000000)] }
def mendedOther (m w : Nat) : State := { up with lat.mended := [(m, w, 1, 999000)] }
def remS : State := { up with lat.remaps := (List.range 8).map fun j => ⟨60, j, j + 5⟩ }
def ro : State := { up with fuses.lcs := 1 }
def recmp : State := { member with cap.recompute := [0, 1], digests := [(0, 77), (2, 5)], lat.errors := [⟨40, 1, [(3, 3), (70, 2)], true⟩, ⟨60, 2, [(24, 1), (40, 3)], true⟩], mem := member.mem.write 64 [1, 2, 3] }
def slF : State := { up with apply.sliceFenced := some 3 }
def clF : State := { up with apply.fenced := [4] }
def testS : State := setBox { up with bist := { up.bist with test := some (some 2, true, 3), state := 1, set := 0x81 } } 2 { box up 2 with busy := true, long := true, op := 0x18, tag := 4 }
def wrapS : State := { up with ports := { up.ports with msp := false, fbp := false, lkp := false, mgp := false, wrapped := some (true, true, false, true), wir := 1 } }
def edgy : State := { up with time := { up.time with goodEdges := 2 } }
def edgyQ : State := { edgy with cap.queue := List.replicate 256 { bay := 0, line := 1, old := mkLine [], new := mkLine [], tags := [], masters := [] } }
def lostT : State := { up with time := { up.time with onDelayLine := true, goodEdges := 0 } }
def noWake : State := { up with beacon.wakeEn := false }

/-! ### Ill-formed terms are refused by WellFormed -/

def fs0 : FoldStore :=
  { ca := true, fwd := false, cove := 1, origin := 3, sender := 3, dest := 0, view := 1, tide := 6, bay := 9, seq := 0,
    recs := [⟨5, [1, 0, 3, 7]⟩] }
def seal0 : SealMsg :=
  { tree := false, cove := 1, origin := 1, sender := 1, dest := 0, view := 1, tide := 6, destCove := 0, arg := 0, body := [] }
def agree0 : AgreeMsg :=
  { jobTag := 0x51, cove := 1, sender := 1, dest := 0, epoch := 1, ballot := 0, arg := 0, gtc := 0, body := [] }
def rbMsg0 : RbMsg :=
  { parity := false, final := false, stale := false, cove := 1, target := 1, sender := 2, dest := 0, stage := 0, view := 1,
    tide := 6, bay := 0, base := 0, piece := 0, depth := 0, count := 1, seq := 0, payload := [] }
def ring0 : RingId := { parity := false, target := 1, bay := 0, base := 0, piece := 0, depth := 0, count := 4 }
def exr0 : ExRec :=
  { compressed := false, group := 9, seq := 1, sender := 1, count := 1, dest := 0, format := 0, first := 0, covered := 256,
    payload := [] }

theorem test_wf_snoop : (Instr.snoopWrite rec0).wf = true ∧
    (Instr.snoopWrite { rec0 with line := 65 }).wf = false ∧ (Instr.snoopRead 1 96 .matrix).wf = false ∧
    (Instr.oldLineReadReturn 1).wf = false := by decide +kernel

theorem test_wf_foldStore : (Instr.foldStore fs0).wf = true ∧ (Instr.foldStore { fs0 with recs := [] }).wf = false ∧
    (Instr.foldStore { fs0 with recs := List.replicate 43 ⟨5, [1, 0, 3, 7]⟩ }).wf = false ∧
    (Instr.foldStore { fs0 with recs := [⟨16384, [1, 0, 3, 7]⟩] }).wf = false ∧
    (Instr.foldStore { fs0 with recs := [⟨5, [1, 0, 3]⟩] }).wf = false ∧
    (Instr.foldStore { fs0 with recs := List.replicate 4 ⟨5, List.replicate 63 1⟩ }).wf = false := by decide +kernel

theorem test_wf_bodies :
    (Instr.ready { seal0 with body := List.replicate 256 0 }).wf = true ∧
    (Instr.ready { seal0 with body := List.replicate 257 0 }).wf = false ∧
    (Instr.prepare { agree0 with body := List.replicate 257 0 }).wf = false ∧
    (Instr.piece { rbMsg0 with payload := List.replicate 257 0 }).wf = false := by decide +kernel

theorem test_wf_exchange : (Instr.data { exr0 with payload := List.replicate 16400 0 }).wf = true ∧
    (Instr.data { exr0 with payload := List.replicate 16401 0 }).wf = false := by decide +kernel

theorem test_wf_ring : (Instr.ringGroupStart ring0).wf = true ∧ (Instr.ringGroupStart { ring0 with count := 0 }).wf = false ∧
    (Instr.ringRestart { ring0 with count := 5 }).wf = false := by decide +kernel

theorem test_wf_samples : (Instr.beaconSample [0, 0, 0, 0, 0] 0 0 0).wf = false ∧
    (Instr.fwImageTransaction 0 (List.replicate 255 0)).wf = false ∧ (Instr.patrolScrub 96 0 [] false).wf = false ∧
    (Instr.patrolScrub 95 0 [(288, 1)] false).wf = false ∧ (Instr.referenceEdge 0 0 0).wf = false := by decide +kernel

/-! ### The worked examples of the specification -/

/-- R61: 0xF4 · 0x02 = 0xF5, and every inverse. -/
theorem test_gf : gfMul 0xF4 2 = 0xF5 ∧ gfExp 255 = 1 ∧ gfMul 0x7A (gfInv 0x7A) = 1 := by decide +kernel

/-- The example after R71: line 1000 of bays 5008 and 5009 on position 5 of a C8 cove. -/
theorem test_placement :
    place .c8 5 5008 1000 = ⟨0, 4, 166, 4, 1⟩ ∧ headlands .c8 5 5008 1000 = [(7, 0x7A), (0, 0xBA)] ∧
    (place .c8 5 5009 1000).column = 5 ∧ (headlands .c8 5 5009 1000).map Prod.fst = [6, 7] := by decide +kernel

/-- The example after R73: the lines of the working slot that the same line folds into. -/
theorem test_parity_offset : parityOffset .c8 5008 0 166 = 5008 * 349568 + 0x2980 ∧
    parityOffset .c8 5008 1 166 = 5008 * 349568 + 0x2D440 := by decide +kernel

/-- The example after R75: coded 0x7A in +W and 0xBA in -W; in bay 5009 both headlands lie in +W. -/
theorem test_routes : headlandsToward .c8 5 5008 1000 .plus = [(7, 0x7A)] ∧
    headlandsToward .c8 5 5008 1000 .minus = [(0, 0xBA)] ∧
    headlandsToward .c8 5 5009 1000 .plus = [(6, 0xBA), (7, 0x7A)] ∧ headlandsToward .c8 5 5009 1000 .minus = [] := by
  decide +kernel

/-- The example after R105: who receives uncoded and forwards. -/
theorem test_route_table : (headlandsToward .c8 3 5008 0 .minus).map Prod.fst = [2, 1] ∧
    nextHeadland .c8 3 5008 0 2 .minus = some 1 ∧ (headlandsToward .c8 3 5008 3 .plus).map Prod.fst = [6, 7] ∧
    nextHeadland .c8 3 5008 3 6 .plus = some 7 := by decide +kernel

/-- The example after R195: 300 contributions of 1.9375, and 2^-32 (1 + 2^-23) once. -/
theorem test_block_fixed :
    epsBits 0x3FF80000 = 127 ∧ blockQ 127 0 = some (-54) ∧ epsBits 0x2F800001 = 95 ∧
    toBlock (-54) (ofBits 0x3FF80000) = 0x007C000000000000 ∧ toBlock (-54) (ofBits 0x2F800001) = 0x400000 ∧
    leastStep 37 0 [9300 * 2 ^ 50, 2 ^ 22] = 1 ∧ rneShift (9300 * 2 ^ 50) 1 = 0x48A8000000000000 := by decide +kernel

/-- FIPS 180-4: the digest of "abc". -/
theorem test_sha256 : (sha256 [0x61, 0x62, 0x63]).take 8 = [0xBA, 0x78, 0x16, 0xBF, 0x8F, 0x01, 0xCF, 0xEA] := by
  decide +kernel

/-! ### One step at a time -/

/-- R329: firmware 4.2 answers FW_INFO with its release, and COUNT rises by one. -/
theorem test_fwInfo : (fun t => (fld (box t 0).rsp 8 2, (box t 0).count, (box t 0).busy))
    (after (.fwInfo (.issue 0 .fbp false (c8 1 []))) up) = (0x402, 1, false) := by decide +kernel

/-- R346: HY_STAT.CFG_IGNORED is cleared by writing one, and stays where zero is written. -/
theorem test_stat_w1c :
    (after (.registerWrite .mgp false 0x0200 1) sSnap).stat.cfgIgnored = false ∧
    (after (.registerWrite .mgp false 0x0200 0xFF0000FE) sSnap).stat.cfgIgnored = true ∧
    (after (.registerWrite .mgp false 0x0200 0xFF0000FE) sSnap).stat.evtOvf = 0 := by decide +kernel

/-- R116: below the interval TIDE_SEAL is answered OK at once and counted. -/
theorem test_tideSeal : (fun t => ((box t 0).code, t.tide.steps, t.tide.phase.get))
    (after (.tideSeal (.issue 0 .fbp true (c8 0x89 [(8, 8, 0x2800000)]))) member) = (0, 1, 1) := by decide +kernel

/-- R83, R87: the first write of a line is held for its old line; a captured line reaches the stash and the GF queue. -/
theorem test_capture :
    (after (.snoopWrite rec0) capS).cap.oldReads.length = 1 ∧
    (after (.oldLineReadReturn 64) (after (.snoopWrite rec0) capS)).cap.queue.length = 1 ∧
    (after (.oldLineReadReturn 64) (after (.snoopWrite rec0) capS)).mem.byte 64 = 9 ∧
    (after .captureLine (after (.oldLineReadReturn 64) (after (.snoopWrite rec0) capS))).cap.nearFill ≠ 0 := by
  decide +kernel

/-- R137: the running digest changes by the line term of the delta. -/
theorem test_digest :
    digestOf (after .captureLine (after (.oldLineReadReturn 64) (after (.snoopWrite rec0) capS))) 0 =
      digestOf capS 0 ^^^ lineTerm 0x1234567 1 (mkLine [(0, 1, 1 ^^^ 9), (1, 1, 2), (2, 1, 3)]) := by decide +kernel

/-- R293: one reference edge is 10 ns. -/
theorem test_edge : (after (.referenceEdge 1 (up.time.gtc + 10) 1000) edgy).time.gtc = up.time.gtc + 10 ∧
    (after (.referenceEdge 3 1000030 1000) edgy).time.goodEdges = 4 := by decide +kernel

/-- R359, R360: one bad symbol is mended and logged with its class, its symbol and its macro. -/
theorem test_mend : (fun t => (t.lat.corr, t.lat.lastSymbol, t.cnt.get 21, (t.log.entries.map (·.detail)).headD 0))
    (after (.patrolScrub 60 2 [(24, 1), (25, 7)] false) up) = (true, 3, 1, 0x3C03000002) := by decide +kernel

/-- R230: package coordinates count with Z fastest, then the die. -/
theorem test_rank : Partition.rank { part0 with hi := (1, 2, 3), own := (1, 2, 1), die := 5 } = ((1 * 3 + 2) * 4 + 1) * 64 + 5 :=
  by decide +kernel

/-- R347: a system reset through MGP keeps RST_CAUSE's bits and adds its own. -/
theorem test_sysReset : (fun t => (t.rst.por, t.rst.sysMgp, t.stat.fwState.get, t.ports.mgp))
    (after (.rstCtrlSys .mgp) sSnap) = (true, true, 0, false) := by decide +kernel

/-- R318: a GO while BUSY sets OVERRUN and takes nothing. -/
theorem test_overrun : (fun t => ((box t 1).overrun, (box t 1).busy, (box t 1).count))
    (after (.registerWrite .fbp true 0x1184 1) comp) = (true, true, (box comp 1).count) := by decide +kernel

/-- R232: class 6 is lasting after eight samples above TEMP_ALERT. -/
theorem test_beacon : (after (.beaconSample [0, 0, 0, 0, 0, 0] 0x6A 0x90 10) hot).beacon.lasting.getLsbD 6 = true ∧
    (after (.beaconSample [0, 0, 0, 0, 0, 0] 0x69 0x90 10) hot).beacon.lasting.getLsbD 6 = false := by decide +kernel

theorem test_wf_plan : (Instr.planLoad (.taken 0) plan0).wf = true ∧
    (Instr.planLoad (.taken 0) { plan0 with coves := [{ cove1 with layout := .l12 }] }).wf = false := by decide +kernel

/-- R95, R102, R287: a fold-store's and a close marker's bytes as their tables lay them out, padded to 8 B. -/
theorem test_wire :
    padded (msgBytes (.foldStore ⟨true, false, 0x0201, 3, 3, 4, 0x0605, 0x0C0B0A090807, 0x0E0D, 0x1211100F,
      [⟨0x1514, [1, 0, 3, 7]⟩]⟩)) =
      [0x10, 1, 6, 0, 1, 2, 3, 3, 4, 1, 5, 6, 7, 8, 9, 10, 11, 12, 13, 14, 15, 16, 17, 18, 0x14, 0x15, 1, 0, 3, 7, 0, 0] ∧
    msgBytes (.marker ⟨0x0201, 3, 3, 4, 0x0605, 0x0C0B0A090807, 0x100F0E0D, 0x18, 0x0102⟩) =
      [0x11, 0, 0, 0, 1, 2, 3, 3, 4, 0, 5, 6, 7, 8, 9, 10, 11, 12, 0, 0, 13, 14, 15, 16, 0x18, 0, 0, 0, 0, 0, 0, 0,
       2, 1, 0, 0, 0, 0, 0, 0] := by decide +kernel


/-- The fragment in a lost tile of the plan buffer, and those after it, are awaited again (R240, R371). -/
theorem test_lost_fragment : (loseFragments bcS 1).bcast.fragments.length = 1 ∧ loseFragments bcS 7 = bcS ∧
    loseFragments bcDone 1 = bcDone := by decide +kernel
/-! ### Meeting hypotheses -/

/-- The clauses of `Handled` as a check that computes. -/
def handledNow (s : State) (mb : Fin 8) (priv : Bool) (op : Nat) (cmd : Line) : Bool :=
  decide (Prompt s mb op cmd) && decide (Permitted mb priv op) &&
    (match catalogue op with
      | none => true
      | some e => decide (badByte e cmd = none ∧ usesProfile e cmd = false)) &&
    decide (s.bist.run = none ∧ StateTakes s.job.state.toNat op ∧ s.power.season.get = 0)

theorem handled_of {s : State} {mb : Fin 8} {priv : Bool} {op : Nat} {cmd : Line}
    (h : handledNow s mb priv op cmd = true) : Handled s mb priv op cmd := by
  simp only [handledNow, Bool.and_eq_true, decide_eq_true_eq] at h
  obtain ⟨⟨⟨h1, h2⟩, h3⟩, h4, h5, h6⟩ := h
  refine ⟨h1, h2, fun e he => ?_, h4, h5, h6⟩
  rw [he] at h3
  simpa using h3

/-- The clauses of `OwnCoveMember` as a check that computes. -/
def ownCoveMemberNow (s : State) (m : AgreeMsg) : Bool :=
  decide (s.ports.lkp = true ∧ s.job.part.isSome = true ∧ m.jobTag = jobTag s ∧ s.power.season.get = 0 ∧
    s.power.moving = false ∧ s.agree.cove = some m.cove) &&
  (match s.job.plan with
    | some p => (planCove p m.cove).isSome
    | none => false) &&
  decide (s.agree.state ≠ 0 ∧ s.agree.state ≠ 4 ∧ s.agree.state ≠ 5 ∧ s.agree.withdrawn = false)

theorem ownCoveMember_of {s : State} {m : AgreeMsg} (h : ownCoveMemberNow s m = true) : OwnCoveMember s m := by
  simp only [ownCoveMemberNow, Bool.and_eq_true, decide_eq_true_eq] at h
  obtain ⟨⟨⟨h1, h2, h3, h4, h5, h6⟩, h7⟩, h8⟩ := h
  refine ⟨h1, h2, h3, h4, h5, h6, ?_, h8⟩
  revert h7
  cases s.job.plan with
  | none => intro h7; cases h7
  | some p => intro h7; exact ⟨p, rfl, h7⟩

theorem some_of {α : Type} {x : Option α} (h : x.isSome = true) : ∃ e, x = some e := Option.isSome_iff_exists.mp h

theorem all_some_of {α : Type} {x : Option α} {p : α → Prop} [DecidablePred p]
    (h : (x.all fun a => decide (p a)) = true) : ∀ a, x = some a → p a := by
  rintro a rfl
  exact of_decide_eq_true h

theorem inr_of {α β : Type} {x : α ⊕ β} (h : x.isRight = true) : ∃ v, x = .inr v := by
  cases x with
  | inl a => cases h
  | inr b => exact ⟨b, rfl⟩

/-- The digest is 32 bytes. -/
theorem sha256_length (m : List Byte) : (sha256 m).length = 32 := by
  simp [sha256, leBytes]

/-- An image whose header carries the digest of what follows it is good, whatever that is. -/
theorem imageGood_of (s : State) (h body : List Byte) (hh : h.length = 32) (hb : body.length = 4032)
    (hi : s.fw.image = h ++ sha256 body ++ body) (hn : s.fw.length = 4096) (he : s.lat.errors = []) :
    imageGood s = true := by
  have hs := sha256_length body
  have e1 : (h ++ sha256 body ++ body).take 4096 = h ++ sha256 body ++ body :=
    List.take_of_length_le (by simp [hh, hb, hs])
  have e2 : (h ++ sha256 body ++ body).drop 64 = body :=
    List.drop_left' (by simp [hh, hs])
  have e3 : (h ++ sha256 body ++ body).take 64 = h ++ sha256 body :=
    List.take_left' (by simp [hh, hs])
  have e4 : (h ++ sha256 body).drop 32 = sha256 body := List.drop_left' hh
  simp only [imageGood, hi, hn, he, e1, e2, e3, e4]
  simp [hh, hb, hs]

theorem all_of {α : Type} {l : List α} {p : α → Prop} [DecidablePred p] (h : (l.all fun a => decide (p a)) = true) :
    ∀ a ∈ l, p a := by simpa using h

/-! ### Every clause of every statement has states and operands that meet its hypotheses -/

theorem witness_ErrorLogAndCounterControls :
    (∃ (s : State) (port : Port) (priv : Bool), Reaches s port priv 0x2008) ∧
    (∃ (s : State) (port : Port) (priv : Bool), Reaches s port priv 0x2004) ∧
    (∃ (s : State) (port : Port) (priv : Bool), Reaches s port priv 0x3000) ∧
    (∃ (s : State) (port : Port) (priv : Bool), Reaches s port priv 0x2010) :=
  ⟨⟨member, .fbp, true, by decide +kernel⟩,
   ⟨member, .fbp, true, by decide +kernel⟩,
   ⟨member, .fbp, true, by decide +kernel⟩,
   ⟨member, .fbp, true, by decide +kernel⟩⟩

theorem witness_EnableBitsOfIdleFunctions :
    (∃ (s : State) (port : Port) (priv : Bool), Reaches s port priv 0x0100) ∧
    (∃ (s : State) (port : Port) (priv : Bool), Reaches s port priv 0x0100 ∧ s.ctrl.foldEn.get = 0) ∧
    (∃ (s : State) (port : Port) (priv : Bool), Reaches s port priv 0x0100 ∧ s.ctrl.foldEn.get = 1 ∧ s.stat.foldState =
      0 ∧ codingActive s = false) ∧
    (∃ (s : State) (port : Port) (priv : Bool), Reaches s port priv 0x0100 ∧ s.ctrl.foldEn.get = 1 ∧ codingActive s =
      true) ∧
    (∃ (s : State) (port : Port) (priv : Bool), Reaches s port priv 0x0100 ∧ s.apply.run = none) ∧
    (∃ (s : State) (port : Port) (priv : Bool), Reaches s port priv 0x0100 ∧ s.ctrl.applyEn.get = 1 ∧ s.apply.run =
      none) ∧
    (∃ (s : State) (port : Port) (priv : Bool), Reaches s port priv 0x0100 ∧ s.exch.compress = none) ∧
    (∃ (s : State) (port : Port) (priv : Bool), Reaches s port priv 0x0100 ∧ s.ctrl.exchEn.get = 1 ∧ s.exch.reduces =
      [] ∧ s.exch.compress = none) ∧
    (∃ (s : State) (port : Port) (priv : Bool), Reaches s port priv 0x0100 ∧ s.ctrl.exchEn.get = 0) :=
  ⟨⟨member, .fbp, true, by decide +kernel⟩,
   ⟨sFoldOff, .fbp, true, by decide +kernel, by decide +kernel⟩,
   ⟨sActive, .fbp, true, by decide +kernel, by decide +kernel⟩,
   ⟨member, .fbp, true, by decide +kernel, by decide +kernel⟩,
   ⟨member, .fbp, true, by decide +kernel, by decide +kernel⟩,
   ⟨member, .fbp, true, by decide +kernel, by decide +kernel⟩,
   ⟨member, .fbp, true, by decide +kernel, by decide +kernel⟩,
   ⟨member, .fbp, true, by decide +kernel, by decide +kernel⟩,
   ⟨sIdleOff, .fbp, true, by decide +kernel, by decide +kernel⟩⟩

theorem witness_FieldsOfDisabledOwners :
    (∃ (s : State) (port : Port) (priv : Bool) (on : Bool), Reaches s port priv 0x0100 ∧ s.ctrl.compatA.get = (if on
      then 1 else 0)) ∧
    (∃ (s : State) (port : Port) (priv : Bool) (on : Bool), Reaches s port priv 0x0100 ∧ s.ctrl.compatA.get ≠ (if on
      then 1 else 0) ∧ s.stat.fwState.get ≠ 2) ∧
    (∃ (s : State) (port : Port) (priv : Bool) (on : Bool), Reaches s port priv 0x0100 ∧ s.ctrl.compatA.get ≠ (if on
      then 1 else 0) ∧ s.stat.fwState.get = 2 ∧ s.rst.phase = .running) ∧
    (∃ (s : State) (port : Port) (priv : Bool) (v : U32), Reaches s port priv 0x0140 ∧ s.power.asleep = false ∧
      s.apply.state = 3 ∧ (∀ i j : Fin 4, v.toNat / 2 ^ (3 * i.val) % 8 ≤ 4 ∧ (i ≠ j → v.toNat / 2 ^ (3 * i.val) % 8 ≠
      v.toNat / 2 ^ (3 * j.val) % 8))) ∧
    (∃ (s : State) (port : Port) (priv : Bool) (v : U32), Reaches s port priv 0x0140 ∧ s.power.asleep = false ∧
      s.apply.state = 3 ∧ (∀ i j : Fin 4, v.toNat / 2 ^ (3 * i.val) % 8 ≤ 4 ∧ (i ≠ j → v.toNat / 2 ^ (3 * i.val) % 8 ≠
      v.toNat / 2 ^ (3 * j.val) % 8))) ∧
    (∃ (s : State) (port : Port) (priv : Bool) (v : U32), Reaches s port priv 0x0140 ∧ s.power.asleep = false ∧
      s.apply.state = 3 ∧ (∃ i j : Fin 4, 4 < v.toNat / 2 ^ (3 * i.val) % 8 ∨ (i ≠ j ∧ v.toNat / 2 ^ (3 * i.val) % 8 =
      v.toNat / 2 ^ (3 * j.val) % 8))) ∧
    (∃ (s : State) (port : Port) (priv : Bool) (v : U32), Reaches s port priv 0x0140 ∧ s.power.asleep = false ∧
      s.apply.state = 3 ∧ (∃ i j : Fin 4, 4 < v.toNat / 2 ^ (3 * i.val) % 8 ∨ (i ≠ j ∧ v.toNat / 2 ^ (3 * i.val) % 8 =
      v.toNat / 2 ^ (3 * j.val) % 8))) ∧
    (∃ (s : State) (port : Port) (priv : Bool), Reaches s port priv 0x0140 ∧ s.power.asleep = false ∧ s.apply.state =
      0) :=
  ⟨⟨member, .fbp, true, false, by decide +kernel, by decide +kernel⟩,
   ⟨sFwOff, .fbp, true, true, by decide +kernel, by decide +kernel⟩,
   ⟨member, .fbp, true, true, by decide +kernel, by decide +kernel⟩,
   ⟨sApplyOff, .fbp, true, 0x688, by decide +kernel, by decide +kernel⟩,
   ⟨sApplyOff, .mgp, false, 0xFFFFF688, by decide +kernel, by decide +kernel⟩,
   ⟨sApplyOff, .fbp, true, 0, by decide +kernel, by decide +kernel⟩,
   ⟨sApplyOff, .mgp, false, 0xFFFFFFFF, by decide +kernel, by decide +kernel⟩,
   ⟨member, .fbp, true, by decide +kernel, by decide +kernel⟩⟩

theorem witness_TimeHighLatch :
    (∃ (s : State) (port : Port), ((port = .fbp ∧ s.ports.fbp = true) ∨ (port = .mgp ∧ s.ports.mgp = true) ∨ (port =
      .tap ∧ s.power.on = true ∧ s.fuses.lcs ≠ 1)) ∧ s.power.season.get ≠ 2) ∧
    (∃ (s : State) (port : Port), ((port = .fbp ∧ s.ports.fbp = true) ∨ (port = .mgp ∧ s.ports.mgp = true) ∨ (port =
      .tap ∧ s.power.on = true ∧ s.fuses.lcs ≠ 1)) ∧ s.power.season.get ≠ 2) ∧
    (∃ (s : State) (port : Port), (port = .lkp ∨ (port = .tap ∧ s.fuses.lcs = 1) ∨ s.power.season.get = 2)) ∧
    (∃ (s : State) (port : Port), (port = .lkp ∨ (port = .tap ∧ s.fuses.lcs = 1) ∨ s.power.season.get = 2)) :=
  ⟨⟨member, .fbp, by decide +kernel⟩,
   ⟨up, .tap, by decide +kernel⟩,
   ⟨member, .lkp, by decide +kernel⟩,
   ⟨winter up, .tap, by decide +kernel⟩⟩

theorem witness_RegisterWriteFields :
    (∃ (s : State) (port : Port) (priv : Bool), Reaches s port priv 0x0200) ∧
    (∃ (s : State) (port : Port) (priv : Bool), Reaches s port priv 0x0300) ∧
    (∃ (s : State) (port : Port) (priv : Bool), Reaches s port priv 0x2010) ∧
    (∃ (s : State) (port : Port) (priv : Bool), Reaches s port priv 0x4010) ∧
    (∃ (s : State) (port : Port) (priv : Bool), Reaches s port priv 0x5040) ∧
    (∃ (s : State) (port : Port) (priv : Bool), Reaches s port priv 0x5044) ∧
    (∃ (s : State) (port : Port) (priv : Bool) (off : U16), off ∈ [0x0000, 0x0004, 0x0210, 0x0214, 0x0230, 0x0240,
      0x2000, 0x2020, 0x3010, 0x5000, 0x6000, 0x7000] ∧ Reaches s port priv off.toNat) :=
  ⟨⟨member, .fbp, true, by decide +kernel⟩,
   ⟨member, .fbp, true, by decide +kernel⟩,
   ⟨member, .fbp, true, by decide +kernel⟩,
   ⟨member, .fbp, true, by decide +kernel⟩,
   ⟨member, .fbp, true, by decide +kernel⟩,
   ⟨member, .fbp, true, by decide +kernel⟩,
   ⟨member, .fbp, true, 0x0000, by decide +kernel, by decide +kernel⟩⟩

theorem witness_AccessesThatWriteNothing :
    (∃ (off : U16), off.toNat < 0x8000 ∧ off.toNat % 4 = 0 ∧ namedOffset off.toNat = false) ∧
    (∃ (off : U16), off.toNat < 0x8000 ∧ off.toNat % 4 = 0 ∧ namedOffset off.toNat = false) ∧
    (∃ (s : State) (port : Port) (off : U16), off.toNat < 0x8000 ∧ off.toNat % 4 ≠ 0 ∧ portOpen s port = true ∧
      s.log.entries = []) ∧
    (∃ (s : State) (port : Port) (off : U16), off.toNat < 0x8000 ∧ off.toNat % 4 ≠ 0 ∧ portOpen s port = true ∧
      s.log.entries = []) ∧
    (∃ (s : State) (c : Instr), (c ∈ [.capEn .fbp false true, .capEn .fbp false false, .foldEn .fbp false true, .foldEn
      .fbp false false, .applyEn .fbp false true, .applyEn .fbp false false, .exchEn .fbp false true, .exchEn .fbp
      false false, .compatA .fbp false true, .compatA .fbp false false, .clearOvf .fbp false, .cntClear .fbp false] ∨
      (∃ n, c = .errRel .fbp false n) ∨ (∃ v, c = .applyMapWrite .fbp false v) ∨ (∃ v off, c = .registerWrite .fbp
      false off v ∧ off ∈ [0x0100, 0x0140, 0x0300, 0x2004, 0x2008, 0x3000, 0x4010, 0x5040, 0x5044])) ∧ s.ports.fbp =
      true ∧ s.log.entries.length < 256 ∧ (∀ e ∈ s.log.entries, e.cls ≠ 10)) ∧
    (∃ (s : State) (c : Instr), (c ∈ [.capEn .fbp false true, .capEn .fbp false false, .foldEn .fbp false true, .foldEn
      .fbp false false, .applyEn .fbp false true, .applyEn .fbp false false, .exchEn .fbp false true, .exchEn .fbp
      false false, .compatA .fbp false true, .compatA .fbp false false, .clearOvf .fbp false, .cntClear .fbp false] ∨
      (∃ n, c = .errRel .fbp false n) ∨ (∃ v, c = .applyMapWrite .fbp false v) ∨ (∃ v off, c = .registerWrite .fbp
      false off v ∧ off ∈ [0x0100, 0x0140, 0x0300, 0x2004, 0x2008, 0x3000, 0x4010, 0x5040, 0x5044])) ∧ s.ports.fbp =
      true ∧ s.log.entries.length < 256 ∧ (∀ e ∈ s.log.entries, e.cls ≠ 10)) :=
  ⟨⟨0x14, by decide +kernel⟩,
   ⟨0x188c, by decide +kernel⟩,
   ⟨member, .fbp, 0x1, by decide +kernel⟩,
   ⟨winter up, .tap, 0x109, by decide +kernel⟩,
   ⟨member, .capEn .fbp false true, by decide +kernel⟩,
   ⟨winter up, .compatA .fbp false true, by decide +kernel⟩⟩

theorem witness_CommandOutsidePermissionIsRefused :
    ∃ (s : State) (c : Instr) (op : Nat) (mb : Fin 8) (priv : Bool) (cmd : Line), mailboxForm c = some (op, .issue mb
      (portOf mb) priv cmd) ∧ Prompt s mb op cmd ∧ ¬ Permitted mb priv op :=
  ⟨up, .planLoad (.issue 0 .fbp false (c8 0x85 [(8,8,5)])) plan0, 5, 0, false, c8 0x85 [(8,8,5)], by decide +kernel,
    by decide +kernel, by decide +kernel⟩

theorem witness_CommandIsCheckedBeforeItRuns :
    (∃ (s : State) (c : Instr) (op : Nat) (mb : Fin 8) (priv : Bool) (cmd : Line) (e : CatEntry) (i : _), mailboxForm c
      = some (op, .issue mb (portOf mb) priv cmd) ∧ Prompt s mb op cmd ∧ Permitted mb priv op ∧ catalogue op = some e ∧
      (e.same = true ∨ 128 ≤ fld cmd 0 1) ∧ fld cmd 1 1 = 0 ∧ 4 ≤ i ∧ i < 64 ∧ (∀ p ∈ e.params, i < p.1 ∨ p.1 + p.2 ≤
      i) ∧ lineByte cmd i ≠ 0 ∧ (∀ j, 4 ≤ j → j < i → (∀ p ∈ e.params, j < p.1 ∨ p.1 + p.2 ≤ j) → lineByte cmd j = 0)) ∧
    (∃ (s : State) (c : Instr) (op : Nat) (mb : Fin 8) (priv : Bool) (cmd : Line) (e : CatEntry) (i : _), mailboxForm c
      = some (op, .issue mb (portOf mb) priv cmd) ∧ Prompt s mb op cmd ∧ Permitted mb priv op ∧ catalogue op = some e ∧
      (e.same = true ∨ 128 ≤ fld cmd 0 1) ∧ fld cmd 1 1 = 0 ∧ 4 ≤ i ∧ i < 64 ∧ (∀ p ∈ e.params, i < p.1 ∨ p.1 + p.2 ≤
      i) ∧ lineByte cmd i ≠ 0 ∧ (∀ j, 4 ≤ j → j < i → (∀ p ∈ e.params, j < p.1 ∨ p.1 + p.2 ≤ j) → lineByte cmd j = 0)) ∧
    (∃ (s : State) (c : Instr) (op : Nat) (mb : Fin 8) (priv : Bool) (cmd : Line) (e : CatEntry), mailboxForm c = some
      (op, .issue mb (portOf mb) priv cmd) ∧ Prompt s mb op cmd ∧ Permitted mb priv op ∧ catalogue op = some e ∧
      badByte e cmd = none ∧ s.bist.run = none ∧ s.job.state.toNat ≤ 4 ∧ ¬ StateTakes s.job.state.toNat op) ∧
    (∃ (s : State) (c : Instr) (op : Nat) (mb : Fin 8) (priv : Bool) (cmd : Line) (e : CatEntry), mailboxForm c = some
      (op, .issue mb (portOf mb) priv cmd) ∧ Prompt s mb op cmd ∧ Permitted mb priv op ∧ catalogue op = some e ∧
      badByte e cmd = none ∧ s.bist.run = none ∧ s.job.state.toNat ≤ 4 ∧ ¬ StateTakes s.job.state.toNat op) ∧
    (∃ (s : State) (c : Instr) (op : Nat) (mb : Fin 8) (priv : Bool) (cmd : Line) (e : CatEntry) (n : _), mailboxForm c
      = some (op, .issue mb (portOf mb) priv cmd) ∧ Prompt s mb op cmd ∧ Permitted mb priv op ∧ catalogue op = some e ∧
      e.same = false ∧ cmd = mkLine [(0, 1, op), (2, 2, fld cmd 2 2), (4, 2, n)] ∧ n < 65536 ∧ s.bist.run = none ∧
      StateTakes s.job.state.toNat op ∧ s.power.season.get = 0 ∧ s.job.plan = none) ∧
    (∃ (s : State) (c : Instr) (op : Nat) (mb : Fin 8) (priv : Bool) (cmd : Line) (e : CatEntry) (n : _), mailboxForm c
      = some (op, .issue mb (portOf mb) priv cmd) ∧ Prompt s mb op cmd ∧ Permitted mb priv op ∧ catalogue op = some e ∧
      e.same = false ∧ cmd = mkLine [(0, 1, op), (2, 2, fld cmd 2 2), (4, 2, n)] ∧ n < 65536 ∧ s.bist.run = none ∧
      StateTakes s.job.state.toNat op ∧ s.power.season.get = 0 ∧ s.job.plan = none) ∧
    (∃ (s : State) (c : Instr) (op : Nat) (mb : Fin 8) (priv : Bool) (cmd : Line) (e : CatEntry) (n : _) (p : _),
      mailboxForm c = some (op, .issue mb (portOf mb) priv cmd) ∧ Prompt s mb op cmd ∧ Permitted mb priv op ∧ catalogue
      op = some e ∧ e.same = false ∧ cmd = mkLine [(0, 1, op), (2, 2, fld cmd 2 2), (4, 2, n)] ∧ n < 65536 ∧ s.bist.run
      = none ∧ StateTakes s.job.state.toNat op ∧ s.power.season.get = 0 ∧ s.job.plan = some p ∧ op ≠ 0x07 ∧ (∀ f ∈
      p.profiles, f.rank ≠ ownRank s ∨ f.op.toNat ≠ op ∨ f.number ≠ n)) ∧
    (∃ (s : State) (c : Instr) (op : Nat) (mb : Fin 8) (priv : Bool) (cmd : Line) (e : CatEntry) (n : _) (p : _),
      mailboxForm c = some (op, .issue mb (portOf mb) priv cmd) ∧ Prompt s mb op cmd ∧ Permitted mb priv op ∧ catalogue
      op = some e ∧ e.same = false ∧ cmd = mkLine [(0, 1, op), (2, 2, fld cmd 2 2), (4, 2, n)] ∧ n < 65536 ∧ s.bist.run
      = none ∧ StateTakes s.job.state.toNat op ∧ s.power.season.get = 0 ∧ s.job.plan = some p ∧ op ≠ 0x07 ∧ (∀ f ∈
      p.profiles, f.rank ≠ ownRank s ∨ f.op.toNat ≠ op ∨ f.number ≠ n)) :=
  ⟨⟨up, .regionDeclare (.issue 0 .fbp true (c8 0x86 [(63,1,3)])), 6, 0, true, c8 0x86 [(63,1,3)], (catalogue 6).getD
     ⟨.info, false, true, []⟩, 63, by decide +kernel, by decide +kernel, by decide +kernel, by decide +kernel⟩,
   ⟨plannedB, .coveForm (.issue 5 .mgp false (c8 0x87 [(4,1,3)])), 7, 5, false, c8 0x87 [(4,1,3)], (catalogue 7).getD
     ⟨.info, false, true, []⟩, 4, by decide +kernel, by decide +kernel, by decide +kernel, by decide +kernel⟩,
   ⟨up, .tideOpen (.issue 0 .fbp true (c8 0x88 [])), 8, 0, true, c8 0x88 [], (catalogue 8).getD ⟨.info, false, true,
     []⟩, by and_intros <;> decide +kernel⟩,
   ⟨plannedB, .tideOpen (.issue 5 .mgp false (c8 0x88 [])), 8, 5, false, c8 0x88 [], (catalogue 8).getD ⟨.info, false,
     true, []⟩, by and_intros <;> decide +kernel⟩,
   ⟨plannedB, .applyRun (.issue 0 .fbp true (c8 0x0c [(4,2,65535)])), 0xc, 0, true, c8 0x0c [(4,2,65535)], (catalogue
     0xc).getD ⟨.info, false, true, []⟩, 65535, by and_intros <;> decide +kernel⟩,
   ⟨plannedB, .coveForm (.issue 5 .mgp false (c8 0x07 [(4,2,3)])), 7, 5, false, c8 0x07 [(4,2,3)], (catalogue 7).getD
     ⟨.info, false, true, []⟩, 3, by and_intros <;> decide +kernel⟩,
   ⟨planned, .applyRun (.issue 0 .fbp true (c8 0x0c [(4,2,65535)])), 0xc, 0, true, c8 0x0c [(4,2,65535)], (catalogue
     0xc).getD ⟨.info, false, true, []⟩, 65535, plan0, by and_intros <;> decide +kernel⟩,
   ⟨member, .applyRun (.issue 5 .mgp false (c8 0x0c [(4,2,65535)])), 0xc, 5, false, c8 0x0c [(4,2,65535)], (catalogue
     0xc).getD ⟨.info, false, true, []⟩, 65535, plan0, by and_intros <;> decide +kernel⟩⟩

theorem witness_MailboxGoAckAndOverrun :
    (∃ (s : State) (mb : Fin 8) (port : Port), port = portOf mb ∧ mb.val ≤ 5 ∧ (mb.val ≤ 4 → s.ports.fbp = true) ∧
      (mb.val = 5 → s.ports.mgp = true) ∧ s.stat.fwState.get = 2 ∧ s.power.season.get ≠ 2) ∧
    (∃ (s : State) (mb : Fin 8) (port : Port), port = portOf mb ∧ mb.val ≤ 5 ∧ (mb.val ≤ 4 → s.ports.fbp = true) ∧
      (mb.val = 5 → s.ports.mgp = true) ∧ s.stat.fwState.get = 2 ∧ s.power.season.get ≠ 2) ∧
    (∃ (s : State) (mb : Fin 8) (port : Port) (off : U16), port = portOf mb ∧ mb.val ≤ 5 ∧ (mb.val ≤ 4 → s.ports.fbp =
      true) ∧ (mb.val = 5 → s.ports.mgp = true) ∧ s.stat.fwState.get = 2 ∧ s.power.season.get ≠ 2 ∧ off.toNat = 0x1084
      + 0x100 * mb.val ∧ (box s mb).busy = true) ∧
    (∃ (s : State) (mb : Fin 8) (port : Port) (off : U16), port = portOf mb ∧ mb.val ≤ 5 ∧ (mb.val ≤ 4 → s.ports.fbp =
      true) ∧ (mb.val = 5 → s.ports.mgp = true) ∧ s.stat.fwState.get = 2 ∧ s.power.season.get ≠ 2 ∧ off.toNat = 0x1084
      + 0x100 * mb.val ∧ (box s mb).busy = false ∧ (∃ e, catalogue (fld (box s mb).cmd 0 1 % 128) = some e) ∧ fld (box
      s mb).cmd 0 1 % 128 ≠ 9) ∧
    (∃ (s : State) (mb : Fin 8) (port : Port) (off : U16), port = portOf mb ∧ mb.val ≤ 5 ∧ (mb.val ≤ 4 → s.ports.fbp =
      true) ∧ (mb.val = 5 → s.ports.mgp = true) ∧ s.stat.fwState.get = 2 ∧ s.power.season.get ≠ 2 ∧ off.toNat = 0x1084
      + 0x100 * mb.val ∧ (box s mb).busy = false ∧ (∃ e, catalogue (fld (box s mb).cmd 0 1 % 128) = some e) ∧ fld (box
      s mb).cmd 0 1 % 128 ≠ 9) ∧
    (∃ (s : State) (mb : Fin 8) (port : Port) (off : U16) (j : Nat), port = portOf mb ∧ mb.val ≤ 5 ∧ (mb.val ≤ 4 →
      s.ports.fbp = true) ∧ (mb.val = 5 → s.ports.mgp = true) ∧ s.stat.fwState.get = 2 ∧ s.power.season.get ≠ 2 ∧ j <
      16 ∧ off.toNat = 0x1000 + 0x100 * mb.val + 4 * j ∧ (box s mb).busy = true) ∧
    (∃ (s : State) (mb : Fin 8) (port : Port) (off : U16) (j : Nat), port = portOf mb ∧ mb.val ≤ 5 ∧ (mb.val ≤ 4 →
      s.ports.fbp = true) ∧ (mb.val = 5 → s.ports.mgp = true) ∧ s.stat.fwState.get = 2 ∧ s.power.season.get ≠ 2 ∧ j <
      16 ∧ off.toNat = 0x1000 + 0x100 * mb.val + 4 * j ∧ (box s mb).busy = false) ∧
    (∃ (s : State) (mb : Fin 8) (port : Port) (off : U16) (j : Nat), port = portOf mb ∧ mb.val ≤ 5 ∧ (mb.val ≤ 4 →
      s.ports.fbp = true) ∧ (mb.val = 5 → s.ports.mgp = true) ∧ s.stat.fwState.get = 2 ∧ s.power.season.get ≠ 2 ∧ j <
      16 ∧ off.toNat = 0x1000 + 0x100 * mb.val + 4 * j ∧ (box s mb).busy = false) ∧
    (∃ (s : State) (mb : Fin 8) (port : Port) (off : U16), port = portOf mb ∧ mb.val ≤ 5 ∧ (mb.val ≤ 4 → s.ports.fbp =
      true) ∧ (mb.val = 5 → s.ports.mgp = true) ∧ s.stat.fwState.get = 2 ∧ s.power.season.get ≠ 2 ∧ off.toNat = 0x1080
      + 0x100 * mb.val) ∧
    (∃ (s : State) (mb : Fin 8) (port : Port) (off : U16), port = portOf mb ∧ mb.val ≤ 5 ∧ (mb.val ≤ 4 → s.ports.fbp =
      true) ∧ (mb.val = 5 → s.ports.mgp = true) ∧ s.stat.fwState.get = 2 ∧ s.power.season.get ≠ 2 ∧ off.toNat = 0x1080
      + 0x100 * mb.val) :=
  ⟨⟨up, 0, .fbp, by decide +kernel⟩,
   ⟨setBox member 5 { box member 5 with cmd := c8 0x81 [], done := true, overrun := true }, 5, .mgp, by decide +kernel⟩,
   ⟨comp, 1, .fbp, 0x1184, by decide +kernel⟩,
   ⟨setBox member 0 { box member 0 with cmd := c8 0x81 [] }, 0, .fbp, 0x1084,
     by and_intros <;> first | exact some_of (by decide +kernel) | decide +kernel⟩,
   ⟨setBox member 5 { box member 5 with cmd := c8 0x81 [], done := true, overrun := true }, 5, .mgp, 0x1584,
     by and_intros <;> first | exact some_of (by decide +kernel) | decide +kernel⟩,
   ⟨comp, 1, .fbp, 0x1104, 1, by decide +kernel, by decide +kernel⟩,
   ⟨up, 0, .fbp, 0x1000, 0, by decide +kernel, by decide +kernel⟩,
   ⟨setBox member 5 { box member 5 with cmd := c8 0x81 [], done := true, overrun := true }, 5, .mgp, 0x1500, 0,
     by decide +kernel, by decide +kernel⟩,
   ⟨up, 0, .fbp, 0x1080, by decide +kernel⟩,
   ⟨setBox member 5 { box member 5 with cmd := c8 0x81 [], done := true, overrun := true }, 5, .mgp, 0x1580,
     by decide +kernel⟩⟩

theorem witness_InfoPartitionAndAbort :
    (∃ (s : State) (mb : Fin 8) (priv : Bool) (cmd : Line), Handled s mb priv 0x01 cmd) ∧
    (∃ (s : State) (mb : Fin 8) (priv : Bool) (cmd : Line), Handled s mb priv 0x02 cmd ∧ 2 < fld cmd 8 1) ∧
    (∃ (s : State) (mb : Fin 8) (priv : Bool) (cmd : Line), Handled s mb priv 0x02 cmd ∧ 2 < fld cmd 8 1) ∧
    (∃ (s : State) (mb : Fin 8) (priv : Bool) (cmd : Line), Handled s mb priv 0x02 cmd ∧ fld cmd 8 1 = 0 ∧ fld cmd 16 8
      = 0) ∧
    (∃ (s : State) (mb : Fin 8) (priv : Bool) (cmd : Line), Handled s mb priv 0x02 cmd ∧ fld cmd 8 1 = 1 ∧ destOk s
      (fld cmd 16 8) 4224 = true ∧ s.tide.stepRecord = none) ∧
    (∃ (s : State) (mb : Fin 8) (priv : Bool) (cmd : Line) (tide : U48) (bs : List Byte), Handled s mb priv 0x02 cmd ∧
      fld cmd 8 1 = 1 ∧ destOk s (fld cmd 16 8) 4224 = true ∧ s.tide.stepRecord = some (tide, bs) ∧ bs.length = 4224 ∧
      s.cap.filter = [] ∧ s.tier.staged = [] ∧ s.tier.rows = [] ∧ fld cmd 16 8 + 4224 ≤ 2 ^ 64) ∧
    (∃ (s : State) (mb : Fin 8) (priv : Bool) (cmd : Line), Handled s mb priv 0x03 cmd ∧ 255 < fld cmd 8 2) ∧
    (∃ (s : State) (mb : Fin 8) (priv : Bool) (cmd : Line), Handled s mb priv 0x03 cmd ∧ 255 < fld cmd 8 2) ∧
    (∃ (s : State) (mb : Fin 8) (priv : Bool) (cmd : Line), Handled s mb priv 0x03 cmd ∧ fld cmd 8 2 ≤ 255 ∧ (fld cmd
      10 2 = 0 ∨ 256 < fld cmd 10 2)) ∧
    (∃ (s : State) (mb : Fin 8) (priv : Bool) (cmd : Line), Handled s mb priv 0x03 cmd ∧ fld cmd 8 2 ≤ 255 ∧ (fld cmd
      10 2 = 0 ∨ 256 < fld cmd 10 2)) ∧
    (∃ (s : State) (mb : Fin 8) (priv : Bool) (cmd : Line) (n : Nat), Handled s mb priv 0x03 cmd ∧ s.log.entries.length
      ≤ 256 ∧ fld cmd 8 2 = s.log.oldest.toNat ∧ 1 ≤ fld cmd 10 2 ∧ fld cmd 10 2 ≤ 256 ∧ n = min (fld cmd 10 2)
      s.log.entries.length ∧ destOk s (fld cmd 16 8) (32 * n) = true ∧ s.cap.filter = [] ∧ s.tier.staged = [] ∧
      s.tier.rows = [] ∧ fld cmd 16 8 + 32 * n ≤ 2 ^ 64) ∧
    (∃ (s : State) (mb : Fin 8) (priv : Bool) (cmd : Line) (n : Nat), Handled s mb priv 0x03 cmd ∧ s.log.entries.length
      ≤ 256 ∧ fld cmd 8 2 = s.log.oldest.toNat ∧ 1 ≤ fld cmd 10 2 ∧ fld cmd 10 2 ≤ 256 ∧ n = min (fld cmd 10 2)
      s.log.entries.length ∧ destOk s (fld cmd 16 8) (32 * n) = true ∧ s.cap.filter = [] ∧ s.tier.staged = [] ∧
      s.tier.rows = [] ∧ fld cmd 16 8 + 32 * n ≤ 2 ^ 64) ∧
    (∃ (s : State) (mb : Fin 8) (priv : Bool) (cmd : Line) (p : Partition), Handled s mb priv 0x04 cmd ∧ p =
      ⟨BitVec.ofNat 16 (fld cmd 8 2), BitVec.ofNat 32 (fld cmd 12 4), (fld cmd 16 2, fld cmd 18 2, fld cmd 20 2), (fld
      cmd 24 2, fld cmd 26 2, fld cmd 28 2), (fld cmd 32 2, fld cmd 34 2, fld cmd 36 2), fld cmd 38 1⟩ ∧ (p.hi.1 <
      p.lo.1 ∨ p.hi.2.1 < p.lo.2.1 ∨ p.hi.2.2 < p.lo.2.2)) ∧
    (∃ (s : State) (mb : Fin 8) (priv : Bool) (cmd : Line) (p : Partition), Handled s mb priv 0x04 cmd ∧ p =
      ⟨BitVec.ofNat 16 (fld cmd 8 2), BitVec.ofNat 32 (fld cmd 12 4), (fld cmd 16 2, fld cmd 18 2, fld cmd 20 2), (fld
      cmd 24 2, fld cmd 26 2, fld cmd 28 2), (fld cmd 32 2, fld cmd 34 2, fld cmd 36 2), fld cmd 38 1⟩ ∧ (p.hi.1 <
      p.lo.1 ∨ p.hi.2.1 < p.lo.2.1 ∨ p.hi.2.2 < p.lo.2.2)) ∧
    (∃ (s : State) (mb : Fin 8) (priv : Bool) (cmd : Line) (p : Partition), Handled s mb priv 0x04 cmd ∧ p =
      ⟨BitVec.ofNat 16 (fld cmd 8 2), BitVec.ofNat 32 (fld cmd 12 4), (fld cmd 16 2, fld cmd 18 2, fld cmd 20 2), (fld
      cmd 24 2, fld cmd 26 2, fld cmd 28 2), (fld cmd 32 2, fld cmd 34 2, fld cmd 36 2), fld cmd 38 1⟩ ∧ p.lo.1 ≤
      p.hi.1 ∧ p.lo.2.1 ≤ p.hi.2.1 ∧ p.lo.2.2 ≤ p.hi.2.2 ∧ inBox p p.own.1 p.own.2.1 p.own.2.2 = false) ∧
    (∃ (s : State) (mb : Fin 8) (priv : Bool) (cmd : Line) (p : Partition), Handled s mb priv 0x04 cmd ∧ p =
      ⟨BitVec.ofNat 16 (fld cmd 8 2), BitVec.ofNat 32 (fld cmd 12 4), (fld cmd 16 2, fld cmd 18 2, fld cmd 20 2), (fld
      cmd 24 2, fld cmd 26 2, fld cmd 28 2), (fld cmd 32 2, fld cmd 34 2, fld cmd 36 2), fld cmd 38 1⟩ ∧ p.lo.1 ≤
      p.hi.1 ∧ p.lo.2.1 ≤ p.hi.2.1 ∧ p.lo.2.2 ≤ p.hi.2.2 ∧ inBox p p.own.1 p.own.2.1 p.own.2.2 = false) ∧
    (∃ (s : State) (mb : Fin 8) (priv : Bool) (cmd : Line) (p : Partition), Handled s mb priv 0x04 cmd ∧ p =
      ⟨BitVec.ofNat 16 (fld cmd 8 2), BitVec.ofNat 32 (fld cmd 12 4), (fld cmd 16 2, fld cmd 18 2, fld cmd 20 2), (fld
      cmd 24 2, fld cmd 26 2, fld cmd 28 2), (fld cmd 32 2, fld cmd 34 2, fld cmd 36 2), fld cmd 38 1⟩ ∧ p.lo.1 ≤
      p.hi.1 ∧ p.lo.2.1 ≤ p.hi.2.1 ∧ p.lo.2.2 ≤ p.hi.2.2 ∧ inBox p p.own.1 p.own.2.1 p.own.2.2 = true ∧ p.die ≠
      s.fuses.die.toNat) ∧
    (∃ (s : State) (mb : Fin 8) (priv : Bool) (cmd : Line) (p : Partition), Handled s mb priv 0x04 cmd ∧ p =
      ⟨BitVec.ofNat 16 (fld cmd 8 2), BitVec.ofNat 32 (fld cmd 12 4), (fld cmd 16 2, fld cmd 18 2, fld cmd 20 2), (fld
      cmd 24 2, fld cmd 26 2, fld cmd 28 2), (fld cmd 32 2, fld cmd 34 2, fld cmd 36 2), fld cmd 38 1⟩ ∧ p.lo.1 ≤
      p.hi.1 ∧ p.lo.2.1 ≤ p.hi.2.1 ∧ p.lo.2.2 ≤ p.hi.2.2 ∧ inBox p p.own.1 p.own.2.1 p.own.2.2 = true ∧ p.die ≠
      s.fuses.die.toNat) ∧
    (∃ (s : State) (mb : Fin 8) (priv : Bool) (cmd : Line) (p : Partition), Handled s mb priv 0x04 cmd ∧ p =
      ⟨BitVec.ofNat 16 (fld cmd 8 2), BitVec.ofNat 32 (fld cmd 12 4), (fld cmd 16 2, fld cmd 18 2, fld cmd 20 2), (fld
      cmd 24 2, fld cmd 26 2, fld cmd 28 2), (fld cmd 32 2, fld cmd 34 2, fld cmd 36 2), fld cmd 38 1⟩ ∧ p.lo.1 ≤
      p.hi.1 ∧ p.lo.2.1 ≤ p.hi.2.1 ∧ p.lo.2.2 ≤ p.hi.2.2 ∧ inBox p p.own.1 p.own.2.1 p.own.2.2 = true ∧ p.die =
      s.fuses.die.toNat) ∧
    (∃ (s : State) (mb : Fin 8) (priv : Bool) (cmd : Line) (p : Partition), Handled s mb priv 0x04 cmd ∧ p =
      ⟨BitVec.ofNat 16 (fld cmd 8 2), BitVec.ofNat 32 (fld cmd 12 4), (fld cmd 16 2, fld cmd 18 2, fld cmd 20 2), (fld
      cmd 24 2, fld cmd 26 2, fld cmd 28 2), (fld cmd 32 2, fld cmd 34 2, fld cmd 36 2), fld cmd 38 1⟩ ∧ p.lo.1 ≤
      p.hi.1 ∧ p.lo.2.1 ≤ p.hi.2.1 ∧ p.lo.2.2 ≤ p.hi.2.2 ∧ inBox p p.own.1 p.own.2.1 p.own.2.2 = true ∧ p.die =
      s.fuses.die.toNat) ∧
    (∃ (s : State) (mb : Fin 8) (priv : Bool) (cmd : Line), Handled s mb priv 0x17 cmd ∧ (8 ≤ fld cmd 8 1 ∨ fld cmd 8 1
      = mb.val)) ∧
    (∃ (s : State) (mb : Fin 8) (priv : Bool) (cmd : Line), Handled s mb priv 0x17 cmd ∧ (8 ≤ fld cmd 8 1 ∨ fld cmd 8 1
      = mb.val)) ∧
    (∃ (s : State) (mb : Fin 8) (priv : Bool) (cmd : Line) (named : Fin 8), Handled s mb priv 0x17 cmd ∧ fld cmd 8 1 =
      named.val ∧ named ≠ mb ∧ (mb.val < 5 ∧ 5 ≤ named.val ∨ mb.val = 6)) ∧
    (∃ (s : State) (mb : Fin 8) (priv : Bool) (cmd : Line) (named : Fin 8), Handled s mb priv 0x17 cmd ∧ fld cmd 8 1 =
      named.val ∧ named ≠ mb ∧ (mb.val < 5 ∧ 5 ≤ named.val ∨ mb.val = 6)) ∧
    (∃ (s : State) (mb : Fin 8) (priv : Bool) (cmd : Line) (named : Fin 8), Handled s mb priv 0x17 cmd ∧ fld cmd 8 1 =
      named.val ∧ named ≠ mb ∧ (mb.val < 5 ∧ named.val < 5 ∨ mb.val = 5) ∧ (box s named).tag.toNat ≠ fld cmd 10 2) ∧
    (∃ (s : State) (mb : Fin 8) (priv : Bool) (cmd : Line) (named : Fin 8), Handled s mb priv 0x17 cmd ∧ fld cmd 8 1 =
      named.val ∧ named ≠ mb ∧ (mb.val < 5 ∧ named.val < 5 ∨ mb.val = 5) ∧ (box s named).tag.toNat ≠ fld cmd 10 2) ∧
    (∃ (s : State) (mb : Fin 8) (priv : Bool) (cmd : Line) (named : Fin 8), Handled s mb priv 0x17 cmd ∧ fld cmd 8 1 =
      named.val ∧ named ≠ mb ∧ (mb.val < 5 ∧ named.val < 5 ∨ mb.val = 5) ∧ (box s named).tag.toNat = fld cmd 10 2 ∧
      (box s named).busy = false) ∧
    (∃ (s : State) (mb : Fin 8) (priv : Bool) (cmd : Line) (named : Fin 8), Handled s mb priv 0x17 cmd ∧ fld cmd 8 1 =
      named.val ∧ named ≠ mb ∧ (mb.val < 5 ∧ named.val < 5 ∨ mb.val = 5) ∧ (box s named).tag.toNat = fld cmd 10 2 ∧
      (box s named).busy = false) ∧
    (∃ (s : State) (mb : Fin 8) (priv : Bool) (cmd : Line) (named : Fin 8), Handled s mb priv 0x17 cmd ∧ fld cmd 8 1 =
      named.val ∧ named ≠ mb ∧ (mb.val < 5 ∧ named.val < 5 ∨ mb.val = 5) ∧ (box s named).tag.toNat = fld cmd 10 2 ∧
      (box s named).busy = true ∧ (box s named).op = 0x10) ∧
    (∃ (s : State) (mb : Fin 8) (priv : Bool) (cmd : Line) (named : Fin 8), Handled s mb priv 0x17 cmd ∧ fld cmd 8 1 =
      named.val ∧ named ≠ mb ∧ (mb.val < 5 ∧ named.val < 5 ∨ mb.val = 5) ∧ (box s named).tag.toNat = fld cmd 10 2 ∧
      (box s named).busy = true ∧ (box s named).op = 0x10) ∧
    (∃ (s : State) (mb : Fin 8) (priv : Bool) (cmd : Line) (named : Fin 8) (c : Compress), Handled s mb priv 0x17 cmd ∧
      fld cmd 8 1 = named.val ∧ named ≠ mb ∧ (mb.val < 5 ∧ named.val < 5 ∨ mb.val = 5) ∧ (box s named).tag.toNat = fld
      cmd 10 2 ∧ (box s named).busy = true ∧ (box s named).op = 0x0E ∧ s.exch.compress = some c ∧ c.stop = .none) ∧
    (∃ (s : State) (mb : Fin 8) (priv : Bool) (cmd : Line) (named : Fin 8) (c : Compress), Handled s mb priv 0x17 cmd ∧
      fld cmd 8 1 = named.val ∧ named ≠ mb ∧ (mb.val < 5 ∧ named.val < 5 ∨ mb.val = 5) ∧ (box s named).tag.toNat = fld
      cmd 10 2 ∧ (box s named).busy = true ∧ (box s named).op = 0x0E ∧ s.exch.compress = some c ∧ c.stop = .none) :=
  ⟨⟨up, 0, true, (cmds0.getD 0 0), handled_of (by decide +kernel)⟩,
   ⟨up, 0, true, (cmds0.getD 4 0), handled_of (by decide +kernel), by decide +kernel⟩,
   ⟨planned, 6, false, (cmds0.getD 4 0), handled_of (by decide +kernel), by decide +kernel⟩,
   ⟨up, 0, true, (cmds0.getD 2 0), handled_of (by decide +kernel), by decide +kernel⟩,
   ⟨up, 0, true, (cmds0.getD 3 0), handled_of (by decide +kernel), by decide +kernel⟩,
   ⟨logged, 0, true, (cmds0.getD 3 0), 3, List.replicate 4224 7, handled_of (by decide +kernel), by decide +kernel,
     by decide +kernel, rfl, List.length_replicate, by decide +kernel⟩,
   ⟨up, 0, true, (cmds0.getD 8 0), handled_of (by decide +kernel), by decide +kernel⟩,
   ⟨planned, 6, false, (cmds0.getD 8 0), handled_of (by decide +kernel), by decide +kernel⟩,
   ⟨up, 0, true, (cmds0.getD 9 0), handled_of (by decide +kernel), by decide +kernel⟩,
   ⟨planned, 6, false, (cmds0.getD 9 0), handled_of (by decide +kernel), by decide +kernel⟩,
   ⟨logged, 0, true, (cmds0.getD 6 0), 2, handled_of (by decide +kernel), by decide +kernel, by decide +kernel,
     by decide +kernel⟩,
   ⟨logged, 6, false, (cmds0.getD 7 0), 2, handled_of (by decide +kernel), by decide +kernel, by decide +kernel,
     by decide +kernel⟩,
   ⟨up, 5, true, (cmds0.getD 12 0), ⟨7,0,(1,0,0),(0,0,0),(0,0,0),0⟩, handled_of (by decide +kernel), by decide +kernel⟩,
   ⟨partd, 5, false, (cmds0.getD 12 0), ⟨7,0,(1,0,0),(0,0,0),(0,0,0),0⟩, handled_of (by decide +kernel),
     by decide +kernel⟩,
   ⟨up, 5, true, (cmds0.getD 13 0), ⟨7,0,(0,0,0),(0,0,0),(1,0,0),0⟩, handled_of (by decide +kernel), by decide +kernel⟩,
   ⟨partd, 5, false, (cmds0.getD 13 0), ⟨7,0,(0,0,0),(0,0,0),(1,0,0),0⟩, handled_of (by decide +kernel),
     by decide +kernel⟩,
   ⟨up, 5, true, (cmds0.getD 11 0), ⟨7,0x51,(0,0,0),(1,0,0),(0,0,0),1⟩, handled_of (by decide +kernel),
     by decide +kernel⟩,
   ⟨partd, 5, false, (cmds0.getD 11 0), ⟨7,0x51,(0,0,0),(1,0,0),(0,0,0),1⟩, handled_of (by decide +kernel),
     by decide +kernel⟩,
   ⟨up, 5, true, (cmds0.getD 10 0), part0, handled_of (by decide +kernel), by decide +kernel⟩,
   ⟨partd, 5, false, (cmds0.getD 10 0), ⟨7,0x51,(0,0,0),(1,0,0),(0,0,0),0⟩, handled_of (by decide +kernel),
     by decide +kernel⟩,
   ⟨up, 0, true, (cmds0.getD 14 0), handled_of (by decide +kernel), by decide +kernel⟩,
   ⟨planned, 6, false, (cmds0.getD 19 0), handled_of (by decide +kernel), by decide +kernel⟩,
   ⟨up, 0, true, (cmds0.getD 18 0), 6, handled_of (by decide +kernel), by decide +kernel⟩,
   ⟨planned, 6, false, (cmds0.getD 21 0), 3, handled_of (by decide +kernel), by decide +kernel⟩,
   ⟨up, 0, true, (cmds0.getD 16 0), 1, handled_of (by decide +kernel), by decide +kernel⟩,
   ⟨planned, 5, false, (cmds0.getD 18 0), 6, handled_of (by decide +kernel), by decide +kernel⟩,
   ⟨up, 0, true, (cmds0.getD 20 0), 1, handled_of (by decide +kernel), by decide +kernel⟩,
   ⟨planned, 5, false, (cmds0.getD 21 0), 3, handled_of (by decide +kernel), by decide +kernel⟩,
   ⟨comp, 5, true, (cmds0.getD 18 0), 6, handled_of (by decide +kernel), by decide +kernel⟩,
   ⟨comp2, 5, false, (cmds0.getD 16 0), 1, handled_of (by decide +kernel), by decide +kernel⟩,
   ⟨comp, 0, true, (cmds0.getD 16 0), 1, comp0, handled_of (by decide +kernel), by decide +kernel⟩,
   ⟨comp, 5, false, (cmds0.getD 16 0), 1, comp0, handled_of (by decide +kernel), by decide +kernel⟩⟩

theorem witness_CovesFormAndAreReleased :
    (∃ (s : State) (mb : Fin 8) (priv : Bool) (cmd : Line) (p : Plan) (c : CovePlan) (pos : Nat), Handled s mb priv
      0x07 cmd ∧ s.job.plan = some p ∧ coveOfRank p (ownRank s) = some (c, pos) ∧ pos < 16 ∧ c.coveId.toNat ≠ fld cmd 8
      2) ∧
    (∃ (s : State) (mb : Fin 8) (priv : Bool) (cmd : Line) (p : Plan) (c : CovePlan) (pos : Nat), Handled s mb priv
      0x07 cmd ∧ s.job.plan = some p ∧ coveOfRank p (ownRank s) = some (c, pos) ∧ pos < 16 ∧ c.coveId.toNat ≠ fld cmd 8
      2) ∧
    (∃ (s : State) (mb : Fin 8) (priv : Bool) (cmd : Line) (p : Plan) (c : CovePlan) (pos : Nat), Handled s mb priv
      0x07 cmd ∧ s.job.plan = some p ∧ coveOfRank p (ownRank s) = some (c, pos) ∧ pos < 16 ∧ c.coveId.toNat = fld cmd 8
      2 ∧ s.tide.forming = none ∧ s.agree.cove = none ∧ s.tier.quotas.parity < parityNeed c) ∧
    (∃ (s : State) (mb : Fin 8) (priv : Bool) (cmd : Line) (p : Plan) (c : CovePlan) (pos : Nat), Handled s mb priv
      0x07 cmd ∧ s.job.plan = some p ∧ coveOfRank p (ownRank s) = some (c, pos) ∧ pos < 16 ∧ c.coveId.toNat = fld cmd 8
      2 ∧ s.tide.forming = none ∧ s.agree.cove = none ∧ s.tier.quotas.parity < parityNeed c) ∧
    (∃ (s : State) (mb : Fin 8) (priv : Bool) (cmd : Line) (p : Plan) (c : CovePlan) (pos : Nat), Handled s mb priv
      0x07 cmd ∧ s.job.plan = some p ∧ coveOfRank p (ownRank s) = some (c, pos) ∧ pos < 16 ∧ c.coveId.toNat = fld cmd 8
      2 ∧ s.tide.forming = none ∧ s.agree.cove = none ∧ parityNeed c ≤ s.tier.quotas.parity ∧ farStashHolds c
      s.tier.regions s.tier.quotas = true) ∧
    (∃ (s : State) (o : Option (Fin 8)), s.tide.forming = some o ∧ (passDone s = false ∨ allRecords s = false)) ∧
    (∃ (s : State) (mb : Fin 8), s.tide.forming = some (some mb) ∧ s.stat.fwState.get = 2 ∧ passDone s = true ∧
      allRecords s = true) ∧
    (∃ (s : State) (mb : Fin 8) (priv : Bool) (cmd : Line), Handled s mb priv 0x1C cmd ∧ sealRuns s = true) ∧
    (∃ (s : State) (mb : Fin 8) (priv : Bool) (cmd : Line) (o : Fin 8), Handled s mb priv 0x1C cmd ∧ sealRuns s = false
      ∧ o ≠ mb ∧ (box s o).long = true ∧ (∀ m : Fin 8, m.val < o.val → m ≠ mb → (box s m).long = false)) ∧
    (∃ (s : State) (mb : Fin 8) (priv : Bool) (cmd : Line) (o : Fin 8), Handled s mb priv 0x1C cmd ∧ sealRuns s = false
      ∧ o ≠ mb ∧ (box s o).long = true ∧ (∀ m : Fin 8, m.val < o.val → m ≠ mb → (box s m).long = false)) ∧
    (∃ (s : State) (mb : Fin 8) (priv : Bool) (cmd : Line), Handled s mb priv 0x1C cmd ∧ sealRuns s = false ∧ (∀ m :
      Fin 8, m ≠ mb → (box s m).long = false) ∧ s.cap.oldReads = [] ∧ s.cap.held = []) :=
  ⟨⟨planned, 0, true, c8 0x87 [(8,2,2)], plan0, cove1, 0, handled_of (by decide +kernel), by decide +kernel⟩,
   ⟨formDone, 5, false, c8 0x87 [(8,2,2)], plan0, cove1, 0, handled_of (by decide +kernel), by decide +kernel⟩,
   ⟨smallPar, 0, true, c8 0x87 [(8,2,1)], plan0, cove1, 0, handled_of (by decide +kernel), by decide +kernel⟩,
   ⟨smallPar, 5, false, c8 0x87 [(8,2,1)], plan0, cove1, 0, handled_of (by decide +kernel), by decide +kernel⟩,
   ⟨formS, 0, true, c8 0x87 [(8,2,1)], plan0, cove1, 0, handled_of (by decide +kernel), by decide +kernel⟩,
   ⟨forming1, some 0, by decide +kernel⟩,
   ⟨formDone, 0, by decide +kernel⟩,
   ⟨sealing, 0, true, c8 0x9c [], handled_of (by decide +kernel), by decide +kernel⟩,
   ⟨longBox, 0, true, c8 0x9c [], 2, handled_of (by decide +kernel), by decide +kernel⟩,
   ⟨longBox, 5, false, c8 0x9c [], 2, handled_of (by decide +kernel), by decide +kernel⟩,
   ⟨member, 0, true, c8 0x9c [], handled_of (by decide +kernel), by decide +kernel⟩⟩

theorem witness_FloodsOpenSuspendAndResume :
    (∃ (s : State) (mb : Fin 8) (priv : Bool) (cmd : Line), Handled s mb priv 0x08 cmd ∧ s.tide.phase.get ≠ 0 ∧
      s.tide.phase.get ≠ 5) ∧
    (∃ (s : State) (mb : Fin 8) (priv : Bool) (cmd : Line) (c : CovePlan), Handled s mb priv 0x08 cmd ∧ ownCove s =
      some c ∧ stashHolds s.tier.regions s.tier.quotas = true ∧ farStashHolds c s.tier.regions s.tier.quotas = true ∧
      s.cap.held = [] ∧ s.agree.renewalDue = false ∧ s.tide.forming = none ∧ sealedTide s ≠ 0xFFFFFFFFFFFE ∧
      (s.tide.phase.get = 0 ∨ (s.tide.phase.get = 5 ∧ s.recov.state.get = 5 ∧ s.recov.lost.get = 0))) ∧
    (∃ (s : State) (mb : Fin 8) (priv : Bool) (cmd : Line) (c : CovePlan), Handled s mb priv 0x08 cmd ∧ ownCove s =
      some c ∧ stashHolds s.tier.regions s.tier.quotas = true ∧ farStashHolds c s.tier.regions s.tier.quotas = true ∧
      s.cap.held = [] ∧ s.agree.renewalDue = false ∧ s.tide.forming = none ∧ sealedTide s ≠ 0xFFFFFFFFFFFE ∧
      (s.tide.phase.get = 0 ∨ (s.tide.phase.get = 5 ∧ s.recov.state.get = 5 ∧ s.recov.lost.get = 0))) ∧
    (∃ (s : State) (mb : Fin 8) (priv : Bool) (cmd : Line), Handled s mb priv 0x0A cmd ∧ 1 < fld cmd 8 1) ∧
    (∃ (s : State) (mb : Fin 8) (priv : Bool) (cmd : Line), Handled s mb priv 0x0A cmd ∧ 1 < fld cmd 8 1) ∧
    (∃ (s : State) (mb : Fin 8) (priv : Bool) (cmd : Line), Handled s mb priv 0x0A cmd ∧ fld cmd 8 1 ≤ 1 ∧ (fld cmd 9 1
      = 0 ∨ 8 < fld cmd 9 1)) ∧
    (∃ (s : State) (mb : Fin 8) (priv : Bool) (cmd : Line), Handled s mb priv 0x0A cmd ∧ fld cmd 8 1 ≤ 1 ∧ (fld cmd 9 1
      = 0 ∨ 8 < fld cmd 9 1)) ∧
    (∃ (s : State) (mb : Fin 8) (priv : Bool) (cmd : Line), Handled s mb priv 0x0A cmd ∧ fld cmd 8 1 ≤ 1 ∧ 1 ≤ fld cmd
      9 1 ∧ fld cmd 9 1 ≤ 8 ∧ 1 ≤ fld cmd 10 2 ∧ fld cmd 10 2 ≤ 4096 ∧ 1 ≤ fld cmd 12 2 ∧ fld cmd 12 2 ≤ fld cmd 14 2 ∧
      fld cmd 14 2 ≤ 4096 ∧ 1 ≤ fld cmd 20 4) ∧
    (∃ (s : State) (mb : Fin 8) (priv : Bool) (cmd : Line), Handled s mb priv 0x0A cmd ∧ fld cmd 8 1 ≤ 1 ∧ 1 ≤ fld cmd
      9 1 ∧ fld cmd 9 1 ≤ 8 ∧ 1 ≤ fld cmd 10 2 ∧ fld cmd 10 2 ≤ 4096 ∧ 1 ≤ fld cmd 12 2 ∧ fld cmd 12 2 ≤ fld cmd 14 2 ∧
      fld cmd 14 2 ≤ 4096 ∧ 1 ≤ fld cmd 20 4) ∧
    (∃ (s : State) (mb : Fin 8) (priv : Bool) (cmd : Line) (o : Fin 8), Handled s mb priv 0x11 cmd ∧ s.stat.drainMb =
      some o) ∧
    (∃ (s : State) (mb : Fin 8) (priv : Bool) (cmd : Line), Handled s mb priv 0x11 cmd ∧ s.stat.drainMb = none ∧
      s.stat.capState = 2) ∧
    (∃ (s : State) (mb : Fin 8) (priv : Bool) (cmd : Line), Handled s mb priv 0x11 cmd ∧ s.stat.drainMb = none ∧
      s.stat.capState = 0) ∧
    (∃ (s : State) (mb : Fin 8) (priv : Bool) (cmd : Line), Handled s mb priv 0x1A cmd ∧ (s.job.state ≠ 3 ∨
      s.tide.phase.get ≠ 1)) ∧
    (∃ (s : State) (mb : Fin 8) (priv : Bool) (cmd : Line), Handled s mb priv 0x1A cmd ∧ (s.job.state ≠ 3 ∨
      s.tide.phase.get ≠ 1)) ∧
    (∃ (s : State) (mb : Fin 8) (priv : Bool) (cmd : Line) (r : _), Handled s mb priv 0x1A cmd ∧ s.job.state = 3 ∧
      s.tide.phase.get = 1 ∧ s.agree.cove = some (BitVec.ofNat 16 (fld cmd 8 2)) ∧ s.apply.run = some r) ∧
    (∃ (s : State) (mb : Fin 8) (priv : Bool) (cmd : Line), Handled s mb priv 0x1A cmd ∧ s.job.state = 3 ∧
      s.tide.phase.get = 1 ∧ s.agree.cove = some (BitVec.ofNat 16 (fld cmd 8 2)) ∧ s.apply.run = none) ∧
    (∃ (s : State) (mb : Fin 8) (priv : Bool) (cmd : Line), Handled s mb priv 0x1B cmd ∧ (s.job.state ≠ 3 ∨
      s.tide.phase.get ≠ 6)) ∧
    (∃ (s : State) (mb : Fin 8) (priv : Bool) (cmd : Line), Handled s mb priv 0x1B cmd ∧ (s.job.state ≠ 3 ∨
      s.tide.phase.get ≠ 6)) ∧
    (∃ (s : State) (mb : Fin 8) (priv : Bool) (cmd : Line), Handled s mb priv 0x1B cmd ∧ s.job.state = 3 ∧
      s.tide.phase.get = 6 ∧ sealRuns s = false ∧ s.agree.cove = some (BitVec.ofNat 16 (fld cmd 8 2)) ∧ s.tide.resuming
      = none) ∧
    (∃ (s : State) (o : Option (Fin 8)), s.tide.resuming = some o ∧ passDone s = false) ∧
    (∃ (s : State) (mb : Fin 8), s.tide.resuming = some (some mb) ∧ passDone s = true ∧ s.cap.held = [] ∧
      s.stat.fwState.get = 2) :=
  ⟨⟨member, 0, true, c8 0x88 [], handled_of (by decide +kernel), by decide +kernel⟩,
   ⟨formed0, 0, true, c8 0x88 [], cove1, handled_of (by decide +kernel), by decide +kernel⟩,
   ⟨resumable, 5, false, c8 0x88 [], cove1, handled_of (by decide +kernel), by decide +kernel⟩,
   ⟨member, 0, true, c8 0x8a [(8,1,2)], handled_of (by decide +kernel), by decide +kernel⟩,
   ⟨resumeDone, 5, false, c8 0x8a [(8,1,2)], handled_of (by decide +kernel), by decide +kernel⟩,
   ⟨member, 0, true, c8 0x8a [(8,1,1),(9,1,9)], handled_of (by decide +kernel), by decide +kernel⟩,
   ⟨resumeDone, 5, false, c8 0x8a [(8,1,1),(9,1,9)], handled_of (by decide +kernel), by decide +kernel⟩,
   ⟨member, 0, true, c8 0x8a [(8,1,1),(9,1,8),(10,2,4096),(12,2,1),(14,2,4096),(16,2,65535),(20,4,1)], handled_of
     (by decide +kernel), by decide +kernel, by decide +kernel⟩,
   ⟨resumeDone, 5, false, c8 0x8a [(8,1,1),(9,1,8),(10,2,4096),(12,2,1),(14,2,4096),(16,2,65535),(20,4,1)], handled_of
     (by decide +kernel), by decide +kernel, by decide +kernel⟩,
   ⟨drain1, 0, true, c8 0x91 [], 3, handled_of (by decide +kernel), by decide +kernel⟩,
   ⟨drain2, 0, true, c8 0x91 [], handled_of (by decide +kernel), by decide +kernel⟩,
   ⟨member, 0, true, c8 0x91 [], handled_of (by decide +kernel), by decide +kernel⟩,
   ⟨formed0, 5, true, c8 0x9a [(8,2,1)], handled_of (by decide +kernel), by decide +kernel⟩,
   ⟨resumeDone, 5, false, c8 0x9a [(8,2,1)], handled_of (by decide +kernel), by decide +kernel⟩,
   ⟨applying, 5, true, c8 0x9a [(8,2,1)], run0, handled_of (by decide +kernel), by decide +kernel⟩,
   ⟨member, 5, true, c8 0x9a [(8,2,1)], handled_of (by decide +kernel), by decide +kernel⟩,
   ⟨member, 5, true, c8 0x9b [(8,2,1)], handled_of (by decide +kernel), by decide +kernel⟩,
   ⟨notformed, 5, false, c8 0x9b [(8,2,1)], handled_of (by decide +kernel), by decide +kernel⟩,
   ⟨susp, 5, true, c8 0x9b [(8,2,1)], handled_of (by decide +kernel), by decide +kernel⟩,
   ⟨resuming1, some 5, by decide +kernel⟩,
   ⟨resumeDone, 5, by decide +kernel⟩⟩

theorem witness_RegionsQuotasAndPrefetch :
    (∃ (s : State) (mb : Fin 8) (priv : Bool) (cmd : Line) (p : Plan), s.job.plan = some p ∧ Handled s mb priv 0x06 cmd
      ∧ (∃ g ∈ s.tier.regions, g.id = (regionOf cmd).id)) ∧
    (∃ (s : State) (mb : Fin 8) (priv : Bool) (cmd : Line) (p : Plan), s.job.plan = some p ∧ Handled s mb priv 0x06 cmd
      ∧ regionFieldFault s p (fld cmd 9 1) (regionOf cmd) = none ∧ ((regionOf cmd).protected_ = false ∨ coveStands s =
      false) ∧ homeFault s p { regionOf cmd with nearBays := placeNear s (regionOf cmd) } = none ∧ regionShortfall s
      { regionOf cmd with nearBays := placeNear s (regionOf cmd) } = none) ∧
    (∃ (s : State) (mb : Fin 8) (priv : Bool) (cmd : Line) (p : Plan), s.job.plan = some p ∧ Handled s mb priv 0x06 cmd
      ∧ regionFieldFault s p (fld cmd 9 1) (regionOf cmd) = none ∧ ((regionOf cmd).protected_ = false ∨ coveStands s =
      false) ∧ homeFault s p { regionOf cmd with nearBays := placeNear s (regionOf cmd) } = none ∧ regionShortfall s
      { regionOf cmd with nearBays := placeNear s (regionOf cmd) } = none) ∧
    (∃ (s : State) (mb : Fin 8) (priv : Bool) (cmd : Line) (p : Plan) (i : Nat), s.job.plan = some p ∧ Handled s mb
      priv 0x0F cmd ∧ fld cmd 52 2 < 2048 ∧ windowFault p s.tier.regions (quotasOf s.tier.quotas cmd) = none ∧ i ∈ [2,
      4, 6, 8] ∧ s.job.formed = true ∧ quotaField (quotasOf s.tier.quotas cmd) i ≠ quotaField s.tier.quotas i) ∧
    (∃ (s : State) (mb : Fin 8) (priv : Bool) (cmd : Line) (p : Plan) (i : Nat), s.job.plan = some p ∧ Handled s mb
      priv 0x0F cmd ∧ fld cmd 52 2 < 2048 ∧ windowFault p s.tier.regions (quotasOf s.tier.quotas cmd) = none ∧ i ∈ [2,
      4, 6, 8] ∧ s.job.formed = true ∧ quotaField (quotasOf s.tier.quotas cmd) i ≠ quotaField s.tier.quotas i) ∧
    (∃ (s : State) (mb : Fin 8) (priv : Bool) (cmd : Line) (p : Plan), s.job.plan = some p ∧ Handled s mb priv 0x0F cmd
      ∧ fld cmd 52 2 < 2048 ∧ windowFault p s.tier.regions (quotasOf s.tier.quotas cmd) = none ∧ (∀ i ∈ [2, 4, 6, 8],
      s.job.formed = true → quotaField (quotasOf s.tier.quotas cmd) i = quotaField s.tier.quotas i) ∧ quotaField
      (quotasOf s.tier.quotas cmd) 0 < s.tier.quotas.dataNear ∧ quotaField (quotasOf s.tier.quotas cmd) 0 < nearInUse
      s.tier.regions) ∧
    (∃ (s : State) (mb : Fin 8) (priv : Bool) (cmd : Line) (p : Plan), s.job.plan = some p ∧ Handled s mb priv 0x0F cmd
      ∧ fld cmd 52 2 < 2048 ∧ windowFault p s.tier.regions (quotasOf s.tier.quotas cmd) = none ∧ (∀ i ∈ [2, 4, 6, 8],
      s.job.formed = true → quotaField (quotasOf s.tier.quotas cmd) i = quotaField s.tier.quotas i) ∧ quotaField
      (quotasOf s.tier.quotas cmd) 0 < s.tier.quotas.dataNear ∧ quotaField (quotasOf s.tier.quotas cmd) 0 < nearInUse
      s.tier.regions) ∧
    (∃ (s : State) (mb : Fin 8) (priv : Bool) (cmd : Line) (p : Plan), s.job.plan = some p ∧ Handled s mb priv 0x0F cmd
      ∧ fld cmd 52 2 < 2048 ∧ windowFault p s.tier.regions (quotasOf s.tier.quotas cmd) = none ∧ (∀ i ∈ [2, 4, 6, 8],
      s.job.formed = true → quotaField (quotasOf s.tier.quotas cmd) i = quotaField s.tier.quotas i) ∧ (∀ i, i < 11 →
      loweredBelow s (quotasOf s.tier.quotas cmd) i = false) ∧ stashHolds s.tier.regions (quotasOf s.tier.quotas cmd) =
      true) ∧
    (∃ (s : State) (mb : Fin 8) (priv : Bool) (cmd : Line) (p : Plan), s.job.plan = some p ∧ Handled s mb priv 0x0F cmd
      ∧ fld cmd 52 2 < 2048 ∧ windowFault p s.tier.regions (quotasOf s.tier.quotas cmd) = none ∧ (∀ i ∈ [2, 4, 6, 8],
      s.job.formed = true → quotaField (quotasOf s.tier.quotas cmd) i = quotaField s.tier.quotas i) ∧ (∀ i, i < 11 →
      loweredBelow s (quotasOf s.tier.quotas cmd) i = false) ∧ stashHolds s.tier.regions (quotasOf s.tier.quotas cmd) =
      true) ∧
    (∃ (s : State) (mb : Fin 8) (priv : Bool) (cmd : Line) (p : Plan) (o : _), s.job.plan = some p ∧ Handled s mb priv
      0x10 cmd ∧ fld cmd 8 8 % 64 = 0 ∧ inNear p (fld cmd 8 8) (24 * fld cmd 16 4) = true ∧ 0 < fld cmd 16 4 ∧ fld cmd
      16 4 ≤ 65536 ∧ fld cmd 24 8 % 64 = 0 ∧ inNear p (fld cmd 24 8) 64 = true ∧ fld cmd 32 8 % 64 = 0 ∧ inNear p (fld
      cmd 32 8) 64 = true ∧ (∀ r ∈ s.tier.regions, ∀ h ∈ regionHomes r, overlap (fld cmd 24 8) 64 h.1 h.2.1 = false ∧
      overlap (fld cmd 32 8) 64 h.1 h.2.1 = false) ∧ s.tier.loading = none ∧ entryFault s (s.mem.bytes (fld cmd 8 8)
      24) = some o) ∧
    (∃ (s : State) (mb : Fin 8) (priv : Bool) (cmd : Line) (p : Plan) (o : _), s.job.plan = some p ∧ Handled s mb priv
      0x10 cmd ∧ fld cmd 8 8 % 64 = 0 ∧ inNear p (fld cmd 8 8) (24 * fld cmd 16 4) = true ∧ 0 < fld cmd 16 4 ∧ fld cmd
      16 4 ≤ 65536 ∧ fld cmd 24 8 % 64 = 0 ∧ inNear p (fld cmd 24 8) 64 = true ∧ fld cmd 32 8 % 64 = 0 ∧ inNear p (fld
      cmd 32 8) 64 = true ∧ (∀ r ∈ s.tier.regions, ∀ h ∈ regionHomes r, overlap (fld cmd 24 8) 64 h.1 h.2.1 = false ∧
      overlap (fld cmd 32 8) 64 h.1 h.2.1 = false) ∧ s.tier.loading = none ∧ entryFault s (s.mem.bytes (fld cmd 8 8)
      24) = some o) ∧
    (∃ (s : State) (mb : Fin 8) (priv : Bool) (cmd : Line) (p : Plan), s.job.plan = some p ∧ Handled s mb priv 0x10 cmd
      ∧ fld cmd 8 8 % 64 = 0 ∧ inNear p (fld cmd 8 8) (24 * fld cmd 16 4) = true ∧ 0 < fld cmd 16 4 ∧ fld cmd 16 4 ≤
      65536 ∧ fld cmd 24 8 % 64 = 0 ∧ inNear p (fld cmd 24 8) 64 = true ∧ fld cmd 32 8 % 64 = 0 ∧ inNear p (fld cmd 32
      8) 64 = true ∧ (∀ r ∈ s.tier.regions, ∀ h ∈ regionHomes r, overlap (fld cmd 24 8) 64 h.1 h.2.1 = false ∧ overlap
      (fld cmd 32 8) 64 h.1 h.2.1 = false) ∧ s.tier.loading = none ∧ (∀ i, i < fld cmd 16 4 → entryFault s (s.mem.bytes
      (fld cmd 8 8 + 24 * i) 24) = none)) ∧
    (∃ (s : State) (mb : Fin 8) (priv : Bool) (cmd : Line) (p : Plan), s.job.plan = some p ∧ Handled s mb priv 0x10 cmd
      ∧ fld cmd 8 8 % 64 = 0 ∧ inNear p (fld cmd 8 8) (24 * fld cmd 16 4) = true ∧ 0 < fld cmd 16 4 ∧ fld cmd 16 4 ≤
      65536 ∧ fld cmd 24 8 % 64 = 0 ∧ inNear p (fld cmd 24 8) 64 = true ∧ fld cmd 32 8 % 64 = 0 ∧ inNear p (fld cmd 32
      8) 64 = true ∧ (∀ r ∈ s.tier.regions, ∀ h ∈ regionHomes r, overlap (fld cmd 24 8) 64 h.1 h.2.1 = false ∧ overlap
      (fld cmd 32 8) 64 h.1 h.2.1 = false) ∧ s.tier.loading = none ∧ (∀ i, i < fld cmd 16 4 → entryFault s (s.mem.bytes
      (fld cmd 8 8 + 24 * i) 24) = none)) ∧
    (∃ (s : State) (p : Plan), s.job.plan = some p ∧ s.tier.loading = none) ∧
    (∃ (s : State) (mb : Fin 8) (p : Plan) (es : List PfEntry) (cursor : U64) (progress : U64) (stands : Bool),
      s.job.plan = some p ∧ s.tier.loading = some (mb, es, cursor, progress, stands) ∧ s.stat.fwState.get = 2) ∧
    (∃ (s : State) (p : Plan) (i : Nat), s.job.plan = some p ∧ ((∀ f ∈ s.tier.flight, f.index ≠ i) ∨ s.tier.halted =
      15)) ∧
    (∃ (s : State) (p : Plan) (i : Nat), s.job.plan = some p ∧ ((∀ f ∈ s.tier.flight, f.index ≠ i) ∨ s.tier.halted =
      15)) ∧
    (∃ (s : State) (p : Plan) (f : Flight) (g : Flight), s.job.plan = some p ∧ s.tier.flight = [f, g] ∧ f.index ≠
      g.index ∧ f.stalled = false ∧ f.entry.action ≠ 2 ∧ f.entry.position.toNat ≤ s.tier.position.toNat) ∧
    (∃ (s : State) (p : Plan) (f : Flight) (e : PfEntry) (r : Region) (prog : U64), s.job.plan = some p ∧ s.tier.flight
      = [f] ∧ f.step = s.tier.step ∧ s.tier.schedule[f.index]? = some e ∧ s.tier.halted ≠ 15 ∧ s.power.season.get = 0 ∧
      s.tier.regions = [r] ∧ r.id = f.entry.region ∧ s.tier.progressLine = some prog ∧ s.tier.haltFlag = false ∧
      (f.entry.action = 2 ∨ f.entry.action = 3)) ∧
    (∃ (s : State) (p : Plan) (f : Flight) (e : PfEntry) (r : Region) (prog : U64), s.job.plan = some p ∧ s.tier.flight
      = [f] ∧ f.step = s.tier.step ∧ s.tier.schedule[f.index]? = some e ∧ s.tier.halted ≠ 15 ∧ s.power.season.get = 0 ∧
      s.tier.regions = [r] ∧ r.id = f.entry.region ∧ s.tier.progressLine = some prog ∧ s.tier.haltFlag = false ∧
      (f.entry.action = 2 ∨ f.entry.action = 3)) ∧
    (∃ (s : State) (p : Plan) (f : Flight) (e : PfEntry) (r : Region) (prog : U64), s.job.plan = some p ∧ s.tier.flight
      = [f] ∧ f.step = s.tier.step ∧ s.tier.schedule[f.index]? = some e ∧ s.tier.halted ≠ 15 ∧ s.power.season.get = 0 ∧
      s.tier.regions = [r] ∧ r.id = f.entry.region ∧ s.tier.progressLine = some prog ∧ s.tier.haltFlag = false ∧
      f.entry.action = 0 ∧ f.entry.tiles.toNat = 1 ∧ r.nearBays * 64 ≤ f.entry.firstTile.toNat ∧ rebuilding s = false ∧
      s.recov.target = false ∧ s.tier.staged = [] ∧ s.tier.rows = [] ∧ 0 < s.tier.quotas.stage) :=
  ⟨⟨planned, 0, true, c8 0x86 [(8,1,1)], plan0, by decide +kernel, handled_of (by decide +kernel), by decide +kernel⟩,
   ⟨planned, 0, true, c8 0x86 [(8,1,2),(9,1,0),(10,2,1),(12,4,1),(16,4,1),(24,8,0x100000)], plan0, by decide +kernel,
     handled_of (by decide +kernel), by decide +kernel⟩,
   ⟨pfRun, 5, false, c8 0x86 [(8,1,2),(9,1,0),(10,2,1),(12,4,1),(16,4,1),(24,8,0x100000)], plan0, by decide +kernel,
     handled_of (by decide +kernel), by decide +kernel⟩,
   ⟨{ member with job.formed := true }, 0, true, c8 0x8f [(16,4,17),(52,2,4)], plan0, 2, by decide +kernel, handled_of
     (by decide +kernel), by decide +kernel⟩,
   ⟨{ planned with job.formed := true }, 5, false, c8 0x8f [(16,4,17),(52,2,4)], plan0, 2, by decide +kernel,
     handled_of (by decide +kernel), by decide +kernel⟩,
   ⟨planned, 0, true, c8 0x8f [(8,4,0),(52,2,1)], plan0, by decide +kernel, handled_of (by decide +kernel),
     by decide +kernel⟩,
   ⟨pfLoading, 5, false, c8 0x8f [(8,4,0),(52,2,1)], plan0, by decide +kernel, handled_of (by decide +kernel),
     by decide +kernel⟩,
   ⟨planned, 0, true, c8 0x8f [(8,4,3),(52,2,1)], plan0, by decide +kernel, handled_of (by decide +kernel),
     by decide +kernel⟩,
   ⟨pfRun, 5, false, c8 0x8f [(8,4,0),(52,2,1)], plan0, by decide +kernel, handled_of (by decide +kernel),
     by decide +kernel⟩,
   ⟨planned, 0, true, c8 0x90 [(8,8,0x2800000),(16,4,1),(24,8,0x2800400),(32,8,0x2800440)], plan0, 1,
     by decide +kernel, handled_of (by decide +kernel), by decide +kernel, by decide +kernel, by decide +kernel,
     by decide +kernel⟩,
   ⟨pfRun, 5, false, c8 0x90 [(8,8,0x2800000),(16,4,1),(24,8,0x2800400),(32,8,0x2800440)], plan0, 1, by decide +kernel,
     handled_of (by decide +kernel), by decide +kernel, by decide +kernel, by decide +kernel, by decide +kernel⟩,
   ⟨pfFar, 0, true, c8 0x90 [(8,8,0x2800000),(16,4,1),(24,8,0x2800400),(32,8,0x2800440)], plan0, by decide +kernel,
     handled_of (by decide +kernel), by decide +kernel, by decide +kernel, by decide +kernel, by decide +kernel⟩,
   ⟨pfFar, 5, false, c8 0x90 [(8,8,0x2800000),(16,4,1),(24,8,0x2800400),(32,8,0x2800440)], plan0, by decide +kernel,
     handled_of (by decide +kernel), by decide +kernel, by decide +kernel, by decide +kernel, by decide +kernel⟩,
   ⟨planned, plan0, by decide +kernel⟩,
   ⟨pfLoading, 0, plan0, [pf0], 0x2800400, 0x2800440, true, by decide +kernel⟩,
   ⟨pfRun, plan0, 0, by decide +kernel⟩,
   ⟨{ pfFlyA 2 with tier.halted := 15 }, plan0, 3, by decide +kernel⟩,
   ⟨pfTwo, plan0, { fl0 0 with entry := { pf0 with position := 0 } }, fl1, by decide +kernel⟩,
   ⟨pfFlyA 2, plan0, fl0 2, { pf0 with action := 2, started := true },
     { region0 with protected_ := false, nearBays := 0, farBase := 1099511627776+16777216, placement := 2 }, 0x2800440,
     by decide +kernel, by decide +kernel, by decide +kernel, by decide +kernel⟩,
   ⟨pfFlyA 3, plan0, fl0 3, { pf0 with action := 3, started := true },
     { region0 with protected_ := false, nearBays := 0, farBase := 1099511627776+16777216, placement := 2 }, 0x2800440,
     by decide +kernel, by decide +kernel, by decide +kernel, by decide +kernel⟩,
   ⟨pfFlyA 0, plan0, fl0 0, { pf0 with started := true },
     { region0 with protected_ := false, nearBays := 0, farBase := 1099511627776+16777216, placement := 2 }, 0x2800440,
     by and_intros <;> decide +kernel⟩⟩

theorem witness_UnfilteredAccessIsUncaptured :
    (∃ (s : State) (r : SnoopRec) (c : _), ((∀ e ∈ s.cap.filter, r.line.toNat < e.base ∨ e.base + e.size ≤
      r.line.toNat) ∨ s.ports.msp = false) ∧ c ∈ [Instr.snoopWrite r, Instr.snoopAtomicResult r]) ∧
    (∃ (s : State) (r : SnoopRec) (c : _), ((∀ e ∈ s.cap.filter, r.line.toNat < e.base ∨ e.base + e.size ≤
      r.line.toNat) ∨ s.ports.msp = false) ∧ c ∈ [Instr.snoopWrite r, Instr.snoopAtomicResult r]) :=
  ⟨⟨capS, { recN with line := 0x200000 }, Instr.snoopWrite ({ recN with line := 0x200000 }), by decide +kernel⟩,
   ⟨{ undefS with cap.filter := [] }, { recN with line := 0xFFFC0 }, Instr.snoopAtomicResult
     ({ recN with line := 0xFFFC0 }), by decide +kernel⟩⟩

theorem witness_ReadsPassAndCursorLineMoves :
    (∃ (s : State), s.recov.target = false) ∧
    (∃ (s : State) (r : SnoopRec), r.master ≠ .apply ∧ r.master ≠ .exchange ∧ r.master ≠ .hygarOther ∧ r.be =
      BitVec.allOnes 64 ∧ s.power.season.get = 0 ∧ (∀ a, s.tier.progressLine = some a → a.toNat + 64 ≤ r.line.toNat ∨
      r.line.toNat + 64 ≤ a.toNat)) ∧
    (∃ (s : State) (r : SnoopRec), r.master ≠ .apply ∧ r.master ≠ .exchange ∧ r.master ≠ .hygarOther ∧ r.be =
      BitVec.allOnes 64 ∧ s.power.season.get = 0 ∧ (∀ a, s.tier.progressLine = some a → a.toNat + 64 ≤ r.line.toNat ∨
      r.line.toNat + 64 ≤ a.toNat)) :=
  ⟨⟨capS, by decide +kernel⟩,
   ⟨capS, rec0, by decide +kernel, by decide +kernel, by decide +kernel, by decide +kernel, by decide +kernel,
     all_some_of (by decide +kernel)⟩,
   ⟨undefS, { rec0 with line := 0x2800400 , data := mkLine [(0,2,7),(8,8,99)]}, by decide +kernel, by decide +kernel,
     by decide +kernel, by decide +kernel, by decide +kernel, all_some_of (by decide +kernel)⟩⟩

theorem witness_ProtectedWriteIsCapturedOrHeld :
    (∃ (s : State) (r : SnoopRec) (e : FilterEntry), s.ports.msp = true ∧ e ∈ s.cap.filter ∧ e.base ≤ r.line.toNat ∧
      r.line.toNat < e.base + e.size ∧ s.recov.target = false ∧ r.master ≠ .apply ∧ s.ctrl.capEn.get = 1 ∧
      s.stat.capState = 0 ∧ s.tide.phase.get = 1 ∧ s.cap.barred = false ∧ s.cap.recompute = [] ∧ (∀ h ∈ s.cap.held,
      h.acc.line ≠ r.line) ∧ s.cap.queue.length < 256 ∧ s.cap.oldReads.length < 128 ∧ (∀ o ∈ s.cap.oldReads, o.addr ≠
      r.line.toNat) ∧ s.apply.issued = [] ∧ r.be = BitVec.allOnes 64) ∧
    (∃ (s : State) (r : SnoopRec) (e : FilterEntry), s.ports.msp = true ∧ e ∈ s.cap.filter ∧ e.base ≤ r.line.toNat ∧
      r.line.toNat < e.base + e.size ∧ s.recov.target = false ∧ r.master ≠ .apply ∧ s.ctrl.capEn.get = 1 ∧
      s.stat.capState = 0 ∧ s.tide.phase.get = 1 ∧ s.cap.barred = false ∧ s.cap.recompute = [] ∧ (∀ h ∈ s.cap.held,
      h.acc.line ≠ r.line) ∧ s.cap.queue.length < 256 ∧ s.cap.oldReads.length < 128 ∧ (∀ o ∈ s.cap.oldReads, o.addr ≠
      r.line.toNat) ∧ s.apply.issued = [] ∧ r.be = BitVec.allOnes 64) ∧
    (∃ (s : State) (r : SnoopRec) (e : FilterEntry), s.ports.msp = true ∧ e ∈ s.cap.filter ∧ e.base ≤ r.line.toNat ∧
      r.line.toNat < e.base + e.size ∧ s.recov.target = false ∧ r.master ≠ .apply ∧ s.ctrl.capEn.get = 1 ∧
      s.stat.capState = 0 ∧ s.tide.phase.get = 1 ∧ s.cap.barred = false ∧ s.cap.recompute = [] ∧ (∀ h ∈ s.cap.held,
      h.acc.line ≠ r.line) ∧ s.cap.queue.length < 256 ∧ s.cap.oldReads.length < 128 ∧ (∀ o ∈ s.cap.oldReads, o.addr ≠
      r.line.toNat) ∧ s.apply.issued = [] ∧ r.be ≠ BitVec.allOnes 64) ∧
    (∃ (s : State) (r : SnoopRec) (e : FilterEntry), s.ports.msp = true ∧ e ∈ s.cap.filter ∧ e.base ≤ r.line.toNat ∧
      r.line.toNat < e.base + e.size ∧ s.recov.target = false ∧ r.master ≠ .apply ∧ s.ctrl.capEn.get = 1 ∧
      s.stat.capState = 0 ∧ s.tide.phase.get = 1 ∧ s.cap.barred = false ∧ s.cap.recompute = [] ∧ (∀ h ∈ s.cap.held,
      h.acc.line ≠ r.line) ∧ s.cap.queue.length < 256 ∧ s.cap.oldReads.length < 128 ∧ (∀ o ∈ s.cap.oldReads, o.addr ≠
      r.line.toNat) ∧ s.apply.issued = [] ∧ r.be ≠ BitVec.allOnes 64) ∧
    (∃ (s : State) (r : SnoopRec) (e : FilterEntry), s.ports.msp = true ∧ e ∈ s.cap.filter ∧ e.base ≤ r.line.toNat ∧
      r.line.toNat < e.base + e.size ∧ s.recov.target = false ∧ r.master ≠ .apply ∧ s.ctrl.capEn.get = 1 ∧
      s.stat.capState = 0 ∧ s.tide.phase.get = 1 ∧ s.cap.barred = false ∧ s.cap.recompute = [] ∧ (∀ h ∈ s.cap.held,
      h.acc.line ≠ r.line) ∧ s.cap.queue.length < 256 ∧ s.cap.oldReads.length < 128 ∧ (∀ o ∈ s.cap.oldReads, o.addr ≠
      r.line.toNat) ∧ s.apply.issued = []) ∧
    (∃ (s : State) (r : SnoopRec) (e : FilterEntry), s.ports.msp = true ∧ e ∈ s.cap.filter ∧ e.base ≤ r.line.toNat ∧
      r.line.toNat < e.base + e.size ∧ s.recov.target = false ∧ r.master ≠ .apply ∧ s.ctrl.capEn.get = 1 ∧
      s.stat.capState = 0 ∧ s.tide.phase.get = 1 ∧ s.cap.barred = false ∧ s.cap.recompute = [] ∧ (∀ h ∈ s.cap.held,
      h.acc.line ≠ r.line) ∧ s.cap.queue.length < 256 ∧ s.cap.oldReads.length < 128 ∧ (∀ o ∈ s.cap.oldReads, o.addr ≠
      r.line.toNat) ∧ s.apply.issued = []) ∧
    (∃ (s : State) (r : SnoopRec) (e : FilterEntry), s.ports.msp = true ∧ e ∈ s.cap.filter ∧ e.base ≤ r.line.toNat ∧
      r.line.toNat < e.base + e.size ∧ s.recov.target = false ∧ r.master ≠ .apply ∧ (s.ctrl.capEn.get = 0 ∨
      s.stat.capState ≠ 0 ∨ s.tide.phase.get = 2 ∨ s.tide.phase.get = 3 ∨ s.tide.phase.get = 4 ∨ s.tide.phase.get = 5 ∨
      s.cap.barred = true)) ∧
    (∃ (s : State) (r : SnoopRec) (e : FilterEntry), s.ports.msp = true ∧ e ∈ s.cap.filter ∧ e.base ≤ r.line.toNat ∧
      r.line.toNat < e.base + e.size ∧ s.recov.target = false ∧ r.master ≠ .apply ∧ (s.ctrl.capEn.get = 0 ∨
      s.stat.capState ≠ 0 ∨ s.tide.phase.get = 2 ∨ s.tide.phase.get = 3 ∨ s.tide.phase.get = 4 ∨ s.tide.phase.get = 5 ∨
      s.cap.barred = true)) :=
  ⟨⟨capS, rec0, { base := 0, size := 1048576, snoopR := false }, by and_intros <;> decide +kernel⟩,
   ⟨orS, { rec0 with line := 0xFFFC0 }, { base := 0, size := 1048576, snoopR := false },
     by and_intros <;> decide +kernel⟩,
   ⟨capS, recN, { base := 0, size := 1048576, snoopR := false }, by and_intros <;> decide +kernel⟩,
   ⟨orS, { recN with line := 0xFFFC0 }, { base := 0, size := 1048576, snoopR := false },
     by and_intros <;> decide +kernel⟩,
   ⟨capS, rec0, { base := 0, size := 1048576, snoopR := false }, by and_intros <;> decide +kernel⟩,
   ⟨orS, { recN with line := 0xFFFC0 }, { base := 0, size := 1048576, snoopR := false },
     by and_intros <;> decide +kernel⟩,
   ⟨capOff, rec0, { base := 0, size := 1048576, snoopR := false }, by decide +kernel⟩,
   ⟨{ capS with cap.barred := true }, { recN with line := 0xFFFC0 }, { base := 0, size := 1048576, snoopR := false },
     by decide +kernel⟩⟩

theorem witness_ApplyWriteUsesItsOwnRead :
    (∃ (s : State) (r : SnoopRec) (e : FilterEntry) (q : ApplyLine) (b : Nat) (l : Nat), s.ports.msp = true ∧ e ∈
      s.cap.filter ∧ e.base ≤ r.line.toNat ∧ r.line.toNat < e.base + e.size ∧ s.recov.target = false ∧ r.master =
      .apply ∧ s.ctrl.capEn.get = 1 ∧ s.stat.capState = 0 ∧ s.tide.phase.get = 1 ∧ s.cap.barred = false ∧
      s.cap.recompute = [] ∧ s.cap.held = [] ∧ s.cap.queue.length < 256 ∧ (∀ c ∈ s.cap.queue, c.tags = []) ∧
      s.cap.oldReads = [] ∧ s.apply.issued = [q] ∧ q.addr = r.line.toNat ∧ q.raced = false ∧ q.stale = false ∧ copiesOf
      s r.line.toNat = [] ∧ bayLine s r.line.toNat = some (b, l)) ∧
    (∃ (s : State) (r : SnoopRec) (e : FilterEntry) (q : ApplyLine) (b : Nat) (l : Nat), s.ports.msp = true ∧ e ∈
      s.cap.filter ∧ e.base ≤ r.line.toNat ∧ r.line.toNat < e.base + e.size ∧ s.recov.target = false ∧ r.master =
      .apply ∧ s.ctrl.capEn.get = 1 ∧ s.stat.capState = 0 ∧ s.tide.phase.get = 1 ∧ s.cap.barred = false ∧
      s.cap.recompute = [] ∧ s.cap.held = [] ∧ s.cap.queue.length < 256 ∧ (∀ c ∈ s.cap.queue, c.tags = []) ∧
      s.cap.oldReads = [] ∧ s.apply.issued = [q] ∧ q.addr = r.line.toNat ∧ q.raced = false ∧ q.stale = false ∧ copiesOf
      s r.line.toNat = [] ∧ bayLine s r.line.toNat = some (b, l)) :=
  ⟨⟨issuedS, recA, { base := 0, size := 1048576, snoopR := false },
     { cluster := 0, addr := 64, old := capS.mem.line 64, new := rec0.data, raced := false, stale := false }, 0, 1,
     by and_intros <;> decide +kernel⟩,
   ⟨issuedZ, recA, { base := 0, size := 1048576, snoopR := false },
     { cluster := 0, addr := 64, old := rec0.data, new := rec0.data, raced := false, stale := false }, 0, 1,
     by and_intros <;> decide +kernel⟩⟩

theorem witness_OldLineReadCompletesTheWrites :
    (∃ (s : State) (line : U64) (o : OldRead) (b : Nat) (l : Nat), o ∈ s.cap.oldReads ∧ o.addr = line.toNat ∧ (∀ q ∈
      s.cap.oldReads, q.addr = line.toNat → q = o) ∧ s.cap.queue.length < 256 ∧ s.cap.held = [] ∧ (∀ c ∈ s.cap.queue,
      c.tags = []) ∧ o.recs ≠ [] ∧ (∀ h ∈ o.recs, h.acc.master ≠ .apply ∧ h.acc.master ≠ .exchange) ∧ bayLine s o.addr
      = some (b, l)) ∧
    (∃ (s : State) (line : U64) (o : OldRead) (b : Nat) (l : Nat), o ∈ s.cap.oldReads ∧ o.addr = line.toNat ∧ (∀ q ∈
      s.cap.oldReads, q.addr = line.toNat → q = o) ∧ s.cap.queue.length < 256 ∧ s.cap.held = [] ∧ (∀ c ∈ s.cap.queue,
      c.tags = []) ∧ o.recs ≠ [] ∧ (∀ h ∈ o.recs, h.acc.master ≠ .apply ∧ h.acc.master ≠ .exchange) ∧ bayLine s o.addr
      = some (b, l)) :=
  ⟨⟨orS, 64, or0, 0, 1, by decide +kernel, by decide +kernel⟩,
   ⟨orSU, 64, or0, 0, 1, by decide +kernel, by decide +kernel⟩⟩

theorem witness_CapturedLineIsStashedDigestedAndQueued :
    (∃ (s : State) (c : CapLine) (rest : List CapLine), s.cap.queue = c :: rest ∧ s.cap.held = [] ∧ s.recov.handover =
      none ∧ s.cap.records ≠ []) ∧
    (∃ (s : State) (c : CapLine) (rest : List CapLine), s.cap.queue = c :: rest ∧ s.cap.held = [] ∧ s.recov.handover =
      none ∧ s.cap.records = []) :=
  ⟨⟨{ q0 with cap.records := [dr0] }, cl0, [], by decide +kernel⟩,
   ⟨q0, cl0, [], by decide +kernel⟩⟩

theorem witness_DeltaIsCodedTowardItsHeadlands :
    (∃ (s : State) (r : DeltaRec) (rest : List DeltaRec), s.recov.shadow = none ∧ s.cap.records = r :: rest ∧
      queueBytes s.fold.sendPlus + 280 ≤ 65536 ∧ queueBytes s.fold.sendMinus + 280 ≤ 65536) ∧
    (∃ (s : State) (r : DeltaRec) (rest : List DeltaRec), s.recov.shadow = none ∧ s.cap.records = r :: rest ∧
      queueBytes s.fold.sendPlus + 280 ≤ 65536 ∧ queueBytes s.fold.sendMinus + 280 ≤ 65536) ∧
    (∃ (s : State) (r : DeltaRec) (rest : List DeltaRec), s.recov.shadow = none ∧ s.cap.records = r :: rest ∧ 65536 <
      queueBytes s.fold.sendPlus + 280 ∧ r.plus = true ∧ headlandsToward (covLayout s) (ownPos s) r.bay r.line .plus ≠
      [] ∧ queueBytes s.fold.sendMinus + 280 ≤ 65536) ∧
    (∃ (s : State) (r : DeltaRec) (rest : List DeltaRec), s.recov.shadow = none ∧ s.cap.records = r :: rest ∧ 65536 <
      queueBytes s.fold.sendMinus + 280 ∧ r.minus = true ∧ headlandsToward (covLayout s) (ownPos s) r.bay r.line .minus
      ≠ [] ∧ queueBytes s.fold.sendPlus + 280 ≤ 65536) ∧
    (∃ (s : State) (r : DeltaRec) (rest : List DeltaRec), s.recov.shadow = none ∧ s.cap.records = r :: rest ∧ 65536 <
      queueBytes s.fold.sendMinus + 280 ∧ r.minus = true ∧ headlandsToward (covLayout s) (ownPos s) r.bay r.line .minus
      ≠ [] ∧ queueBytes s.fold.sendPlus + 280 ≤ 65536) ∧
    (∃ (s : State) (r : DeltaRec) (rest : List DeltaRec), s.recov.shadow = none ∧ s.cap.records = r :: rest ∧ 65536 <
      queueBytes s.fold.sendPlus + 280 ∧ 65536 < queueBytes s.fold.sendMinus + 280 ∧ r.plus = true ∧ r.minus = true ∧
      headlandsToward (covLayout s) (ownPos s) r.bay r.line .plus ≠ [] ∧ headlandsToward (covLayout s) (ownPos s) r.bay
      r.line .minus ≠ []) ∧
    (∃ (s : State), s.recov.shadow = none ∧ s.cap.records = [] ∧ s.cap.pass = none) ∧
    (∃ (s : State) (i : Nat), s.recov.shadow = none ∧ s.cap.records = [] ∧ s.cap.pass = some i ∧ (∀ e ∈ declaredLines
      s, e.1 < i)) ∧
    (∃ (s : State) (i : Nat) (e : _), s.recov.shadow = none ∧ s.cap.records = [] ∧ s.cap.pass = some i ∧ e ∈
      declaredLines s ∧ i ≤ e.1 ∧ (∀ f ∈ declaredLines s, i ≤ f.1 → f = e ∨ e.1 < f.1) ∧ queueBytes s.fold.sendPlus +
      280 ≤ 65536 ∧ queueBytes s.fold.sendMinus + 280 ≤ 65536) :=
  ⟨⟨cr0, dr0, [], by decide +kernel⟩,
   ⟨cr2, dr1, [dr0], by decide +kernel⟩,
   ⟨big cr0 true false, dr0, [], by decide +kernel⟩,
   ⟨big (at3 cr1 5) false true, dr1, [dr0], by decide +kernel⟩,
   ⟨big (at3 cr1 7) false true, dr1, [dr0], by decide +kernel⟩,
   ⟨big (at3 cr1 5) true true, dr1, [dr0], by decide +kernel⟩,
   ⟨capS, by decide +kernel⟩,
   ⟨{ capS with cap.pass := some 2 }, 2, by decide +kernel⟩,
   ⟨{ capS with cap.pass := some 0 }, 0, ((declaredLines ({ capS with cap.pass := some 0 })).get ⟨0,
     by decide +kernel⟩), by decide +kernel⟩⟩

theorem witness_CaptureStopsOnceDrained :
    (∃ (s : State) (port : Port) (priv : Bool), Reaches s port priv 0x0100 ∧ s.ctrl.capEn.get = 1 ∧ s.stat.capState =
      0) ∧
    (∃ (s : State) (port : Port) (priv : Bool), Reaches s port priv 0x0100 ∧ s.stat.capState = 1) ∧
    (∃ (s : State) (port : Port) (priv : Bool), Reaches s port priv 0x0100 ∧ s.stat.capState = 2 ∧ s.cap.held = []) ∧
    (∃ (s : State), s.stat.capState = 1 ∧ s.cap.queue = [] ∧ s.cap.oldReads = [] ∧ s.cap.records = [] ∧ s.cap.pass =
      none ∧ s.fold.sendPlus = [] ∧ s.fold.sendMinus = [] ∧ s.stat.suspendMb = none ∧ s.stat.capAgain = false ∧
      s.stat.fwState.get = 2) ∧
    (∃ (s : State), s.stat.capState = 1 ∧ (s.cap.queue ≠ [] ∨ s.fold.sendPlus ≠ [] ∨ s.fold.sendMinus ≠ [])) ∧
    (∃ (s : State), s.stat.capState = 1 ∧ (s.cap.queue ≠ [] ∨ s.fold.sendPlus ≠ [] ∨ s.fold.sendMinus ≠ [])) :=
  ⟨⟨capS, .fbp, true, by decide +kernel, by decide +kernel⟩,
   ⟨capOff, .fbp, true, by decide +kernel, by decide +kernel⟩,
   ⟨capOff0, .fbp, true, by decide +kernel, by decide +kernel⟩,
   ⟨capOff, by decide +kernel, by decide +kernel, by decide +kernel⟩,
   ⟨drained, by decide +kernel⟩,
   ⟨draining, by decide +kernel⟩⟩

theorem witness_FoldStoreTakesTheLongestAlikePrefix :
    (∃ (s : State) (d : Dir) (i : SendItem) (tl : List SendItem), queueOf s d = i :: tl ∧ s.recov.shadow = none ∧ 2 +
      i.thin.length ≤ 256 ∧ 280 ≤ bucketOf s d ∧ s.agree.state ≠ 4 ∧ s.agree.state ≠ 5 ∧ s.agree.withdrawn = false ∧
      s.ports.fenced.getLsbD (match d with | .plus => 6 | .minus => 7) = false ∧ s.ports.lkp = true) ∧
    (∃ (s : State) (d : Dir) (i : SendItem) (tl : List SendItem), queueOf s d = i :: tl ∧ s.recov.shadow = none ∧ 2 +
      i.thin.length ≤ 256 ∧ 280 ≤ bucketOf s d ∧ s.agree.state ≠ 4 ∧ s.agree.state ≠ 5 ∧ s.agree.withdrawn = false ∧
      s.ports.fenced.getLsbD (match d with | .plus => 6 | .minus => 7) = false ∧ s.ports.lkp = true) ∧
    (∃ (s : State) (d : Dir) (i : SendItem) (tl : List SendItem), queueOf s d = i :: tl ∧ s.recov.shadow = none ∧
      (bucketOf s d < 24 ∨ s.ports.fenced.getLsbD (match d with | .plus => 6 | .minus => 7) = true)) ∧
    (∃ (s : State) (d : Dir) (i : SendItem) (tl : List SendItem), queueOf s d = i :: tl ∧ s.recov.shadow = none ∧
      (bucketOf s d < 24 ∨ s.ports.fenced.getLsbD (match d with | .plus => 6 | .minus => 7) = true)) :=
  ⟨⟨fs1, .plus, it0, fs1.fold.sendPlus.drop 1, by decide +kernel, by decide +kernel⟩,
   ⟨fs3, .minus, { it0 with dest := 7 }, fs1.fold.sendMinus.drop 1, by decide +kernel, by decide +kernel⟩,
   ⟨fs2, .plus, it0, fs1.fold.sendPlus.drop 1, by decide +kernel⟩,
   ⟨fs3, .plus, it0, fs1.fold.sendPlus.drop 1, by decide +kernel⟩⟩

theorem witness_FoldStoreIsTakenDroppedOrBreaksItsStream :
    (∃ (s : State), s.ports.lkp = true ∧ s.power.season.get ≠ 2 ∧ s.recov.shadow = none ∧ (s.fold.high = true ∨
      s.stat.foldState ≠ 0)) ∧
    (∃ (s : State), s.ports.lkp = true ∧ s.power.season.get ≠ 2 ∧ s.recov.shadow = none ∧ (s.fold.high = true ∨
      s.stat.foldState ≠ 0)) ∧
    (∃ (s : State) (p : FoldStore), s.ports.lkp = true ∧ s.power.season.get ≠ 2 ∧ s.recov.shadow = none ∧ s.fold.high =
      false ∧ s.stat.foldState = 0 ∧ s.agree.cove.isSome = true ∧ (p.ca = true ∨ ∀ r ∈ p.recs, onward s p.origin.toNat
      p.bay.toNat r.line.toNat = none) ∧ ¬ Deliverable s p) ∧
    (∃ (s : State) (p : FoldStore), s.ports.lkp = true ∧ s.power.season.get ≠ 2 ∧ s.recov.shadow = none ∧ s.fold.high =
      false ∧ s.stat.foldState = 0 ∧ s.agree.cove.isSome = true ∧ (p.ca = true ∨ ∀ r ∈ p.recs, onward s p.origin.toNat
      p.bay.toNat r.line.toNat = none) ∧ ¬ Deliverable s p) ∧
    (∃ (s : State) (p : FoldStore), s.ports.lkp = true ∧ s.power.season.get ≠ 2 ∧ s.recov.shadow = none ∧ s.fold.high =
      false ∧ s.stat.foldState = 0 ∧ s.agree.cove.isSome = true ∧ (p.ca = true ∨ ∀ r ∈ p.recs, onward s p.origin.toNat
      p.bay.toNat r.line.toNat = none) ∧ Deliverable s p ∧ (streamOf s p).broken = true) ∧
    (∃ (s : State) (p : FoldStore), s.ports.lkp = true ∧ s.power.season.get ≠ 2 ∧ s.recov.shadow = none ∧ s.fold.high =
      false ∧ s.stat.foldState = 0 ∧ s.agree.cove.isSome = true ∧ (p.ca = true ∨ ∀ r ∈ p.recs, onward s p.origin.toNat
      p.bay.toNat r.line.toNat = none) ∧ Deliverable s p ∧ (streamOf s p).broken = true) ∧
    (∃ (s : State) (p : FoldStore), s.ports.lkp = true ∧ s.power.season.get ≠ 2 ∧ s.recov.shadow = none ∧ s.fold.high =
      false ∧ s.stat.foldState = 0 ∧ s.agree.cove.isSome = true ∧ (p.ca = true ∨ ∀ r ∈ p.recs, onward s p.origin.toNat
      p.bay.toNat r.line.toNat = none) ∧ Deliverable s p ∧ (streamOf s p).broken = false ∧ p.seq ≠ (streamOf s p).next) ∧
    (∃ (s : State) (p : FoldStore), s.ports.lkp = true ∧ s.power.season.get ≠ 2 ∧ s.recov.shadow = none ∧ s.fold.high =
      false ∧ s.stat.foldState = 0 ∧ s.agree.cove.isSome = true ∧ (p.ca = true ∨ ∀ r ∈ p.recs, onward s p.origin.toNat
      p.bay.toNat r.line.toNat = none) ∧ Deliverable s p ∧ (streamOf s p).broken = false ∧ p.seq ≠ (streamOf s p).next) ∧
    (∃ (s : State) (p : FoldStore), s.ports.lkp = true ∧ s.power.season.get ≠ 2 ∧ s.recov.shadow = none ∧ s.fold.high =
      false ∧ s.stat.foldState = 0 ∧ s.agree.cove.isSome = true ∧ (p.ca = true ∨ ∀ r ∈ p.recs, onward s p.origin.toNat
      p.bay.toNat r.line.toNat = none) ∧ Deliverable s p ∧ (streamOf s p).broken = false ∧ p.seq = (streamOf s p).next
      ∧ badRecord s p = false ∧ (s.fold.buffer.map fun r => 2 + r.thin.length).sum + (p.recs.map fun r => 2 +
      r.thin.length).sum < 3 * 1048576) ∧
    (∃ (s : State) (p : FoldStore), s.ports.lkp = true ∧ s.power.season.get ≠ 2 ∧ s.recov.shadow = none ∧ s.fold.high =
      false ∧ s.stat.foldState = 0 ∧ s.agree.cove.isSome = true ∧ (p.ca = true ∨ ∀ r ∈ p.recs, onward s p.origin.toNat
      p.bay.toNat r.line.toNat = none) ∧ Deliverable s p ∧ (streamOf s p).broken = false ∧ p.seq = (streamOf s p).next
      ∧ badRecord s p = false ∧ (s.fold.buffer.map fun r => 2 + r.thin.length).sum + (p.recs.map fun r => 2 +
      r.thin.length).sum < 3 * 1048576) ∧
    (∃ (s : State) (p : FoldStore) (r : FsRec) (d : Nat), s.ports.lkp = true ∧ s.power.season.get ≠ 2 ∧ s.recov.shadow
      = none ∧ s.fold.high = false ∧ s.stat.foldState = 0 ∧ s.agree.cove.isSome = true ∧ p.ca = false ∧ p.recs = [r] ∧
      onward s p.origin.toNat p.bay.toNat r.line.toNat = some d ∧ 65536 < payloadOf (queueOf s (travel s
      p.origin.toNat)) + 280) ∧
    (∃ (s : State) (p : FoldStore) (r : FsRec) (d : Nat), s.ports.lkp = true ∧ s.power.season.get ≠ 2 ∧ s.recov.shadow
      = none ∧ s.fold.high = false ∧ s.stat.foldState = 0 ∧ s.agree.cove.isSome = true ∧ p.ca = false ∧ p.recs = [r] ∧
      onward s p.origin.toNat p.bay.toNat r.line.toNat = some d ∧ 65536 < payloadOf (queueOf s (travel s
      p.origin.toNat)) + 280) ∧
    (∃ (s : State) (p : FoldStore) (r : FsRec) (d : Nat), s.ports.lkp = true ∧ s.power.season.get ≠ 2 ∧ s.recov.shadow
      = none ∧ s.fold.high = false ∧ s.stat.foldState = 0 ∧ s.agree.cove.isSome = true ∧ p.ca = false ∧ p.recs = [r] ∧
      onward s p.origin.toNat p.bay.toNat r.line.toNat = some d ∧ payloadOf (queueOf s (travel s p.origin.toNat)) + 280
      ≤ 65536 ∧ Deliverable s p ∧ (streamOf s p).broken = false ∧ p.seq = (streamOf s p).next ∧ badRecord s p = false ∧
      (s.fold.buffer.map fun r => 2 + r.thin.length).sum + (2 + r.thin.length) < 3 * 1048576) ∧
    (∃ (s : State) (p : FoldStore) (r : FsRec) (d : Nat), s.ports.lkp = true ∧ s.power.season.get ≠ 2 ∧ s.recov.shadow
      = none ∧ s.fold.high = false ∧ s.stat.foldState = 0 ∧ s.agree.cove.isSome = true ∧ p.ca = false ∧ p.recs = [r] ∧
      onward s p.origin.toNat p.bay.toNat r.line.toNat = some d ∧ payloadOf (queueOf s (travel s p.origin.toNat)) + 280
      ≤ 65536 ∧ Deliverable s p ∧ (streamOf s p).broken = false ∧ p.seq = (streamOf s p).next ∧ badRecord s p = false ∧
      (s.fold.buffer.map fun r => 2 + r.thin.length).sum + (2 + r.thin.length) < 3 * 1048576) :=
  ⟨⟨{ capS with fold.high := true }, by decide +kernel⟩,
   ⟨fdis, by decide +kernel⟩,
   ⟨capS, { fp0 with tide := 5 }, by and_intros <;> decide +kernel⟩,
   ⟨at3 capS 7, { fp0 with view := 2 }, by and_intros <;> decide +kernel⟩,
   ⟨brk, fp0, by and_intros <;> decide +kernel⟩,
   ⟨brk, { fp0 with recs := [⟨1, thin rec0.data⟩,⟨0x3fff, thin 0⟩] }, by and_intros <;> decide +kernel⟩,
   ⟨capS, { fp0 with seq := 7 }, by and_intros <;> decide +kernel⟩,
   ⟨at3 capS 7, { fp0 with seq := 7 }, by and_intros <;> decide +kernel⟩,
   ⟨capS, fp0, by and_intros <;> decide +kernel⟩,
   ⟨at3 capS 7, { fp0 with ca := false, bay := 1 }, by and_intros <;> decide +kernel⟩,
   ⟨big (at3 capS 1) true true, { fp0 with ca := false }, ⟨1, thin rec0.data⟩, 0, by decide +kernel, by decide +kernel,
     by decide +kernel⟩,
   ⟨big (at3 capS 6) true true, { fp0 with ca := false, bay := 1 }, ⟨1, thin rec0.data⟩, 7, by decide +kernel,
     by decide +kernel, by decide +kernel⟩,
   ⟨at3 capS 1, { fp0 with ca := false }, ⟨1, thin rec0.data⟩, 0, by and_intros <;> decide +kernel⟩,
   ⟨at3 capS 2, { fp0 with ca := false, bay := 1, origin := 5, sender := 5 }, ⟨1, thin rec0.data⟩, 1,
     by and_intros <;> decide +kernel⟩⟩

theorem witness_FoldAddsEveryRecordOfTheLine :
    (∃ (s : State) (r0 : FbRec) (rest : List FbRec), s.recov.shadow = none ∧ s.recov.handover = none ∧ s.fold.buffer =
      r0 :: rest ∧ s.fold.copyCursor = none ∧ s.fold.high = false) ∧
    (∃ (s : State) (c : _), s.recov.shadow = none ∧ s.recov.handover = none ∧ s.fold.copyCursor = some c ∧ (∀ r ∈
      s.fold.buffer, c < recOffset s r + 64)) ∧
    (∃ (s : State) (c : _), s.recov.shadow = none ∧ s.recov.handover = none ∧ s.fold.copyCursor = some c ∧ (∀ r ∈
      s.fold.buffer, c < recOffset s r + 64)) :=
  ⟨⟨fb0, fr0, fb0.fold.buffer.drop 1, by decide +kernel⟩,
   ⟨fbc, 0, by decide +kernel⟩,
   ⟨cpy, 0, by decide +kernel⟩⟩

theorem witness_SlotCopyAndFoldDisable :
    (∃ (s : State) (c : _), s.fold.copyCursor = some c ∧ s.tide.phase.get ≠ 0 ∧ s.tide.phase.get ≠ 4 ∧ c ≤ slotSize s) ∧
    (∃ (s : State) (c : _), s.fold.copyCursor = some c ∧ s.tide.phase.get ≠ 0 ∧ s.tide.phase.get ≠ 4 ∧ c ≤ slotSize s) ∧
    (∃ (s : State), s.fold.copyCursor = none) ∧
    (∃ (s : State), s.stat.foldState = 1 ∧ s.fold.buffer = [] ∧ s.stat.foldAgain = false) ∧
    (∃ (s : State), s.stat.foldState = 1 ∧ s.fold.buffer = [] ∧ s.stat.foldAgain = true) ∧
    (∃ (s : State), s.fold.buffer ≠ []) :=
  ⟨⟨cpy, 0, by decide +kernel⟩,
   ⟨cpy1, slotSize capS - 64, by decide +kernel⟩,
   ⟨capS, by decide +kernel⟩,
   ⟨fdis, by decide +kernel⟩,
   ⟨fdis2, by decide +kernel⟩,
   ⟨fb0, by decide +kernel⟩⟩

theorem witness_CloseMarkersFollowTheRecord :
    (∃ (s : State) (d : Byte), s.ports.lkp = true ∧ s.power.season.get ≠ 2 ∧ s.recov.shadow = none ∧ (s.tide.phase.get
      = 2 ∨ forming s = true ∨ s.tide.resuming.isSome = true) ∧ s.cap.queue = [] ∧ s.cap.oldReads = [] ∧ s.cap.records
      = [] ∧ s.cap.pass = none ∧ s.cap.recompute = [] ∧ (∀ i ∈ s.fold.sendPlus ++ s.fold.sendMinus, i.fwd = true ∨
      i.dest ≠ d.toNat) ∧ d.toNat < 16 ∧ (liveSet s).getLsbD d.toNat = true ∧ d.toNat ≠ s.agree.position.toNat ∧
      d.toNat ∉ s.tide.closeSent) ∧
    (∃ (s : State) (d : Byte), s.ports.lkp = true ∧ s.power.season.get ≠ 2 ∧ s.recov.shadow = none ∧ (s.tide.phase.get
      = 2 ∨ forming s = true ∨ s.tide.resuming.isSome = true) ∧ s.cap.queue = [] ∧ s.cap.oldReads = [] ∧ s.cap.records
      = [] ∧ s.cap.pass = none ∧ s.cap.recompute = [] ∧ (∀ i ∈ s.fold.sendPlus ++ s.fold.sendMinus, i.fwd = true ∨
      i.dest ≠ d.toNat) ∧ d.toNat < 16 ∧ (liveSet s).getLsbD d.toNat = true ∧ d.toNat ≠ s.agree.position.toNat ∧
      d.toNat ∉ s.tide.closeSent) ∧
    (∃ (s : State) (d : Byte), s.ports.lkp = true ∧ s.power.season.get ≠ 2 ∧ s.recov.shadow = none ∧ ((s.tide.phase.get
      ≠ 2 ∧ forming s = false ∧ s.tide.resuming = none) ∨ s.cap.queue ≠ [] ∨ s.cap.oldReads ≠ [] ∨ s.cap.records ≠ [] ∨
      s.cap.recompute ≠ [] ∨ d.toNat ∈ s.tide.closeSent ∨ (∃ i ∈ s.fold.sendPlus ++ s.fold.sendMinus, i.fwd = false ∧
      i.dest = d.toNat))) ∧
    (∃ (s : State) (d : Byte), s.ports.lkp = true ∧ s.power.season.get ≠ 2 ∧ s.recov.shadow = none ∧ ((s.tide.phase.get
      ≠ 2 ∧ forming s = false ∧ s.tide.resuming = none) ∨ s.cap.queue ≠ [] ∨ s.cap.oldReads ≠ [] ∨ s.cap.records ≠ [] ∨
      s.cap.recompute ≠ [] ∨ d.toNat ∈ s.tide.closeSent ∨ (∃ i ∈ s.fold.sendPlus ++ s.fold.sendMinus, i.fwd = false ∧
      i.dest = d.toNat))) ∧
    (∃ (s : State) (m : Marker), s.ports.lkp = true ∧ s.power.season.get ≠ 2 ∧ s.recov.shadow = none ∧ s.agree.cove =
      some m.cove ∧ m.view = viewNow s ∧ m.tide = foldTide s ∧ (liveSet s).getLsbD m.origin.toNat = true ∧ m.dest.toNat
      = s.agree.position.toNat ∧ s.tide.phase.get ≠ 0) ∧
    (∃ (s : State) (m : Marker), s.ports.lkp = true ∧ s.power.season.get ≠ 2 ∧ s.recov.shadow = none ∧
      s.agree.cove.isSome = true ∧ m.view ≠ viewNow s) :=
  ⟨⟨closeS, 1, by and_intros <;> decide +kernel⟩,
   ⟨marked, 7, by and_intros <;> decide +kernel⟩,
   ⟨capS, 0, by decide +kernel⟩,
   ⟨capS, 16, by decide +kernel⟩,
   ⟨closeS, mk1, by decide +kernel, by decide +kernel⟩,
   ⟨closeS, { mk1 with view := 2 }, by decide +kernel⟩⟩

theorem witness_TideSealCountsAndStartsTheSeal :
    (∃ (s : State) (mb : Fin 8) (priv : Bool) (cmd : Line), Handled s mb priv 0x09 cmd ∧ (s.tide.phase.get = 1 ∨
      s.tide.phase.get = 6) ∧ sealBlockOk s (fld cmd 8 8) = true ∧ s.tide.steps.toNat + 1 < s.tide.n.get.toNat) ∧
    (∃ (s : State) (mb : Fin 8) (priv : Bool) (cmd : Line), Handled s mb priv 0x09 cmd ∧ (s.tide.phase.get = 1 ∨
      s.tide.phase.get = 6) ∧ sealBlockOk s (fld cmd 8 8) = true ∧ s.tide.steps.toNat + 1 < s.tide.n.get.toNat) ∧
    (∃ (s : State) (mb : Fin 8) (priv : Bool) (cmd : Line), Handled s mb priv 0x09 cmd ∧ s.tide.phase.get = 1 ∧
      sealBlockOk s (fld cmd 8 8) = true ∧ s.tide.n.get.toNat ≤ s.tide.steps.toNat + 1 ∧ tableFault (s.mem.bytes (fld
      cmd 8 8) 128) = none) ∧
    (∃ (s : State) (mb : Fin 8) (priv : Bool) (cmd : Line), Handled s mb priv 0x09 cmd ∧ s.tide.phase.get = 1 ∧
      sealBlockOk s (fld cmd 8 8) = true ∧ s.tide.n.get.toNat ≤ s.tide.steps.toNat + 1 ∧ tableFault (s.mem.bytes (fld
      cmd 8 8) 128) = none) ∧
    (∃ (s : State) (mb : Fin 8) (priv : Bool) (cmd : Line), Handled s mb priv 0x09 cmd ∧ (s.tide.phase.get = 2 ∨
      s.tide.phase.get = 3 ∨ s.tide.phase.get = 4)) ∧
    (∃ (s : State) (mb : Fin 8) (priv : Bool) (cmd : Line), Handled s mb priv 0x09 cmd ∧ (s.tide.phase.get = 2 ∨
      s.tide.phase.get = 3 ∨ s.tide.phase.get = 4)) ∧
    (∃ (s : State) (mb : Fin 8) (priv : Bool) (cmd : Line), Handled s mb priv 0x09 cmd ∧ (s.tide.phase.get = 0 ∨
      s.tide.phase.get = 5)) ∧
    (∃ (s : State) (mb : Fin 8) (priv : Bool) (cmd : Line), Handled s mb priv 0x09 cmd ∧ (s.tide.phase.get = 0 ∨
      s.tide.phase.get = 5)) ∧
    (∃ (s : State) (mb : Fin 8) (priv : Bool) (cmd : Line), Handled s mb priv 0x09 cmd ∧ (s.tide.phase.get = 1 ∨
      s.tide.phase.get = 6) ∧ sealBlockOk s (fld cmd 8 8) = false) ∧
    (∃ (s : State) (mb : Fin 8) (priv : Bool) (cmd : Line), Handled s mb priv 0x09 cmd ∧ (s.tide.phase.get = 1 ∨
      s.tide.phase.get = 6) ∧ sealBlockOk s (fld cmd 8 8) = false) :=
  ⟨⟨capS, 0, true, c8 0x89 [(8,8,0x2000000)], handled_of (by decide +kernel), by decide +kernel⟩,
   ⟨m3, 5, false, c8 0x89 [(8,8,0x2000000)], handled_of (by decide +kernel), by decide +kernel⟩,
   ⟨nearN, 0, true, c8 0x89 [(8,8,0x2000000)], handled_of (by decide +kernel), by decide +kernel⟩,
   ⟨nearN, 5, false, c8 0x89 [(8,8,0x2000000)], handled_of (by decide +kernel), by decide +kernel⟩,
   ⟨closing, 0, true, c8 0x89 [(8,8,0x2000000)], handled_of (by decide +kernel), by decide +kernel⟩,
   ⟨heldSt, 5, false, c8 0x89 [(8,8,0x3fff000)], handled_of (by decide +kernel), by decide +kernel⟩,
   ⟨{ member with tide.phase := V3.all 5 }, 0, true, c8 0x89 [(8,8,0x2000000)], handled_of (by decide +kernel),
     by decide +kernel⟩,
   ⟨{ member with tide.phase := V3.all 0 }, 5, false, c8 0x89 [(8,8,0x3fff000)], handled_of (by decide +kernel),
     by decide +kernel⟩,
   ⟨capS, 0, true, c8 0x89 [(8,8,0x2000001)], handled_of (by decide +kernel), by decide +kernel⟩,
   ⟨m3, 5, false, c8 0x89 [(8,8,0x3fff000)], handled_of (by decide +kernel), by decide +kernel⟩⟩

theorem witness_MemberBecomesReady :
    (∃ (s : State), s.recov.shadow = none ∧ isCaptain s = false ∧ s.tide.phase.get = 2 ∧ readyDue s = true ∧ allRecords
      s = true ∧ s.ports.lkp = true) ∧
    (∃ (s : State), s.recov.shadow = none ∧ isCaptain s = false ∧ (s.tide.phase.get ≠ 2 ∨ readyDue s = false ∨
      allRecords s = false)) ∧
    (∃ (s : State), s.recov.shadow = none ∧ isCaptain s = false ∧ (s.tide.phase.get ≠ 2 ∨ readyDue s = false ∨
      allRecords s = false)) :=
  ⟨⟨readyS, by decide +kernel⟩,
   ⟨m3, by decide +kernel⟩,
   ⟨{ readyS with tide.closeSent := [0] }, by decide +kernel⟩⟩

theorem witness_RecordsAndReadyAreGathered :
    (∃ (s : State) (m : SealMsg), FromOwnCove s m ∧ m.tide = foldTide s ∧ m.arg = 0 ∧ (look [] m.origin.toNat
      s.tide.parts).take m.body.length ≠ m.body) ∧
    (∃ (s : State) (m : SealMsg), FromOwnCove s m ∧ m.tide = foldTide s ∧ m.arg ≠ 0 ∧ m.arg.toNat = (look []
      m.origin.toNat s.tide.parts).length) ∧
    (∃ (s : State) (m : SealMsg), FromOwnCove s m ∧ m.tide = foldTide s ∧ m.arg ≠ 0 ∧ m.arg.toNat ≠ (look []
      m.origin.toNat s.tide.parts).length) ∧
    (∃ (s : State) (m : SealMsg), FromOwnCove s m ∧ m.tide = sealedTide s + 1 ∧ s.tide.phase.get ≠ 5 ∧ isCaptain s =
      false) ∧
    (∃ (s : State) (m : SealMsg), FromOwnCove s m ∧ m.tide ≠ sealedTide s + 1) :=
  ⟨⟨m3, sm 0, by decide +kernel, by decide +kernel⟩,
   ⟨partsS, sm 3, by decide +kernel, by decide +kernel⟩,
   ⟨m3, sm 1, by decide +kernel, by decide +kernel⟩,
   ⟨m3, sm 0, by decide +kernel, by decide +kernel⟩,
   ⟨m3, { sm 0 with tide := 5 }, by decide +kernel, by decide +kernel⟩⟩

theorem witness_CommitFlipsTheSlots :
    ∃ (s : State) (m : SealMsg), FromOwnCove s m ∧ isCaptain s = false ∧ s.recov.handover = none ∧ s.tide.phase.get = 3
      ∧ m.tide = sealedTide s + 1 ∧ decisionCode s m.tide = 0 :=
  ⟨readyM, smc, by decide +kernel, by decide +kernel⟩

theorem witness_ReleaseOpensTheNextFlood :
    ∃ (s : State) (m : SealMsg) (n : U16) (l : U32) (mb : Fin 8), FromOwnCove s m ∧ isCaptain s = false ∧ isRootCove s
      = false ∧ s.tide.phase.get = 4 ∧ m.tide = sealedTide s ∧ m.tide.toNat ≠ 2 ^ 48 - 2 ∧ s.tide.decision = some
      (m.tide, .commit n l) ∧ n.toNat < 8192 ∧ s.tide.released = false ∧ s.cap.held = [] ∧ s.recov.waiting = [] ∧
      s.recov.state.get = 0 ∧ s.twin.state = 0 ∧ s.tide.mailbox = some mb ∧ s.stat.fwState.get = 2 :=
  ⟨commitd, { smc with tide := 5 }, 12, 3, 0, by and_intros <;> decide +kernel⟩

theorem witness_AbandonResumesOrHoldsTheFlood :
    (∃ (s : State) (m : SealMsg) (mb : Fin 8), FromOwnCove s m ∧ isCaptain s = false ∧ isRootCove s = false ∧
      s.tide.phase.get = 3 ∧ m.tide = sealedTide s + 1 ∧ decisionCode s m.tide = 0 ∧ s.cap.held = [] ∧ s.tide.mailbox =
      some mb ∧ s.stat.fwState.get = 2 ∧ m.arg = 1) ∧
    (∃ (s : State) (m : SealMsg) (mb : Fin 8), FromOwnCove s m ∧ isCaptain s = false ∧ isRootCove s = false ∧
      s.tide.phase.get = 3 ∧ m.tide = sealedTide s + 1 ∧ decisionCode s m.tide = 0 ∧ s.cap.held = [] ∧ s.tide.mailbox =
      some mb ∧ s.stat.fwState.get = 2 ∧ m.arg = 0 ∧ s.recov.state.get ≠ 6 ∧ s.power.season.get = 0 ∧ s.power.moving =
      false ∧ s.tide.noTide = false ∧ beyondTolerance s (liveSet s) = false) :=
  ⟨⟨readyM, { smc with arg := 1 }, 0, by decide +kernel, by decide +kernel, by decide +kernel⟩,
   ⟨readyM, smc, 0, by and_intros <;> decide +kernel⟩⟩

theorem witness_CaptainReportsUpTheTree :
    (∃ (s : State) (m : SealMsg) (p : Plan) (own : CovePlan) (parent : CovePlan) (child : CovePlan), s.ports.lkp = true
      ∧ s.power.season.get ≠ 2 ∧ s.recov.shadow = none ∧ s.recov.hoKnown = none ∧ s.recov.state.get = 0 ∧ isCaptain s =
      true ∧ isRootCove s = false ∧ s.job.plan = some p ∧ s.agree.cove = some own.coveId ∧ planCove p own.coveId = some
      own ∧ planCove p m.cove = some child ∧ childCoves p own.coveId = [child] ∧ parentCove p own.coveId = some parent
      ∧ parent.members.length = 1 ∧ m.tree = true ∧ m.destCove = own.coveId ∧ m.cove = child.coveId ∧ coveDamaged s =
      false ∧ (sealedTide s).toNat + 1 < 2 ^ 48 ∧ m.tide = sealedTide s + 1 ∧ m.arg = 0 ∧ decisionCode s m.tide = 0 ∧
      decisionCode s (sealedTide s) = 0 ∧ allReady s = true ∧ manifestsDiffer s = false ∧ s.tide.upReport = none ∧
      s.tide.reports = []) ∧
    (∃ (s : State) (m : SealMsg) (p : Plan) (own : CovePlan) (parent : CovePlan) (child : CovePlan), s.ports.lkp = true
      ∧ s.power.season.get ≠ 2 ∧ s.recov.shadow = none ∧ s.recov.hoKnown = none ∧ s.recov.state.get = 0 ∧ isCaptain s =
      true ∧ isRootCove s = false ∧ s.job.plan = some p ∧ s.agree.cove = some own.coveId ∧ planCove p own.coveId = some
      own ∧ planCove p m.cove = some child ∧ childCoves p own.coveId = [child] ∧ parentCove p own.coveId = some parent
      ∧ parent.members.length = 1 ∧ m.tree = true ∧ m.destCove = own.coveId ∧ m.cove = child.coveId ∧ coveDamaged s =
      false ∧ (sealedTide s).toNat + 1 < 2 ^ 48 ∧ m.tide = sealedTide s ∧ decisionCode s m.tide = 1 ∧ s.tide.released =
      false ∧ s.tide.upFlipped = none ∧ (∀ q ∈ livePositions s, q ∈ s.tide.flips)) ∧
    (∃ (s : State) (m : SealMsg) (p : Plan) (own : CovePlan) (parent : CovePlan) (child : CovePlan), s.ports.lkp = true
      ∧ s.power.season.get ≠ 2 ∧ s.recov.shadow = none ∧ s.recov.hoKnown = none ∧ s.recov.state.get = 0 ∧ isCaptain s =
      true ∧ isRootCove s = false ∧ s.job.plan = some p ∧ s.agree.cove = some own.coveId ∧ planCove p own.coveId = some
      own ∧ planCove p m.cove = some child ∧ childCoves p own.coveId = [child] ∧ parentCove p own.coveId = some parent
      ∧ parent.members.length = 1 ∧ m.tree = true ∧ m.destCove = own.coveId ∧ m.cove = child.coveId ∧ coveDamaged s =
      false ∧ (sealedTide s).toNat + 1 < 2 ^ 48 ∧ m.tide = sealedTide s + 1 ∧ decisionCode s m.tide = 0 ∧ allReady s =
      false ∧ manifestsDiffer s = false ∧ (∀ r, childReport s m.tide child.coveId = some r → r.state ≠ 3)) ∧
    (∃ (s : State) (m : SealMsg) (p : Plan) (own : CovePlan) (parent : CovePlan) (child : CovePlan) (st : _) (t0 : _),
      s.ports.lkp = true ∧ s.power.season.get ≠ 2 ∧ s.recov.shadow = none ∧ s.recov.hoKnown = none ∧ s.recov.state.get
      = 0 ∧ isCaptain s = true ∧ isRootCove s = false ∧ s.job.plan = some p ∧ s.agree.cove = some own.coveId ∧ planCove
      p own.coveId = some own ∧ planCove p m.cove = some child ∧ childCoves p own.coveId = [child] ∧ parentCove p
      own.coveId = some parent ∧ parent.members.length = 1 ∧ m.tree = true ∧ m.destCove = own.coveId ∧ m.cove =
      child.coveId ∧ coveDamaged s = false ∧ (sealedTide s).toNat + 1 < 2 ^ 48 ∧ s.tide.upReport = some (st, t0,
      s.time.gtc) ∧ s.tide.upFlipped = none) ∧
    (∃ (s : State) (m : SealMsg) (p : Plan) (own : CovePlan) (parent : CovePlan) (child : CovePlan) (st : _) (t0 : _),
      s.ports.lkp = true ∧ s.power.season.get ≠ 2 ∧ s.recov.shadow = none ∧ s.recov.hoKnown = none ∧ s.recov.state.get
      = 0 ∧ isCaptain s = true ∧ isRootCove s = false ∧ s.job.plan = some p ∧ s.agree.cove = some own.coveId ∧ planCove
      p own.coveId = some own ∧ planCove p m.cove = some child ∧ childCoves p own.coveId = [child] ∧ parentCove p
      own.coveId = some parent ∧ parent.members.length = 1 ∧ m.tree = true ∧ m.destCove = own.coveId ∧ m.cove =
      child.coveId ∧ coveDamaged s = false ∧ (sealedTide s).toNat + 1 < 2 ^ 48 ∧ s.tide.upReport = some (st, t0,
      s.time.gtc) ∧ s.tide.upFlipped = none) ∧
    (∃ (s : State) (m : SealMsg) (p : Plan) (own : CovePlan) (parent : CovePlan) (child : CovePlan) (st : _) (t0 : _)
      (due : _), s.ports.lkp = true ∧ s.power.season.get ≠ 2 ∧ s.recov.shadow = none ∧ s.recov.hoKnown = none ∧
      s.recov.state.get = 0 ∧ isCaptain s = true ∧ isRootCove s = false ∧ s.job.plan = some p ∧ s.agree.cove = some
      own.coveId ∧ planCove p own.coveId = some own ∧ planCove p m.cove = some child ∧ childCoves p own.coveId =
      [child] ∧ parentCove p own.coveId = some parent ∧ parent.members.length = 1 ∧ m.tree = true ∧ m.destCove =
      own.coveId ∧ m.cove = child.coveId ∧ coveDamaged s = false ∧ (sealedTide s).toNat + 1 < 2 ^ 48 ∧ s.tide.upReport
      = some (st, t0, due) ∧ s.tide.upFlipped = none ∧ s.time.gtc.toNat < due.toNat) ∧
    (∃ (s : State) (m : SealMsg) (p : Plan) (own : CovePlan) (parent : CovePlan) (child : CovePlan) (st : _) (t0 : _)
      (due : _), s.ports.lkp = true ∧ s.power.season.get ≠ 2 ∧ s.recov.shadow = none ∧ s.recov.hoKnown = none ∧
      s.recov.state.get = 0 ∧ isCaptain s = true ∧ isRootCove s = false ∧ s.job.plan = some p ∧ s.agree.cove = some
      own.coveId ∧ planCove p own.coveId = some own ∧ planCove p m.cove = some child ∧ childCoves p own.coveId =
      [child] ∧ parentCove p own.coveId = some parent ∧ parent.members.length = 1 ∧ m.tree = true ∧ m.destCove =
      own.coveId ∧ m.cove = child.coveId ∧ coveDamaged s = false ∧ (sealedTide s).toNat + 1 < 2 ^ 48 ∧ s.tide.upReport
      = some (st, t0, due) ∧ s.tide.upFlipped = none ∧ s.time.gtc.toNat < due.toNat) :=
  ⟨⟨capT, tm, planT, cove1, cvP, cove2, by and_intros <;> decide +kernel⟩,
   ⟨capT2, { tm with tide := 5 }, planT, cove1, cvP, cove2, by and_intros <;> decide +kernel⟩,
   ⟨capQ, tm, planT, cove1, cvP, cove2, by and_intros <;> decide +kernel⟩,
   ⟨capR, tm, planT, cove1, cvP, cove2, 2, (6 : U48), by and_intros <;> decide +kernel⟩,
   ⟨capR, { tm with tide := 5 }, planT, cove1, cvP, cove2, 2, (6 : U48), by and_intros <;> decide +kernel⟩,
   ⟨capRl, tm, planT, cove1, cvP, cove2, 2, (6 : U48), (1000001 : U64), by and_intros <;> decide +kernel⟩,
   ⟨capRl, { tm with tide := 5 }, planT, cove1, cvP, cove2, 2, (6 : U48), (1000001 : U64),
     by and_intros <;> decide +kernel⟩⟩

theorem witness_RootDecidesAndRepeatsTheDecision :
    (∃ (s : State) (m : SealMsg) (p : Plan), FromOwnCove s m ∧ isCaptain s = true ∧ s.job.plan = some p ∧
      p.coves.length = 1 ∧ isRootCove s = true ∧ s.recov.state.get = 0 ∧ (sealedTide s).toNat + 1 < 2 ^ 48 ∧
      coveDamaged s = false ∧ s.recov.handover = none ∧ s.recov.hoKnown = none ∧ m.tide = sealedTide s + 1 ∧
      s.tide.phase.get = 3 ∧ s.tide.decision = none ∧ s.tide.nextPolicy.auto = false ∧ (livePositions s).all (fun q =>
      find q (put m.origin.toNat m.body s.tide.readies) = some m.body) = true ∧ (∃ q, q ∈ otherLive s) ∧ s.tide.flips =
      []) ∧
    (∃ (s : State) (m : SealMsg) (p : Plan) (t0 : _) (n : _) (l : _), FromOwnCove s m ∧ isCaptain s = true ∧ s.job.plan
      = some p ∧ p.coves.length = 1 ∧ isRootCove s = true ∧ s.recov.state.get = 0 ∧ (sealedTide s).toNat + 1 < 2 ^ 48 ∧
      coveDamaged s = false ∧ s.recov.handover = none ∧ s.recov.hoKnown = none ∧ s.tide.decision = some (t0, .commit n
      l) ∧ s.tide.released = false ∧ s.tide.rootSent.toNat + 200000 ≤ s.time.gtc.toNat ∧ unacked s 0 ≠ []) ∧
    (∃ (s : State) (m : SealMsg) (p : Plan), FromOwnCove s m ∧ isCaptain s = true ∧ s.job.plan = some p ∧
      p.coves.length = 1 ∧ isRootCove s = true ∧ s.recov.state.get = 0 ∧ (sealedTide s).toNat + 1 < 2 ^ 48 ∧
      coveDamaged s = false ∧ s.recov.handover = none ∧ s.recov.hoKnown = none ∧ unacked s 0 = [] ∧ unacked s 1 = [] ∧
      unacked s 2 = []) :=
  ⟨⟨rootS, sm 0, plan1, by and_intros <;> first | exact ⟨1, by decide +kernel⟩ | decide +kernel⟩,
   ⟨rootD, sm 0, plan1, (5 : U48), (12 : U16), (3 : U32), by and_intros <;> decide +kernel⟩,
   ⟨rootA, sm 0, plan1, by and_intros <;> decide +kernel⟩⟩

theorem witness_SwitchMakesTheShadowsCurrent :
    (∃ (s : State), s.ports.lkp = true ∧ s.power.season.get ≠ 2 ∧ s.recov.shadow = none) ∧
    (∃ (s : State) (m : SealMsg) (sh : Shadow), s.ports.lkp = true ∧ s.power.season.get ≠ 2 ∧ s.recov.shadow = some sh
      ∧ m.tree = false ∧ sh.agree.cove = some m.cove ∧ m.view = sh.agree.epoch.get.truncate 16 ∧ sh.tide.released =
      false ∧ isCaptain { s with job := { s.job with plan := some sh.plan }, agree := sh.agree } = false) :=
  ⟨⟨capS, by decide +kernel⟩,
   ⟨shS, sm 0, shadow0, by decide +kernel⟩⟩

theorem witness_HeartbeatsSuspicionAndProbes :
    (∃ (s : State) (p : Partition), s.job.part = some p ∧ s.time.gtc.toNat % 8000 = 0 ∧ s.power.on = true ∧ s.ports.lkp
      = true ∧ s.agree.withdrawn = false) ∧
    (∃ (s : State), s.job.part = none ∧ s.time.gtc.toNat % 8000 = 0 ∧ s.power.on = true ∧ s.ports.lkp = true) ∧
    (∃ (s : State), s.time.gtc.toNat % 8000 ≠ 0) ∧
    (∃ (s : State) (q : Fin 8) (b : Beat), s.ports.lkp = true ∧ s.job.part.isSome = true ∧ s.power.season.get ≠ 2 ∧
      s.ports.fenced.getLsbD q.val = false ∧ b.jobTag = jobTag s ∧ b.season ≠ 2 ∧ (portMember s q = none ∨ (b.epoch -
      viewNow s).toNat = 0 ∨ 32767 < (b.epoch - viewNow s).toNat)) ∧
    (∃ (s : State) (q : Fin 8) (b : Beat), s.ports.lkp = true ∧ s.job.part.isSome = true ∧ s.power.season.get ≠ 2 ∧
      s.ports.fenced.getLsbD q.val = false ∧ b.jobTag = jobTag s ∧ b.season ≠ 2 ∧ (portMember s q = none ∨ (b.epoch -
      viewNow s).toNat = 0 ∨ 32767 < (b.epoch - viewNow s).toNat)) ∧
    (∃ (s : State) (q : Fin 8) (b : Beat), s.ports.lkp = true ∧ s.job.part.isSome = true ∧ s.power.season.get ≠ 2 ∧
      s.ports.fenced.getLsbD q.val = false ∧ b.jobTag = jobTag s ∧ b.season = 2) ∧
    (∃ (s : State) (q : Fin 8) (b : Beat), s.ports.lkp = true ∧ s.job.part.isSome = true ∧ s.power.season.get ≠ 2 ∧
      s.ports.fenced.getLsbD q.val = false ∧ b.jobTag = jobTag s ∧ b.season ≠ 2 ∧ (portMember s q).isSome = true ∧ 0 <
      (b.epoch - viewNow s).toNat ∧ (b.epoch - viewNow s).toNat ≤ 32767) ∧
    (∃ (s : State) (q : Fin 8) (b : Beat), s.ports.lkp = true ∧ s.job.part.isSome = true ∧ s.power.season.get ≠ 2 ∧
      s.ports.fenced.getLsbD q.val = false ∧ b.jobTag = jobTag s ∧ b.season ≠ 2 ∧ (portMember s q).isSome = true ∧ 0 <
      (b.epoch - viewNow s).toNat ∧ (b.epoch - viewNow s).toNat ≤ 32767) ∧
    (∃ (s : State) (q : Fin 8) (b : Beat), s.ports.lkp = true ∧ s.job.part.isSome = true ∧ s.power.season.get ≠ 2 ∧
      s.ports.fenced.getLsbD q.val = false ∧ b.jobTag ≠ jobTag s) ∧
    (∃ (s : State) (q : Fin 8), s.time.gtc.toNat < (s.agree.lastBeat.get q).toNat + 32000) ∧
    (∃ (s : State) (q : Fin 8), s.time.gtc.toNat < (s.agree.lastBeat.get q).toNat + 32000) ∧
    (∃ (s : State) (q : Fin 8) (r : Nat), (s.agree.lastBeat.get q).toNat + 32000 ≤ s.time.gtc.toNat ∧
      s.ports.fenced.getLsbD q.val = false ∧ s.agree.portSuspect.getLsbD q.val = false ∧ s.job.part.isSome = true ∧
      s.power.season.get ≠ 2 ∧ (∀ w ∈ s.agree.watchAt, w.1 ≠ q) ∧ s.ports.lkp = true ∧ portRank s q = some r ∧
      (namedRank s r = false ∨ (s.agree.wintering.getLsbD q.val = true ∧ memberAt s r = none))) ∧
    (∃ (s : State) (q : Fin 8) (r : Nat), (s.agree.lastBeat.get q).toNat + 32000 ≤ s.time.gtc.toNat ∧
      s.ports.fenced.getLsbD q.val = false ∧ s.agree.portSuspect.getLsbD q.val = false ∧ s.job.part.isSome = true ∧
      s.power.season.get ≠ 2 ∧ (∀ w ∈ s.agree.watchAt, w.1 ≠ q) ∧ s.ports.lkp = true ∧ portRank s q = some r ∧
      (namedRank s r = false ∨ (s.agree.wintering.getLsbD q.val = true ∧ memberAt s r = none))) ∧
    (∃ (s : State) (q : Fin 8) (r : Nat), (s.agree.lastBeat.get q).toNat + 32000 ≤ s.time.gtc.toNat ∧
      s.ports.fenced.getLsbD q.val = false ∧ s.agree.portSuspect.getLsbD q.val = false ∧ s.job.part.isSome = true ∧
      s.power.season.get ≠ 2 ∧ (∀ w ∈ s.agree.watchAt, w.1 ≠ q) ∧ s.ports.lkp = true ∧ portRank s q = some r ∧
      namedRank s r = true ∧ ((s.agree.wintering.getLsbD q.val = false ∧ memberAt s r = none) ∨ (6 ≤ q.val ∧ ∃ c p,
      memberAt s r = some (c, p) ∧ inCove s c = false))) ∧
    (∃ (s : State) (q : Fin 8) (r : Nat), (s.agree.lastBeat.get q).toNat + 32000 ≤ s.time.gtc.toNat ∧
      s.ports.fenced.getLsbD q.val = false ∧ s.agree.portSuspect.getLsbD q.val = false ∧ s.job.part.isSome = true ∧
      s.power.season.get ≠ 2 ∧ (∀ w ∈ s.agree.watchAt, w.1 ≠ q) ∧ s.ports.lkp = true ∧ portRank s q = some r ∧
      namedRank s r = true ∧ ((s.agree.wintering.getLsbD q.val = false ∧ memberAt s r = none) ∨ (6 ≤ q.val ∧ ∃ c p,
      memberAt s r = some (c, p) ∧ inCove s c = false))) ∧
    (∃ (s : State) (q : Fin 8) (r : Nat) (due : U64), find q s.agree.watchAt = some due ∧ portRank s q = some r ∧
      s.ports.lkp = true ∧ s.time.gtc.toNat < due.toNat) ∧
    (∃ (s : State) (q : Fin 8) (r : Nat) (due : U64), find q s.agree.watchAt = some due ∧ portRank s q = some r ∧
      s.ports.lkp = true ∧ due.toNat ≤ s.time.gtc.toNat) ∧
    (∃ (s : State), s.ports.lkp = true) ∧
    (∃ (s : State) (off : U16), s.ports.lkp = true ∧ off ≠ 0) ∧
    (∃ (s : State) (q : Fin 8) (r : Nat) (rest : List (Nat × ProbeWhy)), s.agree.probes = (r, .port q) :: rest ∧
      portMember s q = none) ∧
    (∃ (s : State) (q : Fin 8) (r : Nat) (rest : List (Nat × ProbeWhy)) (l : StatusLine), s.agree.probes = (r, .port q)
      :: rest ∧ portMember s q = none ∧ l.jobTag = jobTag s ∧ l.season ≠ 2 ∧ s.log.entries = []) :=
  ⟨⟨hb, part0, by decide +kernel⟩,
   ⟨up, by decide +kernel⟩,
   ⟨hbOff, by decide +kernel⟩,
   ⟨hb, 0, beat0, by decide +kernel⟩,
   ⟨planned, 7, { beat0 with epoch := 0x8000 }, by decide +kernel⟩,
   ⟨hb, 0, { beat0 with season := 2 }, by decide +kernel⟩,
   ⟨hb, 0, { beat0 with epoch := 2 }, by decide +kernel, by decide +kernel⟩,
   ⟨suspB, 2, { beat0 with epoch := 0x8000 }, by decide +kernel, by decide +kernel⟩,
   ⟨hb, 0, { beat0 with jobTag := 0 }, by decide +kernel⟩,
   ⟨{ hb with time.gtc := 31999 }, 0, by decide +kernel⟩,
   ⟨{ hb with time.gtc := 31999 }, 7, by decide +kernel⟩,
   ⟨hb, 4, 16, by and_intros <;> first | exact all_of (by decide +kernel) | decide +kernel⟩,
   ⟨planned, 4, 16, by and_intros <;> first | exact all_of (by decide +kernel) | decide +kernel⟩,
   ⟨hb, 6, 64,
     by and_intros <;> first | exact all_of (by decide +kernel) | exact .inr ⟨by decide +kernel, _, _, rfl, by decide +kernel⟩ | decide +kernel⟩,
   ⟨planned, 6, 64,
     by and_intros <;> first | exact all_of (by decide +kernel) | exact .inr ⟨by decide +kernel, _, _, rfl, by decide +kernel⟩ | decide +kernel⟩,
   ⟨watchL, 0, 1, 1000001, by decide +kernel⟩,
   ⟨watchS, 0, 1, 1000000, by decide +kernel⟩,
   ⟨hb, by decide +kernel⟩,
   ⟨hb, 1, by decide +kernel⟩,
   ⟨{ planned with agree.probes := [(1, .port 0), (2, .watch 3)] }, 0, 1, [(2, .watch 3)], by decide +kernel⟩,
   ⟨{ planned with agree.probes := [(1, .port 0), (2, .watch 3)] }, 0, 1, [(2, .watch 3)], sl0, by decide +kernel⟩⟩

theorem witness_MembersAnswerByBallot :
    (∃ (s : State) (m : AgreeMsg), OwnCoveMember s m ∧ m.epoch.toNat = (epochNow s).toNat + 1 ∧ (s.tide.phase.get ≠ 5 ∨
      foldIdle s = true) ∧ s.agree.promised.toNat < m.ballot.toNat) ∧
    (∃ (s : State) (m : AgreeMsg), OwnCoveMember s m ∧ m.epoch.toNat = (epochNow s).toNat + 1 ∧ (s.tide.phase.get ≠ 5 ∨
      foldIdle s = true) ∧ s.agree.promised.toNat < m.ballot.toNat) ∧
    (∃ (s : State) (m : AgreeMsg), OwnCoveMember s m ∧ m.epoch.toNat = (epochNow s).toNat + 1 ∧ m.ballot.toNat ≤
      s.agree.promised.toNat) ∧
    (∃ (s : State) (m : AgreeMsg), OwnCoveMember s m ∧ m.epoch.toNat = (epochNow s).toNat + 1 ∧ m.ballot.toNat ≤
      s.agree.promised.toNat) ∧
    (∃ (s : State) (m : AgreeMsg), OwnCoveMember s m ∧ m.epoch.toNat = (epochNow s).toNat + 1 ∧ s.tide.phase.get = 5 ∧
      foldIdle s = false ∧ s.agree.promised.toNat < m.ballot.toNat) ∧
    (∃ (s : State) (m : AgreeMsg), OwnCoveMember s m ∧ m.epoch.toNat = (epochNow s).toNat + 1 ∧ s.tide.phase.get = 5 ∧
      foldIdle s = false ∧ s.agree.promised.toNat < m.ballot.toNat) ∧
    (∃ (s : State) (m : AgreeMsg), OwnCoveMember s m ∧ m.epoch.toNat ≤ (epochNow s).toNat ∧ (∀ i ∈ s.agree.installs,
      i.epoch ≠ m.epoch)) ∧
    (∃ (s : State) (m : AgreeMsg), OwnCoveMember s m ∧ m.epoch.toNat ≤ (epochNow s).toNat ∧ (∀ i ∈ s.agree.installs,
      i.epoch ≠ m.epoch)) ∧
    (∃ (s : State) (m : AgreeMsg) (i : _), OwnCoveMember s m ∧ m.epoch.toNat ≤ (epochNow s).toNat ∧
      s.agree.installs.find? (fun j => j.epoch = m.epoch) = some i) ∧
    (∃ (s : State) (m : AgreeMsg), OwnCoveMember s m ∧ m.epoch.toNat = (epochNow s).toNat + 1 ∧ s.agree.promised.toNat
      ≤ m.ballot.toNat) ∧
    (∃ (s : State) (m : AgreeMsg), OwnCoveMember s m ∧ m.epoch.toNat = (epochNow s).toNat + 1 ∧ s.agree.promised.toNat
      ≤ m.ballot.toNat) ∧
    (∃ (s : State) (m : AgreeMsg), OwnCoveMember s m ∧ m.epoch.toNat = (epochNow s).toNat + 1 ∧ m.ballot.toNat <
      s.agree.promised.toNat) ∧
    (∃ (s : State) (m : AgreeMsg), OwnCoveMember s m ∧ m.epoch.toNat = (epochNow s).toNat + 1 ∧ m.ballot.toNat <
      s.agree.promised.toNat) :=
  ⟨⟨m3, am 2 0x105, ownCoveMember_of (by decide +kernel), by decide +kernel⟩,
   ⟨propS prop0, am 2 0x104, ownCoveMember_of (by decide +kernel), by decide +kernel⟩,
   ⟨m3, am 2 0, ownCoveMember_of (by decide +kernel), by decide +kernel⟩,
   ⟨propS prop0, am 2 0, ownCoveMember_of (by decide +kernel), by decide +kernel⟩,
   ⟨{ m3 with tide.phase := V3.all 5, fold.buffer := [fr0] }, am 2 0x105, ownCoveMember_of (by decide +kernel),
     by decide +kernel⟩,
   ⟨{ m3 with tide.phase := V3.all 5, fold.buffer := [fr0] }, am 2 0x104, ownCoveMember_of (by decide +kernel),
     by decide +kernel⟩,
   ⟨m3, am 1 0x999, ownCoveMember_of (by decide +kernel), by decide +kernel⟩,
   ⟨propS prop0, am 1 0x999, ownCoveMember_of (by decide +kernel), by decide +kernel⟩,
   ⟨heldI, am 1 0x999, am 1 0x105, ownCoveMember_of (by decide +kernel), by decide +kernel⟩,
   ⟨m3, am 2 0x105, ownCoveMember_of (by decide +kernel), by decide +kernel⟩,
   ⟨propS prop0, am 2 0, ownCoveMember_of (by decide +kernel), by decide +kernel⟩,
   ⟨promd, am 2 0x104, ownCoveMember_of (by decide +kernel), by decide +kernel⟩,
   ⟨promd, am 2 0, ownCoveMember_of (by decide +kernel), by decide +kernel⟩⟩

theorem witness_ProposersFollowTheRounds :
    (∃ (s : State) (m : AgreeMsg) (q : Nat) (r : Nat), OwnCoveMember s m ∧ m.arg.toNat = q ∧ (m.sender = 0xFF ∨ m.epoch
      = epochNow s) ∧ m.epoch.toNat ≤ (epochNow s).toNat ∧ (liveSet s).getLsbD q = true ∧ q ≠ ownPos s ∧ r < ownPos s ∧
      r ≠ q ∧ (liveSet s).getLsbD r = true ∧ r ∉ s.agree.suspects ∧ (∀ x ∈ s.agree.suspects, (liveSet s).getLsbD x =
      true)) ∧
    (∃ (s : State) (m : AgreeMsg) (q : Nat) (r : Nat), OwnCoveMember s m ∧ m.arg.toNat = q ∧ (m.sender = 0xFF ∨ m.epoch
      = epochNow s) ∧ m.epoch.toNat ≤ (epochNow s).toNat ∧ (liveSet s).getLsbD q = true ∧ q ≠ ownPos s ∧ r < ownPos s ∧
      r ≠ q ∧ (liveSet s).getLsbD r = true ∧ r ∉ s.agree.suspects ∧ (∀ x ∈ s.agree.suspects, (liveSet s).getLsbD x =
      true)) ∧
    (∃ (s : State) (due : U64) (r : Nat), s.agree.cove.isSome = true ∧ s.agree.state ≠ 0 ∧ s.agree.state ≠ 4 ∧
      s.agree.state ≠ 5 ∧ s.agree.withdrawn = false ∧ s.ports.lkp = true ∧ s.agree.timerAt = some due ∧ due.toNat ≤
      s.time.gtc.toNat ∧ s.agree.suspects ≠ [] ∧ s.agree.proposal = none ∧ s.agree.probes = [] ∧ s.agree.suspects.Nodup
      ∧ r < ownPos s ∧ (liveSet s).getLsbD r = true ∧ r ∉ s.agree.confirmed) ∧
    (∃ (s : State) (due : U64) (r : Nat), s.agree.cove.isSome = true ∧ s.agree.state ≠ 0 ∧ s.agree.state ≠ 4 ∧
      s.agree.state ≠ 5 ∧ s.agree.withdrawn = false ∧ s.ports.lkp = true ∧ s.agree.timerAt = some due ∧ due.toNat ≤
      s.time.gtc.toNat ∧ s.agree.suspects ≠ [] ∧ s.agree.proposal = none ∧ s.agree.probes = [] ∧ s.agree.suspects.Nodup
      ∧ r < ownPos s ∧ (liveSet s).getLsbD r = true ∧ r ∉ s.agree.confirmed) ∧
    (∃ (s : State), s.agree.cove.isSome = true ∧ s.agree.state ≠ 0 ∧ s.agree.state ≠ 4 ∧ s.agree.state ≠ 5 ∧
      s.agree.withdrawn = false ∧ s.ports.lkp = true ∧ s.agree.proposal = none ∧ s.agree.promised.toNat <
      (s.agree.round + 1) * 256 + ownPos s ∧ (s.agree.round + 1) * 256 + ownPos s < 2 ^ 32 ∧ (∃ due, s.agree.retryAt =
      some due ∧ due.toNat ≤ s.time.gtc.toNat) ∧ s.tide.phase.get ≠ 5) ∧
    (∃ (s : State), s.agree.cove.isSome = true ∧ s.agree.state ≠ 0 ∧ s.agree.state ≠ 4 ∧ s.agree.state ≠ 5 ∧
      s.agree.withdrawn = false ∧ s.ports.lkp = true ∧ s.agree.proposal = none ∧ s.agree.promised.toNat <
      (s.agree.round + 1) * 256 + ownPos s ∧ (s.agree.round + 1) * 256 + ownPos s < 2 ^ 32 ∧ s.agree.renewalDue = true
      ∧ isCaptain s = true ∧ s.tide.phase.get = 5 ∧ foldIdle s = true ∧ s.agree.wishes = []) ∧
    (∃ (s : State) (p : Proposal), s.agree.cove.isSome = true ∧ s.agree.state ≠ 0 ∧ s.agree.state ≠ 4 ∧ s.agree.state ≠
      5 ∧ s.agree.withdrawn = false ∧ s.ports.lkp = true ∧ s.agree.proposal = some p ∧ s.time.gtc.toNat < p.since.toNat
      + 50000) ∧
    (∃ (s : State) (p : Proposal), s.agree.cove.isSome = true ∧ s.agree.state ≠ 0 ∧ s.agree.state ≠ 4 ∧ s.agree.state ≠
      5 ∧ s.agree.withdrawn = false ∧ s.ports.lkp = true ∧ s.agree.proposal = some p ∧ p.since.toNat + 50000 ≤
      s.time.gtc.toNat ∧ p.accepting = false ∧ p.promises.length ≤ (livePositions s).length / 2) ∧
    (∃ (s : State) (p : Proposal), s.agree.cove.isSome = true ∧ s.agree.state ≠ 0 ∧ s.agree.state ≠ 4 ∧ s.agree.state ≠
      5 ∧ s.agree.withdrawn = false ∧ s.ports.lkp = true ∧ s.agree.proposal = some p ∧ p.since.toNat + 50000 ≤
      s.time.gtc.toNat ∧ p.accepting = false ∧ (livePositions s).length / 2 < p.promises.length ∧ (∀ r ∈ p.promises,
      r.acc = none) ∧ (∃ q ∈ s.agree.confirmed, (liveSet s).getLsbD q = true)) ∧
    (∃ (s : State) (p : Proposal) (m : AgreeMsg) (u : Nat), s.agree.cove.isSome = true ∧ s.agree.state ≠ 0 ∧
      s.agree.state ≠ 4 ∧ s.agree.state ≠ 5 ∧ s.agree.withdrawn = false ∧ s.ports.lkp = true ∧ s.agree.proposal = some
      p ∧ OwnCoveMember s m ∧ m.epoch = p.epoch ∧ m.ballot = p.ballot ∧ m.epoch.toNat ≤ (epochNow s).toNat + 1 ∧
      (liveSet s).getLsbD m.sender.toNat = true ∧ m.sender.toNat ∉ p.answered ∧ (liveSet s).getLsbD u = true ∧ u ≠
      ownPos s ∧ u ∉ s.agree.confirmed ∧ u ∉ p.answered ∧ u ≠ m.sender.toNat ∧ p.accepting = false ∧ m.arg = 0) ∧
    (∃ (s : State) (p : Proposal) (m : AgreeMsg) (u : Nat), s.agree.cove.isSome = true ∧ s.agree.state ≠ 0 ∧
      s.agree.state ≠ 4 ∧ s.agree.state ≠ 5 ∧ s.agree.withdrawn = false ∧ s.ports.lkp = true ∧ s.agree.proposal = some
      p ∧ OwnCoveMember s m ∧ m.epoch = p.epoch ∧ m.ballot = p.ballot ∧ m.epoch.toNat ≤ (epochNow s).toNat + 1 ∧
      (liveSet s).getLsbD m.sender.toNat = true ∧ m.sender.toNat ∉ p.answered ∧ (liveSet s).getLsbD u = true ∧ u ≠
      ownPos s ∧ u ∉ s.agree.confirmed ∧ u ∉ p.answered ∧ u ≠ m.sender.toNat ∧ p.accepting = false ∧ m.arg = 0) ∧
    (∃ (s : State) (p : Proposal) (m : AgreeMsg) (u : Nat), s.agree.cove.isSome = true ∧ s.agree.state ≠ 0 ∧
      s.agree.state ≠ 4 ∧ s.agree.state ≠ 5 ∧ s.agree.withdrawn = false ∧ s.ports.lkp = true ∧ s.agree.proposal = some
      p ∧ OwnCoveMember s m ∧ m.epoch = p.epoch ∧ m.ballot = p.ballot ∧ m.epoch.toNat ≤ (epochNow s).toNat + 1 ∧
      (liveSet s).getLsbD m.sender.toNat = true ∧ m.sender.toNat ∉ p.answered ∧ (liveSet s).getLsbD u = true ∧ u ≠
      ownPos s ∧ u ∉ s.agree.confirmed ∧ u ∉ p.answered ∧ u ≠ m.sender.toNat ∧ p.accepting = true) ∧
    (∃ (s : State) (p : Proposal) (m : AgreeMsg) (u : Nat), s.agree.cove.isSome = true ∧ s.agree.state ≠ 0 ∧
      s.agree.state ≠ 4 ∧ s.agree.state ≠ 5 ∧ s.agree.withdrawn = false ∧ s.ports.lkp = true ∧ s.agree.proposal = some
      p ∧ OwnCoveMember s m ∧ m.epoch = p.epoch ∧ m.ballot = p.ballot ∧ m.epoch.toNat ≤ (epochNow s).toNat + 1 ∧
      (liveSet s).getLsbD m.sender.toNat = true ∧ m.sender.toNat ∉ p.answered ∧ (liveSet s).getLsbD u = true ∧ u ≠
      ownPos s ∧ u ∉ s.agree.confirmed ∧ u ∉ p.answered ∧ u ≠ m.sender.toNat ∧ p.accepting = true) ∧
    (∃ (s : State) (p : Proposal) (m : AgreeMsg) (u : Nat), s.agree.cove.isSome = true ∧ s.agree.state ≠ 0 ∧
      s.agree.state ≠ 4 ∧ s.agree.state ≠ 5 ∧ s.agree.withdrawn = false ∧ s.ports.lkp = true ∧ s.agree.proposal = some
      p ∧ OwnCoveMember s m ∧ m.epoch = p.epoch ∧ m.ballot = p.ballot ∧ m.epoch.toNat ≤ (epochNow s).toNat + 1 ∧
      (liveSet s).getLsbD m.sender.toNat = true ∧ m.sender.toNat ∉ p.answered ∧ (liveSet s).getLsbD u = true ∧ u ≠
      ownPos s ∧ u ∉ s.agree.confirmed ∧ u ∉ p.answered ∧ u ≠ m.sender.toNat) ∧
    (∃ (s : State) (p : Proposal) (m : AgreeMsg) (u : Nat), s.agree.cove.isSome = true ∧ s.agree.state ≠ 0 ∧
      s.agree.state ≠ 4 ∧ s.agree.state ≠ 5 ∧ s.agree.withdrawn = false ∧ s.ports.lkp = true ∧ s.agree.proposal = some
      p ∧ OwnCoveMember s m ∧ m.epoch = p.epoch ∧ m.ballot = p.ballot ∧ m.epoch.toNat ≤ (epochNow s).toNat + 1 ∧
      (liveSet s).getLsbD m.sender.toNat = true ∧ m.sender.toNat ∉ p.answered ∧ (liveSet s).getLsbD u = true ∧ u ≠
      ownPos s ∧ u ∉ s.agree.confirmed ∧ u ∉ p.answered ∧ u ≠ m.sender.toNat) :=
  ⟨⟨m3, { am 1 0 with arg := 6 }, 6, 0, ownCoveMember_of (by decide +kernel), by decide +kernel, by decide +kernel,
     by decide +kernel⟩,
   ⟨propS propL, { am 0 0 with arg := 6, sender := 0xFF }, 6, 2, ownCoveMember_of (by decide +kernel),
     by decide +kernel, by decide +kernel, by decide +kernel⟩,
   ⟨suspS, (1000000 : U64), 0, by and_intros <;> decide +kernel⟩,
   ⟨suspS, (1000000 : U64), 2, by and_intros <;> decide +kernel⟩,
   ⟨retryS, by and_intros <;> first | exact ⟨1000000, by decide +kernel⟩ | decide +kernel⟩,
   ⟨renewS, by and_intros <;> decide +kernel⟩,
   ⟨propS propL, propL, by decide +kernel⟩,
   ⟨propS prop0, prop0, by decide +kernel, by decide +kernel, by decide +kernel⟩,
   ⟨propS prop5, prop5, by decide +kernel, by decide +kernel, by decide +kernel, by decide +kernel, by decide +kernel⟩,
   ⟨propS prop0, prop0, am 2 0x103, 6, by decide +kernel, by decide +kernel, by decide +kernel, by decide +kernel,
     by decide +kernel, by decide +kernel, by decide +kernel, ownCoveMember_of (by decide +kernel), by decide +kernel,
     by decide +kernel, by decide +kernel, by decide +kernel, by decide +kernel⟩,
   ⟨propS propL, propL, am 2 0x103, 7, by decide +kernel, by decide +kernel, by decide +kernel, by decide +kernel,
     by decide +kernel, by decide +kernel, by decide +kernel, ownCoveMember_of (by decide +kernel), by decide +kernel,
     by decide +kernel, by decide +kernel, by decide +kernel, by decide +kernel⟩,
   ⟨propS propA, propA, am 2 0x103, 6, by decide +kernel, by decide +kernel, by decide +kernel, by decide +kernel,
     by decide +kernel, by decide +kernel, by decide +kernel, ownCoveMember_of (by decide +kernel), by decide +kernel,
     by decide +kernel, by decide +kernel, by decide +kernel⟩,
   ⟨propS propA, propA, { am 2 0x103 with arg := 0x905 }, 7, by decide +kernel, by decide +kernel, by decide +kernel,
     by decide +kernel, by decide +kernel, by decide +kernel, by decide +kernel, ownCoveMember_of (by decide +kernel),
     by decide +kernel, by decide +kernel, by decide +kernel, by decide +kernel⟩,
   ⟨propS prop0, prop0, am 2 0x103, 6, by decide +kernel, by decide +kernel, by decide +kernel, by decide +kernel,
     by decide +kernel, by decide +kernel, by decide +kernel, ownCoveMember_of (by decide +kernel), by decide +kernel,
     by decide +kernel, by decide +kernel⟩,
   ⟨propS propL, propL, { am 2 0x103 with arg := 0x905 }, 7, by decide +kernel, by decide +kernel, by decide +kernel,
     by decide +kernel, by decide +kernel, by decide +kernel, by decide +kernel, ownCoveMember_of (by decide +kernel),
     by decide +kernel, by decide +kernel, by decide +kernel⟩⟩

theorem witness_ViewsAndAborts :
    (∃ (s : State) (m : AgreeMsg), OwnCoveMember s m ∧ s.recov.shadow = none ∧ m.epoch.toNat ≤ (epochNow s).toNat) ∧
    (∃ (s : State) (m : AgreeMsg), OwnCoveMember s m ∧ s.recov.shadow = none ∧ m.epoch.toNat ≤ (epochNow s).toNat) ∧
    (∃ (s : State) (m : AgreeMsg), OwnCoveMember s m ∧ s.recov.shadow = none ∧ (epochNow s).toNat < m.epoch.toNat ∧
      (BitVec.ofNat 16 (fldAt m.body 0 2)).getLsbD (ownPos s) = false) ∧
    (∃ (s : State) (m : AgreeMsg), OwnCoveMember s m ∧ s.recov.shadow = none ∧ (epochNow s).toNat < m.epoch.toNat ∧
      (BitVec.ofNat 16 (fldAt m.body 0 2)).getLsbD (ownPos s) = false) ∧
    (∃ (s : State) (m : AgreeMsg), OwnCoveMember s m ∧ s.recov.shadow = none ∧ (epochNow s).toNat < m.epoch.toNat ∧
      BitVec.ofNat 16 (fldAt m.body 0 2) = liveSet s ∧ (liveSet s).getLsbD (ownPos s) = true ∧ m.arg = 0 ∧ fldAt m.body
      12 4 = 0xFFFFFFFF ∧ captainOf (liveSet s) ≠ ownPos s ∧ s.agree.suspects = [] ∧ s.agree.wishes = [] ∧
      s.recov.waiting = [] ∧ s.recov.target = false ∧ s.recov.lost.get = 0) ∧
    (∃ (s : State) (m : AgreeMsg), OwnCoveMember s m ∧ s.recov.shadow = none ∧ (epochNow s).toNat < m.epoch.toNat ∧
      BitVec.ofNat 16 (fldAt m.body 0 2) = liveSet s ∧ (liveSet s).getLsbD (ownPos s) = true ∧ m.arg = 0 ∧ fldAt m.body
      12 4 = 0xFFFFFFFF ∧ captainOf (liveSet s) ≠ ownPos s ∧ s.agree.suspects = [] ∧ s.agree.wishes = [] ∧
      s.recov.waiting = [] ∧ s.recov.target = false ∧ s.recov.lost.get = 0) ∧
    (∃ (s : State) (m : AgreeMsg) (g : Nat), OwnCoveMember s m ∧ s.recov.shadow = none ∧ (epochNow s).toNat <
      m.epoch.toNat ∧ g < 16 ∧ g ≠ ownPos s ∧ (liveSet s).getLsbD g = true ∧ BitVec.ofNat 16 (fldAt m.body 0 2) =
      liveSet s &&& ~~~(BitVec.ofNat 16 (2 ^ g)) ∧ m.arg = 0 ∧ fldAt m.body 12 4 = 0xFFFFFFFF ∧ captainOf (BitVec.ofNat
      16 (fldAt m.body 0 2)) ≠ ownPos s ∧ s.agree.suspects = [] ∧ s.agree.wishes = [] ∧ s.tide.phase.get = 1 ∧
      s.tide.noTide = false ∧ s.tide.forming = none ∧ s.tide.mailbox = none ∧ s.recov.state.get = 0 ∧ s.recov.target =
      false ∧ (liveSet s).getLsbD (ownPos s) = true ∧ beyondTolerance s (BitVec.ofNat 16 (fldAt m.body 0 2)) = false) ∧
    (∃ (s : State) (m : AgreeMsg) (g : Nat), OwnCoveMember s m ∧ s.recov.shadow = none ∧ (epochNow s).toNat <
      m.epoch.toNat ∧ g < 16 ∧ g ≠ ownPos s ∧ (liveSet s).getLsbD g = true ∧ BitVec.ofNat 16 (fldAt m.body 0 2) =
      liveSet s &&& ~~~(BitVec.ofNat 16 (2 ^ g)) ∧ m.arg = 0 ∧ fldAt m.body 12 4 = 0xFFFFFFFF ∧ captainOf (BitVec.ofNat
      16 (fldAt m.body 0 2)) ≠ ownPos s ∧ s.agree.suspects = [] ∧ s.agree.wishes = [] ∧ s.tide.phase.get = 1 ∧
      s.tide.noTide = false ∧ s.tide.forming = none ∧ s.tide.mailbox = none ∧ s.recov.state.get = 0 ∧ s.recov.target =
      false ∧ (liveSet s).getLsbD (ownPos s) = true ∧ beyondTolerance s (BitVec.ofNat 16 (fldAt m.body 0 2)) = false) ∧
    (∃ (s : State) (m : AgreeMsg), OwnCoveMember s m ∧ s.recov.shadow = none ∧ m.epoch = epochNow s ∧ isCaptain s =
      false) ∧
    (∃ (s : State) (m : AgreeMsg) (at_ : U64), OwnCoveMember s m ∧ s.recov.shadow = none ∧ s.agree.firstSuspicion =
      some at_ ∧ s.time.gtc.toNat < at_.toNat + 1500000) ∧
    (∃ (s : State) (m : AgreeMsg) (at_ : U64), OwnCoveMember s m ∧ s.recov.shadow = none ∧ s.agree.firstSuspicion =
      some at_ ∧ s.time.gtc.toNat < at_.toNat + 1500000) ∧
    (∃ (s : State) (m : AgreeMsg) (at_ : U64), OwnCoveMember s m ∧ s.recov.shadow = none ∧ s.agree.firstSuspicion =
      some at_ ∧ hasQuorum s = true) ∧
    (∃ (s : State) (m : AgreeMsg) (at_ : U64), OwnCoveMember s m ∧ s.recov.shadow = none ∧ s.agree.firstSuspicion =
      some at_ ∧ at_.toNat + 1500000 ≤ s.time.gtc.toNat ∧ hasQuorum s = false) ∧
    (∃ (s : State) (m : AgreeMsg) (at_ : U64), OwnCoveMember s m ∧ s.recov.shadow = none ∧ s.agree.firstSuspicion =
      some at_ ∧ at_.toNat + 1500000 ≤ s.time.gtc.toNat ∧ hasQuorum s = false) ∧
    (∃ (s : State) (m : AgreeMsg), OwnCoveMember s m ∧ s.recov.shadow = none ∧ m.epoch.toNat ≤ (epochNow s).toNat ∧
      s.ports.fbp = true ∧ (m.cove, m.epoch, m.arg) ∈ s.agree.relayed) ∧
    (∃ (s : State) (m : AgreeMsg), OwnCoveMember s m ∧ s.recov.shadow = none ∧ m.epoch.toNat ≤ (epochNow s).toNat ∧
      s.ports.fbp = true ∧ (m.cove, m.epoch, m.arg) ∈ s.agree.relayed) ∧
    (∃ (s : State) (m : AgreeMsg), OwnCoveMember s m ∧ s.recov.shadow = none ∧ m.epoch.toNat ≤ (epochNow s).toNat ∧
      s.ports.fbp = true ∧ (m.cove, m.epoch, m.arg) ∉ s.agree.relayed) ∧
    (∃ (s : State) (m : AgreeMsg), OwnCoveMember s m ∧ s.recov.shadow = none ∧ m.epoch.toNat ≤ (epochNow s).toNat ∧
      s.ports.fbp = true ∧ (m.cove, m.epoch, m.arg) ∉ s.agree.relayed) ∧
    (∃ (s : State) (m : AgreeMsg), OwnCoveMember s m ∧ s.recov.shadow = none) :=
  ⟨⟨m3, inst 1 0xFF, ownCoveMember_of (by decide +kernel), by decide +kernel⟩,
   ⟨{ m3 with tide.phase := V3.all 5 }, ca 99, ownCoveMember_of (by decide +kernel), by decide +kernel⟩,
   ⟨m3, inst 2 0xF7, ownCoveMember_of (by decide +kernel), by decide +kernel⟩,
   ⟨{ m3 with tide.phase := V3.all 5 }, inst 2 0xF7, ownCoveMember_of (by decide +kernel), by decide +kernel⟩,
   ⟨m3, inst 2 0xFF, ownCoveMember_of (by decide +kernel), by decide +kernel, by decide +kernel, by decide +kernel,
     by decide +kernel, by decide +kernel⟩,
   ⟨{ m3 with tide.phase := V3.all 5 }, inst 2 0xFF, ownCoveMember_of (by decide +kernel), by decide +kernel,
     by decide +kernel, by decide +kernel, by decide +kernel, by decide +kernel⟩,
   ⟨m3, inst 2 0xDF, 5, ownCoveMember_of (by decide +kernel), by and_intros <;> decide +kernel⟩,
   ⟨relayedS, inst 7 0xFE, 0, ownCoveMember_of (by decide +kernel), by and_intros <;> decide +kernel⟩,
   ⟨m3, inst 1 0xFF, ownCoveMember_of (by decide +kernel), by decide +kernel⟩,
   ⟨susYes, inst 1 0xFF, 1, ownCoveMember_of (by decide +kernel), by decide +kernel⟩,
   ⟨susYes, inst 7 0xFE, 1, ownCoveMember_of (by decide +kernel), by decide +kernel⟩,
   ⟨{ propS { prop0 with promises := [0,1,2,3,4].map fun p => ⟨p, none, []⟩ } with agree.firstSuspicion := some 0 },
     inst 1 0xFF, 0, ownCoveMember_of (by decide +kernel), by decide +kernel⟩,
   ⟨susNo, inst 1 0xFF, 0, ownCoveMember_of (by decide +kernel), by decide +kernel⟩,
   ⟨susNo, inst 7 0xFE, 0, ownCoveMember_of (by decide +kernel), by decide +kernel⟩,
   ⟨relayedS, ca 1, ownCoveMember_of (by decide +kernel), by decide +kernel⟩,
   ⟨relayedS, ca 99, ownCoveMember_of (by decide +kernel), by decide +kernel⟩,
   ⟨m3, inst 1 0xFF, ownCoveMember_of (by decide +kernel), by decide +kernel⟩,
   ⟨{ m3 with tide.phase := V3.all 5 }, ca 99, ownCoveMember_of (by decide +kernel), by decide +kernel⟩,
   ⟨m3, inst 1 0xFF, ownCoveMember_of (by decide +kernel), by decide +kernel⟩⟩

theorem witness_PlanTravelsTheTree :
    (∃ (s : State) (m : AgreeMsg), OwnJobMessage s m ∧ s.bcast = BcastS.reset ∧ m.epoch = 0) ∧
    (∃ (s : State) (m : AgreeMsg), OwnJobMessage s m ∧ s.bcast.fragments ≠ [] ∧ s.bcast.complete = false ∧
      s.bcast.ended = false ∧ m.ballot = s.bcast.ballot ∧ m.epoch.toNat = s.bcast.fragments.length ∧ m.epoch.toNat <
      (s.bcast.length + 255) / 256) ∧
    (∃ (s : State) (m : AgreeMsg), OwnJobMessage s m ∧ s.bcast.fragments ≠ [] ∧ s.bcast.complete = false ∧
      s.bcast.ended = false ∧ m.ballot = s.bcast.ballot ∧ m.epoch.toNat = s.bcast.fragments.length ∧ m.epoch.toNat <
      (s.bcast.length + 255) / 256) ∧
    (∃ (s : State) (m : AgreeMsg), OwnJobMessage s m ∧ s.bcast.fragments ≠ [] ∧ s.bcast.complete = false ∧
      s.bcast.ended = false ∧ m.ballot = s.bcast.ballot ∧ m.epoch.toNat < s.bcast.fragments.length) ∧
    (∃ (s : State) (m : AgreeMsg), OwnJobMessage s m ∧ s.bcast.fragments ≠ [] ∧ s.bcast.complete = false ∧
      s.bcast.ended = false ∧ m.ballot = s.bcast.ballot ∧ m.epoch.toNat < s.bcast.fragments.length) ∧
    (∃ (s : State) (m : AgreeMsg) (r : _), OwnJobMessage s m ∧ s.bcast.fragments ≠ [] ∧ s.bcast.complete = false ∧
      s.bcast.ended = false ∧ m.ballot = s.bcast.ballot ∧ s.bcast.fragments.length < m.epoch.toNat ∧ s.bcast.parent =
      some r ∧ s.agree.probes = []) ∧
    (∃ (s : State) (m : AgreeMsg) (r : _), OwnJobMessage s m ∧ s.bcast.fragments ≠ [] ∧ s.bcast.complete = false ∧
      s.bcast.ended = false ∧ m.ballot = s.bcast.ballot ∧ s.bcast.fragments.length < m.epoch.toNat ∧ s.bcast.parent =
      some r ∧ s.agree.probes = []) ∧
    (∃ (s : State) (m : AgreeMsg), OwnJobMessage s m ∧ s.bcast.fragments ≠ [] ∧ s.bcast.complete = false ∧
      s.bcast.ended = false ∧ m.ballot ≠ s.bcast.ballot) ∧
    (∃ (s : State) (m : AgreeMsg), OwnJobMessage s m ∧ s.bcast.fragments ≠ []) ∧
    (∃ (s : State) (m : AgreeMsg) (r : _), OwnJobMessage s m ∧ s.bcast.fragments ≠ [] ∧ m.ballot = s.bcast.ballot ∧
      s.bcast.children = [m.arg.toNat] ∧ s.bcast.complete = true ∧ s.bcast.ended = false ∧ s.bcast.mailbox = none ∧
      s.bcast.parent = some r ∧ s.bcast.lostChildren = [] ∧ s.bcast.acked = []) ∧
    (∃ (s : State) (r : _), s.ports.lkp = true ∧ s.bcast.complete = false ∧ s.bcast.ended = false ∧ s.bcast.parent =
      some r ∧ s.agree.probes = [] ∧ s.time.gtc.toNat < s.bcast.lastFragment.toNat + 1000000) ∧
    (∃ (s : State) (r : _), s.ports.lkp = true ∧ s.bcast.complete = false ∧ s.bcast.ended = false ∧ s.bcast.parent =
      some r ∧ s.agree.probes = [] ∧ s.bcast.lastFragment.toNat + 1000000 ≤ s.time.gtc.toNat) ∧
    (∃ (s : State) (c : Nat) (at_ : U64), s.ports.lkp = true ∧ find c s.bcast.sentAt = some at_ ∧ s.bcast.complete =
      true ∧ s.bcast.ended = false ∧ c ∈ s.bcast.children ∧ (∀ a ∈ s.bcast.acked, a.1 ≠ c) ∧ c ∉ s.bcast.lostChildren ∧
      s.time.gtc.toNat < at_.toNat + 5000000) ∧
    (∃ (s : State) (c : Nat) (at_ : U64), s.ports.lkp = true ∧ find c s.bcast.sentAt = some at_ ∧ s.bcast.complete =
      true ∧ s.bcast.ended = false ∧ c ∈ s.bcast.children ∧ (∀ a ∈ s.bcast.acked, a.1 ≠ c) ∧ c ∉ s.bcast.lostChildren ∧
      at_.toNat + 5000000 ≤ s.time.gtc.toNat) ∧
    (∃ (s : State), s.ports.lkp = true ∧ s.bcast.fragments ≠ [] ∧ s.bcast.complete = false ∧ ownRank s ≠ 0 ∧
      s.bcast.lastFragment.toNat + 10000000 ≤ s.time.gtc.toNat) ∧
    (∃ (s : State), s.ports.lkp = true ∧ (s.bcast.fragments = [] ∨ s.bcast.complete = true ∨ ownRank s = 0 ∨
      s.time.gtc.toNat < s.bcast.lastFragment.toNat + 10000000)) ∧
    (∃ (s : State), s.ports.lkp = true ∧ (s.bcast.fragments = [] ∨ s.bcast.complete = true ∨ ownRank s = 0 ∨
      s.time.gtc.toNat < s.bcast.lastFragment.toNat + 10000000)) :=
  ⟨⟨member, pm 0 77, by decide +kernel, by decide +kernel⟩,
   ⟨bcS, pm 2 77, by decide +kernel, by decide +kernel⟩,
   ⟨bcRoot, pm 2 77, by decide +kernel, by decide +kernel⟩,
   ⟨bcS, pm 0 77, by decide +kernel, by decide +kernel⟩,
   ⟨bcRoot, pm 1 77, by decide +kernel, by decide +kernel⟩,
   ⟨bcS, pm 3 77, 0, by decide +kernel, by decide +kernel⟩,
   ⟨bcL, pm 3 77, 0, by decide +kernel, by decide +kernel⟩,
   ⟨bcS, pm 3 78, by decide +kernel, by decide +kernel⟩,
   ⟨bcS, pm 0 77, by decide +kernel, by decide +kernel⟩,
   ⟨bcDone, pm 0 77, 0, by decide +kernel, by decide +kernel, by decide +kernel⟩,
   ⟨bcL, 0, by decide +kernel⟩,
   ⟨bcS, 0, by decide +kernel⟩,
   ⟨bcDoneE, 2, 5, by decide +kernel⟩,
   ⟨bcDone, 2, 5, by decide +kernel⟩,
   ⟨{ bcL with time.gtc := 10000001, job := { bcL.job with part := some { part0 with own := (1,0,0) } } },
     by decide +kernel⟩,
   ⟨member, by decide +kernel⟩,
   ⟨partdS, by decide +kernel⟩⟩

theorem witness_PlansAreTakenByCommand :
    (∃ (s : State) (mb : Fin 8) (priv : Bool) (cmd : Line) (plan : Plan), Handled s mb priv 0x05 cmd ∧ s.job.taking =
      none ∧ s.bcast.mailbox = none ∧ fld cmd 1 1 = 0 ∧ fld cmd 8 8 % 64 = 0 ∧ 0 < fld cmd 16 4 ∧ fld cmd 16 4 ≤
      8388608 ∧ planOk s plan = true) ∧
    (∃ (s : State) (mb : Fin 8) (priv : Bool) (cmd : Line) (plan : Plan), Handled s mb priv 0x05 cmd ∧ s.job.taking =
      none ∧ s.bcast.mailbox = none ∧ fld cmd 1 1 = 0 ∧ fld cmd 8 8 % 64 = 0 ∧ 0 < fld cmd 16 4 ∧ fld cmd 16 4 ≤
      8388608 ∧ planOk s plan = true) ∧
    (∃ (s : State) (mb : Fin 8) (priv : Bool) (cmd : Line) (plan : Plan), Handled s mb priv 0x05 cmd ∧ s.job.taking =
      none ∧ s.bcast.mailbox = none ∧ fld cmd 1 1 = 0 ∧ fld cmd 8 8 % 64 = 0 ∧ 0 < fld cmd 16 4 ∧ fld cmd 16 4 ≤
      8388608 ∧ planOk s plan = false) ∧
    (∃ (s : State) (mb : Fin 8) (priv : Bool) (cmd : Line) (plan : Plan), Handled s mb priv 0x05 cmd ∧ s.job.taking =
      none ∧ s.bcast.mailbox = none ∧ fld cmd 1 1 = 0 ∧ fld cmd 8 8 % 64 = 0 ∧ 0 < fld cmd 16 4 ∧ fld cmd 16 4 ≤
      8388608 ∧ planOk s plan = false) ∧
    (∃ (s : State) (mb : Fin 8) (priv : Bool) (cmd : Line), Handled s mb priv 0x05 cmd ∧ s.job.taking = none ∧
      s.bcast.mailbox = none ∧ fld cmd 1 1 = 1 ∧ ownRank s ≠ 0) ∧
    (∃ (s : State) (mb : Fin 8) (priv : Bool) (cmd : Line), Handled s mb priv 0x05 cmd ∧ s.job.taking = none ∧
      s.bcast.mailbox = none ∧ fld cmd 1 1 = 0 ∧ fld cmd 8 8 % 64 ≠ 0) ∧
    (∃ (s : State) (mb : Fin 8) (priv : Bool) (cmd : Line), Handled s mb priv 0x05 cmd ∧ s.job.taking = none ∧
      s.bcast.mailbox = none ∧ fld cmd 1 1 = 0 ∧ fld cmd 8 8 % 64 = 0 ∧ 8388608 < fld cmd 16 4) ∧
    (∃ (s : State) (mb : Fin 8) (priv : Bool) (cmd : Line), Handled s mb priv 0x05 cmd ∧ s.job.taking = none ∧
      s.bcast.mailbox = none ∧ fld cmd 1 1 = 0 ∧ fld cmd 8 8 % 64 = 0 ∧ 8388608 < fld cmd 16 4) ∧
    (∃ (s : State) (mb : Fin 8) (priv : Bool) (cmd : Line) (plan : Plan), Handled s mb priv 0x13 cmd ∧ fld cmd 1 1 = 1
      ∧ fld cmd 8 8 % 64 = 0 ∧ 0 < fld cmd 16 4 ∧ fld cmd 16 4 ≤ 8388608 ∧ ownRank s = 0 ∧ s.tide.phase.get = 5 ∧
      (s.recov.state.get = 5 ∨ s.recov.state.get = 3) ∧ planOk s plan = true ∧ s.job.taking = none ∧ s.bcast.mailbox =
      none ∧ (∃ v, declareShadow s plan none = .inr v)) ∧
    (∃ (s : State) (mb : Fin 8) (priv : Bool) (cmd : Line) (plan : Plan), Handled s mb priv 0x13 cmd ∧ fld cmd 1 1 = 1
      ∧ fld cmd 8 8 % 64 = 0 ∧ 0 < fld cmd 16 4 ∧ fld cmd 16 4 ≤ 8388608 ∧ ownRank s = 0 ∧ s.tide.phase.get = 5 ∧
      (s.recov.state.get = 5 ∨ s.recov.state.get = 3) ∧ planOk s plan = true ∧ s.job.taking = none ∧ s.bcast.mailbox =
      none ∧ (∃ v, declareShadow s plan none = .inr v)) ∧
    (∃ (s : State) (mb : Fin 8) (priv : Bool) (cmd : Line), Handled s mb priv 0x13 cmd ∧ fld cmd 1 1 = 1 ∧ fld cmd 8 8
      % 64 = 0 ∧ 0 < fld cmd 16 4 ∧ fld cmd 16 4 ≤ 8388608 ∧ ownRank s = 0 ∧ s.tide.phase.get = 1) ∧
    (∃ (s : State) (mb : Fin 8) (priv : Bool) (cmd : Line), Handled s mb priv 0x13 cmd ∧ fld cmd 1 1 = 1 ∧ fld cmd 8 8
      % 64 = 0 ∧ 0 < fld cmd 16 4 ∧ fld cmd 16 4 ≤ 8388608 ∧ ownRank s = 0 ∧ s.tide.phase.get = 1) ∧
    (∃ (s : State) (priv : Bool) (cmd : Line) (plan : Plan), Handled s 7 priv 0x22 cmd ∧ fld cmd 1 1 = 0 ∧ s.job.taking
      = none ∧ planOk s plan = true ∧ s.bcast.complete = true ∧ fld cmd 8 8 = s.bcast.length ∧ fld cmd 24 32 = leNat
      s.bcast.digest) ∧
    (∃ (s : State) (mb : Fin 8) (plan : Plan), s.job.taking = some (mb, plan, false) ∧ s.bcast.mailbox = none ∧ (box s
      7).done = false ∧ mb ≠ 7 ∧ s.stat.fwState.get = 2 ∧ s.ctrl.compatA.get = 0) ∧
    (∃ (s : State), s.job.taking = none) :=
  ⟨⟨in8 partdS, 0, true, c8 5 [(8,8,0x2000000),(16,4,8388608)], planV, handled_of (by decide +kernel),
     by decide +kernel⟩,
   ⟨in8 partdS, 5, false, c8 5 [(8,8,0x2000040),(16,4,64)], planV, handled_of (by decide +kernel), by decide +kernel⟩,
   ⟨partdS, 0, true, c8 5 [(8,8,0x2000000),(16,4,8388608)], plan0, handled_of (by decide +kernel), by decide +kernel⟩,
   ⟨peerS, 5, false, c8 5 [(8,8,0x2000040),(16,4,64)], planN, handled_of (by decide +kernel), by decide +kernel⟩,
   ⟨partd5, 0, true, c8 0x85 [(1,1,1),(8,8,0x2000040),(16,4,64)], handled_of (by decide +kernel), by decide +kernel⟩,
   ⟨partdS, 0, true, c8 5 [(8,8,7)], handled_of (by decide +kernel), by decide +kernel⟩,
   ⟨partdS, 0, true, c8 5 [(8,8,64),(16,4,8388609)], handled_of (by decide +kernel), by decide +kernel⟩,
   ⟨peerS, 5, false, c8 5 [(8,8,64),(16,4,8388609)], handled_of (by decide +kernel), by decide +kernel⟩,
   ⟨in8 resume0, 0, true, c8 0x13 [(1,1,1),(8,8,0x2000000),(16,4,3)], planR, handled_of (by decide +kernel),
     by decide +kernel, by decide +kernel, by decide +kernel, by decide +kernel, by decide +kernel, by decide +kernel,
     by decide +kernel, by decide +kernel, by decide +kernel, by decide +kernel, inr_of (by decide +kernel)⟩,
   ⟨{ in8 resume0 with recov.state := V3.all 3 }, 5, false, c8 0x13 [(1,1,1),(8,8,0x2000000),(16,4,3)], planR,
     handled_of (by decide +kernel), by decide +kernel, by decide +kernel, by decide +kernel, by decide +kernel,
     by decide +kernel, by decide +kernel, by decide +kernel, by decide +kernel, by decide +kernel, by decide +kernel,
     inr_of (by decide +kernel)⟩,
   ⟨in8 { resume0 with tide.phase := V3.all 1 }, 0, true, c8 0x13 [(1,1,1),(8,8,0x2000000),(16,4,3)], handled_of
     (by decide +kernel), by decide +kernel⟩,
   ⟨in8 { resume0 with tide.phase := V3.all 1 }, 5, false, c8 0x13 [(1,1,1),(8,8,0x2000000),(16,4,3)], handled_of
     (by decide +kernel), by decide +kernel⟩,
   ⟨in8 peerS, true, mkLine [(0,1,0x22),(2,2,7),(8,8,600),(16,4,0),(24,32,leNat (List.replicate 32 7))], planV,
     handled_of (by decide +kernel), by decide +kernel⟩,
   ⟨takingS, 0, plan0, by decide +kernel⟩,
   ⟨partdS, by decide +kernel⟩⟩

theorem witness_TargetsAreClaimedAndTaken :
    (∃ (s : State) (m : AgreeMsg), OwnJobMessage s m ∧ s.stat.fwState.get = 2 ∧ (box s 7).busy = false ∧ s.mb.peer =
      []) ∧
    (∃ (s : State) (m : AgreeMsg), OwnJobMessage s m ∧ s.stat.fwState.get = 2 ∧ (box s 7).busy = false ∧ s.mb.peer = []
      ∧ planGroup s (m.arg.truncate 16) = none) ∧
    (∃ (s : State) (m : AgreeMsg) (r : Nat) (pos : Nat) (p : Plan), OwnCoveMember s m ∧ isCaptain s = true ∧ s.job.plan
      = some p ∧ m.ballot.toNat = pos ∧ pos < 16 ∧ (liveSet s).getLsbD pos = false ∧ lostPositions s = [pos] ∧
      s.recov.asked = some (pos, r) ∧ s.agree.wishes = [] ∧ s.agree.proposal = none ∧ m.arg = 0) ∧
    (∃ (s : State) (m : AgreeMsg) (r : Nat) (pos : Nat) (p : Plan), OwnCoveMember s m ∧ isCaptain s = true ∧ s.job.plan
      = some p ∧ m.ballot.toNat = pos ∧ pos < 16 ∧ (liveSet s).getLsbD pos = false ∧ lostPositions s = [pos] ∧
      s.recov.asked = some (pos, r) ∧ s.agree.wishes = [] ∧ s.agree.proposal = none ∧ m.arg = 0) ∧
    (∃ (s : State) (m : AgreeMsg) (r : Nat) (pos : Nat) (p : Plan) (r2 : _), OwnCoveMember s m ∧ isCaptain s = true ∧
      s.job.plan = some p ∧ m.ballot.toNat = pos ∧ pos < 16 ∧ (liveSet s).getLsbD pos = false ∧ lostPositions s = [pos]
      ∧ s.recov.asked = some (pos, r) ∧ s.agree.wishes = [] ∧ s.agree.proposal = none ∧ m.arg = 1 ∧
      p.standbys[s.recov.tried]? = some r2 ∧ s.recov.state.get ≠ 1) ∧
    (∃ (s : State) (m : AgreeMsg) (r : Nat) (pos : Nat) (p : Plan), OwnCoveMember s m ∧ isCaptain s = true ∧ s.job.plan
      = some p ∧ m.ballot.toNat = pos ∧ pos < 16 ∧ (liveSet s).getLsbD pos = false ∧ lostPositions s = [pos] ∧
      s.recov.asked = some (pos, r) ∧ s.agree.wishes = [] ∧ s.agree.proposal = none ∧ m.arg = 1 ∧
      p.standbys[s.recov.tried]? = none ∧ s.recov.state.get ≠ 1 ∧ s.recov.state.get ≠ 6 ∧ s.recov.rollingBack = false ∧
      s.ports.mgp = true) ∧
    (∃ (s : State) (priv : Bool) (cmd : Line) (p : Plan) (c : CovePlan), Handled s 7 priv 0x20 cmd ∧ s.mb.peer = [] ∧
      s.ports.lkp = true ∧ s.job.plan = some p ∧ planCove p (BitVec.ofNat 16 (fld cmd 8 2)) = some c ∧ fld cmd 10 1 <
      Layout.n c.layout ∧ s.recov.grant = none ∧ qualifies s (BitVec.ofNat 16 (fld cmd 8 2)) (fld cmd 10 1)
      (BitVec.ofNat 16 (fld cmd 30 2)) = false) ∧
    (∃ (s : State) (priv : Bool) (cmd : Line) (p : Plan) (c : CovePlan), Handled s 7 priv 0x20 cmd ∧ s.mb.peer = [] ∧
      s.ports.lkp = true ∧ s.job.plan = some p ∧ planCove p (BitVec.ofNat 16 (fld cmd 8 2)) = some c ∧ fld cmd 10 1 <
      Layout.n c.layout ∧ s.recov.grant = none ∧ qualifies s (BitVec.ofNat 16 (fld cmd 8 2)) (fld cmd 10 1)
      (BitVec.ofNat 16 (fld cmd 30 2)) = false) ∧
    (∃ (s : State) (priv : Bool) (cmd : Line) (p : Plan) (c : CovePlan) (u : _), Handled s 7 priv 0x20 cmd ∧ s.mb.peer
      = [] ∧ s.ports.lkp = true ∧ s.job.plan = some p ∧ planCove p (BitVec.ofNat 16 (fld cmd 8 2)) = some c ∧ fld cmd
      10 1 < Layout.n c.layout ∧ s.recov.grant = none ∧ qualifies s (BitVec.ofNat 16 (fld cmd 8 2)) (fld cmd 10 1)
      (BitVec.ofNat 16 (fld cmd 30 2)) = true ∧ takeRegions s p c (fld cmd 10 1) = .inr u) ∧
    (∃ (s : State) (priv : Bool) (cmd : Line) (p : Plan) (c : CovePlan) (u : _), Handled s 7 priv 0x20 cmd ∧ s.mb.peer
      = [] ∧ s.ports.lkp = true ∧ s.job.plan = some p ∧ planCove p (BitVec.ofNat 16 (fld cmd 8 2)) = some c ∧ fld cmd
      10 1 < Layout.n c.layout ∧ s.recov.grant = none ∧ qualifies s (BitVec.ofNat 16 (fld cmd 8 2)) (fld cmd 10 1)
      (BitVec.ofNat 16 (fld cmd 30 2)) = true ∧ takeRegions s p c (fld cmd 10 1) = .inr u) ∧
    (∃ (s : State) (priv : Bool) (cmd : Line) (p : Plan) (c : CovePlan) (g : _), Handled s 7 priv 0x20 cmd ∧ s.mb.peer
      = [] ∧ s.ports.lkp = true ∧ s.job.plan = some p ∧ planCove p (BitVec.ofNat 16 (fld cmd 8 2)) = some c ∧ fld cmd
      10 1 < Layout.n c.layout ∧ s.recov.grant = some g ∧ g.cove.toNat = fld cmd 8 2 ∧ g.position = fld cmd 10 1 ∧
      g.epoch.toNat = fld cmd 12 4 ∧ g.handover = false) ∧
    (∃ (s : State) (priv : Bool) (cmd : Line) (p : Plan) (c : U16) (i : Nat), Handled s 7 priv 0x21 cmd ∧ s.mb.peer =
      [] ∧ s.job.plan = some p ∧ jobPlace p.coves (fld cmd 24 4) = some (c, i) ∧ s.agree.cove ≠ some c ∧
      s.job.rankChanges = []) ∧
    (∃ (s : State) (mb : Fin 8) (priv : Bool) (cmd : Line) (p : Plan) (c : CovePlan), Handled s mb priv 0x12 cmd ∧ fld
      cmd 8 1 = 0 ∧ s.job.plan = some p ∧ planCove p (BitVec.ofNat 16 (fld cmd 10 2)) = some c ∧ (fld cmd 9 1 = 0 ∨ 8 <
      fld cmd 9 1)) ∧
    (∃ (s : State) (mb : Fin 8) (priv : Bool) (cmd : Line) (p : Plan) (c : CovePlan), Handled s mb priv 0x12 cmd ∧ fld
      cmd 8 1 = 0 ∧ s.job.plan = some p ∧ planCove p (BitVec.ofNat 16 (fld cmd 10 2)) = some c ∧ (fld cmd 9 1 = 0 ∨ 8 <
      fld cmd 9 1)) ∧
    (∃ (s : State) (mb : Fin 8) (priv : Bool) (cmd : Line) (p : Plan) (c : CovePlan), Handled s mb priv 0x12 cmd ∧ fld
      cmd 8 1 = 0 ∧ s.job.plan = some p ∧ planCove p (BitVec.ofNat 16 (fld cmd 10 2)) = some c ∧ 1 ≤ fld cmd 9 1 ∧ fld
      cmd 9 1 + c.share ≤ 8 ∧ fld cmd 12 1 < Layout.n c.layout ∧ s.recov.ask = none ∧ s.recov.mailbox = none ∧
      s.agree.cove = none ∧ s.job.state = 2 ∧ s.ports.lkp = true ∧ s.recov.grant = none) ∧
    (∃ (s : State) (mb : Fin 8) (priv : Bool) (cmd : Line) (p : Plan) (c : CovePlan), Handled s mb priv 0x12 cmd ∧ fld
      cmd 8 1 = 0 ∧ s.job.plan = some p ∧ planCove p (BitVec.ofNat 16 (fld cmd 10 2)) = some c ∧ 1 ≤ fld cmd 9 1 ∧ fld
      cmd 9 1 + c.share ≤ 8 ∧ fld cmd 12 1 < Layout.n c.layout ∧ s.recov.ask = none ∧ s.recov.mailbox = none ∧
      s.agree.cove = none ∧ s.job.state = 2 ∧ s.ports.lkp = true ∧ s.recov.grant = none) ∧
    (∃ (s : State) (mb : Fin 8) (priv : Bool) (cmd : Line) (p : Plan) (c : CovePlan) (g : _), Handled s mb priv 0x12
      cmd ∧ fld cmd 8 1 = 0 ∧ s.job.plan = some p ∧ planCove p (BitVec.ofNat 16 (fld cmd 10 2)) = some c ∧ 1 ≤ fld cmd
      9 1 ∧ fld cmd 9 1 + c.share ≤ 8 ∧ fld cmd 12 1 < Layout.n c.layout ∧ s.recov.ask = none ∧ s.recov.mailbox = none
      ∧ s.agree.cove = none ∧ s.job.state = 2 ∧ s.ports.lkp = true ∧ s.recov.grant = some g ∧ g.cove.toNat = fld cmd 10
      2 ∧ g.position = fld cmd 12 1 ∧ g.live.getLsbD g.position = false ∧ qualifies s g.cove g.position g.live = true) ∧
    (∃ (s : State) (mb : Fin 8) (priv : Bool) (cmd : Line) (p : Plan) (c : CovePlan) (g : _), Handled s mb priv 0x12
      cmd ∧ fld cmd 8 1 = 0 ∧ s.job.plan = some p ∧ planCove p (BitVec.ofNat 16 (fld cmd 10 2)) = some c ∧ 1 ≤ fld cmd
      9 1 ∧ fld cmd 9 1 + c.share ≤ 8 ∧ fld cmd 12 1 < Layout.n c.layout ∧ s.recov.ask = none ∧ s.recov.mailbox = none
      ∧ s.agree.cove = none ∧ s.job.state = 2 ∧ s.ports.lkp = true ∧ s.recov.grant = some g ∧ g.cove.toNat = fld cmd 10
      2 ∧ g.position = fld cmd 12 1 ∧ g.live.getLsbD g.position = false ∧ qualifies s g.cove g.position g.live = true) :=
  ⟨⟨m3, claimM, by decide +kernel, by decide +kernel⟩,
   ⟨m3, claimM, by decide +kernel, by decide +kernel⟩,
   ⟨lostC, claimM, 20, 4, plan0, ownCoveMember_of (by decide +kernel), by decide +kernel, by decide +kernel,
     by decide +kernel⟩,
   ⟨lostC2, claimM, 20, 4, plan0, ownCoveMember_of (by decide +kernel), by decide +kernel, by decide +kernel,
     by decide +kernel⟩,
   ⟨lostC, { claimM with arg := 1 }, 20, 4, plan0, 16, ownCoveMember_of (by decide +kernel), by decide +kernel,
     by decide +kernel, by decide +kernel, by decide +kernel, by decide +kernel⟩,
   ⟨lostC2, { claimM with arg := 1 }, 20, 4, plan0, ownCoveMember_of (by decide +kernel),
     by and_intros <;> decide +kernel⟩,
   ⟨m3, false, cl7, plan0, cove2, handled_of (by decide +kernel), by decide +kernel⟩,
   ⟨member, false, c8 0x20 [(8,2,2),(10,1,2),(12,4,1),(16,4,64),(30,2,0xFF)], plan0, cove2, handled_of
     (by decide +kernel), by decide +kernel⟩,
   ⟨standby, false, cl7, planN, cove2, (match takeRegions standby planN cove2 3 with | .inr u => u | _ => standby),
     handled_of (by decide +kernel), by decide +kernel⟩,
   ⟨standby, false, c8 0x20 [(8,2,2),(10,1,2),(12,4,1),(16,4,64),(30,2,0xFF)], planN, cove2, (match takeRegions standby
     planN cove2 3 with | .inr u => u | _ => standby), handled_of (by decide +kernel), by decide +kernel⟩,
   ⟨granted, false, cl7, planN, cove2, grantG, handled_of (by decide +kernel), by decide +kernel, by decide +kernel,
     by decide +kernel⟩,
   ⟨m3, false, c8 0x21 [(8,2,2),(12,4,1),(24,4,11),(28,4,99)], plan0, 2, 3, handled_of (by decide +kernel),
     by decide +kernel⟩,
   ⟨m3, 0, true, c8 0x92 [(8,1,0),(9,1,9),(10,2,2),(12,1,3)], plan0, cove2, handled_of (by decide +kernel),
     by decide +kernel⟩,
   ⟨member, 5, true, c8 0x92 [(8,1,0),(9,1,9),(10,2,2),(12,1,3)], plan0, cove2, handled_of (by decide +kernel),
     by decide +kernel⟩,
   ⟨standby, 0, true, c8 0x92 [(8,1,0),(9,1,4),(10,2,2),(12,1,3)], planN, cove2, handled_of (by decide +kernel),
     by decide +kernel, by decide +kernel, by decide +kernel, by decide +kernel, by decide +kernel⟩,
   ⟨standby, 5, true, c8 0x92 [(8,1,0),(9,1,1),(10,2,2),(12,1,7)], planN, cove2, handled_of (by decide +kernel),
     by decide +kernel, by decide +kernel, by decide +kernel, by decide +kernel, by decide +kernel⟩,
   ⟨granted, 0, true, c8 0x92 [(8,1,0),(9,1,4),(10,2,2),(12,1,3)], planN, cove2, grantG, handled_of
     (by decide +kernel), by and_intros <;> decide +kernel⟩,
   ⟨granted, 5, true, c8 0x92 [(8,1,0),(9,1,4),(10,2,2),(12,1,3)], planN, cove2, grantG, handled_of
     (by decide +kernel), by and_intros <;> decide +kernel⟩⟩

theorem witness_RollbackRestoresTheBeforeImage :
    (∃ (s : State) (b : Nat) (l : Nat) (n : Nat) (v : Line) (a : Nat), s.recov.rollingBack = true ∧ s.cap.queue = [] ∧
      s.cap.oldReads = [] ∧ s.power.asleep = false ∧ commandsEnded s = true ∧ s.recov.state.get ≠ 6 ∧ stashEntries s =
      [(b, l, n, v)] ∧ lineHome s b l = some a ∧ digestsMatch (restoreLine s (b, l, n, v)) = true ∧ s.recov.lost.get =
      0 ∧ s.recov.waiting = []) ∧
    (∃ (s : State) (b : Nat) (l : Nat) (n : Nat) (v : Line) (a : Nat), s.recov.rollingBack = true ∧ s.cap.queue = [] ∧
      s.cap.oldReads = [] ∧ s.power.asleep = false ∧ commandsEnded s = true ∧ s.recov.state.get ≠ 6 ∧ stashEntries s =
      [(b, l, n, v)] ∧ lineHome s b l = some a ∧ digestsMatch (restoreLine s (b, l, n, v)) = false ∧ s.recov.mailbox =
      none ∧ s.ports.mgp = true) :=
  ⟨⟨rb0, 0, 1, 6, capS.mem.line 64, 64, by decide +kernel, by decide +kernel, by decide +kernel, by decide +kernel⟩,
   ⟨rbBad, 0, 1, 6, capS.mem.line 64, 64, by decide +kernel, by decide +kernel, by decide +kernel, by decide +kernel⟩⟩

theorem witness_HoldersPassTheRing :
    (∃ (s : State) (g : RingId) (c : Byte) (h : Nat × Byte) (rest : List (Nat × Byte)) (T : U48), s.ports.lkp = true ∧
      s.power.season.get ≠ 2 ∧ g.depth.toNat % 2 = 0 ∧ (s.recov.state.get = 5 ∨ s.recov.state.get = (if g.parity then 4
      else 6)) ∧ s.recov.target = false ∧ (g.parity = true ∨ ∀ b, b < g.bay.toNat → rowLeft s false b = true) ∧
      groupValid s g = true ∧ g ∉ s.recov.groupsLeft ∧ s.recov.halted.getLsbD (g.depth.toNat / 4 % 4) = false ∧
      groupHolders s g = (ownPos s, c) :: h :: rest ∧ offers s = some T ∧ 32 + 64 * g.count.toNat ≤ s.fold.rbTokPlus) ∧
    (∃ (s : State) (g : RingId) (c : Byte) (h : Nat × Byte) (rest : List (Nat × Byte)) (T : U48), s.ports.lkp = true ∧
      s.power.season.get ≠ 2 ∧ g.depth.toNat % 2 = 0 ∧ (s.recov.state.get = 5 ∨ s.recov.state.get = (if g.parity then 4
      else 6)) ∧ s.recov.target = false ∧ (g.parity = true ∨ ∀ b, b < g.bay.toNat → rowLeft s false b = true) ∧
      groupValid s g = true ∧ g ∉ s.recov.groupsLeft ∧ s.recov.halted.getLsbD (g.depth.toNat / 4 % 4) = false ∧
      groupHolders s g = (ownPos s, c) :: h :: rest ∧ offers s = some T ∧ 32 + 64 * g.count.toNat ≤ s.fold.rbTokPlus) ∧
    (∃ (s : State) (g : RingId) (c : Byte) (h : Nat × Byte) (rest : List (Nat × Byte)) (T : U48), s.ports.lkp = true ∧
      s.power.season.get ≠ 2 ∧ g.depth.toNat % 2 = 0 ∧ (s.recov.state.get = 5 ∨ s.recov.state.get = (if g.parity then 4
      else 6)) ∧ s.recov.target = false ∧ (g.parity = true ∨ ∀ b, b < g.bay.toNat → rowLeft s false b = true) ∧
      groupValid s g = true ∧ g ∉ s.recov.groupsLeft ∧ s.recov.halted.getLsbD (g.depth.toNat / 4 % 4) = false ∧
      groupHolders s g = (ownPos s, c) :: h :: rest ∧ offers s = some T ∧ s.fold.rbTokPlus < 32 + 64 * g.count.toNat) ∧
    (∃ (s : State) (m : RbMsg), s.ports.lkp = true ∧ s.power.season.get ≠ 2 ∧ s.agree.cove = some m.cove ∧ m.view =
      viewNow s ∧ m.final = false ∧ m.stale = false ∧ offers s = none) ∧
    (∃ (s : State) (m : RbMsg) (T : _) (h : _) (rest : _), s.ports.lkp = true ∧ s.power.season.get ≠ 2 ∧ s.agree.cove =
      some m.cove ∧ m.view = viewNow s ∧ m.final = false ∧ m.stale = false ∧ offers s = some T ∧ m.tide.toNat < T.toNat
      ∧ groupHolders s (groupOf m) = h :: rest ∧ h.1 ≠ ownPos s) ∧
    (∃ (s : State) (m : RbMsg) (T : _) (h : _) (rest : _), s.ports.lkp = true ∧ s.power.season.get ≠ 2 ∧ s.agree.cove =
      some m.cove ∧ m.view = viewNow s ∧ m.final = false ∧ m.stale = false ∧ offers s = some T ∧ m.tide.toNat < T.toNat
      ∧ groupHolders s (groupOf m) = h :: rest ∧ h.1 ≠ ownPos s) ∧
    (∃ (s : State) (m : RbMsg) (c : Byte) (before : List (Nat × Byte)) (rest : List (Nat × Byte)), s.ports.lkp = true ∧
      s.power.season.get ≠ 2 ∧ s.agree.cove = some m.cove ∧ m.view = viewNow s ∧ m.final = false ∧ m.stale = false ∧
      offers s = some m.tide ∧ m.depth.toNat % 2 = 0 ∧ (s.recov.state.get = 5 ∨ s.recov.state.get = (if m.parity then 4
      else 6)) ∧ groupOf m ∉ s.recov.groupsLeft ∧ groupHolders s (groupOf m) = before ++ (ownPos s, c) :: rest ∧ (∀ h ∈
      before, h.1 ≠ ownPos s)) ∧
    (∃ (s : State) (m : RbMsg) (c : Byte) (before : List (Nat × Byte)) (rest : List (Nat × Byte)), s.ports.lkp = true ∧
      s.power.season.get ≠ 2 ∧ s.agree.cove = some m.cove ∧ m.view = viewNow s ∧ m.final = false ∧ m.stale = false ∧
      offers s = some m.tide ∧ m.depth.toNat % 2 = 0 ∧ (s.recov.state.get = 5 ∨ s.recov.state.get = (if m.parity then 4
      else 6)) ∧ groupOf m ∉ s.recov.groupsLeft ∧ groupHolders s (groupOf m) = before ++ (ownPos s, c) :: rest ∧ (∀ h ∈
      before, h.1 ≠ ownPos s)) ∧
    (∃ (s : State) (m : RbMsg) (T : _), s.ports.lkp = true ∧ s.power.season.get ≠ 2 ∧ s.agree.cove = some m.cove ∧
      m.view = viewNow s ∧ m.final = false ∧ m.stale = false ∧ offers s = some T) ∧
    (∃ (s : State) (g : RingId) (at_ : U64), s.ports.lkp = true ∧ s.power.season.get ≠ 2 ∧ find g s.recov.restartAt =
      some at_ ∧ s.time.gtc.toNat < at_.toNat + 20000) ∧
    (∃ (s : State) (g : RingId) (at_ : U64), s.ports.lkp = true ∧ s.power.season.get ≠ 2 ∧ find g s.recov.restartAt =
      some at_ ∧ at_.toNat + 20000 ≤ s.time.gtc.toNat ∧ offers s = none) ∧
    (∃ (s : State) (g : RingId) (at_ : U64) (c : Byte) (h : Nat × Byte) (rest : List (Nat × Byte)) (T : U48),
      s.ports.lkp = true ∧ s.power.season.get ≠ 2 ∧ find g s.recov.restartAt = some at_ ∧ at_.toNat + 20000 ≤
      s.time.gtc.toNat ∧ offers s = some T ∧ g.depth.toNat % 2 = 0 ∧ (s.recov.state.get = 5 ∨ s.recov.state.get = (if
      g.parity then 4 else 6)) ∧ groupHolders s g = (ownPos s, c) :: h :: rest) ∧
    (∃ (s : State) (g : RingId) (at_ : U64) (c : Byte) (h : Nat × Byte) (rest : List (Nat × Byte)) (T : U48),
      s.ports.lkp = true ∧ s.power.season.get ≠ 2 ∧ find g s.recov.restartAt = some at_ ∧ at_.toNat + 20000 ≤
      s.time.gtc.toNat ∧ offers s = some T ∧ g.depth.toNat % 2 = 0 ∧ (s.recov.state.get = 5 ∨ s.recov.state.get = (if
      g.parity then 4 else 6)) ∧ groupHolders s g = (ownPos s, c) :: h :: rest) :=
  ⟨⟨ringS, gP, 71, (1, 186), [(2, 122#8), (5, 244#8), (6, 142#8), (7, 167#8)], 5, by decide +kernel, by decide +kernel,
     by decide +kernel, by decide +kernel, by decide +kernel⟩,
   ⟨ringD, gD, 3, (1, 2), [(2, 143#8), (3, 245#8), (5, 187#8), (6, 6#8)], 5, by decide +kernel, by decide +kernel,
     by decide +kernel, by decide +kernel, by decide +kernel⟩,
   ⟨ringP, gP, 71, (1, 186), [(2, 122#8), (5, 244#8), (6, 142#8), (7, 167#8)], 5, by decide +kernel, by decide +kernel,
     by decide +kernel, by decide +kernel, by decide +kernel⟩,
   ⟨waitS, rm, by decide +kernel⟩,
   ⟨ringD1, { rm with tide := 4 }, 5, (0,3#8), [(1, 2#8), (2, 143#8), (3, 245#8), (5, 187#8), (6, 6#8)],
     by decide +kernel, by decide +kernel, by decide +kernel⟩,
   ⟨at3 ringD 7, { rm with tide := 4 }, 5, (0,3#8), [(1, 2#8), (2, 143#8), (3, 245#8), (5, 187#8), (6, 6#8)],
     by decide +kernel, by decide +kernel, by decide +kernel⟩,
   ⟨ringD1, rm, 2, [(0, 3#8)], [(2, 143#8), (3, 245#8), (5, 187#8), (6, 6#8)], by decide +kernel, by decide +kernel,
     by decide +kernel, by decide +kernel, by decide +kernel⟩,
   ⟨ringD6, rm, 6, [(0, 3#8), (1, 2#8), (2, 143#8), (3, 245#8), (5, 187#8)], [], by decide +kernel, by decide +kernel,
     by decide +kernel, by decide +kernel, by decide +kernel⟩,
   ⟨ringS, rm, 5, by decide +kernel⟩,
   ⟨restartL, gD, 980001, by decide +kernel⟩,
   ⟨restartS, gD, 980000, by decide +kernel⟩,
   ⟨restartG, gP, 980000, 71, (1, 186), [(2, 122#8), (5, 244#8), (6, 142#8), (7, 167#8)], 5, by decide +kernel⟩,
   ⟨restartGD, gD, 980000, 3, (1, 2), [(2, 143#8), (3, 245#8), (5, 187#8), (6, 6#8)], 5, by decide +kernel⟩⟩

theorem witness_TargetsTakeWhatTheyAreSent :
    (∃ (s : State) (m : RbMsg) (v : Line), s.ports.lkp = true ∧ s.power.season.get ≠ 2 ∧ s.agree.cove = some m.cove ∧
      m.view = viewNow s ∧ m.final = true ∧ s.recov.target = true ∧ m.target.toNat = ownPos s ∧ m.payload = lineBytes v
      ∧ m.parity = true ∧ groupOf m ∉ s.recov.parityDone ∧ covers s.recov.parityDone (ownPos s) m.bay.toNat
      m.base.toNat m.depth.toNat = false ∧ s.recov.state.get = 4) ∧
    (∃ (s : State) (m : RbMsg) (v : Line) (l : _) (a : _), s.ports.lkp = true ∧ s.power.season.get ≠ 2 ∧ s.agree.cove =
      some m.cove ∧ m.view = viewNow s ∧ m.final = true ∧ s.recov.target = true ∧ m.target.toNat = ownPos s ∧ m.payload
      = lineBytes v ∧ m.parity = false ∧ columnLine (covLayout s) m.bay.toNat m.piece.toNat m.depth.toNat = l ∧ l <
      16384 ∧ lineHome s m.bay.toNat l = some a ∧ rebuiltBit s m.bay.toNat l = true) ∧
    (∃ (s : State) (m : RbMsg) (v : Line) (l : _) (a : _), s.ports.lkp = true ∧ s.power.season.get ≠ 2 ∧ s.agree.cove =
      some m.cove ∧ m.view = viewNow s ∧ m.final = true ∧ s.recov.target = true ∧ m.target.toNat = ownPos s ∧ m.payload
      = lineBytes v ∧ m.parity = false ∧ columnLine (covLayout s) m.bay.toNat m.piece.toNat m.depth.toNat = l ∧ l <
      16384 ∧ lineHome s m.bay.toNat l = some a ∧ rebuiltBit s m.bay.toNat l = false ∧ s.cap.held = [] ∧ outsideLine a
      (mapBase s + m.bay.toNat * 2048 + l / 8) ∧ (rowCheck s m.bay.toNat).lines + 1 < 16384 ∧ (rowCheck s
      m.bay.toNat).done = false) ∧
    (∃ (s : State) (m : RbMsg) (v : Line) (l : _) (a : _), s.ports.lkp = true ∧ s.power.season.get ≠ 2 ∧ s.agree.cove =
      some m.cove ∧ m.view = viewNow s ∧ m.final = true ∧ s.recov.target = true ∧ m.target.toNat = ownPos s ∧ m.payload
      = lineBytes v ∧ m.parity = false ∧ columnLine (covLayout s) m.bay.toNat m.piece.toNat m.depth.toNat = l ∧ l <
      16384 ∧ lineHome s m.bay.toNat l = some a ∧ rebuiltBit s m.bay.toNat l = false ∧ s.cap.held = [] ∧ outsideLine a
      (mapBase s + m.bay.toNat * 2048 + l / 8) ∧ (rowCheck s m.bay.toNat).lines + 1 < 16384 ∧ (rowCheck s
      m.bay.toNat).done = false) ∧
    (∃ (s : State) (m : RbMsg) (q : LineReq), s.ports.lkp = true ∧ s.power.season.get ≠ 2 ∧ s.recov.reqs = [q] ∧ q.sel
      = 0 ∧ m.stage = 0 ∧ q.bay = m.bay.toNat ∧ q.line = columnLine (covLayout s) m.bay.toNat m.piece.toNat
      m.depth.toNat ∧ s.agree.cove = some m.cove ∧ m.view = viewNow s ∧ q.replies = [] ∧ (∃ h ∈ askedHolders s q, h ≠
      m.sender.toNat)) ∧
    (∃ (s : State) (x : U64) (q : LineReq), s.ports.lkp = true ∧ s.power.season.get ≠ 2 ∧ bayLine s x.toNat = some
      (q.bay, q.line) ∧ s.recov.reqs = [q] ∧ s.time.gtc.toNat < q.sentAt.toNat + 20000) ∧
    (∃ (s : State) (x : U64) (q : LineReq), s.ports.lkp = true ∧ s.power.season.get ≠ 2 ∧ bayLine s x.toNat = some
      (q.bay, q.line) ∧ s.recov.reqs = [q] ∧ q.sentAt.toNat + 20000 ≤ s.time.gtc.toNat) ∧
    (∃ (s : State) (m : RbMsg) (c : CovePlan), s.ports.lkp = true ∧ s.power.season.get ≠ 2 ∧ s.agree.cove = some m.cove
      ∧ m.view = viewNow s ∧ ownCove s = some c ∧ m.tide ≠ sealedTide s) ∧
    (∃ (s : State) (m : RbMsg) (c : CovePlan), s.ports.lkp = true ∧ s.power.season.get ≠ 2 ∧ s.agree.cove = some m.cove
      ∧ m.view = viewNow s ∧ ownCove s = some c ∧ m.tide = sealedTide s ∧ s.tide.phase.get ≠ 4 ∧ m.depth = 0 ∧ m.bay =
      0) ∧
    (∃ (s : State) (m : RbMsg) (c : CovePlan), s.ports.lkp = true ∧ s.power.season.get ≠ 2 ∧ s.agree.cove = some m.cove
      ∧ m.view = viewNow s ∧ ownCove s = some c ∧ s.recov.handover = none ∧ s.recov.target = true ∧ s.tide.stepRecord =
      none ∧ m.sender.toNat = s.recov.tmarkFrom ∧ m.depth.toNat = 0 ∧ s.recov.tmark = [] ∧ 256 < areaSize c) ∧
    (∃ (s : State) (m : RbMsg) (c : CovePlan), s.ports.lkp = true ∧ s.power.season.get ≠ 2 ∧ s.agree.cove = some m.cove
      ∧ m.view = viewNow s ∧ ownCove s = some c ∧ s.recov.handover = none ∧ s.recov.target = true ∧ s.tide.stepRecord =
      none ∧ m.sender.toNat = s.recov.tmarkFrom ∧ m.depth.toNat = 0 ∧ s.recov.tmark = [] ∧ 256 < areaSize c) ∧
    (∃ (s : State) (m : RbMsg) (c : CovePlan), s.ports.lkp = true ∧ s.power.season.get ≠ 2 ∧ s.agree.cove = some m.cove
      ∧ m.view = viewNow s ∧ ownCove s = some c ∧ s.recov.handover = none ∧ (s.recov.target = false ∨
      s.tide.stepRecord.isSome = true)) ∧
    (∃ (s : State) (m : RbMsg) (c : CovePlan), s.ports.lkp = true ∧ s.power.season.get ≠ 2 ∧ s.agree.cove = some m.cove
      ∧ m.view = viewNow s ∧ ownCove s = some c ∧ s.recov.handover = none ∧ (s.recov.target = false ∨
      s.tide.stepRecord.isSome = true)) ∧
    (∃ (s : State), s.ports.lkp = true ∧ s.power.season.get ≠ 2 ∧ s.recov.handover = none) ∧
    (∃ (s : State) (m : RbMsg) (h : Handover) (v : Line) (a : Nat), s.ports.lkp = true ∧ s.power.season.get ≠ 2 ∧
      s.recov.handover = some h ∧ h.outgoing = false ∧ s.agree.cove = some m.cove ∧ m.count = 1 ∧ m.payload = lineBytes
      v ∧ m.parity = false ∧ m.bay.toNat * copyUnits (covLayout s) + m.depth.toNat + 1 < rowsY s * copyUnits (covLayout
      s) ∧ lineHome s m.bay.toNat m.depth.toNat = some a) ∧
    (∃ (s : State) (h : Handover), s.ports.lkp = true ∧ s.power.season.get ≠ 2 ∧ s.recov.handover = some h ∧ h.outgoing
      = true ∧ h.finished = false ∧ h.cursor < rowsY s * copyUnits (covLayout s)) ∧
    (∃ (s : State) (h : Handover), s.ports.lkp = true ∧ s.power.season.get ≠ 2 ∧ s.recov.handover = some h ∧
      (h.outgoing = false ∨ h.finished = true)) ∧
    (∃ (s : State), s.ports.lkp = true ∧ s.power.season.get ≠ 2 ∧ s.recov.shadow = none) ∧
    (∃ (s : State) (m : RbMsg) (sh : Shadow) (r : Region) (v : Line), s.ports.lkp = true ∧ s.power.season.get ≠ 2 ∧
      s.recov.shadow = some sh ∧ m.stale = false ∧ m.count = 1 ∧ m.payload = lineBytes v ∧ shadowRegion sh (moveRegion
      m) = some r ∧ moveLine m < r.bays * 16384 ∧ (gotLines sh (moveRegion m) (moveLine m / 256)).length < 255) :=
  ⟨⟨tgtP, finP, ln9, by decide +kernel, by decide +kernel, by decide +kernel, by decide +kernel, by decide +kernel⟩,
   ⟨tgtSet, fin, ln9, columnLine .c8 0 4 0, columnLine .c8 0 4 0 * 64, by and_intros <;> decide +kernel⟩,
   ⟨tgt, fin, ln9, columnLine .c8 0 4 0, columnLine .c8 0 4 0 * 64, by and_intros <;> decide +kernel⟩,
   ⟨hoS, { fin with depth := 3 }, ln9, columnLine .c8 0 4 3, columnLine .c8 0 4 3 * 64,
     by and_intros <;> decide +kernel⟩,
   ⟨reqS, { rm with stage := 0, sender := 2, piece := 4 },
     { bay := 0, line := columnLine .c8 0 4 0, sel := 0, sentAt := 980000, replies := [] }, by decide +kernel,
     by decide +kernel, by decide +kernel, by decide +kernel⟩,
   ⟨reqL, BitVec.ofNat 64 (columnLine .c8 0 4 0 * 64),
     { bay := 0, line := columnLine .c8 0 4 0, sel := 0, sentAt := 980001, replies := [] }, by decide +kernel⟩,
   ⟨reqS, BitVec.ofNat 64 (columnLine .c8 0 4 0 * 64),
     { bay := 0, line := columnLine .c8 0 4 0, sel := 0, sentAt := 980000, replies := [] }, by decide +kernel⟩,
   ⟨tgt, { rm with tide := 4 }, cove1, by decide +kernel⟩,
   ⟨tgt, fin, cove1, by decide +kernel, by decide +kernel⟩,
   ⟨tgt, fin, cove1, by decide +kernel, by decide +kernel, by decide +kernel, by decide +kernel, by decide +kernel⟩,
   ⟨reqL, { rm with tide := 4 }, cove1, by decide +kernel, by decide +kernel, by decide +kernel, by decide +kernel,
     by decide +kernel⟩,
   ⟨tmS, fin, cove1, by decide +kernel⟩,
   ⟨capS, mv, cove1, by decide +kernel⟩,
   ⟨tgt, by decide +kernel⟩,
   ⟨hoS, { fin with depth := 3 }, ho0, ln9, 192, by decide +kernel, by decide +kernel, by decide +kernel⟩,
   ⟨hoO, { ho0 with outgoing := true, cursor := 43690 }, by decide +kernel⟩,
   ⟨hoS, ho0, by decide +kernel⟩,
   ⟨tgt, by decide +kernel⟩,
   ⟨shM, mv, sh1, { region0 with nearBase := 0x2400000 }, ln9, by decide +kernel, by decide +kernel⟩⟩

theorem witness_TwinsCompareAndSearch :
    (∃ (s : State) (mb : Fin 8) (priv : Bool) (cmd : Line), Handled s mb priv 0x14 cmd ∧ 128 ≤ fld cmd 0 1 ∧ fld cmd 12
      1 = 0) ∧
    (∃ (s : State) (mb : Fin 8) (priv : Bool) (cmd : Line), Handled s mb priv 0x14 cmd ∧ 128 ≤ fld cmd 0 1 ∧ fld cmd 12
      1 = 0) ∧
    (∃ (s : State) (mb : Fin 8) (priv : Bool) (cmd : Line) (p : _), Handled s mb priv 0x14 cmd ∧ 128 ≤ fld cmd 0 1 ∧
      s.job.part = some p ∧ fld cmd 12 1 = 1 ∧ fld cmd 8 4 / 64 = p.rank / 64) ∧
    (∃ (s : State) (mb : Fin 8) (priv : Bool) (cmd : Line) (p : _), Handled s mb priv 0x14 cmd ∧ 128 ≤ fld cmd 0 1 ∧
      s.job.part = some p ∧ fld cmd 12 1 = 1 ∧ fld cmd 8 4 / 64 = p.rank / 64) ∧
    (∃ (s : State) (mb : Fin 8) (priv : Bool) (cmd : Line) (p : _), Handled s mb priv 0x14 cmd ∧ 128 ≤ fld cmd 0 1 ∧
      s.job.part = some p ∧ s.ports.lkp = true ∧ (fld cmd 12 1 = 1 ∨ fld cmd 12 1 = 2) ∧ fld cmd 8 4 / 64 ≠ p.rank / 64
      ∧ fld cmd 8 4 < partitionDies p) ∧
    (∃ (s : State) (mb : Fin 8) (priv : Bool) (cmd : Line) (p : _), Handled s mb priv 0x14 cmd ∧ 128 ≤ fld cmd 0 1 ∧
      s.job.part = some p ∧ s.ports.lkp = true ∧ (fld cmd 12 1 = 1 ∨ fld cmd 12 1 = 2) ∧ fld cmd 8 4 / 64 ≠ p.rank / 64
      ∧ fld cmd 8 4 < partitionDies p) ∧
    (∃ (s : State) (m : AgreeMsg) (r : Nat) (mb : _), s.ports.lkp = true ∧ s.job.part.isSome = true ∧ m.jobTag = jobTag
      s ∧ s.power.season.get ≠ 2 ∧ s.twin.peer = some r ∧ fldAt m.body 8 4 ≠ twinRows s ∧ s.twin.rowsChecked = false ∧
      s.twin.mailbox = some mb ∧ s.stat.fwState.get = 2) ∧
    (∃ (s : State) (m : AgreeMsg) (r : Nat) (d : _), s.ports.lkp = true ∧ s.job.part.isSome = true ∧ m.jobTag = jobTag
      s ∧ s.power.season.get ≠ 2 ∧ s.twin.peer = some r ∧ s.twin.rowsChecked = true ∧ s.twin.mailbox = none ∧
      s.job.state = 3 ∧ s.twin.theirs = [] ∧ s.twin.own = [(BitVec.ofNat 48 (fldAt m.body 0 6), d)] ∧ s.twin.compared =
      some (BitVec.ofNat 48 (fldAt m.body 0 6))) ∧
    (∃ (s : State) (m : AgreeMsg) (r : Nat) (d : _), s.ports.lkp = true ∧ s.job.part.isSome = true ∧ m.jobTag = jobTag
      s ∧ s.power.season.get ≠ 2 ∧ s.twin.peer = some r ∧ s.twin.rowsChecked = true ∧ s.twin.mailbox = none ∧
      s.job.state = 3 ∧ s.twin.theirs = [] ∧ s.twin.own = [(BitVec.ofNat 48 (fldAt m.body 0 6), d)] ∧ s.twin.compared ≠
      some (BitVec.ofNat 48 (fldAt m.body 0 6)) ∧ (m.body.drop 16).take 32 = d) ∧
    (∃ (s : State) (m : AgreeMsg) (r : Nat) (d : _), s.ports.lkp = true ∧ s.job.part.isSome = true ∧ m.jobTag = jobTag
      s ∧ s.power.season.get ≠ 2 ∧ s.twin.peer = some r ∧ s.twin.rowsChecked = true ∧ s.twin.mailbox = none ∧
      s.job.state = 3 ∧ s.twin.theirs = [] ∧ s.twin.own = [(BitVec.ofNat 48 (fldAt m.body 0 6), d)] ∧ s.twin.compared ≠
      some (BitVec.ofNat 48 (fldAt m.body 0 6)) ∧ (m.body.drop 16).take 32 ≠ d ∧ r ≤ ownRank s) ∧
    (∃ (s : State) (m : AgreeMsg) (r : Nat) (d : _), s.ports.lkp = true ∧ s.job.part.isSome = true ∧ m.jobTag = jobTag
      s ∧ s.power.season.get ≠ 2 ∧ s.twin.peer = some r ∧ s.twin.rowsChecked = true ∧ s.twin.mailbox = none ∧
      s.job.state = 3 ∧ s.twin.theirs = [] ∧ s.twin.own = [(BitVec.ofNat 48 (fldAt m.body 0 6), d)] ∧ s.twin.compared ≠
      some (BitVec.ofNat 48 (fldAt m.body 0 6)) ∧ (m.body.drop 16).take 32 ≠ d ∧ r ≤ ownRank s) ∧
    (∃ (s : State) (m : AgreeMsg) (r : Nat) (i : _), s.ports.lkp = true ∧ s.job.part.isSome = true ∧ m.jobTag = jobTag
      s ∧ s.power.season.get ≠ 2 ∧ s.twin.peer = some r ∧ s.twin.state = 3 ∧ r ≤ ownRank s ∧ s.twin.lo = 0 ∧ s.twin.hi
      = 16384 ∧ i < m.body.length / 8 ∧ (m.body.drop (8 * i)).take 8 ≠ ((digestSection s s.twin.tide).drop (8 *
      (m.arg.toNat + i))).take 8 ∧ (∀ j, j < i → (m.body.drop (8 * j)).take 8 = ((digestSection s s.twin.tide).drop (8
      * (m.arg.toNat + j))).take 8)) ∧
    (∃ (s : State) (m : AgreeMsg) (r : Nat) (i : _), s.ports.lkp = true ∧ s.job.part.isSome = true ∧ m.jobTag = jobTag
      s ∧ s.power.season.get ≠ 2 ∧ s.twin.peer = some r ∧ s.twin.state = 3 ∧ r ≤ ownRank s ∧ s.twin.lo = 0 ∧ s.twin.hi
      = 16384 ∧ i < m.body.length / 8 ∧ (m.body.drop (8 * i)).take 8 ≠ ((digestSection s s.twin.tide).drop (8 *
      (m.arg.toNat + i))).take 8 ∧ (∀ j, j < i → (m.body.drop (8 * j)).take 8 = ((digestSection s s.twin.tide).drop (8
      * (m.arg.toNat + j))).take 8)) ∧
    (∃ (s : State) (m : AgreeMsg) (r : Nat) (f : _) (e : _), s.ports.lkp = true ∧ s.job.part.isSome = true ∧ m.jobTag =
      jobTag s ∧ s.power.season.get ≠ 2 ∧ s.twin.peer = some r ∧ s.twin.state = 3 ∧ fldAt m.body 0 2 = f ∧ fldAt m.body
      2 2 = e ∧ f + 1 < e ∧ fldAt m.body 8 8 ≠ (rangeDigest s m.arg.toNat f e).toNat) ∧
    (∃ (s : State) (m : AgreeMsg) (r : Nat) (f : _) (e : _), s.ports.lkp = true ∧ s.job.part.isSome = true ∧ m.jobTag =
      jobTag s ∧ s.power.season.get ≠ 2 ∧ s.twin.peer = some r ∧ s.twin.state = 3 ∧ fldAt m.body 0 2 = f ∧ fldAt m.body
      2 2 = e ∧ f + 1 < e ∧ fldAt m.body 8 8 = (rangeDigest s m.arg.toNat f e).toNat) ∧
    (∃ (s : State) (m : AgreeMsg) (r : Nat) (f : _), s.ports.lkp = true ∧ s.job.part.isSome = true ∧ m.jobTag = jobTag
      s ∧ s.power.season.get ≠ 2 ∧ s.twin.peer = some r ∧ s.twin.state = 3 ∧ fldAt m.body 0 2 = f ∧ fldAt m.body 2 2 =
      f + 1 ∧ s.ports.mgp = true) ∧
    (∃ (s : State) (m : AgreeMsg) (r : Nat), s.ports.lkp = true ∧ s.job.part.isSome = true ∧ m.jobTag = jobTag s ∧
      s.power.season.get ≠ 2 ∧ s.twin.peer = some r ∧ s.twin.state ≠ 0 ∧ s.twin.mailbox = none ∧ s.ports.mgp = true) ∧
    (∃ (s : State) (off : U16) (vc : Vc), s.ports.lkp = true ∧ s.power.season.get ≠ 2 ∧ ((off ≠ 0x0100 ∧ off ≠ 0x0200)
      ∨ (off = 0x0100 ∧ vc = .vf) ∨ (off = 0x0200 ∧ vc = .va))) ∧
    (∃ (s : State) (off : U16) (vc : Vc), s.ports.lkp = true ∧ s.power.season.get ≠ 2 ∧ ((off ≠ 0x0100 ∧ off ≠ 0x0200)
      ∨ (off = 0x0100 ∧ vc = .vf) ∨ (off = 0x0200 ∧ vc = .va))) :=
  ⟨⟨planned, 0, true, c8 0x94 [], handled_of (by decide +kernel), by decide +kernel⟩,
   ⟨twinC, 5, false, c8 0x94 [], handled_of (by decide +kernel), by decide +kernel⟩,
   ⟨planned, 0, true, c8 0x94 [(8,4,63),(12,1,1)], part0, handled_of (by decide +kernel), by decide +kernel⟩,
   ⟨twinC, 5, false, c8 0x94 [(8,4,63),(12,1,1)], part0, handled_of (by decide +kernel), by decide +kernel⟩,
   ⟨planned, 0, true, c8 0x94 [(8,4,64),(12,1,1)], part0, handled_of (by decide +kernel), by decide +kernel⟩,
   ⟨twinC, 5, false, c8 0x94 [(8,4,64),(12,1,1)], part0, handled_of (by decide +kernel), by decide +kernel⟩,
   ⟨twin0, tw (leBytes 8 5 ++ leBytes 8 3), 64, 0, by decide +kernel, by decide +kernel⟩,
   ⟨twinC, tw (leBytes 8 5 ++ leBytes 8 3), 0, List.replicate 32 7, by decide +kernel, by decide +kernel,
     by decide +kernel, by decide +kernel⟩,
   ⟨twinR, tw (leBytes 8 5 ++ leBytes 8 2 ++ List.replicate 32 7), 0, List.replicate 32 7, by decide +kernel,
     by decide +kernel, by decide +kernel, by decide +kernel, by decide +kernel⟩,
   ⟨twinR, tw (leBytes 8 5 ++ leBytes 8 3), 0, List.replicate 32 7, by and_intros <;> decide +kernel⟩,
   ⟨twinD, tw (leBytes 8 5 ++ leBytes 8 2 ++ List.replicate 32 8), 0, List.replicate 32 7,
     by and_intros <;> decide +kernel⟩,
   ⟨twinD, tw (leBytes 8 5 ++ leBytes 8 3), 0, 0, by decide +kernel, by decide +kernel, by decide +kernel,
     by decide +kernel, by decide +kernel⟩,
   ⟨twinD, tw ([1,0,2,0,0,0,0,0]++ leBytes 8 0), 0, 0, by decide +kernel, by decide +kernel, by decide +kernel,
     by decide +kernel, by decide +kernel⟩,
   ⟨twinD, tw ([0,0,2,0,0,0,0,0,1,0,0,0,0,0,0,0]), 0, 0, 2, by decide +kernel, by decide +kernel, by decide +kernel⟩,
   ⟨twinD, tw ([0,0,2,0,0,0,0,0]++ leBytes 8 (rangeDigest twinD 0 0 2).toNat), 0, 0, 2, by decide +kernel,
     by decide +kernel, by decide +kernel⟩,
   ⟨twinD, tw ([1,0,2,0,0,0,0,0]++ leBytes 8 (rangeDigest twinD 0 1 2).toNat), 0, 1, by decide +kernel,
     by decide +kernel⟩,
   ⟨twinR, tw (leBytes 8 5 ++ leBytes 8 3), 0, by decide +kernel⟩,
   ⟨planned, 0, .va, by decide +kernel⟩,
   ⟨twinC, 0xffff, .vf, by decide +kernel⟩⟩

theorem witness_ReductionsGatherGrantAndComplete :
    (∃ (s : State) (mb : Fin 8) (priv : Bool) (cmd : Line) (p : Plan), Handled s mb priv 0x0D cmd ∧ s.job.plan = some p
      ∧ s.ctrl.exchEn.get = 0) ∧
    (∃ (s : State) (mb : Fin 8) (priv : Bool) (cmd : Line) (p : Plan), Handled s mb priv 0x0D cmd ∧ s.job.plan = some p
      ∧ s.ctrl.exchEn.get = 1 ∧ s.exch.disabled = false ∧ exchStopping s = false ∧ s.exch.reduces.length < 4 ∧ fld cmd
      8 8 % 64 = 0 ∧ inNear p (fld cmd 8 8) 64 = true ∧ (∃ g, groupPlace s (BitVec.ofNat 16 (fldAt (s.mem.bytes (fld
      cmd 8 8) 320) 2 2)) = some g ∧ reduceFault s p (some g) (s.mem.bytes (fld cmd 8 8) 320) = none)) ∧
    (∃ (s : State) (mb : Fin 8) (priv : Bool) (cmd : Line) (p : Plan), Handled s mb priv 0x0D cmd ∧ s.job.plan = some p
      ∧ s.ctrl.exchEn.get = 1 ∧ s.exch.disabled = false ∧ exchStopping s = false ∧ s.exch.reduces.length < 4 ∧ fld cmd
      8 8 % 64 = 0 ∧ inNear p (fld cmd 8 8) 64 = true ∧ (∃ g, groupPlace s (BitVec.ofNat 16 (fldAt (s.mem.bytes (fld
      cmd 8 8) 320) 2 2)) = some g ∧ reduceFault s p (some g) (s.mem.bytes (fld cmd 8 8) 320) = none)) ∧
    (∃ (s : State) (r : Reduce) (x : ExRec) (m : _), OneReduction s r x ∧ isIntReduce r = false ∧ r.granted = false ∧
      x.sender.toNat < r.ranks ∧ r.exps = [] ∧ 1 < r.ranks ∧ slicePlace r x 256 = some m ∧ x.payload.length =
      (x.covered.toNat + 255) / 256 ∧ x.covered.toNat ≤ (sliceOf r r.rank).2) ∧
    (∃ (s : State) (r : Reduce) (x : ExRec) (m : _), OneReduction s r x ∧ isIntReduce r = false ∧ r.granted = false ∧
      x.sender.toNat < r.ranks ∧ r.exps = [] ∧ 1 < r.ranks ∧ slicePlace r x 256 = some m ∧ x.payload.length =
      (x.covered.toNat + 255) / 256 ∧ x.covered.toNat ≤ (sliceOf r r.rank).2) ∧
    (∃ (s : State) (r : Reduce) (x : ExRec), OneReduction s r x ∧ isIntReduce r = false ∧ r.granted = false ∧ r.ranks =
      1 ∧ r.rank = 0 ∧ x.sender = 0 ∧ r.exps = [] ∧ slicePlace r x 256 = some 0 ∧ x.payload.length = (x.covered.toNat +
      255) / 256 ∧ x.covered.toNat = (sliceOf r 0).2 ∧ x.count.toNat = r.contributions ∧ r.add = false ∧ r.total =
      false ∧ r.blocks.length = x.payload.length) ∧
    (∃ (s : State) (r : Reduce) (x : ExRec), OneReduction s r x ∧ isIntReduce r = false ∧ rebuilding s = false ∧
      x.sender.toNat ∈ ownersOf r ∧ x.sender.toNat ∉ r.sentTo) ∧
    (∃ (s : State) (r : Reduce) (x : ExRec) (b : ExBlock), OneReduction s r x ∧ isIntReduce r = false ∧ r.granted =
      true ∧ r.blocks = [b] ∧ x.format = 0 ∧ slicePlace r x 4096 = some 0 ∧ dataFits r x = true ∧ x.covered.toNat ≤ 256
      ∧ b.received + 1 < r.contributions ∧ s.exch.slots = []) ∧
    (∃ (s : State) (r : Reduce) (x : ExRec) (b : ExBlock), OneReduction s r x ∧ isIntReduce r = false ∧ r.granted =
      true ∧ r.blocks = [b] ∧ x.format = 0 ∧ slicePlace r x 4096 = some 0 ∧ dataFits r x = true ∧ x.covered.toNat ≤ 256
      ∧ b.received + 1 < r.contributions ∧ s.exch.slots = []) ∧
    (∃ (s : State) (r : Reduce) (x : ExRec) (u : State) (r1 : Reduce) (n : Nat), OneReduction s r x ∧ isIntReduce r =
      false ∧ r.granted = true ∧ r.blocks.length = 1 ∧ (∃ b, r.blocks = [b] ∧ b.received + 1 = r.contributions) ∧
      slicePlace r x 4096 = some 0 ∧ dataFits r x = true ∧ x.covered.toNat ≤ 256 ∧ r.formed = none ∧ u = contribute
      (answerOffer s true) r.group r.seq 0 (payloadVals x.format.toNat x.payload x.covered.toNat) ∧ reduceOf u r.group
      r.seq = some r1 ∧ n = (reduceResult u r1).bytes.length ∧ r.noWrite = true) ∧
    (∃ (s : State) (r : Reduce) (x : ExRec) (u : State) (r1 : Reduce) (n : Nat), OneReduction s r x ∧ isIntReduce r =
      false ∧ r.granted = true ∧ r.blocks.length = 1 ∧ (∃ b, r.blocks = [b] ∧ b.received + 1 = r.contributions) ∧
      slicePlace r x 4096 = some 0 ∧ dataFits r x = true ∧ x.covered.toNat ≤ 256 ∧ r.formed = none ∧ u = contribute
      (answerOffer s true) r.group r.seq 0 (payloadVals x.format.toNat x.payload x.covered.toNat) ∧ reduceOf u r.group
      r.seq = some r1 ∧ n = (reduceResult u r1).bytes.length ∧ r.noWrite = false ∧ r.dst % 64 = 0 ∧ r.dst + 64 ≤ 2 ^ 64
      ∧ s.cap.filter = [] ∧ s.tier.staged = [] ∧ s.tier.rows = [] ∧ 0 < n ∧ n ≤ 64) ∧
    (∃ (s : State) (r : Reduce) (x : ExRec), OneReduction s r x ∧ phaseEnded s r = false) ∧
    (∃ (s : State) (r : Reduce) (x : ExRec), OneReduction s r x ∧ s.stat.fwState.get = 2 ∧ s.log.entries.length < 256 ∧
      r.aborts = [] ∧ phaseEnded s r = true) ∧
    (∃ (s : State) (r : Reduce) (x : ExRec), OneReduction s r x ∧ s.stat.fwState.get = 2 ∧ s.log.entries.length < 256 ∧
      r.aborts = [] ∧ phaseEnded s r = true) ∧
    (∃ (s : State) (x : ExRec) (c : _), s.ports.fbp = true ∧ s.power.season.get = 0 ∧ s.exch.reduces = [] ∧ (x.group,
      x.seq) ∉ s.exch.completed ∧ (x.group, x.seq) ∉ s.exch.ended ∧ c ∈ [Instr.exp x, Instr.grant x, Instr.data x,
      Instr.cancel x]) ∧
    (∃ (s : State) (x : ExRec) (c : _), s.ports.fbp = true ∧ s.power.season.get = 0 ∧ s.exch.reduces = [] ∧ (x.group,
      x.seq) ∈ s.exch.completed ∧ c ∈ [Instr.exp x, Instr.grant x, Instr.data x, Instr.cancel x]) ∧
    (∃ (s : State) (r : Reduce), s.exch.reduces = [r] ∧ s.stat.fwState.get = 2 ∧ r.waits = [] ∧ r.aborts = [] ∧ r.stop
      = .none ∧ (∃ b ∈ r.blocks, b.received ≠ r.contributions)) ∧
    (∃ (s : State) (r : Reduce), s.exch.reduces = [r] ∧ s.stat.fwState.get = 2 ∧ r.waits = [] ∧ r.aborts = [] ∧
      phaseEnded s r = false) ∧
    (∃ (s : State) (r : Reduce), s.exch.reduces = [r] ∧ s.stat.fwState.get = 2 ∧ r.waits = [] ∧ r.aborts = [] ∧ r.stop
      = .lost ∧ phaseEnded s r = true) ∧
    (∃ (s : State) (r : Reduce), s.exch.reduces = [r] ∧ s.stat.fwState.get = 2 ∧ r.waits = [] ∧ r.aborts = [] ∧ r.stop
      = .none ∧ phaseEnded s r = true ∧ (∀ b ∈ r.blocks, b.received = r.contributions) ∧ (∀ o ∈ ownersOf r, o ∈
      r.sentTo)) :=
  ⟨⟨exOff, 0, true, c8 0x8d [(8,8,0x2800000)], plan0, handled_of (by decide +kernel), by decide +kernel⟩,
   ⟨exS, 0, true, c8 0x8d [(8,8,0x2800000)], plan0, handled_of (by decide +kernel), by and_intros <;> decide +kernel⟩,
   ⟨exI, 5, false, c8 0x8d [(8,8,0x2800000)], plan0, handled_of (by decide +kernel), by and_intros <;> decide +kernel⟩,
   ⟨withRed redR, redR, ex0, 0, by decide +kernel, by decide +kernel⟩,
   ⟨withRed redR, redR, { ex0 with payload := [0] }, 0, by decide +kernel, by decide +kernel⟩,
   ⟨withRed red1, red1, { ex0 with sender := 0 }, by and_intros <;> decide +kernel⟩,
   ⟨withRed redR, redR, { ex0 with sender := 0 }, by decide +kernel, by decide +kernel⟩,
   ⟨withRed redG, redG, dat0, { eb0 with x := some 130, q := 0 }, by decide +kernel, by decide +kernel,
     by decide +kernel⟩,
   ⟨withRed redG, redG, { dat0 with payload := (List.range 1024).map (BitVec.ofNat 8 ·) },
     { eb0 with x := some 130, q := 0 }, by decide +kernel, by decide +kernel, by decide +kernel⟩,
   ⟨withRed { redL with noWrite := true }, { redL with noWrite := true }, datL, uL { redL with noWrite := true }, r1L
     { redL with noWrite := true }, 64, by decide +kernel, by decide +kernel, by decide +kernel, by decide +kernel, ⟨_,
     rfl, by decide +kernel⟩, by decide +kernel⟩,
   ⟨withRed redL, redL, datL, uL redL, r1L redL, 64,
     by and_intros <;> first | exact ⟨_, rfl, by decide +kernel⟩ | decide +kernel⟩,
   ⟨heldX, redPh, ex0, by decide +kernel, by decide +kernel⟩,
   ⟨withRed redR, redR, ex0, by decide +kernel, by decide +kernel⟩,
   ⟨withRed { redDone with noWrite := true }, { redDone with noWrite := true },
     { dat0 with payload := (List.range 1024).map (BitVec.ofNat 8 ·) }, by decide +kernel, by decide +kernel⟩,
   ⟨exS, ex0, Instr.exp ex0, by decide +kernel⟩,
   ⟨doneS, ex0, Instr.exp ex0, by decide +kernel⟩,
   ⟨withRed redR, redR, by decide +kernel⟩,
   ⟨heldX, redPh, by decide +kernel⟩,
   ⟨withRed { redR with stop := .lost }, { redR with stop := .lost }, by decide +kernel⟩,
   ⟨withRed redDone, redDone, by decide +kernel⟩⟩

theorem witness_CompressionRunsAndPoisonStops :
    (∃ (s : State) (mb : Fin 8) (priv : Bool) (cmd : Line) (p : Plan), Handled s mb priv 0x0E cmd ∧ s.job.plan = some p
      ∧ s.ctrl.exchEn.get = 0) ∧
    (∃ (s : State) (mb : Fin 8) (priv : Bool) (cmd : Line) (p : Plan) (c : _), Handled s mb priv 0x0E cmd ∧ s.job.plan
      = some p ∧ s.ctrl.exchEn.get = 1 ∧ s.exch.disabled = false ∧ exchStopping s = false ∧ s.exch.compress = some c) ∧
    (∃ (s : State) (mb : Fin 8) (priv : Bool) (cmd : Line) (p : Plan), Handled s mb priv 0x0E cmd ∧ s.job.plan = some p
      ∧ s.ctrl.exchEn.get = 1 ∧ s.exch.disabled = false ∧ exchStopping s = false ∧ s.exch.compress = none ∧ fld cmd 8 8
      % 64 = 0 ∧ inNear p (fld cmd 8 8) 64 = true ∧ compressFault (s.mem.bytes (fld cmd 8 8) 64) = none) ∧
    (∃ (s : State) (c : Compress), s.exch.compress = some c ∧ s.stat.fwState.get = 2 ∧ c.aborts = [] ∧ c.stop = .none ∧
      c.block = (c.elements + 4095) / 4096) ∧
    (∃ (s : State) (c : Compress), s.exch.compress = some c ∧ s.stat.fwState.get = 2 ∧ c.aborts = [] ∧ c.stop = .none ∧
      rebuilding s = false ∧ c.block + 1 = (c.elements + 4095) / 4096) ∧
    (∃ (s : State) (c : Compress), s.exch.compress = some c ∧ s.stat.fwState.get = 2 ∧ c.aborts = [] ∧ c.stop = .lost ∧
      c.block = (c.elements + 4095) / 4096) ∧
    (∃ (s : State) (c : Compress), s.exch.compress = some c ∧ s.stat.fwState.get = 2 ∧ c.aborts = [] ∧ s.log.entries =
      []) ∧
    (∃ (s : State) (r : Reduce), s.exch.reduces = [r] ∧ s.stat.fwState.get = 2 ∧ r.aborts = [] ∧ s.log.entries = []) ∧
    (∃ (s : State) (r : ApplyRun), s.apply.run = some r ∧ r.stop = .none ∧ s.log.entries = []) :=
  ⟨⟨exOff, 0, true, c8 0x8e [(8,8,0x2800000)], plan0, handled_of (by decide +kernel), by decide +kernel⟩,
   ⟨withCmp cm0, 0, true, c8 0x8e [(8,8,0x2800000)], plan0, cm0, handled_of (by decide +kernel), by decide +kernel⟩,
   ⟨cmpS, 0, true, c8 0x8e [(8,8,0x2800000)], plan0, handled_of (by decide +kernel), by decide +kernel⟩,
   ⟨withCmp cm0, cm0, by decide +kernel⟩,
   ⟨withCmp { cm0 with block := 0 }, { cm0 with block := 0 }, by decide +kernel⟩,
   ⟨withCmp { cm0 with stop := .lost }, { cm0 with stop := .lost }, by decide +kernel⟩,
   ⟨withCmp cm0, cm0, by decide +kernel⟩,
   ⟨withRed redR, redR, by decide +kernel⟩,
   ⟨poisonA,
     { mailbox := 3, recipe := { id := 1, length := 0, slots := [], scalars := [], streams := [], layers := [] }, step := 0, reduceBase := 0, scalars := [], layer := 0, tile := 0, endLayer := 1, running := Vector.replicate 4 none, stop := .none, aborts := [], faultIndex := 0, startGtc := 0, lastGtc := none, laneOps := 0, nonfinite := 0, races := 0 },
     by decide +kernel⟩⟩

theorem witness_ApplyRunsTilesInOrder :
    (∃ (s : State) (mb : Fin 8) (priv : Bool) (cmd : Line) (r : ApplyRun), s.apply.run = some r ∧ Handled s mb priv
      0x0B cmd) ∧
    (∃ (s : State) (mb : Fin 8) (priv : Bool) (cmd : Line) (r : ApplyRun), s.apply.run = some r ∧ Handled s mb priv
      0x0C cmd) ∧
    (∃ (s : State) (mb : Fin 8) (priv : Bool) (cmd : Line) (p : Plan), s.job.plan = some p ∧ s.apply.run = none ∧
      Handled s mb priv 0x0B cmd ∧ fld cmd 8 1 ≤ 7 ∧ fld cmd 16 8 % 64 = 0 ∧ inNear p (fld cmd 16 8) (fld cmd 24 4) =
      true ∧ 64 ≤ fld cmd 24 4 ∧ fld cmd 24 4 ≤ 197504 ∧ recipeFault (fld cmd 8 1) (s.mem.bytes (fld cmd 16 8) (fld cmd
      24 4)) = none ∧ (recipeOf (s.mem.bytes (fld cmd 16 8) (fld cmd 24 4))).length ≤ fld cmd 24 4 ∧
      ((s.apply.recipes.filter fun r => r.id ≠ fld cmd 8 1).map Recipe.length).sum + (recipeOf (s.mem.bytes (fld cmd 16
      8) (fld cmd 24 4))).length ≤ 262144) ∧
    (∃ (s : State) (mb : Fin 8) (priv : Bool) (cmd : Line) (p : Plan), s.job.plan = some p ∧ s.apply.run = none ∧
      Handled s mb priv 0x0B cmd ∧ fld cmd 8 1 ≤ 7 ∧ fld cmd 16 8 % 64 = 0 ∧ inNear p (fld cmd 16 8) (fld cmd 24 4) =
      true ∧ 64 ≤ fld cmd 24 4 ∧ fld cmd 24 4 ≤ 197504 ∧ recipeFault (fld cmd 8 1) (s.mem.bytes (fld cmd 16 8) (fld cmd
      24 4)) = none ∧ (recipeOf (s.mem.bytes (fld cmd 16 8) (fld cmd 24 4))).length ≤ fld cmd 24 4 ∧
      ((s.apply.recipes.filter fun r => r.id ≠ fld cmd 8 1).map Recipe.length).sum + (recipeOf (s.mem.bytes (fld cmd 16
      8) (fld cmd 24 4))).length ≤ 262144) ∧
    (∃ (s : State) (mb : Fin 8) (priv : Bool) (cmd : Line) (p : Plan) (r : Recipe) (lo : Nat) (tile : Nat) (hi : Nat),
      s.job.plan = some p ∧ s.apply.run = none ∧ Handled s mb priv 0x0C cmd ∧ s.apply.recipes.find? (fun q => q.id =
      fld cmd 8 1) = some r ∧ RunCovers r cmd lo tile hi ∧ lo < r.layers.length ∧ tile < layerTiles r lo ∧ (fld cmd 24
      8 = 0 ∨ (fld cmd 24 8 % 64 = 0 ∧ inNear p (fld cmd 24 8) 128 = true ∧ fldAt (s.mem.bytes (fld cmd 24 8) 128) 2 6
      = 0 ∧ fldAt (s.mem.bytes (fld cmd 24 8) 128) 80 48 = 0)) ∧ (∀ x ∈ storedExtents r lo hi, extentBad s x = false) ∧
      s.ctrl.applyEn.get = 1 ∧ s.apply.state ≠ 3 ∧ (s.tide.phase.get = 1 ∨ s.tide.phase.get = 6 ∨ (∀ x ∈ storedExtents
      r lo hi, extentProtected s x = false)) ∧ recoveryOpen s = false) ∧
    (∃ (s : State) (mb : Fin 8) (priv : Bool) (cmd : Line) (p : Plan) (r : Recipe) (lo : Nat) (tile : Nat) (hi : Nat),
      s.job.plan = some p ∧ s.apply.run = none ∧ Handled s mb priv 0x0C cmd ∧ s.apply.recipes.find? (fun q => q.id =
      fld cmd 8 1) = some r ∧ RunCovers r cmd lo tile hi ∧ lo < r.layers.length ∧ tile < layerTiles r lo ∧ (fld cmd 24
      8 = 0 ∨ (fld cmd 24 8 % 64 = 0 ∧ inNear p (fld cmd 24 8) 128 = true ∧ fldAt (s.mem.bytes (fld cmd 24 8) 128) 2 6
      = 0 ∧ fldAt (s.mem.bytes (fld cmd 24 8) 128) 80 48 = 0)) ∧ (∀ x ∈ storedExtents r lo hi, extentBad s x = false) ∧
      s.ctrl.applyEn.get = 1 ∧ s.apply.state ≠ 3 ∧ (s.tide.phase.get = 1 ∨ s.tide.phase.get = 6 ∨ (∀ x ∈ storedExtents
      r lo hi, extentProtected s x = false)) ∧ recoveryOpen s = false) ∧
    (∃ (s : State) (r : ApplyRun) (c : Fin 4), s.apply.run = some r ∧ (clusterPaused s c = true ∨ r.running.get c =
      none)) ∧
    (∃ (s : State) (r : ApplyRun) (c : Fin 4), s.apply.run = some r ∧ (clusterPaused s c = true ∨ r.running.get c =
      none)) ∧
    (∃ (s : State) (r : ApplyRun) (c : Fin 4) (ly : LayerEntry) (b0 : Nat) (b1 : Nat) (more : List Nat), s.apply.run =
      some r ∧ r.running.get c = some (0, 0) ∧ s.apply.state = 1 ∧ s.cap.held = [] ∧ r.stop = .none ∧ r.layer = 1 ∧
      r.endLayer = 1 ∧ s.apply.switching = none ∧ rebuilding s = false ∧ r.recipe.slots = [0x8000000000000000,
      0xA400000000000000] ∧ r.recipe.streams = [(0, 0), (0, 0)] ∧ r.recipe.layers = [ly] ∧ ly.elements = 16 ∧ ly.bases
      = b0 :: b1 :: more ∧ b0 % 64 = 0 ∧ b1 % 64 = 0 ∧ b1 + 64 ≤ 2 ^ 64 ∧ s.tier.staged = [] ∧ s.tier.rows = [] ∧
      s.tier.regions = [] ∧ s.cap.filter = []) ∧
    (∃ (s : State) (r : ApplyRun) (c : Fin 4) (ly : LayerEntry) (b0 : Nat) (b1 : Nat) (more : List Nat), s.apply.run =
      some r ∧ r.running.get c = some (0, 0) ∧ s.apply.state = 1 ∧ s.cap.held = [] ∧ r.stop = .none ∧ r.layer = 1 ∧
      r.endLayer = 1 ∧ s.apply.switching = none ∧ rebuilding s = false ∧ r.recipe.slots = [0x8000000000000000,
      0xA400000000000000] ∧ r.recipe.streams = [(0, 0), (0, 0)] ∧ r.recipe.layers = [ly] ∧ ly.elements = 16 ∧ ly.bases
      = b0 :: b1 :: more ∧ b0 % 64 = 0 ∧ b1 % 64 = 0 ∧ b1 + 64 ≤ 2 ^ 64 ∧ s.tier.staged = [] ∧ s.tier.rows = [] ∧
      s.tier.regions = [] ∧ filtered s b1 = true) ∧
    (∃ (s : State) (r : ApplyRun), s.apply.run = some r ∧ s.stat.fwState.get = 2 ∧ s.apply.switching = none ∧ r.aborts
      = [] ∧ r.stop = .none ∧ runIdle s r = false) ∧
    (∃ (s : State) (r : ApplyRun), s.apply.run = some r ∧ s.stat.fwState.get = 2 ∧ s.apply.switching = none ∧ r.aborts
      = [] ∧ r.stop = .none ∧ runIdle s r = true) ∧
    (∃ (s : State) (r : ApplyRun), s.apply.run = some r ∧ s.stat.fwState.get = 2 ∧ s.apply.switching = none ∧ r.aborts
      = [] ∧ r.stop = .lost ∧ (∀ c, r.running.get c = none)) ∧
    (∃ (s : State) (r : ApplyRun), s.apply.run = some r ∧ s.stat.fwState.get = 2 ∧ s.apply.switching = none ∧ r.aborts
      = [] ∧ r.stop = .lost) :=
  ⟨⟨applyX, 0, true, c8 0x8b [], ar0, by decide +kernel, handled_of (by decide +kernel)⟩,
   ⟨applyX, 0, true, runE [], ar0, by decide +kernel, handled_of (by decide +kernel)⟩,
   ⟨recS, 0, true, c8 0x8b [(8,1,1),(16,8,0x2800000),(24,4,224)], plan0, by decide +kernel, by decide +kernel,
     handled_of (by decide +kernel), by decide +kernel⟩,
   ⟨{ recS with apply.recipes := [rcp, { rcp with id := 4 }] }, 5, false, c8 0x8b
     [(8,1,1),(16,8,0x2800000),(24,4,224)], plan0, by decide +kernel, by decide +kernel, handled_of
     (by decide +kernel), by decide +kernel⟩,
   ⟨runS2, 0, true, runE [(12,2,2),(16,8,77)], plan0, rcp2, 0, 2, 1, by decide +kernel, by decide +kernel, handled_of
     (by decide +kernel), by decide +kernel, by decide +kernel, by decide +kernel⟩,
   ⟨runB, 5, false, runE [(24,8,0x2800000)], plan0, rcp2, 0, 0, 1, by decide +kernel, by decide +kernel, handled_of
     (by decide +kernel), by decide +kernel, by decide +kernel, by decide +kernel⟩,
   ⟨applyT, ar0, 3, by decide +kernel⟩,
   ⟨applyF, ar0, 3, by decide +kernel⟩,
   ⟨applyT, ar0, 0, ly0, 0x2900000, 0x2A00000, [0,0,0,0,0,0], by and_intros <;> decide +kernel⟩,
   ⟨applyF, ar0, 0, ly0, 0x2900000, 0x2A00000, [0,0,0,0,0,0], by and_intros <;> decide +kernel⟩,
   ⟨applyT, ar0, by decide +kernel⟩,
   ⟨withRun arEnd, arEnd, by decide +kernel⟩,
   ⟨withRun { arEnd with stop := .lost }, { arEnd with stop := .lost }, by decide +kernel⟩,
   ⟨withRun { arEnd with stop := .lost }, { arEnd with stop := .lost }, by decide +kernel⟩⟩

theorem witness_BeaconSampling :
    (∃ (s : State), (s.power.on = false ∨ s.time.gtc.toNat % 1000000 ≠ 0)) ∧
    (∃ (s : State), s.power.on = true ∧ s.time.gtc.toNat % 1000000 = 0 ∧ s.lat.mended = [] ∧ s.bist.run = none) :=
  ⟨⟨offP, by decide +kernel⟩,
   ⟨up, by decide +kernel⟩⟩

theorem witness_SeasonsFollowTheirSteps :
    (∃ (s : State) (priv : Bool) (cmd : Line), Handled s 5 priv 0x15 cmd ∧ s.power.moving = false ∧ 2 < fld cmd 8 1) ∧
    (∃ (s : State) (priv : Bool) (cmd : Line), Handled s 5 priv 0x15 cmd ∧ s.power.moving = false ∧ 2 < fld cmd 8 1) ∧
    (∃ (s : State) (priv : Bool) (cmd : Line), Handled s 5 priv 0x15 cmd ∧ s.power.moving = false ∧ fld cmd 8 1 = 0) ∧
    (∃ (s : State) (priv : Bool) (cmd : Line) (m : Fin 8), Handled s 5 priv 0x15 cmd ∧ s.power.moving = false ∧ fld cmd
      8 1 = 1 ∧ m ≠ 5 ∧ (box s m).long = true ∧ (box s m).op ∈ [0x0C, 0x0D, 0x0E, 0x10, 0x12, 0x13, 0x1B] ∧ (∀ q : Fin
      8, q ≠ m → (box s q).long = false)) ∧
    (∃ (s : State) (priv : Bool) (cmd : Line), Handled s 5 priv 0x15 cmd ∧ s.power.moving = false ∧ (∀ q : Fin 8, (box
      s q).long = false) ∧ s.bist.test = none ∧ fld cmd 8 1 = 1 ∧ (s.recov.state.get ∈ [1, 2, 3, 4, 5, 6, 8] ∨
      s.twin.state ≠ 0)) ∧
    (∃ (s : State) (priv : Bool) (cmd : Line), Handled s 5 priv 0x15 cmd ∧ s.power.moving = false ∧ (∀ q : Fin 8, (box
      s q).long = false) ∧ s.bist.test = none ∧ fld cmd 8 1 = 2 ∧ 2 < s.job.state.toNat) ∧
    (∃ (s : State) (priv : Bool) (cmd : Line), Handled s 5 priv 0x15 cmd ∧ s.power.moving = false ∧ (∀ q : Fin 8, (box
      s q).long = false) ∧ s.bist.test = none ∧ fld cmd 8 1 = 2 ∧ 2 < s.job.state.toNat) ∧
    (∃ (s : State) (priv : Bool) (cmd : Line), Handled s 5 priv 0x15 cmd ∧ s.power.moving = false ∧ (∀ q : Fin 8, (box
      s q).long = false) ∧ s.bist.test = none ∧ ((fld cmd 8 1 = 1 ∧ s.recov.state.get ∈ [0, 7, 9] ∧ s.twin.state = 0) ∨
      (fld cmd 8 1 = 2 ∧ s.job.state.toNat ≤ 2))) ∧
    (∃ (s : State) (priv : Bool) (cmd : Line), Handled s 5 priv 0x15 cmd ∧ s.power.moving = false ∧ (∀ q : Fin 8, (box
      s q).long = false) ∧ s.bist.test = none ∧ ((fld cmd 8 1 = 1 ∧ s.recov.state.get ∈ [0, 7, 9] ∧ s.twin.state = 0) ∨
      (fld cmd 8 1 = 2 ∧ s.job.state.toNat ≤ 2))) ∧
    (∃ (s : State) (cmd : Line) (e : CatEntry), Prompt s 5 0x15 cmd ∧ catalogue 0x15 = some e ∧ badByte e cmd = none ∧
      usesProfile e cmd = false ∧ s.bist.run = none ∧ s.power.season.get = 1 ∧ s.power.moving = false ∧ fld cmd 8 1 =
      0) ∧
    (∃ (s : State), s.power.moving = false) ∧
    (∃ (s : State) (mb : Fin 8), s.power.moving = true ∧ s.power.wakeKept = false ∧ s.rst.heldMgp = false ∧
      s.rst.heldWdog = false ∧ s.power.target = 1 ∧ s.power.mailbox = some mb ∧ s.stat.fwState.get = 2) ∧
    (∃ (s : State), s.power.moving = true ∧ s.power.wakeKept = false ∧ s.rst.heldMgp = false ∧ s.rst.heldWdog = false ∧
      s.power.target = 2 ∧ s.ports.wrapped = none ∧ s.cap.held = [] ∧ s.cap.oldReads = [] ∧ s.cap.queue = []) ∧
    (∃ (s : State), s.ports.mgp = true ∧ s.beacon.wakeEn = false) ∧
    (∃ (s : State), s.ports.mgp = true ∧ s.power.moving = false ∧ s.power.season.get = 0) ∧
    (∃ (s : State), s.ports.mgp = true ∧ s.beacon.wakeEn = true ∧ s.power.moving = false ∧ (s.power.season.get = 1 ∨
      s.power.season.get = 2)) ∧
    (∃ (s : State), s.ports.mgp = true ∧ s.beacon.wakeEn = true ∧ s.power.moving = false ∧ (s.power.season.get = 1 ∨
      s.power.season.get = 2)) ∧
    (∃ (s : State), s.power.moving = true ∧ s.power.season.get = 3 ∧ s.power.fromWinter = false ∧ s.power.springStep <
      2) ∧
    (∃ (s : State), s.power.moving = true ∧ s.power.season.get = 3 ∧ s.power.fromWinter = false ∧ s.power.springStep <
      2) ∧
    (∃ (s : State), s.power.moving = true ∧ s.power.season.get = 3 ∧ s.power.fromWinter = false ∧ 2 ≤
      s.power.springStep ∧ s.bcast.wokeBy = none ∧ s.rst.heldMgp = false ∧ s.rst.heldWdog = false ∧ s.power.mailbox =
      none) ∧
    (∃ (s : State), s.power.moving = true ∧ s.power.season.get = 3 ∧ s.power.fromWinter = false ∧ 2 ≤
      s.power.springStep ∧ s.bcast.wokeBy = none ∧ s.rst.heldMgp = false ∧ s.rst.heldWdog = false ∧ s.power.mailbox =
      none) ∧
    (∃ (s : State), s.power.moving = true ∧ s.power.season.get = 3 ∧ s.power.fromWinter = true ∧ s.power.springStep =
      0) ∧
    (∃ (s : State), s.power.moving = true ∧ s.power.season.get = 3 ∧ s.power.fromWinter = true ∧ s.power.springStep = 1
      ∧ s.cap.held = [] ∧ s.cap.oldReads = [] ∧ s.cap.queue = []) ∧
    (∃ (s : State), s.power.moving = true ∧ s.power.season.get = 3 ∧ s.power.fromWinter = true ∧ s.power.springStep = 2
      ∧ s.stat.fwState.get = 1 ∧ s.fw.checked = false ∧ s.rst.phase = .running ∧ imageGood s = true) ∧
    (∃ (s : State), s.power.moving = true ∧ s.power.season.get = 3 ∧ s.power.fromWinter = true ∧ s.power.springStep = 2
      ∧ s.stat.fwState.get = 1 ∧ s.fw.checked = false ∧ s.rst.phase = .running ∧ imageGood s = false) ∧
    (∃ (s : State), s.power.moving = true ∧ s.power.season.get = 3 ∧ s.power.fromWinter = true ∧ 3 ≤ s.power.springStep
      ∧ s.bcast.wokeBy = none ∧ s.rst.heldMgp = false ∧ s.rst.heldWdog = false ∧ s.power.mailbox = none ∧
      s.ports.wrapped = none) ∧
    (∃ (s : State), s.power.moving = true ∧ s.power.season.get = 3 ∧ s.power.fromWinter = true ∧ 3 ≤ s.power.springStep
      ∧ s.bcast.wokeBy = none ∧ s.rst.heldMgp = false ∧ s.rst.heldWdog = false ∧ s.power.mailbox = none ∧
      s.ports.wrapped = none) :=
  ⟨⟨up, true, c8 0x15 [(8,1,3)], handled_of (by decide +kernel), by decide +kernel⟩,
   ⟨wakeS, true, c8 0x15 [(8,1,3)], handled_of (by decide +kernel), by decide +kernel⟩,
   ⟨up, true, c8 0x15 [(8,1,0)], handled_of (by decide +kernel), by decide +kernel⟩,
   ⟨longOther, true, c8 0x15 [(8,1,1)], 2, handled_of (by decide +kernel), by decide +kernel⟩,
   ⟨recovering, true, c8 0x15 [(8,1,1)], handled_of (by decide +kernel), by decide +kernel⟩,
   ⟨member, true, c8 0x15 [(8,1,2)], handled_of (by decide +kernel), by decide +kernel⟩,
   ⟨recovering, true, c8 0x15 [(8,1,2)], handled_of (by decide +kernel), by decide +kernel⟩,
   ⟨up, true, c8 0x15 [(8,1,1)], handled_of (by decide +kernel), by decide +kernel⟩,
   ⟨wakeS, true, c8 0x15 [(8,1,2)], handled_of (by decide +kernel), by decide +kernel⟩,
   ⟨autumn, c8 0x15 [(8,1,0)], ((catalogue 0x15).getD ⟨.info, false, true, []⟩), by decide +kernel, by decide +kernel⟩,
   ⟨up, by decide +kernel⟩,
   ⟨mv1, 2, by decide +kernel⟩,
   ⟨mv2, by decide +kernel, by decide +kernel⟩,
   ⟨noWake, by decide +kernel⟩,
   ⟨up, by decide +kernel⟩,
   ⟨winter up, by decide +kernel⟩,
   ⟨wakeW, by decide +kernel⟩,
   ⟨spring 0 false, by decide +kernel⟩,
   ⟨spring 1 false, by decide +kernel⟩,
   ⟨spring 2 false, by decide +kernel⟩,
   ⟨spring 3 false, by decide +kernel⟩,
   ⟨spring 0 true, by decide +kernel⟩,
   ⟨spring 1 true, by decide +kernel⟩,
   ⟨loaded (spring 2 true), by decide +kernel, by decide +kernel, by decide +kernel, by decide +kernel,
     by decide +kernel, by decide +kernel, by decide +kernel, imageGood_of _ goodHead img0 (by decide +kernel)
     List.length_replicate rfl rfl rfl⟩,
   ⟨loadedBad (spring 2 true), by decide +kernel⟩,
   ⟨spring 3 true, by decide +kernel, by decide +kernel⟩,
   ⟨loaded (spring 3 true), by decide +kernel, by decide +kernel⟩⟩

theorem witness_ResetLevels :
    (∃ (s : State), s.power.on = false) ∧
    (∃ (s : State) (c : Instr) (r : ResetS), ((c = .sysSupply ∧ s.power.on = true ∧ r =
      { s.rst with sysSupply := true }) ∨ (c = .sysThermal ∧ s.power.on = true ∧ r = { s.rst with sysThermal := true })
      ∨ (c = .rstCtrlSys .mgp ∧ s.ports.mgp = true ∧ r = { s.rst with sysMgp := true }))) ∧
    (∃ (s : State) (c : Instr) (r : ResetS), ((c = .sysSupply ∧ s.power.on = true ∧ r =
      { s.rst with sysSupply := true }) ∨ (c = .sysThermal ∧ s.power.on = true ∧ r = { s.rst with sysThermal := true })
      ∨ (c = .rstCtrlSys .mgp ∧ s.ports.mgp = true ∧ r = { s.rst with sysMgp := true }))) ∧
    (∃ (s : State) (c : Instr) (u : BitVec 4), u ≠ 0 ∧ (c ∈ [.rstCtrlSys .fbp, .rstCtrlCore .fbp, .rstCtrlUnit .fbp u]
      ∧ s.ports.fbp = true ∨ c ∈ [.rstCtrlSys .tap, .rstCtrlCore .tap, .rstCtrlUnit .tap u] ∧ s.power.on = true) ∧
      s.power.season.get ≠ 2) ∧
    (∃ (s : State) (c : Instr) (u : BitVec 4), u ≠ 0 ∧ (c ∈ [.rstCtrlSys .fbp, .rstCtrlCore .fbp, .rstCtrlUnit .fbp u]
      ∧ s.ports.fbp = true ∨ c ∈ [.rstCtrlSys .tap, .rstCtrlCore .tap, .rstCtrlUnit .tap u] ∧ s.power.on = true) ∧
      s.power.season.get ≠ 2) ∧
    (∃ (s : State) (c : Instr) (u : BitVec 4), u ≠ 0 ∧ (c ∈ [.rstCtrlSys .fbp, .rstCtrlCore .fbp, .rstCtrlUnit .fbp u]
      ∧ s.ports.fbp = false ∨ c ∈ [.rstCtrlSys .tap, .rstCtrlCore .tap, .rstCtrlUnit .tap u] ∧ s.power.on = false ∨ c ∈
      [.rstCtrlSys .mgp, .rstCtrlCore .mgp, .rstCtrlUnit .mgp u] ∧ s.ports.mgp = false ∨ c ∈ [.rstCtrlSys .lkp,
      .rstCtrlCore .lkp, .rstCtrlUnit .lkp u])) ∧
    (∃ (s : State) (c : Instr) (u : BitVec 4), u ≠ 0 ∧ (c ∈ [.rstCtrlSys .fbp, .rstCtrlCore .fbp, .rstCtrlUnit .fbp u]
      ∧ s.ports.fbp = false ∨ c ∈ [.rstCtrlSys .tap, .rstCtrlCore .tap, .rstCtrlUnit .tap u] ∧ s.power.on = false ∨ c ∈
      [.rstCtrlSys .mgp, .rstCtrlCore .mgp, .rstCtrlUnit .mgp u] ∧ s.ports.mgp = false ∨ c ∈ [.rstCtrlSys .lkp,
      .rstCtrlCore .lkp, .rstCtrlUnit .lkp u])) ∧
    (∃ (s : State), s.rst.phase ≠ .initialising) ∧
    (∃ (s : State), s.rst.phase = .initialising ∧ s.power.on = true ∧ s.ports.wrapped = none ∧ s.cap.held = [] ∧
      s.cap.oldReads = [] ∧ s.cap.queue = []) ∧
    (∃ (s : State), s.ports.mgp = true ∧ s.rst.phase = .coreBooting) ∧
    (∃ (s : State), s.ports.mgp = true ∧ s.rst.phase = .running ∧ s.power.moving = true ∧ s.bist.run = none) ∧
    (∃ (s : State), s.ports.mgp = true ∧ s.rst.phase = .running ∧ s.power.moving = false ∧ s.bist.run.isSome) ∧
    (∃ (s : State), s.ports.mgp = true ∧ s.rst.phase = .running ∧ s.power.moving = false ∧ s.power.season.get = 2 ∧
      s.bist.run = none) ∧
    (∃ (s : State), s.ports.mgp = true ∧ s.rst.phase = .running ∧ s.power.moving = false ∧ s.power.season.get ≠ 2 ∧
      s.bist.run = none) ∧
    (∃ (s : State), s.ports.mgp = true ∧ s.rst.phase = .running ∧ s.power.moving = false ∧ s.power.season.get ≠ 2 ∧
      s.bist.run = none ∧ s.apply.run = none ∧ s.exch.reduces = [] ∧ s.exch.compress = none ∧ s.recov.state.get = 0) ∧
    (∃ (s : State), s.stat.fwState.get ≠ 2) ∧
    (∃ (s : State), s.stat.fwState.get = 2 ∧ s.rst.phase = .running ∧ s.power.moving = false ∧ s.power.season.get ≠ 2 ∧
      s.bist.run = none ∧ s.apply.run = none ∧ s.exch.reduces = [] ∧ s.exch.compress = none ∧ s.recov.state.get = 0 ∧
      s.log.entries = []) ∧
    (∃ (s : State) (g : U64) (r : ApplyRun), s.rst.phase = .coreStopping g ∧ s.apply.run = some r ∧ s.time.gtc.toNat <
      g.toNat + 100000) ∧
    (∃ (s : State) (g : U64) (r : ApplyRun), s.rst.phase = .coreStopping g ∧ s.apply.run = some r ∧ g.toNat + 100000 ≤
      s.time.gtc.toNat) ∧
    (∃ (s : State) (g : U64) (r : ApplyRun), s.rst.phase = .coreStopping g ∧ s.apply.run = some r ∧ g.toNat + 100000 ≤
      s.time.gtc.toNat) ∧
    (∃ (s : State) (g : U64) (r : ApplyRun), s.rst.phase = .coreStopping g ∧ s.apply.run = some r ∧ g.toNat + 100000 ≤
      s.time.gtc.toNat ∧ s.apply.switching = none ∧ (∀ c, r.running.get c = none)) ∧
    (∃ (s : State), s.apply.run = none) ∧
    (∃ (s : State) (u : BitVec 4), u ≠ 0 ∧ s.ports.mgp = true ∧ (coreResetRuns s = true ∨ s.power.moving = true ∨
      s.bist.run.isSome)) ∧
    (∃ (s : State) (u : BitVec 4), u ≠ 0 ∧ s.ports.mgp = true ∧ (coreResetRuns s = true ∨ s.power.moving = true ∨
      s.bist.run.isSome)) ∧
    (∃ (s : State), s.ports.mgp = true ∧ s.rst.phase = .running ∧ s.power.moving = false ∧ s.bist.run = none) ∧
    (∃ (s : State), s.ports.mgp = true ∧ s.rst.phase = .running ∧ s.power.moving = false ∧ s.bist.run = none ∧
      applyState s = 3) ∧
    (∃ (s : State), s.ports.mgp = true ∧ s.rst.phase = .running ∧ s.power.moving = false ∧ s.bist.run = none ∧
      applyState s ≠ 3) ∧
    (∃ (s : State), s.ports.mgp = true ∧ s.rst.phase = .running ∧ s.power.moving = false ∧ s.bist.run = none ∧
      exchState s = 3) ∧
    (∃ (s : State), s.ports.mgp = true ∧ s.rst.phase = .running ∧ s.power.moving = false ∧ s.bist.run = none ∧
      s.tier.flight = [] ∧ s.tier.progressLine = none) ∧
    (∃ (s : State), s.ports.mgp = true ∧ s.rst.phase = .running ∧ s.power.moving = false ∧ s.bist.run = none ∧
      s.tier.flight ≠ [] ∧ s.tier.halted ≠ 15) ∧
    (∃ (s : State), s.ports.mgp = true ∧ s.rst.phase = .running ∧ s.power.moving = false ∧ s.bist.run = none ∧
      s.recov.state.get = 0 ∧ s.recov.shadow = none ∧ s.recov.handover = none ∧ s.twin.state ≠ 3) ∧
    (∃ (s : State), s.ports.mgp = true ∧ s.rst.phase = .running ∧ s.power.moving = false ∧ s.bist.run = none ∧
      s.twin.state = 3) ∧
    (∃ (s : State) (k : _), k ∈ [13, 16, 20] ∧ s.bist.run.isSome = true ∧ s.bist.left.head? = some k) ∧
    (∃ (s : State), s.ports.mgp = true) :=
  ⟨⟨offS, by decide +kernel⟩,
   ⟨up, .sysSupply, { up.rst with sysSupply := true }, by decide +kernel⟩,
   ⟨exOff, .rstCtrlSys .mgp, { exOff.rst with sysMgp := true }, by decide +kernel⟩,
   ⟨up, .rstCtrlSys .fbp, 1, by decide +kernel⟩,
   ⟨exOff, .rstCtrlUnit .fbp 5, 5, by decide +kernel⟩,
   ⟨up, .rstCtrlSys .lkp, 1, by decide +kernel⟩,
   ⟨exOff, .rstCtrlUnit .lkp 5, 5, by decide +kernel⟩,
   ⟨up, by decide +kernel⟩,
   ⟨initS, by decide +kernel⟩,
   ⟨coreBoot, by decide +kernel⟩,
   ⟨mv1, by decide +kernel⟩,
   ⟨bistRunS, by decide +kernel⟩,
   ⟨winter up, by decide +kernel⟩,
   ⟨up, by decide +kernel⟩,
   ⟨up, by decide +kernel, by decide +kernel⟩,
   ⟨initS, by decide +kernel⟩,
   ⟨up, by decide +kernel, by decide +kernel, by decide +kernel⟩,
   ⟨coreStop2, 1000, ar0, by decide +kernel⟩,
   ⟨coreStop, 1000, ar0, by decide +kernel⟩,
   ⟨coreStopE, 1000, arEnd, by decide +kernel⟩,
   ⟨coreStopE, 1000, arEnd, by decide +kernel⟩,
   ⟨up, by decide +kernel⟩,
   ⟨coreBoot, 1, by decide +kernel⟩,
   ⟨coreStopE, 15, by decide +kernel⟩,
   ⟨up, by decide +kernel⟩,
   ⟨applyAsleep, by decide +kernel⟩,
   ⟨up, by decide +kernel⟩,
   ⟨applyAsleep, by decide +kernel⟩,
   ⟨up, by decide +kernel⟩,
   ⟨flying, by decide +kernel⟩,
   ⟨up, by decide +kernel⟩,
   ⟨{ member with twin.state := 3 }, by decide +kernel⟩,
   ⟨bistCore 13, 13, by decide +kernel⟩,
   ⟨up, by decide +kernel⟩⟩

theorem witness_FirmwareComesUp :
    (∃ (s : State), imageOpen s = false) ∧
    (∃ (s : State) (off : U32) (bs : List Byte), bs.length = 256 ∧ imageOpen s = true ∧ s.stat.fwState.get = 0 ∧
      off.toNat < s.fw.expected) ∧
    (∃ (s : State) (off : U32) (bs : List Byte), bs.length = 256 ∧ imageOpen s = true ∧ s.stat.fwState.get = 0 ∧
      off.toNat < s.fw.expected) ∧
    (∃ (s : State) (off : U32) (bs : List Byte), bs.length = 256 ∧ imageOpen s = true ∧ s.stat.fwState.get = 0 ∧
      off.toNat = s.fw.expected ∧ off ≠ 0) ∧
    (∃ (s : State) (off : U32) (bs : List Byte), bs.length = 256 ∧ imageOpen s = true ∧ s.stat.fwState.get = 0 ∧
      s.fw.expected = 0 ∧ off = 0 ∧ fldAt bs 0 4 ≠ 0x48594657) ∧
    (∃ (s : State) (off : U32) (bs : List Byte), bs.length = 256 ∧ imageOpen s = true ∧ s.stat.fwState.get = 0 ∧
      s.fw.expected = 0 ∧ off = 0 ∧ fldAt bs 0 4 = 0x48594657 ∧ fldAt bs 6 1 ≠ 0xB0) ∧
    (∃ (s : State) (off : U32) (bs : List Byte), bs.length = 256 ∧ imageOpen s = true ∧ s.stat.fwState.get = 0 ∧
      s.fw.expected = 0 ∧ off = 0 ∧ fldAt bs 0 4 = 0x48594657 ∧ fldAt bs 6 1 = 0xB0 ∧ (fldAt bs 16 4 < 4096 ∨ 393216 <
      fldAt bs 16 4)) ∧
    (∃ (s : State) (off : U32) (bs : List Byte), bs.length = 256 ∧ imageOpen s = true ∧ s.stat.fwState.get = 0 ∧
      s.fw.expected = 0 ∧ off = 0 ∧ fldAt bs 0 4 = 0x48594657 ∧ fldAt bs 6 1 = 0xB0 ∧ (fldAt bs 16 4 < 4096 ∨ 393216 <
      fldAt bs 16 4)) ∧
    (∃ (s : State) (off : U32) (bs : List Byte), bs.length = 256 ∧ imageOpen s = true ∧ s.stat.fwState.get = 0 ∧
      s.fw.expected = 0 ∧ off = 0 ∧ fldAt bs 0 4 = 0x48594657 ∧ fldAt bs 6 1 = 0xB0 ∧ fldAt bs 16 4 % 256 = 0 ∧ 4096 ≤
      fldAt bs 16 4 ∧ fldAt bs 16 4 ≤ 393216) ∧
    (∃ (s : State) (off : U32) (bs : List Byte), bs.length = 256 ∧ imageOpen s = true ∧ s.stat.fwState.get = 0 ∧
      s.fw.expected = 0 ∧ off = 0 ∧ fldAt bs 0 4 = 0x48594657 ∧ fldAt bs 6 1 = 0xB0 ∧ fldAt bs 16 4 % 256 = 0 ∧ 4096 ≤
      fldAt bs 16 4 ∧ fldAt bs 16 4 ≤ 393216) ∧
    (∃ (s : State) (off : U32) (bs : List Byte), bs.length = 256 ∧ imageOpen s = true ∧ s.stat.fwState.get = 0 ∧
      s.fw.expected < off.toNat) ∧
    (∃ (s : State) (off : U32) (bs : List Byte), bs.length = 256 ∧ imageOpen s = true ∧ s.stat.fwState.get = 0 ∧
      s.fw.expected < off.toNat) ∧
    (∃ (s : State) (off : U32) (bs : List Byte), bs.length = 256 ∧ imageOpen s = true ∧ s.stat.fwState.get = 3 ∧ off ≠
      0) ∧
    (∃ (s : State) (off : U32) (bs : List Byte), bs.length = 256 ∧ imageOpen s = true ∧ s.stat.fwState.get = 3 ∧ off =
      0 ∧ fldAt bs 0 4 = 0x48594657 ∧ fldAt bs 6 1 = 0xB0 ∧ fldAt bs 16 4 % 256 = 0 ∧ 4096 ≤ fldAt bs 16 4 ∧ fldAt bs
      16 4 ≤ 393216) ∧
    (∃ (s : State) (off : U32) (bs : List Byte), bs.length = 256 ∧ imageOpen s = true ∧ s.stat.fwState.get = 3 ∧ off =
      0 ∧ fldAt bs 0 4 = 0x48594657 ∧ fldAt bs 6 1 = 0xB0 ∧ fldAt bs 16 4 % 256 = 0 ∧ 4096 ≤ fldAt bs 16 4 ∧ fldAt bs
      16 4 ≤ 393216) ∧
    (∃ (s : State) (bs : List Byte), bs.length = 256 ∧ imageOpen s = true ∧ s.stat.fwState.get ≠ 0 ∧ s.stat.fwState.get
      ≠ 3 ∧ s.log.entries = []) ∧
    (∃ (s : State), bootChecks s = false) ∧
    (∃ (s : State), s.stat.fwState.get = 1 ∧ s.fw.checked = false ∧ (s.rst.phase = .running ∨ s.rst.phase =
      .coreBooting) ∧ imageGood s = true) ∧
    (∃ (s : State), s.stat.fwState.get = 1 ∧ s.fw.checked = false ∧ (s.rst.phase = .running ∨ s.rst.phase =
      .coreBooting) ∧ imageGood s = true) ∧
    (∃ (s : State), s.stat.fwState.get = 1 ∧ s.fw.checked = false ∧ (s.rst.phase = .running ∨ s.rst.phase =
      .coreBooting) ∧ imageGood s = false) ∧
    (∃ (s : State), (s.stat.fwState.get ≠ 1 ∨ s.fw.checked = false)) ∧
    (∃ (s : State), (s.stat.fwState.get ≠ 1 ∨ s.fw.checked = false)) ∧
    (∃ (s : State), s.stat.fwState.get = 1 ∧ s.fw.checked = true ∧ s.ports.wrapped = none ∧ s.rst.phase = .running ∧
      s.power.moving = true ∧ s.power.fromWinter = true) ∧
    (∃ (s : State), s.stat.fwState.get = 1 ∧ s.fw.checked = true ∧ s.ports.wrapped = none ∧ s.rst.phase = .running ∧
      (s.power.moving = false ∨ s.power.fromWinter = false)) ∧
    (∃ (s : State), s.stat.fwState.get = 1 ∧ s.fw.checked = true ∧ s.ports.wrapped = none ∧ s.rst.phase = .running ∧
      (s.power.moving = false ∨ s.power.fromWinter = false)) ∧
    (∃ (s : State), s.stat.fwState.get = 1 ∧ s.fw.checked = true ∧ s.ports.wrapped = none ∧ s.rst.phase = .coreBooting
      ∧ s.mb.peer = [] ∧ (∀ r ∈ s.rst.results, ∀ f ∈ r.2, 8 ≤ f.1)) :=
  ⟨⟨winter up, by decide +kernel⟩,
   ⟨fw0e 256 512, 0, List.replicate 256 (0 : Byte), by decide +kernel⟩,
   ⟨fw0e 3840 4096, 512, hdr 0x48594657 0xB0 0, by decide +kernel⟩,
   ⟨fw0e 256 512, 256, List.replicate 256 (0 : Byte), by decide +kernel⟩,
   ⟨fw0, 0, List.replicate 256 (0 : Byte), by decide +kernel⟩,
   ⟨fw0, 0, hdr 0x48594657 0xA0 4096, by decide +kernel⟩,
   ⟨fw0, 0, hdr 0x48594657 0xB0 393472, by decide +kernel⟩,
   ⟨fw0, 0, hdr 0x48594657 0xB0 0, by decide +kernel⟩,
   ⟨fw0, 0, hdr 0x48594657 0xB0 4096, by decide +kernel, by decide +kernel, by decide +kernel⟩,
   ⟨fw0, 0, hdr 0x48594657 0xB0 393216, by decide +kernel, by decide +kernel, by decide +kernel⟩,
   ⟨fw0, 256, List.replicate 256 (0 : Byte), by decide +kernel⟩,
   ⟨fw0e 256 4096, 512, hdr 0x48594657 0xB0 0, by decide +kernel⟩,
   ⟨fw3, 256, List.replicate 256 (0 : Byte), by decide +kernel⟩,
   ⟨fw3, 0, hdr 0x48594657 0xB0 4096, by decide +kernel, by decide +kernel⟩,
   ⟨fw3, 0, hdr 0x48594657 0xB0 393216, by decide +kernel, by decide +kernel⟩,
   ⟨up, List.replicate 256 (0 : Byte), by decide +kernel⟩,
   ⟨up, by decide +kernel⟩,
   ⟨loaded up, by decide +kernel, by decide +kernel, by decide +kernel, imageGood_of _ goodHead img0
     (by decide +kernel) List.length_replicate rfl rfl rfl⟩,
   ⟨loaded coreBoot, by decide +kernel, by decide +kernel, by decide +kernel, imageGood_of _ goodHead img0
     (by decide +kernel) List.length_replicate rfl rfl rfl⟩,
   ⟨loadedBad up, by decide +kernel⟩,
   ⟨up, by decide +kernel⟩,
   ⟨offS, by decide +kernel⟩,
   ⟨checkedS (spring 3 true), by decide +kernel⟩,
   ⟨checkedS up, by decide +kernel⟩,
   ⟨checkedS (spring 3 false), by decide +kernel⟩,
   ⟨coreBootC, by decide +kernel⟩⟩

theorem witness_LatticeScrubsAndRemaps :
    (∃ (s : State) (m : Nat) (tile : Nat), (s.power.on = false ∨ s.power.season.get = 2 ∨ macroTiles m ≤ tile)) ∧
    (∃ (s : State) (m : Nat) (tile : Nat), (s.power.on = false ∨ s.power.season.get = 2 ∨ macroTiles m ≤ tile)) ∧
    (∃ (s : State) (m : Nat) (tile : Nat) (upset : List (Nat × Byte)), s.power.on = true ∧ s.power.season.get ≠ 2 ∧
      s.rst.phase = .running ∧ tile < macroTiles m ∧ s.log.entries = [] ∧ judgeTile (tilePattern s m tile upset) =
      .clean) ∧
    (∃ (s : State) (m : Nat) (tile : Nat) (upset : List (Nat × Byte)), s.power.on = true ∧ s.power.season.get ≠ 2 ∧
      s.rst.phase = .running ∧ tile < macroTiles m ∧ s.log.entries = [] ∧ judgeTile (tilePattern s m tile upset) =
      .clean) ∧
    (∃ (s : State) (m : Nat) (tile : Nat) (upset : List (Nat × Byte)) (sym : _), s.power.on = true ∧ s.power.season.get
      ≠ 2 ∧ s.rst.phase = .running ∧ tile < macroTiles m ∧ s.log.entries = [] ∧ judgeTile (tilePattern s m tile upset)
      = .data sym ∧ s.lat.mended = []) ∧
    (∃ (s : State) (m : Nat) (tile : Nat) (upset : List (Nat × Byte)) (sym : _), s.power.on = true ∧ s.power.season.get
      ≠ 2 ∧ s.rst.phase = .running ∧ tile < macroTiles m ∧ s.log.entries = [] ∧ judgeTile (tilePattern s m tile upset)
      = .data sym ∧ s.lat.mended = []) ∧
    (∃ (s : State) (m : Nat) (tile : Nat) (upset : List (Nat × Byte)) (sym : _) (g : U64), s.power.on = true ∧
      s.power.season.get ≠ 2 ∧ s.rst.phase = .running ∧ tile < macroTiles m ∧ s.log.entries = [] ∧ judgeTile
      (tilePattern s m tile upset) = .data sym ∧ s.lat.mended = [(m, tile * 32 + sym, 1, g)] ∧ s.time.gtc.toNat <
      g.toNat + 1000000000 ∧ s.stat.fwState.get = 2 ∧ s.lat.remaps = [] ∧ 40 ≤ m) ∧
    (∃ (s : State) (m : Nat) (tile : Nat) (upset : List (Nat × Byte)) (sym : _) (g : U64), s.power.on = true ∧
      s.power.season.get ≠ 2 ∧ s.rst.phase = .running ∧ tile < macroTiles m ∧ s.log.entries = [] ∧ judgeTile
      (tilePattern s m tile upset) = .data sym ∧ s.lat.mended = [(m, tile * 32 + sym, 1, g)] ∧ s.time.gtc.toNat <
      g.toNat + 1000000000 ∧ s.stat.fwState.get = 2 ∧ s.lat.remaps = [] ∧ 40 ≤ m) ∧
    (∃ (s : State) (m : Nat) (tile : Nat) (upset : List (Nat × Byte)) (live : Bool), s.power.on = true ∧
      s.power.season.get ≠ 2 ∧ s.rst.phase = .running ∧ tile < macroTiles m ∧ s.log.entries = [] ∧ judgeTile
      (tilePattern s m tile upset) = .uncorrectable ∧ s.ports.mgp = true ∧ live = false) ∧
    (∃ (s : State) (m : Nat) (tile : Nat) (upset : List (Nat × Byte)) (live : Bool), s.power.on = true ∧
      s.power.season.get ≠ 2 ∧ s.rst.phase = .running ∧ tile < macroTiles m ∧ s.log.entries = [] ∧ judgeTile
      (tilePattern s m tile upset) = .uncorrectable ∧ s.ports.mgp = true ∧ live = false) ∧
    (∃ (s : State) (m : Nat) (tile : Nat) (upset : List (Nat × Byte)) (live : Bool), s.power.on = true ∧
      s.power.season.get ≠ 2 ∧ s.rst.phase = .running ∧ tile < macroTiles m ∧ s.log.entries = [] ∧ judgeTile
      (tilePattern s m tile upset) = .uncorrectable ∧ s.ports.mgp = true ∧ live = true ∧ (m = 90 ∨ m = 91 ∨ m < 4) ∧
      s.stat.fwState.get = 2) ∧
    (∃ (s : State) (m : Nat) (tile : Nat) (upset : List (Nat × Byte)) (live : Bool), s.power.on = true ∧
      s.power.season.get ≠ 2 ∧ s.rst.phase = .running ∧ tile < macroTiles m ∧ s.log.entries = [] ∧ judgeTile
      (tilePattern s m tile upset) = .uncorrectable ∧ s.ports.mgp = true ∧ live = true ∧ (m = 90 ∨ m = 91 ∨ m < 4) ∧
      s.stat.fwState.get = 2) ∧
    (∃ (s : State) (m : Nat) (tile : Nat) (upset : List (Nat × Byte)) (live : Bool), s.power.on = true ∧
      s.power.season.get ≠ 2 ∧ s.rst.phase = .running ∧ tile < macroTiles m ∧ s.log.entries = [] ∧ judgeTile
      (tilePattern s m tile upset) = .uncorrectable ∧ s.ports.mgp = true ∧ live = true ∧ 4 ≤ m ∧ m < 40 ∧ codingActive
      s = true) ∧
    (∃ (s : State) (m : Nat) (tile : Nat) (upset : List (Nat × Byte)) (live : Bool), s.power.on = true ∧
      s.power.season.get ≠ 2 ∧ s.rst.phase = .running ∧ tile < macroTiles m ∧ s.log.entries = [] ∧ judgeTile
      (tilePattern s m tile upset) = .uncorrectable ∧ s.ports.mgp = true ∧ live = true ∧ 4 ≤ m ∧ m < 40 ∧ codingActive
      s = true) ∧
    (∃ (s : State) (m : Nat) (tile : Nat) (upset : List (Nat × Byte)) (live : Bool) (c : _), s.power.on = true ∧
      s.power.season.get ≠ 2 ∧ s.rst.phase = .running ∧ tile < macroTiles m ∧ s.log.entries = [] ∧ judgeTile
      (tilePattern s m tile upset) = .uncorrectable ∧ s.ports.mgp = true ∧ live = true ∧ c < 4 ∧ m = 73 + c ∧
      s.tier.progressLine = none) ∧
    (∃ (s : State) (m : Nat) (tile : Nat) (upset : List (Nat × Byte)) (live : Bool) (c : _), s.power.on = true ∧
      s.power.season.get ≠ 2 ∧ s.rst.phase = .running ∧ tile < macroTiles m ∧ s.log.entries = [] ∧ judgeTile
      (tilePattern s m tile upset) = .uncorrectable ∧ s.ports.mgp = true ∧ live = true ∧ c < 4 ∧ m = 73 + c ∧
      s.tier.progressLine = none) ∧
    (∃ (s : State) (mb : Fin 8) (priv : Bool) (cmd : Line), Handled s mb priv 0x19 cmd ∧ 96 ≤ fld cmd 8 2) ∧
    (∃ (s : State) (mb : Fin 8) (priv : Bool) (cmd : Line), Handled s mb priv 0x19 cmd ∧ 96 ≤ fld cmd 8 2) ∧
    (∃ (s : State) (mb : Fin 8) (priv : Bool) (cmd : Line), Handled s mb priv 0x19 cmd ∧ fld cmd 8 2 < 96 ∧ 1 < fld cmd
      10 1) ∧
    (∃ (s : State) (mb : Fin 8) (priv : Bool) (cmd : Line), Handled s mb priv 0x19 cmd ∧ fld cmd 8 2 < 96 ∧ 1 < fld cmd
      10 1) ∧
    (∃ (s : State) (mb : Fin 8) (priv : Bool) (cmd : Line), Handled s mb priv 0x19 cmd ∧ fld cmd 8 2 < 96 ∧ fld cmd 10
      1 ≤ 1 ∧ macroWords (fld cmd 8 2) ≤ fld cmd 12 4) ∧
    (∃ (s : State) (mb : Fin 8) (priv : Bool) (cmd : Line), Handled s mb priv 0x19 cmd ∧ fld cmd 8 2 < 96 ∧ fld cmd 10
      1 ≤ 1 ∧ macroWords (fld cmd 8 2) ≤ fld cmd 12 4) ∧
    (∃ (s : State) (mb : Fin 8) (priv : Bool) (cmd : Line), Handled s mb priv 0x19 cmd ∧ 40 ≤ fld cmd 8 2 ∧ fld cmd 8 2
      < 96 ∧ fld cmd 12 4 < macroWords (fld cmd 8 2) ∧ fld cmd 10 1 = 0 ∧ (∀ r ∈ s.lat.remaps, r.mac ≠ fld cmd 8 2)) ∧
    (∃ (s : State) (mb : Fin 8) (priv : Bool) (cmd : Line), Handled s mb priv 0x19 cmd ∧ 40 ≤ fld cmd 8 2 ∧ fld cmd 8 2
      < 96 ∧ fld cmd 12 4 < macroWords (fld cmd 8 2) ∧ fld cmd 10 1 = 0 ∧ (∀ r ∈ s.lat.remaps, r.mac ≠ fld cmd 8 2)) ∧
    (∃ (s : State) (mb : Fin 8) (priv : Bool) (cmd : Line), Handled s mb priv 0x19 cmd ∧ 40 ≤ fld cmd 8 2 ∧ fld cmd 8 2
      < 96 ∧ fld cmd 12 4 < macroWords (fld cmd 8 2) ∧ fld cmd 10 1 = 0 ∧ (∀ j, j < 8 → ∃ r ∈ s.lat.remaps, r.mac = fld
      cmd 8 2 ∧ r.entry = j) ∧ (∀ r ∈ s.lat.remaps, r.mac = fld cmd 8 2 → r.word ≠ fld cmd 12 4)) ∧
    (∃ (s : State) (mb : Fin 8) (priv : Bool) (cmd : Line), Handled s mb priv 0x19 cmd ∧ 40 ≤ fld cmd 8 2 ∧ fld cmd 8 2
      < 96 ∧ fld cmd 12 4 < macroWords (fld cmd 8 2) ∧ fld cmd 10 1 = 1 ∧ (∀ r ∈ s.lat.remaps, r.mac = fld cmd 8 2 →
      r.word ≠ fld cmd 12 4)) ∧
    (∃ (s : State) (mb : Fin 8) (priv : Bool) (cmd : Line), Handled s mb priv 0x19 cmd ∧ 40 ≤ fld cmd 8 2 ∧ fld cmd 8 2
      < 96 ∧ fld cmd 12 4 < macroWords (fld cmd 8 2) ∧ fld cmd 10 1 = 1 ∧ (∀ r ∈ s.lat.remaps, r.mac = fld cmd 8 2 →
      r.word ≠ fld cmd 12 4)) ∧
    (∃ (s : State) (mb : Fin 8) (priv : Bool) (cmd : Line), Handled s mb priv 0x19 cmd ∧ 40 ≤ fld cmd 8 2 ∧ fld cmd 8 2
      < 96 ∧ fld cmd 12 4 < macroWords (fld cmd 8 2) ∧ fld cmd 10 1 = 1 ∧ (∃ r ∈ s.lat.remaps, r.mac = fld cmd 8 2 ∧
      r.word = fld cmd 12 4)) ∧
    (∃ (s : State), (s.power.on = false ∨ s.fuses.lcs = 1)) ∧
    (∃ (s : State), (s.power.on = false ∨ s.fuses.lcs = 1)) ∧
    (∃ (s : State) (m : Nat) (word : BitVec 20), s.power.on = true ∧ s.fuses.lcs ≠ 1 ∧ 40 ≤ m ∧ word.toNat < macroWords
      m) ∧
    (∃ (s : State) (m : Nat) (word : BitVec 20), s.power.on = true ∧ s.fuses.lcs ≠ 1 ∧ 40 ≤ m ∧ word.toNat < macroWords
      m) ∧
    (∃ (s : State), s.power.on = true ∧ s.fuses.lcs ≠ 1) ∧
    (∃ (s : State), s.cap.recompute = []) ∧
    (∃ (s : State), s.cap.recompute ≠ [] ∧ s.cap.queue = [] ∧ s.cap.oldReads = [] ∧ s.cap.held = []) :=
  ⟨⟨up, 60, 70000, by decide +kernel⟩,
   ⟨recovering, 40, 70000, by decide +kernel⟩,
   ⟨up, 60, 2, [], by decide +kernel⟩,
   ⟨recovering, 40, 1, [], by decide +kernel⟩,
   ⟨up, 60, 2, [(24, 1)], 3, by decide +kernel⟩,
   ⟨recovering, 40, 1, [(24, 1), (25, 7)], 3, by decide +kernel⟩,
   ⟨mended1, 60, 2, [(24, 1)], 3, 1000000, by decide +kernel, by decide +kernel, by decide +kernel, by decide +kernel⟩,
   ⟨mendedOther 60 67, 60, 2, [(24, 1), (25, 7)], 3, 999000, by decide +kernel, by decide +kernel, by decide +kernel,
     by decide +kernel⟩,
   ⟨up, 60, 2, [(24, 1), (40, 3)], false, by decide +kernel⟩,
   ⟨recovering, 40, 1, [(24,1),(40,3),(100,5)], false, by decide +kernel⟩,
   ⟨up, 90, 2, [(24, 1), (40, 3)], true, by decide +kernel, by decide +kernel, by decide +kernel⟩,
   ⟨recovering, 2, 1, [(24,1),(40,3),(100,5)], true, by decide +kernel, by decide +kernel, by decide +kernel⟩,
   ⟨recmp, 20, 2, [(24, 1), (40, 3)], true, by decide +kernel, by decide +kernel, by decide +kernel, by decide +kernel⟩,
   ⟨recovering, 39, 1, [(24,1),(40,3),(100,5)], true, by decide +kernel, by decide +kernel, by decide +kernel,
     by decide +kernel⟩,
   ⟨up, 73, 2, [(24, 1), (40, 3)], true, 0, by decide +kernel, by decide +kernel, by decide +kernel, by decide +kernel⟩,
   ⟨recovering, 76, 1, [(24,1),(40,3),(100,5)], true, 3, by decide +kernel, by decide +kernel, by decide +kernel,
     by decide +kernel⟩,
   ⟨up, 5, true, c8 0x19 [(8,2,96)], handled_of (by decide +kernel), by decide +kernel⟩,
   ⟨recovering, 5, true, c8 0x19 [(8,2,96)], handled_of (by decide +kernel), by decide +kernel⟩,
   ⟨up, 5, true, c8 0x19 [(8,2,95),(10,1,2)], handled_of (by decide +kernel), by decide +kernel⟩,
   ⟨recovering, 5, true, c8 0x19 [(8,2,95),(10,1,2)], handled_of (by decide +kernel), by decide +kernel⟩,
   ⟨up, 5, true, c8 0x19 [(8,2,40),(12,4,0xFFFFF)], handled_of (by decide +kernel), by decide +kernel⟩,
   ⟨recovering, 5, true, c8 0x19 [(8,2,40),(12,4,0xFFFFF)], handled_of (by decide +kernel), by decide +kernel⟩,
   ⟨up, 5, true, c8 0x19 [(8,2,60),(12,4,3)], handled_of (by decide +kernel), by decide +kernel⟩,
   ⟨recovering, 5, true, c8 0x19 [(8,2,95),(10,1,0),(12,4,0)], handled_of (by decide +kernel), by decide +kernel⟩,
   ⟨remS, 5, true, c8 0x19 [(8,2,60),(12,4,3)], handled_of (by decide +kernel), by decide +kernel⟩,
   ⟨up, 5, true, c8 0x19 [(8,2,60),(10,1,1),(12,4,6)], handled_of (by decide +kernel), by decide +kernel⟩,
   ⟨recovering, 5, true, c8 0x19 [(8,2,60),(10,1,1),(12,4,3)], handled_of (by decide +kernel), by decide +kernel⟩,
   ⟨remS, 5, true, c8 0x19 [(8,2,60),(10,1,1),(12,4,6)], handled_of (by decide +kernel), by decide +kernel⟩,
   ⟨offS, by decide +kernel⟩,
   ⟨ro, by decide +kernel⟩,
   ⟨up, 60, 8, by decide +kernel⟩,
   ⟨recovering, 40, 100, by decide +kernel⟩,
   ⟨up, by decide +kernel⟩,
   ⟨up, by decide +kernel⟩,
   ⟨recmp, by decide +kernel⟩⟩

theorem witness_FencesAndSelfTests :
    (∃ (s : State) (mb : Fin 8) (priv : Bool) (cmd : Line), Handled s mb priv 0x18 cmd ∧ 1 < fld cmd 8 1) ∧
    (∃ (s : State) (mb : Fin 8) (priv : Bool) (cmd : Line), Handled s mb priv 0x18 cmd ∧ ((fld cmd 8 1 = 0 ∧ 5 ≤ fld
      cmd 9 1) ∨ (fld cmd 8 1 = 1 ∧ 8 ≤ fld cmd 9 1))) ∧
    (∃ (s : State) (mb : Fin 8) (priv : Bool) (cmd : Line), Handled s mb priv 0x18 cmd ∧ ((fld cmd 8 1 = 0 ∧ 5 ≤ fld
      cmd 9 1) ∨ (fld cmd 8 1 = 1 ∧ 8 ≤ fld cmd 9 1))) ∧
    (∃ (s : State) (mb : Fin 8) (priv : Bool) (cmd : Line), Handled s mb priv 0x18 cmd ∧ fld cmd 8 1 = 1 ∧ fld cmd 9 1
      < 8 ∧ 2 < fld cmd 10 1) ∧
    (∃ (s : State) (mb : Fin 8) (priv : Bool) (cmd : Line), Handled s mb priv 0x18 cmd ∧ fld cmd 8 1 = 1 ∧ fld cmd 9 1
      < 8 ∧ fld cmd 10 1 = 0 ∧ s.apply.sliceFenced = none) ∧
    (∃ (s : State) (mb : Fin 8) (priv : Bool) (cmd : Line), Handled s mb priv 0x18 cmd ∧ fld cmd 8 1 = 1 ∧ fld cmd 9 1
      < 8 ∧ fld cmd 10 1 = 0 ∧ s.apply.sliceFenced = none) ∧
    (∃ (s : State) (mb : Fin 8) (priv : Bool) (cmd : Line) (i : _), Handled s mb priv 0x18 cmd ∧ fld cmd 8 1 = 1 ∧ fld
      cmd 9 1 < 8 ∧ fld cmd 10 1 = 0 ∧ s.apply.sliceFenced = some i ∧ i ≠ fld cmd 9 1) ∧
    (∃ (s : State) (mb : Fin 8) (priv : Bool) (cmd : Line), Handled s mb priv 0x18 cmd ∧ fld cmd 8 1 = 1 ∧ fld cmd 9 1
      < 8 ∧ fld cmd 10 1 = 1 ∧ s.bist.state ≠ 1 ∧ s.apply.sliceFenced = none) ∧
    (∃ (s : State) (mb : Fin 8) (priv : Bool) (cmd : Line), Handled s mb priv 0x18 cmd ∧ fld cmd 8 1 = 1 ∧ fld cmd 9 1
      < 8 ∧ fld cmd 10 1 = 2 ∧ s.apply.sliceFenced = some (fld cmd 9 1)) ∧
    (∃ (s : State) (mb : Fin 8) (priv : Bool) (cmd : Line), Handled s mb priv 0x18 cmd ∧ fld cmd 8 1 = 1 ∧ fld cmd 9 1
      < 8 ∧ fld cmd 10 1 = 2 ∧ s.apply.sliceFenced = none) ∧
    (∃ (s : State) (mb : Fin 8) (priv : Bool) (cmd : Line), Handled s mb priv 0x18 cmd ∧ fld cmd 8 1 = 0 ∧ fld cmd 9 1
      < 5 ∧ fld cmd 10 1 = 0 ∧ s.apply.switching = none ∧ s.apply.run = none ∧ (∀ l : Fin 4, physOf s.ctrl l < 5 ∧ ∀ k
      : Fin 4, k ≠ l → physOf s.ctrl k ≠ physOf s.ctrl l) ∧ (∀ l : Fin 4, physOf s.ctrl l ≠ fld cmd 9 1)) ∧
    (∃ (s : State) (mb : Fin 8) (priv : Bool) (cmd : Line) (l : Fin 4), Handled s mb priv 0x18 cmd ∧ fld cmd 8 1 = 0 ∧
      fld cmd 9 1 < 5 ∧ fld cmd 10 1 = 0 ∧ s.apply.switching = none ∧ s.apply.run = none ∧ (∀ l : Fin 4, physOf s.ctrl
      l < 5 ∧ ∀ k : Fin 4, k ≠ l → physOf s.ctrl k ≠ physOf s.ctrl l) ∧ physOf s.ctrl l = fld cmd 9 1 ∧ s.apply.fenced
      = []) ∧
    (∃ (s : State) (mb : Fin 8) (priv : Bool) (cmd : Line) (l : Fin 4), Handled s mb priv 0x18 cmd ∧ fld cmd 8 1 = 0 ∧
      fld cmd 9 1 < 5 ∧ fld cmd 10 1 = 0 ∧ s.apply.switching = none ∧ s.apply.run = none ∧ (∀ l : Fin 4, physOf s.ctrl
      l < 5 ∧ ∀ k : Fin 4, k ≠ l → physOf s.ctrl k ≠ physOf s.ctrl l) ∧ physOf s.ctrl l = fld cmd 9 1 ∧ reserveOf
      s.ctrl ∈ s.apply.fenced) ∧
    (∃ (s : State), s.bist.test = none) ∧
    (∃ (s : State) (mb : Fin 8) (i : Nat), s.bist.test = some (some mb, true, i) ∧ s.stat.fwState.get = 2 ∧ i < 8) ∧
    (∃ (s : State) (mb : Fin 8) (priv : Bool) (cmd : Line), Handled s mb priv 0x16 cmd ∧ s.fuses.lcs = 1 ∧ (mb.val = 6
      ∨ fld cmd 8 1 ≠ 0)) ∧
    (∃ (s : State) (mb : Fin 8) (priv : Bool) (cmd : Line), Handled s mb priv 0x16 cmd ∧ s.fuses.lcs = 1 ∧ (mb.val = 6
      ∨ fld cmd 8 1 ≠ 0)) ∧
    (∃ (s : State) (mb : Fin 8) (priv : Bool) (cmd : Line), Handled s mb priv 0x16 cmd ∧ s.fuses.lcs ≠ 1 ∧ 3 < fld cmd
      8 1) ∧
    (∃ (s : State) (mb : Fin 8) (priv : Bool) (cmd : Line), Handled s mb priv 0x16 cmd ∧ s.fuses.lcs ≠ 1 ∧ 3 < fld cmd
      8 1) ∧
    (∃ (s : State) (mb : Fin 8) (priv : Bool) (cmd : Line) (b : _), Handled s mb priv 0x16 cmd ∧ s.fuses.lcs ≠ 1 ∧ fld
      cmd 8 1 = 0 ∧ b < 32 ∧ (b = 15 ∨ 22 ≤ b) ∧ (fld cmd 12 4).testBit b = true) ∧
    (∃ (s : State) (mb : Fin 8) (priv : Bool) (cmd : Line) (b : _), Handled s mb priv 0x16 cmd ∧ s.fuses.lcs ≠ 1 ∧ fld
      cmd 8 1 = 0 ∧ b < 32 ∧ (b = 15 ∨ 22 ≤ b) ∧ (fld cmd 12 4).testBit b = true) ∧
    (∃ (s : State) (mb : Fin 8) (priv : Bool) (cmd : Line), Handled s mb priv 0x16 cmd ∧ s.fuses.lcs ≠ 1 ∧ fld cmd 8 1
      = 0 ∧ (∀ b, b < 32 → (b = 15 ∨ 22 ≤ b) → (fld cmd 12 4).testBit b = false) ∧ 2 < s.job.state.toNat) ∧
    (∃ (s : State) (mb : Fin 8) (priv : Bool) (cmd : Line), Handled s mb priv 0x16 cmd ∧ s.fuses.lcs ≠ 1 ∧ fld cmd 8 1
      = 0 ∧ (∀ b, b < 32 → (b = 15 ∨ 22 ≤ b) → (fld cmd 12 4).testBit b = false) ∧ 2 < s.job.state.toNat) ∧
    (∃ (s : State) (mb : Fin 8) (priv : Bool) (cmd : Line), Handled s mb priv 0x16 cmd ∧ s.fuses.lcs ≠ 1 ∧ fld cmd 8 1
      = 0 ∧ (∀ b, b < 32 → (b = 15 ∨ 22 ≤ b) → (fld cmd 12 4).testBit b = false) ∧ s.job.state.toNat ≤ 2 ∧ (∀ m : Fin
      8, m ≠ mb → (box s m).long = false) ∧ s.bist.test = none) ∧
    (∃ (s : State) (mb : Fin 8) (priv : Bool) (cmd : Line), Handled s mb priv 0x16 cmd ∧ s.fuses.lcs ≠ 1 ∧ fld cmd 8 1
      = 0 ∧ (∀ b, b < 32 → (b = 15 ∨ 22 ≤ b) → (fld cmd 12 4).testBit b = false) ∧ s.job.state.toNat ≤ 2 ∧ (∀ m : Fin
      8, m ≠ mb → (box s m).long = false) ∧ s.bist.test = none) ∧
    (∃ (s : State), s.bist.run = none) ∧
    (∃ (s : State) (signature : U64) (mb : Fin 8) (u : Nat) (rest : List Nat), s.bist.run = some mb ∧ s.bist.left = u
      :: rest ∧ s.stat.fwState.get = 2 ∧ rest ≠ [] ∧ s.bist.stop = false ∧ signature = fusedSignature s
      s.bist.set.toNat u) ∧
    (∃ (s : State) (signature : U64) (mb : Fin 8) (u : Nat) (rest : List Nat), s.bist.run = some mb ∧ s.bist.left = u
      :: rest ∧ s.stat.fwState.get = 2 ∧ rest ≠ [] ∧ s.bist.stop = false ∧ signature ≠ fusedSignature s
      s.bist.set.toNat u ∧ u < 32) ∧
    (∃ (s : State) (signature : U64) (mb : Fin 8) (u : Nat) (rest : List Nat), s.bist.run = some mb ∧ s.bist.left = u
      :: rest ∧ s.stat.fwState.get = 2 ∧ rest = [] ∧ s.bist.stop = false ∧ s.bist.aborts = [] ∧ s.rst.heldMgp = false ∧
      s.rst.heldWdog = false ∧ signature = fusedSignature s s.bist.set.toNat u) ∧
    (∃ (s : State), s.power.on = false) ∧
    (∃ (s : State) (c : BitVec 4), s.power.on = true ∧ s.ports.wrapped = none ∧ s.cap.held = [] ∧ s.cap.oldReads = [] ∧
      s.cap.queue = [] ∧ (c = 4 ∨ (s.fuses.lcs ≠ 1 ∧ (c = 1 ∨ c = 3)))) ∧
    (∃ (s : State) (c : BitVec 4), s.power.on = true ∧ s.ports.wrapped = none ∧ s.cap.held = [] ∧ s.cap.oldReads = [] ∧
      s.cap.queue = [] ∧ (c = 4 ∨ (s.fuses.lcs ≠ 1 ∧ (c = 1 ∨ c = 3)))) ∧
    (∃ (s : State) (c : BitVec 4), s.power.on = true ∧ s.ports.wrapped = none ∧ (c = 0 ∨ 4 < c.toNat ∨ (s.fuses.lcs = 1
      ∧ (c = 1 ∨ c = 3)))) ∧
    (∃ (s : State) (c : BitVec 4), s.power.on = true ∧ s.ports.wrapped = none ∧ (c = 0 ∨ 4 < c.toNat ∨ (s.fuses.lcs = 1
      ∧ (c = 1 ∨ c = 3)))) ∧
    (∃ (s : State) (p : Bool × Bool × Bool × Bool), s.power.on = true ∧ s.ports.wrapped = some p ∧ s.ports.msp = false
      ∧ s.events.queue = []) :=
  ⟨⟨up, 5, true, c8 0x18 [(8,1,2)], handled_of (by decide +kernel), by decide +kernel⟩,
   ⟨up, 5, true, c8 0x18 [(8,1,0),(9,1,5)], handled_of (by decide +kernel), by decide +kernel⟩,
   ⟨up, 5, true, c8 0x18 [(8,1,1),(9,1,8)], handled_of (by decide +kernel), by decide +kernel⟩,
   ⟨up, 5, true, c8 0x18 [(8,1,1),(9,1,7),(10,1,3)], handled_of (by decide +kernel), by decide +kernel⟩,
   ⟨up, 5, true, c8 0x18 [(8,1,1),(9,1,3),(10,1,0)], handled_of (by decide +kernel), by decide +kernel⟩,
   ⟨up, 5, true, c8 0x18 [(8,1,1),(9,1,7),(10,1,0)], handled_of (by decide +kernel), by decide +kernel⟩,
   ⟨slF, 5, true, c8 0x18 [(8,1,1),(9,1,7),(10,1,0)], 3, handled_of (by decide +kernel), by decide +kernel⟩,
   ⟨up, 5, true, c8 0x18 [(8,1,1),(9,1,7),(10,1,1)], handled_of (by decide +kernel), by decide +kernel⟩,
   ⟨slF, 5, true, c8 0x18 [(8,1,1),(9,1,3),(10,1,2)], handled_of (by decide +kernel), by decide +kernel⟩,
   ⟨up, 5, true, c8 0x18 [(8,1,1),(9,1,3),(10,1,2)], handled_of (by decide +kernel), by decide +kernel⟩,
   ⟨up, 5, true, c8 0x18 [(8,1,0),(9,1,4),(10,1,0)], handled_of (by decide +kernel), by decide +kernel⟩,
   ⟨up, 5, true, c8 0x18 [(8,1,0),(9,1,1),(10,1,0)], 1, handled_of (by decide +kernel), by decide +kernel⟩,
   ⟨clF, 5, true, c8 0x18 [(8,1,0),(9,1,1),(10,1,0)], 1, handled_of (by decide +kernel), by decide +kernel⟩,
   ⟨up, by decide +kernel⟩,
   ⟨testS, 2, 3, by decide +kernel⟩,
   ⟨ro, 5, true, c8 0x16 [(8,1,1)], handled_of (by decide +kernel), by decide +kernel⟩,
   ⟨ro, 6, true, c8 0x16 [(8,1,0),(12,4,0x207FFF)], handled_of (by decide +kernel), by decide +kernel⟩,
   ⟨up, 5, true, c8 0x16 [(8,1,4)], handled_of (by decide +kernel), by decide +kernel⟩,
   ⟨up, 6, true, c8 0x16 [(8,1,4)], handled_of (by decide +kernel), by decide +kernel⟩,
   ⟨up, 5, true, c8 0x16 [(8,1,0),(12,4,0x8000)], 15, handled_of (by decide +kernel), by decide +kernel⟩,
   ⟨up, 6, true, c8 0x16 [(8,1,0),(12,4,0x80000000)], 31, handled_of (by decide +kernel), by decide +kernel⟩,
   ⟨member, 5, true, c8 0x16 [(8,1,0),(12,4,0)], handled_of (by decide +kernel), by decide +kernel⟩,
   ⟨member, 6, true, c8 0x16 [(8,1,0),(12,4,0x207FFF)], handled_of (by decide +kernel), by decide +kernel⟩,
   ⟨up, 5, true, c8 0x16 [(8,1,0),(12,4,0)], handled_of (by decide +kernel), by decide +kernel⟩,
   ⟨up, 6, true, c8 0x16 [(8,1,0),(12,4,0x207FFF)], handled_of (by decide +kernel), by decide +kernel⟩,
   ⟨up, by decide +kernel⟩,
   ⟨bistRunS, 0, 2, 3, [4], by decide +kernel⟩,
   ⟨bistRunS, 5, 2, 3, [4], by decide +kernel⟩,
   ⟨bistLast, 0, 2, 4, [], by decide +kernel, by decide +kernel⟩,
   ⟨offS, by decide +kernel⟩,
   ⟨up, 4, by decide +kernel⟩,
   ⟨up, 3, by decide +kernel⟩,
   ⟨up, 0, by decide +kernel⟩,
   ⟨up, 15, by decide +kernel⟩,
   ⟨wrapS, (true, true, false, true), by decide +kernel⟩⟩

theorem witness_EdgesKeepTimeAndVotedCopies :
    (∃ (s : State), s.power.on = false) ∧
    (∃ (s : State) (edges : Nat) (value : U64), s.power.on = true ∧ s.time.onDelayLine = false ∧ 1 ≤ s.time.goodEdges ∧
      value = s.time.gtc + BitVec.ofNat 64 (10 * edges)) ∧
    (∃ (s : State) (edges : Nat) (value : U64), s.power.on = true ∧ s.time.onDelayLine = false ∧ 1 ≤ s.time.goodEdges ∧
      value = s.time.gtc + BitVec.ofNat 64 (10 * edges)) ∧
    (∃ (s : State) (edges : Nat) (value : U64), s.power.on = true ∧ s.time.onDelayLine = false ∧ 1 ≤ s.time.goodEdges ∧
      value ≠ s.time.gtc + BitVec.ofNat 64 (10 * edges) ∧ s.ports.mgp = true ∧ s.log.entries = []) ∧
    (∃ (s : State) (edges : Nat) (value : U64), s.power.on = true ∧ s.time.onDelayLine = false ∧ 1 ≤ s.time.goodEdges ∧
      value ≠ s.time.gtc + BitVec.ofNat 64 (10 * edges) ∧ s.ports.mgp = true ∧ s.log.entries = []) ∧
    (∃ (s : State), s.power.on = true ∧ s.ports.mgp = true ∧ s.log.entries = []) ∧
    (∃ (s : State), (s.power.on = false ∨ s.time.onDelayLine = false)) ∧
    (∃ (s : State), (s.power.on = false ∨ s.time.onDelayLine = false)) ∧
    (∃ (s : State), s.power.on = true ∧ s.time.onDelayLine = true) :=
  ⟨⟨offS, by decide +kernel⟩,
   ⟨edgy, 1, edgy.time.gtc + BitVec.ofNat 64 (10 * 1), by decide +kernel⟩,
   ⟨edgyQ, 100, edgyQ.time.gtc + BitVec.ofNat 64 (10 * 100), by decide +kernel⟩,
   ⟨edgy, 1, 17, by decide +kernel⟩,
   ⟨edgyQ, 100, 17, by decide +kernel⟩,
   ⟨up, by decide +kernel⟩,
   ⟨up, by decide +kernel⟩,
   ⟨offS, by decide +kernel⟩,
   ⟨lostT, by decide +kernel⟩⟩

theorem witness_CodesBringBackWhatTheyCarry :
    (∃ (l : Line) (w : _), w ∈ thinWords l ∧ zeroHigh w < 3) ∧
    (∃ (p : List (Nat × Byte)), (∀ j, j < 16 → sp p j = 0) ∧ (∀ j, j < 16 → sq p j = 0)) ∧
    (∃ (p : List (Nat × Byte)) (h : _) (j : _), (∀ j, j < 16 → sp p j = 0) ∧ h < 2 ∧ j < 16 ∧ sq p j ≠ 0 ∧ (∀ k, k < 16
      → k / 8 ≠ h → sq p k = 0)) ∧
    (∃ (p : List (Nat × Byte)) (h : _) (j : _), (∀ j, j < 16 → sp p j = 0) ∧ h < 2 ∧ j < 16 ∧ sq p j ≠ 0 ∧ (∀ k, k < 16
      → k / 8 ≠ h → sq p k = 0)) ∧
    (∃ (p : List (Nat × Byte)) (j : _) (k : _), (∀ j, j < 16 → sp p j = 0) ∧ j < 8 ∧ 8 ≤ k ∧ k < 16 ∧ sq p j ≠ 0 ∧ sq p
      k ≠ 0) ∧
    (∃ (p : List (Nat × Byte)) (h : _) (j : _), h < 2 ∧ j < 16 ∧ sp p j ≠ 0 ∧ (∀ k, k < 16 → k / 8 ≠ h → sp p k = 0) ∧
      (∀ k, k < 16 → sq p k = 0)) ∧
    (∃ (p : List (Nat × Byte)) (h : _) (j : _), h < 2 ∧ j < 16 ∧ sp p j ≠ 0 ∧ (∀ k, k < 16 → k / 8 ≠ h → sp p k = 0) ∧
      (∀ k, k < 16 → sq p k = 0)) ∧
    (∃ (p : List (Nat × Byte)) (h : _) (j : _) (r : _), h < 2 ∧ j < 16 ∧ sp p j ≠ 0 ∧ (∀ k, k < 16 → k / 8 ≠ h → sp p k
      = 0) ∧ r < 16 ∧ (∀ k, k < 16 → sq p k = gfMul (gfExp r) (sp p k))) ∧
    (∃ (p : List (Nat × Byte)) (h : _) (j : _) (r : _), h < 2 ∧ j < 16 ∧ sp p j ≠ 0 ∧ (∀ k, k < 16 → k / 8 ≠ h → sp p k
      = 0) ∧ r < 16 ∧ (∀ k, k < 16 → sq p k = gfMul (gfExp r) (sp p k))) ∧
    (∃ (p : List (Nat × Byte)) (h : _) (j : _), h < 2 ∧ j < 16 ∧ sp p j ≠ 0 ∧ (∀ k, k < 16 → k / 8 ≠ h → sp p k = 0) ∧
      (∃ k, k < 16 ∧ sq p k ≠ 0) ∧ (∀ r, r < 16 → ∃ k, k < 16 ∧ sq p k ≠ gfMul (gfExp r) (sp p k))) ∧
    (∃ (p : List (Nat × Byte)) (j : _) (k : _), j < 8 ∧ 8 ≤ k ∧ k < 16 ∧ sp p j ≠ 0 ∧ sp p k ≠ 0) ∧
    (∃ (p : List (Nat × Byte)) (j : _) (k : _), j < 8 ∧ 8 ≤ k ∧ k < 16 ∧ sp p j ≠ 0 ∧ sp p k ≠ 0) ∧
    (∃ (p : List (Nat × Byte)) (sym : _) (off : _), (∀ e ∈ p, e.1 / 8 = sym) ∧ errAt p off ≠ 0 ∧ sym < 32) ∧
    (∃ (p : List (Nat × Byte)) (sym : _) (off : _), (∀ e ∈ p, e.1 / 8 = sym) ∧ errAt p off ≠ 0 ∧ sym < 32) ∧
    (∃ (p : List (Nat × Byte)) (sym : _) (off : _), (∀ e ∈ p, e.1 / 8 = sym) ∧ errAt p off ≠ 0 ∧ (sym = 32 ∨ sym = 33)) ∧
    (∃ (p : List (Nat × Byte)) (sym : _) (off : _), (∀ e ∈ p, e.1 / 8 = sym) ∧ errAt p off ≠ 0 ∧ (sym = 32 ∨ sym = 33)) ∧
    (∃ (p : List (Nat × Byte)) (sym : _) (off : _), (∀ e ∈ p, e.1 / 8 = sym) ∧ errAt p off ≠ 0 ∧ (sym = 34 ∨ sym = 35)) ∧
    (∃ (p : List (Nat × Byte)) (sym : _) (off : _), (∀ e ∈ p, e.1 / 8 = sym) ∧ errAt p off ≠ 0 ∧ (sym = 34 ∨ sym = 35)) ∧
    (∃ (m : Msg), msgFits m = true) ∧
    (∃ (r : ExRec), r.wf = true) :=
  ⟨⟨mkLine [(0, 4, 0xFF), (4, 4, 0x100), (8, 4, 0x10000), (60, 4, 0x1000000)], 0x1000000, by decide +kernel⟩,
   ⟨[], by decide +kernel⟩,
   ⟨[(272, 5)], 0, 0, by decide +kernel⟩,
   ⟨[(0,3),(32,3),(272,5)], 0, 0, by decide +kernel⟩,
   ⟨[(272, 5), (287, 5)], 0, 15, by decide +kernel⟩,
   ⟨[(256, 1)], 0, 0, by decide +kernel⟩,
   ⟨[(264, 9), (271, 255)], 1, 15, by decide +kernel⟩,
   ⟨[(24, 1)], 1, 8, 1, by decide +kernel⟩,
   ⟨[(255,7)], 1, 15, 15, by decide +kernel⟩,
   ⟨[(24, 1), (40, 3)], 1, 8, by decide +kernel⟩,
   ⟨[(24, 1), (32, 3)], 0, 8, by decide +kernel⟩,
   ⟨[(0,3),(8,5)], 0, 8, by decide +kernel⟩,
   ⟨[(24, 1)], 3, 24, by decide +kernel⟩,
   ⟨[(255,7)], 31, 255, by decide +kernel⟩,
   ⟨[(256, 1)], 32, 256, by decide +kernel⟩,
   ⟨[(264, 9), (271, 255)], 33, 264, by decide +kernel⟩,
   ⟨[(272, 5)], 34, 272, by decide +kernel⟩,
   ⟨[(287, 5)], 35, 287, by decide +kernel⟩,
   ⟨.marker ⟨1, 2, 3, 4, 5, 0xABCDEF012345, 0xFFFFFFFF, 0x8000000000000005, 77⟩, by decide +kernel⟩,
   ⟨⟨true, 5, 6, 7, 8, 9, 10, 11, 12, [1, 2, 3]⟩, by decide +kernel⟩⟩

theorem witness_StepRunsTheFrontCommand :
    (∃ (s : State) (c : Instr) (rest : List Instr), s.pending = c :: rest) ∧
    (∃ s : State, s.pending = []) :=
  ⟨⟨{ up with pending := [.wake, .powerOn] }, .wake, [.powerOn], rfl⟩,
   ⟨up, rfl⟩⟩

theorem witness_EveryStepKeepsTheMemoryForm :
    ∃ s t : State, memorySafe s ∧ step s = .next t :=
  ⟨{ capS with pending := [.snoopWrite rec0] }, _, (by decide +kernel : capS.mem.wf = true), rfl⟩

end Sys2Proof.Tests
end

/-! SUPPORT. Numbers and their bytes, a line and its bytes, and what a line of memory reads after a write (R8, R86). -/

namespace Sys2Proof.Machine

/-! ### Bytes and lines (R8) -/

theorem toNat_ofNat_of_lt {w n : Nat} (h : n < 2 ^ w) : (BitVec.ofNat w n).toNat = n := by
  rw [BitVec.toNat_ofNat, Nat.mod_eq_of_lt h]

theorem leBytes_length (n v : Nat) : (leBytes n v).length = n := by
  induction n generalizing v with
  | zero => rfl
  | succ n ih => simp [leBytes, ih]

/-- The bytes of a number spell it again, up to the bytes that are kept (R8). -/
theorem leNat_leBytes (n v : Nat) : leNat (leBytes n v) = v % 256 ^ n := by
  induction n generalizing v with
  | zero => simp [leBytes, leNat, Nat.mod_one]
  | succ n ih => simp [leBytes, leNat, ih, pow_succ', Nat.mod_mul]

theorem leNat_leBytes_of_lt {n v : Nat} (h : v < 256 ^ n) : leNat (leBytes n v) = v := by
  rw [leNat_leBytes, Nat.mod_eq_of_lt h]

theorem leNat_lt (bs : List Byte) : leNat bs < 256 ^ bs.length := by
  induction bs with
  | nil => simp [leNat]
  | cons b t ih =>
    have hb := b.isLt
    simp only [leNat, List.length_cons, pow_succ']
    omega

/-- Byte `i` of the number that bytes spell is the `i`th of them (R8). -/
theorem byte_leNat (bs : List Byte) (i : Nat) : BitVec.ofNat 8 (leNat bs / 256 ^ i) = bs.getD i 0 := by
  induction bs generalizing i with
  | nil => simp [leNat]
  | cons b t ih =>
    cases i with
    | zero =>
      apply BitVec.eq_of_toNat_eq
      have hb := b.isLt
      simp [leNat]
      omega
    | succ i =>
      have hb := b.isLt
      have shift : leNat (b :: t) / 256 ^ (i + 1) = leNat t / 256 ^ i := by
        rw [pow_succ', ← Nat.div_div_eq_div_mul, leNat]
        congr 1
        omega
      rw [shift, ih, List.getD_cons_succ]

theorem leBytes_getD {n i : Nat} (v : Nat) (h : i < n) : (leBytes n v).getD i 0 = BitVec.ofNat 8 (v / 256 ^ i) := by
  induction n generalizing v i with
  | zero => omega
  | succ n ih =>
    cases i with
    | zero => simp [leBytes]
    | succ i =>
      rw [leBytes, List.getD_cons_succ, ih _ (by omega), Nat.div_div_eq_div_mul, pow_succ']

theorem lineByte_eq (l : Line) (i : Nat) : lineByte l i = BitVec.ofNat 8 (l.toNat / 256 ^ i) := by
  apply BitVec.eq_of_toNat_eq
  rw [lineByte, BitVec.extractLsb'_toNat, BitVec.toNat_ofNat, Nat.shiftRight_eq_div_pow, pow_mul]
  norm_num

/-- A line of 64 bytes has those bytes (R8). -/
theorem lineByte_lineOf {bs : List Byte} (h : bs.length = 64) (i : Nat) : lineByte (lineOf bs) i = bs.getD i 0 := by
  have small : leNat bs < 2 ^ 512 := by
    rw [show 512 = 8 * bs.length by rw [h], pow_mul]
    exact leNat_lt bs
  rw [lineByte_eq, lineOf, List.take_of_length_le h.le, toNat_ofNat_of_lt small, byte_leNat]

/-- Lines whose 64 bytes agree are equal. -/
theorem line_ext {a b : Line} (h : ∀ i < 64, lineByte a i = lineByte b i) : a = b := by
  apply BitVec.eq_of_getLsbD_eq
  intro k hk
  have hbyte := congrArg (fun x : Byte => x.getLsbD (k % 8)) (h (k / 8) (by omega))
  simpa [lineByte, Nat.mod_lt, Nat.div_add_mod] using hbyte

theorem lineBytes_getD (l : Line) {i : Nat} (h : i < 64) : (lineBytes l).getD i 0 = lineByte l i := by
  rw [lineBytes, leBytes_getD _ h, lineByte_eq]

/-- The bytes of a line of memory are the bytes at its address. -/
theorem lineByte_memLine (m : Mem) (a : Nat) {i : Nat} (h : i < 64) : lineByte (m.line a) i = m.byte (a + i) := by
  rw [Mem.line, lineByte_lineOf (by simp [Mem.bytes])]
  simp [Mem.bytes, List.getD_eq_getElem?_getD, h]

theorem Mem.byte_writeLine_same (m : Mem) (a : Nat) (l : Line) {i : Nat} (h : i < 64) :
    (m.writeLine a l).byte (a + i) = lineByte l i := by
  rw [Mem.writeLine, Mem.byte_write_same _ _ _ _ (by simpa [lineBytes_length] using h), lineBytes_getD l h]

theorem Mem.byte_writeLine_other (m : Mem) (a : Nat) (l : Line) {x : Nat} (h : outsideLine a x) :
    (m.writeLine a l).byte x = m.byte x :=
  Mem.byte_write_other _ _ _ _ (by simpa [lineBytes_length] using h)

/-- A line reads back as it was written. -/
theorem Mem.line_writeLine (m : Mem) (a : Nat) (l : Line) : (m.writeLine a l).line a = l :=
  line_ext fun _ h => by rw [lineByte_memLine _ _ h, Mem.byte_writeLine_same _ _ _ h]

/-- Writing a line with the value it has changes no byte. -/
theorem Mem.byte_writeLine_line (m : Mem) (a x : Nat) : (m.writeLine a (m.line a)).byte x = m.byte x := by
  by_cases h : outsideLine a x
  · exact Mem.byte_writeLine_other m a _ h
  · obtain ⟨i, rfl⟩ := Nat.exists_eq_add_of_le (show a ≤ x by simp only [outsideLine] at h; omega)
    have hi : i < 64 := by simp only [outsideLine] at h; omega
    rw [Mem.byte_writeLine_same m a _ hi, lineByte_memLine m a hi]

/-! ### The writes an old-line read serves (R81, R82, R85, R86) -/

theorem lineByte_mergeLine (be : U64) (old new : Line) {i : Nat} (h : i < 64) :
    lineByte (mergeLine be old new) i = if be.getLsbD i then lineByte new i else lineByte old i := by
  rw [mergeLine, lineByte_lineOf (by simp)]
  simp [List.getD_eq_getElem?_getD, h]

/-- Each byte of a merged line is the last one written over it (R86). -/
theorem lineByte_mergeHeld (old : Line) (hs : List Held) {i : Nat} (h : i < 64) :
    lineByte (mergeHeld old hs) i = lastWritten i (lineByte old i) hs := by
  induction hs generalizing old with
  | nil => rfl
  | cons g t ih =>
    rw [mergeHeld, List.foldl_cons, ← mergeHeld, ih, lineByte_mergeLine _ _ _ h, lastWritten]

theorem narrow_iff (h : Held) : narrow h = true ↔ h.kind = .atomic ∨ h.acc.be ≠ BitVec.allOnes 64 := by
  simp [narrow]

theorem any_narrow_iff (hs : List Held) :
    hs.any narrow = true ↔ ∃ h ∈ hs, h.kind = .atomic ∨ h.acc.be ≠ BitVec.allOnes 64 := by
  simp only [List.any_eq_true, narrow_iff]

end Sys2Proof.Machine

/-! PROOFS. The return of an old-line read (R81 to R86, R280). -/

namespace Sys2Proof.Machine

/-! ### What completing a write changes (R47, R81 to R85, R178) -/

theorem retryHeld_of_noneHeld {s : State} (h : s.cap.held = []) : retryHeld s = s := by
  rw [retryHeld, h, List.foldl_nil, ← h]

theorem mergePending_of_noTags {s : State} (h : ∀ c ∈ s.cap.queue, c.tags = []) (a : Nat) : mergePending s a = false := by
  rw [mergePending, List.any_eq_false]
  intro c hc
  simp [h c hc]

theorem noteCaptured_of_noApply (s : State) {ms : List Master} (h : ∀ m ∈ ms, m ≠ .apply) : noteCaptured s ms = s := by
  have : ms.any (fun m => decide (m = .apply)) = false := by simpa [List.any_eq_false] using h
  simp [noteCaptured, this]

/-- Verdicts given one after another stand in their order. -/
theorem foldl_verdict (s : State) (tags : List (BitVec 9)) (v : Verdict) :
    tags.foldl (fun t g => verdict t g v) s =
      { s with cap.verdicts := s.cap.verdicts ++ tags.map fun g => (g, v) } := by
  induction tags generalizing s with
  | nil => simp
  | cons g gs ih =>
    rw [List.foldl_cons, ih]
    simp [verdict]

theorem markRace_frame (s : State) (a : Nat) (ms : List Master) :
    markRace s a ms = { s with apply.issued := (markRace s a ms).apply.issued } := by
  unfold markRace
  split <;> rfl

/-- A line written by another master than the apply unit and the exchange unit: memory takes it, its copies fall, and
the apply unit's own reads of it may be marked; nothing else changes (R47, R178). -/
theorem commitLine_frame (s : State) (a : Nat) (new : Line) {ms : List Master} (h : ms.all writesThrough = false) :
    commitLine s a new ms = { s with
      mem := s.mem.writeLine a new
      tier := { s.tier with
        staged := (commitLine s a new ms).tier.staged, rows := (commitLine s a new ms).tier.rows }
      apply.issued := (commitLine s a new ms).apply.issued } := by
  have unfolded : commitLine s a new ms =
      { dropCopies (markRace s a ms) a with mem := (markRace s a ms).mem.writeLine a new } := by
    simp [commitLine, h]
  rw [unfolded, markRace_frame]
  rfl

/-! ### The old-line read's return (R81 to R86, R280) -/

/-- Writes of other masters than the apply unit and the exchange unit do not follow into the STAGE window's copies
(R47). -/
theorem not_all_writesThrough {hs : List Held} (hne : hs ≠ [])
    (hm : ∀ h ∈ hs, h.acc.master ≠ .apply ∧ h.acc.master ≠ .exchange) :
    (hs.map fun h => h.acc.master).all writesThrough = false := by
  obtain ⟨h, t, rfl⟩ := List.exists_cons_of_ne_nil hne
  obtain ⟨hApply, hExchange⟩ := hm h (by simp)
  have : writesThrough h.acc.master = false := by
    unfold writesThrough
    split
    · contradiction
    · contradiction
    · rfl
  simp [this]

section
variable {s : State} {a : Nat} {old new : Line} {hs : List Held} {b l : Nat}

/-- A zero delta is counted, and its writes end at once (R82). -/
theorem takeLine_zeroDelta (hm : ∀ h ∈ hs, h.acc.master ≠ .apply) :
    takeLine s a old old hs = commitLine { s with
      cap.verdicts := s.cap.verdicts ++ hs.map fun h => (h.acc.tag, if hs.any narrow then .absorb else .pass)
      cnt := s.cnt.set 1 (s.cnt.get 1 + 1) } a old (hs.map fun h => h.acc.master) := by
  have hn := noteCaptured_of_noApply s (ms := hs.map fun h => h.acc.master) (by simpa using hm)
  simp only [takeLine, hn, if_true, foldl_verdict, List.map_map, Function.comp_def]
  rfl

/-- A merged line waits in the capture queue until its delta has been handed on (R83, R85, R280). -/
theorem takeLine_merged (hm : ∀ h ∈ hs, h.acc.master ≠ .apply) (hd : old ≠ new) (hb : bayLine s a = some (b, l))
    (hw : hs.any narrow = true) :
    takeLine s a old new hs = { s with
      cap.queue := s.cap.queue ++
        [⟨b, l, old, new, hs.map fun h => h.acc.tag, hs.map fun h => h.acc.master⟩]
      cnt := s.cnt.set 0 (s.cnt.get 0 + 1) } := by
  have hn := noteCaptured_of_noApply s (ms := hs.map fun h => h.acc.master) (by simpa using hm)
  simp only [takeLine, hn, hd, if_false, hb, hw, if_true]
  rfl

/-- Whole writes pass, their line enters the capture queue and memory takes it (R81, R83). -/
theorem takeLine_whole (hm : ∀ h ∈ hs, h.acc.master ≠ .apply) (hd : old ≠ new) (hb : bayLine s a = some (b, l))
    (hw : hs.any narrow = false) :
    takeLine s a old new hs = commitLine { s with
      cap := { s.cap with
        queue := s.cap.queue ++ [⟨b, l, old, new, [], hs.map fun h => h.acc.master⟩]
        verdicts := s.cap.verdicts ++ hs.map fun h => (h.acc.tag, .pass) }
      cnt := s.cnt.set 0 (s.cnt.get 0 + 1) } a new (hs.map fun h => h.acc.master) := by
  have hn := noteCaptured_of_noApply s (ms := hs.map fun h => h.acc.master) (by simpa using hm)
  simp only [takeLine, hn, hd, if_false, hb, hw, Bool.false_eq_true, foldl_verdict, List.map_map, Function.comp_def]
  rfl

end

/-- The read that serves a line's writes returns: with room in the capture queue and no merged line waiting, the line is
taken, and the held accesses are tried again. -/
theorem exec_oldLineReadReturn_served {s : State} {line : U64} {o : OldRead} (ho : o ∈ s.cap.oldReads)
    (ha : o.addr = line.toNat) (hu : ∀ q ∈ s.cap.oldReads, q.addr = line.toNat → q = o) (hq : s.cap.queue.length < 256)
    (ht : ∀ c ∈ s.cap.queue, c.tags = []) :
    exec (.oldLineReadReturn line) s = .next (retryHeld (takeLine { s with cap.oldReads := s.cap.oldReads.erase o } o.addr
      (s.mem.line o.addr) (mergeHeld (s.mem.line o.addr) o.recs) o.recs)) := by
  have found : (s.cap.oldReads.find? fun q => q.addr = line.toNat) = some o := by
    cases hf : s.cap.oldReads.find? fun q => q.addr = line.toNat with
    | none => exact absurd ha (by simpa using List.find?_eq_none.1 hf o ho)
    | some q => rw [hu q (List.mem_of_find?_eq_some hf) (by simpa using List.find?_some hf)]
  show execOldLineReadReturn line s = _
  simp only [execOldLineReadReturn, found, mergePending_of_noTags ht, Nat.not_le.2 hq, Bool.false_eq_true,
    or_self, if_false]

/-- Settles O18: the read's writes merge byte by byte, and the line is taken in one of three ways: its delta is zero, or a
merged line waits, or whole writes pass. -/
theorem oldLineReadCompletesTheWrites : Obligations.OldLineReadCompletesTheWrites := by
  intro s line o b l ho ha hu hq hheld ht hne hm hb
  have hApply : ∀ h ∈ o.recs, h.acc.master ≠ .apply := fun h hh => (hm h hh).1
  have hThrough := not_all_writesThrough hne hm
  have hExec := exec_oldLineReadReturn_served ho ha hu hq ht
  have hBytes : ∀ i : Nat, i < 64 → lineByte (mergeHeld (s.mem.line o.addr) o.recs) i =
      lastWritten i (s.mem.byte (o.addr + i)) o.recs := fun i hi => by
    rw [lineByte_mergeHeld _ _ hi, lineByte_memLine _ _ hi]
  generalize mergeHeld (s.mem.line o.addr) o.recs = new at hExec hBytes
  have hb' : bayLine { s with cap.oldReads := s.cap.oldReads.erase o } o.addr = some (b, l) := hb
  by_cases hd : s.mem.line o.addr = new
  · subst hd
    rw [takeLine_zeroDelta hApply, commitLine_frame _ _ _ hThrough, retryHeld_of_noneHeld (by simpa using hheld)] at hExec
    refine ⟨_, hExec, _, hBytes, rfl, fun _ => ⟨rfl, rfl, fun x => ?_, ?_⟩, fun h => absurd rfl h⟩
    · exact Mem.byte_writeLine_line _ _ _
    · simp only [any_narrow_iff]
  · cases hw : o.recs.any narrow with
    | true =>
      rw [takeLine_merged hApply hd hb' hw, retryHeld_of_noneHeld (by simpa using hheld)] at hExec
      refine ⟨_, hExec, _, hBytes, rfl, fun h => absurd h.symm hd,
        fun _ => ⟨rfl, fun h => ?_, fun _ => ⟨rfl, rfl, rfl⟩⟩⟩
      obtain ⟨g, hg, hnarrow⟩ := (any_narrow_iff _).1 hw
      exact absurd hnarrow (by simpa using h g hg)
    | false =>
      rw [takeLine_whole hApply hd hb' hw, commitLine_frame _ _ _ hThrough,
        retryHeld_of_noneHeld (by simpa using hheld)] at hExec
      refine ⟨_, hExec, _, hBytes, rfl, fun h => absurd h.symm hd,
        fun _ => ⟨rfl, fun _ => ⟨rfl, rfl, ?_, fun x hx => ?_⟩, fun h => ?_⟩⟩
      · exact Mem.line_writeLine _ _ _
      · exact Mem.byte_writeLine_other _ _ _ hx
      · exact absurd ((any_narrow_iff _).2 h) (by simp [hw])

end Sys2Proof.Machine

/-! PROOFS. The thinned line: its mask, its packed counts, its length, and its expansion (R90, R91). -/

namespace Sys2Proof.Machine

/-! ### The thinned line (R90, R91) -/

/-- The bytes a nonzero word keeps in the thinned line (R90). -/
def keptBytes (w : U32) : List Byte := leBytes (4 - zeroHigh w) w.toNat

/-- The nonzero ones of the `n` words of a line from word `i` on, ascending. -/
def nonzeroWords (l : Line) (i n : Nat) : List U32 := ((List.range' i n).map (lineWord l)).filter fun w => w ≠ 0

theorem thinWords_eq (l : Line) : thinWords l = nonzeroWords l 0 16 := by
  rw [thinWords, nonzeroWords, List.range_eq_range']

theorem nonzeroWords_succ (l : Line) (i n : Nat) :
    nonzeroWords l i (n + 1) =
      if lineWord l i ≠ 0 then lineWord l i :: nonzeroWords l (i + 1) n else nonzeroWords l (i + 1) n := by
  simp [nonzeroWords, List.range'_succ, List.filter_cons]

theorem thin_eq (l : Line) : thin l = leBytes 2 (thinMask l) ++
    leBytes (((thinWords l).length + 3) / 4) (packCounts ((thinWords l).map zeroHigh)) ++
      (thinWords l).flatMap keptBytes := rfl

theorem zeroHigh_lt (w : U32) : zeroHigh w < 4 := by
  unfold zeroHigh
  split_ifs <;> omega

/-- The kept bytes hold the whole word. -/
theorem toNat_lt_of_zeroHigh (w : U32) : w.toNat < 2 ^ (8 * (4 - zeroHigh w)) := by
  have hw := w.isLt
  unfold zeroHigh
  split_ifs <;> omega

/-- The highest kept byte of a word of which more than one is kept is not zero. -/
theorem le_toNat_of_zeroHigh (w : U32) (h : zeroHigh w < 3) : 2 ^ (8 * (3 - zeroHigh w)) ≤ w.toNat := by
  unfold zeroHigh at h ⊢
  split_ifs at h ⊢ <;> omega

theorem leNat_keptBytes (w : U32) : leNat (keptBytes w) = w.toNat := by
  have h := toNat_lt_of_zeroHigh w
  rw [pow_mul] at h
  exact leNat_leBytes_of_lt h

theorem length_keptBytes (w : U32) : (keptBytes w).length = 4 - zeroHigh w := leBytes_length _ _

theorem ne_zero_of_mem_thinWords {l : Line} {w : U32} (h : w ∈ thinWords l) : w ≠ 0 := by
  simpa using (List.mem_filter.1 h).2

/-! #### The packed counts -/

theorem packCounts_lt (cs : List Nat) (h : ∀ c ∈ cs, c < 4) : packCounts cs < 4 ^ cs.length := by
  induction cs with
  | nil => simp [packCounts]
  | cons c t ih =>
    obtain ⟨hc, ht⟩ := List.forall_mem_cons.1 h
    have := ih ht
    simp only [packCounts, List.length_cons, pow_succ']
    omega

/-- Count `i` of the packed counts is the `i`th that was packed. -/
theorem packCounts_getElem (cs : List Nat) (h : ∀ c ∈ cs, c < 4) (i : Nat) (hi : i < cs.length) :
    packCounts cs / 4 ^ i % 4 = cs[i] := by
  induction cs generalizing i with
  | nil => simp at hi
  | cons c t ih =>
    obtain ⟨hc, ht⟩ := List.forall_mem_cons.1 h
    cases i with
    | zero =>
      simp only [packCounts, pow_zero, Nat.div_one, List.getElem_cons_zero]
      omega
    | succ i =>
      have shift : (c + 4 * packCounts t) / 4 = packCounts t := by omega
      rw [packCounts, pow_succ', ← Nat.div_div_eq_div_mul, shift, ih ht i (by simpa using hi), List.getElem_cons_succ]

/-- The bytes given to the packed counts hold all of them. -/
theorem packCounts_lt_bytes (ws : List U32) : packCounts (ws.map zeroHigh) < 256 ^ ((ws.length + 3) / 4) := by
  have h := packCounts_lt (ws.map zeroHigh) (by simpa using fun w _ => zeroHigh_lt w)
  calc packCounts (ws.map zeroHigh) < 4 ^ ws.length := by simpa using h
    _ ≤ 4 ^ (4 * ((ws.length + 3) / 4)) := Nat.pow_le_pow_right (by decide) (by omega)
    _ = 256 ^ ((ws.length + 3) / 4) := by rw [pow_mul]; norm_num

/-! #### The word mask -/

/-- The mask of the words of `p`, as the model builds it up: below 2^n, with the bits of `p`. -/
theorem foldl_maskBits (p : Nat → Prop) [DecidablePred p] (n : Nat) :
    ((List.range n).foldl (fun m i => if p i then m + 2 ^ i else m) 0) < 2 ^ n ∧
      ∀ j < n, ((List.range n).foldl (fun m i => if p i then m + 2 ^ i else m) 0).testBit j = decide (p j) := by
  induction n with
  | zero => simp
  | succ n ih =>
    obtain ⟨hlt, hbit⟩ := ih
    rw [List.range_succ, List.foldl_append, List.foldl_cons, List.foldl_nil]
    generalize (List.range n).foldl (fun m i => if p i then m + 2 ^ i else m) 0 = m at hlt hbit ⊢
    refine ⟨?_, fun j hj => ?_⟩
    · rw [pow_succ]
      split_ifs <;> omega
    · rcases Nat.lt_succ_iff_lt_or_eq.1 hj with hj | rfl
      · split_ifs
        · rw [add_comm, Nat.testBit_two_pow_add_gt hj, hbit j hj]
        · exact hbit j hj
      · split_ifs with hp
        · simp [add_comm m, Nat.testBit_two_pow_add_eq, Nat.testBit_lt_two_pow hlt, hp]
        · simp [Nat.testBit_lt_two_pow hlt, hp]

theorem thinMask_lt (l : Line) : thinMask l < 256 ^ 2 := (foldl_maskBits (fun i => lineWord l i ≠ 0) 16).1

/-- The mask names exactly the nonzero words. -/
theorem thinMask_testBit (l : Line) {i : Nat} (h : i < 16) : (thinMask l).testBit i = decide (lineWord l i ≠ 0) :=
  (foldl_maskBits (fun i => lineWord l i ≠ 0) 16).2 i h

theorem maskCount_thinMask (l : Line) : maskCount (thinMask l) = (thinWords l).length := by
  have sameBits : (List.range 16).filter (fun i => (thinMask l).testBit i) =
      (List.range 16).filter fun i => decide (lineWord l i ≠ 0) :=
    List.filter_congr fun i hi => thinMask_testBit l (List.mem_range.1 hi)
  rw [maskCount, sameBits, thinWords, List.filter_map, List.length_map]
  rfl

/-! #### What stands at the head of a list that begins with a thinned line -/

section
variable (l : Line) (rest : List Byte)

theorem thin_mask : leNat ((thin l ++ rest).take 2) = thinMask l := by
  rw [thin_eq, List.append_assoc, List.append_assoc, List.take_left' (leBytes_length _ _),
    leNat_leBytes_of_lt (thinMask_lt l)]

theorem thin_drop_mask : (thin l ++ rest).drop 2 =
    leBytes (((thinWords l).length + 3) / 4) (packCounts ((thinWords l).map zeroHigh)) ++
      ((thinWords l).flatMap keptBytes ++ rest) := by
  rw [thin_eq, List.append_assoc, List.append_assoc, List.drop_left' (leBytes_length _ _)]

theorem thin_counts : leNat (((thin l ++ rest).drop 2).take ((maskCount (thinMask l) + 3) / 4)) =
    packCounts ((thinWords l).map zeroHigh) := by
  rw [thin_drop_mask, maskCount_thinMask, List.take_left' (leBytes_length _ _),
    leNat_leBytes_of_lt (packCounts_lt_bytes _)]

theorem thin_words : (thin l ++ rest).drop (2 + (maskCount (thinMask l) + 3) / 4) =
    (thinWords l).flatMap keptBytes ++ rest := by
  rw [← List.drop_drop, thin_drop_mask, maskCount_thinMask, List.drop_left' (leBytes_length _ _)]

end

/-- The length of a thinned line follows from its mask and counts (R90). -/
theorem length_thin (l : Line) :
    (thin l).length = 2 + ((thinWords l).length + 3) / 4 + ((thinWords l).map fun w => 4 - zeroHigh w).sum := by
  simp [thin_eq, leBytes_length, List.length_flatMap, length_keptBytes, Nat.add_assoc]

/-- A thinned line at the head of a list tells its own length (R90). -/
theorem thinLength_thin (l : Line) (rest : List Byte) : thinLength (thin l ++ rest) = (thin l).length := by
  have counts : (List.range (thinWords l).length).map
      (fun i => 4 - packCounts ((thinWords l).map zeroHigh) / 4 ^ i % 4) = (thinWords l).map fun w => 4 - zeroHigh w := by
    refine List.ext_getElem (by simp) fun i hi _ => ?_
    have hi' : i < ((thinWords l).map zeroHigh).length := by simpa using hi
    rw [List.getElem_map, List.getElem_range, packCounts_getElem _ (by simpa using fun w _ => zeroHigh_lt w) i hi']
    simp
  rw [thinLength, thin_mask, thin_counts, maskCount_thinMask, counts, length_thin]

/-! #### Expansion -/

/-- The `n + 1` words of a line from word `i` on: word `i`, and the others above it. -/
theorem words_succ (l : Line) (i n : Nat) : l.toNat / 2 ^ (32 * i) % 2 ^ (32 * (n + 1)) =
    (lineWord l i).toNat + 2 ^ 32 * (l.toNat / 2 ^ (32 * (i + 1)) % 2 ^ (32 * n)) := by
  rw [Nat.mul_add 32 n 1, Nat.add_comm (32 * n), pow_add, Nat.mod_mul, Nat.div_div_eq_div_mul, ← pow_add, lineWord,
    BitVec.extractLsb'_toNat, Nat.shiftRight_eq_div_pow]
  rfl

/-- The kept bytes of a line's words give the words back, and nothing beyond them is used (R91). -/
theorem expandGo_keptBytes (l : Line) (mask : Nat) (rest : List Byte) (n i : Nat)
    (hmask : ∀ j, i ≤ j → j < i + n → mask.testBit j = decide (lineWord l j ≠ 0)) :
    expandGo n i mask (packCounts ((nonzeroWords l i n).map zeroHigh)) ((nonzeroWords l i n).flatMap keptBytes ++ rest) =
      (l.toNat / 2 ^ (32 * i) % 2 ^ (32 * n), rest) := by
  induction n generalizing i with
  | zero => simp [expandGo, nonzeroWords, Nat.mod_one]
  | succ n ih =>
    have later := ih (i + 1) fun j hj hn => hmask j (by omega) (by omega)
    rw [expandGo, hmask i le_rfl (by omega), nonzeroWords_succ, words_succ]
    by_cases hw : lineWord l i = 0
    · simp [hw, later]
    · have hz := zeroHigh_lt (lineWord l i)
      have count : packCounts (zeroHigh (lineWord l i) :: (nonzeroWords l (i + 1) n).map zeroHigh) % 4 =
          zeroHigh (lineWord l i) := by rw [packCounts]; omega
      have counts : packCounts (zeroHigh (lineWord l i) :: (nonzeroWords l (i + 1) n).map zeroHigh) / 4 =
          packCounts ((nonzeroWords l (i + 1) n).map zeroHigh) := by rw [packCounts]; omega
      simp only [hw, ne_eq, not_false_eq_true, decide_true, if_true, List.map_cons, List.flatMap_cons, List.append_assoc,
        count, counts, List.take_left' (length_keptBytes _), List.drop_left' (length_keptBytes _), leNat_keptBytes, later]

/-- Expansion reverses thinning (R91). -/
theorem expand_thin (l : Line) : expand (thin l) = l := by
  have mask := thin_mask l []
  have counts := thin_counts l []
  have words := thin_words l []
  have go := expandGo_keptBytes l (thinMask l) [] 16 0 fun j _ hj => thinMask_testBit l (by omega)
  rw [List.append_nil] at mask counts words
  rw [← thinWords_eq] at go
  simp only [expand, mask, counts, words, go]
  rw [Nat.mul_zero, pow_zero, Nat.div_one, Nat.mod_eq_of_lt l.isLt, BitVec.ofNat_toNat, BitVec.setWidth_eq]

end Sys2Proof.Machine

/-! PROOFS. The lattice code: powers of 0x02 in GF(2^8), the table of R359, and the errors of one symbol (R61, R358, R359). -/

namespace Sys2Proof.Machine

/-! ### Powers of 0x02 in GF(2^8) (R61, R358) -/

/-- Doubling is a shift, and the reduction that the top bit asks for. -/
theorem gfDouble_eq (a : Byte) : gfDouble a = (a <<< 1) ^^^ (if a.getLsbD 7 then 0x1D#8 else 0#8) := by
  unfold gfDouble
  split
  · rfl
  · exact BitVec.xor_zero.symm

/-- Doubling is linear. -/
theorem gfDouble_xor (x y : Byte) : gfDouble (x ^^^ y) = gfDouble x ^^^ gfDouble y := by
  have reduction : ∀ a b : Bool, (if a ^^ b then 0x1D#8 else 0#8) =
      (if a then 0x1D#8 else 0#8) ^^^ (if b then 0x1D#8 else 0#8) := by decide
  rw [gfDouble_eq, gfDouble_eq, gfDouble_eq, BitVec.shiftLeft_xor_distrib, BitVec.getLsbD_xor, reduction]
  ac_rfl

theorem gfMulGo_gfDouble (n : Nat) (a b acc : Byte) :
    gfMulGo n (gfDouble a) b (gfDouble acc) = gfDouble (gfMulGo n a b acc) := by
  induction n generalizing a b acc with
  | zero => rfl
  | succ n ih =>
    rw [gfMulGo, gfMulGo, ← ih]
    split_ifs
    · rw [gfDouble_xor]
    · rfl

theorem gfMul_gfDouble (a b : Byte) : gfMul (gfDouble a) b = gfDouble (gfMul a b) := gfMulGo_gfDouble 8 a b 0

theorem gfMul_one_left : ∀ x : Byte, gfMul 1 x = x := by decide +kernel

/-- A product with a power of 0x02 is a repeated doubling. -/
theorem gfMul_gfExp (r : Nat) (x : Byte) : gfMul (gfExp r) x = gfDouble^[r] x := by
  induction r with
  | zero => exact gfMul_one_left x
  | succ r ih => rw [gfExp, gfMul_gfDouble, ih, Function.iterate_succ_apply']

theorem gfMul_zero (r : Nat) : gfMul (gfExp r) 0 = 0 := by
  rw [gfMul_gfExp]
  exact Function.iterate_fixed rfl r

theorem gfDouble_injective : Function.Injective gfDouble := by
  intro x y h
  have kernel : ∀ z : Byte, gfDouble z = 0 → z = 0 := by decide +kernel
  have : gfDouble (x ^^^ y) = 0 := by
    rw [gfDouble_xor, h]
    exact BitVec.xor_self
  exact BitVec.xor_eq_zero_iff.1 (kernel _ this)

theorem gfMul_gfExp_injective (r : Nat) : Function.Injective (gfMul (gfExp r)) := by
  rw [show gfMul (gfExp r) = gfDouble^[r] from funext (gfMul_gfExp r)]
  exact gfDouble_injective.iterate r

/-- Fewer than 16 doublings bring no nonzero byte back. -/
theorem gfDouble_iterate_ne {k : Nat} (hk : k < 16) (h0 : k ≠ 0) {x : Byte} (hx : x ≠ 0) : gfDouble^[k] x ≠ x := by
  have orbit : ∀ x : Byte, x ≠ 0 → x ∉ List.iterate gfDouble (gfDouble x) 15 := by decide +kernel
  obtain ⟨m, rfl⟩ := Nat.exists_eq_succ_of_ne_zero h0
  exact fun h => orbit x hx (List.mem_iterate.2 ⟨m, by omega, h.symm⟩)

/-- The 16 coefficients of Q take a nonzero byte to 16 bytes (R358). -/
theorem gfExp_unique {r q : Nat} (hr : r < 16) (hq : q < 16) {x : Byte} (hx : x ≠ 0)
    (h : gfMul (gfExp r) x = gfMul (gfExp q) x) : r = q := by
  wlog hle : r ≤ q generalizing r q
  · exact (this hq hr h.symm (by omega)).symm
  by_contra hne
  obtain ⟨k, rfl⟩ := Nat.exists_eq_add_of_le hle
  rw [gfMul_gfExp, gfMul_gfExp, Function.iterate_add_apply] at h
  exact gfDouble_iterate_ne (by omega) (by omega) hx (gfDouble_injective.iterate r h).symm

/-! ### The syndromes of a lattice tile (R358, R359) -/

/-- The 16 bytes of a syndrome. -/
def syndrome (f : Nat → Byte) : List Byte := (List.range 16).map f

theorem judgeTile_eq (p : List (Nat × Byte)) : judgeTile p = judge (syndrome (sp p)) (syndrome (sq p)) := rfl

theorem all_zero_syndrome (f : Nat → Byte) :
    ((syndrome f).all fun x => x = 0) = true ↔ ∀ j, j < 16 → f j = 0 := by
  simp [syndrome]

theorem all_zero_drop_syndrome (f : Nat → Byte) :
    (((syndrome f).drop 8).all fun x => x = 0) = true ↔ ∀ k, 8 ≤ k → k < 16 → f k = 0 := by
  rw [show (syndrome f).drop 8 = (List.range' 8 8).map f from rfl]
  simp only [List.all_map, List.all_eq_true, List.mem_range'_1, Function.comp, decide_eq_true_eq]
  exact ⟨fun h k h8 h16 => h k ⟨h8, h16⟩, fun h k hk => h k hk.1 hk.2⟩

theorem all_zero_take_syndrome (f : Nat → Byte) :
    (((syndrome f).take 8).all fun x => x = 0) = true ↔ ∀ k, k < 8 → f k = 0 := by
  rw [show (syndrome f).take 8 = (List.range 8).map f from rfl]
  simp

/-- A nonzero syndrome whose nonzero bytes lie in one half. -/
theorem halfOf_one {f : Nat → Byte} {h j : Nat} (hh : h < 2) (hj : j < 16) (hne : f j ≠ 0)
    (hz : ∀ k, k < 16 → k / 8 ≠ h → f k = 0) : halfOf (syndrome f) = some h := by
  have hjh : j / 8 = h := by_contra fun w => hne (hz j hj w)
  unfold halfOf
  obtain rfl | rfl : h = 0 ∨ h = 1 := by omega
  · rw [if_pos ((all_zero_drop_syndrome f).2 fun k h8 h16 => hz k h16 (by omega))]
  · rw [if_neg fun w => hne ((all_zero_drop_syndrome f).1 w j (by omega) hj),
      if_pos ((all_zero_take_syndrome f).2 fun k h8 => hz k (by omega) (by omega))]

/-- A syndrome with nonzero bytes in both halves. -/
theorem halfOf_both {f : Nat → Byte} {j k : Nat} (hj : j < 8) (h8 : 8 ≤ k) (hk : k < 16) (hfj : f j ≠ 0)
    (hfk : f k ≠ 0) : halfOf (syndrome f) = none := by
  unfold halfOf
  rw [if_neg fun w => hfk ((all_zero_drop_syndrome f).1 w k h8 hk),
    if_neg fun w => hfj ((all_zero_take_syndrome f).1 w j hj)]

/-! #### The table of R359 -/

section
variable {f g : Nat → Byte}

theorem judge_zeroP (hf : ∀ j, j < 16 → f j = 0) : judge (syndrome f) (syndrome g) =
    if (syndrome g).all fun x => x = 0 then .clean
    else (halfOf (syndrome g)).elim .uncorrectable fun _ => .parityQ := by
  simp only [judge, (all_zero_syndrome f).2 hf, if_true]
  cases halfOf (syndrome g) <;> rfl

theorem judge_clean (hf : ∀ j, j < 16 → f j = 0) (hg : ∀ j, j < 16 → g j = 0) :
    judge (syndrome f) (syndrome g) = .clean := by
  rw [judge_zeroP hf, if_pos ((all_zero_syndrome g).2 hg)]

theorem judge_parityQ (hf : ∀ j, j < 16 → f j = 0) {h j : Nat} (hh : h < 2) (hj : j < 16) (hne : g j ≠ 0)
    (hz : ∀ k, k < 16 → k / 8 ≠ h → g k = 0) : judge (syndrome f) (syndrome g) = .parityQ := by
  rw [judge_zeroP hf, if_neg fun w => hne ((all_zero_syndrome g).1 w j hj), halfOf_one hh hj hne hz, Option.elim_some]

theorem judge_bothHalvesQ (hf : ∀ j, j < 16 → f j = 0) {j k : Nat} (hj : j < 8) (h8 : 8 ≤ k) (hk : k < 16)
    (hgj : g j ≠ 0) (hgk : g k ≠ 0) : judge (syndrome f) (syndrome g) = .uncorrectable := by
  rw [judge_zeroP hf, if_neg fun w => hgj ((all_zero_syndrome g).1 w j (by omega)), halfOf_both hj h8 hk hgj hgk,
    Option.elim_none]

theorem judge_bothHalvesP {j k : Nat} (hj : j < 8) (h8 : 8 ≤ k) (hk : k < 16) (hfj : f j ≠ 0) (hfk : f k ≠ 0) :
    judge (syndrome f) (syndrome g) = .uncorrectable := by
  simp only [judge]
  rw [if_neg fun w => hfj ((all_zero_syndrome f).1 w j (by omega)), halfOf_both hj h8 hk hfj hfk]

/-- The coefficient of Q that takes P's syndrome to Q's, if one does. -/
def coefficient (f g : Nat → Byte) : Option Nat :=
  (List.range 16).find? fun r => decide (syndrome g = (syndrome f).map fun x => gfMul (gfExp r) x)

theorem syndrome_scaled_iff (r : Nat) : (syndrome g = (syndrome f).map fun x => gfMul (gfExp r) x) ↔
    ∀ k, k < 16 → g k = gfMul (gfExp r) (f k) := by
  simp [syndrome]

theorem coefficient_eq_some {j r : Nat} (hj : j < 16) (hne : f j ≠ 0) (hr : r < 16)
    (hs : ∀ k, k < 16 → g k = gfMul (gfExp r) (f k)) : coefficient f g = some r := by
  cases hc : coefficient f g with
  | none =>
    have := List.find?_eq_none.1 hc r (List.mem_range.2 hr)
    exact absurd ((syndrome_scaled_iff r).2 hs) (by simpa using this)
  | some q =>
    have hq := List.mem_range.1 (List.mem_of_find?_eq_some hc)
    have hqs := (syndrome_scaled_iff q).1 (by simpa using List.find?_some hc)
    rw [gfExp_unique hq hr hne ((hqs j hj).symm.trans (hs j hj))]

theorem coefficient_eq_none (h : ∀ r, r < 16 → ∃ k, k < 16 ∧ g k ≠ gfMul (gfExp r) (f k)) : coefficient f g = none := by
  refine List.find?_eq_none.2 fun r hr w => ?_
  obtain ⟨k, hk, hne⟩ := h r (List.mem_range.1 hr)
  exact hne ((syndrome_scaled_iff r).1 (by simpa using w) k hk)

section
variable {h j : Nat} (hh : h < 2) (hj : j < 16) (hne : f j ≠ 0) (hz : ∀ k, k < 16 → k / 8 ≠ h → f k = 0)
include hh hj hne hz

theorem judge_oneHalfP : judge (syndrome f) (syndrome g) =
    if (syndrome g).all fun x => x = 0 then .parityP
    else (coefficient f g).elim .uncorrectable fun r => .data (2 * r + h) := by
  simp only [judge]
  rw [if_neg fun w => hne ((all_zero_syndrome f).1 w j hj), halfOf_one hh hj hne hz, ← coefficient]
  cases coefficient f g <;> rfl

theorem judge_parityP (hg : ∀ k, k < 16 → g k = 0) : judge (syndrome f) (syndrome g) = .parityP := by
  rw [judge_oneHalfP hh hj hne hz, if_pos ((all_zero_syndrome g).2 hg)]

theorem judge_data {r : Nat} (hr : r < 16) (hs : ∀ k, k < 16 → g k = gfMul (gfExp r) (f k)) :
    judge (syndrome f) (syndrome g) = .data (2 * r + h) := by
  have hgj : g j ≠ 0 := by
    rw [hs j hj]
    exact fun w => hne (gfMul_gfExp_injective r (w.trans (gfMul_zero r).symm))
  rw [judge_oneHalfP hh hj hne hz, if_neg fun w => hgj ((all_zero_syndrome g).1 w j hj), coefficient_eq_some hj hne hr hs,
    Option.elim_some]

theorem judge_noCoefficient (hg : ∃ k, k < 16 ∧ g k ≠ 0)
    (hs : ∀ r, r < 16 → ∃ k, k < 16 ∧ g k ≠ gfMul (gfExp r) (f k)) :
    judge (syndrome f) (syndrome g) = .uncorrectable := by
  obtain ⟨k, hk, hgk⟩ := hg
  rw [judge_oneHalfP hh hj hne hz, if_neg fun w => hgk ((all_zero_syndrome g).1 w k hk), coefficient_eq_none hs,
    Option.elim_none]

end
end

/-! #### Errors confined to one symbol -/

theorem foldl_xor_zero (f : Nat → Byte) (n : Nat) (b : Byte) (h : ∀ i, i < n → f i = 0) :
    (List.range n).foldl (fun x i => x ^^^ f i) b = b := by
  induction n with
  | zero => rfl
  | succ n ih =>
    rw [List.range_succ, List.foldl_append, ih fun i hi => h i (by omega)]
    simp [h n (by omega)]

/-- A sum with one nonzero term. -/
theorem foldl_xor_single (f : Nat → Byte) (n r : Nat) (b : Byte) (hr : r < n) (h : ∀ i, i < n → i ≠ r → f i = 0) :
    (List.range n).foldl (fun x i => x ^^^ f i) b = b ^^^ f r := by
  induction n with
  | zero => omega
  | succ n ih =>
    rw [List.range_succ, List.foldl_append, List.foldl_cons, List.foldl_nil]
    rcases Nat.lt_succ_iff_lt_or_eq.1 hr with hr | rfl
    · rw [ih hr fun i hi => h i (by omega), h n (by omega) (by omega)]
      exact BitVec.xor_zero
    · rw [foldl_xor_zero f r b fun i hi => h i (by omega) (by omega)]

theorem errAt_foldl_of_none (p : List (Nat × Byte)) (off : Nat) (b : Byte) (h : ∀ e ∈ p, e.1 ≠ off) :
    p.foldl (fun x e => if e.1 = off then x ^^^ e.2 else x) b = b := by
  induction p with
  | nil => rfl
  | cons e t ih =>
    obtain ⟨he, ht⟩ := List.forall_mem_cons.1 h
    rw [List.foldl_cons, if_neg he, ih ht]

section
variable {p : List (Nat × Byte)} {sym : Nat} (hp : ∀ e ∈ p, e.1 / 8 = sym)
include hp

theorem errAt_outside_symbol {off : Nat} (h : off / 8 ≠ sym) : errAt p off = 0 :=
  errAt_foldl_of_none p off 0 fun e he w => h (w ▸ hp e he)

/-- The data bytes of a column that lie outside the symbol are right. -/
theorem errAt_data_zero {i j : Nat} (h : 2 * i + j / 8 ≠ sym) : errAt p (16 * i + j) = 0 :=
  errAt_outside_symbol hp (by omega)

theorem sp_of_data_symbol (hs : sym < 32) {j : Nat} (hj : j < 16) : sp p j = errAt p (16 * (sym / 2) + j) := by
  have hcheck : errAt p (256 + j) = 0 := errAt_outside_symbol hp (by omega)
  rw [sp, foldl_xor_single (fun i => errAt p (16 * i + j)) 16 (sym / 2) _ (by omega)
    (fun i _ hne => errAt_data_zero hp (by omega)), hcheck]
  exact BitVec.zero_xor

theorem sq_of_data_symbol (hs : sym < 32) {j : Nat} (hj : j < 16) :
    sq p j = gfMul (gfExp (sym / 2)) (errAt p (16 * (sym / 2) + j)) := by
  have hcheck : errAt p (272 + j) = 0 := errAt_outside_symbol hp (by omega)
  rw [sq, foldl_xor_single (fun i => gfMul (gfExp i) (errAt p (16 * i + j))) 16 (sym / 2) _ (by omega)
    (fun i _ hne => by rw [errAt_data_zero hp (by omega), gfMul_zero]), hcheck]
  exact BitVec.zero_xor

theorem sp_of_check_symbol (hs : 32 ≤ sym) {j : Nat} (hj : j < 16) : sp p j = errAt p (256 + j) :=
  foldl_xor_zero _ _ _ fun _ _ => errAt_data_zero hp (by omega)

theorem sq_of_check_symbol (hs : 32 ≤ sym) {j : Nat} (hj : j < 16) : sq p j = errAt p (272 + j) :=
  foldl_xor_zero _ _ _ fun _ _ => by rw [errAt_data_zero hp (by omega), gfMul_zero]

variable {off : Nat} (he : errAt p off ≠ 0)
include he

theorem symbol_of_errAt : off / 8 = sym := by_contra fun w => he (errAt_outside_symbol hp w)

/-- An error in one data symbol is mended as that symbol (R359). -/
theorem judgeTile_data_symbol (hs : sym < 32) : judgeTile p = .data sym := by
  have hoff := symbol_of_errAt hp he
  have hj : off % 16 < 16 := Nat.mod_lt _ (by decide)
  have hne : sp p (off % 16) ≠ 0 := by
    rwa [sp_of_data_symbol hp hs hj, show 16 * (sym / 2) + off % 16 = off by omega]
  have hz : ∀ k, k < 16 → k / 8 ≠ sym % 2 → sp p k = 0 := fun k hk w => by
    rw [sp_of_data_symbol hp hs hk, errAt_data_zero hp (by omega)]
  have hscaled : ∀ k, k < 16 → sq p k = gfMul (gfExp (sym / 2)) (sp p k) := fun k hk => by
    rw [sq_of_data_symbol hp hs hk, sp_of_data_symbol hp hs hk]
  rw [judgeTile_eq, judge_data (Nat.mod_lt _ (by decide)) hj hne hz (by omega) hscaled, Nat.div_add_mod]

/-- An error in one symbol of P is mended as P (R359). -/
theorem judgeTile_P_symbol (hs : sym = 32 ∨ sym = 33) : judgeTile p = .parityP := by
  have hoff := symbol_of_errAt hp he
  have hne : sp p (off - 256) ≠ 0 := by
    rwa [sp_of_check_symbol hp (by omega) (by omega), show 256 + (off - 256) = off by omega]
  refine judge_parityP (h := sym - 32) (by omega) (by omega) hne (fun k hk w => ?_) fun k hk => ?_
  · rw [sp_of_check_symbol hp (by omega) hk, errAt_outside_symbol hp (by omega)]
  · rw [sq_of_check_symbol hp (by omega) hk, errAt_outside_symbol hp (by omega)]

/-- An error in one symbol of Q is mended as Q (R359). -/
theorem judgeTile_Q_symbol (hs : sym = 34 ∨ sym = 35) : judgeTile p = .parityQ := by
  have hoff := symbol_of_errAt hp he
  have hne : sq p (off - 272) ≠ 0 := by
    rwa [sq_of_check_symbol hp (by omega) (by omega), show 272 + (off - 272) = off by omega]
  refine judge_parityQ (fun k hk => ?_) (h := sym - 34) (by omega) (by omega) hne fun k hk w => ?_
  · rw [sp_of_check_symbol hp (by omega) hk, errAt_outside_symbol hp (by omega)]
  · rw [sq_of_check_symbol hp (by omega) hk, errAt_outside_symbol hp (by omega)]

end

end Sys2Proof.Machine

/-! PROOFS. Fields of a header, and the messages, records and status line read back from their bytes (R8, R95, R102, R124,
R190, R211, R217, R258, R285, R287); then all that the codes carry. -/

namespace Sys2Proof.Machine

/-! ### The fields of a header (R8) -/

/-- Byte `i` of a header with the given fields. -/
def headerByte (fields : List (Nat × Nat × Nat)) (i : Nat) : Byte :=
  ((fields.find? fun f => f.1 ≤ i ∧ i < f.1 + f.2.1).map fun f => BitVec.ofNat 8 (f.2.2 / 256 ^ (i - f.1))).getD 0

theorem header_eq (n : Nat) (fields : List (Nat × Nat × Nat)) : header n fields = (List.range n).map (headerByte fields) := by
  refine List.map_congr_left fun i _ => ?_
  unfold headerByte
  cases fields.find? fun f => f.1 ≤ i ∧ i < f.1 + f.2.1 <;> rfl

@[simp] theorem length_header (n : Nat) (fields : List (Nat × Nat × Nat)) : (header n fields).length = n := by
  simp [header_eq]

theorem headerByte_cons_in {o k v i : Nat} (fs : List (Nat × Nat × Nat)) (h : o ≤ i ∧ i < o + k) :
    headerByte ((o, k, v) :: fs) i = BitVec.ofNat 8 (v / 256 ^ (i - o)) := by
  simp [headerByte, h]

theorem headerByte_cons_out {o k v i : Nat} (fs : List (Nat × Nat × Nat)) (h : ¬ (o ≤ i ∧ i < o + k)) :
    headerByte ((o, k, v) :: fs) i = headerByte fs i := by
  rw [headerByte, List.find?_cons_of_neg (by simpa using h), headerByte]

section
variable {n off size o k v w : Nat} {fs : List (Nat × Nat × Nat)} {rest : List Byte}

theorem fldAt_header (h : off + size ≤ n) : fldAt (header n fs ++ rest) off size =
    leNat ((List.range size).map fun i => headerByte fs (off + i)) := by
  rw [fldAt]
  congr 1
  refine List.ext_getElem (by simp; omega) fun i hi hj => ?_
  have hi' : i < size := by simpa using hj
  simp [header_eq, List.getElem_append_left, show off + i < n by omega]

theorem fldAt_header_same (h : off + size ≤ n) :
    fldAt (header n ((off, size, v) :: fs) ++ rest) off size = v % 256 ^ size := by
  rw [fldAt_header h, ← leNat_leBytes]
  congr 1
  refine List.ext_getElem (by simp [leBytes_length]) fun i hi hj => ?_
  have hi' : i < size := by simpa using hi
  have hbyte := leBytes_getD v hi'
  rw [List.getD_eq_getElem _ _ hj] at hbyte
  rw [List.getElem_map, List.getElem_range, headerByte_cons_in fs (by omega), Nat.add_sub_cancel_left, hbyte]

theorem fldAt_header_other (h : off + size ≤ n) (hd : off + size ≤ o ∨ o + k ≤ off) :
    fldAt (header n ((o, k, v) :: fs) ++ rest) off size = fldAt (header n fs ++ rest) off size := by
  rw [fldAt_header h, fldAt_header h]
  congr 1
  refine List.map_congr_left fun i hi => ?_
  have := List.mem_range.1 hi
  exact headerByte_cons_out fs (by omega)

theorem fieldBits_header_same {x : BitVec w} (hw : 8 * k = w) (h : off + k ≤ n) :
    fieldBits w (header n ((off, k, x.toNat) :: fs) ++ rest) off = x := by
  subst hw
  have hx : x.toNat < 256 ^ k := by
    have := x.isLt
    rwa [pow_mul] at this
  rw [fieldBits, Nat.mul_div_cancel_left k (by decide), fldAt_header_same h, Nat.mod_eq_of_lt hx, BitVec.ofNat_toNat,
    BitVec.setWidth_eq]

theorem fieldBits_header_other (h : off + w / 8 ≤ n) (hd : off + w / 8 ≤ o ∨ o + k ≤ off) :
    fieldBits w (header n ((o, k, v) :: fs) ++ rest) off = fieldBits w (header n fs ++ rest) off := by
  rw [fieldBits, fldAt_header_other h hd, fieldBits]

/-- The body behind a header is as long as the header's length field says (R287). -/
theorem extent_header {body : List Byte} (h : fldAt (header n fs ++ (body ++ rest)) 2 2 = body.length) :
    extent (header n fs ++ (body ++ rest)) n = body := by
  rw [extent, h, List.drop_left' (length_header n fs), List.take_left]

end

/-- The first byte of a header reads as the number it was given. -/
theorem fieldBits_header_byte {n v : Nat} {fs : List (Nat × Nat × Nat)} {rest : List Byte} (h : 1 ≤ n) :
    fieldBits 8 (header n ((0, 1, v) :: fs) ++ rest) 0 = BitVec.ofNat 8 v := by
  rw [fieldBits, fldAt_header_same (by omega)]
  apply BitVec.eq_of_toNat_eq
  simp

/-! #### Flags -/

theorem testBit_flag (a : Bool) : (bit a % 256 ^ 1).testBit 0 = a := by cases a <;> rfl

theorem testBit_flags_two (a b : Bool) : ((bit a + 2 * bit b) % 256 ^ 1).testBit 0 = a ∧
    ((bit a + 2 * bit b) % 256 ^ 1).testBit 1 = b := by cases a <;> cases b <;> decide

theorem testBit_flags_three (a b c : Bool) : ((bit a + 2 * bit b + 4 * bit c) % 256 ^ 1).testBit 0 = a ∧
    ((bit a + 2 * bit b + 4 * bit c) % 256 ^ 1).testBit 1 = b ∧
    ((bit a + 2 * bit b + 4 * bit c) % 256 ^ 1).testBit 2 = c := by cases a <;> cases b <;> cases c <;> decide

/-! ### Messages read back (R95, R102, R124, R211, R217, R258) -/

/-- The records of a payload, one after another, read back (R90, R95). -/
theorem readRecords_flatMap (recs : List FsRec) (h : ∀ r ∈ recs, r.thin = thin (expand r.thin)) :
    readRecords recs.length (recs.flatMap recBytes) = recs := by
  induction recs with
  | nil => rfl
  | cons r t ih =>
    obtain ⟨hr, ht⟩ := List.forall_mem_cons.1 h
    have hline : fieldBits 16 (leBytes 2 r.line.toNat ++ (r.thin ++ t.flatMap recBytes)) 0 = r.line := by
      rw [fieldBits, fldAt, List.drop_zero, List.take_left' (leBytes_length _ _), leNat_leBytes_of_lt r.line.isLt,
        BitVec.ofNat_toNat, BitVec.setWidth_eq]
    have hlen : thinLength (r.thin ++ t.flatMap recBytes) = r.thin.length := by
      rw [hr]
      exact thinLength_thin _ _
    rw [List.flatMap_cons, List.length_cons, readRecords, recBytes, List.append_assoc, hline,
      List.drop_left' (leBytes_length _ _), hlen, List.take_left, List.drop_left, ih ht]

theorem length_foldStorePayload (p : FoldStore) :
    (foldStorePayload p).length = (p.recs.map fun r => 2 + r.thin.length).sum := by
  simp [foldStorePayload, List.length_flatMap, recBytes, leBytes_length]

section
variable (rest : List Byte)

theorem readFoldStore_foldStoreBytes (p : FoldStore) (hw : p.wf = true) (hr : ∀ r ∈ p.recs, r.thin = thin (expand r.thin)) :
    readFoldStore (foldStoreBytes p ++ rest) = p := by
  simp only [FoldStore.wf, Bool.and_eq_true, decide_eq_true_eq] at hw
  obtain ⟨⟨⟨-, hcount⟩, hsize⟩, -⟩ := hw
  rw [← length_foldStorePayload] at hsize
  have hrecs := readRecords_flatMap p.recs hr
  rw [← foldStorePayload] at hrecs
  have hc : p.recs.length % 256 ^ 1 = p.recs.length := Nat.mod_eq_of_lt (by omega)
  have hl : (foldStorePayload p).length % 256 ^ 2 = (foldStorePayload p).length := Nat.mod_eq_of_lt (by omega)
  simp only [readFoldStore, foldStoreBytes, List.append_assoc]
  rw [extent_header (by simp (disch := omega) only [fldAt_header_same, fldAt_header_other, hl])]
  simp (disch := omega) only [fieldBits_header_same, fieldBits_header_other, fldAt_header_same, fldAt_header_other,
    testBit_flags_two, hc, hrecs]

theorem readMarker_markerBytes (m : Marker) : readMarker (markerBytes m ++ rest) = m := by
  simp (disch := omega) only [readMarker, markerBytes, fieldBits_header_same, fieldBits_header_other]

theorem readSeal_sealBytes (t : Byte) (m : SealMsg) (hw : m.wf = true) : readSeal (sealBytes t m ++ rest) = m := by
  have hbody : m.body.length ≤ 256 := of_decide_eq_true hw
  have hl : m.body.length % 256 ^ 2 = m.body.length := Nat.mod_eq_of_lt (by omega)
  simp only [readSeal, sealBytes, List.append_assoc]
  rw [extent_header (by simp (disch := omega) only [fldAt_header_same, fldAt_header_other, hl])]
  simp (disch := omega) only [fieldBits_header_same, fieldBits_header_other, fldAt_header_same, fldAt_header_other,
    testBit_flag]

theorem readBeat_beatBytes (b : Beat) : readBeat (beatBytes b ++ rest) = b := by
  simp (disch := omega) only [readBeat, beatBytes, fieldBits_header_same, fieldBits_header_other]

theorem readAgree_agreeBytes (t : Byte) (m : AgreeMsg) (hw : m.wf = true) : readAgree (agreeBytes t m ++ rest) = m := by
  have hbody : m.body.length ≤ 256 := of_decide_eq_true hw
  have hl : m.body.length % 256 ^ 2 = m.body.length := Nat.mod_eq_of_lt (by omega)
  simp only [readAgree, agreeBytes, List.append_assoc]
  rw [extent_header (by simp (disch := omega) only [fldAt_header_same, fldAt_header_other, hl])]
  simp (disch := omega) only [fieldBits_header_same, fieldBits_header_other]

theorem readRebuild_rebuildBytes (t : Byte) (m : RbMsg) (hw : m.wf = true) :
    readRebuild (rebuildBytes t m ++ rest) = m := by
  have hbody : m.payload.length ≤ 256 := of_decide_eq_true hw
  have hl : m.payload.length % 256 ^ 2 = m.payload.length := Nat.mod_eq_of_lt (by omega)
  simp only [readRebuild, rebuildBytes, List.append_assoc]
  rw [extent_header (by simp (disch := omega) only [fldAt_header_same, fldAt_header_other, hl])]
  simp (disch := omega) only [fieldBits_header_same, fieldBits_header_other, fldAt_header_same, fldAt_header_other,
    testBit_flags_three]

end

/-- An exchange record is read back from its bytes (R190). -/
theorem readRecord_recordBytes (t : Byte) (r : ExRec) (hw : r.wf = true) : readRecord (recordBytes t r) = r := by
  have hpayload : r.payload.length ≤ 16400 := of_decide_eq_true hw
  have hl : r.payload.length % 256 ^ 4 = r.payload.length := Nat.mod_eq_of_lt (by omega)
  simp (disch := omega) only [readRecord, recordBytes, fieldBits_header_same, fieldBits_header_other, fldAt_header_same,
    fldAt_header_other, testBit_flag, hl, List.drop_left' (length_header _ _), List.take_length]

/-- The status line is read back from its bytes (R285). -/
theorem readStatus_statusBytes (l : StatusLine) : readStatus (statusBytes l) = l := by
  rw [← List.append_nil (statusBytes l)]
  simp (disch := omega) only [readStatus, statusBytes, fieldBits_header_same, fieldBits_header_other]

/-! #### The type of a message tells which it is (R287, R288) -/

theorem readMsg_foldStore {bs : List Byte} (h : fieldBits 8 bs 0 = 0x10) : readMsg bs = some (.foldStore (readFoldStore bs)) := by
  simp [readMsg, h]

theorem readMsg_marker {bs : List Byte} (h : fieldBits 8 bs 0 = 0x11) : readMsg bs = some (.marker (readMarker bs)) := by
  simp [readMsg, h]

theorem readMsg_beat {bs : List Byte} (h : fieldBits 8 bs 0 = 0x20) : readMsg bs = some (.beat (readBeat bs)) := by
  simp [readMsg, h]

theorem readMsg_seal {bs : List Byte} {t : Byte} (h : fieldBits 8 bs 0 = t) (ht : 0x12 ≤ t.toNat ∧ t.toNat ≤ 0x1A) :
    readMsg bs = some (.sealMsg t (readSeal bs)) := by
  rw [readMsg, h, if_neg (by omega), if_neg (by omega), if_pos ht]

theorem readMsg_agree {bs : List Byte} {t : Byte} (h : fieldBits 8 bs 0 = t)
    (ht : (0x21 ≤ t.toNat ∧ t.toNat ≤ 0x2F) ∨ (0x50 ≤ t.toNat ∧ t.toNat ≤ 0x52)) :
    readMsg bs = some (.agree t (readAgree bs)) := by
  rw [readMsg, h, if_neg (by omega), if_neg (by omega), if_neg (by omega), if_neg (by omega), if_pos ht]

theorem readMsg_rebuild {bs : List Byte} {t : Byte} (h : fieldBits 8 bs 0 = t) (ht : 0x40 ≤ t.toNat ∧ t.toNat ≤ 0x46) :
    readMsg bs = some (.rebuild t (readRebuild bs)) := by
  rw [readMsg, h, if_neg (by omega), if_neg (by omega), if_neg (by omega), if_neg (by omega), if_neg (by omega), if_pos ht]

section
variable (t : Byte) (rest : List Byte)

theorem type_foldStoreBytes (p : FoldStore) : fieldBits 8 (foldStoreBytes p ++ rest) 0 = 0x10 := by
  rw [foldStoreBytes, List.append_assoc]
  exact fieldBits_header_byte (by decide)

theorem type_markerBytes (m : Marker) : fieldBits 8 (markerBytes m ++ rest) 0 = 0x11 :=
  fieldBits_header_byte (by decide)

theorem type_sealBytes (m : SealMsg) : fieldBits 8 (sealBytes t m ++ rest) 0 = t := by
  rw [sealBytes, List.append_assoc, fieldBits_header_same (by decide) (by decide)]

theorem type_beatBytes (b : Beat) : fieldBits 8 (beatBytes b ++ rest) 0 = 0x20 := fieldBits_header_byte (by decide)

theorem type_agreeBytes (m : AgreeMsg) : fieldBits 8 (agreeBytes t m ++ rest) 0 = t := by
  rw [agreeBytes, List.append_assoc, fieldBits_header_same (by decide) (by decide)]

theorem type_rebuildBytes (m : RbMsg) : fieldBits 8 (rebuildBytes t m ++ rest) 0 = t := by
  rw [rebuildBytes, List.append_assoc, fieldBits_header_same (by decide) (by decide)]

end

/-- Every message is read back from the bytes a store carries, padding included (R8, R287). -/
theorem readMsg_padded (m : Msg) (h : msgFits m = true) : readMsg (padded (msgBytes m)) = some m := by
  rw [padded]
  cases m with
  | foldStore p =>
    obtain ⟨hw, hr⟩ := Bool.and_eq_true_iff.1 h
    rw [msgBytes, readMsg_foldStore (type_foldStoreBytes _ p), readFoldStore_foldStoreBytes _ p hw (by simpa using hr)]
  | marker m => rw [msgBytes, readMsg_marker (type_markerBytes _ m), readMarker_markerBytes]
  | sealMsg t m =>
    obtain ⟨hw, ht⟩ := Bool.and_eq_true_iff.1 h
    rw [msgBytes, readMsg_seal (type_sealBytes t _ m) (of_decide_eq_true ht), readSeal_sealBytes _ t m hw]
  | beat b => rw [msgBytes, readMsg_beat (type_beatBytes _ b), readBeat_beatBytes]
  | agree t m =>
    obtain ⟨hw, ht⟩ := Bool.and_eq_true_iff.1 h
    rw [msgBytes, readMsg_agree (type_agreeBytes t _ m) (of_decide_eq_true ht), readAgree_agreeBytes _ t m hw]
  | rebuild t m =>
    obtain ⟨hw, ht⟩ := Bool.and_eq_true_iff.1 h
    rw [msgBytes, readMsg_rebuild (type_rebuildBytes t _ m) (of_decide_eq_true ht), readRebuild_rebuildBytes _ t m hw]

/-! ### The codes -/

/-- The worked example of R91. -/
theorem thin_workedExample :
    thin (mkLine [(4, 4, 0x3A10), (8, 4, 0x12F00), (16, 4, 0xC5), (20, 4, 0x80000000), (36, 4, 0x417), (60, 4, 1)]) =
      [0x36, 0x82, 0x36, 0x0E, 0x10, 0x3A, 0x00, 0x2F, 0x01, 0xC5, 0x00, 0x00, 0x00, 0x80, 0x17, 0x04, 0x01] := by
  decide +kernel

/-- Settles O57: expansion undoes thinning word by word; the lattice's table and one-symbol errors are read off the
syndromes; each field of a message is read back from its header, and the body from the length field. -/
theorem codesBringBackWhatTheyCarry : Obligations.CodesBringBackWhatTheyCarry := by
  refine ⟨fun l => ⟨expand_thin l, length_thin l, fun w hw =>
      ⟨ne_zero_of_mem_thinWords hw, toNat_lt_of_zeroHigh w, le_toNat_of_zeroHigh w⟩⟩, thin_workedExample, fun p => ?_,
    readMsg_padded, readRecord_recordBytes, readStatus_statusBytes⟩
  rw [judgeTile_eq]
  refine ⟨fun hP => ⟨judge_clean hP, fun h j hh hj hne hz => judge_parityQ hP hh hj hne hz,
      fun j k hj h8 hk hqj hqk => judge_bothHalvesQ hP hj h8 hk hqj hqk⟩,
    fun h j hh hj hne hz => ⟨judge_parityP hh hj hne hz, fun r hr hs => judge_data hh hj hne hz hr hs,
      judge_noCoefficient hh hj hne hz⟩,
    fun j k hj h8 hk hpj hpk => judge_bothHalvesP hj h8 hk hpj hpk,
    fun sym off hp he => ⟨judgeTile_data_symbol hp he, judgeTile_P_symbol hp he, judgeTile_Q_symbol hp he⟩⟩

end Sys2Proof.Machine

/-! PROOFS. A Beacon sample: missed heartbeats, leaky buckets, lasting classes and their decisions (R232 to R234,
R354). -/

namespace Sys2Proof.Machine

/-! ### One bit of a map, and a fold in which one element alone changes what is looked at -/

theorem getLsbD_setBit {w : Nat} (v : BitVec w) {i : Nat} (b : Bool) (h : i < w) (j : Nat) :
    (setBit v i b).getLsbD j = if j = i then b else v.getLsbD j := by
  have bit : (BitVec.ofNat w (2 ^ i)).getLsbD j = decide (j = i) := by
    rw [BitVec.getLsbD_ofNat, Nat.testBit_two_pow]
    by_cases hji : j = i
    · simp [hji, h]
    · simp [hji, Ne.symm hji]
  cases b with
  | true =>
    rw [setBit, if_pos rfl, BitVec.getLsbD_or, bit]
    by_cases hji : j = i <;> simp [hji]
  | false =>
    rw [setBit, if_neg Bool.false_ne_true, BitVec.getLsbD_and, BitVec.getLsbD_not, bit]
    by_cases hji : j = i
    · simp [hji]
    · simpa [hji] using BitVec.lt_of_getLsbD

/-- Where the step of `c` alone changes what `view` sees, a fold changes it once, as that step does. -/
theorem forEach_view {α β : Type} (view : State → β) (next : β → β) (f : State → α → State) (c : α)
    (same : ∀ s, view (f s c) = next (view s)) (other : ∀ s d, d ≠ c → view (f s d) = view s) (l : List α)
    (hl : l.Nodup) (hc : c ∈ l) (s : State) : view (forEach l f s) = next (view s) := by
  have pass (m : List α) (hm : c ∉ m) (t : State) : view (forEach m f t) = view t := by
    induction m generalizing t with
    | nil => rfl
    | cons d m ih =>
      obtain ⟨hd, hm⟩ := not_or.1 (mt List.mem_cons.2 hm)
      exact (ih hm (f t d)).trans (other t d (Ne.symm hd))
  induction l generalizing s with
  | nil => cases hc
  | cons d l ih =>
    obtain ⟨hd, hl⟩ := List.nodup_cons.1 hl
    by_cases hdc : d = c
    · subst hdc
      exact (pass l hd (f s d)).trans (same s)
    · have := ih hl ((List.mem_cons.1 hc).resolve_left (Ne.symm hdc)) (f s d)
      rwa [other s d hdc] at this

/-! ### Missed heartbeat intervals (R232; log entry 85) -/

/-- One port's missed intervals counted, as `countMissed` counts them. -/
def countPort (s : State) (q : Fin 8) : State :=
  { s with
    agree.missed := s.agree.missed + missedOn s q
    agree.missMark :=
      s.agree.missMark.set q.val (s.agree.missMark.get q + BitVec.ofNat 64 (8000 * missedOn s q)) q.isLt }

theorem countMissed_awake {s : State} (h : ¬(s.power.season.get = 2 ∨ s.ports.lkp = false)) :
    countMissed s = forEach (openPorts s) countPort s := by
  unfold countMissed
  rw [if_neg (by simpa using h)]
  rfl

theorem countMissed_asleep {s : State} (h : s.power.season.get = 2 ∨ s.ports.lkp = false) :
    countMissed s = { s with agree.missMark := Vector.replicate 8 s.time.gtc } := by
  unfold countMissed
  rw [if_pos (by simpa using h)]

theorem nodup_openPorts (s : State) : (openPorts s).Nodup := by
  unfold openPorts
  split
  · exact (List.nodup_finRange 8).filter _
  · exact List.nodup_nil

theorem countPort_missMark_other (s : State) {p q : Fin 8} (h : p ≠ q) :
    (countPort s p).agree.missMark.get q = s.agree.missMark.get q :=
  Vector.getElem_set_ne p.isLt q.isLt (fun e => h (Fin.ext e))

theorem countPort_missMark_same (s : State) (q : Fin 8) :
    (countPort s q).agree.missMark.get q = s.agree.missMark.get q + BitVec.ofNat 64 (8000 * missedOn s q) :=
  Vector.getElem_set_self q.isLt

theorem missedOn_countPort_other (s : State) {p q : Fin 8} (h : p ≠ q) : missedOn (countPort s p) q = missedOn s q := by
  rw [missedOn, countPort_missMark_other s h]
  rfl

theorem forEach_countPort_missed (l : List (Fin 8)) (hl : l.Nodup) (s : State) :
    (forEach l countPort s).agree.missed = s.agree.missed + (l.map (missedOn s)).sum := by
  induction l generalizing s with
  | nil => rfl
  | cons p l ih =>
    obtain ⟨hp, hl⟩ := List.nodup_cons.1 hl
    have others : l.map (missedOn (countPort s p)) = l.map (missedOn s) :=
      List.map_congr_left fun q hq => missedOn_countPort_other s fun e => hp (e ▸ hq)
    have step := ih hl (countPort s p)
    rw [others] at step
    rw [List.map_cons, List.sum_cons, ← Nat.add_assoc]
    exact step

/-- Whole intervals taken off a time leave less than one interval. -/
theorem sub_wholeIntervals_lt (d : U64) : (d - BitVec.ofNat 64 (8000 * (d.toNat / 8000))).toNat < 8000 := by
  have fits : 8000 * (d.toNat / 8000) ≤ d.toNat := Nat.mul_div_le _ _
  have whole := toNat_ofNat_of_lt (w := 64) (Nat.lt_of_le_of_lt fits d.isLt)
  rw [BitVec.toNat_sub_of_le (by rw [BitVec.le_def, whole]; exact fits), whole]
  omega

theorem countMissed_frame (s : State) : countMissed s = { s with agree := { s.agree with
    missed := (countMissed s).agree.missed, missMark := (countMissed s).agree.missMark } } := by
  by_cases h : s.power.season.get = 2 ∨ s.ports.lkp = false
  · rw [countMissed_asleep h]
  · rw [countMissed_awake h]
    refine forEach_keeps (fun t => t = { s with agree := { s.agree with
      missed := t.agree.missed, missMark := t.agree.missMark } }) _ _ _ (fun t q ht => ?_) rfl
    rw [ht]
    rfl

theorem countMissed_missed (s : State) : (countMissed s).agree.missed = s.agree.missed +
    (if s.power.season.get = 2 ∨ s.ports.lkp = false then 0 else ((openPorts s).map (missedOn s)).sum) := by
  split
  next h =>
    rw [countMissed_asleep h]
    rfl
  next h =>
    rw [countMissed_awake h, forEach_countPort_missed _ (nodup_openPorts s)]

/-- After the count every open port's mark is less than one interval old. -/
theorem countMissed_missMark_recent {s : State} (hSeason : s.power.season.get ≠ 2) (hLkp : s.ports.lkp = true)
    {q : Fin 8} (hq : q ∈ openPorts s) : (s.time.gtc - (countMissed s).agree.missMark.get q).toNat < 8000 := by
  have counted := forEach_view (fun t => t.time.gtc - t.agree.missMark.get q)
    (fun d => d - BitVec.ofNat 64 (8000 * (d.toNat / 8000))) countPort q
    (fun t => by rw [countPort_missMark_same, ← sub_sub]; rfl)
    (fun t p hp => by rw [countPort_missMark_other t hp]; rfl) (openPorts s) (nodup_openPorts s) hq s
  have sameTime : (countMissed s).time.gtc = s.time.gtc := by rw [countMissed_frame]
  rw [← sameTime, countMissed_awake (not_or.2 ⟨hSeason, by simp [hLkp]⟩), counted]
  exact sub_wholeIntervals_lt _

/-! ### What judging classes decides (R234) -/

/-- The Beacon after one class has been judged: whether it lasts, and whether it decides on HANDOVER. -/
def judgeClass (b : BeaconS) (c : Nat) (lasts hands : Bool) : BeaconS :=
  { b with
    lasting := setBit b.lasting c lasts
    alert := b.alert || (lasts && !b.lasting.getLsbD c)
    handoverReq := b.handoverReq || (b.handEn && hands) }

/-- Class `c` becomes lasting from one Beacon state to the next. -/
def Newly (b b' : BeaconS) (c : Nat) : Prop := b.lasting.getLsbD c = false ∧ b'.lasting.getLsbD c = true

/-- From `b` to `b'` the classes `cs` alone have been judged; `why` decides on HANDOVER besides class 1. -/
structure Judged (cs : List Nat) (why : Prop) (b b' : BeaconS) : Prop where
  handEn : b'.handEn = b.handEn
  kept : ∀ c, c ∉ cs → b'.lasting.getLsbD c = b.lasting.getLsbD c
  alert : b'.alert = true ↔ b.alert = true ∨ ∃ c, Newly b b' c
  handover : b'.handoverReq = true ↔ b.handoverReq = true ∨ (b.handEn = true ∧ (Newly b b' 1 ∨ why))

theorem Judged.of_same {b b' : BeaconS} (hEn : b'.handEn = b.handEn) (hLasting : b'.lasting = b.lasting)
    (hAlert : b'.alert = b.alert) (hReq : b'.handoverReq = b.handoverReq) : Judged [] False b b' :=
  ⟨hEn, fun _ _ => by rw [hLasting], by simp [Newly, hAlert, hLasting], by simp [Newly, hReq, hLasting]⟩

theorem Newly.trans_iff {cs ds : List Nat} {p q : Prop} {b b' b'' : BeaconS} (h : Judged cs p b b')
    (h' : Judged ds q b' b'') (disjoint : cs.Disjoint ds) (c : Nat) :
    Newly b b'' c ↔ Newly b b' c ∨ Newly b' b'' c := by
  unfold Newly
  by_cases hc : c ∈ cs
  · rw [h'.kept c (disjoint hc)]
    simp
  · rw [h.kept c hc]
    simp

theorem Judged.append {cs ds : List Nat} {p q : Prop} {b b' b'' : BeaconS} (h : Judged cs p b b')
    (h' : Judged ds q b' b'') (disjoint : cs.Disjoint ds) : Judged (cs ++ ds) (p ∨ q) b b'' where
  handEn := h'.handEn.trans h.handEn
  kept c hc := by
    obtain ⟨hcs, hds⟩ := not_or.1 (fun e => hc (List.mem_append.2 e))
    exact (h'.kept c hds).trans (h.kept c hcs)
  alert := by
    simp only [h'.alert, h.alert, Newly.trans_iff h h' disjoint, exists_or, or_assoc]
  handover := by
    rw [h'.handover, h.handover, h.handEn, Newly.trans_iff h h' disjoint]
    tauto

theorem judgeClass_lasting (b : BeaconS) {c : Nat} (lasts hands : Bool) (hc : c < 8) (d : Nat) :
    (judgeClass b c lasts hands).lasting.getLsbD d = if d = c then lasts else b.lasting.getLsbD d :=
  getLsbD_setBit _ _ hc _

theorem newly_judgeClass (b : BeaconS) {c : Nat} (lasts hands : Bool) (hc : c < 8) (d : Nat) :
    Newly b (judgeClass b c lasts hands) d ↔ d = c ∧ b.lasting.getLsbD c = false ∧ lasts = true := by
  rw [Newly, judgeClass_lasting b lasts hands hc]
  by_cases h : d = c <;> simp [h]

theorem judgeClass_alert (b : BeaconS) (c : Nat) (lasts hands : Bool) :
    (judgeClass b c lasts hands).alert = (b.alert || (lasts && !b.lasting.getLsbD c)) := rfl

theorem judgeClass_handoverReq (b : BeaconS) (c : Nat) (lasts hands : Bool) :
    (judgeClass b c lasts hands).handoverReq = (b.handoverReq || (b.handEn && hands)) := rfl

/-- ALERT is set as a class becomes lasting. -/
theorem judgeClass_alert_iff (b : BeaconS) {c : Nat} (lasts hands : Bool) (hc : c < 8) :
    (judgeClass b c lasts hands).alert = true ↔ b.alert = true ∨ ∃ d, Newly b (judgeClass b c lasts hands) d := by
  simp only [newly_judgeClass b lasts hands hc, exists_eq_left, judgeClass_alert, Bool.or_eq_true, Bool.and_eq_true,
    Bool.not_eq_true', and_comm]

/-- A class other than 1 asks for HANDOVER by its own decision. -/
theorem judged_judgeClass (b : BeaconS) {c : Nat} (lasts hands : Bool) (hc : c < 8) (h1 : c ≠ 1) :
    Judged [c] (hands = true) b (judgeClass b c lasts hands) where
  handEn := rfl
  kept d hd := by rw [judgeClass_lasting b lasts hands hc, if_neg (by simpa using hd)]
  alert := judgeClass_alert_iff b lasts hands hc
  handover := by simp [newly_judgeClass b lasts hands hc, judgeClass_handoverReq, h1.symm]

/-- Class 1 asks for HANDOVER as it becomes lasting. -/
theorem judged_judgeClass_one (b : BeaconS) (lasts : Bool) :
    Judged [1] False b (judgeClass b 1 lasts (lasts && !b.lasting.getLsbD 1)) where
  handEn := rfl
  kept d hd := by rw [judgeClass_lasting b _ _ (by decide), if_neg (by simpa using hd)]
  alert := judgeClass_alert_iff b _ _ (by decide)
  handover := by
    simp [newly_judgeClass b lasts _ (show 1 < 8 by decide), judgeClass_handoverReq, and_comm]

/-! ### The model's decisions are judgements -/

theorem setBit_getLsbD_self {w : Nat} (v : BitVec w) {i : Nat} (h : i < w) : setBit v i (v.getLsbD i) = v := by
  refine BitVec.eq_of_getLsbD_eq fun j _ => ?_
  rw [getLsbD_setBit v _ h]
  split
  next e =>
    rw [e]
  · rfl

theorem becomeLasting_beacon (s : State) {c : Nat} (hc : c < 8) :
    (becomeLasting s c).beacon = judgeClass s.beacon c true false := by
  unfold becomeLasting
  split
  next h =>
    have same := setBit_getLsbD_self s.beacon.lasting hc
    rw [h] at same
    simp [judgeClass, h, same]
  next h =>
    simp [judgeClass, h]

theorem decideHandover_beacon (s : State) (c : Nat) : (decideHandover s c).beacon =
    { s.beacon with handoverReq := s.beacon.handoverReq || s.beacon.handEn } := by
  unfold decideHandover
  split
  next h =>
    rw [raiseEvent_beacon, h, Bool.or_true]
  next h =>
    have unasked : (s.beacon.handoverReq || s.beacon.handEn) = s.beacon.handoverReq := by simp [h]
    rw [unasked]

/-- The end of a class's sample: lasting from a bucket at its threshold until both are empty (R233). -/
def classLasts (a b : Nat) (was : Bool) : Bool :=
  if 160 ≤ a ∨ 64000 ≤ b then true else if a = 0 ∧ b = 0 then false else was

/-- The events that a class counts in a sample (R232). -/
def eventCount (events : List Nat) (s : State) (c : Fin 6) : Nat :=
  if c = 5 then s.agree.missed else events.getD c.val 0 + (if c = 0 then s.beacon.mends else 0)

/-- Bucket A of a class after a sample (R233). -/
def bucketA (events : List Nat) (s : State) (c : Fin 6) : Nat :=
  bucket 4095 (s.beacon.bktA.get c).toNat 10 16 (eventCount events s c)

/-- Bucket B of a class after a sample (R233). -/
def bucketB (events : List Nat) (s : State) (c : Fin 6) : Nat :=
  bucket 1048575 (s.beacon.bktB.get c).toNat 1000 64 (eventCount events s c)

/-- Whether a class lasts after a sample. -/
def bucketLasts (events : List Nat) (s : State) (c : Fin 6) : Bool :=
  classLasts (bucketA events s c) (bucketB events s c) (s.beacon.lasting.getLsbD c.val)

/-- The Beacon with both buckets of a class brought up to date. -/
def fillBuckets (events : List Nat) (s : State) (c : Fin 6) : BeaconS :=
  { s.beacon with
    bktA := s.beacon.bktA.set c.val (BitVec.ofNat 12 (bucketA events s c)) c.isLt
    bktB := s.beacon.bktB.set c.val (BitVec.ofNat 20 (bucketB events s c)) c.isLt }

theorem sampleBucket_eq (events : List Nat) (s : State) (c : Fin 6) : sampleBucket events s c =
    (let t : State := { s with beacon := fillBuckets events s c }
    if 160 ≤ bucketA events s c ∨ 64000 ≤ bucketB events s c then
      if c = 1 ∧ s.beacon.lasting.getLsbD 1 = false then decideHandover (becomeLasting t c.val) 1
      else becomeLasting t c.val
    else if bucketA events s c = 0 ∧ bucketB events s c = 0 then
      { t with beacon.lasting := setBit t.beacon.lasting c.val false }
    else t) := rfl

theorem judgeClass_false (b : BeaconS) (c : Nat) :
    judgeClass b c false false = { b with lasting := setBit b.lasting c false } := by
  simp [judgeClass]

theorem judgeClass_same (b : BeaconS) {c : Nat} (hc : c < 8) : judgeClass b c (b.lasting.getLsbD c) false = b := by
  simp [judgeClass, setBit_getLsbD_self b.lasting hc]

theorem judgeClass_hands (b : BeaconS) (c : Nat) (lasts : Bool) :
    { judgeClass b c lasts false with
      handoverReq := (judgeClass b c lasts false).handoverReq || (judgeClass b c lasts false).handEn } =
      judgeClass b c lasts true := by
  simp [judgeClass]

theorem sampleBucket_beacon (events : List Nat) (s : State) (c : Fin 6) :
    (sampleBucket events s c).beacon = judgeClass (fillBuckets events s c) c.val (bucketLasts events s c)
      (decide (c = 1) && (bucketLasts events s c && !s.beacon.lasting.getLsbD c.val)) := by
  have hc : c.val < 8 := by omega
  rw [sampleBucket_eq, bucketLasts, classLasts]
  by_cases hFull : 160 ≤ bucketA events s c ∨ 64000 ≤ bucketB events s c
  · simp only [if_pos hFull]
    by_cases hHand : c = 1 ∧ s.beacon.lasting.getLsbD 1 = false
    · have hands : (decide (c = 1) && (true && !s.beacon.lasting.getLsbD c.val)) = true := by
        obtain ⟨rfl, hNew⟩ := hHand
        simpa using hNew
      rw [if_pos hHand, hands, decideHandover_beacon, becomeLasting_beacon _ hc, judgeClass_hands]
    · have holds : (decide (c = 1) && (true && !s.beacon.lasting.getLsbD c.val)) = false := by
        by_cases h1 : c = 1
        · subst h1
          simpa using hHand
        · simp [h1]
      rw [if_neg hHand, holds, becomeLasting_beacon _ hc]
  · simp only [if_neg hFull]
    by_cases hEmpty : bucketA events s c = 0 ∧ bucketB events s c = 0
    · simp only [if_pos hEmpty, Bool.false_and, Bool.and_false, judgeClass_false]
    · simp only [if_neg hEmpty, Bool.and_not_self, Bool.and_false]
      exact (judgeClass_same (fillBuckets events s c) hc).symm

/-! ### What a sample leaves alone -/

/-- From `s` to `t` the Beacon's classes and buckets may have changed, and events been raised. -/
def BeaconFrame (s t : State) : Prop :=
  t = { s with
    beacon := { s.beacon with
      lasting := t.beacon.lasting, alert := t.beacon.alert, handoverReq := t.beacon.handoverReq
      bktA := t.beacon.bktA, bktB := t.beacon.bktB }
    events := t.events, stat := { s.stat with evtOvf := t.stat.evtOvf } }

theorem BeaconFrame.trans {s t u : State} (h : BeaconFrame s t) (h' : BeaconFrame t u) : BeaconFrame s u := by
  unfold BeaconFrame at h h' ⊢
  rw [h] at h'
  exact h'

theorem beaconFrame_raiseEvent (s : State) (code arg : Byte) : BeaconFrame s (raiseEvent s code arg) := by
  unfold BeaconFrame raiseEvent
  split
  · rfl
  · split
    · rfl
    · split <;> rfl

theorem beaconFrame_becomeLasting (s : State) (c : Nat) : BeaconFrame s (becomeLasting s c) := by
  unfold becomeLasting
  split
  · rfl
  · refine BeaconFrame.trans ?_ (beaconFrame_raiseEvent _ _ _)
    rfl

theorem beaconFrame_decideHandover (s : State) (c : Nat) : BeaconFrame s (decideHandover s c) := by
  unfold decideHandover
  split
  · refine BeaconFrame.trans ?_ (beaconFrame_raiseEvent _ _ _)
    rfl
  · rfl

theorem beaconFrame_sampleBucket (events : List Nat) (s : State) (c : Fin 6) :
    BeaconFrame s (sampleBucket events s c) := by
  have filled : BeaconFrame s { s with beacon := fillBuckets events s c } := rfl
  rw [sampleBucket_eq]
  split
  · have lasting := filled.trans (beaconFrame_becomeLasting _ c.val)
    split
    · exact lasting.trans (beaconFrame_decideHandover _ _)
    · exact lasting
  · split <;> rfl

theorem beaconFrame_sampleBuckets (events : List Nat) (l : List (Fin 6)) (s : State) :
    BeaconFrame s (forEach l (sampleBucket events) s) :=
  forEach_keeps (BeaconFrame s) l _ s (fun t c h => h.trans (beaconFrame_sampleBucket events t c)) rfl

/-- A run of samples judged, before it decides on HANDOVER. -/
def judgeRun (s : State) (c alert : Nat) : State :=
  if 8 ≤ alert then becomeLasting s c else { s with beacon.lasting := setBit s.beacon.lasting c false }

theorem sampleRun_eq (s : State) (c alert hand : Nat) : sampleRun s c alert hand =
    if hand = 8 then decideHandover (judgeRun s c alert) c else judgeRun s c alert := rfl

theorem beaconFrame_sampleRun (s : State) (c alert hand : Nat) : BeaconFrame s (sampleRun s c alert hand) := by
  have judged : BeaconFrame s (judgeRun s c alert) := by
    unfold judgeRun
    split
    · exact beaconFrame_becomeLasting s c
    · rfl
  rw [sampleRun_eq]
  split
  · exact judged.trans (beaconFrame_decideHandover _ _)
  · exact judged

theorem sampleRun_beacon (s : State) {c : Nat} (hc : c < 8) (alert hand : Nat) : (sampleRun s c alert hand).beacon =
    judgeClass s.beacon c (decide (8 ≤ alert)) (decide (hand = 8)) := by
  have judged : (judgeRun s c alert).beacon = judgeClass s.beacon c (decide (8 ≤ alert)) false := by
    unfold judgeRun
    split
    next h =>
      rw [becomeLasting_beacon s hc, decide_eq_true h]
    next h =>
      rw [decide_eq_false h, judgeClass_false]
  rw [sampleRun_eq]
  split
  next h =>
    rw [decideHandover_beacon, judged, judgeClass_hands, decide_eq_true h]
  next h =>
    rw [judged, decide_eq_false h]

/-! ### The six bucket classes of one sample -/

theorem BeaconFrame.eventCount {s t : State} (h : BeaconFrame s t) (events : List Nat) (c : Fin 6) :
    eventCount events t c = Machine.eventCount events s c := by
  rw [h]
  rfl

theorem judged_sampleBucket (events : List Nat) (s : State) (c : Fin 6) :
    Judged [c.val] False s.beacon (sampleBucket events s c).beacon := by
  have filled : Judged [] False s.beacon (fillBuckets events s c) := .of_same rfl rfl rfl rfl
  rw [sampleBucket_beacon]
  by_cases h : c = 1
  · subst h
    simpa [fillBuckets] using
      filled.append (judged_judgeClass_one (fillBuckets events s 1) (bucketLasts events s 1)) (by simp)
  · simpa [h] using filled.append (judged_judgeClass (fillBuckets events s c) (bucketLasts events s c) false
      (c := c.val) (by omega) (fun e => h (Fin.ext e))) (by simp)

theorem judged_sampleBuckets (events : List Nat) (l : List (Fin 6)) (hl : l.Nodup) (s : State) :
    Judged (l.map Fin.val) False s.beacon (forEach l (sampleBucket events) s).beacon := by
  induction l generalizing s with
  | nil => exact .of_same rfl rfl rfl rfl
  | cons c l ih =>
    obtain ⟨hc, hl⟩ := List.nodup_cons.1 hl
    have apart : [c.val].Disjoint (l.map Fin.val) := by
      simpa [Fin.val_inj] using hc
    have both := (judged_sampleBucket events s c).append (ih hl (sampleBucket events s c)) apart
    rwa [or_false] at both

/-- What the Beacon knows of one bucket class. -/
@[ext] structure ClassView where
  a : BitVec 12
  b : BitVec 20
  lasting : Bool
  events : Nat

/-- One class as it stands in a state, with the events that its next sample counts. -/
def classView (events : List Nat) (c : Fin 6) (s : State) : ClassView :=
  { a := s.beacon.bktA.get c, b := s.beacon.bktB.get c, lasting := s.beacon.lasting.getLsbD c.val
    events := eventCount events s c }

/-- One class after its sample (R233). -/
def ClassView.sampled (v : ClassView) : ClassView :=
  let a := bucket 4095 v.a.toNat 10 16 v.events
  let b := bucket 1048575 v.b.toNat 1000 64 v.events
  { v with a := BitVec.ofNat 12 a, b := BitVec.ofNat 20 b, lasting := classLasts a b v.lasting }

theorem classView_sampleBucket_same (events : List Nat) (c : Fin 6) (s : State) :
    classView events c (sampleBucket events s c) = (classView events c s).sampled := by
  rw [classView, (beaconFrame_sampleBucket events s c).eventCount, sampleBucket_beacon,
    judgeClass_lasting _ _ _ (by omega), if_pos rfl]
  exact ClassView.ext (Vector.getElem_set_self c.isLt) (Vector.getElem_set_self c.isLt) rfl rfl

theorem classView_sampleBucket_other (events : List Nat) (c : Fin 6) (s : State) (d : Fin 6) (h : d ≠ c) :
    classView events c (sampleBucket events s d) = classView events c s := by
  have hv : d.val ≠ c.val := fun e => h (Fin.ext e)
  rw [classView, (beaconFrame_sampleBucket events s d).eventCount, sampleBucket_beacon,
    judgeClass_lasting _ _ _ (by omega), if_neg hv.symm]
  exact ClassView.ext (Vector.getElem_set_ne d.isLt c.isLt hv) (Vector.getElem_set_ne d.isLt c.isLt hv) rfl rfl

theorem classView_sampleBuckets (events : List Nat) (s : State) (c : Fin 6) :
    classView events c (forEach (List.finRange 6) (sampleBucket events) s) = (classView events c s).sampled :=
  forEach_view (classView events c) ClassView.sampled (sampleBucket events) c (classView_sampleBucket_same events c)
    (classView_sampleBucket_other events c) _ (List.nodup_finRange 6) (List.mem_finRange c) s

/-! ### The whole sample -/

theorem bucket_eq_min (cap old gain leak e : Nat) : bucket cap old gain leak e = min cap (old + gain * e - leak) := by
  show (if cap < old + gain * e - leak then cap else old + gain * e - leak) = _
  split <;> omega

/-- What the sample makes of a bucket class (R233, R354). -/
theorem sampleBuckets_class (events : List Nat) (s : State) (c : Fin 6) :
    let b := (forEach (List.finRange 6) (sampleBucket events) s).beacon
    (b.bktA.get c).toNat = min 4095 ((s.beacon.bktA.get c).toNat + 10 * eventCount events s c - 16) ∧
    (b.bktB.get c).toNat = min 1048575 ((s.beacon.bktB.get c).toNat + 1000 * eventCount events s c - 64) ∧
    b.lasting.getLsbD c.val =
      classLasts (b.bktA.get c).toNat (b.bktB.get c).toNat (s.beacon.lasting.getLsbD c.val) := by
  obtain ⟨hA, hB, hLasting, -⟩ : _ ∧ _ ∧ _ ∧ _ := by
    simpa only [classView, ClassView.sampled, ClassView.mk.injEq, bucket_eq_min] using
      classView_sampleBuckets events s c
  have hA' := congrArg BitVec.toNat hA
  have hB' := congrArg BitVec.toNat hB
  rw [toNat_ofNat_of_lt (by omega)] at hA' hB'
  exact ⟨hA', hB', by rw [hLasting, hA', hB']⟩

/-- The six bucket classes of a sample, after the missed heartbeats have been counted. -/
def bucketsSampled (events : List Nat) (s : State) : State :=
  forEach (List.finRange 6) (sampleBucket events) (countMissed s)

/-- The counts of the sample taken back, and its temperature, supply and power. -/
def takeSense (temp supply : Byte) (power : U16) (s : State) : State :=
  sampleSense { s with beacon.mends := 0, agree.missed := 0 } temp supply power

/-- Classes 6 and 7 judged by their runs of samples. -/
def runsSampled (s : State) : State :=
  sampleRun (sampleRun s 6 s.beacon.hotAlert s.beacon.hotHand) 7 s.beacon.lowAlert s.beacon.lowHand

/-- The sample with all eight classes judged. -/
def classesSampled (events : List Nat) (temp supply : Byte) (power : U16) (s : State) : State :=
  runsSampled (takeSense temp supply power (bucketsSampled events s))

theorem sample_eq (events : List Nat) (temp supply : Byte) (power : U16) (s : State) :
    sample events temp supply power s =
      guardBist (remapLasting (refreshHealth (classesSampled events temp supply power s))) := by
  unfold sample classesSampled runsSampled takeSense bucketsSampled
  rfl

/-! #### Classes 6 and 7 (R232) -/

/-- The Beacon with classes 6 and 7 judged. -/
def judgeRuns (b : BeaconS) : BeaconS :=
  judgeClass (judgeClass b 6 (decide (8 ≤ b.hotAlert)) (decide (b.hotHand = 8)))
    7 (decide (8 ≤ b.lowAlert)) (decide (b.lowHand = 8))

theorem runsSampled_beacon (s : State) : (runsSampled s).beacon = judgeRuns s.beacon := by
  rw [runsSampled, sampleRun_beacon _ (by decide), sampleRun_beacon _ (by decide), judgeRuns]

theorem beaconFrame_runsSampled (s : State) : BeaconFrame s (runsSampled s) :=
  (beaconFrame_sampleRun _ _ _ _).trans (beaconFrame_sampleRun _ _ _ _)

/-- Eight hot or low samples in a run decide on HANDOVER. -/
theorem judged_judgeRuns (b : BeaconS) :
    Judged [6, 7] ((judgeRuns b).hotHand = 8 ∨ (judgeRuns b).lowHand = 8) b (judgeRuns b) := by
  have both := (judged_judgeClass b (decide (8 ≤ b.hotAlert)) (decide (b.hotHand = 8)) (c := 6) (by decide)
    (by decide)).append (judged_judgeClass _ (decide (8 ≤ b.lowAlert)) (decide (b.lowHand = 8)) (c := 7) (by decide)
    (by decide)) (by simp)
  rwa [decide_eq_true_eq, decide_eq_true_eq] at both

theorem judgeRuns_hot {b : BeaconS} (h : 8 ≤ (judgeRuns b).hotAlert) : (judgeRuns b).lasting.getLsbD 6 = true := by
  rw [judgeRuns, judgeClass_lasting _ _ _ (by decide), if_neg (by decide), judgeClass_lasting _ _ _ (by decide),
    if_pos rfl]
  exact decide_eq_true h

theorem judgeRuns_low {b : BeaconS} (h : 8 ≤ (judgeRuns b).lowAlert) : (judgeRuns b).lasting.getLsbD 7 = true := by
  rw [judgeRuns, judgeClass_lasting _ _ _ (by decide), if_pos rfl]
  exact decide_eq_true h

/-! #### Temperature, supply and power (R354) -/

/-- The Beacon with the sample's temperature, supply and power. -/
def senseBeacon (temp supply : Byte) (power : U16) (b : BeaconS) : BeaconS :=
  { b with
    mends := 0
    temp := temp
    supply := supply
    power := power
    peak := if b.peak.toNat < power.toNat then power else b.peak
    hotAlert := runOf b.hotAlert (decide (b.tempAlert.toNat < temp.toNat))
    hotHand := runOf b.hotHand (decide (b.tempHand.toNat < temp.toNat))
    lowAlert := runOf b.lowAlert (decide (supply.toNat < b.supAlert.toNat))
    lowHand := runOf b.lowHand (decide (supply.toNat < b.supHand.toNat)) }

theorem takeSense_eq (temp supply : Byte) (power : U16) (s : State) : takeSense temp supply power s =
    { s with beacon := senseBeacon temp supply power s.beacon, agree.missed := 0 } := rfl

theorem judged_senseBeacon (temp supply : Byte) (power : U16) (b : BeaconS) :
    Judged [] False b (senseBeacon temp supply power b) := .of_same rfl rfl rfl rfl

theorem runOf_decide (old : Nat) (p : Prop) [Decidable p] : runOf old (decide p) = if p then old + 1 else 0 := by
  simp [runOf]

/-! #### The sample as a whole -/

theorem countMissed_beacon (s : State) : (countMissed s).beacon = s.beacon := by
  rw [countMissed_frame]

/-- The events of a sample: class 5 counts the intervals missed up to now (R232; log entry 85). -/
theorem eventCount_countMissed (events : List Nat) (s : State) (c : Fin 6) : eventCount events (countMissed s) c =
    (if c = 5 then s.agree.missed +
        (if s.power.season.get = 2 ∨ s.ports.lkp = false then 0 else ((openPorts s).map (missedOn s)).sum)
      else events.getD c.val 0 + (if c = 0 then s.beacon.mends else 0)) := by
  rw [eventCount, countMissed_missed, countMissed_beacon]

section
variable (events : List Nat) (temp supply : Byte) (power : U16) (s : State)

/-- The six bucket classes change their own part of the Beacon and raise events. -/
theorem bucketsSampled_frame : BeaconFrame (countMissed s) (bucketsSampled events s) :=
  beaconFrame_sampleBuckets events _ _

theorem bucketsSampled_beacon : (bucketsSampled events s).beacon = { s.beacon with
    lasting := (bucketsSampled events s).beacon.lasting, alert := (bucketsSampled events s).beacon.alert
    handoverReq := (bucketsSampled events s).beacon.handoverReq
    bktA := (bucketsSampled events s).beacon.bktA, bktB := (bucketsSampled events s).beacon.bktB } := by
  have buckets := bucketsSampled_frame events s
  have counted := countMissed_beacon s
  generalize bucketsSampled events s = b at *
  rw [buckets, counted]

theorem classesSampled_beacon : (classesSampled events temp supply power s).beacon =
    judgeRuns (senseBeacon temp supply power (bucketsSampled events s).beacon) := by
  rw [classesSampled, runsSampled_beacon, takeSense_eq]

/-- The eight classes judged: Beacon, events and the counted intervals change, and nothing else. -/
theorem classesSampled_frame : classesSampled events temp supply power s = { s with
    beacon := (classesSampled events temp supply power s).beacon
    events := (classesSampled events temp supply power s).events
    stat := { s.stat with evtOvf := (classesSampled events temp supply power s).stat.evtOvf }
    agree := { s.agree with missed := 0, missMark := (countMissed s).agree.missMark } } := by
  have counted := countMissed_frame s
  have buckets := bucketsSampled_frame events s
  unfold classesSampled
  generalize bucketsSampled events s = b at *
  have runs := beaconFrame_runsSampled (takeSense temp supply power b)
  generalize runsSampled (takeSense temp supply power b) = v at *
  generalize countMissed s = m at *
  unfold BeaconFrame at *
  rw [takeSense_eq] at runs
  rw [counted] at buckets
  rw [buckets] at runs
  rw [runs]

/-- What no class decides comes of the sample's temperature, supply and power. -/
theorem classesSampled_sense : (classesSampled events temp supply power s).beacon =
    { senseBeacon temp supply power s.beacon with
      lasting := (classesSampled events temp supply power s).beacon.lasting
      alert := (classesSampled events temp supply power s).beacon.alert
      handoverReq := (classesSampled events temp supply power s).beacon.handoverReq
      bktA := (classesSampled events temp supply power s).beacon.bktA
      bktB := (classesSampled events temp supply power s).beacon.bktB } := by
  have buckets := bucketsSampled_beacon events s
  rw [classesSampled_beacon]
  generalize (bucketsSampled events s).beacon = b at *
  rw [buckets]
  rfl

/-- All eight classes have been judged; eight hot or low samples decide on HANDOVER (R232, R234). -/
theorem judged_classesSampled : Judged ((List.finRange 6).map Fin.val ++ [6, 7])
    ((classesSampled events temp supply power s).beacon.hotHand = 8 ∨
      (classesSampled events temp supply power s).beacon.lowHand = 8)
    s.beacon (classesSampled events temp supply power s).beacon := by
  have buckets := judged_sampleBuckets events _ (List.nodup_finRange 6) (countMissed s)
  rw [countMissed_beacon] at buckets
  rw [classesSampled_beacon, bucketsSampled]
  generalize (forEach (List.finRange 6) (sampleBucket events) (countMissed s)).beacon = b at *
  have all := (buckets.append (judged_senseBeacon temp supply power b) (List.disjoint_nil_right _)).append
    (judged_judgeRuns _) (by simp)
  simpa only [List.append_nil, false_or] using all

theorem classesSampled_hot (h : 8 ≤ (classesSampled events temp supply power s).beacon.hotAlert) :
    (classesSampled events temp supply power s).beacon.lasting.getLsbD 6 = true := by
  rw [classesSampled_beacon] at h ⊢
  exact judgeRuns_hot h

theorem classesSampled_low (h : 8 ≤ (classesSampled events temp supply power s).beacon.lowAlert) :
    (classesSampled events temp supply power s).beacon.lasting.getLsbD 7 = true := by
  rw [classesSampled_beacon] at h ⊢
  exact judgeRuns_low h

/-- What the sample makes of a bucket class (R233, R354). -/
theorem classesSampled_class (c : Fin 6) :
    let b := (classesSampled events temp supply power s).beacon
    let e := eventCount events (countMissed s) c
    (b.bktA.get c).toNat = min 4095 ((s.beacon.bktA.get c).toNat + 10 * e - 16) ∧
    (b.bktB.get c).toNat = min 1048575 ((s.beacon.bktB.get c).toNat + 1000 * e - 64) ∧
    b.lasting.getLsbD c.val =
      classLasts (b.bktA.get c).toNat (b.bktB.get c).toNat (s.beacon.lasting.getLsbD c.val) := by
  have fromCounted := sampleBuckets_class events (countMissed s) c
  rw [countMissed_beacon] at fromCounted
  rw [classesSampled_beacon, bucketsSampled]
  generalize (forEach (List.finRange 6) (sampleBucket events) (countMissed s)).beacon = b at *
  have kept := (judged_judgeRuns (senseBeacon temp supply power b)).kept c.val (by simp; omega)
  show _ ∧ _ ∧ _
  rw [kept]
  exact fromCounted

/-! #### The command -/

theorem remapLasting_of_noneMended {s : State} (h : s.lat.mended = []) : remapLasting s = s := by
  have none : mostMended s = none := by simp [mostMended, h]
  rw [remapLasting, none]
  exact ite_self s

theorem guardBist_of_noRun {s : State} (h : s.bist.run = none) : guardBist s = s := by simp [guardBist, h]

theorem exec_beaconSample_idle (h : s.power.on = false ∨ s.time.gtc.toNat % 1000000 ≠ 0) :
    exec (.beaconSample events temp supply power) s = .next s := by
  have idle : ¬(s.power.on = true ∧ s.time.gtc.toNat % 1000000 = 0) := by
    rcases h with h | h <;> simp [h]
  show execBeaconSample events temp supply power s = _
  rw [execBeaconSample, if_neg idle]

/-- With no mended word and no self-test, a sample is its eight classes and the health that follows. -/
theorem exec_beaconSample_due (hOn : s.power.on = true) (hGtc : s.time.gtc.toNat % 1000000 = 0)
    (hMended : s.lat.mended = []) (hRun : s.bist.run = none) :
    exec (.beaconSample events temp supply power) s =
      .next (refreshHealth (classesSampled events temp supply power s)) := by
  have frame := classesSampled_frame events temp supply power s
  show execBeaconSample events temp supply power s = _
  rw [execBeaconSample, if_pos ⟨hOn, hGtc⟩, sample_eq]
  generalize classesSampled events temp supply power s = v at *
  have mended : (refreshHealth v).lat.mended = [] := by
    rw [frame]
    exact hMended
  have run : (refreshHealth v).bist.run = none := by
    rw [frame]
    exact hRun
  rw [remapLasting_of_noneMended mended, guardBist_of_noRun run]

end

/-- Settles O50: the sample counts the missed heartbeats, judges the eight classes one after another, each changing its
own lasting bit alone, and lets health follow. -/
theorem beaconSampling : Obligations.BeaconSampling := by
  intro s events temp supply power
  refine ⟨fun h => ⟨s, exec_beaconSample_idle events temp supply power s h, rfl⟩, fun hOn hGtc hMended hRun =>
    ⟨_, exec_beaconSample_due events temp supply power s hOn hGtc hMended hRun, ?_⟩⟩
  have frame := classesSampled_frame events temp supply power s
  have sense := classesSampled_sense events temp supply power s
  have classes := classesSampled_class events temp supply power s
  have judged := judged_classesSampled events temp supply power s
  have hot := classesSampled_hot events temp supply power s
  have low := classesSampled_low events temp supply power s
  generalize classesSampled events temp supply power s = v at *
  have hMark : (refreshHealth v).agree.missMark = (countMissed s).agree.missMark := by
    rw [frame]
    rfl
  refine ⟨by rw [frame]; rfl, fun hSeason hLkp q hq => ?_, ?_⟩
  · rw [hMark]
    exact countMissed_missMark_recent hSeason hLkp hq
  have hBeacon : (refreshHealth v).beacon = v.beacon := rfl
  have hHealth : (refreshHealth v).agree.health =
      if v.beacon.handoverReq then 2 else if v.beacon.lasting ≠ 0 then 1 else 0 := rfl
  rw [hBeacon, hHealth]
  generalize v.beacon = b at *
  have hPeak : b.peak.toNat = max s.beacon.peak.toNat power.toNat := by
    rw [sense]
    show (if _ then _ else _ : U16).toNat = _
    split <;> omega
  refine ⟨congrArg BeaconS.mends sense, congrArg BeaconS.temp sense, congrArg BeaconS.supply sense,
    congrArg BeaconS.power sense, hPeak, (congrArg BeaconS.tempAlert sense :),
    (congrArg BeaconS.supAlert sense :), (congrArg BeaconS.handEn sense :), (congrArg BeaconS.wakeEn sense :),
    (congrArg BeaconS.wake sense :), fun c e he => ?_,
    (congrArg BeaconS.hotAlert sense).trans (runOf_decide _ _),
    (congrArg BeaconS.hotHand sense).trans (runOf_decide _ _),
    (congrArg BeaconS.lowAlert sense).trans (runOf_decide _ _),
    (congrArg BeaconS.lowHand sense).trans (runOf_decide _ _),
    hot, low, ?_, judged.handover, rfl⟩
  · have counted := classes c
    rw [eventCount_countMissed, ← he] at counted
    exact counted
  · rw [judged.alert]
    exact or_congr_right (exists_congr fun c =>
      ⟨fun h => ⟨BitVec.lt_of_getLsbD h.2, h⟩, fun h => h.2⟩)

end Sys2Proof.Machine

/-! PROOFS. Register writes that R336 passes, and the error log and counter controls (R349 to R352). -/

namespace Sys2Proof.Machine

/-- A write that R336 passes reaches its register. -/
theorem regWrite_of_reaches {s : State} {port : Port} {priv : Bool} {off : Nat} (h : Reaches s port priv off)
    (f : State → State) : regWrite s port priv off f = f s := by
  obtain ⟨hp, hw⟩ := h
  have hs : ¬(s.power.season.get = 2 ∧ (!winterAnswers off) = true) := by
    rintro ⟨h2, ha⟩
    rcases hw with hw | hw
    · exact hw h2
    · simp [hw] at ha
  rcases hp with ⟨rfl, hf, hv⟩ | ⟨rfl, hm⟩
  · have hv : ¬(pvMask off ≠ 0 ∧ (!privileged .fbp priv) = true) := by
      rintro ⟨h0, hn⟩
      rcases hv with hv | hv
      · exact h0 hv
      · simp [privileged, hv] at hn
    rw [regWrite, if_neg (by simp [portOpen, hf]), if_neg hv, if_neg hs]
  · rw [regWrite, if_neg (by simp [portOpen, hm]), if_neg (by simp [privileged]), if_neg hs]

theorem entryAt_of_index {s : State} {k : Nat} {e : ErrEntry} (hk : k < 256) (he : s.log.entries[k]? = some e) :
    entryAt s (s.log.oldest + BitVec.ofNat 8 k).toNat = entryBytes e := by
  have hi : ((s.log.oldest + BitVec.ofNat 8 k).toNat + 256 - s.log.oldest.toNat) % 256 = k := by
    rw [BitVec.toNat_add, BitVec.toNat_ofNat]; omega
  simp only [entryAt, hi, he]

theorem entryAt_of_noEntry {s : State} {i : Byte}
    (h : ∀ k : Nat, k < 256 → k < s.log.entries.length → i ≠ s.log.oldest + BitVec.ofNat 8 k) :
    entryAt s i.toNat = List.replicate 32 0 := by
  have hk : (i.toNat + 256 - s.log.oldest.toNat) % 256 < 256 := Nat.mod_lt _ (by decide)
  generalize hd : (i.toNat + 256 - s.log.oldest.toNat) % 256 = k at hk
  have hn : s.log.entries.length ≤ k := by
    by_contra hlt
    refine h k hk (by omega) (BitVec.eq_of_toNat_eq ?_)
    rw [BitVec.toNat_add, BitVec.toNat_ofNat]; omega
  simp only [entryAt, hd, List.getElem?_eq_none hn]

theorem leNat_append (xs ys : List Byte) : leNat (xs ++ ys) = leNat xs + 256 ^ xs.length * leNat ys := by
  induction xs with
  | nil => simp [leNat]
  | cons x t ih => simp only [List.cons_append, leNat, ih, List.length_cons, pow_succ']; ring

/-- The 32 bytes of an entry as one number (R349). -/
theorem leNat_entryBytes (e : ErrEntry) : leNat (entryBytes e) = e.cls.toNat + 2 ^ 8 * (if e.uncorr then 1 else 0) +
    2 ^ 16 * e.source.toNat + 2 ^ 32 * e.count.toNat + 2 ^ 64 * e.first.toNat + 2 ^ 128 * e.last.toNat +
    2 ^ 192 * e.detail.toNat := by
  have h16 : e.source.toNat < 256 ^ 2 := e.source.isLt
  have h32 : e.count.toNat < 256 ^ 4 := e.count.isLt
  have hf : e.first.toNat < 256 ^ 8 := e.first.isLt
  have hl : e.last.toNat < 256 ^ 8 := e.last.isLt
  have hd : e.detail.toNat < 256 ^ 8 := e.detail.isLt
  simp only [entryBytes, leNat_append, leNat_leBytes_of_lt h16, leNat_leBytes_of_lt h32, leNat_leBytes_of_lt hf,
    leNat_leBytes_of_lt hl, leNat_leBytes_of_lt hd, leBytes_length, leNat, List.length_append, List.length_cons,
    List.length_nil]
  cases e.uncorr <;> simp

/-- Each field of an entry, cut out of the 256 bits that ERR_SEL latches (R349, R350). -/
theorem extract_entryBytes (e : ErrEntry) :
    (BitVec.ofNat 256 (leNat (entryBytes e))).extractLsb' 0 8 = e.cls ∧
    (BitVec.ofNat 256 (leNat (entryBytes e))).extractLsb' 8 8 = (if e.uncorr then 1 else 0) ∧
    (BitVec.ofNat 256 (leNat (entryBytes e))).extractLsb' 16 16 = e.source ∧
    (BitVec.ofNat 256 (leNat (entryBytes e))).extractLsb' 32 32 = e.count ∧
    (BitVec.ofNat 256 (leNat (entryBytes e))).extractLsb' 64 64 = e.first ∧
    (BitVec.ofNat 256 (leNat (entryBytes e))).extractLsb' 128 64 = e.last ∧
    (BitVec.ofNat 256 (leNat (entryBytes e))).extractLsb' 192 64 = e.detail := by
  have hu : ((if e.uncorr then 1 else 0 : Byte)).toNat = (if e.uncorr then 1 else 0) := by cases e.uncorr <;> rfl
  have hlt : (if e.uncorr then 1 else 0) < 256 := by cases e.uncorr <;> decide
  rw [leNat_entryBytes]
  obtain ⟨h1, h2, h3, h4, h5, h6⟩ := And.intro e.cls.isLt (And.intro e.source.isLt (And.intro e.count.isLt
    (And.intro e.first.isLt (And.intro e.last.isLt e.detail.isLt))))
  refine ⟨?_, ?_, ?_, ?_, ?_, ?_, ?_⟩ <;>
    (apply BitVec.eq_of_toNat_eq
     simp only [BitVec.extractLsb'_toNat, BitVec.toNat_ofNat, Nat.shiftRight_eq_div_pow, hu]
     omega)

/-- Settles O1: each control reaches its register, and the latched number is the entry's 32 bytes. -/
theorem errorLogAndCounterControls : Obligations.ErrorLogAndCounterControls := by
  intro s port priv
  refine ⟨fun n h => ⟨_, rfl, ?_⟩, fun h => ⟨_, rfl, regWrite_of_reaches h _⟩, fun h => ⟨_, rfl, regWrite_of_reaches h _⟩,
    fun i h => ⟨selectEntry i s, ?_, rfl, fun k e hk he hi => ?_, fun hno => ?_⟩⟩
  · rw [regWrite_of_reaches h, releaseEntries]
    have hmin : (if s.log.entries.length < n.toNat then s.log.entries.length else n.toNat) =
        min n.toNat s.log.entries.length := by split <;> omega
    have hdrop : s.log.entries.drop (min n.toNat s.log.entries.length) = s.log.entries.drop n.toNat := by
      rcases Nat.le_total n.toNat s.log.entries.length with hl | hl
      · rw [min_eq_left hl]
      · rw [min_eq_right hl, List.drop_length, List.drop_eq_nil_of_le hl]
    simp only [hmin, hdrop]
  · have h' : Reaches s port false 0x2010 := ⟨h.1.imp (fun hf => ⟨hf.1, hf.2.1, .inl rfl⟩) id, h.2⟩
    exact congrArg Host.Outcome.next (regWrite_of_reaches h' _)
  · subst hi
    simpa only [selectEntry, entryAt_of_index hk he] using extract_entryBytes e
  · simp only [selectEntry, entryAt_of_noEntry hno]
    decide
end Sys2Proof.Machine

/-! PROOFS. The enable bits of idle functions (R112, R338, R344, R345). -/

namespace Sys2Proof.Machine

/-- A command that is one register write, past R336. -/
theorem next_regWrite_of_reaches {s : State} {port : Port} {priv : Bool} {off : Nat} (h : Reaches s port priv off)
    (f : State → State) : (Host.Outcome.next (regWrite s port priv off f) : Out) = .next (f s) :=
  congrArg _ (regWrite_of_reaches h f)

theorem writeFoldEn_on (s : State) : writeFoldEn s true = { s with
    ctrl.foldEn := V3.all 1
    stat.foldState := if s.stat.foldState = 2 then 0 else s.stat.foldState
    stat.foldAgain := s.stat.foldAgain || decide (s.stat.foldState = 1) } := by
  simp only [writeFoldEn, if_true]
  split
  · rename_i h2
    simp [h2]
  · split
    · rename_i h1
      simp [h1]
    · rename_i h1
      simp only [decide_eq_false h1, Bool.or_false]

theorem stopExchange_of_idle {s : State} (hr : s.exch.reduces = []) (hc : s.exch.compress = none)
    (he : s.ctrl.exchEn.get = 0) : stopExchange s = { s with exch.disabled := true } := by
  simp [stopExchange, hr, hc, he, forEach, settleDisable]

@[simp] theorem V3.get_all {n : Nat} (v : BitVec n) : (V3.all v).get = v := by
  simp [V3.get, V3.all]

/-- Settles O2: each write reaches its enable bit, whose idle owner takes it at once. -/
theorem enableBitsOfIdleFunctions : Obligations.EnableBitsOfIdleFunctions := by
  intro s port priv h
  refine ⟨⟨_, next_regWrite_of_reaches h _, writeFoldEn_on s⟩, fun h0 => ⟨_, next_regWrite_of_reaches h _, ?_⟩,
    fun h1 hs hc => ⟨_, next_regWrite_of_reaches h _, ?_⟩, fun h1 hc => ⟨_, next_regWrite_of_reaches h _, ?_⟩,
    fun hr => ⟨_, next_regWrite_of_reaches h _, ?_⟩, fun h1 hr => ⟨_, next_regWrite_of_reaches h _, ?_⟩,
    fun hc => ⟨_, next_regWrite_of_reaches h _, ?_⟩, fun h1 hr hc => ⟨_, next_regWrite_of_reaches h _, ?_⟩,
    fun h0 => ⟨_, next_regWrite_of_reaches h _, ?_⟩⟩
  · simp [writeFoldEn, h0]
  · simp [writeFoldEn, h1, hs, hc]
  · simp [writeFoldEn, h1, hc]
  · simp [writeApplyEn, hr, bit1]
  · simp [writeApplyEn, h1, hr, bit1]
  · simp [writeExchEn, bit1]
  · simp only [writeExchEn, h1, Bool.false_eq_true, if_false]
    exact stopExchange_of_idle hr hc (V3.get_all _)
  · simp [writeExchEn, h0, bit1]
end Sys2Proof.Machine

/-! PROOFS. Words made of fields, and the fields that a disabled owner alone takes (R147, R334, R337). -/

namespace Sys2Proof.Machine
theorem bit1_eq (on : Bool) : bit1 on = if on then 1 else 0 := rfl

theorem length_eraseDups_le (n : Nat) (l : List Nat) (hn : l.length ≤ n) : l.eraseDups.length ≤ l.length := by
  induction n generalizing l with
  | zero => simp [List.length_eq_zero_iff.1 (Nat.le_zero.1 hn)]
  | succ n ih =>
    cases l with
    | nil => simp
    | cons a t =>
      have hf := List.length_filter_le (fun b => !b == a) t
      have := ih (t.filter fun b => !b == a) (by simp only [List.length_cons] at hn; omega)
      rw [List.eraseDups_cons, List.length_cons, List.length_cons]
      omega

/-- Erasing repeats shortens exactly the lists that repeat. -/
theorem length_eraseDups_lt_iff (l : List Nat) : l.eraseDups.length < l.length ↔ ¬ l.Nodup := by
  induction l with
  | nil => simp
  | cons a t ih =>
    rw [List.eraseDups_cons, List.length_cons, List.length_cons, List.nodup_cons]
    by_cases ha : a ∈ t
    · have hf : (t.filter fun b => !b == a).length < t.length :=
        List.length_filter_lt_length_iff_exists.2 ⟨a, ha, by simp⟩
      have := length_eraseDups_le _ (t.filter fun b => !b == a) le_rfl
      simp only [ha, not_true_eq_false, false_and, not_false_eq_true, iff_true]
      omega
    · have hf : (t.filter fun b => !b == a) = t :=
        List.filter_eq_self.2 fun b hb => by simpa using ne_of_mem_of_not_mem hb ha
      rw [hf, Nat.add_lt_add_iff_right, ih]
      simp [ha]

/-- The four fields of APPLY_MAP in a written word (R147). -/
def mapFields (v : U32) : List Nat := (List.range 4).map fun i => v.toNat / 2 ^ (3 * i) % 8

theorem ofNat_mapField (v : U32) (i : Nat) : BitVec.ofNat 3 (v.toNat / 2 ^ (3 * i) % 8) = v.extractLsb' (3 * i) 3 := by
  apply BitVec.eq_of_toNat_eq
  simp [Nat.shiftRight_eq_div_pow]

/-- The map is refused where a field is above 4 or two fields agree (R147). -/
theorem mapFields_refused_iff (v : U32) :
    ((mapFields v).any (fun p => decide (4 < p)) = true ∨ (mapFields v).eraseDups.length < 4) ↔
      ∃ i j : Fin 4, 4 < v.toNat / 2 ^ (3 * i.val) % 8 ∨
        (i ≠ j ∧ v.toNat / 2 ^ (3 * i.val) % 8 = v.toNat / 2 ^ (3 * j.val) % 8) := by
  have hlen : (mapFields v).eraseDups.length < 4 ↔ ¬ (mapFields v).Nodup := length_eraseDups_lt_iff (mapFields v)
  rw [hlen, mapFields, List.nodup_map_iff_inj_on List.nodup_range]
  simp only [List.any_map, List.any_eq_true, List.mem_range, Function.comp_apply, decide_eq_true_eq, not_forall]
  constructor
  · rintro (⟨i, hi, h⟩ | ⟨i, hi, j, hj, h, hne⟩)
    · exact ⟨⟨i, hi⟩, ⟨i, hi⟩, .inl h⟩
    · exact ⟨⟨i, hi⟩, ⟨j, hj⟩, .inr ⟨fun e => hne (congrArg Fin.val e), h⟩⟩
  · rintro ⟨i, j, h | ⟨hne, h⟩⟩
    · exact .inl ⟨i, i.isLt, h⟩
    · exact .inr ⟨i, i.isLt, j, j.isLt, h, fun e => hne (Fin.ext e)⟩

theorem writeMap_refused {s : State} {v : U32}
    (h : ∃ i j : Fin 4, 4 < v.toNat / 2 ^ (3 * i.val) % 8 ∨
        (i ≠ j ∧ v.toNat / 2 ^ (3 * i.val) % 8 = v.toNat / 2 ^ (3 * j.val) % 8)) :
    writeMap s v = { s with stat.cfgIgnored := true } := if_pos ((mapFields_refused_iff v).2 h)

theorem writeMap_taken {s : State} {v : U32}
    (h : ∀ i j : Fin 4, v.toNat / 2 ^ (3 * i.val) % 8 ≤ 4 ∧
          (i ≠ j → v.toNat / 2 ^ (3 * i.val) % 8 ≠ v.toNat / 2 ^ (3 * j.val) % 8)) :
    writeMap s v = { s with ctrl := { s.ctrl with
      phys0 := V3.all (v.extractLsb' 0 3), phys1 := V3.all (v.extractLsb' 3 3)
      phys2 := V3.all (v.extractLsb' 6 3), phys3 := V3.all (v.extractLsb' 9 3) } } := by
  have ok : ¬((mapFields v).any (fun p => decide (4 < p)) = true ∨ (mapFields v).eraseDups.length < 4) := by
    rw [mapFields_refused_iff]
    rintro ⟨i, j, hb | ⟨hne, hb⟩⟩
    · exact absurd (h i j).1 (by omega)
    · exact (h i j).2 hne hb
  have fields : ∀ i, BitVec.ofNat 3 (v.toNat / 2 ^ (3 * i) % 8) = v.extractLsb' (3 * i) 3 := ofNat_mapField v
  refine (if_neg ok).trans ?_
  have e0 := fields 0; have e1 := fields 1; have e2 := fields 2; have e3 := fields 3
  simp only [Nat.mul_zero, Nat.mul_one, Nat.reduceMul] at e0 e1 e2 e3
  rw [← e0, ← e1, ← e2, ← e3]
  rfl

/-- The lowest field of a word and the fields above it (R335). -/
theorem toNat_word_cons {lo v k : Nat} {t : List (Nat × Nat)} (hv : v * 2 ^ lo < 2 ^ k) (hk : k ≤ 32)
    (ht : 2 ^ k ∣ (word t).toNat) : (word ((lo, v) :: t)).toNat = v * 2 ^ lo + (word t).toNat := by
  obtain ⟨q, hq⟩ := ht
  have hlt : v * 2 ^ lo < 2 ^ 32 := lt_of_lt_of_le hv (Nat.pow_le_pow_right (by decide) hk)
  rw [word, BitVec.toNat_or, toNat_ofNat_of_lt hlt, hq, Nat.or_comm, ← Nat.two_pow_add_eq_or_of_lt hv, Nat.add_comm]

/-- Fields that lie above bit `k`, one after another, the last below bit 32. -/
def FieldsFrom : Nat → List (Nat × Nat) → Prop
  | k, [] => k ≤ 32
  | k, (lo, v) :: t => ∃ w, k ≤ lo ∧ v < 2 ^ w ∧ FieldsFrom (lo + w) t

/-- What such fields add up to. -/
def fieldSum : List (Nat × Nat) → Nat
  | [] => 0
  | (lo, v) :: t => v * 2 ^ lo + fieldSum t

theorem FieldsFrom.le {k : Nat} {fs : List (Nat × Nat)} (h : FieldsFrom k fs) : k ≤ 32 := by
  induction fs generalizing k with
  | nil => exact h
  | cons f t ih =>
    obtain ⟨w, hk, _, ht⟩ := h
    have := ih ht
    omega

/-- Fields that do not overlap add up (R335). -/
theorem toNat_word {fs : List (Nat × Nat)} {k : Nat} (h : FieldsFrom k fs) :
    (word fs).toNat = fieldSum fs ∧ 2 ^ k ∣ (word fs).toNat := by
  induction fs generalizing k with
  | nil => simp [word, fieldSum]
  | cons f t ih =>
    obtain ⟨lo, v⟩ := f
    obtain ⟨w, hk, hv, ht⟩ := h
    obtain ⟨hsum, hdvd⟩ := ih ht
    have hlt : v * 2 ^ lo < 2 ^ (lo + w) := by
      rw [pow_add, Nat.mul_comm]
      exact Nat.mul_lt_mul_of_pos_left hv (Nat.two_pow_pos lo)
    have hw := toNat_word_cons hlt ht.le hdvd
    refine ⟨by rw [hw, hsum, fieldSum], hw ▸ Nat.dvd_add (Dvd.dvd.mul_left (pow_dvd_pow 2 hk) v) ?_⟩
    exact (pow_dvd_pow 2 (by omega)).trans hdvd

theorem toNat_mapWord (c : Ctrl) : (mapWord c).toNat = c.phys0.get.toNat + 8 * c.phys1.get.toNat +
    64 * c.phys2.get.toNat + 512 * c.phys3.get.toNat := by
  have h := (toNat_word (k := 0) (fs := [(0, c.phys0.get.toNat), (3, c.phys1.get.toNat), (6, c.phys2.get.toNat),
    (9, c.phys3.get.toNat)]) ⟨3, by decide, c.phys0.get.isLt, 3, by decide, c.phys1.get.isLt, 3, by decide,
      c.phys2.get.isLt, 3, by decide, c.phys3.get.isLt, by show 12 ≤ 32; decide⟩).1
  simp only [fieldSum] at h
  rw [mapWord]
  omega

/-- A word whose four fields are those in force, its reserved bits left out, is the current value (R147). -/
theorem mapWord_eq_iff (c : Ctrl) (v : U32) : v &&& 0xFFF#32 = mapWord c ↔
    v.extractLsb' 0 3 = c.phys0.get ∧ v.extractLsb' 3 3 = c.phys1.get ∧ v.extractLsb' 6 3 = c.phys2.get ∧
      v.extractLsb' 9 3 = c.phys3.get := by
  have hv : (v &&& 0xFFF#32).toNat = v.toNat % 2 ^ 12 := by
    rw [BitVec.toNat_and]
    exact Nat.and_two_pow_sub_one_eq_mod v.toNat 12
  have h0 := c.phys0.get.isLt; have h1 := c.phys1.get.isLt
  have h2 := c.phys2.get.isLt; have h3 := c.phys3.get.isLt
  simp only [← BitVec.toNat_inj, hv, toNat_mapWord, BitVec.extractLsb'_toNat, Nat.shiftRight_eq_div_pow]
  omega

/-- Settles O3: COMPAT_A and APPLY_MAP go to their owners' rules, and the fields of a written map decide whether it is
refused. -/
theorem fieldsOfDisabledOwners : Obligations.FieldsOfDisabledOwners := by
  intro s port priv
  refine ⟨fun h on => ⟨fun hc => ⟨_, next_regWrite_of_reaches h _, ?_⟩, fun hc hf => ⟨_, next_regWrite_of_reaches h _, ?_⟩,
    fun hc hf hr => ⟨_, next_regWrite_of_reaches h _, ?_⟩⟩, fun h v => ⟨fun ha hs hv => ⟨_, next_regWrite_of_reaches h _, ?_⟩,
    fun ha hs hv => ⟨_, next_regWrite_of_reaches h _, ?_⟩, fun ha hs => ⟨_, next_regWrite_of_reaches h _, ?_⟩⟩⟩
  · exact if_pos hc
  · have running : ¬(fwRunning s = true ∧ (!coreResetRuns s) = true) := fun w => hf (of_decide_eq_true w.1)
    exact (if_neg hc).trans (if_neg running)
  · have running : fwRunning s = true ∧ (!coreResetRuns s) = true := by simp [fwRunning, hf, coreResetRuns, hr]
    exact (if_neg hc).trans (if_pos running)
  · have disabled : applyState s = 3 := by simp [applyState, ha, hs]
    rw [writeApplyMap, if_pos disabled, writeMap_taken hv]
  · have disabled : applyState s = 3 := by simp [applyState, ha, hs]
    rw [writeApplyMap, if_pos disabled, writeMap_refused hv]
  · have idle : applyState s ≠ 3 := by simp [applyState, ha, hs]
    simp only [writeApplyMap, if_neg idle, mapWord_eq_iff, ignoredWrite]
end Sys2Proof.Machine

/-! PROOFS. The latch of TIME_HI (R304, R305). -/

namespace Sys2Proof.Machine

/-- TIME_HI carries the snapshot's word whole (R304, R305). -/
theorem snapWord_timeHi (s : State) : snapWord s 0x7004 = (match find 0x7004 s.time.snap with
    | some w => w
    | none => BitVec.ofNat 32 (s.time.gtc.toNat / 2 ^ 32)) := by
  have hm : snapMask 0x7004 = 0xFFFFFFFF := by decide
  have hl : liveWord s 0x7004 = BitVec.ofNat 32 (s.time.gtc.toNat / 2 ^ 32) := by
    show word [(0, s.time.gtc.toNat / 2 ^ 32)] = _
    simp [word]
  rw [snapWord, hm, hl]
  cases find 0x7004 s.time.snap with
  | none => rfl
  | some w =>
    have hw : w &&& 0xFFFFFFFF#32 = w := BitVec.and_allOnes
    have h0 : ~~~(0xFFFFFFFF : U32) = 0#32 := by decide
    simp only [h0, BitVec.and_zero, BitVec.zero_or]
    exact hw

/-- What a port's read of TIME_HI gives outside Winter (R305). -/
theorem readRegister_timeHi {s : State} (h : s.power.season.get ≠ 2) (port : Port) (priv : Bool) :
    readRegister s port priv 0x7004 = (match port with
      | .fbp => s.time.latchFbp.getD (snapWord s 0x7004)
      | .mgp => s.time.latchMgp.getD (snapWord s 0x7004)
      | .tap => s.time.latchTap.getD (snapWord s 0x7004)
      | .lkp => snapWord s 0x7004) := by
  have awake : ¬(s.power.season.get = 2 ∧ ¬ winterAnswers 0x7004 = true) := fun w => h w.1
  exact (if_neg awake).trans rfl

theorem mayReadTime_iff (s : State) (port : Port) :
    mayReadTime s port = true ↔ portOpen s port = true ∧ s.power.season.get ≠ 2 ∧ ¬(port = .tap ∧ s.fuses.lcs = 1) := by
  simp only [mayReadTime, Bool.and_eq_true, decide_eq_true_eq, Bool.not_eq_true', Bool.and_eq_false_iff,
    decide_eq_false_iff_not, not_and_or, and_assoc]

/-- Settles O4: the port's own latch takes the snapshot's upper half, and TIME_HI answers with it. -/
theorem timeHighLatch : Obligations.TimeHighLatch := by
  intro s port
  refine ⟨fun hp hs => ?_, fun hp => ⟨s, ?_, rfl⟩⟩
  · have may : ¬(!mayReadTime s port) = true := by
      have := (mayReadTime_iff s port).2 ⟨?_, hs, ?_⟩
      · simp [this]
      · rcases hp with ⟨rfl, h⟩ | ⟨rfl, h⟩ | ⟨rfl, h, _⟩ <;> exact h
      · rcases hp with ⟨rfl, _⟩ | ⟨rfl, _⟩ | ⟨rfl, _, h⟩ <;> simp_all
    refine ⟨_, congrArg Host.Outcome.next (if_neg may), ?_⟩
    rcases hp with ⟨rfl, _⟩ | ⟨rfl, _⟩ | ⟨rfl, _⟩
    all_goals
      refine ⟨rfl, by simp, by simp, by simp, fun snap priv => ?_⟩
      rw [readRegister_timeHi (by exact hs)]
      exact snapWord_timeHi s
  · have shut : (!mayReadTime s port) = true := by
      rw [Bool.not_eq_true', Bool.eq_false_iff, Ne, mayReadTime_iff]
      rcases hp with rfl | h | h
      · simp [portOpen]
      · exact fun w => w.2.2 h
      · exact fun w => w.2.1 h
    exact congrArg Host.Outcome.next (if_pos shut)

end Sys2Proof.Machine

/-! PROOFS. Register writes field by field (R12, R237, R336, R346, R347, R350, R353). -/

namespace Sys2Proof.Machine

/-- A write of a register that is no mailbox's and not RST_CTRL. -/
theorem writeRegister_of_reaches {s : State} {port : Port} {priv : Bool} {off : Nat} (h : Reaches s port priv off)
    (ha : off % 4 = 0) (hl : off < 0x1000 ∨ 0x1800 ≤ off) (hr : off ≠ 0x0310) (hw : off < 0x10000) (v : U32) :
    writeRegister s port priv off v = blockWrite off v s := by
  have opened : ¬(!portOpen s port) = true := by
    rcases h.1 with ⟨rfl, hf, _⟩ | ⟨rfl, hm⟩
    · simp [portOpen, hf]
    · simp [portOpen, hm]
  have sized : ¬(!wellSized off 4) = true := by
    have : off + 4 ≤ 0x10000 := by omega
    simp [wellSized, ha, this]
  have none : mailboxAt off = none := dif_neg (by omega)
  simp only [writeRegister, if_neg opened, if_neg sized, none, if_neg hr, regWrite_of_reaches h]

theorem exec_registerWrite_of_reaches {s : State} {port : Port} {priv : Bool} {off : U16}
    (h : Reaches s port priv off.toNat) (ha : off.toNat % 4 = 0) (hl : off.toNat < 0x1000 ∨ 0x1800 ≤ off.toNat)
    (hr : off.toNat ≠ 0x0310) (v : U32) :
    exec (.registerWrite port priv off v) s = .next (blockWrite off.toNat v s) :=
  congrArg Host.Outcome.next (writeRegister_of_reaches h ha hl hr off.isLt v)

/-- A field of a word loses the bits that a mask names (R12). -/
theorem field_and_not {w lo : Nat} (u : BitVec w) (v : U32) :
    BitVec.ofNat 32 (u.toNat * 2 ^ lo) &&& ~~~v = BitVec.ofNat 32 ((u &&& ~~~(v.extractLsb' lo w)).toNat * 2 ^ lo) := by
  apply BitVec.eq_of_getLsbD_eq
  intro i hi
  simp only [BitVec.getLsbD_and, BitVec.getLsbD_not, BitVec.getLsbD_ofNat, hi, Nat.testBit_mul_two_pow,
    BitVec.testBit_toNat, BitVec.getLsbD_extractLsb', decide_true, Bool.true_and]
  by_cases hlo : lo ≤ i
  · rw [Nat.add_sub_cancel' hlo]
    by_cases hw : i - lo < w
    · simp [hw, hlo]
    · simp [hw, BitVec.getLsbD_of_ge _ _ (Nat.le_of_not_lt hw)]
  · simp [hlo]

theorem flag_and_not {lo : Nat} (p : Bool) (v : U32) :
    BitVec.ofNat 32 (bit p * 2 ^ lo) &&& ~~~v = BitVec.ofNat 32 (bit (p && !v.getLsbD lo) * 2 ^ lo) := by
  have h := field_and_not (lo := lo) (BitVec.ofBool p) v
  have e : BitVec.ofBool p &&& ~~~(v.extractLsb' lo 1) = BitVec.ofBool (p && !v.getLsbD lo) := by
    apply BitVec.eq_of_getLsbD_eq
    intro i hi
    obtain rfl : i = 0 := by omega
    simp
  have hb : ∀ q : Bool, (BitVec.ofBool q).toNat = bit q := by decide
  rwa [e, hb, hb] at h

/-- RST_CAUSE loses the bits written as ones (R347). -/
theorem causeWord_clearCause (v : U32) (s : State) : causeWord (clearCause v s).rst = causeWord s.rst &&& ~~~v := by
  have h0 : (0 : U32) &&& ~~~v = 0 := BitVec.zero_and
  simp only [causeWord, word, clearCause, BitVec.and_or_distrib_right, field_and_not, flag_and_not, h0]

theorem liveWord_bcnCfg (s : State) : liveWord s 0x5040 = word [(0, s.beacon.tempAlert.toNat),
    (8, s.beacon.tempHand.toNat), (16, s.beacon.supAlert.toNat), (24, s.beacon.supHand.toNat)] := by
  have none : mailboxAt 0x5040 = none := by decide
  simp only [liveWord, none]
  simp [blockWord]

theorem toNat_word_bytes (a b c d : Byte) : (word [(0, a.toNat), (8, b.toNat), (16, c.toNat), (24, d.toNat)]).toNat =
    a.toNat + 2 ^ 8 * b.toNat + 2 ^ 16 * c.toNat + 2 ^ 24 * d.toNat := by
  have fits : FieldsFrom 0 [(0, a.toNat), (8, b.toNat), (16, c.toNat), (24, d.toNat)] :=
    ⟨8, by decide, a.isLt, 8, by decide, b.isLt, 8, by decide, c.isLt, 8, by decide, d.isLt, by unfold FieldsFrom; decide⟩
  rw [(toNat_word fits).1]
  simp only [fieldSum]
  omega

/-- BCN_CFG reads back as written (R237). -/
theorem liveWord_writeBcnCfg (v : U32) (s : State) : liveWord (writeBcnCfg v s) 0x5040 = v := by
  apply BitVec.eq_of_toNat_eq
  rw [liveWord_bcnCfg, toNat_word_bytes]
  simp only [writeBcnCfg, BitVec.extractLsb'_toNat, Nat.shiftRight_eq_div_pow]
  have := v.isLt
  omega

/-- Settles O5: each offset names the register whose fields take the write. -/
theorem registerWriteFields : Obligations.RegisterWriteFields := by
  intro s port priv v
  refine ⟨fun h => ⟨_, exec_registerWrite_of_reaches (off := 0x0200) h rfl (by decide) (by decide) v, rfl⟩,
    fun h => ⟨_, exec_registerWrite_of_reaches (off := 0x0300) h rfl (by decide) (by decide) v, rfl, rfl,
      causeWord_clearCause v s⟩,
    fun h => ⟨_, exec_registerWrite_of_reaches (off := 0x2010) h rfl (by decide) (by decide) v, ?_⟩,
    fun h => ⟨_, exec_registerWrite_of_reaches (off := 0x4010) h rfl (by decide) (by decide) v, ?_⟩,
    fun h => ⟨_, exec_registerWrite_of_reaches (off := 0x5040) h rfl (by decide) (by decide) v, rfl,
      liveWord_writeBcnCfg v s⟩,
    fun h => ⟨_, exec_registerWrite_of_reaches (off := 0x5044) h rfl (by decide) (by decide) v, rfl⟩,
    fun off hoff h => ?_⟩
  · rfl
  · rfl
  · simp only [List.mem_cons, List.not_mem_nil, or_false] at hoff
    rcases hoff with rfl | rfl | rfl | rfl | rfl | rfl | rfl | rfl | rfl | rfl | rfl | rfl
    all_goals exact ⟨_, exec_registerWrite_of_reaches h rfl (by decide) (by decide) v, rfl⟩
end Sys2Proof.Machine

/-! PROOFS. Reserved offsets and refused accesses (R281, R335, R336, R351). -/

namespace Sys2Proof.Machine

/-! ### Offsets that name no register (R335) -/

theorem blockWrite_reserved {off : Nat} (h : namedOffset off = false) (v : U32) (s : State) : blockWrite off v s = s := by
  unfold blockWrite
  split
  case h_16 => rfl
  all_goals exact absurd h (by decide)

theorem pvMask_reserved {off : Nat} (h : namedOffset off = false) : pvMask off = 0 := by
  unfold pvMask
  split
  case h_11 => rfl
  all_goals exact absurd h (by decide)

/-- What a reserved offset is not: a mailbox's register, or a place of the log, the counters, the remap table or the
buckets. -/
theorem reserved_ranges {off : Nat} (h : namedOffset off = false) :
    ¬((0x1000 ≤ off ∧ off < 0x1800) ∧ off % 0x100 < 0x8C) ∧ ¬(0x2020 ≤ off ∧ off < 0x2080) ∧
      ¬(0x3010 ≤ off ∧ off < 0x306C) ∧ ¬(0x4020 ≤ off ∧ off < 0x4040) ∧ ¬(0x5020 ≤ off ∧ off < 0x5038) := by
  simp only [namedOffset, Bool.or_eq_false_iff, Bool.and_eq_false_iff, decide_eq_false_iff_not] at h
  obtain ⟨⟨⟨⟨⟨_, hmb⟩, hlog⟩, hcnt⟩, hlat⟩, hbkt⟩ := h
  exact ⟨fun w => hmb.elim (fun q => q w.1) (fun q => q w.2), hlog, hcnt, hlat, hbkt⟩

theorem blockWord_reserved {off : Nat} (h : namedOffset off = false) (s : State) : blockWord s off = 0 := by
  obtain ⟨-, hlog, hcnt, hlat, hbkt⟩ := reserved_ranges h
  unfold blockWord
  rw [if_neg (by omega), if_neg (by omega), if_neg (by omega), if_neg (by omega), if_neg (by omega)]
  split
  case h_47 => rfl
  all_goals exact absurd h (by decide)

theorem mailboxAt_eq_some {off : Nat} {m : Fin 8 × Nat} (h : mailboxAt off = some m) :
    (0x1000 ≤ off ∧ off < 0x1800) ∧ m.2 = off % 0x100 := by
  unfold mailboxAt at h
  split at h
  · rename_i hr
    exact ⟨hr, by rw [← Option.some.inj h]⟩
  · exact absurd h (by simp)

theorem mailboxAt_eq_none {off : Nat} (h : mailboxAt off = none) : ¬(0x1000 ≤ off ∧ off < 0x1800) := by
  intro hr
  rw [mailboxAt, dif_pos hr] at h
  exact absurd h (by simp)

theorem liveWord_reserved {off : Nat} (h : namedOffset off = false) (s : State) : liveWord s off = 0 := by
  obtain ⟨hmb, -⟩ := reserved_ranges h
  unfold liveWord
  split
  · rename_i m hm
    obtain ⟨hr, ho⟩ := mailboxAt_eq_some hm
    have ho' : 0x8C ≤ m.2 := by rw [ho]; by_contra w; exact hmb ⟨hr, by omega⟩
    unfold mailboxWord
    dsimp only
    rw [if_neg (by omega), if_neg (by omega), if_neg (by omega), if_neg (by omega)]
  · exact blockWord_reserved h s

theorem snapMask_reserved {off : Nat} (h : namedOffset off = false) : snapMask off = 0 := by
  obtain ⟨hmb, hlog, hcnt, hlat, hbkt⟩ := reserved_ranges h
  unfold snapMask
  split
  · rename_i m hm
    obtain ⟨hr, ho⟩ := mailboxAt_eq_some hm
    have ho' : 0x8C ≤ m.2 := by rw [ho]; by_contra w; exact hmb ⟨hr, by omega⟩
    rw [if_neg (by omega), if_neg (by omega)]
  · rw [if_neg (by omega), if_neg (by omega), if_neg (by omega), if_neg (by omega)]
    split
    case h_31 => rfl
    all_goals exact absurd h (by decide)

theorem snapWord_reserved {off : Nat} (h : namedOffset off = false) (s : State) : snapWord s off = 0 := by
  simp only [snapWord, liveWord_reserved h, snapMask_reserved h]
  split
  · rw [show ((0 : U32) &&& ~~~(0 : U32)) = 0 from rfl]
    exact (congrArg (0 ||| ·) BitVec.and_zero).trans rfl
  · rfl

theorem readRegister_reserved {off : Nat} (h : namedOffset off = false) (s : State) (port : Port) (priv : Bool) :
    readRegister s port priv off = 0 := by
  have hi : off ≠ 0x7004 := by
    rintro rfl
    exact absurd h (by decide)
  unfold readRegister
  dsimp only
  rw [if_neg hi, snapWord_reserved h]
  repeat' split
  all_goals simp

/-- A write of an aligned offset that names no register changes nothing (R335). -/
theorem writeRegister_reserved {off : Nat} (h : namedOffset off = false) (ha : off % 4 = 0) (hw : off < 0x8000)
    (s : State) (port : Port) (priv : Bool) (v : U32) : writeRegister s port priv off v = s := by
  obtain ⟨hmb, -⟩ := reserved_ranges h
  have sized : ¬(!wellSized off 4) = true := by
    have : off + 4 ≤ 0x10000 := by omega
    simp [wellSized, ha, this]
  have hr : off ≠ 0x0310 := by
    rintro rfl
    exact absurd h (by decide)
  unfold writeRegister
  split
  · rfl
  · split
    · rename_i m hm
      obtain ⟨hr, ho⟩ := mailboxAt_eq_some hm
      have ho' : 0x8C ≤ m.2 := by rw [ho]; by_contra w; exact hmb ⟨hr, by omega⟩
      exact if_pos (.inr (.inr ho'))
    · rw [regWrite, pvMask_reserved h, blockWrite_reserved h]
      simp

/-! ### Refused accesses (R281, R336) -/

/-- A report of a class that raises no event and that the log has no entry of is one fresh entry, and nothing else
(R349, R372). -/
theorem logReport_quiet_fresh {s : State} {cls : Nat} (quiet : classUncorr cls = false)
    (n : s.log.entries.length < 256) (h : ∀ e ∈ s.log.entries, e.cls ≠ BitVec.ofNat 8 cls) (src : U16) (detail : Nat) :
    logReport s cls src detail = { s with log := { s.log with entries := s.log.entries ++
      [{ cls := BitVec.ofNat 8 cls, uncorr := false, source := src, count := 1, first := s.time.gtc, last := s.time.gtc,
         detail := BitVec.ofNat 64 detail }] } } := by
  simp only [logReport, newestEntry_none _ src 0 _ h, n, quiet, if_true, Bool.false_eq_true, if_false]

theorem logAccess_fresh {s : State} (n : s.log.entries.length < 256) (h : ∀ e ∈ s.log.entries, e.cls ≠ 10) (port : Port)
    (off : Nat) : ∃ src, logAccess s port off = { s with log := { s.log with entries := s.log.entries ++
      [{ cls := 10, uncorr := false, source := src, count := 1, first := s.time.gtc, last := s.time.gtc,
         detail := BitVec.ofNat 64 off }] } } :=
  ⟨_, logReport_quiet_fresh (by decide) n h _ off⟩

/-- A write of a privileged register by a master without privilege at FBP is refused (R336). -/
theorem regWrite_unprivileged {s : State} {off : Nat} (hf : s.ports.fbp = true) (hp : pvMask off ≠ 0) (f : State → State) :
    regWrite s .fbp false off f = logAccess s .fbp off := by
  have opened : ¬((!portOpen s .fbp) = true ∨ Port.fbp = .tap) := by simp [portOpen, hf]
  rw [regWrite, if_neg opened, if_pos ⟨hp, rfl⟩]

theorem writeRegister_unprivileged {s : State} {off : Nat} (hf : s.ports.fbp = true) (hp : pvMask off ≠ 0)
    (ha : off % 4 = 0) (hl : off < 0x1000 ∨ 0x1800 ≤ off) (hr : off ≠ 0x0310) (hw : off < 0x10000) (v : U32) :
    writeRegister s .fbp false off v = logAccess s .fbp off := by
  have opened : ¬(!portOpen s .fbp) = true := by simp [portOpen, hf]
  have sized : ¬(!wellSized off 4) = true := by
    have : off + 4 ≤ 0x10000 := by omega
    simp [wellSized, ha, this]
  have none : mailboxAt off = none := dif_neg (by omega)
  simp only [writeRegister, if_neg opened, if_neg sized, none, if_neg hr, regWrite_unprivileged hf hp]

/-- Every command of the list is refused at the register it names. -/
theorem exec_unprivileged {s : State} {c : Instr} (hf : s.ports.fbp = true)
    (hc : c ∈ [.capEn .fbp false true, .capEn .fbp false false, .foldEn .fbp false true, .foldEn .fbp false false,
         .applyEn .fbp false true, .applyEn .fbp false false, .exchEn .fbp false true, .exchEn .fbp false false,
         .compatA .fbp false true, .compatA .fbp false false, .clearOvf .fbp false, .cntClear .fbp false] ∨
      (∃ n, c = .errRel .fbp false n) ∨ (∃ v, c = .applyMapWrite .fbp false v) ∨
      (∃ v off, c = .registerWrite .fbp false off v ∧
        off ∈ [0x0100, 0x0140, 0x0300, 0x2004, 0x2008, 0x3000, 0x4010, 0x5040, 0x5044])) :
    ∃ off, exec c s = .next (logAccess s .fbp off) := by
  have refused (off : Nat) (hp : pvMask off ≠ 0) (f : State → State) :
      (Host.Outcome.next (regWrite s .fbp false off f) : Out) = .next (logAccess s .fbp off) :=
    congrArg _ (regWrite_unprivileged hf hp f)
  rcases hc with hc | ⟨n, rfl⟩ | ⟨v, rfl⟩ | ⟨v, off, rfl, ho⟩
  · simp only [List.mem_cons, List.not_mem_nil, or_false] at hc
    rcases hc with rfl | rfl | rfl | rfl | rfl | rfl | rfl | rfl | rfl | rfl | rfl | rfl
    all_goals exact ⟨_, refused _ (by decide) _⟩
  · exact ⟨_, refused _ (by decide) _⟩
  · exact ⟨_, refused _ (by decide) _⟩
  · simp only [List.mem_cons, List.not_mem_nil, or_false] at ho
    rcases ho with rfl | rfl | rfl | rfl | rfl | rfl | rfl | rfl | rfl
    all_goals exact ⟨_, congrArg _ (writeRegister_unprivileged hf (by decide) rfl (by decide) (by decide) (by decide) v)⟩

/-- Settles O6: a reserved offset has no register behind it, and a refused access is one report in the error log. -/
theorem accessesThatWriteNothing : Obligations.AccessesThatWriteNothing := by
  refine ⟨fun s port priv off v hw => ⟨fun ha hn => ⟨⟨s, ?_, rfl⟩, readRegister_reserved hn s port priv⟩,
    fun ha ho he => ?_⟩, fun s c hc hf hl hcls => ?_⟩
  · exact congrArg Host.Outcome.next (writeRegister_reserved hn ha hw s port priv v)
  · have opened : ¬(!portOpen s port) = true := by simp [ho]
    have sized : (!wellSized off.toNat 4) = true := by simp [wellSized, ha]
    obtain ⟨src, hlog⟩ := logAccess_fresh (s := s) (by simp [he]) (by simp [he]) port off.toNat
    refine ⟨_, congrArg Host.Outcome.next ((if_neg opened).trans ((if_pos sized).trans hlog)), rfl, rfl, _,
      congrArg (· ++ _) he, rfl, rfl, rfl, BitVec.ofNat_toNat 64 off⟩
  · obtain ⟨off, hx⟩ := exec_unprivileged hf hc
    obtain ⟨src, hlog⟩ := logAccess_fresh hl hcls .fbp off
    rw [hlog] at hx
    exact ⟨_, hx, rfl, _, rfl, rfl, rfl, rfl, rfl, rfl⟩
end Sys2Proof.Machine

/-! PROOFS. The step, and the state after a power-on reset (R341). -/

namespace Sys2Proof.Machine

theorem sealIn_next (s : State) (m : SealMsg) (f : State → State) : ∃ t, sealIn s m f = .next t := ⟨_, rfl⟩

theorem sealInEither_next (s : State) (m : SealMsg) (f : State → State) : ∃ t, sealInEither s m f = .next t := by
  unfold sealInEither
  split
  · exact ⟨_, rfl⟩
  · exact sealIn_next s m f

/-- Every row's meaning ends in a next state: a seal message of a forming cove by its own choice of side, every other
row as it is written. -/
theorem exec_next (c : Instr) (s : State) : ∃ t, exec c s = .next t := by
  cases c with
  | markPart m => exact sealInEither_next s m _
  | ready m => exact sealInEither_next s m _
  | report m => exact sealInEither_next s m _
  | _ => exact ⟨_, rfl⟩

/-- Settles O58: the step's own two cases, and the fact that no row faults or is refused. -/
theorem stepRunsTheFrontCommand : Obligations.StepRunsTheFrontCommand := by
  refine ⟨fun s c rest h => ?_, exec_next, fun s h => ?_⟩
  · rw [step, h]
  · rw [step, h]

/-- The register words that a power-on reset leaves (R341). -/
theorem liveWord_reset : liveWord State.reset 0x0100 = 0xF ∧ liveWord State.reset 0x0140 = 0o3210 ∧
    liveWord State.reset 0x0200 = 0 ∧ liveWord State.reset 0x0210 = 0 ∧ liveWord State.reset 0x0300 = 1 ∧
    liveWord State.reset 0x5000 = 0 ∧ liveWord State.reset 0x5040 = 0x888C6E69 ∧ liveWord State.reset 0x5044 = 3 ∧
    liveWord State.reset 0x5048 = 0 := by decide +kernel

theorem count_reset : ∀ i : Fin 23, State.reset.cnt.get i = 0 := by decide +kernel

theorem box_reset : ∀ mb : Fin 8, (box State.reset mb).busy = false ∧ (box State.reset mb).done = false ∧
    (box State.reset mb).count = 0 := by decide +kernel

/-- Settles O60: each register read off the reset state, and memory without a listed byte. -/
theorem resetLeavesTheTablesValues : Obligations.ResetLeavesTheTablesValues := by
  obtain ⟨ctrl, map, stat, tide, cause, power, cfg, ctl, bcn⟩ := liveWord_reset
  exact ⟨ctrl, map, stat, tide, cause, power, cfg, ctl, bcn, rfl, rfl, rfl, rfl, rfl, rfl, rfl, rfl, rfl, rfl, rfl,
    count_reset, box_reset, rfl, Mem.reset_wf, fun a => rfl, rfl⟩
end Sys2Proof.Machine

/-! PROOFS. The refusal statements (R313, R322, R324) refuted: a peer row's own completion touches mailbox 7. -/

namespace Sys2Proof.Machine

/-- Firmware runs in Summer with FBP and the agreement unit up, and no job. -/
def serving : State := { State.reset with
  stat.fwState := V3.all 2
  power.on := true
  ports.fbp := true }

/-- As `serving`, with a peer command answered in mailbox 7 that the agreement unit has not yet cleared. -/
def peerAnswered : State := setBox serving 7 { box serving 7 with done := true }

/-- A PEER_CLAIM with no field set. -/
def bareClaim : Line := mkLine [(0, 1, 0x20)]

theorem prompt_peerAnswered : Prompt peerAnswered 0 0x20 bareClaim := by decide +kernel

/-- Refutes O7: a PEER_CLAIM at mailbox 0 is refused, but as after every peer row the agreement unit then polls mailbox 7
and clears its DONE, so another mailbox changes. -/
theorem not_commandOutsidePermissionIsRefused : ¬ Obligations.CommandOutsidePermissionIsRefused := by
  intro h
  obtain ⟨t, ht, -, -, others, -⟩ := h peerAnswered (.peerClaim (.issue 0 .fbp false bareClaim)) 0x20 0 false bareClaim rfl
    prompt_peerAnswered (by decide)
  obtain rfl := Host.Outcome.next.inj ht
  have same := congrArg Mailbox.done (others 7 (by decide))
  exact absurd same (by decide +kernel)

theorem prompt_serving : Prompt serving 7 0x20 bareClaim := by decide +kernel

/-- Refutes O8: a PEER_CLAIM that the job state does not accept is answered in mailbox 7, whose DONE the agreement unit
clears in the same step. -/
theorem not_commandIsCheckedBeforeItRuns : ¬ Obligations.CommandIsCheckedBeforeItRuns := by
  intro h
  obtain ⟨-, wrongState, -⟩ := h serving (.peerClaim (.issue 7 .lkp false bareClaim)) 0x20 7 false bareClaim
    ⟨.peer, true, true, [(8, 2), (10, 1), (11, 1), (12, 4), (16, 4), (24, 16)]⟩ rfl prompt_serving (by decide) rfl
  obtain ⟨t, ht, ⟨-, -, done, -⟩, -⟩ := wrongState (by decide +kernel) rfl (by decide) (by decide)
  obtain rfl := Host.Outcome.next.inj ht
  exact absurd done (by decide +kernel)

end Sys2Proof.Machine

/-! PROOFS. GO, ACK and OVERRUN of the mailbox registers (R314, R315, R318, R319). -/

namespace Sys2Proof.Machine

/-! ### A mailbox's registers (R314, R315) -/

theorem boundPort_eq_portOf (mb : Fin 8) : boundPort mb = portOf mb := by revert mb; decide

/-- The mailbox is open to a port: it is bound to it and answers, and firmware runs outside Winter (R274, R314). -/
structure BoxOpen (s : State) (port : Port) (mb : Fin 8) : Prop where
  bound : port = boundPort mb
  opened : portOpen s port = true
  running : fwRunning s = true
  awake : s.power.season.get ≠ 2

section
variable {s : State} {port : Port} {mb : Fin 8} (h : BoxOpen s port mb) (priv : Bool)
include h

theorem mailboxWrite_command {j : Nat} (hj : j < 16) (v : U32) :
    mailboxWrite s port priv mb (4 * j) v = writeCmdWord s mb j v := by
  have reach : ¬((!portOpen s port) = true ∨ s.power.season.get = 2 ∨ 0x8C ≤ 4 * j) := by
    rintro (w | w | w)
    · simp [h.opened] at w
    · exact h.awake w
    · omega
  have bound : ¬(!mayWriteMailbox port mb) = true := by simp [mayWriteMailbox, h.bound]
  have running : ¬(!fwRunning s) = true := by simp [h.running]
  rw [mailboxWrite, if_neg reach, if_neg (by omega), if_neg bound, if_neg running, if_pos (by omega),
    Nat.mul_div_cancel_left j (by decide)]

theorem mailboxWrite_control (v : U32) :
    mailboxWrite s port priv mb 0x84 v = writeMbCtrl s mb port (privileged port priv) v := by
  have reach : ¬((!portOpen s port) = true ∨ s.power.season.get = 2 ∨ 0x8C ≤ 0x84) := by
    rintro (w | w | w)
    · simp [h.opened] at w
    · exact h.awake w
    · omega
  have bound : ¬(!mayWriteMailbox port mb) = true := by simp [mayWriteMailbox, h.bound]
  have running : ¬(!fwRunning s) = true := by simp [h.running]
  rw [mailboxWrite, if_neg reach, if_neg (by decide), if_neg bound, if_neg running, if_neg (by decide), if_pos rfl]

theorem mailboxWrite_status {v : U32} (hv : v.getLsbD 11 = true) :
    mailboxWrite s port priv mb 0x80 v = setBox s mb { box s mb with overrun := false } := by
  have reach : ¬((!portOpen s port) = true ∨ s.power.season.get = 2 ∨ 0x8C ≤ 0x80) := by
    rintro (w | w | w)
    · simp [h.opened] at w
    · exact h.awake w
    · omega
  have may : ¬(!mayClearOverrun port mb) = true := by simp [mayClearOverrun, h.bound]
  rw [mailboxWrite, if_neg reach, if_pos rfl, if_neg may, if_pos ⟨h.running, hv⟩]

/-- A register write in a mailbox's window. -/
theorem exec_registerWrite_mailbox {off : U16} {o : Nat} (ho : off.toNat = 0x1000 + 0x100 * mb.val + o) (h4 : o % 4 = 0)
    (h100 : o < 0x100) (v : U32) :
    exec (.registerWrite port priv off v) s = .next (mailboxWrite s port priv mb o v) := by
  have hmb := mb.isLt
  have opened : ¬(!portOpen s port) = true := by simp [h.opened]
  have sized : ¬(!wellSized off.toNat 4) = true := by
    have : off.toNat % 4 = 0 ∧ off.toNat + 4 ≤ 0x10000 := by omega
    simp [wellSized, this]
  have at_ : mailboxAt off.toNat = some (mb, o) := by
    have inside : 0x1000 ≤ off.toNat ∧ off.toNat < 0x1800 := by omega
    rw [mailboxAt, dif_pos inside]
    congr 2
    · apply Fin.ext
      show (off.toNat - 0x1000) / 0x100 = mb.val
      omega
    · omega
  show (Host.Outcome.next (writeRegister s port priv off.toNat v) : Out) = _
  simp only [writeRegister, if_neg opened, if_neg sized, at_]

end

/-! ### One box changes, and only it -/

theorem otherBoxes_setBox (s : State) (mb : Fin 8) (b : Mailbox) : OtherBoxes s (setBox s mb b) mb :=
  fun m hm => box_setBox_other s mb m b hm

theorem fld_lt (c : Line) (off size : Nat) : fld c off size < 2 ^ (8 * size) := BitVec.isLt _

/-- The words of a line once one of them is written (R315). -/
theorem lineWord_put (l : Line) (v : U32) {j k : Nat} (hj : j < 16) (hk : k < 16) :
    lineWord ((l &&& ~~~((BitVec.ofNat 512 (2 ^ 32 - 1)) <<< (32 * j))) ||| (v.zeroExtend 512 <<< (32 * j))) k =
      if k = j then v else lineWord l k := by
  apply BitVec.eq_of_getLsbD_eq
  intro i hi
  have h512 : 32 * k + i < 512 := by omega
  have mask : ((BitVec.ofNat 512 (2 ^ 32 - 1)) <<< (32 * j)).getLsbD (32 * k + i) = decide (k = j) := by
    rw [BitVec.getLsbD_shiftLeft, BitVec.getLsbD_ofNat, Nat.testBit_two_pow_sub_one]
    by_cases e : k = j
    · subst e
      simp [h512, hi]
      omega
    · have : ¬(32 * k + i - 32 * j < 32 ∧ 32 * j ≤ 32 * k + i) := by omega
      rw [decide_eq_false e]
      simp only [h512, decide_true, Bool.true_and, Bool.and_eq_false_iff, Bool.not_eq_false', decide_eq_true_eq,
        decide_eq_false_iff_not]
      omega
  have value : (v.zeroExtend 512 <<< (32 * j)).getLsbD (32 * k + i) = (decide (k = j) && v.getLsbD i) := by
    rw [BitVec.getLsbD_shiftLeft]
    simp only [h512, decide_true, Bool.true_and, BitVec.getLsbD_setWidth]
    by_cases e : k = j
    · subst e
      simp [hi, show i < 512 by omega]
    · rw [decide_eq_false e, Bool.false_and]
      rcases Nat.lt_or_gt_of_ne e with hlt | hgt
      · rw [decide_eq_true (by omega : 32 * k + i < 32 * j)]
        rfl
      · rw [BitVec.getLsbD_of_ge v _ (by omega : 32 ≤ 32 * k + i - 32 * j), Bool.and_false, Bool.and_false]
  rw [lineWord, BitVec.getLsbD_extractLsb', BitVec.getLsbD_or, BitVec.getLsbD_and, BitVec.getLsbD_not, mask, value]
  by_cases e : k = j
  · simp [e, hi]
  · simp [e, hi, h512, lineWord]

/-- GO alone takes the command of the command area (R318). -/
theorem writeMbCtrl_go (s : State) (mb : Fin 8) (port : Port) (priv : Bool) :
    writeMbCtrl s mb port priv 1 = takeCmd mb port priv (box s mb).cmd s := rfl

/-- Settles O9: each offset of the mailbox's window reaches the operation that R314 gives it. -/
theorem mailboxGoAckAndOverrun : Obligations.MailboxGoAckAndOverrun := by
  intro s mb port priv hport hmb hfbp hmgp hfw hseason
  have open_ : BoxOpen s port mb := by
    refine ⟨hport.trans (boundPort_eq_portOf mb).symm, ?_, decide_eq_true hfw, hseason⟩
    subst hport
    unfold portOf
    split
    · exact hfbp ‹_›
    · rw [if_pos (by omega)]
      exact hmgp (by omega)
  refine ⟨⟨_, congrArg Host.Outcome.next (mailboxWrite_control open_ priv 2), box_setBox_same _ _ _,
    otherBoxes_setBox s mb _, rfl⟩, fun off ho => ⟨fun hb => ?_, fun hb he h9 => ?_⟩, fun off j v hj ho => ⟨fun hb => ?_, fun hb => ?_⟩, fun off ho => ?_⟩
  · refine ⟨setBox s mb { box s mb with overrun := true }, ?_, box_setBox_same _ _ _, otherBoxes_setBox s mb _, rfl⟩
    rw [exec_registerWrite_mailbox open_ priv (o := 0x84) (by omega) rfl (by decide), mailboxWrite_control open_]
    exact congrArg Host.Outcome.next (takeCmd_busy mb port _ _ s hb)
  · obtain ⟨e, he⟩ := he
    have go := exec_registerWrite_mailbox open_ priv (off := off) (o := 0x84) (by omega) rfl (by decide) 1
    rw [mailboxWrite_control open_, writeMbCtrl_go] at go
    have same := box_setBox_same s mb (takeBox (box s mb) (box s mb).cmd port (privileged port priv))
    refine ⟨_, go.trans (congrArg Host.Outcome.next (takeCmd_free mb port _ _ s e he h9 hb)), ?_⟩
    exact ⟨(congrArg Mailbox.busy same :), (congrArg Mailbox.done same :), (congrArg Mailbox.cmd same :),
      (congrArg Mailbox.rsp same :), (congrArg Mailbox.count same :), (congrArg (·.op.toNat) same).trans (toNat_ofNat_of_lt (fld_lt _ 0 1)),
      (congrArg (·.tag.toNat) same).trans (toNat_ofNat_of_lt (fld_lt _ 2 2)), otherBoxes_setBox s mb _, rfl⟩
  · refine ⟨setBox s mb { box s mb with overrun := true }, ?_, box_setBox_same _ _ _, otherBoxes_setBox s mb _, rfl⟩
    rw [exec_registerWrite_mailbox open_ priv ho (by omega) (by omega), mailboxWrite_command open_ priv hj]
    exact congrArg Host.Outcome.next (if_pos hb)
  · have write := exec_registerWrite_mailbox open_ priv ho (by omega) (by omega) v
    rw [mailboxWrite_command open_ priv hj] at write
    refine ⟨_, write.trans (congrArg Host.Outcome.next (if_neg (by simp [hb]))), ?_, ?_, ?_, otherBoxes_setBox s mb _, rfl⟩
    · rw [box_setBox_same]
    · rw [box_setBox_same]
      exact (lineWord_put _ v hj hj).trans (if_pos rfl)
    · intro k hk hne
      rw [box_setBox_same]
      exact (lineWord_put _ v hj hk).trans (if_neg hne)
  · refine ⟨setBox s mb { box s mb with overrun := false }, ?_, box_setBox_same _ _ _, otherBoxes_setBox s mb _, rfl⟩
    rw [exec_registerWrite_mailbox open_ priv (o := 0x80) (by omega) rfl (by decide), mailboxWrite_status open_ priv (by decide)]
end Sys2Proof.Machine

/-! PROOFS. COVE_RELEASE refuted: it writes the merged lines that the capture queue holds (R85, R280). -/

namespace Sys2Proof.Machine

/-- Firmware runs in Summer, a protected region of one near bay stands at address 0, and the capture queue holds a merged
line whose narrow write still waits to be absorbed. -/
def mergeQueued : State := { State.reset with
  stat.fwState := V3.all 2
  ports.mgp := true
  job.state := 3
  tier.regions := [⟨0, true, 0, 0, 1, 0, 0, 0, 1⟩]
  cap.queue := [{ bay := 0, line := 0, old := 0, new := 1, tags := [0], masters := [] }] }

/-- A COVE_RELEASE with no field set. -/
def coveReleaseCmd : Line := mkLine [(0, 1, 0x1C)]

theorem handled_mergeQueued : Handled mergeQueued 5 false 0x1C coveReleaseCmd := by
  refine ⟨by decide +kernel, by decide, fun e he => ?_, rfl, by decide +kernel, rfl⟩
  cases he
  decide +kernel

/-- Refutes O11: COVE_RELEASE completes the merges of the capture queue (R85, R280), so the merged line of a queue that is
not empty is written and memory is not as before. -/
theorem not_covesFormAndAreReleased : ¬ Obligations.CovesFormAndAreReleased := by
  intro h
  obtain ⟨-, -, -, release⟩ := h mergeQueued 5 false coveReleaseCmd
  obtain ⟨-, -, done⟩ := release handled_mergeQueued
  obtain ⟨t, ht, -, -, -, -, -, -, -, -, -, -, -, -, -, -, mem, -⟩ := done (by decide) (by decide) rfl rfl
  obtain rfl := Host.Outcome.next.inj ht
  exact absurd (congrArg (Mem.byte · 0) mem) (by decide +kernel)

end Sys2Proof.Machine

/-! PROOFS. Every command keeps the memory in its canonical form. -/

namespace Sys2Proof.Machine

@[simp] theorem mem_ite (c : Prop) [Decidable c] (s t : State) :
    (if c then s else t).mem = if c then s.mem else t.mem := by split <;> rfl

@[simp] theorem wf_ite (c : Prop) [Decidable c] (m n : Mem) : (if c then m else n).wf = if c then m.wf else n.wf := by
  split <;> rfl

/-- A command that ends in a next state ends with the memory in its canonical form. -/
def FormKept : Out → Prop
  | .next t => t.mem.wf = true
  | _ => True

@[simp] theorem formKept_next (t : State) : FormKept (.next t) ↔ t.mem.wf = true := Iff.rfl

@[simp] theorem formKept_ite (c : Prop) [Decidable c] (a b : Out) :
    FormKept (if c then a else b) ↔ if c then FormKept a else FormKept b := by
  split <;> rfl

@[simp] theorem mem_write_wf (m : Mem) (a : Nat) (bs : List Byte) (h : m.wf = true) : (m.write a bs).wf = true := m.write_wf a bs h

@[simp] theorem mem_writeLine_wf (m : Mem) (a : Nat) (l : Line) (h : m.wf = true) : (m.writeLine a l).wf = true := m.writeLine_wf a l h

@[simp] theorem mem_zero_wf (m : Mem) (a n : Nat) (h : m.wf = true) : (m.zero a n).wf = true := m.zero_wf a n h

@[simp] theorem mem_forget_wf (m : Mem) (rs : List (Nat × Nat)) (h : m.wf = true) : (m.forget rs).wf = true := m.forget_wf rs h

@[simp] theorem mem_copy_wf (m : Mem) (a b n : Nat) (h : m.wf = true) : (m.copy a b n).wf = true := m.copy_wf a b n h

/-! ### Capture -/

@[simp] theorem commitLine_form (s : State) (a : Nat) (new : Line) (ms : List Master) (h : s.mem.wf = true) :
    (commitLine s a new ms).mem.wf = true := commitLine_wf s a new ms h

@[simp] theorem commitBytes_form (s : State) (r : SnoopRec) (h : s.mem.wf = true) :
    (commitBytes s r).mem.wf = true := commitBytes_wf s r h

/-! ### Shared operations -/

@[simp] theorem forEach_mem' {α : Type} (l : List α) (f : State → α → State) (s : State)
    (hf : ∀ t x, (f t x).mem = t.mem) : (forEach l f s).mem = s.mem := by
  induction l generalizing s with
  | nil => rfl
  | cons x l ih => exact (ih _).trans (hf s x)

@[simp] theorem forEach_form {α : Type} (l : List α) (f : State → α → State) (s : State)
    (hf : ∀ t x, t.mem.wf = true → (f t x).mem.wf = true) (h : s.mem.wf = true) : (forEach l f s).mem.wf = true :=
  forEach_keeps (fun t => t.mem.wf = true) l f s hf h

@[simp] theorem foldl_mem {α : Type} (l : List α) (f : State → α → State) (s : State)
    (hf : ∀ t x, (f t x).mem = t.mem) : (l.foldl f s).mem = s.mem := forEach_mem' l f s hf

@[simp] theorem foldl_form {α : Type} (l : List α) (f : State → α → State) (s : State)
    (hf : ∀ t x, t.mem.wf = true → (f t x).mem.wf = true) (h : s.mem.wf = true) : (l.foldl f s).mem.wf = true :=
  foldl_keeps (fun t => t.mem.wf = true) l f s hf h

theorem ite_form {c : Prop} [Decidable c] {s t : State} (hs : s.mem.wf = true) (ht : t.mem.wf = true) :
    (if c then s else t).mem.wf = true := by split <;> assumption

theorem form_of_mem {s t : State} (h : t.mem = s.mem) (hs : s.mem.wf = true) : t.mem.wf = true := h ▸ hs

@[simp] theorem withShadow_form (s : State) (f : State → State) (hf : ∀ t, t.mem.wf = true → (f t).mem.wf = true)
    (h : s.mem.wf = true) : (withShadow s f).mem.wf = true := by
  unfold withShadow
  split
  · exact hf _ h
  · exact hf _ h

@[simp] theorem withShadow_mem (s : State) (f : State → State) (hf : ∀ t, (f t).mem = t.mem) :
    (withShadow s f).mem = s.mem := by
  unfold withShadow
  split
  · exact hf _
  · exact hf _

@[simp] theorem foldSide_form (s : State) (f : State → State) (hf : ∀ t, t.mem.wf = true → (f t).mem.wf = true)
    (h : s.mem.wf = true) : (foldSide s f).mem.wf = true := withShadow_form s f hf h

@[simp] theorem coveSide_form (s : State) (cove view : U16) (f : State → State)
    (hf : ∀ t, t.mem.wf = true → (f t).mem.wf = true) (h : s.mem.wf = true) : (coveSide s cove view f).mem.wf = true := by
  unfold coveSide
  split
  · exact hf _ h
  · split
    · exact withShadow_form s f hf h
    · exact hf _ h

@[simp] theorem vfIn_form (s : State) (f : State → State) (hf : ∀ t, t.mem.wf = true → (f t).mem.wf = true)
    (h : s.mem.wf = true) : (vfIn s f).mem.wf = true := by simp [vfIn, hf, h]

@[simp] theorem vaIn_form (s : State) (f : State → State) (hf : ∀ t, t.mem.wf = true → (f t).mem.wf = true)
    (h : s.mem.wf = true) : (vaIn s f).mem.wf = true := by simp [vaIn, hf, h]

@[simp] theorem sendTree_mem (s : State) (c : CovePlan) (type : Byte) (tide : U48) (arg : U32) (body : List Byte) :
    (sendTree s c type tide arg body).mem = s.mem := by
  simp [sendTree]

/-! ### Mailbox rows -/

@[simp] theorem handle_form (op : Nat) (work : Fin 8 → TakenCmd → State → State) (mb : Fin 8) (t : TakenCmd) (s : State)
    (hw : ∀ t u, u.mem.wf = true → (work mb t u).mem.wf = true) (h : s.mem.wf = true) :
    (handle op work mb t s).mem.wf = true := by
  unfold handle
  repeat' split
  all_goals simp [hw, h]

@[simp] theorem handleTaken_form (op : Nat) (work : Fin 8 → TakenCmd → State → State) (mb : Fin 8) (s : State)
    (hw : ∀ t u, u.mem.wf = true → (work mb t u).mem.wf = true) (h : s.mem.wf = true) :
    (handleTaken op work mb s).mem.wf = true := by
  unfold handleTaken
  split
  · exact h
  · split
    · exact handle_form op work mb _ _ hw h
    · exact h

@[simp] theorem takeCmd_mem (mb : Fin 8) (port : Port) (priv : Bool) (cmd : Line) (s : State) :
    (takeCmd mb port priv cmd s).mem = s.mem := by
  unfold takeCmd
  split <;> simp

@[simp] theorem mailboxState_form (op : Nat) (work : Fin 8 → TakenCmd → State → State) (src : CmdSrc) (s : State)
    (hw : ∀ mb t u, u.mem.wf = true → (work mb t u).mem.wf = true) (h : s.mem.wf = true) :
    (mailboxState op work src s).mem.wf = true := by
  cases src with
  | taken mb => exact handleTaken_form op work mb s (hw mb) h
  | issue mb port priv cmd =>
    have ht := handleTaken_form op work mb (takeCmd mb port priv cmd s) (hw mb) (by simp [h])
    simp [mailboxState, ht, h]

@[simp] theorem mailboxRow_form (op : Nat) (work : Fin 8 → TakenCmd → State → State) (src : CmdSrc) (s : State)
    (hw : ∀ mb t u, u.mem.wf = true → (work mb t u).mem.wf = true) (h : s.mem.wf = true) :
    FormKept (mailboxRow op work src s) := mailboxState_form op work src s hw h

@[simp] theorem servePeer_mem (s : State) : (servePeer s).mem = s.mem := by
  unfold servePeer
  split <;> simp

@[simp] theorem pushPeer_mem (s : State) (l : Line) : (pushPeer s l).mem = s.mem := by simp [pushPeer]

/-! ### Capture -/

@[simp] theorem chargeRb_mem (s : State) (d : Dir) (n : Nat) : (chargeRb s d n).mem = s.mem := by
  unfold chargeRb
  split <;> simp

@[simp] theorem sendRbTo_mem (s : State) (rank : Nat) (type : Byte) (route : Route) (m : RbMsg) :
    (sendRbTo s rank type route m).mem = s.mem := by
  simp [sendRbTo]

@[simp] theorem sendRb_mem (s : State) (pos : Nat) (type : Byte) (route : Route) (m : RbMsg) :
    (sendRb s pos type route m).mem = s.mem := by
  simp [sendRb]

@[simp] theorem setRebuilt_form (s : State) (b l : Nat) (hm : s.mem.wf = true) :
    (setRebuilt s b l).mem.wf = true := by
  simp [setRebuilt, hm]

@[simp] theorem askPieces_mem (s : State) (b l sel : Nat) : (askPieces s b l sel).mem = s.mem := by simp [askPieces]

@[simp] theorem startRead_mem (s : State) (a : Nat) : (startRead s a).mem = s.mem := by
  unfold startRead
  split <;> simp

@[simp] theorem markStale_mem (s : State) (a : Nat) : (markStale s a).mem = s.mem := by simp [markStale]

@[simp] theorem noteHold_mem (s : State) : (noteHold s).mem = s.mem := by simp [noteHold]

@[simp] theorem hold_mem (s : State) (h : Held) : (hold s h).mem = s.mem := by simp [hold]

@[simp] theorem noteCaptured_mem (s : State) (ms : List Master) :
    (noteCaptured s ms).mem = s.mem := by
  simp [noteCaptured]

@[simp] theorem takeLine_form (s : State) (a : Nat) (old new : Line) (hs : List Held) (hm : s.mem.wf = true) :
    (takeLine s a old new hs).mem.wf = true := by
  unfold takeLine
  dsimp only
  repeat' split
  all_goals simp +contextual [hm]

@[simp] theorem present_form (s : State) (h : Held) (hm : s.mem.wf = true) : (present s h).mem.wf = true := by
  have ho : ∀ u a k, u.mem.wf = true → (present.ordinary u a k).mem.wf = true := by
    intro u a k hu
    unfold present.ordinary
    repeat' split
    all_goals simp [hu]
  have hw : ∀ u a e k, u.mem.wf = true → (present.ownWrite u a e k).mem.wf = true := by
    intro u a e k hu
    unfold present.ownWrite
    dsimp only
    repeat' split
    all_goals simp [hu]
  unfold present
  dsimp only
  repeat' split
  all_goals simp [hm, ho, hw]

@[simp] theorem presentRead_mem (s : State) (h : Held) : (presentRead s h).mem = s.mem := by simp [presentRead]

@[simp] theorem retryHeld_form (s : State) (hm : s.mem.wf = true) :
    (retryHeld s).mem.wf = true := by
  simp +contextual [retryHeld, hm]

@[simp] theorem execSnoopWrite_form (r : SnoopRec) (s : State) (hm : s.mem.wf = true) :
    FormKept (execSnoopWrite r s) := by
  simp [execSnoopWrite, hm]

@[simp] theorem execSnoopAtomicResult_form (r : SnoopRec) (s : State) (hm : s.mem.wf = true) :
    FormKept (execSnoopAtomicResult r s) := by
  simp [execSnoopAtomicResult, hm]

@[simp] theorem execSnoopRead_form (tag : BitVec 9) (line : U64) (master : Master) (s : State) (hm : s.mem.wf = true) :
    FormKept (execSnoopRead tag line master s) := by
  simp [execSnoopRead, hm]

@[simp] theorem execOldLineReadReturn_form (line : U64) (s : State) (hm : s.mem.wf = true) :
    FormKept (execOldLineReadReturn line s) := by
  unfold execOldLineReadReturn
  split <;> simp [hm]

@[simp] theorem writeBack_form (s : State) (t : TouchLine) (hm : s.mem.wf = true) :
    (writeBack s t).mem.wf = true := by
  simp [writeBack, hm]

@[simp] theorem evictTouch_form (s : State) (hm : s.mem.wf = true) : (evictTouch s).mem.wf = true := by
  unfold evictTouch
  split <;> simp [hm]

@[simp] theorem loadTouch_form (s : State) (n : Nat) (hm : s.mem.wf = true) :
    (loadTouch s n).mem.wf = true := by
  simp [loadTouch, hm]

@[simp] theorem setTouch_mem (s : State) (b l : Nat) : (setTouch s b l).mem = s.mem := by simp [setTouch]

@[simp] theorem stash_form (s : State) (e : List Byte) (hm : s.mem.wf = true) :
    (stash s e).mem.wf = true := by
  simp [stash, hm]

@[simp] theorem sendMirror_mem (s : State) (peer : Nat) (parity : Bool) (b d : Nat) (ls : List Line) :
    (sendMirror s peer parity b d ls).mem = s.mem := by
  simp [sendMirror]

@[simp] theorem mirrorLine_mem (s : State) (parity : Bool) (b d : Nat) (l : Line) :
    (mirrorLine s parity b d l).mem = s.mem := by
  unfold mirrorLine
  split <;> simp

@[simp] theorem firstTouch_form (s : State) (c : CapLine) (hm : s.mem.wf = true) :
    (firstTouch s c).mem.wf = true := by
  simp [firstTouch, hm]

@[simp] theorem completeMerge_form (s : State) (c : CapLine) (hm : s.mem.wf = true) :
    (completeMerge s c).mem.wf = true := by
  unfold completeMerge
  repeat' split
  all_goals simp +contextual [hm]

@[simp] theorem completeMerges_form (s : State) (hm : s.mem.wf = true) :
    (completeMerges s).mem.wf = true := by
  simp +contextual [completeMerges, hm]

@[simp] theorem captureOne_form (s : State) (hm : s.mem.wf = true) : (captureOne s).mem.wf = true := by
  unfold captureOne
  split <;> simp [hm]

@[simp] theorem execCaptureLine_form (s : State) (hm : s.mem.wf = true) :
    FormKept (execCaptureLine s) := by
  simp [execCaptureLine, hm]

@[simp] theorem passAgainstZero_form (s : State) (hm : s.mem.wf = true) :
    (passAgainstZero s).mem.wf = true := by
  simp +contextual [passAgainstZero, hm]

@[simp] theorem nextOfPass_mem (s : State) : (nextOfPass s).mem = s.mem := by
  unfold nextOfPass
  dsimp only
  repeat' split
  all_goals simp

@[simp] theorem pushSend_mem (s : State) (d : Dir) (i : SendItem) : (pushSend s d i).mem = s.mem := by
  unfold pushSend
  split <;> simp

@[simp] theorem countDirect_mem (s : State) (dest : Nat) : (countDirect s dest).mem = s.mem := by simp [countDirect]

@[simp] theorem countForwarded_mem (s : State) (dest : Nat) :
    (countForwarded s dest).mem = s.mem := by
  simp [countForwarded]

@[simp] theorem codeToward_mem (s : State) (r : DeltaRec) (d : Dir) : (codeToward s r d).mem = s.mem := by
  unfold codeToward
  split <;> simp

@[simp] theorem codeSide_mem (s : State) (r : DeltaRec) (d : Dir) (due : Bool) :
    (codeSide s r d due).1.mem = s.mem := by
  unfold codeSide
  repeat' split
  all_goals simp

@[simp] theorem codeRecord_form (s : State) (hm : s.mem.wf = true) : (codeRecord s).mem.wf = true := by
  unfold codeRecord
  split <;> simp [hm]

@[simp] theorem codeOne_form (s : State) (hm : s.mem.wf = true) : (codeOne s).mem.wf = true := by simp [codeOne, hm]

@[simp] theorem execCodeRecord_form (s : State) (hm : s.mem.wf = true) :
    FormKept (execCodeRecord s) := by
  simp +contextual [execCodeRecord, hm]

@[simp] theorem startCapture_form (s : State) (hm : s.mem.wf = true) :
    (startCapture s).mem.wf = true := by
  simp [startCapture, hm]

@[simp] theorem finishSuspend_form (s : State) (mb : Fin 8) (hm : s.mem.wf = true) :
    (finishSuspend s mb).mem.wf = true := by
  simp [finishSuspend, hm]

@[simp] theorem execCaptureDrainDone_form (s : State) (hm : s.mem.wf = true) : FormKept (execCaptureDrainDone s) := by
  unfold execCaptureDrainDone
  repeat' split
  all_goals simp [hm]

@[simp] theorem execFilterSetAck_form (s : State) (hm : s.mem.wf = true) :
    FormKept (execFilterSetAck s) := by
  simp [execFilterSetAck, hm]

@[simp] theorem writeCapEn_form (s : State) (on : Bool) (hm : s.mem.wf = true) :
    (writeCapEn s on).mem.wf = true := by
  simp [writeCapEn, hm]

/-! ### The fold store -/

@[simp] theorem drainSend_mem (s : State) (d : Dir) (n cost : Nat) : (drainSend s d n cost).mem = s.mem := by
  unfold drainSend
  split <;> simp

@[simp] theorem sendFoldStore_mem (dir : Dir) (s : State) : (sendFoldStore dir s).mem = s.mem := by
  unfold sendFoldStore
  split <;> simp

@[simp] theorem execFoldStoreSend_form (dir : Dir) (s : State) (hm : s.mem.wf = true) :
    FormKept (execFoldStoreSend dir s) := by
  simp [execFoldStoreSend, hm]

@[simp] theorem putStream_mem (s : State) (t : Stream) : (putStream s t).mem = s.mem := by simp [putStream]

@[simp] theorem breakStream_mem (s : State) (p : FoldStore) : (breakStream s p).mem = s.mem := by simp [breakStream]

@[simp] theorem checkHigh_mem (s : State) : (checkHigh s).mem = s.mem := by simp [checkHigh]

@[simp] theorem checkLow_mem (s : State) : (checkLow s).mem = s.mem := by simp [checkLow]

@[simp] theorem takeRecords_form (s : State) (p : FoldStore) (hm : s.mem.wf = true) :
    (takeRecords s p).mem.wf = true := by
  unfold takeRecords
  refine forEach_form _ _ _ (fun u x hu => ?_) hm
  dsimp only
  repeat' split
  all_goals simp [hu]

@[simp] theorem offerFoldStore_form (p : FoldStore) (s : State) (hm : s.mem.wf = true) :
    (offerFoldStore p s).mem.wf = true := by
  simp [offerFoldStore, hm]

@[simp] theorem execFoldStore_form (p : FoldStore) (s : State) (hm : s.mem.wf = true) :
    FormKept (execFoldStore p s) := by
  unfold execFoldStore
  exact vfIn_form _ _ (fun u hu => foldSide_form _ _ (fun v hv => by simp [hv]) hu) hm

@[simp] theorem foldOne_form (s : State) (hm : s.mem.wf = true) : (foldOne s).mem.wf = true := by
  unfold foldOne
  split <;> simp [hm]

@[simp] theorem execFoldRecord_form (s : State) (hm : s.mem.wf = true) :
    FormKept (execFoldRecord s) := by
  simp +contextual [execFoldRecord, hm]

@[simp] theorem execParitySlotCopy_form (lines : Nat) (s : State) (hm : s.mem.wf = true) :
    FormKept (execParitySlotCopy lines s) := by
  unfold execParitySlotCopy
  split <;> simp [hm]

@[simp] theorem execFoldDisableDone_form (s : State) (hm : s.mem.wf = true) :
    FormKept (execFoldDisableDone s) := by
  simp [execFoldDisableDone, hm]

@[simp] theorem writeFoldEn_mem (s : State) (on : Bool) : (writeFoldEn s on).mem = s.mem := by simp [writeFoldEn]

/-! ### Rebuild -/

@[simp] theorem stopRuns_mem (s : State) (k : StopKind) : (stopRuns s k).mem = s.mem := by simp [stopRuns]

@[simp] theorem endSeal_mem (s : State) (status detail : Nat) : (endSeal s status detail).mem = s.mem := by
  unfold endSeal
  split <;> simp

@[simp] theorem endPending_mem (s : State) (status detail : Nat) (k : StopKind) :
    (endPending s status detail k).mem = s.mem := by
  simp [endPending]

@[simp] theorem failLogged_mem (s : State) (detail : Nat) : (failLogged s detail).mem = s.mem := by simp [failLogged]

@[simp] theorem abandonShadow_mem (s : State) (detail : Nat) : (abandonShadow s detail).mem = s.mem := by
  unfold abandonShadow
  split <;> simp

@[simp] theorem restoreLine_form (s : State) (e : Nat × Nat × Nat × Line) (hm : s.mem.wf = true) :
    (restoreLine s e).mem.wf = true := by
  unfold restoreLine
  split <;> simp [hm]

@[simp] theorem forgetOthers_form (s : State) (hm : s.mem.wf = true) :
    (forgetOthers s).mem.wf = true := by
  simp [forgetOthers, hm]

@[simp] theorem sendMove_mem (s : State) (rank : Nat) (region : Byte) (line : Nat) (tide : U48) (payload : List Byte) (check : Bool) :
    (sendMove s rank region line tide payload check).mem = s.mem := by
  simp [sendMove]

@[simp] theorem sendPartCheck_mem (s : State) (rank : Nat) (region : Byte) (line : Nat) (tide : U48) (key : U64) (l : Line) :
    (sendPartCheck s rank region line tide key l).mem = s.mem := by
  simp [sendPartCheck]

@[simp] theorem sendMoves_mem (s : State) (g : RingId) (tide : U48) (ls : List Line) :
    (sendMoves s g tide ls).mem = s.mem := by
  unfold sendMoves
  split <;> simp

@[simp] theorem sendPart_mem (s : State) (g : RingId) (tide : U48) (stage : Nat) (ls : List Line) (rest : List (Nat × Byte)) :
    (sendPart s g tide stage ls rest).mem = s.mem := by
  unfold sendPart
  split <;> simp

@[simp] theorem survivorProgress_mem (s : State) : (survivorProgress s).mem = s.mem := by simp [survivorProgress]

@[simp] theorem putRow_mem (s : State) (r : RowCheck) : (putRow s r).mem = s.mem := by simp [putRow]

@[simp] theorem targetDone_mem (s : State) : (targetDone s).mem = s.mem := by simp [targetDone]

@[simp] theorem retryRow_mem (s : State) (b : Nat) : (retryRow s b).mem = s.mem := by
  unfold retryRow
  dsimp only
  repeat' split
  all_goals simp

@[simp] theorem checkRow_mem (s : State) (b : Nat) : (checkRow s b).mem = s.mem := by simp [checkRow]

@[simp] theorem landLine_form (s : State) (b l : Nat) (v : Line) (hm : s.mem.wf = true) :
    (landLine s b l v).mem.wf = true := by
  unfold landLine
  repeat' split
  · exact hm
  · exact hm
  · next a _ _ =>
    have h : ((setRebuilt s b l).mem.writeLine a v).wf = true := by simp [hm]
    simp [h]

@[simp] theorem landRedo_form (s : State) (b l : Nat) (v : Line) (hm : s.mem.wf = true) :
    (landRedo s b l v).mem.wf = true := by
  unfold landRedo
  refine ite_form (form_of_mem (putRow_mem _ _) hm) (ite_form (by simp [hm]) (ite_form ?_ (by simp [hm])))
  rw [targetDone_mem]
  refine (?_ : (forEach _ _ _).mem.wf = true)
  refine forEach_form _ _ _ (fun u x hu => ?_) (by exact hm)
  split
  · exact mem_writeLine_wf _ _ _ hu
  · exact hu

@[simp] theorem targetResume_mem (s : State) : (targetResume s).mem = s.mem := by simp [targetResume]

@[simp] theorem landFinal_form (s : State) (m : RbMsg) (hm : s.mem.wf = true) :
    (landFinal s m).mem.wf = true := by
  simp +contextual [landFinal, hm]

@[simp] theorem park_mem (s : State) (type : Byte) (m : RbMsg) : (park s type m).mem = s.mem := by simp [park]

@[simp] theorem rbIn_form (type : Byte) (m : RbMsg) (s : State) (f : State → State)
    (hf : ∀ t, t.mem.wf = true → (f t).mem.wf = true) (h : s.mem.wf = true) : (rbIn type m s f).mem.wf = true := by
  simp [rbIn, hf, h]

@[simp] theorem startGroup_mem (s : State) (g : RingId) : (startGroup s g).mem = s.mem := by
  unfold startGroup
  split <;> simp

@[simp] theorem passPart_mem (s : State) (m : RbMsg) : (passPart s m).mem = s.mem := by
  unfold passPart
  dsimp only
  repeat' split
  all_goals simp

@[simp] theorem answerPiece_mem (s : State) (m : RbMsg) : (answerPiece s m).mem = s.mem := by
  unfold answerPiece
  split <;> simp

@[simp] theorem execRingGroupStart_form (g : RingId) (s : State) (hm : s.mem.wf = true) :
    FormKept (execRingGroupStart g s) := by
  simp [execRingGroupStart, hm]

@[simp] theorem takePart_form (m : RbMsg) (s : State) (hm : s.mem.wf = true) :
    (takePart m s).mem.wf = true := by
  simp [takePart, hm]

@[simp] theorem execPart_form (m : RbMsg) (s : State) (hm : s.mem.wf = true) : FormKept (execPart m s) := by
  unfold execPart
  exact vfIn_form _ _ (fun u hu => rbIn_form _ _ _ _ (fun v hv => by simp [hv]) hu) hm

@[simp] theorem execRingRestart_form (g : RingId) (s : State) (hm : s.mem.wf = true) :
    FormKept (execRingRestart g s) := by
  unfold execRingRestart
  repeat' split
  all_goals simp [hm]

@[simp] theorem execPieceReq_form (m : RbMsg) (s : State) (hm : s.mem.wf = true) :
    FormKept (execPieceReq m s) := by
  simp +contextual [execPieceReq, hm]

@[simp] theorem settleReq_form (s : State) (q : LineReq) (hm : s.mem.wf = true) : (settleReq s q).mem.wf = true := by
  unfold settleReq
  dsimp only
  repeat' split
  all_goals simp [hm]

@[simp] theorem takePiece_form (m : RbMsg) (s : State) (hm : s.mem.wf = true) : (takePiece m s).mem.wf = true := by
  unfold takePiece
  dsimp only
  repeat' split
  all_goals simp [hm]

@[simp] theorem execPiece_form (m : RbMsg) (s : State) (hm : s.mem.wf = true) : FormKept (execPiece m s) := by
  unfold execPiece
  exact vfIn_form _ _ (fun u hu => rbIn_form _ _ _ _ (fun v hv => by simp [hv]) hu) hm

@[simp] theorem execPieceReqRetry_form (line : U64) (s : State) (hm : s.mem.wf = true) :
    FormKept (execPieceReqRetry line s) := by
  unfold execPieceReqRetry
  repeat' split
  all_goals simp [hm]

@[simp] theorem sendArea_mem (s : State) (pos first n : Nat) : (sendArea s pos first n).mem = s.mem := by
  unfold sendArea
  split <;> simp

@[simp] theorem takeTmarkReq_mem (m : RbMsg) (s : State) : (takeTmarkReq m s).mem = s.mem := by simp [takeTmarkReq]

@[simp] theorem execTmarkReq_form (m : RbMsg) (s : State) (hm : s.mem.wf = true) :
    FormKept (execTmarkReq m s) := by
  simp +contextual [execTmarkReq, hm]

@[simp] theorem askArea_mem (s : State) (pos first n : Nat) : (askArea s pos first n).mem = s.mem := by simp [askArea]

@[simp] theorem takeArea_form (s : State) (c : CovePlan) (area : List Byte) (slot : Nat) (hm : s.mem.wf = true) :
    (takeArea s c area slot).mem.wf = true := by
  simp [takeArea, hm]

@[simp] theorem judgeArea_form (s : State) (hm : s.mem.wf = true) : (judgeArea s).mem.wf = true := by
  unfold judgeArea
  repeat' split
  all_goals simp [hm]

@[simp] theorem adoptTide_mem (s : State) (t : U48) : (adoptTide s t).mem = s.mem := by simp [adoptTide]

@[simp] theorem areaTaken_form (s : State) (hm : s.mem.wf = true) : (areaTaken s).mem.wf = true := by
  unfold areaTaken
  split <;> simp [hm]

@[simp] theorem takeTmark_form (m : RbMsg) (s : State) (hm : s.mem.wf = true) : (takeTmark m s).mem.wf = true := by
  unfold takeTmark
  dsimp only
  repeat' split
  all_goals simp [hm]

@[simp] theorem takeHandoverMark_form (m : RbMsg) (h : Handover) (s : State) (hm : s.mem.wf = true) :
    (takeHandoverMark m h s).mem.wf = true := by
  unfold takeHandoverMark
  dsimp only
  repeat' split
  all_goals simp [hm]

@[simp] theorem execTmark_form (m : RbMsg) (s : State) (hm : s.mem.wf = true) : FormKept (execTmark m s) := by
  unfold execTmark
  refine vfIn_form _ _ (fun u hu => ?_) hm
  repeat' split
  all_goals simp +contextual [hu]

@[simp] theorem supplyTargets_mem (s : State) : (supplyTargets s).mem = s.mem := by simp [supplyTargets]

@[simp] theorem takeParked_form (s : State) (e : Byte × RbMsg) (hm : s.mem.wf = true) :
    (takeParked s e).mem.wf = true := by
  unfold takeParked
  repeat' split
  all_goals simp +contextual [hm]

@[simp] theorem serveWaiting_form (s : State) (hm : s.mem.wf = true) :
    (serveWaiting s).mem.wf = true := by
  simp +contextual [serveWaiting, hm]

@[simp] theorem standing_mem (s : State) : (standing s).mem = s.mem := by simp [standing]

@[simp] theorem afterRollback_form (s : State) (hm : s.mem.wf = true) :
    (afterRollback s).mem.wf = true := by
  simp [afterRollback, hm]

@[simp] theorem rollback_form (s : State) (hm : s.mem.wf = true) : (rollback s).mem.wf = true := by
  have h : (forEach (stashEntries s) restoreLine s).mem.wf = true := forEach_form _ _ _ (fun u x hu => restoreLine_form u x hu) hm
  unfold rollback
  refine ite_form (afterRollback_form _ (forgetOthers_form _ ?_)) ?_
  · exact h
  · rw [failLogged_mem]
    exact h

@[simp] theorem execRollbackDone_form (s : State) (hm : s.mem.wf = true) :
    FormKept (execRollbackDone s) := by
  simp [execRollbackDone, hm]

@[simp] theorem askAgain_mem (s : State) : (askAgain s).mem = s.mem := by simp [askAgain]

@[simp] theorem restartActions_mem (s : State) : (restartActions s).mem = s.mem := by simp [restartActions]

@[simp] theorem copyPacket_mem (s : State) (h : Handover) : (copyPacket s h).mem = s.mem := by simp [copyPacket]

@[simp] theorem copyRun_form (go : State → Nat → Bool) (n : Nat) (s : State) (h : s.mem.wf = true) :
    (copyRun go n s).mem.wf = true := by
  induction n generalizing s with
  | zero => exact h
  | succ n ih =>
    unfold copyRun
    split
    · split
      · exact ih _ (by simp [h])
      · exact h
    · exact h

@[simp] theorem copyOn_form (s : State) (hm : s.mem.wf = true) : (copyOn s).mem.wf = true := by simp [copyOn, hm]

@[simp] theorem execHandoverCopyDone_form (s : State) (hm : s.mem.wf = true) :
    FormKept (execHandoverCopyDone s) := by
  simp [execHandoverCopyDone, hm]

@[simp] theorem sendClaimAck_mem (s : State) (rank : Nat) (cove : U16) (epoch : U32) (pos : Nat) (refused : Bool) :
    (sendClaimAck s rank cove epoch pos refused).mem = s.mem := by
  simp [sendClaimAck]

@[simp] theorem execMirror_form (m : RbMsg) (s : State) (hm : s.mem.wf = true) : FormKept (execMirror m s) := by
  unfold execMirror
  refine vfIn_form _ _ (fun u hu => ?_) hm
  split
  · exact hu
  · refine ite_form hu (ite_form hu ?_)
    have h1 : ∀ (ls : List (Nat × Line)) (p : Bool) (b d w : Nat), (forEach ls (fun t e =>
        let d := d + e.1
        if p then { t with mem := t.mem.writeLine (w + d * 64) e.2 }
        else match lineHome t b d with
          | some a => { t with mem := t.mem.writeLine a e.2 }
          | none => t) u).mem.wf = true := by
      intro ls p b d w
      refine forEach_form _ _ _ (fun v y hv => ?_) hu
      refine ite_form (mem_writeLine_wf _ _ _ hv) ?_
      split
      · exact mem_writeLine_wf _ _ _ hv
      · exact hv
    refine ite_form ?_ (h1 _ _ _ _ _)
    split
    · rw [sendClaimAck_mem]
      exact h1 _ _ _ _ _
    · exact h1 _ _ _ _ _

@[simp] theorem restartRecovery_mem (s : State) : (restartRecovery s).mem = s.mem := by simp [restartRecovery]

/-! ### Twins -/

@[simp] theorem startSpring_mem (s : State) : (startSpring s).mem = s.mem := by simp [startSpring]

@[simp] theorem wakeCause_mem (s : State) : (wakeCause s).mem = s.mem := by simp [wakeCause]

@[simp] theorem agreeIn_form (s : State) (m : AgreeMsg) (wakes : Bool) (f : State → State)
    (hf : ∀ t, t.mem.wf = true → (f t).mem.wf = true) (h : s.mem.wf = true) : (agreeIn s m wakes f).mem.wf = true := by
  have ht : (if wakes then wakeCause s else s).mem.wf = true := by simp [h]
  unfold agreeIn
  simp [hf _ ht, h]

@[simp] theorem discardedFragment_mem (s t : State) : (discardedFragment s t).mem = t.mem := by simp [discardedFragment]

@[simp] theorem sendTwin_mem (s : State) (type : Byte) (arg : U32) (body : List Byte) :
    (sendTwin s type arg body).mem = s.mem := by
  unfold sendTwin
  split <;> simp

@[simp] theorem compareTwins_mem (s : State) : (compareTwins s).mem = s.mem := by
  unfold compareTwins
  repeat' split
  all_goals simp

@[simp] theorem sendTwinSum_mem (s : State) : (sendTwinSum s).mem = s.mem := by
  unfold sendTwinSum
  split <;> simp

@[simp] theorem twinAfterRelease_mem (s : State) : (twinAfterRelease s).mem = s.mem := by simp [twinAfterRelease]

@[simp] theorem execTwinPair_form (src : CmdSrc) (s : State) (hm : s.mem.wf = true) :
    FormKept (execTwinPair src s) := by
  unfold execTwinPair
  refine mailboxRow_form _ _ _ _ (fun mb t u hu => ?_) hm
  all_goals try dsimp only
  repeat' split
  all_goals simp [hu]

@[simp] theorem execTwinSum_form (m : AgreeMsg) (s : State) (hm : s.mem.wf = true) : FormKept (execTwinSum m s) := by
  unfold execTwinSum
  refine agreeIn_form _ _ _ _ (fun u hu => ?_) hm
  all_goals try dsimp only
  repeat' split
  all_goals simp [hu]

@[simp] theorem sendRange_mem (s : State) (b lo hi : Nat) : (sendRange s b lo hi).mem = s.mem := by simp [sendRange]

@[simp] theorem twinFound_mem (s : State) (b l : Nat) : (twinFound s b l).mem = s.mem := by simp [twinFound]

@[simp] theorem execTwinBays_form (m : AgreeMsg) (s : State) (hm : s.mem.wf = true) : FormKept (execTwinBays m s) := by
  unfold execTwinBays
  refine agreeIn_form _ _ _ _ (fun u hu => ?_) hm
  all_goals try dsimp only
  repeat' split
  all_goals simp [hu]

@[simp] theorem execTwinRange_form (m : AgreeMsg) (s : State) (hm : s.mem.wf = true) :
    FormKept (execTwinRange m s) := by
  simp [execTwinRange, hm]

@[simp] theorem execTwinPeerLost_form (s : State) (hm : s.mem.wf = true) :
    FormKept (execTwinPeerLost s) := by
  simp [execTwinPeerLost, hm]

/-! ### Proposals -/

@[simp] theorem startTimer_mem (s : State) : (startTimer s).mem = s.mem := by simp [startTimer]

@[simp] theorem probePos_mem (s : State) (q : Nat) (why : ProbeWhy) :
    (probePos s q why).mem = s.mem := by
  simp [probePos]

@[simp] theorem startProposal_mem (s : State) : (startProposal s).mem = s.mem := by simp [startProposal]

@[simp] theorem proposeDue_mem (s : State) : (proposeDue s).mem = s.mem := by simp [proposeDue]

@[simp] theorem evaluate_mem (s : State) : (evaluate s).mem = s.mem := by
  unfold evaluate
  dsimp only
  repeat' split
  all_goals simp

@[simp] theorem suspectPos_mem (s : State) (q : Nat) : (suspectPos s q).mem = s.mem := by simp [suspectPos]

@[simp] theorem confirmLoss_mem (s : State) (q : Nat) : (confirmLoss s q).mem = s.mem := by simp [confirmLoss]

@[simp] theorem calm_mem (s : State) : (calm s).mem = s.mem := by simp [calm]

@[simp] theorem refute_mem (s : State) (q : Nat) : (refute s q).mem = s.mem := by simp [refute]

@[simp] theorem setLinkFault_mem (s : State) (q : Nat) (on : Bool) :
    (setLinkFault s q on).mem = s.mem := by
  simp [setLinkFault]

@[simp] theorem tellSuspect_form (s : State) (q : Fin 8) (cove : U16) (pos : Nat) (hm : s.mem.wf = true) :
    (tellSuspect s q cove pos).mem.wf = true := by
  unfold tellSuspect
  repeat' split
  all_goals simp [hm]

@[simp] theorem suspectPort_form (s : State) (q : Fin 8) (hm : s.mem.wf = true) : (suspectPort s q).mem.wf = true := by
  unfold suspectPort
  dsimp only
  repeat' split
  all_goals simp [hm]

@[simp] theorem execSuspicionTimeout_form (port : Fin 8) (s : State) (hm : s.mem.wf = true) :
    FormKept (execSuspicionTimeout port s) := by
  simp [execSuspicionTimeout, hm]

@[simp] theorem execWatchProbe_form (port : Fin 8) (s : State) (hm : s.mem.wf = true) :
    FormKept (execWatchProbe port s) := by
  unfold execWatchProbe
  split <;> simp [hm]

@[simp] theorem execProposeTimer_form (s : State) (hm : s.mem.wf = true) : FormKept (execProposeTimer s) := by
  unfold execProposeTimer
  split <;> simp [hm]

@[simp] theorem execRetryWait_form (s : State) (hm : s.mem.wf = true) : FormKept (execRetryWait s) := by
  unfold execRetryWait
  split <;> simp [hm]

@[simp] theorem retryProposal_mem (s : State) (p : Proposal) :
    (retryProposal s p).mem = s.mem := by
  simp [retryProposal]

@[simp] theorem endPrepare_mem (s : State) (p : Proposal) : (endPrepare s p).mem = s.mem := by simp [endPrepare]

/-! ### Seals -/

@[simp] theorem writeArea_form (s : State) (slot : Nat) (tide : U48) (hm : s.mem.wf = true) :
    (writeArea s slot tide).mem.wf = true := by
  simp [writeArea, hm]

@[simp] theorem takeReady_mem (s : State) (p : Nat) (manifest : List Byte) :
    (takeReady s p manifest).mem = s.mem := by
  simp [takeReady]

@[simp] theorem sendReady_mem (s : State) (manifest : List Byte) :
    (sendReady s manifest).mem = s.mem := by
  simp [sendReady]

@[simp] theorem ageReports_mem (s : State) : (ageReports s).mem = s.mem := by simp [ageReports]

@[simp] theorem sendReport_mem (s : State) (t : U48) (st : Nat) : (sendReport s t st).mem = s.mem := by
  unfold sendReport
  split <;> simp

@[simp] theorem takeCost_mem (s : State) : (takeCost s).mem = s.mem := by simp [takeCost]

@[simp] theorem doRelease_form (s : State) (hm : s.mem.wf = true) : (doRelease s).mem.wf = true := by
  unfold doRelease
  dsimp only
  repeat' split
  all_goals simp [hm]

@[simp] theorem beginRecovery_mem (s : State) : (beginRecovery s).mem = s.mem := by simp [beginRecovery]

@[simp] theorem doHeld_mem (s : State) : (doHeld s).mem = s.mem := by simp [doHeld]

@[simp] theorem quitReshard_mem (s : State) : (quitReshard s).mem = s.mem := by simp [quitReshard]

@[simp] theorem doManifest_form (s : State) (hm : s.mem.wf = true) :
    (doManifest s).mem.wf = true := by
  simp [doManifest, hm]

@[simp] theorem doAbandon_form (s : State) (reason : U32) (hm : s.mem.wf = true) :
    (doAbandon s reason).mem.wf = true := by
  simp [doAbandon, hm]

@[simp] theorem doFlip_form (s : State) (t : U48) (n : U16) (losses : U32) (hm : s.mem.wf = true) :
    (doFlip s t n losses).mem.wf = true := by
  simp [doFlip, hm]

@[simp] theorem sendDecision_mem (s : State) (dests : List Nat) : (sendDecision s dests).mem = s.mem := by
  unfold sendDecision
  split <;> simp

@[simp] theorem tellChildren_mem (s : State) : (tellChildren s).mem = s.mem := by
  unfold tellChildren
  split <;> simp

@[simp] theorem rootPass_mem (s : State) : (rootPass s).mem = s.mem := by
  unfold rootPass
  split <;> simp

@[simp] theorem putDecision_mem (s : State) (t : U48) (d : Decision) :
    (putDecision s t d).mem = s.mem := by
  simp [putDecision]

@[simp] theorem rootAbandon_form (s : State) (t : U48) (reason : U32) (hm : s.mem.wf = true) :
    (rootAbandon s t reason).mem.wf = true := by
  simp [rootAbandon, hm]

@[simp] theorem rootAgain_mem (s : State) : (rootAgain s).mem = s.mem := by simp [rootAgain]

@[simp] theorem reportReshardLoss_mem (s : State) : (reportReshardLoss s).mem = s.mem := by simp [reportReshardLoss]

@[simp] theorem rootRelease_form (s : State) (hm : s.mem.wf = true) :
    (rootRelease s).mem.wf = true := by
  simp [rootRelease, hm]

@[simp] theorem rootCommit_form (s : State) (t : U48) (lossy : Bool) (hm : s.mem.wf = true) :
    (rootCommit s t lossy).mem.wf = true := by
  simp [rootCommit, hm]

@[simp] theorem askUnheard_mem (s : State) (t : U48) : (askUnheard s t).mem = s.mem := by simp [askUnheard]

@[simp] theorem rootDecide_form (s : State) (t : U48) (hm : s.mem.wf = true) : (rootDecide s t).mem.wf = true := by
  unfold rootDecide
  dsimp only
  repeat' split
  all_goals simp [hm]

@[simp] theorem reshardCheck_mem (s : State) : (reshardCheck s).mem = s.mem := by simp [reshardCheck]

@[simp] theorem captainCheck_form (s : State) (hm : s.mem.wf = true) : (captainCheck s).mem.wf = true := by
  unfold captainCheck
  dsimp only
  repeat' split
  all_goals simp [hm]

@[simp] theorem flippedCheck_form (s : State) (hm : s.mem.wf = true) : (flippedCheck s).mem.wf = true := by
  unfold flippedCheck
  repeat' split
  all_goals simp [hm]

@[simp] theorem treeStep_form (s : State) (hm : s.mem.wf = true) : (treeStep s).mem.wf = true := by simp [treeStep, hm]

@[simp] theorem takeOffice_mem (s : State) : (takeOffice s).mem = s.mem := by simp [takeOffice]

@[simp] theorem handDecision_mem (s : State) : (handDecision s).mem = s.mem := by
  unfold handDecision
  split <;> simp

@[simp] theorem rootChanged_mem (s : State) (before : Nat) : (rootChanged s before).mem = s.mem := by simp [rootChanged]

@[simp] theorem startSeal_form (s : State) (mb : Fin 8) (block : Nat) (hm : s.mem.wf = true) :
    (startSeal s mb block).mem.wf = true := by
  simp [startSeal, hm]

@[simp] theorem execTideSeal_form (src : CmdSrc) (s : State) (hm : s.mem.wf = true) :
    FormKept (execTideSeal src s) := by
  unfold execTideSeal
  refine mailboxRow_form _ _ _ _ (fun mb t u hu => ?_) hm
  all_goals try dsimp only
  repeat' split
  all_goals simp [hu]

@[simp] theorem buildRecord_mem (s : State) : (buildRecord s).mem = s.mem := by
  unfold buildRecord
  repeat' split
  all_goals simp

@[simp] theorem sendParts_mem (s : State) (dest : Nat) : (sendParts s dest).mem = s.mem := by simp [sendParts]

@[simp] theorem sendMarker_mem (dest : Byte) (s : State) : (sendMarker dest s).mem = s.mem := by simp [sendMarker]

@[simp] theorem execCloseMarkerSend_form (dest : Byte) (s : State) (hm : s.mem.wf = true) :
    FormKept (execCloseMarkerSend dest s) := by
  simp [execCloseMarkerSend, hm]

@[simp] theorem takeMarker_mem (m : Marker) (s : State) : (takeMarker m s).mem = s.mem := by simp [takeMarker]

@[simp] theorem execCloseMarker_form (m : Marker) (s : State) (hm : s.mem.wf = true) :
    FormKept (execCloseMarker m s) := by
  simp +contextual [execCloseMarker, hm]

@[simp] theorem makeCurrent_mem (s : State) (sh : Shadow) : (makeCurrent s sh).mem = s.mem := by
  unfold makeCurrent
  rw [refreshStatusLine_mem, respondOpt_mem, setFilter_mem, freshFlood_mem, discardStash_mem]

@[simp] theorem switchDone_form (s : State) (hm : s.mem.wf = true) : (switchDone s).mem.wf = true := by
  unfold switchDone
  split <;> simp [hm]

@[simp] theorem sealIn_form (s : State) (m : SealMsg) (f : State → State)
    (hf : ∀ t, t.mem.wf = true → (f t).mem.wf = true) (h : s.mem.wf = true) : FormKept (sealIn s m f) := by
  simp +contextual [sealIn, hf, h]

@[simp] theorem sealInEither_form (s : State) (m : SealMsg) (f : State → State)
    (hf : ∀ t, t.mem.wf = true → (f t).mem.wf = true) (h : s.mem.wf = true) : FormKept (sealInEither s m f) := by
  unfold sealInEither
  split
  · refine vaIn_form s _ (fun t ht => switchDone_form _ (withShadow_form t _ (fun u hu => ?_) ht)) h
    split
    · exact hf _ hu
    · simp [hu]
  · exact sealIn_form s m f hf h

@[simp] theorem execMarkPart_form (m : SealMsg) (s : State) (hm : s.mem.wf = true) :
    FormKept (execMarkPart m s) := by
  simp [execMarkPart, hm]

@[simp] theorem makeReady_form (s : State) (hm : s.mem.wf = true) :
    (makeReady s).mem.wf = true := by
  simp [makeReady, hm]

@[simp] theorem execSealReady_form (s : State) (hm : s.mem.wf = true) : FormKept (execSealReady s) := by
  unfold execSealReady
  have := foldSide_form s makeReady (fun v hv => by simp [hv]) hm
  simp [this]

@[simp] theorem execReady_form (m : SealMsg) (s : State) (hm : s.mem.wf = true) :
    FormKept (execReady m s) := by
  simp +contextual [execReady, hm]

@[simp] theorem answerDown_form (s : State) (c : U16) (t : U48) (hm : s.mem.wf = true) :
    (answerDown s c t).mem.wf = true := by
  unfold answerDown
  repeat' split
  all_goals simp [hm]

@[simp] theorem lossAfterCommit_form (s : State) (t : U48) (hm : s.mem.wf = true) :
    (lossAfterCommit s t).mem.wf = true := by
  simp [lossAfterCommit, hm]

@[simp] theorem takeReport_mem (s : State) (r : Report) : (takeReport s r).mem = s.mem := by simp [takeReport]

@[simp] theorem reportReceived_form (s : State) (m : SealMsg) (hm : s.mem.wf = true) :
    (reportReceived s m).mem.wf = true := by
  unfold reportReceived
  repeat' split
  all_goals simp [hm]

@[simp] theorem ackRoot_mem (s : State) (t : U48) (arg : U32) : (ackRoot s t arg).mem = s.mem := by simp [ackRoot]

@[simp] theorem passDown_mem (s : State) : (passDown s).mem = s.mem := by simp [passDown]

@[simp] theorem rootResend_mem (s : State) : (rootResend s).mem = s.mem := by simp [rootResend]

@[simp] theorem handoverFlip_mem (s : State) : (handoverFlip s).mem = s.mem := by
  unfold handoverFlip
  split <;> simp

@[simp] theorem bareCommit_mem (s : State) (m : SealMsg) : (bareCommit s m).mem = s.mem := by simp [bareCommit]

@[simp] theorem execCommit_form (m : SealMsg) (s : State) (hm : s.mem.wf = true) : FormKept (execCommit m s) := by
  unfold execCommit
  refine sealIn_form _ _ _ (fun u hu => ?_) hm
  all_goals try dsimp only
  repeat' split
  all_goals simp [hu]

@[simp] theorem execRelease_form (m : SealMsg) (s : State) (hm : s.mem.wf = true) :
    FormKept (execRelease m s) := by
  simp +contextual [execRelease, hm]

@[simp] theorem execAbandon_form (m : SealMsg) (s : State) (hm : s.mem.wf = true) :
    FormKept (execAbandon m s) := by
  simp +contextual [execAbandon, hm]

@[simp] theorem execFlipped_form (m : SealMsg) (s : State) (hm : s.mem.wf = true) : FormKept (execFlipped m s) := by
  unfold execFlipped
  refine sealIn_form _ _ _ (fun u hu => ?_) hm
  all_goals try dsimp only
  repeat' split
  all_goals simp [hu]

@[simp] theorem execQuery_form (m : SealMsg) (s : State) (hm : s.mem.wf = true) :
    FormKept (execQuery m s) := by
  simp [execQuery, hm]

@[simp] theorem execReport_form (m : SealMsg) (s : State) (hm : s.mem.wf = true) :
    FormKept (execReport m s) := by
  simp +contextual [execReport, hm]

@[simp] theorem execSwitch_form (m : SealMsg) (s : State) (hm : s.mem.wf = true) : FormKept (execSwitch m s) := by
  unfold execSwitch
  refine vaIn_form _ _ (fun u hu => ?_) hm
  split
  · simp [hu]
  · refine switchDone_form _ (withShadow_form _ _ (fun v hv => ?_) hu)
    dsimp only
    repeat' split
    all_goals simp [hv]

@[simp] theorem sealResend_mem (s : State) : (sealResend s).mem = s.mem := by
  unfold sealResend
  repeat' split
  all_goals simp

@[simp] theorem execSealResend_form (s : State) (hm : s.mem.wf = true) :
    FormKept (execSealResend s) := by
  simp [execSealResend, hm]

@[simp] theorem execDecisionResend_form (s : State) (hm : s.mem.wf = true) : FormKept (execDecisionResend s) := by
  unfold execDecisionResend
  split <;> simp [hm]

/-! ### The tier mover -/

@[simp] theorem withQuotas_mem (s : State) (q : Quotas) : (withQuotas s q).mem = s.mem := by simp [withQuotas]

@[simp] theorem execTierQuotaSet_form (src : CmdSrc) (s : State) (hm : s.mem.wf = true) :
    FormKept (execTierQuotaSet src s) := by
  unfold execTierQuotaSet
  refine mailboxRow_form _ _ _ _ (fun mb t u hu => ?_) hm
  obtain ⟨wf, hwf⟩ : ∃ f, windowFault = f := ⟨_, rfl⟩
  obtain ⟨lb, hlb⟩ : ∃ f, loweredBelow = f := ⟨_, rfl⟩
  rw [hwf, hlb]
  dsimp only
  repeat' split
  all_goals simp [hu]

@[simp] theorem execRegionDeclare_form (src : CmdSrc) (s : State) (hm : s.mem.wf = true) :
    FormKept (execRegionDeclare src s) := by
  unfold execRegionDeclare
  refine mailboxRow_form _ _ _ _ (fun mb t u hu => ?_) hm
  obtain ⟨rf, hrf⟩ : ∃ f, regionFieldFault = f := ⟨_, rfl⟩
  obtain ⟨hf, hhf⟩ : ∃ f, homeFault = f := ⟨_, rfl⟩
  obtain ⟨rs, hrs⟩ : ∃ f, regionShortfall = f := ⟨_, rfl⟩
  rw [hrf, hhf, hrs]
  dsimp only
  repeat' split
  all_goals simp [hu]

@[simp] theorem execPrefetchPlan_form (src : CmdSrc) (s : State) (hm : s.mem.wf = true) :
    FormKept (execPrefetchPlan src s) := by
  unfold execPrefetchPlan
  refine mailboxRow_form _ _ _ _ (fun mb t u hu => ?_) hm
  all_goals try dsimp only
  repeat' split
  all_goals simp [hu]

@[simp] theorem execPrefetchPlanComplete_form (s : State) (hm : s.mem.wf = true) :
    FormKept (execPrefetchPlanComplete s) := by
  unfold execPrefetchPlanComplete
  split <;> simp [hm]

@[simp] theorem writeProgress_form (s : State) (hm : s.mem.wf = true) : (writeProgress s).mem.wf = true := by
  unfold writeProgress
  split <;> simp [hm]

@[simp] theorem endFlight_form (s : State) (f : Flight) (complete : Bool) (hm : s.mem.wf = true) :
    (endFlight s f complete).mem.wf = true := by
  unfold endFlight
  dsimp only
  repeat' split
  all_goals simp [hm]

@[simp] theorem putFlight_mem (s : State) (f : Flight) : (putFlight s f).mem = s.mem := by simp [putFlight]

@[simp] theorem startRows_form (s : State) (f : Flight) (hm : s.mem.wf = true) :
    (startRows s f).mem.wf = true := by
  simp [startRows, hm]

@[simp] theorem startEntries_form (s : State) (is : List Nat) (hm : s.mem.wf = true) :
    (startEntries s is).mem.wf = true := by
  unfold startEntries
  refine forEach_form _ _ _ (fun u x hu => ?_) hm
  all_goals try dsimp only
  repeat' split
  all_goals simp [hu]

@[simp] theorem moveCursor_form (s : State) (pos : U16) (step : U64) (hm : s.mem.wf = true) :
    (moveCursor s pos step).mem.wf = true := by
  simp [moveCursor, hm]

@[simp] theorem execSnoopObserve_form (r : SnoopRec) (s : State) (hm : s.mem.wf = true) :
    FormKept (execSnoopObserve r s) := by
  simp [execSnoopObserve, hm]

@[simp] theorem roomFor_mem (s : State) (size : Nat) : (roomFor s size).1.mem = s.mem := by
  obtain ⟨F, hF⟩ : ∃ F, roomFor = F := ⟨_, rfl⟩
  obtain ⟨fs, hfs⟩ : ∃ f, freeSlot = f := ⟨_, rfl⟩
  rw [hF]
  delta roomFor at hF
  rw [hfs] at hF
  subst hF
  dsimp only
  split <;> rfl

@[simp] theorem stageTile_form (s : State) (e : PfEntry) (step : U64) (r : Region) (tile : Nat) (hm : s.mem.wf = true) :
    (stageTile s e step r tile).mem.wf = true := by
  unfold stageTile
  have hr := roomFor_mem s 16384
  split
  · exact hm
  · split
    · exact hm
    · split
      · next h => rw [h] at hr; exact (congrArg Mem.wf hr).trans hm
      · next t i h =>
        rw [h] at hr
        exact mem_copy_wf _ _ _ _ ((congrArg Mem.wf hr).trans hm)

@[simp] theorem stageRows_form (s : State) (f : Flight) (r : Region) (h : s.mem.wf = true) :
    (stageRows s f r).1.mem.wf = true := by
  refine forEach_form _ _ _ (fun u row hu => ?_) h
  split
  · exact hu
  · have := roomFor_mem u (2 ^ fldAt f.mask 1 1)
    split
    · simp_all
    · simp_all

@[simp] theorem writeDirectory_form (s : State) (f : Flight) (r : Region) (hm : s.mem.wf = true) :
    (writeDirectory s f r).mem.wf = true := by
  simp [writeDirectory, hm]

@[simp] theorem settleFlight_form (s : State) (f : Flight) (whole : Bool) (hm : s.mem.wf = true) :
    (settleFlight s f whole).mem.wf = true := by
  simp [settleFlight, hm]

@[simp] theorem serveFlight_form (s : State) (f : Flight) (hm : s.mem.wf = true) : (serveFlight s f).mem.wf = true := by
  have h1 : ∀ l, (putFlight (forEach l startRead s) { f with stalled := true }).mem.wf = true := fun l => by simp [hm]
  unfold serveFlight
  split
  · exact hm
  · next r _ =>
    refine ite_form (h1 _) ?_
    have h2 := stageRows_form s f r hm
    have h3 : (writeDirectory (stageRows s f r).1 f r).mem.wf = true := by simp [h2]
    dsimp only
    split
    · exact settleFlight_form _ _ _ (forEach_form _ _ _ (fun u x hu => stageTile_form _ _ _ _ _ hu) hm)
    · exact ite_form (settleFlight_form _ _ _ h3) (settleFlight_form _ _ _ (ite_form h3 h2))
    · exact endFlight_form _ _ _ (by simp [hm])
    · exact endFlight_form _ _ _ (by simp [hm])

@[simp] theorem execPrefetchEntryComplete_form (entry : Nat) (s : State) (hm : s.mem.wf = true) :
    FormKept (execPrefetchEntryComplete entry s) := by
  unfold execPrefetchEntryComplete
  repeat' split
  all_goals simp [hm]

@[simp] theorem dropStaged_mem (s : State) : (dropStaged s).mem = s.mem := by simp [dropStaged]

/-! ### Coves -/

@[simp] theorem writeLadder_form (s : State) (hm : s.mem.wf = true) :
    (writeLadder s).mem.wf = true := by
  simp +contextual [writeLadder, hm]

@[simp] theorem enterCove_mem (s : State) (c : CovePlan) (pos : Nat) (live : U16) (epoch : U32) (posRank : List Nat) :
    (enterCove s c pos live epoch posRank).mem = s.mem := by
  simp [enterCove]

@[simp] theorem formTide_mem (s : State) (mb : Option (Option (Fin 8))) :
    (formTide s mb).mem = s.mem := by
  simp [formTide]

@[simp] theorem startForm_form (s : State) (c : CovePlan) (pos : Nat) (mb : Fin 8) (hm : s.mem.wf = true) :
    (startForm s c pos mb).mem.wf = true := by
  unfold startForm
  rw [refreshStatusLine_mem]
  refine passAgainstZero_form _ (writeLadder_form _ ?_)
  rw [setFilter_mem, discardStash_mem]
  refine mem_zero_wf _ _ _ ?_
  simp [hm]

@[simp] theorem execCoveForm_form (src : CmdSrc) (s : State) (hm : s.mem.wf = true) :
    FormKept (execCoveForm src s) := by
  unfold execCoveForm
  refine mailboxRow_form _ _ _ _ (fun mb t u hu => ?_) hm
  repeat' split
  all_goals simp [hu]

@[simp] theorem execCoveFormComplete_form (s : State) (hm : s.mem.wf = true) : FormKept (execCoveFormComplete s) := by
  unfold execCoveFormComplete
  split <;> simp [hm]

@[simp] theorem recAfterOpen_mem (s : State) : (recAfterOpen s).mem = s.mem := by simp [recAfterOpen]

@[simp] theorem execTideOpen_form (src : CmdSrc) (s : State) (hm : s.mem.wf = true) :
    FormKept (execTideOpen src s) := by
  unfold execTideOpen
  refine mailboxRow_form _ _ _ _ (fun mb t u hu => ?_) hm
  all_goals try dsimp only
  repeat' split
  all_goals simp [hu]

@[simp] theorem execTidePolicy_form (src : CmdSrc) (s : State) (hm : s.mem.wf = true) :
    FormKept (execTidePolicy src s) := by
  simp [execTidePolicy, hm]

@[simp] theorem execDrainStart_form (src : CmdSrc) (s : State) (hm : s.mem.wf = true) :
    FormKept (execDrainStart src s) := by
  simp [execDrainStart, hm]

@[simp] theorem execCodingSuspend_form (src : CmdSrc) (s : State) (hm : s.mem.wf = true) :
    FormKept (execCodingSuspend src s) := by
  unfold execCodingSuspend
  refine mailboxRow_form _ _ _ _ (fun mb t u hu => ?_) hm
  all_goals try dsimp only
  repeat' split
  all_goals simp [hu]

@[simp] theorem touchAll_form (s : State) (hm : s.mem.wf = true) : (touchAll s).mem.wf = true := by
  unfold touchAll
  exact forEach_form _ _ _ (fun u b hu => mem_write_wf _ _ _ hu) hm

@[simp] theorem execCodingResume_form (src : CmdSrc) (s : State) (hm : s.mem.wf = true) :
    FormKept (execCodingResume src s) := by
  unfold execCodingResume
  refine mailboxRow_form _ _ _ _ (fun mb t u hu => ?_) hm
  refine ite_form (by simp [hu]) (ite_form (by simp [hu]) (ite_form (by simp [hu]) ?_))
  refine form_of_mem (accepted_mem _ _) (passAgainstZero_form _ (touchAll_form _ ?_))
  rw [setFilter_mem]
  exact mem_zero_wf _ _ _ hu

@[simp] theorem execCodingResumeComplete_form (s : State) (hm : s.mem.wf = true) :
    FormKept (execCodingResumeComplete s) := by
  unfold execCodingResumeComplete
  split <;> simp [hm]

@[simp] theorem flushOldReads_form (s : State) (hm : s.mem.wf = true) : (flushOldReads s).mem.wf = true := by
  unfold flushOldReads
  exact forEach_form _ _ _ (fun u x hu => forEach_form _ _ _ (fun v k hv => by simp [hv]) hu) hm

@[simp] theorem leaveCove_form (s : State) (hm : s.mem.wf = true) : (leaveCove s).mem.wf = true := by
  unfold leaveCove
  refine retryHeld_form _ ?_
  rw [refreshStatusLine_mem]
  refine (?_ : (setFilter (discardStash (freshFlood _)) []).mem.wf = true)
  rw [setFilter_mem, discardStash_mem, freshFlood_mem]
  exact flushOldReads_form _ (completeMerges_form s hm)

@[simp] theorem execCoveRelease_form (src : CmdSrc) (s : State) (hm : s.mem.wf = true) :
    FormKept (execCoveRelease src s) := by
  unfold execCoveRelease
  refine mailboxRow_form _ _ _ _ (fun mb t u hu => ?_) hm
  repeat' split
  all_goals simp [hu]

/-! ### Recovery -/

@[simp] theorem noteMove_mem (s : State) (cove : U16) (pos rank : Nat) : (noteMove s cove pos rank).mem = s.mem := by
  unfold noteMove
  split <;> simp

@[simp] theorem sendAs_mem (s : State) (rank : Nat) (type : Byte) (cove : U16) (epoch ballot arg : U32) (body : List Byte) :
    (sendAs s rank type cove epoch ballot arg body).mem = s.mem := by
  simp [sendAs]

@[simp] theorem abortHere_mem (s : State) (cove : U16) (epoch : U32) (group : U32) (lost : Nat) :
    (abortHere s cove epoch group lost).mem = s.mem := by
  unfold abortHere
  dsimp only
  repeat' split
  all_goals simp

@[simp] theorem startAborts_form (s : State) (lost : List Nat) (hm : s.mem.wf = true) :
    (startAborts s lost).mem.wf = true := by
  unfold startAborts
  split
  · exact hm
  · refine forEach_form _ _ _ (fun u x hu => ?_) hm
    split
    · exact hu
    · refine forEach_form _ _ _ (fun v y hv => ?_) hu
      split <;> simp [hv]

@[simp] theorem sendRankMoves_form (s : State) (pos rank : Nat) (ownToo : Bool) (hm : s.mem.wf = true) :
    (sendRankMoves s pos rank ownToo).mem.wf = true := by
  have h1 : ∀ (l : List Nat) (id : U16) (b : U32) (body : List Byte) (u : State), u.mem.wf = true →
      (forEach l (fun t q => sendAs t q 0x2F id (epochNow t) 0 b body) u).mem.wf = true := by
    intro l id b body u hu
    exact forEach_form _ _ _ (fun v y hv => by simp [hv]) hu
  unfold sendRankMoves
  split
  · dsimp only
    split
    all_goals repeat' refine forEach_form _ _ _ (fun v y hv => ?_) ?_
    all_goals repeat' split
    all_goals simp [*]
  · exact hm

@[simp] theorem tellMoves_mem (s : State) (rank : Nat) : (tellMoves s rank).mem = s.mem := by simp [tellMoves]

@[simp] theorem execRankMove_form (m : AgreeMsg) (s : State) (hm : s.mem.wf = true) : FormKept (execRankMove m s) := by
  unfold execRankMove
  refine agreeIn_form _ _ _ _ (fun u hu => ?_) hm
  all_goals try dsimp only
  repeat' split
  all_goals simp [hu]

@[simp] theorem peerDone_mem (s : State) : (peerDone s).mem = s.mem := by simp [peerDone]

@[simp] theorem execPeerRankMove_form (src : CmdSrc) (s : State) (hm : s.mem.wf = true) :
    FormKept (execPeerRankMove src s) := by
  unfold execPeerRankMove
  refine form_of_mem (peerDone_mem _) (mailboxState_form _ _ _ _ (fun mb t u hu => ?_) hm)
  repeat' split
  all_goals simp [hu]

theorem fitRegion_mem (p : Plan) (g : Region → Region) (f : Fitting) (block : Line) :
    (fitRegion p g f block).state.mem = f.state.mem := by
  obtain ⟨F, hF⟩ : ∃ F, fitRegion = F := ⟨_, rfl⟩
  obtain ⟨rf, hrf⟩ : ∃ f, regionFieldFault = f := ⟨_, rfl⟩
  obtain ⟨hf, hhf⟩ : ∃ f, homeFault = f := ⟨_, rfl⟩
  obtain ⟨rs, hrs⟩ : ∃ f, regionShortfall = f := ⟨_, rfl⟩
  rw [hF]
  delta fitRegion at hF
  rw [hrf, hhf, hrs] at hF
  subst hF
  dsimp only
  repeat' split
  all_goals rfl

theorem fitRegions_mem (p : Plan) (f : Region → Region) (l : List Line) (x : Fitting) :
    (l.foldl (fitRegion p f) x).state.mem = x.state.mem := by
  induction l generalizing x with
  | nil => rfl
  | cons b l ih => exact (ih _).trans (fitRegion_mem p f x b)

theorem takeRegions_mem {s t : State} {p : Plan} {c : CovePlan} {pos : Nat} (h : takeRegions s p c pos = .inr t) :
    t.mem = s.mem := by
  unfold takeRegions at h
  dsimp only at h
  repeat' split at h
  all_goals cases h
  exact fitRegions_mem _ _ _ _

@[simp] theorem execClaim_form (m : AgreeMsg) (fromRank : Nat) (s : State) (hm : s.mem.wf = true) :
    FormKept (execClaim m fromRank s) := by
  simp [execClaim, hm]

@[simp] theorem dropHandover_mem (s : State) : (dropHandover s).mem = s.mem := by simp [dropHandover]

@[simp] theorem claimWork_form (mb : Fin 8) (t : TakenCmd) (s : State) (hm : s.mem.wf = true) :
    (claimWork mb t s).mem.wf = true := by
  unfold claimWork
  dsimp only
  repeat' split
  all_goals try simp [hm]
  next h => rw [takeRegions_mem h]; exact hm

@[simp] theorem execPeerClaim_form (src : CmdSrc) (s : State) (hm : s.mem.wf = true) :
    FormKept (execPeerClaim src s) := by
  simp +contextual [execPeerClaim, hm]

@[simp] theorem claimNext_mem (s : State) : (claimNext s).mem = s.mem := by
  unfold claimNext
  repeat' split
  all_goals simp

@[simp] theorem wish_mem (s : State) (pos : Nat) (reason : U32) (rank : Nat) :
    (wish s pos reason rank).mem = s.mem := by
  simp [wish]

@[simp] theorem claimAckWork_form (m : AgreeMsg) (fromRank : Nat) (s : State) (hm : s.mem.wf = true) :
    (claimAckWork m fromRank s).mem.wf = true := by
  unfold claimAckWork
  extract_lets pos refused
  refine ite_form hm ?_
  have h1 : ∀ (c : Prop) [Decidable c] (o : Option Handover), (if c then { s with recov.handover := o } else s).mem.wf = true :=
    fun c _ o => ite_form hm hm
  refine ite_form (h1 _ _) (ite_form (ite_form (h1 _ _) ?_) ?_)
  · split
    · exact ite_form (h1 _ _) (h1 _ _)
    · exact h1 _ _
  · have h2 : ∀ (c c' : Prop) [Decidable c] [Decidable c'] (o : Option Handover),
        (if c' then { (if c then { s with recov.handover := o } else s) with recov.asked := none }
          else if c then { s with recov.handover := o } else s).mem.wf = true :=
      fun c c' _ _ o => ite_form (h1 _ _) (h1 _ _)
    refine ite_form (ite_form ?_ (h2 _ _ _)) ?_
    · rw [claimNext_mem]
      exact h2 _ _ _
    · rw [claimNext_mem, wish_mem]
      exact h2 _ _ _

@[simp] theorem execClaimAck_form (m : AgreeMsg) (fromRank : Nat) (s : State) (hm : s.mem.wf = true) :
    FormKept (execClaimAck m fromRank s) := by
  simp +contextual [execClaimAck, hm]

@[simp] theorem decideRebuild_form (s : State) (mb : Fin 8) (cove : U16) (pos share : Nat) (handover : Bool) (live : U16) (epoch : U32) (restored : U48) (hm : s.mem.wf = true) :
    (decideRebuild s mb cove pos share handover live epoch restored).mem.wf = true := by
  unfold decideRebuild
  split
  · simp [hm]
  · split
    · simp [hm]
    · dsimp only
      refine ite_form (by simp [hm]) (ite_form (by simp [hm]) (ite_form (by simp [hm]) ?_))
      split
      · simp [hm]
      · next u h =>
        have hu : u.mem.wf = true := by
          split at h
          · cases h; exact hm
          · rw [takeRegions_mem h]; exact hm
        refine ite_form (ite_form ?_ ?_) ?_
        all_goals simp [hu]

@[simp] theorem execRebuildStart_form (src : CmdSrc) (s : State) (hm : s.mem.wf = true) :
    FormKept (execRebuildStart src s) := by
  unfold execRebuildStart
  refine mailboxRow_form _ _ _ _ (fun mb t u hu => ?_) hm
  all_goals try dsimp only
  repeat' split
  all_goals simp [hu]

@[simp] theorem rebuildAnswer_form (s : State) (rank : Nat) (ans : ProbeAns) (hm : s.mem.wf = true) :
    (rebuildAnswer s rank ans).mem.wf = true := by
  unfold rebuildAnswer
  dsimp only
  repeat' split
  all_goals simp [hm]

@[simp] theorem sendInstalled_mem (s : State) : (sendInstalled s).mem = s.mem := by simp [sendInstalled]

@[simp] theorem joinAsTarget_form (s : State) (g : Grant) (c : CovePlan) (live : U16) (epoch : U32) (hm : s.mem.wf = true) :
    (joinAsTarget s g c live epoch).mem.wf = true := by
  unfold joinAsTarget
  refine serveWaiting_form _ ?_
  rw [refreshStatusLine_mem, sendInstalled_mem]
  refine writeLadder_form _ ?_
  rw [setFilter_mem]
  refine mem_zero_wf _ _ _ (forgetOthers_form _ ?_)
  refine (?_ : (discardStash (freshFlood (setPhase (formTide _ none) phHeld))).mem.wf = true)
  simp [hm]

@[simp] theorem cutoverAsTarget_form (s : State) (c : CovePlan) (pos : Nat) (live : U16) (epoch : U32) (hm : s.mem.wf = true) :
    (cutoverAsTarget s c pos live epoch).mem.wf = true := by
  simp [cutoverAsTarget, hm]

/-! ### Re-shard -/

@[simp] theorem asPlanned_mem (s : State) (rank : Nat) : (asPlanned s rank).mem = s.mem := by
  unfold asPlanned
  split <;> simp

@[simp] theorem onShadow_mem (s : State) (f : Shadow → Shadow) : (onShadow s f).mem = s.mem := by simp [onShadow]

@[simp] theorem startPass_form (s : State) (sh : Shadow) (hm : s.mem.wf = true) : (startPass s sh).mem.wf = true := by
  have hp : ∀ (p : BitVec 3) (u : State) (r : List Byte), u.mem.wf = true → (setPhase { u with tide.ownRecord := r } p).mem.wf = true := fun p u r hu => hu
  unfold startPass
  refine ite_form hm (ite_form hm ?_)
  refine withShadow_form _ _ (fun u hu => ?_) (by simp [hm])
  exact hp _ _ _ (passAgainstZero_form _ (writeLadder_form { u with tide.gtcClose := u.time.gtc } hu))

@[simp] theorem tileDone_form (s : State) (region : Byte) (tile : Nat) (hm : s.mem.wf = true) :
    (tileDone s region tile).mem.wf = true := by
  unfold tileDone
  dsimp only
  repeat' split
  all_goals simp [hm]

@[simp] theorem takeMoveLine_form (s : State) (sh : Shadow) (region : Byte) (line : Nat) (v : Line) (hm : s.mem.wf = true) :
    (takeMoveLine s sh region line v).mem.wf = true := by
  unfold takeMoveLine
  split <;> simp [hm]

@[simp] theorem takeCheck_form (s : State) (sh : Shadow) (region : Byte) (tile : Nat) (check : Nat) (hm : s.mem.wf = true) :
    (takeCheck s sh region tile check).mem.wf = true := by
  unfold takeCheck
  split <;> simp [hm]

@[simp] theorem takeTilePart_form (s : State) (sh : Shadow) (region : Byte) (line : Nat) (part : U64) (hm : s.mem.wf = true) :
    (takeTilePart s sh region line part).mem.wf = true := by
  simp [takeTilePart, hm]

@[simp] theorem moveTile_form (s : State) (e : MoveEntry) (i : Nat) (hm : s.mem.wf = true) :
    (moveTile s e i).mem.wf = true := by
  unfold moveTile
  dsimp only
  split
  · refine tileDone_form _ _ _ (forEach_form _ _ _ (fun u x hu => ?_) hm)
    split <;> simp [hu]
  · simp [hm]

@[simp] theorem sendOwnMoves_form (s : State) (p : Plan) (hm : s.mem.wf = true) : (sendOwnMoves s p).mem.wf = true := by
  unfold sendOwnMoves
  exact forEach_form _ _ _ (fun u x hu => forEach_form _ _ _ (fun v k hv => moveTile_form _ _ _ hv) hu) hm

@[simp] theorem redecodeTile_form (s : State) (e : MoveEntry) (i : Nat) (hm : s.mem.wf = true) :
    (redecodeTile s e i).mem.wf = true := by
  unfold redecodeTile
  repeat' split
  all_goals try exact hm
  refine forEach_form _ _ _ (fun u x hu => ?_) hm
  split <;> simp [hu]

@[simp] theorem resendTile_form (s : State) (sh : Shadow) (region : Byte) (tile : Nat) (hm : s.mem.wf = true) :
    (resendTile s sh region tile).mem.wf = true := by
  simp +contextual [resendTile, hm]

@[simp] theorem execMove_form (m : RbMsg) (s : State) (hm : s.mem.wf = true) : FormKept (execMove m s) := by
  unfold execMove
  refine vfIn_form _ _ (fun u hu => ?_) hm
  split
  · exact hu
  · refine ite_form (by simp [hu]) (ite_form (ite_form ?_ ?_) ?_)
    · simp [hu]
    · simp [hu]
    · refine forEach_form _ _ _ (fun v y hv => ?_) hu
      split
      · simp [hv]
      · exact hv

theorem declareShadow_form {s t : State} {plan : Plan} {mb : Option (Fin 8)} (h : s.mem.wf = true)
    (e : declareShadow s plan mb = .inr t) : t.mem.wf = true := by
  have hz : ∀ u : State, u.mem.wf = true →
      (withShadow u fun v => { v with mem := v.mem.zero (slotBase v 0) (slotSize v) }).mem.wf = true :=
    fun u hu => withShadow_form u _ (fun v hv => by simp [hv]) hu
  unfold declareShadow at e
  dsimp only at e
  repeat' split at e
  all_goals cases e
  · exact startPass_form _ _ (sendOwnMoves_form _ _ (by simp [hz, h]))
  · exact sendOwnMoves_form _ _ (by simp [hz, h])

/-! ### Plans -/

@[simp] theorem planFault_mem (s : State) (mb : Fin 8) : (planFault s mb).mem = s.mem := by simp [planFault]

@[simp] theorem sendPlanMsg_mem (s : State) (rank : Nat) (type : Byte) (epoch : Nat) (body : List Byte) :
    (sendPlanMsg s rank type epoch body).mem = s.mem := by
  simp [sendPlanMsg]

@[simp] theorem sendFragments_mem (s : State) (child from_ : Nat) :
    (sendFragments s child from_).mem = s.mem := by
  simp [sendFragments]

@[simp] theorem ackCheck_mem (s : State) : (ackCheck s).mem = s.mem := by
  unfold ackCheck
  dsimp only
  repeat' split
  all_goals simp

@[simp] theorem startBroadcast_mem (s : State) (mb : Fin 8) (image : List Byte) (reshard : Bool) :
    (startBroadcast s mb image reshard).mem = s.mem := by
  simp [startBroadcast]

@[simp] theorem execPlanLoad_form (src : CmdSrc) (plan : Plan) (s : State) (hm : s.mem.wf = true) :
    FormKept (execPlanLoad src plan s) := by
  unfold execPlanLoad
  refine mailboxRow_form _ _ _ _ (fun mb t u hu => ?_) hm
  all_goals try dsimp only
  repeat' split
  all_goals simp [hu]

@[simp] theorem execReshardStart_form (src : CmdSrc) (plan : Plan) (s : State) (hm : s.mem.wf = true) :
    FormKept (execReshardStart src plan s) := by
  unfold execReshardStart
  refine mailboxRow_form _ _ _ _ (fun mb t u hu => ?_) hm
  all_goals try dsimp only
  repeat' split
  all_goals simp [hu]

@[simp] theorem execPeerPlan_form (src : CmdSrc) (plan : Plan) (s : State) (hm : s.mem.wf = true) :
    FormKept (execPeerPlan src plan s) := by
  simp [execPeerPlan, hm]

@[simp] theorem takePlan_mem (s : State) (p : Plan) : (takePlan s p).mem = s.mem := by simp [takePlan]

@[simp] theorem execPlanLoadLocalDone_form (s : State) (hm : s.mem.wf = true) : FormKept (execPlanLoadLocalDone s) := by
  unfold execPlanLoadLocalDone
  rw [formKept_next]
  split
  · exact hm
  · dsimp only
    split
    · split
      · simp [hm]
      · next u h =>
        have hu : u.mem.wf = true := declareShadow_form (by exact hm) h
        split <;> simp [hu]
    · split <;> simp [hm]

@[simp] theorem probeParent_mem (s : State) : (probeParent s).mem = s.mem := by
  unfold probeParent
  split <;> simp

@[simp] theorem judgeImage_mem (s : State) : (judgeImage s).mem = s.mem := by
  unfold judgeImage
  dsimp only
  repeat' split
  all_goals simp

@[simp] theorem takeFragment_mem (s : State) (m : AgreeMsg) : (takeFragment s m).mem = s.mem := by simp [takeFragment]

@[simp] theorem execPlanPart_form (m : AgreeMsg) (s : State) (hm : s.mem.wf = true) :
    FormKept (execPlanPart m s) := by
  simp [execPlanPart, hm]

@[simp] theorem execPlanNeed_form (m : AgreeMsg) (s : State) (hm : s.mem.wf = true) :
    FormKept (execPlanNeed m s) := by
  simp [execPlanNeed, hm]

@[simp] theorem execPlanAck_form (m : AgreeMsg) (s : State) (hm : s.mem.wf = true) :
    FormKept (execPlanAck m s) := by
  simp [execPlanAck, hm]

@[simp] theorem execPlanSilence_form (s : State) (hm : s.mem.wf = true) :
    FormKept (execPlanSilence s) := by
  simp [execPlanSilence, hm]

@[simp] theorem execPlanChildProbe_form (child : Nat) (s : State) (hm : s.mem.wf = true) :
    FormKept (execPlanChildProbe child s) := by
  unfold execPlanChildProbe
  split <;> simp [hm]

@[simp] theorem execPlanDiscard_form (s : State) (hm : s.mem.wf = true) :
    FormKept (execPlanDiscard s) := by
  simp [execPlanDiscard, hm]

@[simp] theorem parentAnswer_mem (s : State) (dead : Bool) : (parentAnswer s dead).mem = s.mem := by
  unfold parentAnswer
  split <;> simp

@[simp] theorem childAnswer_mem (s : State) (child : Nat) (dead : Bool) :
    (childAnswer s child dead).mem = s.mem := by
  simp [childAnswer]

@[simp] theorem askWaker_mem (s : State) : (askWaker s).mem = s.mem := by
  unfold askWaker
  split <;> simp

/-! ### Agreement -/

@[simp] theorem execHeartbeatInstant_form (s : State) (hm : s.mem.wf = true) : FormKept (execHeartbeatInstant s) := by
  unfold execHeartbeatInstant
  rw [formKept_next]
  refine ite_form hm ?_
  rw [refreshStatusLine_mem]
  refine ite_form hm (forEach_form _ _ _ (fun u x hu => ?_) hm)
  split <;> simp [hu]

@[simp] theorem execBeat_form (port : Fin 8) (b : Beat) (s : State) (hm : s.mem.wf = true) :
    FormKept (execBeat port b s) := by
  simp [execBeat, hm]

@[simp] theorem execProbeReceive_form (offset : U16) (s : State) (hm : s.mem.wf = true) :
    FormKept (execProbeReceive offset s) := by
  simp [execProbeReceive, hm]

@[simp] theorem exclude_mem (s : State) (removed : U16) : (exclude s removed).mem = s.mem := by simp [exclude]

@[simp] theorem execNoQuorum_form (s : State) (hm : s.mem.wf = true) : FormKept (execNoQuorum s) := by
  unfold execNoQuorum
  split <;> simp [hm]

@[simp] theorem lossReport_form (s : State) (hm : s.mem.wf = true) :
    (lossReport s).mem.wf = true := by
  simp [lossReport, hm]

@[simp] theorem installLoss_form (s : State) (removed : U16) (hm : s.mem.wf = true) :
    (installLoss s removed).mem.wf = true := by
  unfold installLoss
  extract_lets k resharding dies s1 tide1 agree1 s2 s3 s4 tide4 s5 s6 phase old held hk target rec6 s7 s8 roll rec8 s9 s10
  have h2 : s2.mem.wf = true := form_of_mem (ageReports_mem s) hm
  have h3 : s3.mem.wf = true := ite_form (startAborts_form _ _ h2) h2
  have h4 : s4.mem.wf = true := form_of_mem ((endSeal_mem ..).trans (abandonShadow_mem ..)) h3
  have h5 : s5.mem.wf = true := by
    unfold s5
    split
    · exact form_of_mem (respondOpt_mem ..) (leaveCove_form _ h4)
    · exact h4
  have h6 : s6.mem.wf = true := form_of_mem ((dropStaged_mem _).trans (stopRuns_mem ..)) h5
  have h7 : s7.mem.wf = true := h6
  have h8 : s8.mem.wf = true := form_of_mem ((startSpring_mem _).trans (setRec_mem ..)) h7
  have hfail : (failRecovery s8).mem.wf = true := form_of_mem (failRecovery_mem _) h8
  have h9 : s9.mem.wf = true :=
    ite_form hfail (ite_form hfail (ite_form (form_of_mem (setRec_mem ..) h8) (ite_form (form_of_mem (setRec_mem ..) h8) h8)))
  have h10 : s10.mem.wf = true := ite_form (form_of_mem (reportReshardLoss_mem _) h9) h9
  exact ite_form (form_of_mem (stopRuns_mem ..) h5) (ite_form h10 (form_of_mem (claimNext_mem _) h10))

@[simp] theorem installRenewal_mem (s : State) : (installRenewal s).mem = s.mem := by simp [installRenewal]

@[simp] theorem installJoin_form (s : State) (pos rank : Nat) (hm : s.mem.wf = true) :
    (installJoin s pos rank).mem.wf = true := by
  simp [installJoin, hm]

@[simp] theorem installHandover_form (s : State) (rank : Nat) (hm : s.mem.wf = true) :
    (installHandover s rank).mem.wf = true := by
  have hc : ∀ r u, u.mem.wf = true → (installHandover.captainPart r u).mem.wf = true := by
    intro r u hu
    unfold installHandover.captainPart
    split
    · refine ite_form (ite_form ?_ ?_) hu
      · simp [hu]
      · simp [hu]
    · exact hu
  unfold installHandover
  split
  · exact ite_form (by simp [hm]) (hc _ _ hm)
  · exact hc _ _ hm

@[simp] theorem takeView_mem (s : State) (m : AgreeMsg) (live : U16) (joining : U32) :
    (takeView s m live joining).mem = s.mem := by
  simp [takeView]

@[simp] theorem installView_form (s : State) (m : AgreeMsg) (live : U16) (joining : U32) (hm : s.mem.wf = true) :
    (installView s m live joining).mem.wf = true := by
  unfold installView
  extract_lets before gone added reason s1 s2 s3 s4
  have h1 : s1.mem.wf = true := by simp [s1, hm]
  have h2 : s2.mem.wf = true := ite_form (installLoss_form _ _ h1) h1
  have h3 : s3.mem.wf = true :=
    ite_form (installJoin_form _ _ _ h2) (ite_form (installHandover_form _ _ h2) (ite_form (by simp [h2]) h2))
  have h4 : s4.mem.wf = true := ite_form (serveWaiting_form _ (by simp [h3])) h3
  rw [refreshStatusLine_mem]
  exact ite_form (by simp [h4]) h4

@[simp] theorem afterInstall_form (s : State) (hm : s.mem.wf = true) :
    (afterInstall s).mem.wf = true := by
  simp [afterInstall, hm]

@[simp] theorem memberInstall_form (s : State) (m : AgreeMsg) (hm : s.mem.wf = true) :
    (memberInstall s m).mem.wf = true := by
  simp [memberInstall, hm]

@[simp] theorem joinerInstall_form (s : State) (m : AgreeMsg) (hm : s.mem.wf = true) :
    (joinerInstall s m).mem.wf = true := by
  unfold joinerInstall
  split
  · next g p _ _ =>
    refine ite_form hm ?_
    split
    · exact hm
    · next c _ =>
      have h : (cutoverAsTarget s c g.position (installLive m) m.epoch).mem.wf = true := cutoverAsTarget_form _ _ _ _ _ hm
      refine ite_form (ite_form ?_ h) (ite_form (joinAsTarget_form _ _ _ _ _ hm) hm)
      exact flippedCheck_form _ (sendRankMoves_form _ _ _ _ h)
  · exact hm

@[simp] theorem inJob_form (s : State) (m : AgreeMsg) (f : State → State)
    (hf : ∀ t, t.mem.wf = true → (f t).mem.wf = true) (h : s.mem.wf = true) : (inJob s m f).mem.wf = true := by
  unfold inJob
  split <;> simp [hf, h]

@[simp] theorem memberMsg_form (s : State) (m : AgreeMsg) (ahead : Nat) (f : State → State)
    (hf : ∀ t, t.mem.wf = true → (f t).mem.wf = true) (h : s.mem.wf = true) : (memberMsg s m ahead f).mem.wf = true :=
  agreeIn_form s m true _ (fun t ht => inJob_form t m _ (fun u hu => by simp [hu, hf]) ht) h

@[simp] theorem execSuspect_form (m : AgreeMsg) (s : State) (hm : s.mem.wf = true) :
    FormKept (execSuspect m s) := by
  simp [execSuspect, hm]

@[simp] theorem execPrepare_form (m : AgreeMsg) (s : State) (hm : s.mem.wf = true) : FormKept (execPrepare m s) := by
  unfold execPrepare
  refine memberMsg_form _ _ _ _ (fun u hu => ?_) hm
  all_goals try dsimp only
  repeat' split
  all_goals simp [hu]

@[simp] theorem execAccept_form (m : AgreeMsg) (s : State) (hm : s.mem.wf = true) :
    FormKept (execAccept m s) := by
  simp [execAccept, hm]

@[simp] theorem handInfos_mem (s : State) (p : Proposal) : (handInfos s p).mem = s.mem := by simp [handInfos]

@[simp] theorem endAccept_form (s : State) (p : Proposal) (hm : s.mem.wf = true) : (endAccept s p).mem.wf = true := by
  have h1 : ∀ (l : List Nat) (b : List Byte),
      (forEach l (fun t q => sendAgreePos t q 0x27 p.epoch p.ballot p.reason b) s).mem.wf = true := fun l b =>
    forEach_form _ _ _ (fun u x hu => form_of_mem (sendAgreePos_mem ..) hu) hm
  have h2 : ∀ (l : List Nat) (b : List Byte), (if p.joining ≠ noRank then
      sendAgree (forEach l (fun t q => sendAgreePos t q 0x27 p.epoch p.ballot p.reason b) s) p.joining.toNat 0x27 0xFF p.epoch p.ballot p.reason b
      else forEach l (fun t q => sendAgreePos t q 0x27 p.epoch p.ballot p.reason b) s).mem.wf = true :=
    fun l b => ite_form (form_of_mem (sendAgree_mem ..) (h1 l b)) (h1 l b)
  unfold endAccept
  refine ite_form (by simp [hm]) (ite_form (ite_form (installView_form _ _ _ _ (h2 _ _)) ?_) ?_)
  · rw [proposeDue_mem]
    refine lossReport_form _ ?_
    rw [handInfos_mem, sendInstalled_mem]
    exact installView_form _ _ _ _ (h2 _ _)
  · rw [exclude_mem]
    exact h2 _ _

@[simp] theorem proposalStep_form (s : State) (hm : s.mem.wf = true) : (proposalStep s).mem.wf = true := by
  unfold proposalStep
  split <;> simp [hm]

@[simp] theorem execPromise_form (m : AgreeMsg) (s : State) (hm : s.mem.wf = true) : FormKept (execPromise m s) := by
  unfold execPromise
  refine memberMsg_form _ _ _ _ (fun u hu => ?_) hm
  all_goals try dsimp only
  repeat' split
  all_goals simp [hu]

@[simp] theorem execAccepted_form (m : AgreeMsg) (s : State) (hm : s.mem.wf = true) : FormKept (execAccepted m s) := by
  unfold execAccepted
  refine memberMsg_form _ _ _ _ (fun u hu => ?_) hm
  all_goals try dsimp only
  repeat' split
  all_goals simp [hu]

@[simp] theorem execNack_form (m : AgreeMsg) (s : State) (hm : s.mem.wf = true) : FormKept (execNack m s) := by
  unfold execNack
  refine memberMsg_form _ _ _ _ (fun u hu => ?_) hm
  all_goals try dsimp only
  repeat' split
  all_goals simp [hu]

@[simp] theorem execProposeWait_form (s : State) (hm : s.mem.wf = true) : FormKept (execProposeWait s) := by
  unfold execProposeWait
  split <;> simp [hm]

@[simp] theorem execInstall_form (m : AgreeMsg) (s : State) (hm : s.mem.wf = true) : FormKept (execInstall m s) := by
  unfold execInstall
  refine agreeIn_form _ _ _ _ (fun v hv => inJob_form _ _ _ (fun u hu => ?_) hv) hm
  repeat' split
  all_goals simp [hu]

@[simp] theorem execInstalled_form (m : AgreeMsg) (s : State) (hm : s.mem.wf = true) :
    FormKept (execInstalled m s) := by
  simp +contextual [execInstalled, hm]

@[simp] theorem execCollAbort_form (m : AgreeMsg) (s : State) (hm : s.mem.wf = true) :
    FormKept (execCollAbort m s) := by
  simp +contextual [execCollAbort, hm]

@[simp] theorem execCollStopped_form (_group : U16) (s : State) (hm : s.mem.wf = true) :
    FormKept (execCollStopped _group s) := by
  simp [execCollStopped, hm]

@[simp] theorem execRenewalPropose_form (s : State) (hm : s.mem.wf = true) :
    FormKept (execRenewalPropose s) := by
  simp [execRenewalPropose, hm]

@[simp] theorem watchPort_mem (s : State) (q : Fin 8) (rank : Nat) :
    (watchPort s q rank).mem = s.mem := by
  simp [watchPort]

@[simp] theorem refuteMember_mem (s : State) (rank pos : Nat) :
    (refuteMember s rank pos).mem = s.mem := by
  simp [refuteMember]

@[simp] theorem confirmStep_form (s : State) (p : Nat) (hm : s.mem.wf = true) :
    (confirmStep s p).mem.wf = true := by
  simp [confirmStep, hm]

@[simp] theorem portAnswer_form (s : State) (rank : Nat) (dead : Bool) (q : Fin 8) (hm : s.mem.wf = true) :
    (portAnswer s rank dead q).mem.wf = true := by
  unfold portAnswer
  repeat' split
  all_goals simp [hm]

@[simp] theorem probeAnswer_form (s : State) (rank : Nat) (ans : ProbeAns) (why : ProbeWhy) (hm : s.mem.wf = true) :
    (probeAnswer s rank ans why).mem.wf = true := by
  unfold probeAnswer
  repeat' split
  all_goals simp [hm]

@[simp] theorem execProbeResult_form (rank : Nat) (ans : ProbeAns) (s : State) (hm : s.mem.wf = true) :
    FormKept (execProbeResult rank ans s) := by
  unfold execProbeResult
  split <;> simp [hm]

/-! ### The exchange unit -/

@[simp] theorem unitStore_form (s : State) (m : Master) (line : Nat) (be : U64) (data : Line) (hm : s.mem.wf = true) :
    (unitStore s m line be data).mem.wf = true := by
  simp [unitStore, hm]

@[simp] theorem unitWrite_form (s : State) (m : Master) (a : Nat) (bs : List Byte) (hm : s.mem.wf = true) :
    (unitWrite s m a bs).mem.wf = true := by
  simp +contextual [unitWrite, hm]

@[simp] theorem sendEx_mem (s : State) (r : Reduce) (dest : Nat) (type : Byte) (x : ExRec) :
    (sendEx s r dest type x).mem = s.mem := by
  simp [sendEx]

@[simp] theorem sendExps_mem (s : State) (r : Reduce) (o : Nat) : (sendExps s r o).mem = s.mem := by simp [sendExps]

@[simp] theorem sendData_mem (s : State) (r : Reduce) (o : Nat) : (sendData s r o).mem = s.mem := by simp [sendData]

@[simp] theorem setReduce_mem (s : State) (r : Reduce) : (setReduce s r).mem = s.mem := by simp [setReduce]

@[simp] theorem settleDisable_mem (s : State) : (settleDisable s).mem = s.mem := by simp [settleDisable]

@[simp] theorem endReduce_mem (s : State) (r : Reduce) (status detail stopped cancel : Nat) :
    (endReduce s r status detail stopped cancel).mem = s.mem := by
  simp [endReduce]

@[simp] theorem faultReduce_mem (s : State) (r : Reduce) (detail cancel : Nat) :
    (faultReduce s r detail cancel).mem = s.mem := by
  simp [faultReduce]

@[simp] theorem cancelReduce_mem (s : State) (r : Reduce) : (cancelReduce s r).mem = s.mem := by simp [cancelReduce]

@[simp] theorem writeMeta_form (s : State) (r : Reduce) (m : Nat) (b : ExBlock) (hm : s.mem.wf = true) :
    (writeMeta s r m b).mem.wf = true := by
  simp [writeMeta, hm]

@[simp] theorem setBlock_form (s : State) (r : Reduce) (m : Nat) (b : ExBlock) (hm : s.mem.wf = true) :
    (setBlock s r m b).mem.wf = true := by
  simp [setBlock, hm]

@[simp] theorem spill_form (s : State) (c : StageSlot) (hm : s.mem.wf = true) : (spill s c).mem.wf = true := by
  unfold spill
  repeat' split
  all_goals simp [hm]

@[simp] theorem addBlock_form (s : State) (g : U16) (q : U32) (m : Nat) (vals : List Int) (hm : s.mem.wf = true) :
    (addBlock s g q m vals).mem.wf = true := by
  unfold addBlock
  dsimp only
  repeat' split
  all_goals simp [hm]

@[simp] theorem contribute_form (s : State) (g : U16) (q : U32) (m : Nat) (vs : List FVal) (hm : s.mem.wf = true) :
    (contribute s g q m vs).mem.wf = true := by
  unfold contribute
  repeat' split
  all_goals simp [hm]

@[simp] theorem grantNow_form (s : State) (r : Reduce) (hm : s.mem.wf = true) :
    (grantNow s r).mem.wf = true := by
  simp +contextual [grantNow, hm]

@[simp] theorem runWork_form (s : State) (r : Reduce) (w : ExWork) (h : s.mem.wf = true) :
    (runWork s r w).mem.wf = true := by
  cases w <;> simp [runWork, h]

@[simp] theorem wakeReduce_form (s : State) (g : U16) (q : U32) (hm : s.mem.wf = true) :
    (wakeReduce s g q).mem.wf = true := by
  unfold wakeReduce
  split
  · exact hm
  · refine forEach_form _ _ _ (fun u x hu => ?_) hm
    repeat' split
    all_goals simp [hu]

@[simp] theorem dueWork_form (s : State) (r : Reduce) (ws : List ExWork) (hm : s.mem.wf = true) :
    (dueWork s r ws).mem.wf = true := by
  simp [dueWork, hm]

@[simp] theorem reduceStart_form (mb : Fin 8) (t : TakenCmd) (s : State) (hm : s.mem.wf = true) :
    (reduceStart mb t s).mem.wf = true := by
  have h2 : ∀ (e : ExchS), { accepted s mb with exch := e }.mem.wf = true := fun e => form_of_mem (accepted_mem _ _) hm
  unfold reduceStart
  split
  · simp [hm]
  · refine ite_form (by simp [hm]) (ite_form (by simp [hm]) (ite_form (by simp [hm]) ?_))
    dsimp only
    split
    · simp [hm]
    · simp [hm]
    · refine ite_form (dueWork_form _ _ _ ?_) (dueWork_form _ _ _ (h2 _))
      exact forEach_form _ _ _ (fun u x hu => writeMeta_form _ _ _ _ hu) (h2 _)

@[simp] theorem execExchReduce_form (src : CmdSrc) (s : State) (hm : s.mem.wf = true) :
    FormKept (execExchReduce src s) := by
  simp +contextual [execExchReduce, hm]

@[simp] theorem answerOffer_mem (s : State) (accept : Bool) :
    (answerOffer s accept).mem = s.mem := by
  simp [answerOffer]

@[simp] theorem onRecord_form (s : State) (x : ExRec) (f : State → Reduce → State)
    (hf : ∀ t r, t.mem.wf = true → (f t r).mem.wf = true) (hm : s.mem.wf = true) : (onRecord s x f).mem.wf = true := by
  unfold onRecord
  repeat' split
  all_goals simp [hm, hf]

@[simp] theorem expWork_form (s : State) (x : ExRec) (r : Reduce) (hm : s.mem.wf = true) :
    (expWork s x r).mem.wf = true := by
  unfold expWork
  dsimp only
  repeat' split
  all_goals simp [hm]

@[simp] theorem execExp_form (r : ExRec) (s : State) (hm : s.mem.wf = true) :
    FormKept (execExp r s) := by
  simp +contextual [execExp, hm]

@[simp] theorem execGrant_form (r : ExRec) (s : State) (hm : s.mem.wf = true) :
    FormKept (execGrant r s) := by
  simp +contextual [execGrant, hm]

@[simp] theorem formResults_form (s : State) (g : U16) (q : U32) (hm : s.mem.wf = true) :
    (formResults s g q).mem.wf = true := by
  unfold formResults
  split <;> simp [hm]

@[simp] theorem dataWork_form (s : State) (x : ExRec) (r : Reduce) (hm : s.mem.wf = true) :
    (dataWork s x r).mem.wf = true := by
  unfold dataWork
  split
  · simp [hm]
  · exact ite_form (by simp [hm]) (formResults_form _ _ _ (forEach_form _ _ _ (fun u y hu => contribute_form _ _ _ _ _ hu) hm))

@[simp] theorem execData_form (r : ExRec) (s : State) (hm : s.mem.wf = true) :
    FormKept (execData r s) := by
  simp +contextual [execData, hm]

@[simp] theorem execCancel_form (r : ExRec) (s : State) (hm : s.mem.wf = true) :
    FormKept (execCancel r s) := by
  simp [execCancel, hm]

@[simp] theorem answerAborts_mem (s : State) (r : Reduce) : (answerAborts s r).mem = s.mem := by simp [answerAborts]

@[simp] theorem finishReduce_form (s : State) (r : Reduce) (hm : s.mem.wf = true) :
    (finishReduce s r).mem.wf = true := by
  unfold finishReduce
  repeat' split
  all_goals simp [hm]

@[simp] theorem execExchReduceComplete_form (group : U16) (seq : U32) (s : State) (hm : s.mem.wf = true) :
    FormKept (execExchReduceComplete group seq s) := by
  unfold execExchReduceComplete
  dsimp only
  repeat' split
  all_goals simp [hm]

@[simp] theorem compressOne_form (s : State) (hm : s.mem.wf = true) : (compressOne s).mem.wf = true := by
  unfold compressOne
  split <;> simp [hm]

@[simp] theorem compressMany_form (n : Nat) (s : State) (h : s.mem.wf = true) : (compressMany n s).mem.wf = true := by
  induction n generalizing s with
  | zero => exact h
  | succ n ih => exact ih _ (by simp [h])

@[simp] theorem compressStart_mem (mb : Fin 8) (t : TakenCmd) (s : State) : (compressStart mb t s).mem = s.mem := by
  unfold compressStart
  dsimp only
  repeat' split
  all_goals simp

@[simp] theorem execExchCompress_form (src : CmdSrc) (s : State) (hm : s.mem.wf = true) :
    FormKept (execExchCompress src s) := by
  simp [execExchCompress, hm]

@[simp] theorem endCompress_mem (s : State) (c : Compress) (status detail stopped : Nat) :
    (endCompress s c status detail stopped).mem = s.mem := by
  simp [endCompress]

@[simp] theorem execExchCompressComplete_form (s : State) (hm : s.mem.wf = true) :
    FormKept (execExchCompressComplete s) := by
  unfold execExchCompressComplete
  dsimp only
  repeat' split
  all_goals simp [hm]

@[simp] theorem disableReduce_mem (s : State) (r : Reduce) : (disableReduce s r).mem = s.mem := by simp [disableReduce]

@[simp] theorem stopExchange_mem (s : State) : (stopExchange s).mem = s.mem := by
  unfold stopExchange
  dsimp only
  repeat' split
  all_goals simp

@[simp] theorem writeExchEn_mem (s : State) (on : Bool) : (writeExchEn s on).mem = s.mem := by simp [writeExchEn]

/-! ### The apply unit -/

@[simp] theorem recipeLoad_mem (mb : Fin 8) (t : TakenCmd) (s : State) : (recipeLoad mb t s).mem = s.mem := by
  unfold recipeLoad
  dsimp only
  repeat' split
  all_goals simp

@[simp] theorem execRecipeLoad_form (src : CmdSrc) (s : State) (hm : s.mem.wf = true) :
    FormKept (execRecipeLoad src s) := by
  simp [execRecipeLoad, hm]

@[simp] theorem issueLine_form (s : State) (c : Fin 4) (p : Nat × U64 × Line) (hm : s.mem.wf = true) :
    (issueLine s c p).mem.wf = true := by
  simp [issueLine, hm]

@[simp] theorem computeTile_form (s : State) (c : Fin 4) (r : ApplyRun) (layer tile k : Nat) (hm : s.mem.wf = true) :
    (computeTile s c r layer tile k).mem.wf = true := by
  unfold computeTile
  split
  · exact hm
  · dsimp only
    split
    · exact unitWrite_form _ _ _ _ (forEach_form _ _ _ (fun u x hu => forEach_form _ _ _ (fun v k hv => issueLine_form _ _ _ hv) hu) hm)
    · exact forEach_form _ _ _ (fun u x hu => forEach_form _ _ _ (fun v k hv => issueLine_form _ _ _ hv) hu) hm

@[simp] theorem writeCursor_form (s : State) (pos : U16) (hm : s.mem.wf = true) :
    (writeCursor s pos).mem.wf = true := by
  unfold writeCursor
  split <;> simp [hm]

@[simp] theorem startTiles_form (n : Nat) (s : State) (h : s.mem.wf = true) : (startTiles n s).mem.wf = true := by
  induction n generalizing s with
  | zero => exact h
  | succ n ih =>
    unfold startTiles
    split
    · exact h
    · dsimp only
      repeat' split
      all_goals simp [ih, h]

@[simp] theorem applyStart_form (mb : Fin 8) (t : TakenCmd) (s : State) (hm : s.mem.wf = true) :
    (applyStart mb t s).mem.wf = true := by
  unfold applyStart
  dsimp only
  repeat' split
  all_goals simp [hm]

@[simp] theorem execApplyRun_form (src : CmdSrc) (s : State) (hm : s.mem.wf = true) :
    FormKept (execApplyRun src s) := by
  simp +contextual [execApplyRun, hm]

@[simp] theorem beginTest_mem (s : State) (mb : Fin 8) (slice : Bool) (i : Nat) :
    (beginTest s mb slice i).mem = s.mem := by
  simp [beginTest]

@[simp] theorem fenceDone_mem (s : State) (mb : Option (Fin 8)) (slice test : Bool) (i : Nat) :
    (fenceDone s mb slice test i).mem = s.mem := by
  unfold fenceDone
  repeat' split
  all_goals simp

@[simp] theorem switchIn_mem (s : State) : (switchIn s).mem = s.mem := by
  unfold switchIn
  split <;> simp

@[simp] theorem execApplyTileDone_form (cluster : Fin 4) (s : State) (hm : s.mem.wf = true) :
    FormKept (execApplyTileDone cluster s) := by
  unfold execApplyTileDone
  repeat' split
  all_goals simp [hm]

@[simp] theorem noteApply_mem (s : State) (ns : Nat) : (noteApply s ns).mem = s.mem := by
  unfold noteApply
  split <;> simp

@[simp] theorem endRun_mem (s : State) (r : ApplyRun) (status detail : Nat) (results : List (Nat × Nat × Nat)) :
    (endRun s r status detail results).mem = s.mem := by
  simp [endRun]

@[simp] theorem parkRun_mem (s : State) (r : ApplyRun) (layer tile : Nat) :
    (parkRun s r layer tile).mem = s.mem := by
  simp [parkRun]

@[simp] theorem stopClusters_form (s : State) (r : ApplyRun) (hm : s.mem.wf = true) :
    (stopClusters s r).mem.wf = true := by
  unfold stopClusters
  refine forEach_form _ _ _ (fun u x hu => ?_) hm
  split
  · exact hu
  · exact computeTile_form _ _ _ _ _ _ hu

@[simp] theorem execApplyRunComplete_form (s : State) (hm : s.mem.wf = true) : FormKept (execApplyRunComplete s) := by
  unfold execApplyRunComplete
  dsimp only
  repeat' split
  all_goals simp [hm]

@[simp] theorem stopApply_mem (s : State) (k : StopKind) : (stopApply s k).mem = s.mem := by
  unfold stopApply
  split <;> simp

@[simp] theorem writeApplyEn_mem (s : State) (on : Bool) : (writeApplyEn s on).mem = s.mem := by simp [writeApplyEn]

@[simp] theorem writeMap_mem (s : State) (value : U32) : (writeMap s value).mem = s.mem := by simp [writeMap]

@[simp] theorem execPoisonedReadData_form (unit : LoadUnit) (addr : U64) (s : State) (hm : s.mem.wf = true) :
    FormKept (execPoisonedReadData unit addr s) := by
  unfold execPoisonedReadData
  repeat' split
  all_goals simp [hm]

/-! ### Resets -/

@[simp] theorem releaseMsp_form (s : State) (hm : s.mem.wf = true) :
    (releaseMsp s).mem.wf = true := by
  simp +contextual [releaseMsp, hm]

@[simp] theorem showPorts_form (s : State) (p : Bool × Bool × Bool × Bool) (hm : s.mem.wf = true) :
    (showPorts s p).mem.wf = true := by
  simp [showPorts, hm]

@[simp] theorem setPresence_form (s : State) (p : Bool × Bool × Bool × Bool) (hm : s.mem.wf = true) :
    (setPresence s p).mem.wf = true := by
  unfold setPresence
  split <;> simp [hm]

@[simp] theorem clearedBy_form (s : State) (r : ResetS) (hm : s.mem.wf = true) :
    (clearedBy s r).mem.wf = true := by
  simp [clearedBy, hm]

@[simp] theorem powerOnReset_form (s : State) (hm : s.mem.wf = true) :
    (powerOnReset s).mem.wf = true := by
  simp [powerOnReset, hm]

@[simp] theorem execPowerOn_form (s : State) (hm : s.mem.wf = true) :
    FormKept (execPowerOn s) := by
  simp [execPowerOn, hm]

@[simp] theorem execPowerRemoval_form (s : State) (hm : s.mem.wf = true) :
    FormKept (execPowerRemoval s) := by
  simp [execPowerRemoval, hm]

@[simp] theorem sysReset_form (s : State) (mark : ResetS → ResetS) (hm : s.mem.wf = true) :
    (sysReset s mark).mem.wf = true := by
  simp [sysReset, hm]

@[simp] theorem execSysSupply_form (s : State) (hm : s.mem.wf = true) :
    FormKept (execSysSupply s) := by
  simp [execSysSupply, hm]

@[simp] theorem execSysThermal_form (s : State) (hm : s.mem.wf = true) :
    FormKept (execSysThermal s) := by
  simp [execSysThermal, hm]

@[simp] theorem execResetInitDone_form (s : State) (hm : s.mem.wf = true) :
    FormKept (execResetInitDone s) := by
  simp [execResetInitDone, hm]

@[simp] theorem dropMailboxes_mem (s : State) : (dropMailboxes s).mem = s.mem := by simp [dropMailboxes]

@[simp] theorem cancelByReset_mem (s : State) (r : Reduce) : (cancelByReset s r).mem = s.mem := by simp [cancelByReset]

@[simp] theorem resetExchange_form (s : State) (hm : s.mem.wf = true) : (resetExchange s).mem.wf = true := by
  unfold resetExchange
  dsimp only
  repeat' split
  all_goals simp [hm]

@[simp] theorem stopAtOnce_form (s : State) (r : ApplyRun) (hm : s.mem.wf = true) :
    (stopAtOnce s r).mem.wf = true := by
  simp [stopAtOnce, hm]

@[simp] theorem resetApply_form (s : State) (hm : s.mem.wf = true) : (resetApply s).mem.wf = true := by
  unfold resetApply
  split <;> simp [hm]

@[simp] theorem startCoreReset_form (s : State) (mgp wdog : Bool) (hm : s.mem.wf = true) :
    (startCoreReset s mgp wdog).mem.wf = true := by
  simp [startCoreReset, hm]

@[simp] theorem requestCore_form (s : State) (mgp wdog : Bool) (hm : s.mem.wf = true) :
    (requestCore s mgp wdog).mem.wf = true := by
  simp [requestCore, hm]

@[simp] theorem releaseHeldReset_form (s : State) (hm : s.mem.wf = true) : (releaseHeldReset s).mem.wf = true := by
  unfold releaseHeldReset
  split <;> simp [hm]

@[simp] theorem execWatchdogExpiry_form (s : State) (hm : s.mem.wf = true) :
    FormKept (execWatchdogExpiry s) := by
  simp [execWatchdogExpiry, hm]

@[simp] theorem execCoreResetStopTimeout_form (s : State) (hm : s.mem.wf = true) :
    FormKept (execCoreResetStopTimeout s) := by
  unfold execCoreResetStopTimeout
  split <;> simp [hm]

@[simp] theorem resetRequest_form (s : State) (port : Port) (f : State → State)
    (hf : ∀ t, t.mem.wf = true → (f t).mem.wf = true) (h : s.mem.wf = true) : (resetRequest s port f).mem.wf = true := by
  simp [resetRequest, hf, h]

@[simp] theorem sysRequest_form (s : State) (hm : s.mem.wf = true) :
    (sysRequest s).mem.wf = true := by
  simp [sysRequest, hm]

@[simp] theorem execRstCtrlSys_form (port : Port) (s : State) (hm : s.mem.wf = true) :
    FormKept (execRstCtrlSys port s) := by
  simp +contextual [execRstCtrlSys, hm]

@[simp] theorem coreRequest_form (s : State) (hm : s.mem.wf = true) :
    (coreRequest s).mem.wf = true := by
  simp [coreRequest, hm]

@[simp] theorem execRstCtrlCore_form (port : Port) (s : State) (hm : s.mem.wf = true) :
    FormKept (execRstCtrlCore port s) := by
  simp +contextual [execRstCtrlCore, hm]

@[simp] theorem restartFailed_mem (s : State) : (restartFailed s).mem = s.mem := by simp [restartFailed]

@[simp] theorem clearUnit_form (s : State) (u : Nat) (hm : s.mem.wf = true) : (clearUnit s u).mem.wf = true := by
  unfold clearUnit
  split <;> simp [hm]

@[simp] theorem resetUnit_form (s : State) (u : Nat) (hm : s.mem.wf = true) :
    (resetUnit s u).mem.wf = true := by
  simp [resetUnit, hm]

@[simp] theorem unitRequest_form (units : BitVec 4) (s : State) (hm : s.mem.wf = true) :
    (unitRequest units s).mem.wf = true := by
  simp +contextual [unitRequest, hm]

@[simp] theorem execRstCtrlUnit_form (port : Port) (units : BitVec 4) (s : State) (hm : s.mem.wf = true) :
    FormKept (execRstCtrlUnit port units s) := by
  simp +contextual [execRstCtrlUnit, hm]

@[simp] theorem failLoad_mem (s : State) (cause : BitVec 3) : (failLoad s cause).mem = s.mem := by simp [failLoad]

@[simp] theorem storeImage_mem (s : State) (bs : List Byte) : (storeImage s bs).mem = s.mem := by simp [storeImage]

@[simp] theorem takeImage_mem (s : State) (bs : List Byte) : (takeImage s bs).mem = s.mem := by
  unfold takeImage
  repeat' split
  all_goals simp

@[simp] theorem execFwImageTransaction_form (offset : U32) (bytes : List Byte) (s : State) (hm : s.mem.wf = true) :
    FormKept (execFwImageTransaction offset bytes s) := by
  simp [execFwImageTransaction, hm]

@[simp] theorem bootCheck_mem (s : State) : (bootCheck s).mem = s.mem := by simp [bootCheck]

@[simp] theorem execBootCheckDone_form (s : State) (hm : s.mem.wf = true) :
    FormKept (execBootCheckDone s) := by
  simp [execBootCheckDone, hm]

@[simp] theorem freshDataMemory_mem (s : State) : (freshDataMemory s).mem = s.mem := by simp [freshDataMemory]

@[simp] theorem answerInterrupted_mem (s : State) (mb : Fin 8) :
    (answerInterrupted s mb).mem = s.mem := by
  simp [answerInterrupted]

@[simp] theorem finishCoreReset_form (s : State) (hm : s.mem.wf = true) : (finishCoreReset s).mem.wf = true := by
  have hp : ∀ (t : State) (r : ResetS) (w : MailboxS), t.mem.wf = true → ({ t with rst := r, mb := w }).mem.wf = true := fun t r w ht => ht
  have h : (forEach (List.finRange 8) answerInterrupted { s with stat.fwState := V3.all fwIsRunning }).mem.wf = true :=
    forEach_form _ _ _ (fun u x hu => form_of_mem (answerInterrupted_mem u x) hu) (by exact hm)
  unfold finishCoreReset
  rw [servePeer_mem]
  exact setPresence_form _ _ (hp _ _ _ h)

@[simp] theorem finishBoot_form (s : State) (hm : s.mem.wf = true) :
    (finishBoot s).mem.wf = true := by
  simp [finishBoot, hm]

/-! ### Repair -/

theorem installRemap_mem {s t : State} {m word : Nat} (h : installRemap s m word = some t) : t.mem = s.mem := by
  unfold installRemap at h
  repeat' split at h
  all_goals simp at h
  all_goals first | (subst h; rfl) | (obtain ⟨_, _, rfl⟩ := h; rfl)

@[simp] theorem releaseRemap_mem (s : State) (m word : Nat) :
    (releaseRemap s m word).mem = s.mem := by
  simp [releaseRemap]

@[simp] theorem remapWork_form (mb : Fin 8) (t : TakenCmd) (s : State) (hm : s.mem.wf = true) :
    (remapWork mb t s).mem.wf = true := by
  unfold remapWork
  dsimp only
  repeat' split
  all_goals try simp [hm]
  next h => rw [installRemap_mem h]; exact hm

@[simp] theorem execLatticeRemap_form (src : CmdSrc) (s : State) (hm : s.mem.wf = true) :
    FormKept (execLatticeRemap src s) := by
  simp +contextual [execLatticeRemap, hm]

@[simp] theorem execHyLatticeAccess_form (w : LatticeWrite) (s : State) (hm : s.mem.wf = true) :
    FormKept (execHyLatticeAccess w s) := by
  unfold execHyLatticeAccess
  repeat' split
  all_goals simp [hm]

@[simp] theorem firmwareRemap_form (s : State) (m word : Nat) (hm : s.mem.wf = true) :
    (firmwareRemap s m word).mem.wf = true := by
  unfold firmwareRemap
  split
  · next h => exact (congrArg Mem.wf (installRemap_mem h)).trans hm
  · simp [hm]

@[simp] theorem noteMend_form (s : State) (m word : Nat) (hm : s.mem.wf = true) :
    (noteMend s m word).mem.wf = true := by
  unfold noteMend
  split <;> simp [hm]

@[simp] theorem mend_form (s : State) (m tile sym kind : Nat) (hm : s.mem.wf = true) :
    (mend s m tile sym kind).mem.wf = true := by
  unfold mend
  dsimp only
  split <;> simp [hm]

theorem fenceCluster_mem {s t : State} {p : Nat} {mb : Option (Fin 8)} {test : Bool} (h : fenceCluster s p mb test = some t) :
    t.mem = s.mem := by
  unfold fenceCluster at h
  repeat' split at h
  all_goals simp at h
  all_goals (subst h; simp)

theorem fenceSlice_mem {s t : State} {i : Nat} {mb : Option (Fin 8)} {test : Bool} (h : fenceSlice s i mb test = some t) :
    t.mem = s.mem := by
  unfold fenceSlice at h
  split at h
  all_goals simp at h
  subst h; simp

theorem returnUnit_mem {s t : State} {b : Bool} {i : Nat} (h : returnUnit s b i = some t) : t.mem = s.mem := by
  unfold returnUnit at h
  repeat' split at h
  all_goals simp at h
  all_goals (subst h; simp)

@[simp] theorem fenceWork_form (mb : Fin 8) (t : TakenCmd) (s : State) (hm : s.mem.wf = true) :
    (fenceWork mb t s).mem.wf = true := by
  unfold fenceWork
  dsimp only
  repeat' split
  all_goals try simp [hm]
  all_goals next h => first | simp [returnUnit_mem h, hm] | simp [fenceSlice_mem h, hm] | simp [fenceCluster_mem h, hm]

@[simp] theorem execUnitFence_form (src : CmdSrc) (s : State) (hm : s.mem.wf = true) :
    FormKept (execUnitFence src s) := by
  simp +contextual [execUnitFence, hm]

@[simp] theorem execFenceTestDone_form (signature : U64) (s : State) (hm : s.mem.wf = true) :
    FormKept (execFenceTestDone signature s) := by
  unfold execFenceTestDone
  split <;> simp [hm]

@[simp] theorem trap_mem (s : State) (detail : Nat) : (trap s detail).mem = s.mem := by simp [trap]

@[simp] theorem withdraw_mem (s : State) : (withdraw s).mem = s.mem := by simp [withdraw]

@[simp] theorem faultRun_mem (s : State) : (faultRun s).mem = s.mem := by simp [faultRun]

@[simp] theorem loseRecipes_mem (s : State) (m tile : Nat) : (loseRecipes s m tile).mem = s.mem := by
  unfold loseRecipes
  split <;> simp

@[simp] theorem loseCluster_form (s : State) (p : Nat) (hm : s.mem.wf = true) : (loseCluster s p).mem.wf = true := by
  have ht : (faultRun s).mem.wf = true := by simp [hm]
  unfold loseCluster
  dsimp only
  split
  · cases h : fenceCluster (faultRun s) p none false with
    | none => exact ht
    | some t => exact (congrArg Mem.wf (fenceCluster_mem h)).trans ht
  · exact ht

@[simp] theorem faultExchange_mem (s : State) : (faultExchange s).mem = s.mem := by simp [faultExchange]

@[simp] theorem haltTier_form (s : State) (c : Nat) (hm : s.mem.wf = true) :
    (haltTier s c).mem.wf = true := by
  simp [haltTier, hm]

@[simp] theorem haltRebuild_mem (s : State) (c : Nat) : (haltRebuild s c).mem = s.mem := by simp [haltRebuild]

@[simp] theorem loseDigests_mem (s : State) (m tile : Nat) : (loseDigests s m tile).mem = s.mem := by simp [loseDigests]

@[simp] theorem loseEntries_mem (s : State) (tile : Nat) : (loseEntries s tile).mem = s.mem := by simp [loseEntries]

@[simp] theorem restartSearch_mem (s : State) : (restartSearch s).mem = s.mem := by simp [restartSearch]

@[simp] theorem loseFragments_mem (s : State) (tile : Nat) : (loseFragments s tile).mem = s.mem := by
  unfold loseFragments
  repeat' split
  all_goals simp

@[simp] theorem consequence_form (s : State) (m tile detail : Nat) (hm : s.mem.wf = true) :
    (consequence s m tile detail).mem.wf = true := by
  unfold consequence
  all_goals simp [hm]

@[simp] theorem tileLost_form (s : State) (m tile : Nat) (live : Bool) (hm : s.mem.wf = true) :
    (tileLost s m tile live).mem.wf = true := by
  unfold tileLost
  dsimp only
  split
  · exact consequence_form _ _ _ _ (by simp [hm])
  · simp [hm]

@[simp] theorem scrub_form (s : State) (m tile : Nat) (upset : List (Nat × Byte)) (live : Bool) (hm : s.mem.wf = true) :
    (scrub s m tile upset live).mem.wf = true := by
  unfold scrub
  dsimp only
  split
  all_goals simp [hm]

@[simp] theorem execPatrolScrub_form (mac tile : Nat) (upset : List (Nat × Byte)) (live : Bool) (s : State) (hm : s.mem.wf = true) :
    FormKept (execPatrolScrub mac tile upset live s) := by
  simp [execPatrolScrub, hm]

@[simp] theorem execDigestRecomputeDone_form (s : State) (hm : s.mem.wf = true) :
    FormKept (execDigestRecomputeDone s) := by
  simp [execDigestRecomputeDone, hm]

@[simp] theorem bistWork_mem (mb : Fin 8) (t : TakenCmd) (s : State) : (bistWork mb t s).mem = s.mem := by
  unfold bistWork
  repeat' split
  all_goals simp

@[simp] theorem execBistRun_form (src : CmdSrc) (s : State) (hm : s.mem.wf = true) :
    FormKept (execBistRun src s) := by
  simp [execBistRun, hm]

@[simp] theorem endBist_form (s : State) (mb : Fin 8) (hm : s.mem.wf = true) : (endBist s mb).mem.wf = true := by
  unfold endBist
  exact releaseHeldReset_form _ (by simp [hm])

@[simp] theorem execBistUnitDone_form (signature : U64) (s : State) (hm : s.mem.wf = true) :
    FormKept (execBistUnitDone signature s) := by
  unfold execBistUnitDone
  split <;> simp [hm]

@[simp] theorem execWrapperInstructionUpdate_form (code : Option (BitVec 4)) (s : State) (hm : s.mem.wf = true) :
    FormKept (execWrapperInstructionUpdate code s) := by
  unfold execWrapperInstructionUpdate
  repeat' split
  all_goals simp [hm]

/-! ### Seasons -/

@[simp] theorem powerWork_mem (mb : Fin 8) (t : TakenCmd) (s : State) : (powerWork mb t s).mem = s.mem := by
  unfold powerWork
  dsimp only
  repeat' split
  all_goals simp

@[simp] theorem execPowerSet_form (src : CmdSrc) (s : State) (hm : s.mem.wf = true) :
    FormKept (execPowerSet src s) := by
  simp [execPowerSet, hm]

@[simp] theorem unpowered_form (s : State) (hm : s.mem.wf = true) :
    (unpowered s).mem.wf = true := by
  simp [unpowered, hm]

@[simp] theorem settled_form (s : State) (hm : s.mem.wf = true) : (settled s).mem.wf = true := by
  unfold settled
  repeat' split
  all_goals simp [hm]

@[simp] theorem reachAutumn_form (s : State) (hm : s.mem.wf = true) : (reachAutumn s).mem.wf = true := by
  unfold reachAutumn
  exact settled_form _ (by simp [hm])

@[simp] theorem reachWinter_form (s : State) (hm : s.mem.wf = true) : (reachWinter s).mem.wf = true := by
  unfold reachWinter
  refine settled_form _ ?_
  rw [refreshStatusLine_mem]
  exact setPresence_form _ _ (by simp [hm])

@[simp] theorem execSeasonReached_form (s : State) (hm : s.mem.wf = true) :
    FormKept (execSeasonReached s) := by
  simp [execSeasonReached, hm]

@[simp] theorem finishSpring_form (s : State) (hm : s.mem.wf = true) : (finishSpring s).mem.wf = true := by
  unfold finishSpring
  exact releaseHeldReset_form _ (by simp [hm])

@[simp] theorem wakeFirmware_form (s : State) (hm : s.mem.wf = true) :
    (wakeFirmware s).mem.wf = true := by
  simp [wakeFirmware, hm]

@[simp] theorem execSpringStepDone_form (s : State) (hm : s.mem.wf = true) : FormKept (execSpringStepDone s) := by
  unfold execSpringStepDone
  repeat' split
  all_goals simp [hm]

@[simp] theorem execWake_form (s : State) (hm : s.mem.wf = true) : FormKept (execWake s) := by simp [execWake, hm]

@[simp] theorem execFirmwareReady_form (s : State) (hm : s.mem.wf = true) :
    FormKept (execFirmwareReady s) := by
  simp [execFirmwareReady, hm]

@[simp] theorem becomeLasting_mem (s : State) (c : Nat) : (becomeLasting s c).mem = s.mem := by simp [becomeLasting]

@[simp] theorem decideHandover_mem (s : State) (c : Nat) : (decideHandover s c).mem = s.mem := by simp [decideHandover]

@[simp] theorem refreshHealth_mem (s : State) : (refreshHealth s).mem = s.mem := by simp [refreshHealth]

@[simp] theorem sampleBucket_mem (events : List Nat) (s : State) (c : Fin 6) :
    (sampleBucket events s c).mem = s.mem := by
  simp [sampleBucket]

@[simp] theorem sampleRun_mem (s : State) (c : Nat) (alert hand : Nat) :
    (sampleRun s c alert hand).mem = s.mem := by
  simp [sampleRun]

@[simp] theorem sampleSense_mem (s : State) (temp supply : Byte) (power : U16) :
    (sampleSense s temp supply power).mem = s.mem := by
  simp [sampleSense]

@[simp] theorem remapLasting_form (s : State) (hm : s.mem.wf = true) : (remapLasting s).mem.wf = true := by
  unfold remapLasting
  repeat' split
  all_goals simp [hm]

@[simp] theorem guardBist_mem (s : State) : (guardBist s).mem = s.mem := by simp [guardBist]

@[simp] theorem countMissed_mem (s : State) : (countMissed s).mem = s.mem := by simp [countMissed]

@[simp] theorem sample_form (events : List Nat) (temp supply : Byte) (power : U16) (s : State) (hm : s.mem.wf = true) :
    (sample events temp supply power s).mem.wf = true := by
  have hv : ∀ (a : AgreeS) (b : BeaconS),
      (sampleSense { forEach (List.finRange 6) (sampleBucket events) (countMissed s) with agree := a, beacon := b } temp supply power).mem.wf = true :=
    fun a b => by
      rw [sampleSense_mem]
      exact forEach_form _ _ _ (fun u x hu => form_of_mem (sampleBucket_mem _ u x) hu) (form_of_mem (countMissed_mem s) hm)
  unfold sample
  rw [guardBist_mem]
  refine remapLasting_form _ ?_
  rw [refreshHealth_mem, sampleRun_mem, sampleRun_mem]
  exact hv _ _

@[simp] theorem execBeaconSample_form (events : List Nat) (temp supply : Byte) (power : U16) (s : State) (hm : s.mem.wf = true) :
    FormKept (execBeaconSample events temp supply power s) := by
  simp [execBeaconSample, hm]

@[simp] theorem gtcFails_mem (s : State) : (gtcFails s).mem = s.mem := by simp [gtcFails]

@[simp] theorem execGtcFault_form (kind : GtcFaultKind) (s : State) (hm : s.mem.wf = true) :
    FormKept (execGtcFault kind s) := by
  unfold execGtcFault
  split <;> simp [hm]

@[simp] theorem shiftTimers_mem (s : State) (d : U64) : (shiftTimers s d).mem = s.mem := by simp [shiftTimers]

@[simp] theorem execGtcRelock_form (value : U64) (s : State) (hm : s.mem.wf = true) :
    FormKept (execGtcRelock value s) := by
  simp [execGtcRelock, hm]

@[simp] theorem voteAll_mem (s : State) : (voteAll s).mem = s.mem := by simp [voteAll]

@[simp] theorem repairCopies_mem (s : State) : (repairCopies s).mem = s.mem := by simp [repairCopies]

@[simp] theorem countUs_mem (s : State) (n : Nat) : (countUs s n).mem = s.mem := by simp [countUs]

@[simp] theorem measureRate_mem (s : State) (rate : BitVec 12) :
    (measureRate s rate).mem = s.mem := by
  simp [measureRate]

@[simp] theorem passMicros_mem (s : State) (before : U64) (rate : BitVec 12) :
    (passMicros s before rate).mem = s.mem := by
  simp [passMicros]

@[simp] theorem refillAll_mem (s : State) (edges : Nat) : (refillAll s edges).mem = s.mem := by simp [refillAll]

@[simp] theorem advance_mem (s : State) (edges : Nat) (value : U64) :
    (advance s edges value).mem = s.mem := by
  simp [advance]

@[simp] theorem edge_form (edges : Nat) (value : U64) (rate : BitVec 12) (s : State) (hm : s.mem.wf = true) :
    (edge edges value rate s).mem.wf = true := by
  simp [edge, hm]

@[simp] theorem execReferenceEdge_form (edges : Nat) (value : U64) (rate : BitVec 12) (s : State) (hm : s.mem.wf = true) :
    FormKept (execReferenceEdge edges value rate s) := by
  simp [execReferenceEdge, hm]

@[simp] theorem execLkpStoreDiscard_form (offset : U16) (vc : Vc) (bytes : List Byte) (s : State) (hm : s.mem.wf = true) :
    FormKept (execLkpStoreDiscard offset vc bytes s) := by
  simp [execLkpStoreDiscard, hm]

/-! ### Registers -/

@[simp] theorem regWrite_form (s : State) (port : Port) (priv : Bool) (off : Nat) (f : State → State)
    (hf : ∀ t, t.mem.wf = true → (f t).mem.wf = true) (h : s.mem.wf = true) : (regWrite s port priv off f).mem.wf = true := by
  simp [regWrite, hf, h]

@[simp] theorem writeCompat_mem (on : Bool) (s : State) : (writeCompat on s).mem = s.mem := by simp [writeCompat]

@[simp] theorem writeCtrl_form (v : U32) (s : State) (hm : s.mem.wf = true) :
    (writeCtrl v s).mem.wf = true := by
  simp [writeCtrl, hm]

@[simp] theorem writeApplyMap_mem (v : U32) (s : State) : (writeApplyMap v s).mem = s.mem := by simp [writeApplyMap]

@[simp] theorem releaseEntries_mem (n : Nat) (s : State) : (releaseEntries n s).mem = s.mem := by simp [releaseEntries]

@[simp] theorem selectEntry_mem (i : Byte) (s : State) : (selectEntry i s).mem = s.mem := by simp [selectEntry]

@[simp] theorem clearOverflows_mem (s : State) : (clearOverflows s).mem = s.mem := by simp [clearOverflows]

@[simp] theorem clearCounters_mem (s : State) : (clearCounters s).mem = s.mem := by simp [clearCounters]

@[simp] theorem clearStat_mem (v : U32) (s : State) : (clearStat v s).mem = s.mem := by simp [clearStat]

@[simp] theorem clearCause_mem (v : U32) (s : State) : (clearCause v s).mem = s.mem := by simp [clearCause]

@[simp] theorem clearLat_mem (v : U32) (s : State) : (clearLat v s).mem = s.mem := by simp [clearLat]

@[simp] theorem writeBcnCfg_mem (v : U32) (s : State) : (writeBcnCfg v s).mem = s.mem := by simp [writeBcnCfg]

@[simp] theorem clearBcn_mem (v : U32) (s : State) : (clearBcn v s).mem = s.mem := by simp [clearBcn]

@[simp] theorem resetCtrl_form (v : U32) (s : State) (hm : s.mem.wf = true) : (resetCtrl v s).mem.wf = true := by
  unfold resetCtrl
  split
  · exact sysRequest_form s hm
  · split
    · exact coreRequest_form s hm
    · exact unitRequest_form _ s hm

@[simp] theorem blockWrite_form (off : Nat) (v : U32) (s : State) (hm : s.mem.wf = true) :
    (blockWrite off v s).mem.wf = true := by
  unfold blockWrite
  split <;> simp [hm]

@[simp] theorem writeCmdWord_mem (s : State) (mb : Fin 8) (j : Nat) (v : U32) :
    (writeCmdWord s mb j v).mem = s.mem := by
  simp [writeCmdWord]

@[simp] theorem writeMbCtrl_mem (s : State) (mb : Fin 8) (port : Port) (priv : Bool) (v : U32) :
    (writeMbCtrl s mb port priv v).mem = s.mem := by
  simp [writeMbCtrl]

@[simp] theorem mailboxWrite_mem (s : State) (port : Port) (priv : Bool) (mb : Fin 8) (o : Nat) (v : U32) :
    (mailboxWrite s port priv mb o v).mem = s.mem := by
  simp [mailboxWrite]

@[simp] theorem writeRstCtrl_form (s : State) (port : Port) (priv : Bool) (v : U32) (hm : s.mem.wf = true) :
    (writeRstCtrl s port priv v).mem.wf = true := by
  simp +contextual [writeRstCtrl, hm]

@[simp] theorem writeRegister_form (s : State) (port : Port) (priv : Bool) (off : Nat) (v : U32) (hm : s.mem.wf = true) :
    (writeRegister s port priv off v).mem.wf = true := by
  unfold writeRegister
  repeat' split
  all_goals simp +contextual [hm]

@[simp] theorem execRegisterWrite_form (port : Port) (priv : Bool) (offset : U16) (value : U32) (s : State) (hm : s.mem.wf = true) :
    FormKept (execRegisterWrite port priv offset value s) := by
  simp [execRegisterWrite, hm]

@[simp] theorem execMbAck_form (mb : Fin 8) (port : Port) (priv : Bool) (s : State) (hm : s.mem.wf = true) :
    FormKept (execMbAck mb port priv s) := by
  simp [execMbAck, hm]

@[simp] theorem execCapEn_form (port : Port) (priv : Bool) (on : Bool) (s : State) (hm : s.mem.wf = true) :
    FormKept (execCapEn port priv on s) := by
  simp +contextual [execCapEn, hm]

@[simp] theorem execFoldEn_form (port : Port) (priv : Bool) (on : Bool) (s : State) (hm : s.mem.wf = true) :
    FormKept (execFoldEn port priv on s) := by
  simp [execFoldEn, hm]

@[simp] theorem execApplyEn_form (port : Port) (priv : Bool) (on : Bool) (s : State) (hm : s.mem.wf = true) :
    FormKept (execApplyEn port priv on s) := by
  simp [execApplyEn, hm]

@[simp] theorem execExchEn_form (port : Port) (priv : Bool) (on : Bool) (s : State) (hm : s.mem.wf = true) :
    FormKept (execExchEn port priv on s) := by
  simp [execExchEn, hm]

@[simp] theorem execCompatA_form (port : Port) (priv : Bool) (on : Bool) (s : State) (hm : s.mem.wf = true) :
    FormKept (execCompatA port priv on s) := by
  simp [execCompatA, hm]

@[simp] theorem execErrRel_form (port : Port) (priv : Bool) (n : BitVec 9) (s : State) (hm : s.mem.wf = true) :
    FormKept (execErrRel port priv n s) := by
  simp [execErrRel, hm]

@[simp] theorem execErrSel_form (port : Port) (index : Byte) (s : State) (hm : s.mem.wf = true) :
    FormKept (execErrSel port index s) := by
  simp [execErrSel, hm]

@[simp] theorem execClearOvf_form (port : Port) (priv : Bool) (s : State) (hm : s.mem.wf = true) :
    FormKept (execClearOvf port priv s) := by
  simp [execClearOvf, hm]

@[simp] theorem execCntClear_form (port : Port) (priv : Bool) (s : State) (hm : s.mem.wf = true) :
    FormKept (execCntClear port priv s) := by
  simp [execCntClear, hm]

@[simp] theorem execApplyMapWrite_form (port : Port) (priv : Bool) (value : U32) (s : State) (hm : s.mem.wf = true) :
    FormKept (execApplyMapWrite port priv value s) := by
  simp [execApplyMapWrite, hm]

@[simp] theorem execTimeLoRead_form (port : Port) (s : State) (hm : s.mem.wf = true) :
    FormKept (execTimeLoRead port s) := by
  unfold execTimeLoRead
  repeat' split
  all_goals simp [hm]

/-! ### Firmware -/

@[simp] theorem infoWork_mem (mb : Fin 8) (x1 : TakenCmd) (s : State) :
    (infoWork mb x1 s).mem = s.mem := by
  simp [infoWork]

@[simp] theorem execFwInfo_form (src : CmdSrc) (s : State) (hm : s.mem.wf = true) :
    FormKept (execFwInfo src s) := by
  simp [execFwInfo, hm]

@[simp] theorem statusWork_form (mb : Fin 8) (t : TakenCmd) (s : State) (hm : s.mem.wf = true) :
    (statusWork mb t s).mem.wf = true := by
  unfold statusWork
  split <;> simp [hm]

@[simp] theorem execStatusGet_form (src : CmdSrc) (s : State) (hm : s.mem.wf = true) :
    FormKept (execStatusGet src s) := by
  simp +contextual [execStatusGet, hm]

@[simp] theorem logReadWork_form (mb : Fin 8) (t : TakenCmd) (s : State) (hm : s.mem.wf = true) :
    (logReadWork mb t s).mem.wf = true := by
  simp [logReadWork, hm]

@[simp] theorem execLogRead_form (src : CmdSrc) (s : State) (hm : s.mem.wf = true) :
    FormKept (execLogRead src s) := by
  simp +contextual [execLogRead, hm]

@[simp] theorem partWork_mem (mb : Fin 8) (t : TakenCmd) (s : State) : (partWork mb t s).mem = s.mem := by
  unfold partWork
  dsimp only
  repeat' split
  all_goals simp

@[simp] theorem execPartSet_form (src : CmdSrc) (s : State) (hm : s.mem.wf = true) :
    FormKept (execPartSet src s) := by
  simp [execPartSet, hm]

@[simp] theorem abortOk_mem (s : State) (mb named : Fin 8) : (abortOk s mb named).mem = s.mem := by simp [abortOk]

@[simp] theorem abortRunning_form (s : State) (mb named : Fin 8) (hm : s.mem.wf = true) :
    (abortRunning s mb named).mem.wf = true := by
  unfold abortRunning
  repeat' split
  all_goals simp [hm]

@[simp] theorem abortWork_form (mb : Fin 8) (t : TakenCmd) (s : State) (hm : s.mem.wf = true) :
    (abortWork mb t s).mem.wf = true := by
  unfold abortWork
  dsimp only
  repeat' split
  all_goals simp [hm]

@[simp] theorem execAbort_form (src : CmdSrc) (s : State) (hm : s.mem.wf = true) :
    FormKept (execAbort src s) := by
  simp +contextual [execAbort, hm]

/-! ### Every command -/

/-- Whatever the command, `exec` ends with the memory in its canonical form. -/
theorem exec_form (c : Instr) (s : State) (hm : s.mem.wf = true) : FormKept (exec c s) := by
  cases c <;> simp [exec, hm]

theorem step_form (s : State) (hm : s.mem.wf = true) : FormKept (step s) := by
  unfold step
  split
  · exact hm
  · exact exec_form _ _ hm

/-- Settles O59: every command keeps the form, so every step does. -/
theorem everyStepKeepsTheMemoryForm : Obligations.EveryStepKeepsTheMemoryForm := by
  intro s t hs ht
  have h := step_form s hs
  rw [ht] at h
  exact h

end Sys2Proof.Machine

/-! PROOFS. Uncaptured accesses, and protected writes taken or held (R16 to R19, R47, R81 to R86, R277, R278). -/

namespace Sys2Proof.Machine

/-! ### A line written, whoever writes it (R47, R178) -/

@[simp] theorem copiesOf_markRace (s : State) (a b : Nat) (ms : List Master) : copiesOf (markRace s a ms) b = copiesOf s b := by
  rw [markRace_frame]
  rfl

/-- The apply unit and the exchange unit write a line and the copies that the STAGE window holds (R47). -/
theorem commitLine_through (s : State) (a : Nat) (new : Line) {ms : List Master} (h : ms.all writesThrough = true) :
    commitLine s a new ms = { s with
      mem := (copiesOf s a).foldl (fun m c => m.writeLine c new) (s.mem.writeLine a new)
      apply.issued := (commitLine s a new ms).apply.issued } := by
  have unfolded : commitLine s a new ms = { markRace s a ms with
      mem := (copiesOf s a).foldl (fun m c => m.writeLine c new) (s.mem.writeLine a new) } := by
    simp [commitLine, h]
  rw [unfolded, markRace_frame]

/-- Whatever the master, a committed line touches memory, the staged copies and the apply unit's own reads alone. -/
theorem commitLine_changes (s : State) (a : Nat) (new : Line) (ms : List Master) :
    commitLine s a new ms = { s with
      mem := (commitLine s a new ms).mem
      tier := { s.tier with
        staged := (commitLine s a new ms).tier.staged, rows := (commitLine s a new ms).tier.rows }
      apply.issued := (commitLine s a new ms).apply.issued } := by
  cases h : ms.all writesThrough with
  | true => rw [commitLine_through s a new h]
  | false => rw [commitLine_frame s a new h]

theorem byte_writeLines_other {x : Nat} (l : Line) (as : List Nat) (m : Mem) (h : ∀ a ∈ as, outsideLine a x) :
    (as.foldl (fun m a => m.writeLine a l) m).byte x = m.byte x := by
  induction as generalizing m with
  | nil => rfl
  | cons a as ih =>
    rw [List.foldl_cons, ih _ fun b hb => h b (by simp [hb]), Mem.byte_writeLine_other _ _ _ (h a (by simp))]

theorem writesThrough_iff (m : Master) : writesThrough m = true ↔ m = .apply ∨ m = .exchange := by
  cases m <;> simp [writesThrough]

/-- A line committed by one master outside the apply and exchange units, or with no copies, is one line written. -/
theorem commitLine_mem_of_noCopies (s : State) (a : Nat) (new : Line) (m : Master)
    (h : m ≠ .apply ∧ m ≠ .exchange ∨ copiesOf s a = []) : (commitLine s a new [m]).mem = s.mem.writeLine a new := by
  cases hw : writesThrough m with
  | false => rw [commitLine_frame s a new (by simp [hw])]
  | true =>
    have hc : copiesOf s a = [] := h.resolve_left (by
      rcases (writesThrough_iff m).1 hw with rfl | rfl <;> simp)
    rw [commitLine_through s a new (by simp [hw]), hc]
    rfl

theorem byte_commitLine_other (s : State) (a x : Nat) (new : Line) (m : Master) (hx : outsideLine a x)
    (hc : m = .apply ∨ m = .exchange → ∀ c ∈ copiesOf s a, outsideLine c x) :
    (commitLine s a new [m]).mem.byte x = s.mem.byte x := by
  cases hw : writesThrough m with
  | false =>
    rw [commitLine_frame s a new (by simp [hw])]
    exact Mem.byte_writeLine_other _ _ _ hx
  | true =>
    rw [commitLine_through s a new (by simp [hw])]
    show (List.foldl _ _ _ : Mem).byte x = _
    rw [byte_writeLines_other _ _ _ (hc ((writesThrough_iff m).1 hw)), Mem.byte_writeLine_other _ _ _ hx]

/-! ### Uncaptured accesses (R16, R47, R277, R278) -/

theorem filtered_eq_false {s : State} {a : Nat} (h : ∀ e ∈ s.cap.filter, a < e.base ∨ e.base + e.size ≤ a) :
    filtered s a = false := by
  rw [filtered, List.any_eq_false]
  intro e he
  have := h e he
  simp only [decide_eq_true_eq]
  omega

theorem filtered_eq_true {s : State} {a : Nat} {e : FilterEntry} (he : e ∈ s.cap.filter) (hl : e.base ≤ a)
    (hh : a < e.base + e.size) : filtered s a = true :=
  List.any_eq_true.2 ⟨e, he, by simp [hl, hh]⟩

theorem present_unfiltered (s : State) (h : Held) (hf : filtered s h.acc.line.toNat = false ∨ s.ports.msp = false) :
    present s h = verdict (commitBytes s h.acc) h.acc.tag .pass := by
  unfold present
  exact if_pos (by simpa using hf)

/-- Settles O14: the access commits its bytes with the verdict PASS. -/
theorem unfilteredAccessIsUncaptured : Obligations.UnfilteredAccessIsUncaptured := by
  intro s r hf c hc
  have hf' : filtered s r.line.toNat = false ∨ s.ports.msp = false := hf.imp_left filtered_eq_false
  have hexec : exec c s = .next (verdict (commitBytes s r) r.tag .pass) := by
    simp only [List.mem_cons, List.not_mem_nil, or_false] at hc
    rcases hc with rfl | rfl
    · exact congrArg Host.Outcome.next (present_unfiltered s ⟨.write, r⟩ hf')
    · exact congrArg Host.Outcome.next (present_unfiltered s ⟨.atomic, r⟩ hf')
  refine ⟨_, hexec, ?_, fun i hi hm => ?_, fun x hx hc => ?_⟩
  · rw [commitBytes, commitLine_changes]
    rfl
  · show (commitBytes s r).mem.byte _ = _
    rw [commitBytes, commitLine_mem_of_noCopies _ _ _ _ hm, Mem.byte_writeLine_same _ _ _ hi, lineByte_mergeLine _ _ _ hi,
      lineByte_memLine _ _ hi]
  · exact byte_commitLine_other s _ x _ _ hx hc

/-! ### Reads (R261, R278) -/

theorem rebuilding_eq_false {s : State} (h : s.recov.target = false) : rebuilding s = false := by simp [rebuilding, h]

theorem notRebuilt_eq_false {s : State} (h : s.recov.target = false) (a : Nat) : notRebuilt s a = false := by
  simp [notRebuilt, rebuilding_eq_false h]

theorem noteAccess_of_noTarget {s : State} (h : s.recov.target = false) (a : Nat) : noteAccess s a = s := by
  simp [noteAccess, rebuilding_eq_false h]

theorem presentRead_passes {s : State} (h : s.recov.target = false) (r : Held) :
    presentRead s r = verdict s r.acc.tag .pass := by
  have ht : (verdict s r.acc.tag .pass).recov.target = false := h
  simp [presentRead, notRebuilt_eq_false h, noteAccess_of_noTarget ht]

/-! ### Protected writes (R17, R19, R81, R85, R86, R110) -/

theorem hold_eq (s : State) (h : Held) : hold s h = { s with
    cap := { s.cap with held := s.cap.held ++ [h] }
    tide := { s.tide with holdSince := (hold s h).tide.holdSince } } := by
  unfold hold noteHold
  split <;> rfl

theorem hold_holdSince {s : State} (h : Held) (hp : s.tide.phase.get = 2) (hn : s.tide.holdSince = none) :
    (hold s h).tide.holdSince = some s.time.gtc := by
  have : s.tide.holdSince = none ∧ (phaseNow s = phClosing ∨ phaseNow s = phReady ∨ phaseNow s = phCommitted) :=
    ⟨hn, .inl hp⟩
  have held : hold s h = { s with cap.held := s.cap.held ++ [h], tide.holdSince := some s.time.gtc } := if_pos this
  rw [held]

section
variable {s : State} {h : Held}

/-- A presented write that the filter passes on and that finds capture stopped or no flood open waits. -/
theorem present_holds (hf : filtered s h.acc.line.toNat = true) (hm : s.ports.msp = true) (ht : s.recov.target = false)
    (hc : captureHolds s h.acc.line.toNat = true) : present s h = hold s h := by
  simp [present, hf, hm, notRebuilt_eq_false ht, hc]

/-- A presented write that capture takes has its old line read, with no read of the apply unit's own (R17, R81). -/
theorem present_ordinary (hf : filtered s h.acc.line.toNat = true) (hm : s.ports.msp = true) (ht : s.recov.target = false)
    (hc : captureHolds s h.acc.line.toNat = false) (hl : heldLine s h.acc.line = false) (hq : s.cap.queue.length < 256)
    (hi : s.apply.issued = []) : present s h = present.ordinary s h.acc.line.toNat h := by
  simp only [present, hf, hm, notRebuilt_eq_false ht, hc, hl, noteAccess_of_noTarget ht, Nat.not_le.2 hq, hi,
    List.find?_nil, Bool.not_true, Bool.or_self, Bool.false_eq_true, or_self, if_false]

/-- A write of the apply unit to the line that it has read uses that read (R17, R154). -/
theorem present_ownWrite {e : ApplyLine} (hf : filtered s h.acc.line.toNat = true) (hm : s.ports.msp = true)
    (ht : s.recov.target = false) (hc : captureHolds s h.acc.line.toNat = false) (hl : heldLine s h.acc.line = false)
    (hq : s.cap.queue.length < 256) (hi : s.apply.issued = [e]) (ha : e.addr = h.acc.line.toNat)
    (hr : h.acc.master = .apply) :
    present s h = present.ownWrite s h.acc.line.toNat e (wholeWrite h e.new) := by
  have found : (s.apply.issued.find? fun e => decide (e.addr = h.acc.line.toNat)) = some e := by simp [hi, ha]
  simp only [present, hf, hm, notRebuilt_eq_false ht, hc, hl, Nat.not_le.2 hq, found, hr, Bool.not_true,
    Bool.or_self, Bool.false_eq_true, or_self, if_false, if_true]

theorem joins_eq_false {a : Nat} (h : ∀ o ∈ s.cap.oldReads, o.addr ≠ a) : joins s a = false := by
  have : s.cap.oldReads.filter (fun o => decide (o.addr = a)) = [] := by simpa [List.filter_eq_nil_iff] using h
  simp [joins, this]

theorem ordinary_reads {a : Nat} (hj : ∀ o ∈ s.cap.oldReads, o.addr ≠ a) (hr : s.cap.oldReads.length < 128) :
    present.ordinary s a h =
      if narrow h then { s with
        cap.oldReads := s.cap.oldReads ++ [⟨a, [h]⟩]
        cnt := s.cnt.set 2 (s.cnt.get 2 + 1) }
      else { s with cap.oldReads := s.cap.oldReads ++ [⟨a, [h]⟩] } := by
  simp only [present.ordinary, joins_eq_false hj, Nat.not_le.2 hr, Bool.false_eq_true, and_false, if_false]
  rfl

end

/-- With an open flood, capture in service and no row waiting for its digest, capture takes writes. -/
theorem captureHolds_eq_false {s : State} (a : Nat) (he : s.ctrl.capEn.get = 1) (hs : s.stat.capState = 0)
    (hp : s.tide.phase.get = 1) (hb : s.cap.barred = false) (hr : s.cap.recompute = []) : captureHolds s a = false := by
  have : phaseNow s = phFlood := hp
  unfold captureHolds
  rw [he, hs, this, hb, hr]
  cases bayLine s a <;> rfl

theorem captureHolds_eq_true {s : State} (a : Nat)
    (h : s.ctrl.capEn.get = 0 ∨ s.stat.capState ≠ 0 ∨ s.tide.phase.get = 2 ∨ s.tide.phase.get = 3 ∨ s.tide.phase.get = 4 ∨
      s.tide.phase.get = 5 ∨ s.cap.barred = true) : captureHolds s a = true := by
  have hp : s.tide.phase.get = 2 ∨ s.tide.phase.get = 3 ∨ s.tide.phase.get = 4 ∨ s.tide.phase.get = 5 →
      phaseNow s ≠ phFlood := by
    intro h
    show s.tide.phase.get ≠ 1
    rcases h with h | h | h | h <;> rw [h] <;> decide
  have : s.ctrl.capEn.get = 0 ∨ s.stat.capState ≠ 0 ∨ phaseNow s ≠ phFlood ∨ s.cap.barred = true := by
    rcases h with h | h | h | h | h | h | h
    · exact .inl h
    · exact .inr (.inl h)
    · exact .inr (.inr (.inl (hp (.inl h))))
    · exact .inr (.inr (.inl (hp (.inr (.inl h)))))
    · exact .inr (.inr (.inl (hp (.inr (.inr (.inl h))))))
    · exact .inr (.inr (.inl (hp (.inr (.inr (.inr h))))))
    · exact .inr (.inr (.inr h))
  unfold captureHolds
  simp only [Bool.or_eq_true, decide_eq_true_eq]
  tauto

theorem heldLine_eq_false {s : State} {a : U64} (h : ∀ g ∈ s.cap.held, g.acc.line ≠ a) : heldLine s a = false := by
  simpa [heldLine, List.any_eq_false] using h

/-- Settles O16: a write that capture takes starts its old-line read, one that it does not take is held. -/
theorem protectedWriteIsCapturedOrHeld : Obligations.ProtectedWriteIsCapturedOrHeld := by
  intro s r e hm he hlo hhi ht _
  have hf : filtered s r.line.toNat = true := filtered_eq_true he hlo hhi
  refine ⟨fun hen hst hph hbar hrec hheld hq hold128 hreads hiss => ?_, fun hstop => ?_⟩
  · have taken (k : AccessKind) : present s ⟨k, r⟩ = present.ordinary s r.line.toNat ⟨k, r⟩ :=
      present_ordinary hf hm ht (captureHolds_eq_false _ hen hst hph hbar hrec) (heldLine_eq_false hheld) hq hiss
    refine ⟨fun hbe => ?_, fun hbe => ?_, ?_⟩
    · refine ⟨_, congrArg Host.Outcome.next (taken .write), ?_⟩
      rw [ordinary_reads hreads hold128]
      simp [narrow, hbe]
    · refine ⟨_, congrArg Host.Outcome.next (taken .write), ?_⟩
      rw [ordinary_reads hreads hold128, if_pos ((narrow_iff _).2 (.inr hbe))]
    · refine ⟨_, congrArg Host.Outcome.next (taken .atomic), ?_⟩
      rw [ordinary_reads hreads hold128]
      simp [narrow]
  · refine ⟨_, congrArg Host.Outcome.next (present_holds (h := ⟨.write, r⟩) hf hm ht (captureHolds_eq_true _ hstop)), ?_,
      fun hp hn => hold_holdSince _ hp hn⟩
    rw [hold_eq]

/-! ### Writes of the apply unit (R17, R82, R154, R181) -/

theorem noteCaptured_of_apply (s : State) : noteCaptured s [.apply] =
    { s with apply.run := s.apply.run.map fun r => { r with lastGtc := some s.time.gtc } } := rfl

/-- A whole write of the apply unit over a line without copies is captured with the value the unit read: a zero delta is
counted alone, another enters the capture queue; memory takes the line and the write passes. -/
theorem takeLine_apply {s : State} {a b l : Nat} {old : Line} {h : Held} (hm : h.acc.master = .apply)
    (hw : narrow h = false) (hc : copiesOf s a = []) (hb : bayLine s a = some (b, l)) :
    takeLine s a old h.acc.data [h] = { s with
      mem := s.mem.writeLine a h.acc.data
      cap := { s.cap with
        queue := if old = h.acc.data then s.cap.queue else s.cap.queue ++ [⟨b, l, old, h.acc.data, [], [.apply]⟩]
        verdicts := s.cap.verdicts ++ [(h.acc.tag, .pass)] }
      cnt := if old = h.acc.data then s.cnt.set 1 (s.cnt.get 1 + 1) else s.cnt.set 0 (s.cnt.get 0 + 1)
      apply := { s.apply with run := s.apply.run.map fun u => { u with lastGtc := some s.time.gtc } } } := by
  have commits (t : State) (hc : copiesOf t a = []) (new : Line) :
      commitLine t a new [.apply] = { t with mem := t.mem.writeLine a new } := by
    simp [commitLine, markRace, writesThrough, hc]
  by_cases hd : old = h.acc.data
  · simp only [takeLine, List.map_cons, List.map_nil, hm, noteCaptured_of_apply, hd, if_true, List.any_cons, List.any_nil,
      hw, Bool.or_self, Bool.false_eq_true, if_false, foldl_verdict]
    rw [commits]
    · rfl
    · exact hc
  · have hb' : bayLine { s with apply.run := s.apply.run.map fun r => { r with lastGtc := some s.time.gtc } } a =
        some (b, l) := hb
    simp only [takeLine, List.map_cons, List.map_nil, hm, noteCaptured_of_apply, hd, if_false, hb', List.any_cons,
      List.any_nil, hw, Bool.or_self, Bool.false_eq_true, foldl_verdict]
    rw [commits]
    · rfl
    · exact hc

/-- Settles O17: the unit's own read serves as the old value. -/
theorem applyWriteUsesItsOwnRead : Obligations.ApplyWriteUsesItsOwnRead := by
  intro s r e q b l hm he hlo hhi ht hr hen hst hph hbar hrec hheld hq htags hreads hiss hqa hraced hstale hcop hb
  have hf : filtered s r.line.toNat = true := filtered_eq_true he hlo hhi
  have taken := present_ownWrite (h := ⟨.write, r⟩) hf hm ht (captureHolds_eq_false _ hen hst hph hbar hrec)
    (heldLine_eq_false (by simp [hheld])) hq hiss hqa hr
  have own : present s ⟨.write, r⟩ = takeLine { s with apply.issued := [] } r.line.toNat q.old
      (wholeWrite ⟨.write, r⟩ q.new).acc.data [wholeWrite ⟨.write, r⟩ q.new] := by
    simp [taken, present.ownWrite, hiss, hreads, mergePending_of_noTags htags, hraced, hstale,
      noteAccess_of_noTarget ht, markStale]
  refine ⟨_, congrArg Host.Outcome.next own, ?_⟩
  rw [takeLine_apply (s := { s with apply.issued := [] }) hr (by simp [narrow, wholeWrite]) hcop hb]
  rfl

end Sys2Proof.Machine

/-! PROOFS. Reads, and the cursor line (R49, R51, R261, R278). -/

namespace Sys2Proof.Machine

/-! ### What a move of the cursor leaves as it is (R49, R51, R53) -/

/-- Two states agree on the capture unit, the cursor and the progress line's address, and on every byte of memory
outside the progress line. -/
structure SameButProgress (s t : State) : Prop where
  cap : t.cap = s.cap
  position : t.tier.position = s.tier.position
  step : t.tier.step = s.tier.step
  progress : t.tier.progressLine = s.tier.progressLine
  byte : ∀ x, (∀ a, s.tier.progressLine = some a → outsideLine a.toNat x) → t.mem.byte x = s.mem.byte x

namespace SameButProgress

theorem refl (s : State) : SameButProgress s s := ⟨rfl, rfl, rfl, rfl, fun _ _ => rfl⟩

theorem trans {s t u : State} (h : SameButProgress s t) (k : SameButProgress t u) : SameButProgress s u :=
  ⟨k.cap.trans h.cap, k.position.trans h.position, k.step.trans h.step, k.progress.trans h.progress,
    fun x hx => (k.byte x fun a ha => hx a (h.progress ▸ ha)).trans (h.byte x hx)⟩

theorem writeProgress (s : State) : SameButProgress s (writeProgress s) := by
  unfold Machine.writeProgress
  split
  · exact refl s
  · next a ha =>
    exact ⟨rfl, rfl, rfl, rfl, fun x hx => Mem.byte_writeLine_other _ _ _ (hx a ha)⟩

theorem endFlight (s : State) (f : Flight) (complete : Bool) : SameButProgress s (endFlight s f complete) := by
  unfold Machine.endFlight
  refine trans ?_ (writeProgress _)
  dsimp only
  repeat' split
  all_goals exact ⟨rfl, rfl, rfl, rfl, fun _ _ => rfl⟩

theorem logReport (s : State) (cls : Nat) (src : U16) (detail : Nat) : SameButProgress s (logReport s cls src detail) :=
  ⟨by simp, by simp, by simp, by simp, fun _ _ => by simp⟩

theorem startRows (s : State) (f : Flight) : SameButProgress s (startRows s f) := by
  have halted : SameButProgress s { s with tier.haltFlag := true } := ⟨rfl, rfl, rfl, rfl, fun _ _ => rfl⟩
  unfold Machine.startRows
  dsimp only
  repeat' split
  · exact (halted.trans (logReport ..)).trans (endFlight ..)
  · exact endFlight ..
  · exact ⟨rfl, rfl, rfl, rfl, fun _ _ => rfl⟩

theorem startEntries (s : State) (is : List Nat) : SameButProgress s (startEntries s is) := by
  refine forEach_keeps (SameButProgress s) is _ s (fun t i h => h.trans ?_) (refl s)
  split
  · exact refl t
  · next e _ =>
    have started : SameButProgress t { t with
        tier.schedule := t.tier.schedule.set i { e with started := true }
        tier.flight := t.tier.flight ++
          [{ index := i, entry := e, step := t.tier.step, mask := [], stalled := false }] } :=
      ⟨rfl, rfl, rfl, rfl, fun _ _ => rfl⟩
    dsimp only
    split
    · exact started.trans (startRows ..)
    · exact started

/-- A line away from the progress line keeps its value. -/
theorem line {s t : State} (h : SameButProgress s t) {a : Nat}
    (ha : ∀ p, s.tier.progressLine = some p → p.toNat + 64 ≤ a ∨ a + 64 ≤ p.toNat) : t.mem.line a = s.mem.line a := by
  refine line_ext fun i hi => ?_
  rw [lineByte_memLine _ _ hi, lineByte_memLine _ _ hi]
  refine h.byte _ fun p hp => ?_
  have := ha p hp
  simp only [outsideLine]
  omega

end SameButProgress

theorem moveCursor_sameButProgress {s : State} (pos : U16) (step : U64) (hc : s.tier.cursorLine ≠ none)
    (hs : s.power.season.get = 0) :
    ∃ u : State, SameButProgress u (moveCursor s pos step) ∧ u.cap = s.cap ∧ u.mem = s.mem ∧ u.tier.position = pos ∧
      u.tier.step = step ∧ u.tier.progressLine = s.tier.progressLine := by
  have live : ¬ (s.tier.cursorLine.isNone = true ∨ s.power.season.get = 1 ∨ s.power.season.get = 2) := by
    simp [hs, Option.isNone_iff_eq_none, hc]
  unfold moveCursor
  rw [if_neg live]
  exact ⟨_, SameButProgress.startEntries _ _, rfl, rfl, rfl, rfl, rfl⟩

theorem startEntries_one {t : State} {e : PfEntry} (he : t.tier.schedule = [e]) (ha : e.action = 0) :
    (startEntries t [0]).tier.flight =
      t.tier.flight ++ [{ index := 0, entry := e, step := t.tier.step, mask := [], stalled := false }] := by
  simp [startEntries, forEach, he, ha]

/-- In the cursor's step, an entry of a schedule of one starts once the cursor is its lead or less before its position
(R51). -/
theorem moveCursor_flight_one {s : State} {e : PfEntry} (pos : U16) (hc : s.tier.cursorLine ≠ none)
    (hs : s.power.season.get = 0) (he : s.tier.schedule = [e]) (hn : e.started = false) (ha : e.action = 0)
    (hl : e.lead.toNat ≤ e.position.toNat) :
    ∃ e' : PfEntry, e'.region = e.region ∧ e'.firstTile = e.firstTile ∧ e'.tiles = e.tiles ∧
      (moveCursor s pos s.tier.step).tier.flight =
        if e.position.toNat ≤ pos.toNat + e.lead.toNat then
          s.tier.flight ++ [{ index := 0, entry := e', step := s.tier.step, mask := [], stalled := false }]
        else s.tier.flight := by
  have live : ¬ (s.tier.cursorLine.isNone = true ∨ s.power.season.get = 1 ∨ s.power.season.get = 2) := by
    simp [hs, Option.isNone_iff_eq_none, hc]
  unfold moveCursor
  rw [if_neg live]
  extract_lets fresh es due reached late starts n es'
  have hes : es = [e] := by simp [es, fresh, he]
  have hes' : es' = [{ e with late := e.late || late e }] := by simp [es', hes]
  have hdue : due e = decide (e.position.toNat ≤ pos.toNat + e.lead.toNat) := by simp [due, Nat.not_lt.2 hl]
  have hstarts : starts = if e.position.toNat ≤ pos.toNat + e.lead.toNat then [0] else [] := by
    simp [starts, hes, List.range_succ, List.filter_cons, hn, hdue]
  refine ⟨{ e with late := e.late || late e }, rfl, rfl, rfl, ?_⟩
  rw [hstarts]
  split
  · exact startEntries_one hes' ha
  · rfl

/-! ### The observed write -/

theorem mergeLine_all (old new : Line) : mergeLine (BitVec.allOnes 64) old new = new :=
  line_ext fun i hi => by
    rw [lineByte_mergeLine _ _ _ hi, BitVec.getLsbD_allOnes, if_pos (by simpa using hi)]

theorem fld_two_lt (l : Line) (o : Nat) : fld l o 2 < 65536 := by
  have := fld_lt l o 2
  simpa using this

/-- Settles O15: the observed write commits whole, and moves the cursor where it is the cursor line. -/
theorem readsPassAndCursorLineMoves : Obligations.ReadsPassAndCursorLineMoves := by
  intro s
  refine ⟨fun tag line m ht => ⟨_, congrArg Host.Outcome.next (presentRead_passes ht _), rfl⟩,
    fun r hApply hExch hOther hbe hseason hprog => ?_⟩
  have hw : writesThrough r.master = false := by
    cases hw : writesThrough r.master with
    | false => rfl
    | true => rcases (writesThrough_iff _).1 hw with h | h <;> contradiction
  have hmem : (commitBytes s r).mem = s.mem.writeLine r.line.toNat r.data := by
    rw [commitBytes, commitLine_mem_of_noCopies _ _ _ _ (.inl ⟨hApply, hExch⟩), hbe, mergeLine_all]
  obtain ⟨t, ht⟩ : ∃ t, t = verdict (commitBytes s r) r.tag .pass := ⟨_, rfl⟩
  have hframe : t = { s with
      mem := t.mem
      cap := { s.cap with verdicts := s.cap.verdicts ++ [(r.tag, .pass)] }
      tier := { s.tier with staged := t.tier.staged, rows := t.tier.rows }
      apply.issued := t.apply.issued } := by
    rw [ht, commitBytes, commitLine_changes]
    rfl
  have hcap : t.cap = { s.cap with verdicts := s.cap.verdicts ++ [(r.tag, .pass)] } := congrArg State.cap hframe
  have hline : t.mem.line r.line.toNat = r.data := by
    rw [ht]
    show (commitBytes s r).mem.line _ = _
    rw [hmem, Mem.line_writeLine]
  have htier : t.tier = { s.tier with staged := t.tier.staged, rows := t.tier.rows } := congrArg State.tier hframe
  have hpower : t.power = s.power := by rw [hframe]
  have hexec : exec (.snoopObserve r) s = .next (if s.tier.cursorLine = some r.line then
      moveCursor t (BitVec.ofNat 16 (fld r.data 0 2)) (BitVec.ofNat 64 (fld r.data 8 8)) else t) := by
    show execSnoopObserve r s = _
    simp only [execSnoopObserve, hApply, hExch, hOther, hbe, ht, or_self, decide_false, Bool.false_eq_true,
      not_false_eq_true, (by decide : BitVec.allOnes 64 &&& 0xFFFF = 0xFFFF), and_true]
  refine ⟨_, hexec, ?_⟩
  by_cases hcur : s.tier.cursorLine = some r.line
  · have hc : t.tier.cursorLine ≠ none := by
      rw [htier]
      simp [hcur]
    have hs : t.power.season.get = 0 := by rw [hpower, hseason]
    have hsched : t.tier.schedule = s.tier.schedule := by rw [htier]
    have hflight : t.tier.flight = s.tier.flight := by rw [htier]
    have hstep : t.tier.step = s.tier.step := by rw [htier]
    rw [if_pos hcur]
    obtain ⟨u, hu, ucap, umem, upos, ustep, uprog⟩ := moveCursor_sameButProgress
      (BitVec.ofNat 16 (fld r.data 0 2)) (BitVec.ofNat 64 (fld r.data 8 8)) hc hs
    have hu8 : fld r.data 8 8 < 2 ^ 64 := by simpa using fld_lt r.data 8 8
    refine ⟨by rw [hu.cap, ucap, hcap], ?_, fun _ => ⟨?_, ?_, fun e he hn ha hl hst => ?_⟩, fun h => absurd hcur h⟩
    · rw [hu.line, umem, hline]
      intro a ha
      refine hprog a ?_
      rw [← ha, uprog, htier]
    · rw [hu.position, upos, BitVec.toNat_ofNat, Nat.mod_eq_of_lt (by simpa using fld_two_lt r.data 0)]
    · rw [hu.step, ustep, BitVec.toNat_ofNat, Nat.mod_eq_of_lt hu8]
    · have same : BitVec.ofNat 64 (fld r.data 8 8) = t.tier.step := by
        rw [hstep, hst, BitVec.ofNat_toNat, BitVec.setWidth_eq]
      obtain ⟨e', hr, hf, ht', hfl⟩ := moveCursor_flight_one (BitVec.ofNat 16 (fld r.data 0 2)) hc hs
        (hsched.trans he) hn ha hl
      rw [BitVec.toNat_ofNat, Nat.mod_eq_of_lt (by simpa using fld_two_lt r.data 0), hflight, hstep] at hfl
      rw [same, hstep]
      refine ⟨fun hd => ⟨_, hfl.trans (if_pos hd), rfl, rfl, hr, hf, ht'⟩, fun hd => hfl.trans (if_neg (by omega))⟩
  · rw [if_neg hcur]
    refine ⟨hcap, hline, fun h => absurd h hcur, fun _ => ?_⟩
    rw [htier]
    exact ⟨rfl, rfl, rfl⟩

end Sys2Proof.Machine

/-! PROOFS. Coding the delta in the GF array, and the pass against zero (R92, R108, R114). -/

namespace Sys2Proof.Machine

theorem foldSide_noShadow {s : State} (h : s.recov.shadow = none) (f : State → State) : foldSide s f = f s := by
  simp only [foldSide, withShadow, h]

/-! ### What one side of the ring takes of a delta (R92, R108) -/

/-- The state with records appended to the two send queues, and the direct and forwarded accounts given. -/
def withSends (s : State) (plus minus : List SendItem) (direct forwarded : List (Nat × Nat)) : State :=
  { s with fold := { s.fold with
      sendPlus := s.fold.sendPlus ++ plus
      sendMinus := s.fold.sendMinus ++ minus
      directSent := direct
      fwdSent := forwarded } }

theorem withSends_nothing (s : State) : withSends s [] [] s.fold.directSent s.fold.fwdSent = s := by
  simp [withSends]

/-- The records a delta puts into the queues when it is coded toward one side. -/
def sidePlus (s : State) (r : DeltaRec) : Dir → List SendItem
  | .plus => codedItems s r .plus
  | .minus => []

def sideMinus (s : State) (r : DeltaRec) : Dir → List SendItem
  | .plus => []
  | .minus => codedItems s r .minus

theorem countForwarded_each (hs : List (Nat × Byte)) (s : State) : ∃ forwarded,
    hs.foldl (fun u g => countForwarded u g.1) s = { s with fold.fwdSent := forwarded } := by
  induction hs generalizing s with
  | nil => exact ⟨_, rfl⟩
  | cons h t ih =>
    obtain ⟨f, hf⟩ := ih (countForwarded s h.1)
    exact ⟨f, hf⟩

theorem codeToward_sends (s : State) (r : DeltaRec) (d : Dir) : ∃ direct forwarded,
    codeToward s r d = withSends s (sidePlus s r d) (sideMinus s r d) direct forwarded := by
  unfold codeToward
  split
  · next h =>
    refine ⟨s.fold.directSent, s.fold.fwdSent, (withSends_nothing s).symm.trans ?_⟩
    cases d <;> simp [sidePlus, sideMinus, codedItems, h]
  · next g h =>
    refine ⟨put g.1 (look 0 g.1 s.fold.directSent + 1) s.fold.directSent, s.fold.fwdSent, ?_⟩
    cases d <;>
      simp only [countDirect, pushSend, withSends, sidePlus, sideMinus, codedItems, h, List.append_nil]
  · next g gs hgs h =>
    obtain ⟨f, hf⟩ := countForwarded_each gs (countDirect (pushSend s d
      { dest := g.1, ca := false, fwd := false, origin := ownPos s, bay := r.bay, line := r.line, thin := thin r.delta,
        tide := foldTide s }) g.1)
    refine ⟨put g.1 (look 0 g.1 s.fold.directSent + 1) s.fold.directSent, f, hf.trans ?_⟩
    cases gs with
    | nil => exact absurd rfl hgs
    | cons g' gs => cases d <;>
        simp only [countDirect, pushSend, withSends, sidePlus, sideMinus, codedItems, h, List.append_nil]


theorem codeSide_room {s : State} {d : Dir} (r : DeltaRec) (due : Bool)
    (h : queueBytes (sendQueue s d) + 280 ≤ 65536) : ∃ direct forwarded,
    codeSide s r d due = (withSends s (if due = true then sidePlus s r d else [])
      (if due = true then sideMinus s r d else []) direct forwarded, false) := by
  have nothing : ∃ direct forwarded, (s, false) = (withSends s [] [] direct forwarded, false) :=
    ⟨_, _, congrArg (·, false) (withSends_nothing s).symm⟩
  unfold codeSide
  cases due with
  | false => exact nothing
  | true =>
    by_cases he : (headlandsToward (covLayout s) (ownPos s) r.bay r.line d).isEmpty = true
    · rw [if_pos (by simp [he])]
      have none : codedItems s r d = [] := by rw [codedItems, List.isEmpty_iff.1 he]
      cases d <;> simpa only [sidePlus, sideMinus, none, if_true] using nothing
    · obtain ⟨direct, forwarded, hc⟩ := codeToward_sends s r d
      exact ⟨direct, forwarded, by rw [if_neg (by simp [he]), if_pos (by simp [queueRoom, h]), hc]; rfl⟩

theorem codeSide_full {s : State} {r : DeltaRec} {d : Dir} {due : Bool} (hd : due = true)
    (he : headlandsToward (covLayout s) (ownPos s) r.bay r.line d ≠ [])
    (h : 65536 < queueBytes (sendQueue s d) + 280) : codeSide s r d due = (s, true) := by
  unfold codeSide
  rw [if_neg (by simp [hd, List.isEmpty_iff, he]), if_neg (by simp only [queueRoom, decide_eq_true_eq]; omega)]

theorem codeSide_plus_room {s : State} (r : DeltaRec) (due : Bool) (h : queueBytes s.fold.sendPlus + 280 ≤ 65536) :
    ∃ direct forwarded, codeSide s r .plus due =
      (withSends s (if due = true then codedItems s r .plus else []) [] direct forwarded, false) := by
  simpa only [sidePlus, sideMinus, ite_self] using codeSide_room (d := .plus) r due h

theorem codeSide_minus_room {s : State} (r : DeltaRec) (due : Bool) (h : queueBytes s.fold.sendMinus + 280 ≤ 65536) :
    ∃ direct forwarded, codeSide s r .minus due =
      (withSends s [] (if due = true then codedItems s r .minus else []) direct forwarded, false) := by
  simpa only [sidePlus, sideMinus, ite_self] using codeSide_room (d := .minus) r due h

/-! ### The record in the GF array (R92, R108) -/

theorem codeRecord_cons {s : State} {r : DeltaRec} {rest : List DeltaRec} (h : s.cap.records = r :: rest) {u t : State}
    {plus minus : Bool} (hp : codeSide { s with cap.records := rest } r .plus r.plus = (u, plus))
    (hm : codeSide u r .minus r.minus = (t, minus)) :
    codeRecord s = if plus || minus then { t with cap.records := { r with plus := plus, minus := minus } :: rest } else t := by
  simp only [codeRecord, h, hp, hm]

theorem exec_codeRecord_held {s : State} (hs : s.recov.shadow = none) (h : s.cap.records ≠ []) :
    exec .codeRecord s = .next (codeRecord s) := by
  show Host.Outcome.next _ = _
  rw [foldSide_noShadow hs, codeOne, if_neg (by simp [h])]

theorem exec_codeRecord_pass {s : State} (hs : s.recov.shadow = none) (h : s.cap.records = []) :
    exec .codeRecord s = .next (codeRecord (nextOfPass s)) := by
  show Host.Outcome.next _ = _
  rw [foldSide_noShadow hs, codeOne, if_pos (by simp [h])]

/-- With room on both sides, the delta leaves the array. -/
theorem codeRecord_both {s : State} {r : DeltaRec} {rest : List DeltaRec} (h : s.cap.records = r :: rest)
    (hp : queueBytes s.fold.sendPlus + 280 ≤ 65536) (hm : queueBytes s.fold.sendMinus + 280 ≤ 65536) :
    ∃ direct forwarded, codeRecord s = withSends { s with cap.records := rest }
      (if r.plus = true then codedItems s r .plus else []) (if r.minus = true then codedItems s r .minus else [])
      direct forwarded := by
  obtain ⟨d1, f1, h1⟩ := codeSide_plus_room (s := { s with cap.records := rest }) r r.plus hp
  obtain ⟨d2, f2, h2⟩ := codeSide_minus_room r r.minus (s := withSends { s with cap.records := rest }
    (if r.plus = true then codedItems s r .plus else []) [] d1 f1) (by simpa [withSends] using hm)
  refine ⟨d2, f2, (codeRecord_cons h h1 h2).trans ?_⟩
  simp only [withSends, List.append_nil, Bool.or_false, Bool.false_eq_true, if_false]
  rfl

/-- A queue without room keeps the delta waiting for its side alone. -/
theorem codeRecord_plus_full {s : State} {r : DeltaRec} {rest : List DeltaRec} (h : s.cap.records = r :: rest)
    (hp : 65536 < queueBytes s.fold.sendPlus + 280) (hd : r.plus = true)
    (he : headlandsToward (covLayout s) (ownPos s) r.bay r.line .plus ≠ [])
    (hm : queueBytes s.fold.sendMinus + 280 ≤ 65536) : ∃ direct forwarded,
    codeRecord s = withSends { s with cap.records := { r with plus := true, minus := false } :: rest }
      [] (if r.minus = true then codedItems s r .minus else []) direct forwarded := by
  have h1 : codeSide { s with cap.records := rest } r .plus r.plus = _ := codeSide_full hd he hp
  obtain ⟨d2, f2, h2⟩ := codeSide_minus_room (s := { s with cap.records := rest }) r r.minus hm
  exact ⟨d2, f2, codeRecord_cons h h1 h2⟩

theorem codeRecord_minus_full {s : State} {r : DeltaRec} {rest : List DeltaRec} (h : s.cap.records = r :: rest)
    (hm : 65536 < queueBytes s.fold.sendMinus + 280) (hd : r.minus = true)
    (he : headlandsToward (covLayout s) (ownPos s) r.bay r.line .minus ≠ [])
    (hp : queueBytes s.fold.sendPlus + 280 ≤ 65536) : ∃ direct forwarded,
    codeRecord s = withSends { s with cap.records := { r with plus := false, minus := true } :: rest }
      (if r.plus = true then codedItems s r .plus else []) [] direct forwarded := by
  obtain ⟨d1, f1, h1⟩ := codeSide_plus_room (s := { s with cap.records := rest }) r r.plus hp
  refine ⟨d1, f1, codeRecord_cons h h1 (codeSide_full hd he ?_)⟩
  simpa [sendQueue, withSends] using hm

theorem codeRecord_both_full {s : State} {r : DeltaRec} {rest : List DeltaRec} (h : s.cap.records = r :: rest)
    (hp : 65536 < queueBytes s.fold.sendPlus + 280) (hm : 65536 < queueBytes s.fold.sendMinus + 280)
    (hdp : r.plus = true) (hdm : r.minus = true)
    (hep : headlandsToward (covLayout s) (ownPos s) r.bay r.line .plus ≠ [])
    (hem : headlandsToward (covLayout s) (ownPos s) r.bay r.line .minus ≠ []) : codeRecord s = s := by
  have h1 : codeSide { s with cap.records := rest } r .plus r.plus = _ := codeSide_full hdp hep hp
  refine (codeRecord_cons h h1 (codeSide_full hdm hem hm)).trans ?_
  have same : { r with plus := true, minus := true } = r := by cases r; simp_all
  show { s with cap.records := { r with plus := true, minus := true } :: rest } = s
  rw [same, ← h]

/-! ### The pass against zero (R114) -/

theorem nextOfPass_end {s : State} {i : Nat} (hp : s.cap.pass = some i) (h : ∀ e ∈ declaredLines s, e.1 < i) :
    nextOfPass s = { s with cap := { s.cap with pass := none } } := by
  have none : (declaredLines s).filter (fun e => decide (i ≤ e.1)) = [] :=
    List.filter_eq_nil_iff.2 fun e he => by simpa using h e he
  simp only [nextOfPass, hp, none, List.find?_nil]

theorem find?_eq_of_unique {α : Type} {p : α → Bool} {l : List α} {a : α} (ha : a ∈ l) (hp : p a = true)
    (h : ∀ b ∈ l, p b = true → b = a) : l.find? p = some a := by
  cases hf : l.find? p with
  | none => exact absurd hp (List.find?_eq_none.1 hf a ha)
  | some b => rw [h b (List.mem_of_find?_eq_some hf) (List.find?_some hf)]

theorem nextOfPass_line {s : State} {i : Nat} (hp : s.cap.pass = some i) {e : Nat × Nat × Nat}
    (he : e ∈ declaredLines s) (hi : i ≤ e.1)
    (hmin : ∀ f ∈ declaredLines s, i ≤ f.1 → f = e ∨ e.1 < f.1) :
    nextOfPass s = { s with cap := { s.cap with
      pass := some (e.1 + 1)
      records := [⟨e.2.1, e.2.2, lineValue s e.2.1 e.2.2, true, true⟩] } } := by
  have first : ((declaredLines s).filter fun e => decide (i ≤ e.1)).find?
      (fun g => ((declaredLines s).filter fun e => decide (i ≤ e.1)).all fun f => decide (g.1 ≤ f.1)) = some e := by
    refine find?_eq_of_unique (by simpa using ⟨he, hi⟩) ?_ fun g hg hall => ?_
    · simp only [List.all_eq_true, List.mem_filter, decide_eq_true_eq]
      rintro f ⟨hf, hif⟩
      rcases hmin f hf hif with rfl | hlt
      · exact Nat.le_refl _
      · exact Nat.le_of_lt hlt
    · simp only [List.mem_filter, decide_eq_true_eq] at hg
      have hle := List.all_eq_true.1 hall e (by simpa using ⟨he, hi⟩)
      rcases hmin g hg.1 hg.2 with rfl | hlt
      · rfl
      · exact absurd (of_decide_eq_true hle) (Nat.not_le.2 hlt)
  simp only [nextOfPass, hp, first]

theorem codeRecord_nil {s : State} (h : s.cap.records = []) : codeRecord s = s := by simp only [codeRecord, h]

/-- Settles O20: each side takes the delta or not by the room of its own queue. -/
theorem deltaIsCodedTowardItsHeadlands : Obligations.DeltaIsCodedTowardItsHeadlands := by
  intro s hs
  refine ⟨fun r rest h => ?_, fun h hp => ?_, fun i h hp => ⟨fun hend => ?_, fun e he hi hmin h1 h2 => ?_⟩⟩
  · have run := exec_codeRecord_held hs (s := s) (by simp [h])
    refine ⟨fun hp hm => ?_, fun hp hd he hm => ?_, fun hm hd he hp => ?_, fun hp hm hdp hdm hep hem => ?_⟩
    · obtain ⟨_, _, hc⟩ := codeRecord_both h hp hm
      exact ⟨_, run, by rw [hc]; rfl⟩
    · obtain ⟨_, _, hc⟩ := codeRecord_plus_full h hp hd he hm
      exact ⟨_, run, by rw [hc]; simp only [withSends, List.append_nil]⟩
    · obtain ⟨_, _, hc⟩ := codeRecord_minus_full h hm hd he hp
      exact ⟨_, run, by rw [hc]; simp only [withSends, List.append_nil]⟩
    · exact ⟨_, run, codeRecord_both_full h hp hm hdp hdm hep hem⟩
  · refine ⟨_, exec_codeRecord_pass hs h, ?_⟩
    have stays : nextOfPass s = s := by simp only [nextOfPass, hp]
    rw [stays, codeRecord_nil h]
  · refine ⟨_, exec_codeRecord_pass hs h, ?_⟩
    rw [nextOfPass_end hp hend]
    exact codeRecord_nil h
  · refine ⟨_, exec_codeRecord_pass hs h, ?_⟩
    rw [nextOfPass_line hp he hi hmin]
    obtain ⟨_, _, hc⟩ := codeRecord_both (s := { s with cap := { s.cap with
      pass := some (e.1 + 1)
      records := [⟨e.2.1, e.2.2, lineValue s e.2.1 e.2.2, true, true⟩] } }) rfl h1 h2
    rw [hc]
    simp only [withSends, if_true, h]
    rfl

end Sys2Proof.Machine

/-! PROOFS. Blocks made of fields, the way of a mailbox command to its meaning, and its response (R313 to R326). -/

namespace Sys2Proof.Machine

/-! ### Fields of a block made of fields -/

/-- Two byte ranges (offset, size) do not meet. -/
abbrev apart (o n o' n' : Nat) : Prop := o + n ≤ o' ∨ o' + n' ≤ o

theorem getLsbD_field (o n v k : Nat) (h : o + n ≤ 64) :
    (BitVec.ofNat 512 (v % 2 ^ (8 * n)) <<< (8 * o)).getLsbD k =
      (decide (8 * o ≤ k ∧ k < 8 * (o + n)) && v.testBit (k - 8 * o)) := by
  rw [BitVec.getLsbD_shiftLeft, BitVec.getLsbD_ofNat, Nat.testBit_mod_two_pow]
  by_cases h1 : 8 * o ≤ k ∧ k < 8 * (o + n)
  · simp only [h1.1, h1.2, and_self, decide_true, Bool.true_and, show k < 512 by omega, show ¬ k < 8 * o by omega,
      show k - 8 * o < 512 by omega, show k - 8 * o < 8 * n by omega, decide_false, Bool.not_false]
  · rw [decide_eq_false h1, Bool.false_and]
    by_cases h2 : k < 8 * o
    · simp [h2]
    · simp [show ¬ k - 8 * o < 8 * n by omega]

theorem fld_or (a b : Line) (o n : Nat) (hb : ∀ k, 8 * o ≤ k → k < 8 * (o + n) → b.getLsbD k = false) :
    fld (a ||| b) o n = fld a o n := by
  refine congrArg BitVec.toNat (BitVec.eq_of_getLsbD_eq fun i hi => ?_)
  rw [BitVec.getLsbD_extractLsb', BitVec.getLsbD_extractLsb', BitVec.getLsbD_or, hb (8 * o + i) (by omega) (by omega),
    Bool.or_false]

theorem mkLine_getLsbD_apart {o n : Nat} : ∀ {fs : List (Nat × Nat × Nat)},
    (∀ f ∈ fs, f.1 + f.2.1 ≤ 64 ∧ apart f.1 f.2.1 o n) →
    ∀ k, 8 * o ≤ k → k < 8 * (o + n) → (mkLine fs).getLsbD k = false
  | [], _, _, _, _ => by simp [mkLine]
  | (p, m, v) :: t, h, k, hlo, hhi => by
    obtain ⟨hle, ha⟩ := h _ List.mem_cons_self
    rw [mkLine, BitVec.getLsbD_or, getLsbD_field _ _ _ _ hle,
      mkLine_getLsbD_apart (fun f hf => h f (List.mem_cons_of_mem _ hf)) k hlo hhi, Bool.or_false]
    have : ¬ (8 * p ≤ k ∧ k < 8 * (p + m)) := by
      simp only [apart] at ha
      omega
    rw [decide_eq_false this, Bool.false_and]

/-- A field of a block is read past the fields it does not meet. -/
theorem fld_mkLine_skip {o n p m v : Nat} {t : List (Nat × Nat × Nat)} (hle : p + m ≤ 64) (h : apart p m o n) :
    fld (mkLine ((p, m, v) :: t)) o n = fld (mkLine t) o n := by
  rw [mkLine, BitVec.or_comm]
  refine fld_or _ _ _ _ fun k hlo hhi => ?_
  rw [getLsbD_field _ _ _ _ hle]
  have : ¬ (8 * p ≤ k ∧ k < 8 * (p + m)) := by
    simp only [apart] at h
    omega
  rw [decide_eq_false this, Bool.false_and]

/-- A field of a block is its value, cut to its size, where the later fields do not meet it. -/
theorem fld_mkLine_head {o n v : Nat} {t : List (Nat × Nat × Nat)} (hle : o + n ≤ 64)
    (h : ∀ f ∈ t, f.1 + f.2.1 ≤ 64 ∧ apart f.1 f.2.1 o n) : fld (mkLine ((o, n, v) :: t)) o n = v % 2 ^ (8 * n) := by
  rw [mkLine, fld_or _ _ _ _ (mkLine_getLsbD_apart h)]
  refine Nat.eq_of_testBit_eq fun i => ?_
  rw [fld, BitVec.testBit_toNat, BitVec.getLsbD_extractLsb', getLsbD_field _ _ _ _ hle, Nat.testBit_mod_two_pow,
    Nat.add_sub_cancel_left]
  by_cases hi : i < 8 * n
  · simp [hi, show 8 * o + i < 8 * (o + n) by omega]
  · simp [hi]

/-- Stepping-A framing keeps the first 32 B of a response (R334). -/
theorem fld_responseLine (compat : Bool) (op : Byte) (tag : U16) (status detail : Nat) (rs : List (Nat × Nat × Nat))
    {o n : Nat} (h : o + n ≤ 32) : fld (responseLine compat op tag status detail rs) o n =
      fld (mkLine ([(0, 1, op.toNat), (1, 1, status), (2, 2, tag.toNat), (4, 4, detail)] ++ rs)) o n := by
  cases compat with
  | false => rfl
  | true =>
    simp only [responseLine, if_true]
    refine congrArg BitVec.toNat (BitVec.eq_of_getLsbD_eq fun i hi => ?_)
    rw [BitVec.getLsbD_extractLsb', BitVec.getLsbD_extractLsb', BitVec.getLsbD_and, BitVec.getLsbD_ofNat,
      Nat.testBit_two_pow_sub_one]
    simp [show 8 * o + i < 512 by omega, show 8 * o + i < 256 by omega]

/-- The header of a response. -/
theorem responseLine_header (compat : Bool) (op : Byte) (tag : U16) {status detail : Nat} {rs : List (Nat × Nat × Nat)}
    (hs : status < 256) (hd : detail < 2 ^ 32) (hr : ∀ f ∈ rs, f.1 + f.2.1 ≤ 64 ∧ 8 ≤ f.1) :
    fld (responseLine compat op tag status detail rs) 0 1 = op.toNat ∧
      fld (responseLine compat op tag status detail rs) 1 1 = status ∧
      fld (responseLine compat op tag status detail rs) 2 2 = tag.toNat ∧
      fld (responseLine compat op tag status detail rs) 4 4 = detail := by
  have later : ∀ {o n : Nat}, o + n ≤ 8 → ∀ f ∈ rs, f.1 + f.2.1 ≤ 64 ∧ apart f.1 f.2.1 o n := fun ho f hf =>
    ⟨(hr f hf).1, .inr (Nat.le_trans ho (hr f hf).2)⟩
  refine ⟨?_, ?_, ?_, ?_⟩ <;> rw [fld_responseLine _ _ _ _ _ _ (by decide)]
  · refine (fld_mkLine_head (by decide) ?_).trans (Nat.mod_eq_of_lt op.isLt)
    simpa [apart] using fun a b c hf => later (o := 0) (n := 1) (by decide) (a, b, c) hf
  · refine (fld_mkLine_skip (by decide) (by decide)).trans ((fld_mkLine_head (by decide) ?_).trans (Nat.mod_eq_of_lt hs))
    simpa [apart] using fun a b c hf => later (o := 1) (n := 1) (by decide) (a, b, c) hf
  · refine (fld_mkLine_skip (by decide) (by decide)).trans ((fld_mkLine_skip (by decide) (by decide)).trans
      ((fld_mkLine_head (by decide) ?_).trans (Nat.mod_eq_of_lt tag.isLt)))
    simpa [apart] using fun a b c hf => later (o := 2) (n := 2) (by decide) (a, b, c) hf
  · refine (fld_mkLine_skip (by decide) (by decide)).trans ((fld_mkLine_skip (by decide) (by decide)).trans
      ((fld_mkLine_skip (by decide) (by decide)).trans ((fld_mkLine_head (by decide) ?_).trans (Nat.mod_eq_of_lt hd))))
    exact fun f hf => later (by decide) f hf

/-- The results of a response stand behind its header. -/
theorem fld_responseLine_results (compat : Bool) (op : Byte) (tag : U16) (status detail : Nat)
    (rs : List (Nat × Nat × Nat)) {o n : Nat} (ho : 8 ≤ o) (h : o + n ≤ 32) :
    fld (responseLine compat op tag status detail rs) o n = fld (mkLine rs) o n := by
  have skip : ∀ {p m v : Nat} {t : List (Nat × Nat × Nat)}, p + m ≤ 8 →
      fld (mkLine ((p, m, v) :: t)) o n = fld (mkLine t) o n := fun hp =>
    fld_mkLine_skip (by omega) (.inl (by omega))
  rw [fld_responseLine _ _ _ _ _ _ h]
  exact (skip (by decide)).trans ((skip (by decide)).trans ((skip (by decide)).trans (skip (by decide))))

/-! ### The way of a command to its meaning -/

/-- The state in which a command that firmware handles at once begins: its mailbox has taken it (R318). -/
def took (s : State) (mb : Fin 8) (priv : Bool) (cmd : Line) : State :=
  setBox s mb (takeBox (box s mb) cmd (portOf mb) priv)

/-- The command a mailbox has taken. -/
abbrev takenCmd (mb : Fin 8) (priv : Bool) (cmd : Line) : TakenCmd := { cmd := cmd, port := portOf mb, priv := priv }

theorem box_took (s : State) (mb : Fin 8) (priv : Bool) (cmd : Line) :
    box (took s mb priv cmd) mb = takeBox (box s mb) cmd (portOf mb) priv := box_setBox_same _ _ _

theorem otherBoxes_took (s : State) (mb : Fin 8) (priv : Bool) (cmd : Line) : OtherBoxes s (took s mb priv cmd) mb :=
  otherBoxes_setBox _ _ _

theorem classAllowed_of_permitted : ∀ op : Fin 0x23, ∀ (mb : Fin 8) (priv : Bool), Permitted mb priv op.val →
    ∀ e ∈ catalogue op.val, classAllowed mb priv e.cls = true := by decide

theorem stateAccepts_of_takes : ∀ (op : Fin 0x23) (js : Fin 8), StateTakes js.val op.val →
    ∀ e ∈ catalogue op.val, stateAccepts js.val op.val e.cls = true := by decide

theorem catalogue_lt {op : Nat} {e : CatEntry} (h : catalogue op = some e) : op < 0x23 := by
  unfold catalogue at h
  split at h <;> first | omega | exact absurd h (by simp)


theorem takenOp_took {s : State} {mb : Fin 8} {priv : Bool} {op : Nat} {cmd : Line} (h : fld cmd 0 1 % 128 = op) :
    takenOp (took s mb priv cmd) mb = op := by
  rw [takenOp, box_took]
  exact (congrArg (· % 128) (toNat_ofNat_of_lt (fld_lt cmd 0 1))).trans h

theorem takeCmd_prompt {s : State} {mb : Fin 8} {priv : Bool} {op : Nat} {cmd : Line} {e : CatEntry}
    (h : Prompt s mb op cmd) (he : catalogue op = some e) : takeCmd mb (portOf mb) priv cmd s =
      { took s mb priv cmd with mb.waiting := if op = 9 then s.mb.waiting else s.mb.waiting ++ [mb] } := by
  obtain ⟨hop, -, -, -, -, -, hb, -⟩ := h
  have hop' : opcodeOf cmd = op := hop
  by_cases h9 : op = 9
  · subst h9
    simp only [takeCmd, hb, hop', he, if_true, Bool.false_eq_true, if_false]
    rfl
  · rw [takeCmd_free mb _ priv cmd s e (hop' ▸ he) (by rw [hop']; exact h9) hb, if_neg h9]
    rfl

theorem heldBack_took {s : State} {mb : Fin 8} {priv : Bool} {op : Nat} {cmd : Line} (h : Prompt s mb op cmd) (ws : List (Fin 8)) :
    heldBack { took s mb priv cmd with mb.waiting := ws } mb = false := by
  obtain ⟨hop, -, -, -, -, -, -, -, -, hs, ht, habort⟩ := h
  have short : shortInProgress { took s mb priv cmd with mb.waiting := ws } = false := by
    show (s.stat.suspendMb.isSome || s.twin.mailbox.isSome) = false
    rw [hs, ht]
    rfl
  have named : abortWaits { took s mb priv cmd with mb.waiting := ws } mb = false := by
    have hop' : takenOp { took s mb priv cmd with mb.waiting := ws } mb = op := takenOp_took hop
    have taken : (box { took s mb priv cmd with mb.waiting := ws } mb).taken = some (takenCmd mb priv cmd) :=
      congrArg Mailbox.taken (box_took s mb priv cmd)
    by_cases h17 : op = 0x17
    · simp only [abortWaits, taken]
      split
      · next hlt =>
        rcases habort h17 ⟨fld cmd 8 1, hlt⟩ rfl with e | e | e
        · simp [e]
        · by_cases hm : (⟨fld cmd 8 1, hlt⟩ : Fin 8) = mb
          · simp [hm]
          · have other : box { took s mb priv cmd with mb.waiting := ws } ⟨fld cmd 8 1, hlt⟩ = box s ⟨fld cmd 8 1, hlt⟩ :=
              otherBoxes_took s mb priv cmd _ hm
            simp [other, e]
        · by_cases hm : (⟨fld cmd 8 1, hlt⟩ : Fin 8) = mb
          · simp [hm]
          · have other : box { took s mb priv cmd with mb.waiting := ws } ⟨fld cmd 8 1, hlt⟩ = box s ⟨fld cmd 8 1, hlt⟩ :=
              otherBoxes_took s mb priv cmd _ hm
            simp [other, e]
      · simp
    · simp [abortWaits, hop', h17]
  rw [heldBack, named, short]
  rfl

theorem submits_of_prompt {s : State} {mb : Fin 8} {op : Nat} {cmd : Line} (h : Prompt s mb op cmd) :
    submits s (portOf mb) = true := by
  obtain ⟨-, -, -, hfbp, hmgp, hon, -⟩ := h
  unfold portOf
  split
  · exact hfbp ‹_›
  · split
    · exact hmgp ‹_›
    · have := hon (by omega)
      split <;> exact this

/-- A command that firmware handles at once is handled in the state that has taken it (R320). -/
theorem mailboxState_prompt {s : State} {mb : Fin 8} {priv : Bool} {op : Nat} {cmd : Line}
    (work : Fin 8 → TakenCmd → State → State) (hp : Prompt s mb op cmd) {e : CatEntry} (he : catalogue op = some e) :
    mailboxState op work (.issue mb (portOf mb) priv cmd) s =
      handle op work mb (takenCmd mb priv cmd) (took s mb priv cmd) := by
  have hp' := hp
  obtain ⟨hop, hfw, hwin, -, -, -, hb, hl, hw, -, -, -⟩ := hp'
  have take := takeCmd_prompt (priv := priv) hp he
  rw [hw] at take
  have hrun : fwRunning s = true := decide_eq_true hfw
  have taken : box { took s mb priv cmd with mb.waiting := if op = 9 then [] else [] ++ [mb] } mb =
      takeBox (box s mb) cmd (portOf mb) priv := box_took s mb priv cmd
  rw [← boundPort_eq_portOf] at take taken ⊢
  rw [mailboxState_issue op work mb priv cmd s _ hop (boundPort_eq_portOf mb ▸ submits_of_prompt hp)
    (by simpa [mailboxesOpen, hrun] using hwin) hb take hrun (congrArg Mailbox.taken taken)
    ((congrArg Mailbox.long taken).trans hl) ?_]
  · have drained : ((if op = 9 then [] else [] ++ [mb]).filter fun k => k ≠ mb) = s.mb.waiting := by
      rw [hw]
      split <;> simp
    have state : { took s mb priv cmd with mb.waiting := ((if op = 9 then [] else [] ++ [mb]).filter fun k => k ≠ mb) } =
        took s mb priv cmd := by rw [drained]; rfl
    show handle op work mb _ { took s mb priv cmd with mb.waiting := _ } = _
    rw [state, boundPort_eq_portOf]
  · by_cases h9 : op = 9
    · exact .inl h9
    · right
      simp only [h9, if_false]
      have := heldBack_took (priv := priv) hp [mb]
      rw [nextToHandle]
      show List.find? _ [mb] = some mb
      simp only [List.find?_cons, List.nil_append]
      rw [this]
      rfl

/-- A command that passes every check runs its own meaning, in the state that has taken it (R320 to R326). -/
theorem mailboxState_handled {s : State} {mb : Fin 8} {priv : Bool} {op : Nat} {cmd : Line}
    (work : Fin 8 → TakenCmd → State → State) (h : Handled s mb priv op cmd) {e : CatEntry}
    (he : catalogue op = some e) :
    mailboxState op work (.issue mb (portOf mb) priv cmd) s =
      work mb (takenCmd mb priv cmd) (took s mb priv cmd) := by
  obtain ⟨hp, hperm, hbyte, hbist, htakes, hseason⟩ := h
  obtain ⟨hbb, hup⟩ := hbyte e he
  have hlt := catalogue_lt he
  rw [mailboxState_prompt work hp he]
  refine handle_work op work mb (takenCmd mb priv cmd) (took s mb priv cmd) e he
    (classAllowed_of_permitted ⟨op, hlt⟩ mb priv hperm e he) hbb
    hbist (stateAccepts_of_takes ⟨op, hlt⟩ ⟨s.job.state.toNat, s.job.state.isLt⟩ htakes e he) ?_ hup
  show s.power.season.get ≠ 1
  rw [hseason]
  decide

/-- A row of the mailbox table whose command passes every check. -/
theorem exec_handled {s : State} {mb : Fin 8} {priv : Bool} {op : Nat} {cmd : Line}
    (work : Fin 8 → TakenCmd → State → State) (h : Handled s mb priv op cmd) {e : CatEntry}
    (he : catalogue op = some e) :
    mailboxRow op work (.issue mb (portOf mb) priv cmd) s = .next (work mb (takenCmd mb priv cmd) (took s mb priv cmd)) :=
  congrArg Host.Outcome.next (mailboxState_handled work h he)


/-! ### Responses (R317, R319) -/

/-- What a response changes: its own mailbox, and for mailbox 5 the events. -/
structure OnlyBox (s t : State) (mb : Fin 8) : Prop where
  frame : t = { s with
    mb := { s.mb with boxes := t.mb.boxes }, events := t.events, stat := { s.stat with evtOvf := t.stat.evtOvf } }
  others : OtherBoxes s t mb
  quiet : mb ≠ 5 → t.events = s.events ∧ t.stat.evtOvf = s.stat.evtOvf

theorem OnlyBox.onlyAnswer {s t : State} {mb : Fin 8} (h : OnlyBox s t mb) : OnlyAnswer s t mb := ⟨h.frame, h.others, h.quiet⟩

theorem OnlyBox.boxFrame {s t : State} {mb : Fin 8} (h : OnlyBox s t mb) : BoxFrame s t mb :=
  ⟨h.others, by rw [h.frame], h.quiet⟩

theorem OnlyBox.trans {s t u : State} {mb : Fin 8} (h : OnlyBox s t mb) (k : OnlyBox t u mb) : OnlyBox s u mb where
  frame := k.frame.trans (by rw [h.frame])
  others m hm := (k.others m hm).trans (h.others m hm)
  quiet hm := ⟨(k.quiet hm).1.trans (h.quiet hm).1, (k.quiet hm).2.trans (h.quiet hm).2⟩

theorem onlyBox_setBox (s : State) (mb : Fin 8) (b : Mailbox) : OnlyBox s (setBox s mb b) mb :=
  ⟨rfl, otherBoxes_setBox s mb b, fun _ => ⟨rfl, rfl⟩⟩

theorem onlyBox_took (s : State) (mb : Fin 8) (priv : Bool) (cmd : Line) : OnlyBox s (took s mb priv cmd) mb :=
  onlyBox_setBox _ _ _

theorem onlyBox_mbDoneEvent (s : State) (mb : Fin 8) : OnlyBox s (mbDoneEvent s mb) mb := by
  unfold mbDoneEvent
  split
  · next h =>
    refine ⟨?_, fun m _ => by simp [box], fun hm => absurd (Fin.ext h) hm⟩
    unfold raiseEvent
    dsimp only
    split
    · rfl
    · split
      · rfl
      · split <;> rfl
  · exact ⟨rfl, fun _ _ => rfl, fun _ => ⟨rfl, rfl⟩⟩

theorem onlyBox_respond {s : State} (hf : fwRunning s = true) (mb : Fin 8) (status detail : Nat)
    (rs : List (Nat × Nat × Nat)) : OnlyBox s (respond s mb status detail rs) mb := by
  rw [respond, if_pos hf]
  exact (onlyBox_setBox _ _ _).trans (onlyBox_mbDoneEvent _ _)

theorem onlyBox_accepted (s : State) (mb : Fin 8) : OnlyBox s (accepted s mb) mb :=
  (onlyBox_setBox _ _ _).trans (onlyBox_mbDoneEvent _ _)

/-- The final response of a command that its mailbox has taken, whatever else the state `u` has changed since. -/
theorem answered_respond {s u : State} {mb : Fin 8} {priv : Bool} {cmd : Line} {status detail : Nat}
    {rs : List (Nat × Nat × Nat)} (hf : fwRunning u = true)
    (hb : box u mb = takeBox (box s mb) cmd (portOf mb) priv) (hs : status < 256) (hd : detail < 2 ^ 32)
    (hr : ∀ f ∈ rs, f.1 + f.2.1 ≤ 64 ∧ 8 ≤ f.1) : Answered s (respond u mb status detail rs) mb cmd status detail := by
  obtain ⟨h0, h1, h2, h4⟩ := responseLine_header (u.ctrl.compatA.get = 1) (box u mb).op (box u mb).tag hs hd hr
  rw [Answered, respond_box_same u mb status detail rs hf]
  refine ⟨rfl, rfl, rfl, ?_, toNat_ofNat_of_lt hs, h0.trans ?_, h1, h2.trans ?_, h4⟩
  · rw [hb]
    rfl
  · rw [hb]
    exact toNat_ofNat_of_lt (fld_lt cmd 0 1)
  · rw [hb]
    exact toNat_ofNat_of_lt (fld_lt cmd 2 2)

/-- The results of that response. -/
theorem fld_rsp_respond {u : State} (mb : Fin 8) (status detail : Nat) (rs : List (Nat × Nat × Nat))
    (hf : fwRunning u = true) {o n : Nat} (ho : 8 ≤ o) (h : o + n ≤ 32) :
    fld (box (respond u mb status detail rs) mb).rsp o n = fld (mkLine rs) o n := by
  rw [respond_box_same u mb status detail rs hf]
  exact fld_responseLine_results _ _ _ _ _ _ ho h

/-- A long command that its mailbox has taken is accepted. -/
theorem runsLong_accepted {s u : State} {mb : Fin 8} {priv : Bool} {cmd : Line}
    (hb : box u mb = takeBox (box s mb) cmd (portOf mb) priv) : RunsLong s (accepted u mb) mb cmd := by
  obtain ⟨h0, h1, h2, h4⟩ := responseLine_header (u.ctrl.compatA.get = 1) (box u mb).op (box u mb).tag
    (status := stAccepted) (detail := 0) (rs := []) (by decide) (by decide) (by simp)
  rw [RunsLong, accepted_box_same]
  refine ⟨?_, rfl, rfl, ?_, rfl, h0.trans ?_, h1, h2.trans ?_, h4⟩
  · rw [hb]
    rfl
  · rw [hb]
    rfl
  · rw [hb]
    exact toNat_ofNat_of_lt (fld_lt cmd 0 1)
  · rw [hb]
    exact toNat_ofNat_of_lt (fld_lt cmd 2 2)

theorem fwRunning_of_handled {s : State} {mb : Fin 8} {priv : Bool} {op : Nat} {cmd : Line}
    (h : Handled s mb priv op cmd) : fwRunning s = true := decide_eq_true h.1.2.1

/-- A command that is only answered changes nothing else. -/
theorem answeredOnly {s : State} {mb : Fin 8} {priv : Bool} {op : Nat} {cmd : Line} (h : Handled s mb priv op cmd)
    {status detail : Nat} {rs : List (Nat × Nat × Nat)} (hs : status < 256) (hd : detail < 2 ^ 32)
    (hr : ∀ f ∈ rs, f.1 + f.2.1 ≤ 64 ∧ 8 ≤ f.1) :
    Answered s (respond (took s mb priv cmd) mb status detail rs) mb cmd status detail ∧
      OnlyAnswer s (respond (took s mb priv cmd) mb status detail rs) mb := by
  have hf : fwRunning (took s mb priv cmd) = true := (fwRunning_of_handled h :)
  exact ⟨answered_respond hf (box_took ..) hs hd hr,
    ((onlyBox_took ..).trans (onlyBox_respond hf ..)).onlyAnswer⟩

/-- A refusal with a detail, and nothing else. -/
theorem refusedOnly {s : State} {mb : Fin 8} {priv : Bool} {op : Nat} {cmd : Line} (h : Handled s mb priv op cmd)
    {status detail : Nat} (hs : status < 256) (hd : detail < 2 ^ 32) :
    Answered s (respond (took s mb priv cmd) mb status detail []) mb cmd status detail ∧
      OnlyAnswer s (respond (took s mb priv cmd) mb status detail []) mb :=
  answeredOnly h hs hd (by simp)

theorem wrongState_detail_lt (s : State) : s.job.state.toNat + 256 * s.tide.phase.get.toNat < 2 ^ 32 := by
  have h1 := s.job.state.isLt
  have h2 := s.tide.phase.get.isLt
  omega

end Sys2Proof.Machine

/-! PROOFS. The end of a capture stop, and packets leaving a send queue (R95, R96, R110, R345). -/

namespace Sys2Proof.Machine

/-! ### Stopping capture (R110, R345) -/

theorem onlyBox_respondOpt {s : State} (hf : fwRunning s = true) (mb : Fin 8) (status detail : Nat) :
    OnlyBox s (respondOpt s (some mb) status detail) mb := onlyBox_respond hf _ _ _ _

/-- A drained stop without a suspension, and no enable set meanwhile: capture is DISABLED and DRAIN_START is answered. -/
theorem captureDrainDone_stops {s : State} (h1 : s.stat.capState = 1) (hd : captureDrained s = true)
    (hm : s.stat.suspendMb = none) (ha : s.stat.capAgain = false) :
    exec .captureDrainDone s =
      .next (respondOpt { s with stat.capState := 2, stat.drainMb := none } s.stat.drainMb stOk 0) := by
  have again : (respondOpt { s with stat.capState := 2, stat.drainMb := none } s.stat.drainMb stOk 0).stat.capAgain =
      false := by
    cases hmb : s.stat.drainMb with
    | none => exact ha
    | some mb =>
      by_cases hf : fwRunning s = true
      · have frame := (onlyBox_respond (s := { s with stat.capState := 2, stat.drainMb := none }) hf mb stOk 0 []).frame
        rw [respondOpt, frame]
        exact ha
      · rw [respondOpt, respond, if_neg (by exact hf)]
        exact ha
  refine congrArg Host.Outcome.next ((if_pos ⟨h1, hd⟩).trans ?_)
  rw [hm]
  dsimp only
  rw [again]
  rfl

theorem captureDrained_iff (s : State) : captureDrained s = true ↔ s.cap.queue = [] ∧ s.cap.oldReads = [] ∧
    s.cap.records = [] ∧ s.cap.pass = none ∧ s.fold.sendPlus = [] ∧ s.fold.sendMinus = [] := by
  simp [captureDrained, gfIdle, List.isEmpty_iff, and_assoc]

/-- Settles O21: the bit starts and ends the stop, and a drained stop answers DRAIN_START. -/
theorem captureStopsOnceDrained : Obligations.CaptureStopsOnceDrained := by
  intro s
  refine ⟨fun port priv h => ⟨fun h1 h0 => ⟨_, next_regWrite_of_reaches h _, ?_⟩,
    fun h1 => ⟨_, next_regWrite_of_reaches h _, ?_⟩, fun h2 hh => ⟨_, next_regWrite_of_reaches h _, ?_⟩⟩,
    fun h1 hq ho hr hp hsp hsm hm ha hf => ⟨_, captureDrainDone_stops h1 ?_ hm ha, ?_⟩, fun h1 hne => ⟨_, ?_, rfl⟩,
    ⟨_, rfl, rfl⟩⟩
  · simp [writeCapEn, h1, h0, stopCapture]
  · simp [writeCapEn, h1]
  · simp only [writeCapEn, if_true, h2]
    exact retryHeld_of_noneHeld hh
  · exact (captureDrained_iff s).2 ⟨hq, ho, hr, hp, hsp, hsm⟩
  · cases hmb : s.stat.drainMb with
    | none => exact ⟨rfl, rfl, rfl, rfl, rfl, by simp⟩
    | some mb =>
      have hrun : fwRunning { s with stat.capState := 2, stat.drainMb := none } = true := decide_eq_true hf
      have only := onlyBox_respondOpt hrun mb stOk 0
      have frame := only.frame
      refine ⟨by rw [frame], by rw [frame], by rw [frame], by rw [frame], by rw [frame], fun m hm => ?_⟩
      cases hm
      rw [respondOpt, respond_box_same _ _ _ _ _ hrun]
      exact ⟨rfl, rfl, rfl, rfl⟩
  · refine congrArg Host.Outcome.next (if_neg fun hd => ?_)
    obtain ⟨hq, -, -, -, hp, hm⟩ := (captureDrained_iff s).1 hd.2
    rcases hne with hne | hne | hne <;> contradiction

/-! ### A packet leaves a send queue (R95, R96) -/

theorem itemBytes_sum (is : List SendItem) : queueBytes is = payloadOf is := rfl

theorem sameTrain_iff (i j : SendItem) : sameTrain i j = true ↔ alike i j := by
  simp [sameTrain, and_assoc]

theorem payloadOf_cons (i : SendItem) (is : List SendItem) : payloadOf (i :: is) = 2 + i.thin.length + payloadOf is := rfl

theorem payloadOf_append (is js : List SendItem) : payloadOf (is ++ js) = payloadOf is + payloadOf js := by
  simp [payloadOf]

/-- The train is the longest run at the front of the queue whose items are alike and fit what is left of 256 B. -/
theorem takeTrain_prefix (i : SendItem) (q : List SendItem) (used : Nat) (h : used ≤ 256) : ∃ rest,
    q = takeTrain i used q ++ rest ∧ (∀ j ∈ takeTrain i used q, alike i j) ∧
      used + payloadOf (takeTrain i used q) ≤ 256 ∧
      ∀ j more, rest = j :: more → ¬ alike i j ∨ 256 < used + payloadOf (takeTrain i used q ++ [j]) := by
  induction q generalizing used with
  | nil => exact ⟨[], rfl, by simp [takeTrain], h, by simp⟩
  | cons k t ih =>
    by_cases hk : sameTrain i k = true ∧ used + itemBytes k ≤ 256
    · obtain ⟨rest, hsplit, hall, hfit, hlong⟩ := ih (used + itemBytes k) hk.2
      have train : takeTrain i used (k :: t) = k :: takeTrain i (used + itemBytes k) t := if_pos hk
      have bytes : itemBytes k = 2 + k.thin.length := rfl
      rw [train]
      refine ⟨rest, congrArg (k :: ·) hsplit, ?_, ?_, fun j more hj => (hlong j more hj).imp_right fun hl => ?_⟩
      · exact List.forall_mem_cons.2 ⟨(sameTrain_iff i k).1 hk.1, hall⟩
      · rw [payloadOf_cons]
        omega
      · rw [List.cons_append, payloadOf_cons]
        omega
    · have train : takeTrain i used (k :: t) = [] := if_neg hk
      rw [train]
      refine ⟨k :: t, rfl, by simp, h, ?_⟩
      rintro j more ⟨⟩
      by_cases ha : alike i k
      · right
        have hb : ¬ used + itemBytes k ≤ 256 := fun hb => hk ⟨(sameTrain_iff i k).2 ha, hb⟩
        show 256 < used + payloadOf ([] ++ [k])
        have : payloadOf ([] ++ [k]) = itemBytes k := rfl
        omega
      · exact .inl ha

theorem seqKey_putSeq (l : List (Nat × Nat × U32)) (o d : Nat) (v : U32) : seqKey (putSeq l o d v) o d = v := by
  have none : (l.filter fun e => !decide (e.1 = o ∧ e.2.1 = d)).find? (fun e => decide (e.1 = o ∧ e.2.1 = d)) = none := by
    rw [List.find?_eq_none]
    rintro e he
    simpa [Decidable.not_and_iff_or_not, imp_iff_not_or] using (List.mem_filter.1 he).2
  rw [seqKey, putSeq, List.find?_append, none]
  simp

theorem queueOf_eq (s : State) (d : Dir) : queueOf s d = sendQueue s d := by cases d <;> rfl

theorem bucketOf_eq (s : State) (d : Dir) : bucketOf s d = tokens s d := by cases d <;> rfl

/-- The packet that a train of the queue's first item makes (R95, R96). -/
def trainPacket (s : State) (i : SendItem) (train : List SendItem) : FoldStore :=
  { ca := i.ca, fwd := i.fwd, cove := ownCoveId s, origin := BitVec.ofNat 8 i.origin,
    sender := BitVec.ofNat 8 (ownPos s), dest := BitVec.ofNat 8 i.dest, view := viewNow s, tide := i.tide,
    bay := BitVec.ofNat 16 i.bay, seq := seqKey s.fold.seqs i.origin i.dest,
    recs := train.map fun r => { line := BitVec.ofNat 16 r.line, thin := r.thin } }

/-- A packet leaves: its train out of the queue, its bytes out of the bucket, and its sequence number taken. -/
def packetSent (s : State) (d : Dir) (i : SendItem) (train : List SendItem) : State :=
  let u := drainSend s d train.length (stored (24 + queueBytes train))
  { u with
    fold.seqs := putSeq s.fold.seqs i.origin i.dest (seqKey s.fold.seqs i.origin i.dest + 1)
    out.lkp := s.out.lkp ++
      [.store (rankAt s (ownCoveId s) i.dest) .vf (.w d) (.foldStore (trainPacket s i train))]
    cnt := s.cnt.set 4 (s.cnt.get 4 + 1) }

theorem sendFoldStore_sends {s : State} {d : Dir} {i : SendItem} {tl : List SendItem} (hq : sendQueue s d = i :: tl)
    (ht : stored (24 + queueBytes (takeTrain i 0 (i :: tl))) ≤ tokens s d) (ha : foldAllowed s = true)
    (hw : wPortOpen s d = true) (hl : s.ports.lkp = true) :
    sendFoldStore d s = packetSent s d i (takeTrain i 0 (i :: tl)) := by
  simp only [sendFoldStore, hq, ha, hw, hl, Nat.not_lt.2 ht, Bool.not_true, Bool.false_eq_true, or_self, if_false]
  cases d <;> simp only [drainSend, sendTo, hl, if_true] <;> rfl

theorem sendFoldStore_waits {s : State} {d : Dir} {i : SendItem} {tl : List SendItem} (hq : sendQueue s d = i :: tl)
    (h : tokens s d < stored (24 + queueBytes (takeTrain i 0 (i :: tl))) ∨ wPortOpen s d = false) :
    sendFoldStore d s = s := by
  simp only [sendFoldStore, hq]
  refine if_pos ?_
  rcases h with h | h
  · exact .inl h
  · exact .inr (.inr (.inl (by rw [h]; rfl)))

theorem stored_eq (n : Nat) : stored n = (n + 7) / 8 * 8 := by
  unfold stored roundUp
  omega

/-- Settles O22: the packet is the longest alike run at the front that fits. -/
theorem foldStoreTakesTheLongestAlikePrefix : Obligations.FoldStoreTakesTheLongestAlikePrefix := by
  intro s d i tl hq hs
  rw [queueOf_eq] at hq
  have run : exec (.foldStoreSend d) s = .next (sendFoldStore d s) :=
    congrArg Host.Outcome.next (foldSide_noShadow hs _)
  obtain ⟨rest, hsplit, hall, hfit, hlong⟩ := takeTrain_prefix i (i :: tl) 0 (by decide)
  have hcost : stored (24 + queueBytes (takeTrain i 0 (i :: tl))) =
      (24 + payloadOf (takeTrain i 0 (i :: tl)) + 7) / 8 * 8 := stored_eq _
  refine ⟨fun hi hb h4 h5 hw hf hl => ?_, fun h => ⟨_, run, sendFoldStore_waits hq ?_⟩⟩
  · have allowed : foldAllowed s = true := by simpa [foldAllowed, hw] using ⟨h4, h5⟩
    have sends := sendFoldStore_sends hq (by rw [hcost, ← bucketOf_eq]; omega) allowed
      (by cases d <;> simpa [wPortOpen] using hf) hl
    refine ⟨_, run, takeTrain i 0 (i :: tl), rest, trainPacket s i (takeTrain i 0 (i :: tl)), hsplit, ?_, hall,
      by omega, fun j more hj => by simpa using hlong j more hj, rfl, rfl, rfl, BitVec.toNat_ofNat _ _, ?_,
      BitVec.toNat_ofNat _ _, rfl, rfl, BitVec.toNat_ofNat _ _, rfl, rfl, ?_⟩
    · rw [show takeTrain i 0 (i :: tl) = i :: takeTrain i (0 + itemBytes i) tl from
        if_pos ⟨by simp [sameTrain], by simpa [itemBytes] using hi⟩]
      exact List.cons_ne_nil _ _
    · exact toNat_ofNat_of_lt (Nat.lt_trans s.agree.position.isLt (by decide))
    · rw [sends]
      refine ⟨rfl, ?_, ?_, seqKey_putSeq _ _ _ _, rfl, ?_⟩
      · have left : (sendQueue s d).drop (takeTrain i 0 (i :: tl)).length = rest := by
          rw [hq]
          exact (congrArg (List.drop _) hsplit).trans List.drop_left
        cases d <;> exact left
      · rw [← hcost]
        cases d <;> rfl
      · cases d <;> rfl
  · rw [hcost, ← bucketOf_eq]
    rcases h with h | h
    · left
      omega
    · right
      cases d <;> simpa [wPortOpen] using h

end Sys2Proof.Machine

/-! PROOFS. Blocks zeroed and copied, the slot copy, and folding a parity line (R99, R100, R112, R129). -/

namespace Sys2Proof.Machine

/-! ### A block of memory zeroed or copied -/

theorem undefAt_cut_inside (m : Mem) (lo hi a : Nat) (c : List Host.Cell) (h : lo ≤ a ∧ a < hi) :
    Mem.undefAt { m with cells := c, undef := cutRanges lo hi m.undef } a = none := by
  cases hx : Mem.undefAt { m with cells := c, undef := cutRanges lo hi m.undef } a with
  | none => rfl
  | some g =>
    have : covered (cutRanges lo hi m.undef) a := by
      rw [← Mem.inUndef_iff { m with cells := c, undef := cutRanges lo hi m.undef }, Mem.inUndef, hx]
      rfl
    have := ((covered_cutRanges _ _ _ _).1 this).2
    omega

theorem Mem.byte_zero_other (m : Mem) (a n x : Nat) (h : x < a ∨ a + n ≤ x) : (m.zero a n).byte x = m.byte x := by
  have hu : (m.zero a n).undefAt x = m.undefAt x := undefAt_cut m _ _ _ _ (Nat.le_add_right _ _) h
  simp only [Mem.byte, hu]
  cases m.undefAt x with
  | some g => rfl
  | none => exact look_filter m.cells (fun c => decide (c < a) || decide (a + n ≤ c)) x (by simpa using h)

theorem look_eq_zero (l : List Host.Cell) (a : Nat) (h : ∀ c ∈ l, c.1 ≠ a) : look (0 : Byte) a l = 0 := by
  rw [← List.append_nil l, look_append_of_not_mem _ _ _ h]
  rfl

theorem Mem.byte_zero_same (m : Mem) (a n : Nat) {i : Nat} (h : i < n) : (m.zero a n).byte (a + i) = 0 := by
  have hu : (m.zero a n).undefAt (a + i) = none := undefAt_cut_inside m _ _ _ _ (by omega)
  simp only [Mem.byte, hu]
  refine look_eq_zero _ _ fun c hc => ?_
  simp only [Mem.zero, List.mem_filter, Bool.or_eq_true, decide_eq_true_eq] at hc
  omega

theorem Mem.bytes_getD (m : Mem) (a n : Nat) {i : Nat} (h : i < n) : (m.bytes a n).getD i 0 = m.byte (a + i) := by
  simp [Mem.bytes, List.getD, h]

theorem Mem.bytes_length (m : Mem) (a n : Nat) : (m.bytes a n).length = n := by simp [Mem.bytes]

/-- The cells of a block that has moved answer as the block did. -/
theorem look_moved (l : List Host.Cell) (src dst n i : Nat) (h : i < n) :
    look (0 : Byte) (dst + i) ((l.filter fun c => decide (src ≤ c.1 ∧ c.1 < src + n)).map
      fun c => (c.1 - src + dst, c.2)) = look 0 (src + i) l := by
  induction l with
  | nil => rfl
  | cons c t ih =>
    obtain ⟨x, b⟩ := c
    rw [List.filter_cons]
    by_cases hx : src ≤ x ∧ x < src + n
    · rw [if_pos (by simpa using hx)]
      by_cases he : x = src + i
      · simp [look, he, Nat.add_comm]
      · simp only [List.map_cons, look, he, if_false, show ¬ x - src + dst = dst + i by omega]
        exact ih
    · rw [if_neg (by simpa using hx)]
      simp only [look, show ¬ x = src + i by omega, if_false]
      exact ih

theorem mem_zero_lo (m : Mem) (a n : Nat) :
    (m.zero a n).cells.filter (fun c => decide (c.1 < a)) = m.cells.filter fun c => decide (c.1 < a) := by
  simp only [Mem.zero, List.filter_filter]
  refine List.filter_congr fun c _ => ?_
  by_cases h : c.1 < a <;> simp [h]

theorem mem_zero_hi (m : Mem) (a n : Nat) :
    (m.zero a n).cells.filter (fun c => decide (a + n ≤ c.1)) = m.cells.filter fun c => decide (a + n ≤ c.1) := by
  simp only [Mem.zero, List.filter_filter]
  refine List.filter_congr fun c _ => ?_
  by_cases h : a + n ≤ c.1 <;> simp [h]

/-- Outside the destination, a copy leaves memory as it is. -/
theorem Mem.byte_copy_other (m : Mem) (src dst n x : Nat) (h : x < dst ∨ dst + n ≤ x) :
    (m.copy src dst n).byte x = m.byte x := by
  unfold Mem.copy
  split
  · exact Mem.byte_write_other _ _ _ _ (by rwa [Mem.bytes_length])
  · dsimp only
    rw [mem_zero_lo, mem_zero_hi]
    have hu := undefAt_cut m dst (dst + n) x (m.cells.filter (fun c => decide (c.1 < dst)) ++
      (m.cells.filter fun c => decide (src ≤ c.1 ∧ c.1 < src + n)).map (fun c => (c.1 - src + dst, c.2)) ++
        m.cells.filter fun c => decide (dst + n ≤ c.1)) (Nat.le_add_right _ _) h
    simp only [Mem.byte, Mem.zero, hu]
    cases m.undefAt x with
    | some g => rfl
    | none =>
      have moved : ∀ c ∈ (m.cells.filter fun c => decide (src ≤ c.1 ∧ c.1 < src + n)).map
          (fun c => (c.1 - src + dst, c.2)), c.1 ≠ x := by
        intro c hc
        simp only [List.mem_map, List.mem_filter, decide_eq_true_eq] at hc
        obtain ⟨d, ⟨-, hd⟩, rfl⟩ := hc
        dsimp only
        omega
      rcases h with h | h
      · rw [look_append_right, look_append_right _ _ _ moved]
        · exact look_filter m.cells (fun c => decide (c < dst)) x (by simpa using h)
        · intro c hc
          simp only [List.mem_filter, decide_eq_true_eq] at hc
          omega
      · rw [List.append_assoc, look_append_of_not_mem, look_append_of_not_mem _ _ _ moved]
        · exact look_filter m.cells (fun c => decide (dst + n ≤ c)) x (by simpa using h)
        · intro c hc
          simp only [List.mem_filter, decide_eq_true_eq] at hc
          omega

/-- In the destination, a copy reads as its source did. -/
theorem Mem.byte_copy_same (m : Mem) (src dst n : Nat) {i : Nat} (h : i < n) :
    (m.copy src dst n).byte (dst + i) = m.byte (src + i) := by
  unfold Mem.copy
  split
  · rw [Mem.byte_write_same _ _ _ _ (by rwa [Mem.bytes_length]), Mem.bytes_getD _ _ _ h]
  · next hdef =>
    have hs : m.undefAt (src + i) = none := by
      rw [Mem.undefAt, List.find?_eq_none.2, Option.map_none]
      intro r hr
      have := hdef
      simp only [List.any_eq_true, decide_eq_true_eq, not_exists, not_and] at this
      have := this r hr
      simp only [Bool.and_eq_true, decide_eq_true_eq]
      omega
    dsimp only
    rw [mem_zero_lo, mem_zero_hi]
    have hu := undefAt_cut_inside m dst (dst + n) (dst + i) (m.cells.filter (fun c => decide (c.1 < dst)) ++
      (m.cells.filter fun c => decide (src ≤ c.1 ∧ c.1 < src + n)).map (fun c => (c.1 - src + dst, c.2)) ++
        m.cells.filter fun c => decide (dst + n ≤ c.1)) (by omega)
    simp only [Mem.byte, Mem.zero, hu, hs]
    rw [look_append_right, look_append_of_not_mem]
    · exact look_moved m.cells src dst n i h
    · intro c hc
      simp only [List.mem_filter, decide_eq_true_eq] at hc
      omega
    · intro c hc
      simp only [List.mem_filter, decide_eq_true_eq] at hc
      omega

/-! ### The copy of the sealed slot, and the end of the receive side (R100, R112, R129) -/

/-- Settles O25: the copied block reads as the sealed slot, and an empty buffer ends the stop. -/
theorem slotCopyAndFoldDisable : Obligations.SlotCopyAndFoldDisable := by
  intro s lines
  refine ⟨fun c hc h0 h4 hle => ?_, fun hn => ⟨_, ?_, rfl⟩, fun h1 hb ha => ⟨_, ?_, rfl⟩, fun h1 hb ha => ⟨_, ?_, rfl⟩,
    fun hb => ⟨_, congrArg Host.Outcome.next (if_neg fun h => hb h.2), rfl⟩⟩
  · have copies : exec (.paritySlotCopy lines) s = .next { s with
        mem := s.mem.copy (slotBase s (sealedSlot s) + c) (slotBase s (workingSlot s) + c)
          (min (lines * 64) (slotSize s - c))
        fold.copyCursor := if c + min (lines * 64) (slotSize s - c) < slotSize s then
          some (c + min (lines * 64) (slotSize s - c)) else none } := by
      refine congrArg Host.Outcome.next ?_
      simp only [hc]
      exact if_neg fun h => h.elim h0 h4
    refine ⟨_, copies, rfl, fun i hi => Mem.byte_copy_same _ _ _ _ hi, fun x hx => Mem.byte_copy_other _ _ _ _ _ hx,
      fun hlt => ?_, fun hge => ?_⟩
    · have : min (lines * 64) (slotSize s - c) = lines * 64 := by omega
      simp only [this, hlt, if_true]
    · have : min (lines * 64) (slotSize s - c) = slotSize s - c := by omega
      exact if_neg (by omega)
  · exact congrArg Host.Outcome.next (by simp only [hn])
  · exact congrArg Host.Outcome.next (by simp [h1, hb, ha])
  · exact congrArg Host.Outcome.next (by simp [h1, hb, ha])

/-! ### Folding (R99, R100) -/

theorem checkLow_of_notHigh {s : State} (h : s.fold.high = false) : checkLow s = s :=
  if_neg fun hl => by simp [h] at hl

theorem get_set_counter (v : Vector U32 23) (i : Fin 23) (x : U32) : (v.set i.val x i.isLt).get i = x := by
  show (v.set i.val x i.isLt)[i.val] = x
  simp

theorem mirrorLine_of_noHandover {s : State} (h : s.recov.handover = none) (parity : Bool) (b d : Nat) (l : Line) :
    mirrorLine s parity b d l = s := by simp only [mirrorLine, h]

theorem checkLow_mirrorLine {s : State} (h : s.recov.handover = none) (hh : s.fold.high = false) (parity : Bool)
    (b d : Nat) (l : Line) : checkLow (mirrorLine s parity b d l) = s := by
  rw [mirrorLine_of_noHandover h, checkLow_of_notHigh hh]

/-- Settles O24: the oldest record's line takes every record of it in one write. -/
theorem foldAddsEveryRecordOfTheLine : Obligations.FoldAddsEveryRecordOfTheLine := by
  intro s hs hh
  have run : exec .foldRecord s = .next (foldOne s) := congrArg Host.Outcome.next (foldSide_noShadow hs _)
  refine ⟨fun r0 rest hb hc hhigh => ?_, fun c hc hall => ⟨_, run, ?_⟩⟩
  · have first : s.fold.buffer.find? (fun r => cursorPassed s (recOffset s r)) = some r0 := by
      simp [hb, cursorPassed, hc]
    have fold : foldOne s = countN { s with
        mem := s.mem.writeLine (slotBase s (foldSlot s) + recOffset s r0)
          ((s.fold.buffer.filter fun r => recOffset s r = recOffset s r0).foldl (fun l r => l ^^^ recDelta s r)
            (s.mem.line (slotBase s (foldSlot s) + recOffset s r0)))
        fold.buffer := s.fold.buffer.filter fun r => recOffset s r ≠ recOffset s r0
        fold.folded := (s.fold.buffer.filter fun r => recOffset s r = recOffset s r0).foldl
          (fun l r => countFolded l r.origin r.fwd) s.fold.folded } cntFsFolded
          (s.fold.buffer.filter fun r => recOffset s r = recOffset s r0).length := by
      simp only [foldOne, first]
      exact checkLow_mirrorLine (by exact hh) (by exact hhigh) _ _ _ _
    refine ⟨_, run, ?_⟩
    rw [fold]
    refine ⟨rfl, Mem.line_writeLine _ _ _, fun x hx => Mem.byte_writeLine_other _ _ _ hx, rfl, ?_⟩
    exact get_set_counter _ _ _
  · have none : s.fold.buffer.find? (fun r => cursorPassed s (recOffset s r)) = none := by
      refine List.find?_eq_none.2 fun r hr => ?_
      have := hall r hr
      simp only [cursorPassed, hc, decide_eq_true_eq]
      omega
    simp only [foldOne, none]

end Sys2Proof.Machine

/-! PROOFS. Fold-stores at the fold port (R93, R97 to R99). -/

namespace Sys2Proof.Machine

/-! ### A packet offered at the fold port (R97, R98) -/

theorem exec_foldStore {s : State} (p : FoldStore) (hl : s.ports.lkp = true) (hw : s.power.season.get ≠ 2)
    (hs : s.recov.shadow = none) : exec (.foldStore p) s = .next (offerFoldStore p s) := by
  refine congrArg Host.Outcome.next ?_
  rw [vfIn, if_neg (by simp [hl]), if_neg hw, foldSide_noShadow hs]

theorem earlyForm_of_cove {s : State} (h : s.agree.cove.isSome = true) (cove view : U16) (tide : U48) :
    earlyForm s cove view tide = false := by
  obtain ⟨c, hc⟩ := Option.isSome_iff_exists.1 h
  simp [earlyForm, hc]

theorem offerFoldStore_shut {s : State} (p : FoldStore) (h : s.fold.high = true ∨ s.stat.foldState ≠ 0) :
    offerFoldStore p s = s := if_pos (.inr (h.imp_right .inl))

/-- The fold port takes packets: it is up, below high-water and enabled, and the member has its cove. -/
structure FoldPortOpen (s : State) : Prop where
  lkp : s.ports.lkp = true
  low : s.fold.high = false
  enabled : s.stat.foldState = 0
  cove : s.agree.cove.isSome = true

/-- What an open fold port does with a packet, once nothing of it must wait for the send queue. -/
theorem offerFoldStore_open {s : State} {p : FoldStore} (h : FoldPortOpen s)
    (hf : mustForward s p = false ∨ queueRoom (sendQueue s (travel s p.origin.toNat)) = true) :
    offerFoldStore p s =
      if !foldChecks s p then count s cntFsDrop
      else if (streamOf s p).broken then count s cntFsDrop
      else if p.seq ≠ (streamOf s p).next ∨ badRecord s p then breakStream s p
      else checkHigh (takeRecords (putStream s { streamOf s p with next := (streamOf s p).next + 1 }) p) := by
  unfold offerFoldStore
  rw [if_neg, if_neg]
  · rintro ⟨hm, hr⟩
    rcases hf with hf | hf
    · exact absurd hm (by simp [hf])
    · exact absurd hr (by simp [hf])
  · simp [h.lkp, h.low, h.enabled, earlyForm_of_cove h.cove]

theorem foldChecks_iff (s : State) (p : FoldStore) : foldChecks s p = true ↔ Deliverable s p := by
  simp [foldChecks, foldAllowed, Deliverable, and_assoc]

/-! ### Streams (R97) -/

theorem streamOf_names (s : State) (p : FoldStore) :
    (streamOf s p).origin = p.origin.toNat ∧ (streamOf s p).sender = p.sender.toNat := by
  unfold streamOf
  cases hf : s.fold.streams.find? fun t => decide (t.origin = p.origin.toNat ∧ t.sender = p.sender.toNat) with
  | none => exact ⟨rfl, rfl⟩
  | some t => simpa using List.find?_some hf

theorem streamOf_put {s t : State} {st : Stream} {p : FoldStore} (ho : st.origin = p.origin.toNat)
    (hs : st.sender = p.sender.toNat) (ht : t.fold.streams = (putStream s st).fold.streams) : streamOf t p = st := by
  have none : (s.fold.streams.filter fun u => !decide (u.origin = st.origin ∧ u.sender = st.sender)).find?
      (fun t => decide (t.origin = p.origin.toNat ∧ t.sender = p.sender.toNat)) = none := by
    rw [List.find?_eq_none]
    intro u hu
    rw [← ho, ← hs]
    simpa only [Bool.not_eq_true, Bool.not_eq_true'] using (List.mem_filter.1 hu).2
  rw [streamOf, ht, putStream]
  show ((s.fold.streams.filter (fun u => !decide (u.origin = st.origin ∧ u.sender = st.sender)) ++ [st]).find? _).getD _ = st
  rw [List.find?_append, none]
  simp [ho, hs]

/-! ### Taking records (R93, R99) -/

/-- A record of a packet as the fold buffer holds it. -/
def bufferRecord (p : FoldStore) (r : FsRec) : FbRec :=
  { origin := p.origin.toNat, fwd := p.fwd, bay := p.bay.toNat, line := r.line.toNat, coded := p.ca, thin := r.thin }

/-- One record of a packet is taken into the fold buffer, and goes on where another headland must have it. -/
def takeRecord (p : FoldStore) (t : State) (r : FsRec) : State :=
  let t1 := { t with fold.buffer := t.fold.buffer ++ [bufferRecord p r] }
  if p.ca then t1
  else match onward t1 p.origin.toNat p.bay.toNat r.line.toNat with
    | some d => pushSend t1 (travel t1 p.origin.toNat)
        { dest := d, ca := false, fwd := true, origin := p.origin.toNat, bay := p.bay.toNat, line := r.line.toNat,
          thin := r.thin, tide := p.tide }
    | none => t1

theorem takeRecords_eq (s : State) (p : FoldStore) : takeRecords s p = forEach p.recs (takeRecord p) s := rfl

theorem takeRecord_ends {s : State} {p : FoldStore} {r : FsRec}
    (h : p.ca = true ∨ onward s p.origin.toNat p.bay.toNat r.line.toNat = none) :
    takeRecord p s r = { s with fold.buffer := s.fold.buffer ++ [bufferRecord p r] } := by
  unfold takeRecord
  dsimp only
  split
  · rfl
  · next hca =>
    have none : onward { s with fold.buffer := s.fold.buffer ++ [bufferRecord p r] } p.origin.toNat p.bay.toNat
        r.line.toNat = none := h.resolve_left hca
    rw [none]

theorem takeRecord_goesOn {s : State} {p : FoldStore} {r : FsRec} {d : Nat} (hca : p.ca = false)
    (h : onward s p.origin.toNat p.bay.toNat r.line.toNat = some d) :
    takeRecord p s r = pushSend { s with fold.buffer := s.fold.buffer ++ [bufferRecord p r] } (travel s p.origin.toNat)
      { dest := d, ca := false, fwd := true, origin := p.origin.toNat, bay := p.bay.toNat, line := r.line.toNat,
        thin := r.thin, tide := p.tide } := by
  have some_ : onward { s with fold.buffer := s.fold.buffer ++ [bufferRecord p r] } p.origin.toNat p.bay.toNat
      r.line.toNat = some d := h
  unfold takeRecord
  dsimp only
  rw [hca, if_neg (by decide), some_]
  rfl

theorem forEach_takeRecord_ends {p : FoldStore} (rs : List FsRec) (s : State)
    (h : p.ca = true ∨ ∀ r ∈ rs, onward s p.origin.toNat p.bay.toNat r.line.toNat = none) :
    forEach rs (takeRecord p) s = { s with fold.buffer := s.fold.buffer ++ rs.map (bufferRecord p) } := by
  induction rs generalizing s with
  | nil =>
    show s = _
    rw [List.map_nil, List.append_nil]
  | cons r t ih =>
    have first := takeRecord_ends (s := s) (p := p) (r := r) (h.imp_right fun hr => hr r List.mem_cons_self)
    have later := ih { s with fold.buffer := s.fold.buffer ++ [bufferRecord p r] }
      (h.imp_right fun hr x hx => hr x (List.mem_cons_of_mem _ hx))
    show forEach t (takeRecord p) (takeRecord p s r) = _
    rw [first, later, List.map_cons, List.append_assoc]
    rfl

theorem checkHigh_of_lt {s : State} (h : fbBytes s.fold.buffer < 3 * 1048576) : checkHigh s = s :=
  if_neg (by rw [mib]; omega)

theorem fbBytes_append (b c : List FbRec) : fbBytes (b ++ c) = fbBytes b + fbBytes c := by simp [fbBytes]

theorem fbBytes_records (p : FoldStore) (rs : List FsRec) :
    fbBytes (rs.map (bufferRecord p)) = (rs.map fun r => 2 + r.thin.length).sum := by
  rw [fbBytes, List.map_map]
  rfl

/-- A packet out of sequence breaks its stream and is reported (R97, R98). -/
theorem breakStream_keeps (s : State) (p : FoldStore) : (streamOf (breakStream s p) p).broken = true ∧
    (breakStream s p).cnt = s.cnt.set 7 (s.cnt.get 7 + 1) ∧ (breakStream s p).fold.buffer = s.fold.buffer ∧
    (breakStream s p).mem = s.mem ∧ (breakStream s p).tide = s.tide := by
  obtain ⟨ho, hs⟩ := streamOf_names s p
  unfold breakStream
  refine ⟨?_, (logReport_cnt ..).trans rfl, by rw [logReport_fold]; rfl, by rw [logReport_mem]; rfl, by rw [logReport_tide]; rfl⟩
  rw [streamOf_put (s := s) (st := { streamOf s p with broken := true }) ho hs (by simp)]

/-- A packet that its stream expects, all of whose records are good (R97). -/
theorem offerFoldStore_takes {s : State} {p : FoldStore} (h : FoldPortOpen s)
    (hf : mustForward s p = false ∨ queueRoom (sendQueue s (travel s p.origin.toNat)) = true) (hd : Deliverable s p)
    (hb : (streamOf s p).broken = false) (hq : p.seq = (streamOf s p).next) (hbad : badRecord s p = false) :
    offerFoldStore p s =
      checkHigh (takeRecords (putStream s { streamOf s p with next := (streamOf s p).next + 1 }) p) := by
  rw [offerFoldStore_open h hf, if_neg (by simp [(foldChecks_iff s p).2 hd]), if_neg (by simp [hb]),
    if_neg (by simp [hq, hbad])]

/-- Settles O23: the checks of an open port, one by one. -/
theorem foldStoreIsTakenDroppedOrBreaksItsStream : Obligations.FoldStoreIsTakenDroppedOrBreaksItsStream := by
  intro s p hl hw hs
  have run := exec_foldStore p hl hw hs
  obtain ⟨ho, hsend⟩ := streamOf_names s p
  refine ⟨fun h => ⟨_, run, offerFoldStore_shut p h⟩, fun hhigh hst hcove hends => ?_,
    fun r d hhigh hst hcove hca hrecs hon => ?_⟩
  · have port : FoldPortOpen s := ⟨hl, hhigh, hst, hcove⟩
    have stays : mustForward s p = false := by
      rcases hends with h | h
      · simp [mustForward, h]
      · simp only [mustForward, Bool.and_eq_false_iff, List.any_eq_false]
        exact .inr fun r hr => by simp [h r hr]
    have offer := offerFoldStore_open port (.inl stays)
    refine ⟨fun hd => ⟨_, run, ?_⟩, fun hd hb => ⟨_, run, ?_⟩, fun hd hb hq => ⟨_, run, ?_⟩,
      fun hd hb hq hbad hroom => ⟨_, run, ?_⟩⟩
    · rw [offer, if_pos (by simpa [← foldChecks_iff] using hd)]
      rfl
    · rw [offer, if_neg (by simp [(foldChecks_iff s p).2 hd]), if_pos hb]
      rfl
    · rw [offer, if_neg (by simp [(foldChecks_iff s p).2 hd]), if_neg (by simp [hb]), if_pos (.inl hq)]
      exact breakStream_keeps s p
    · have taken := forEach_takeRecord_ends (p := p) p.recs
        (putStream s { streamOf s p with next := (streamOf s p).next + 1 }) hends
      rw [offerFoldStore_takes port (.inl stays) hd hb hq hbad, takeRecords_eq, taken, checkHigh_of_lt]
      · refine ⟨rfl, rfl, ?_, ?_⟩
        · exact (congrArg Stream.next (streamOf_put (s := s) (st := { streamOf s p with next := (streamOf s p).next + 1 })
            ho hsend rfl)).trans (congrArg (· + 1) hq.symm)
        · exact (congrArg Stream.broken (streamOf_put (s := s) (st := { streamOf s p with next := (streamOf s p).next + 1 })
            ho hsend rfl)).trans hb
      · show fbBytes (s.fold.buffer ++ _) < _
        rw [fbBytes_append, fbBytes_records]
        exact hroom
  · have port : FoldPortOpen s := ⟨hl, hhigh, hst, hcove⟩
    have goes : mustForward s p = true := by simp [mustForward, hca, hrecs, hon]
    have bytes : payloadOf (queueOf s (travel s p.origin.toNat)) = queueBytes (sendQueue s (travel s p.origin.toNat)) := by
      rw [queueOf_eq]
      rfl
    rw [bytes]
    refine ⟨fun hfull => ⟨_, run, ?_⟩, fun hroom hd hb hq hbad hfit => ⟨_, run, ?_⟩⟩
    · have wait : mustForward s p ∧ !queueRoom (sendQueue s (travel s p.origin.toNat)) := by
        refine ⟨goes, ?_⟩
        simp only [queueRoom, Bool.not_eq_true', decide_eq_false_iff_not]
        omega
      rw [offerFoldStore, if_neg (by simp [hl, hhigh, hst, earlyForm_of_cove hcove]), if_pos wait]
    · have forward := takeRecord_goesOn (s := putStream s { streamOf s p with next := (streamOf s p).next + 1 }) (r := r) hca hon
      have fits : ∀ (t : Dir) (i : SendItem), fbBytes (pushSend { putStream s { streamOf s p with
          next := (streamOf s p).next + 1 } with fold.buffer := s.fold.buffer ++ [bufferRecord p r] } t i).fold.buffer <
            3 * 1048576 := by
        intro t i
        cases t <;> exact (fbBytes_append _ _).trans_lt hfit
      have one : takeRecords (putStream s { streamOf s p with next := (streamOf s p).next + 1 }) p = _ :=
        (congrArg (forEach · (takeRecord p) _) hrecs).trans forward
      have taken := (offerFoldStore_takes port (.inr (by simp [queueRoom, hroom])) hd hb hq hbad).trans
        ((congrArg checkHigh one).trans (checkHigh_of_lt (fits _ _)))
      rw [taken]
      cases ht : travel s p.origin.toNat
      all_goals
        have ht' : travel (putStream s { streamOf s p with next := (streamOf s p).next + 1 }) p.origin.toNat = _ := ht
        rw [ht']
        simp only [pushSend, queueOf, bufferRecord, hca, putStream, and_self]

end Sys2Proof.Machine

/-! PROOFS. The capture queue's oldest line: touch cache, stash, digest and merge (R83, R85, R87 to R89, R139, R280). -/

namespace Sys2Proof.Machine

/-! ### Looking up a key -/

theorem look_append_absent {β : Type} (d : β) (k : Nat) (l m : List (Nat × β)) (h : ∀ e ∈ l, e.1 ≠ k) :
    look d k (l ++ m) = look d k m := by
  induction l with
  | nil => rfl
  | cons e t ih =>
    rw [List.cons_append, look, if_neg (h e List.mem_cons_self)]
    exact ih fun e he => h e (List.mem_cons_of_mem _ he)

theorem look_of_absent {β : Type} (d : β) (k : Nat) (l : List (Nat × β)) (h : ∀ e ∈ l, e.1 ≠ k) : look d k l = d := by
  have := look_append_absent d k l [] h
  rwa [List.append_nil] at this

theorem look_append_before {β : Type} (d : β) (k : Nat) (l m : List (Nat × β)) (h : ∀ e ∈ m, e.1 ≠ k) :
    look d k (l ++ m) = look d k l := by
  induction l with
  | nil => exact look_of_absent d k m h
  | cons e t ih =>
    rw [List.cons_append, look, look]
    split
    · rfl
    · exact ih

theorem look_filter_key {β : Type} (d : β) (k : Nat) (l : List (Nat × β)) (p : Nat → Bool) (h : p k = true) :
    look d k (l.filter fun e => p e.1) = look d k l := by
  induction l with
  | nil => rfl
  | cons e t ih =>
    rw [List.filter_cons]
    by_cases he : e.1 = k
    · rw [if_pos (by rw [he]; exact h), look, look, if_pos he, if_pos he]
    · rw [look, if_neg he]
      split
      · rw [look, if_neg he]
        exact ih
      · exact ih

/-! ### Running digests (R139) -/

theorem look_putDigest_same (ds : List (Nat × U64)) (row : Nat) (d : U64) : look 0 row (putDigest ds row d) = d := by
  rw [putDigest, look_append_before, look_append_absent]
  · split
    · next h => exact h.symm
    · exact if_pos rfl
  · intro e he
    have := (List.mem_filter.1 he).2
    simp only [decide_eq_true_eq] at this
    omega
  · intro e he
    have := (List.mem_filter.1 he).2
    simp only [decide_eq_true_eq] at this
    omega

theorem look_putDigest_other (ds : List (Nat × U64)) {row r : Nat} (d : U64) (h : r ≠ row) :
    look 0 r (putDigest ds row d) = look 0 r ds := by
  have mid : ∀ e ∈ (if d = 0 then [] else [(row, d)]), e.1 ≠ r := by
    intro e he
    split at he
    · cases he
    · rw [List.mem_singleton.1 he]
      exact h.symm
  rcases Nat.lt_or_gt_of_ne h with hlt | hgt
  · rw [putDigest, look_append_before, look_append_before _ _ _ _ mid]
    · exact look_filter_key 0 r ds (fun x => decide (x < row)) (by simpa using hlt)
    · intro e he
      have := (List.mem_filter.1 he).2
      simp only [decide_eq_true_eq] at this
      omega
  · rw [putDigest, List.append_assoc, look_append_absent, look_append_absent _ _ _ _ mid]
    · exact look_filter_key 0 r ds (fun x => decide (row < x)) (by simpa using hgt)
    · intro e he
      have := (List.mem_filter.1 he).2
      simp only [decide_eq_true_eq] at this
      omega

/-! ### The touch cache (R87, R88) -/

/-- What a load of the touch cache, and a first touch, may change. -/
def withTouch (s : State) (m : Mem) (cache : List TouchLine) (valid : List Nat) (near far drawn : Nat) : State :=
  { s with
    mem := m
    cap := { s.cap with touchCache := cache, touchValid := valid, nearFill := near, farFill := far }
    freeCtr := drawn }

theorem evictTouch_frame (s : State) : ∃ m cache valid drawn, (evictTouch s) =
    withTouch s m cache valid s.cap.nearFill s.cap.farFill drawn ∧ ∀ e ∈ cache, e ∈ s.cap.touchCache := by
  unfold evictTouch
  split
  · next t _ =>
    unfold writeBack
    dsimp only
    split
    · exact ⟨_, _, _, _, rfl, fun e he => List.mem_of_mem_erase he⟩
    · exact ⟨_, _, _, _, rfl, fun e he => List.mem_of_mem_erase he⟩
  · exact ⟨_, _, _, _, rfl, fun e he => he⟩

theorem loadTouch_frame (s : State) (n : Nat) : ∃ m cache valid drawn,
    loadTouch s n = withTouch s m cache valid s.cap.nearFill s.cap.farFill drawn := by
  unfold loadTouch
  split
  · exact ⟨_, _, _, _, rfl⟩
  · dsimp only
    split
    · obtain ⟨m, cache, valid, drawn, h, -⟩ := evictTouch_frame s
      rw [h]
      exact ⟨_, _, _, _, rfl⟩
    · exact ⟨_, _, _, _, rfl⟩

/-- With room in the touch cache a load only adds a line to it. -/
theorem loadTouch_of_room {s : State} (n : Nat) (h : s.cap.touchCache.length < 2048) : ∃ cache,
    loadTouch s n = { s with cap.touchCache := cache } := by
  unfold loadTouch
  split
  · exact ⟨_, rfl⟩
  · dsimp only
    rw [if_neg (by omega)]
    exact ⟨_, rfl⟩

theorem touchRead_cached {s : State} {n : Nat} {e : TouchLine}
    (h : s.cap.touchCache.find? (fun t => decide (t.index = n)) = some e) : touchRead s n = e.data := by
  simp only [touchRead, h]

theorem touchRead_uncached {s : State} {n : Nat} (h : ∀ e ∈ s.cap.touchCache, e.index ≠ n) :
    touchRead s n = if s.cap.touchValid.contains n then s.mem.line (touchAddr s n) else 0 := by
  have none : s.cap.touchCache.find? (fun t => decide (t.index = n)) = none :=
    List.find?_eq_none.2 fun e he => by simpa using h e he
  simp only [touchRead, none]

/-- A line of the touch map written back leaves the other lines as they are. -/
theorem writeBack_other {s : State} {t : TouchLine} {n : Nat} (h : t.index ≠ n) :
    (writeBack s t).cap.touchValid.contains n = s.cap.touchValid.contains n ∧
      (writeBack s t).mem.line (touchAddr s n) = s.mem.line (touchAddr s n) := by
  unfold writeBack
  split
  · refine ⟨?_, line_ext fun i hi => ?_⟩
    · show (addNew t.index s.cap.touchValid).contains n = _
      unfold addNew
      split
      · rfl
      · simp [h.symm]
    · rw [lineByte_memLine _ _ hi, lineByte_memLine _ _ hi]
      refine Mem.byte_writeLine_other _ _ _ ?_
      simp only [outsideLine, touchAddr]
      omega
  · exact ⟨rfl, rfl⟩

theorem evictTouch_touchRead {s : State} {n : Nat} (h : ∀ e ∈ s.cap.touchCache, e.index ≠ n) :
    touchRead (evictTouch s) n = touchRead s n := by
  obtain ⟨m, cache, valid, drawn, hf, hsub⟩ := evictTouch_frame s
  rw [touchRead_uncached h, touchRead_uncached (by rw [hf]; exact fun e he => h e (hsub e he))]
  unfold evictTouch
  split
  · next t ht =>
    obtain ⟨hv, hm⟩ := writeBack_other (s := s) (h t (List.mem_of_getElem? ht))
    show (if (writeBack s t).cap.touchValid.contains n then (writeBack s t).mem.line (touchAddr (writeBack s t) n) else 0) = _
    have ha : touchAddr (writeBack s t) n = touchAddr s n := by unfold writeBack; split <;> rfl
    rw [ha, hv, hm]
  · rfl

theorem find?_append_absent {l : List TouchLine} {n : Nat} (h : ∀ e ∈ l, e.index ≠ n) (e : TouchLine) (he : e.index = n) :
    (l ++ [e]).find? (fun t => decide (t.index = n)) = some e := by
  rw [List.find?_append, List.find?_eq_none.2 fun e he => by simpa using h e he]
  simp [he]

/-- After a load the line is in the touch cache, with the content it had before. -/
theorem loadTouch_cached (s : State) (n : Nat) : ∃ e,
    (loadTouch s n).cap.touchCache.find? (fun t => decide (t.index = n)) = some e ∧ e.index = n ∧
      e.data = touchRead s n := by
  unfold loadTouch
  split
  · next h =>
    cases hf : s.cap.touchCache.find? (fun t => decide (t.index = n)) with
    | none =>
      obtain ⟨e, he, hi⟩ := List.any_eq_true.1 h
      exact absurd hi (List.find?_eq_none.1 hf e he)
    | some e => exact ⟨e, rfl, by simpa using List.find?_some hf, (touchRead_cached hf).symm⟩
  · next h =>
    have absent : ∀ e ∈ s.cap.touchCache, e.index ≠ n := by
      intro e he hi
      exact h (List.any_eq_true.2 ⟨e, he, by simpa using hi⟩)
    dsimp only
    split
    · obtain ⟨m, cache, valid, drawn, hf, hsub⟩ := evictTouch_frame s
      refine ⟨_, find?_append_absent (by rw [hf]; exact fun e he => absent e (hsub e he)) _ rfl, rfl, ?_⟩
      exact evictTouch_touchRead absent
    · exact ⟨_, find?_append_absent absent _ rfl, rfl, rfl⟩

theorem touched_loadTouch (s : State) (b l : Nat) :
    touched (loadTouch s (touchLine b l)) b l = touched s b l := by
  obtain ⟨e, he, -, hd⟩ := loadTouch_cached s (touchLine b l)
  rw [touched, touched, touchRead_cached he, hd]

theorem touchBit_lt (b l : Nat) : touchBit b l < 512 := by
  unfold touchBit
  omega

/-- Once set, the touch bit of a cached line is one. -/
theorem setTouch_cached (s : State) (b l : Nat) : ∃ e : TouchLine,
    (setTouch (loadTouch s (touchLine b l)) b l).cap.touchCache.find? (fun t => decide (t.index = touchLine b l)) = some e ∧
      e.data.getLsbD (touchBit b l) = true := by
  obtain ⟨e, he, hi, -⟩ := loadTouch_cached s (touchLine b l)
  refine ⟨{ e with data := e.data ||| (1#512 <<< touchBit b l), dirty := true }, ?_, ?_⟩
  · show ((loadTouch s (touchLine b l)).cap.touchCache.map _).find? _ = _
    have same : ((fun t : TouchLine => decide (t.index = touchLine b l)) ∘ fun t : TouchLine =>
        if t.index = touchLine b l then { t with data := t.data ||| (1#512 <<< touchBit b l), dirty := true } else t) =
        fun t => decide (t.index = touchLine b l) := by
      funext t
      simp only [Function.comp_apply]
      split <;> rfl
    rw [List.find?_map, same, he, Option.map_some, if_pos hi]
  · rw [BitVec.getLsbD_or, BitVec.getLsbD_shiftLeft]
    simp [touchBit_lt]

/-! ### First touch (R83, R89) -/

theorem stash_near {s : State} {e : List Byte} (hf : s.cap.farFill = 0)
    (hn : s.cap.nearFill + e.length ≤ (nearStash s).2) : stash s e = { s with
      mem := s.mem.write ((nearStash s).1 + s.cap.nearFill) e
      cap.nearFill := s.cap.nearFill + e.length } := if_pos ⟨hf, hn⟩

theorem stash_far {s : State} {e : List Byte}
    (h : s.cap.farFill ≠ 0 ∨ (nearStash s).2 < s.cap.nearFill + e.length) : stash s e = { s with
      mem := s.mem.write (farEntries s + s.cap.farFill) e
      cap.farFill := s.cap.farFill + e.length } := by
  refine if_neg ?_
  rintro ⟨hf, hn⟩
  rcases h with h | h
  · exact h hf
  · omega

theorem firstTouch_again {s : State} {c : CapLine} (h : touched s c.bay c.line = true) :
    firstTouch s c = loadTouch s (touchLine c.bay c.line) := by
  unfold firstTouch
  dsimp only
  rw [if_pos ((touched_loadTouch ..).trans h)]

theorem firstTouch_fresh {s : State} {c : CapLine} (h : touched s c.bay c.line = false) :
    firstTouch s c = stash (setTouch (loadTouch s (touchLine c.bay c.line)) c.bay c.line)
      (stashEntry c.bay c.line (foldTide s) c.old) := by
  obtain ⟨m, cache, valid, drawn, hl⟩ := loadTouch_frame s (touchLine c.bay c.line)
  have tide : foldTide (loadTouch s (touchLine c.bay c.line)) = foldTide s := by rw [hl]; rfl
  unfold firstTouch
  dsimp only
  rw [if_neg (by rw [touched_loadTouch, h]; decide), tide]

theorem firstTouch_frame (s : State) (c : CapLine) : ∃ m cache valid near far drawn,
    firstTouch s c = withTouch s m cache valid near far drawn := by
  obtain ⟨m, cache, valid, drawn, hl⟩ := loadTouch_frame s (touchLine c.bay c.line)
  cases h : touched s c.bay c.line with
  | true => exact ⟨_, _, _, _, _, _, (firstTouch_again h).trans hl⟩
  | false =>
    rw [firstTouch_fresh h, hl]
    unfold stash
    split
    · exact ⟨_, _, _, _, _, _, rfl⟩
    · exact ⟨_, _, _, _, _, _, rfl⟩

theorem stash_touchCache (s : State) (e : List Byte) : (stash s e).cap.touchCache = s.cap.touchCache := by
  unfold stash
  split <;> rfl

/-- After the first touch the line counts as touched, whatever else changes outside the touch cache. -/
theorem touched_firstTouch (s : State) (c : CapLine) {t : State}
    (ht : t.cap.touchCache = (firstTouch s c).cap.touchCache) : touched t c.bay c.line = true := by
  cases h : touched s c.bay c.line with
  | true =>
    obtain ⟨e, he, -, hd⟩ := loadTouch_cached s (touchLine c.bay c.line)
    rw [firstTouch_again h] at ht
    rw [touched, touchRead_cached (ht ▸ he), hd]
    exact h
  | false =>
    obtain ⟨e, he, hd⟩ := setTouch_cached s c.bay c.line
    rw [firstTouch_fresh h, stash_touchCache] at ht
    rw [touched, touchRead_cached (ht ▸ he)]
    exact hd

theorem firstTouch_room {s : State} (c : CapLine) (h : s.cap.touchCache.length < 2048) :
    (firstTouch s c).cap.touchValid = s.cap.touchValid ∧ (firstTouch s c).freeCtr = s.freeCtr := by
  obtain ⟨cache, hl⟩ := loadTouch_of_room (touchLine c.bay c.line) h
  cases ht : touched s c.bay c.line with
  | true =>
    rw [firstTouch_again ht, hl]
    exact ⟨rfl, rfl⟩
  | false =>
    rw [firstTouch_fresh ht, hl]
    unfold stash
    split <;> exact ⟨rfl, rfl⟩

theorem firstTouch_again_keeps {s : State} {c : CapLine} (h : touched s c.bay c.line = true) :
    (firstTouch s c).cap.nearFill = s.cap.nearFill ∧ (firstTouch s c).cap.farFill = s.cap.farFill ∧
      (s.cap.touchCache.length < 2048 → (firstTouch s c).mem = s.mem) := by
  obtain ⟨m, cache, valid, drawn, hl⟩ := loadTouch_frame s (touchLine c.bay c.line)
  rw [firstTouch_again h]
  refine ⟨by rw [hl]; rfl, by rw [hl]; rfl, fun hr => ?_⟩
  obtain ⟨cache', hl'⟩ := loadTouch_of_room (touchLine c.bay c.line) hr
  rw [hl']

/-- The before-image of a first touch goes to the near stash while it fits there. -/
theorem firstTouch_near {s : State} {c : CapLine} (h : touched s c.bay c.line = false) (hf : s.cap.farFill = 0)
    (hn : s.cap.nearFill + (stashEntry c.bay c.line (foldTide s) c.old).length ≤ (nearStash s).2) :
    (firstTouch s c).cap.nearFill = s.cap.nearFill + (stashEntry c.bay c.line (foldTide s) c.old).length ∧
      (firstTouch s c).cap.farFill = 0 ∧
      (s.cap.touchCache.length < 2048 → (firstTouch s c).mem =
        s.mem.write ((nearStash s).1 + s.cap.nearFill) (stashEntry c.bay c.line (foldTide s) c.old)) := by
  obtain ⟨m, cache, valid, drawn, hl⟩ := loadTouch_frame s (touchLine c.bay c.line)
  rw [firstTouch_fresh h, stash_near (by rw [hl]; exact hf) (by rw [hl]; exact hn)]
  refine ⟨by rw [hl]; rfl, by rw [hl]; exact hf, fun hr => ?_⟩
  obtain ⟨cache', hl'⟩ := loadTouch_of_room (touchLine c.bay c.line) hr
  rw [hl']
  rfl

/-- After that it goes to the far one. -/
theorem firstTouch_far {s : State} {c : CapLine} (h : touched s c.bay c.line = false)
    (hf : s.cap.farFill ≠ 0 ∨
      (nearStash s).2 < s.cap.nearFill + (stashEntry c.bay c.line (foldTide s) c.old).length) :
    (firstTouch s c).cap.farFill = s.cap.farFill + (stashEntry c.bay c.line (foldTide s) c.old).length ∧
      (firstTouch s c).cap.nearFill = s.cap.nearFill ∧
      (s.cap.touchCache.length < 2048 → (firstTouch s c).mem =
        s.mem.write (farEntries s + s.cap.farFill) (stashEntry c.bay c.line (foldTide s) c.old)) := by
  obtain ⟨m, cache, valid, drawn, hl⟩ := loadTouch_frame s (touchLine c.bay c.line)
  rw [firstTouch_fresh h, stash_far (by rw [hl]; exact hf)]
  refine ⟨by rw [hl]; rfl, by rw [hl]; rfl, fun hr => ?_⟩
  obtain ⟨cache', hl'⟩ := loadTouch_of_room (touchLine c.bay c.line) hr
  rw [hl']
  rfl

theorem Mem.bytes_write (m : Mem) (a : Nat) (bs : List Byte) : (m.write a bs).bytes a bs.length = bs := by
  refine List.ext_getElem (by rw [Mem.bytes_length]) fun i h1 h2 => ?_
  have := Mem.byte_write_same m a bs i h2
  rw [← Mem.bytes_getD _ _ _ h2] at this
  simpa [List.getD, h1, h2] using this

/-! ### The oldest line leaves the capture queue (R85, R280) -/

theorem commitLine_mem_of_alone (s : State) (a : Nat) (new : Line) (ms : List Master) (h : copiesOf s a = []) :
    (commitLine s a new ms).mem = s.mem.writeLine a new := by
  cases hw : ms.all writesThrough with
  | false => rw [commitLine_frame s a new hw]
  | true => rw [commitLine_through s a new hw, h]; rfl

theorem completeMerge_frame (s : State) (c : CapLine) : ∃ m staged rows issued,
    completeMerge s c = { s with
      mem := m
      cap := { s.cap with verdicts := s.cap.verdicts ++ c.tags.map fun g => (g, .absorb) }
      tier := { s.tier with staged := staged, rows := rows }
      apply := { s.apply with issued := issued } } := by
  unfold completeMerge
  split
  · next h =>
    rw [List.isEmpty_iff.1 h, List.map_nil, List.append_nil]
    exact ⟨_, _, _, _, rfl⟩
  · dsimp only
    rw [foldl_verdict]
    split
    · rw [commitLine_changes]
      exact ⟨_, _, _, _, rfl⟩
    · exact ⟨_, _, _, _, rfl⟩

theorem completeMerge_whole {s : State} {c : CapLine} (h : c.tags = []) : completeMerge s c = s := by
  simp [completeMerge, h]

theorem completeMerge_line {s : State} {c : CapLine} {a : Nat} (ht : c.tags ≠ [])
    (ha : lineHome s c.bay c.line = some a) (hc : copiesOf s a = []) : (completeMerge s c).mem.line a = c.new := by
  unfold completeMerge
  rw [if_neg (by simpa [List.isEmpty_iff] using ht)]
  dsimp only
  rw [foldl_verdict, ha]
  show (commitLine s a c.new c.masters).mem.line a = c.new
  rw [commitLine_mem_of_alone _ _ _ _ hc, Mem.line_writeLine]

/-- The delta of a captured line is digested and stands in the GF array; its narrow writes are not yet absorbed. -/
def handedOn (s : State) (c : CapLine) (rest : List CapLine) : State :=
  let u := firstTouch { s with cap.queue := rest } c
  { u with
    digests := putDigest s.digests c.bay (digestOf s c.bay ^^^ lineTerm (bayKey s c.bay) c.line (c.old ^^^ c.new))
    cap := { u.cap with records := [⟨c.bay, c.line, c.old ^^^ c.new, true, true⟩] } }

theorem handedOn_frame (s : State) (c : CapLine) (rest : List CapLine) : ∃ m cache valid near far drawn,
    handedOn s c rest = { withTouch { s with cap.queue := rest } m cache valid near far drawn with
      digests := putDigest s.digests c.bay (digestOf s c.bay ^^^ lineTerm (bayKey s c.bay) c.line (c.old ^^^ c.new))
      cap := { (withTouch { s with cap.queue := rest } m cache valid near far drawn).cap with
        records := [⟨c.bay, c.line, c.old ^^^ c.new, true, true⟩] } } := by
  obtain ⟨m, cache, valid, near, far, drawn, hf⟩ := firstTouch_frame { s with cap.queue := rest } c
  exact ⟨m, cache, valid, near, far, drawn, by rw [handedOn, hf]⟩

theorem exec_captureLine {s : State} {c : CapLine} {rest : List CapLine} (hq : s.cap.queue = c :: rest)
    (hh : s.cap.held = []) (ho : s.recov.handover = none) (hr : s.cap.records = []) :
    exec .captureLine s = .next (completeMerge (handedOn s c rest) c) := by
  obtain ⟨m, cache, valid, near, far, drawn, handed⟩ := handedOn_frame s c rest
  obtain ⟨m', staged, rows, issued, hm⟩ := completeMerge_frame (handedOn s c rest) c
  have one : captureOne s = completeMerge (handedOn s c rest) c := by
    have none : (completeMerge (handedOn s c rest) c).recov.handover = none := by
      rw [hm, handed]
      exact ho
    rw [← mirrorLine_of_noHandover none false c.bay c.line c.new]
    obtain ⟨_, _, _, _, _, _, hf⟩ := firstTouch_frame { s with cap.queue := rest } c
    simp only [captureOne, hq, handedOn]
    rw [hf]
    simp only [withTouch, addDigest, hr, List.nil_append]
    rfl
  refine congrArg Host.Outcome.next ?_
  rw [if_neg (by simp [hq, hr]), one]
  refine retryHeld_of_noneHeld ?_
  rw [hm, handed]
  exact hh

/-- Settles O19: the first touch, the digest, the GF array and the merged line, in that order. -/
theorem capturedLineIsStashedDigestedAndQueued : Obligations.CapturedLineIsStashedDigestedAndQueued := by
  intro s c rest hq hh ho
  refine ⟨fun hr => ⟨s, congrArg Host.Outcome.next (if_pos (.inr hr)), rfl⟩, fun hr =>
    ⟨_, exec_captureLine hq hh ho hr, ?_⟩⟩
  obtain ⟨m, cache, valid, near, far, drawn, handed⟩ := handedOn_frame s c rest
  obtain ⟨m', staged, rows, issued, hm⟩ := completeMerge_frame (handedOn s c rest) c
  have hdig : (completeMerge (handedOn s c rest) c).digests =
      putDigest s.digests c.bay (digestOf s c.bay ^^^ lineTerm (bayKey s c.bay) c.line (c.old ^^^ c.new)) := by
    rw [hm, handed]
  have hcap : (completeMerge (handedOn s c rest) c).cap = { (handedOn s c rest).cap with
      verdicts := (handedOn s c rest).cap.verdicts ++ c.tags.map fun g => (g, .absorb) } := by rw [hm]
  have hctr : (completeMerge (handedOn s c rest) c).freeCtr = (handedOn s c rest).freeCtr := by rw [hm]
  have whole : c.tags = [] → completeMerge (handedOn s c rest) c = handedOn s c rest := completeMerge_whole
  have tide : foldTide { s with cap.queue := rest } = foldTide s := rfl
  have again := touched_firstTouch { s with cap.queue := rest } c (t := completeMerge (handedOn s c rest) c)
    (by rw [hcap]; rfl)
  refine ⟨by rw [hm, handed]; rfl, ?_, fun row hrow => ?_, again, fun hroom => ?_, fun ht => ?_, fun a ht ha hc => ?_,
    fun ht => ?_, fun ht => ⟨fun hf hn => ?_, fun hfar => ?_⟩⟩
  · rw [digestOf, hdig, look_putDigest_same]
  · rw [digestOf, hdig, look_putDigest_other _ _ hrow]
    rfl
  · obtain ⟨hv, hd⟩ := firstTouch_room (s := { s with cap.queue := rest }) c hroom
    exact ⟨(congrArg CapS.touchValid hcap).trans hv, hctr.trans hd⟩
  · rw [whole ht, handed]
    exact ⟨rfl, rfl⟩
  · refine completeMerge_line ht ?_ ?_
    · rw [handed]
      exact ha
    · rw [handed]
      exact hc
  · obtain ⟨hn, hf, hmem⟩ := firstTouch_again_keeps (s := { s with cap.queue := rest }) ht
    refine ⟨(congrArg CapS.nearFill hcap).trans hn, (congrArg CapS.farFill hcap).trans hf, fun htags hroom => ?_⟩
    rw [whole htags]
    exact hmem hroom
  · obtain ⟨hnear, hfar, hmem⟩ := firstTouch_near (s := { s with cap.queue := rest }) ht hf hn
    refine ⟨(congrArg CapS.nearFill hcap).trans hnear, (congrArg CapS.farFill hcap).trans hfar, fun htags hroom => ?_⟩
    have written : (handedOn s c rest).mem = s.mem.write _ _ := hmem hroom
    rw [whole htags, written]
    exact ⟨Mem.bytes_write _ _ _, fun x hx => by rw [written]; exact Mem.byte_write_other _ _ _ _ hx⟩
  · obtain ⟨hf', hn', hmem⟩ := firstTouch_far (s := { s with cap.queue := rest }) ht hfar
    refine ⟨(congrArg CapS.farFill hcap).trans hf', (congrArg CapS.nearFill hcap).trans hn', fun htags hroom => ?_⟩
    have written : (handedOn s c rest).mem = s.mem.write _ _ := hmem hroom
    rw [whole htags, written]
    exact ⟨Mem.bytes_write _ _ _, fun x hx => by rw [written]; exact Mem.byte_write_other _ _ _ _ hx⟩

end Sys2Proof.Machine

/-! PROOFS. Stores handed to the router, and close markers (R102, R103, R125, R286). -/

namespace Sys2Proof.Machine

/-! ### Stores handed to the router (R286) -/

/-- The state with stores appended to what has been handed to the router. -/
def appendOut (s : State) (xs : List LkpOut) : State := { s with out := { s.out with lkp := s.out.lkp ++ xs } }

theorem appendOut_nil (s : State) : appendOut s [] = s := by
  rw [appendOut, List.append_nil]

theorem appendOut_append (s : State) (xs ys : List LkpOut) : appendOut (appendOut s xs) ys = appendOut s (xs ++ ys) := by
  rw [appendOut, appendOut, appendOut, List.append_assoc]

theorem sendTo_present {s : State} (h : s.ports.lkp = true) (rank : Nat) (vc : Vc) (route : Route) (msg : Msg) :
    sendTo s rank vc route msg = appendOut s [.store rank vc route msg] := if_pos h

/-- A loop each of whose passes sends one store, which no earlier store of the loop changes, sends them all in order. -/
theorem forEach_sends {α : Type} {f : State → α → State} {g : State → α → LkpOut} (l : List α) {s : State}
    (hf : ∀ u q, u.ports.lkp = true → f u q = appendOut u [g u q]) (hg : ∀ u xs q, g (appendOut u xs) q = g u q)
    (h : s.ports.lkp = true) : forEach l f s = appendOut s (l.map (g s)) := by
  induction l generalizing s with
  | nil => exact (appendOut_nil s).symm
  | cons q t ih =>
    show forEach t f (f s q) = _
    rw [hf s q h, ih (s := appendOut s [g s q]) h, appendOut_append, List.map_cons, List.singleton_append]
    exact congrArg (fun ys => appendOut s (g s q :: ys)) (List.map_congr_left fun x _ => hg s _ x)

/-- The store of a seal message to a position of the own cove (R124). -/
def sealStore (s : State) (pos : Nat) (type : Byte) (tide : U48) (arg : U32) (body : List Byte) : LkpOut :=
  .store (rankAt s (ownCoveId s) pos) .va .any (.sealMsg type
    ⟨false, ownCoveId s, BitVec.ofNat 8 (ownPos s), BitVec.ofNat 8 (ownPos s), BitVec.ofNat 8 pos, viewNow s, tide,
      ownCoveId s, arg, body⟩)

theorem sendSeal_present {s : State} (h : s.ports.lkp = true) (pos : Nat) (type : Byte) (tide : U48) (arg : U32)
    (body : List Byte) : sendSeal s pos type tide arg body = appendOut s [sealStore s pos type tide arg body] :=
  sendTo_present h ..

theorem vaIn_open {s : State} (hl : s.ports.lkp = true) (hw : s.power.season.get ≠ 2) (f : State → State) :
    vaIn s f = f s := if_neg (by simpa [hl] using hw)

theorem coveSide_noShadow {s : State} (h : s.recov.shadow = none) (cove view : U16) (f : State → State) :
    coveSide s cove view f = f s := by simp only [coveSide, h]

/-! ### Close markers (R102, R103, R125) -/

theorem chunksGo_flatten {α : Type} (fuel n : Nat) (l : List α) (h : l.length ≤ fuel * n) :
    (chunksGo fuel n l).flatten = l := by
  induction fuel generalizing l with
  | zero =>
    have : l = [] := List.eq_nil_of_length_eq_zero (by omega)
    rw [this]
    rfl
  | succ k ih =>
    cases l with
    | nil => rfl
    | cons x t =>
      show ((x :: t).take n :: chunksGo k n ((x :: t).drop n)).flatten = x :: t
      rw [List.flatten_cons, ih _ (by rw [List.length_drop]; rw [Nat.succ_mul] at h; omega), List.take_append_drop]

theorem chunks_flatten {α : Type} {n : Nat} (hn : 0 < n) (l : List α) : (chunks n l).flatten = l :=
  chunksGo_flatten _ _ _ (by rw [Nat.add_mul, Nat.one_mul]; exact Nat.le_of_lt (Nat.lt_div_mul_add hn))

theorem buildRecord_frame (s : State) : ∃ r, buildRecord s = { s with tide.ownRecord := r } ∧
    (s.tide.ownRecord ≠ [] → r = s.tide.ownRecord) := by
  unfold buildRecord
  split
  · exact ⟨_, rfl, fun _ => rfl⟩
  · next h =>
    have none : s.tide.ownRecord ≠ [] → False := fun hne => h (.inl hne)
    dsimp only
    split
    · exact ⟨_, rfl, fun hne => (none hne).elim⟩
    · exact ⟨_, rfl, fun hne => (none hne).elim⟩

theorem sendParts_present {s : State} (h : s.ports.lkp = true) (d : Nat) : sendParts s d =
    appendOut s ((List.zip (List.range (chunks 256 s.tide.ownRecord).length) (chunks 256 s.tide.ownRecord)).map fun e =>
      sealStore s d 0x12 (foldTide s) (BitVec.ofNat 32 (256 * e.1)) e.2) :=
  forEach_sends (g := fun (u : State) (e : Nat × List Byte) => sealStore u d 0x12 (foldTide u) (BitVec.ofNat 32 (256 * e.1)) e.2) _
    (fun _ _ hu => sendSeal_present hu ..) (fun _ _ _ => rfl) h

theorem directGone_iff (s : State) (d : Nat) :
    directGone s d = true ↔ ∀ i ∈ s.fold.sendPlus ++ s.fold.sendMinus, i.fwd = true ∨ i.dest ≠ d := by
  simp only [directGone, Bool.not_eq_true', List.any_eq_false]
  refine forall₂_congr fun i _ => ?_
  cases i.fwd <;> simp

theorem captureClosed_iff (s : State) : captureClosed s = true ↔
    s.cap.queue = [] ∧ s.cap.oldReads = [] ∧ s.cap.records = [] ∧ s.cap.pass = none ∧ s.cap.recompute = [] := by
  simp [captureClosed, gfIdle, List.isEmpty_iff, and_assoc]

theorem captureClosed_false {s : State}
    (h : s.cap.queue ≠ [] ∨ s.cap.oldReads ≠ [] ∨ s.cap.records ≠ [] ∨ s.cap.recompute ≠ []) :
    captureClosed s = false := by
  rw [Bool.eq_false_iff]
  intro hc
  obtain ⟨hq, ho, hr, -, hre⟩ := (captureClosed_iff s).1 hc
  rcases h with h | h | h | h <;> contradiction

theorem closing_iff (s : State) :
    closing s = true ↔ s.tide.phase.get = 2 ∨ forming s = true ∨ s.tide.resuming.isSome = true := by
  show (decide (s.tide.phase.get = 2) || forming s || s.tide.resuming.isSome) = true ↔ _
  simp [or_assoc]

theorem mem_bitsOf {n d : Nat} {v : BitVec n} : d ∈ bitsOf n v ↔ v.getLsbD d = true := by
  simp only [bitsOf, List.mem_filter, List.mem_range, and_iff_right_iff_imp]
  intro h
  by_contra hd
  rw [BitVec.getLsbD_of_ge _ _ (Nat.not_lt.1 hd)] at h
  cases h

theorem mem_otherLive {s : State} {d : Nat} :
    d ∈ otherLive s ↔ (liveSet s).getLsbD d = true ∧ d ≠ s.agree.position.toNat := by
  simp only [otherLive, List.mem_filter, livePositions, mem_bitsOf, decide_eq_true_eq]
  rfl

/-- What goes out is the record in fragments, then the marker. -/
theorem sendMarker_sends {s : State} {d : Byte} (hl : s.ports.lkp = true) (hc : closing s = true)
    (hcap : captureClosed s = true) (hg : directGone s d.toNat = true) (hd : d.toNat ∈ otherLive s)
    (hsent : d.toNat ∉ s.tide.closeSent) {r : List Byte} (hr : buildRecord s = { s with tide.ownRecord := r }) :
    sendMarker d s = appendOut { s with tide := { s.tide with
        ownRecord := r, closeSent := s.tide.closeSent ++ [d.toNat] } }
      ((List.zip (List.range (chunks 256 r).length) (chunks 256 r)).map (fun e =>
        sealStore s d.toNat 0x12 (foldTide s) (BitVec.ofNat 32 (256 * e.1)) e.2) ++
      [.store (rankAt s (ownCoveId s) d.toNat) .va .any (.marker (ownMarker s d.toNat))]) := by
  have hk : ¬ (!closing s ∨ !captureClosed s ∨ !directGone s d.toNat ∨ !(otherLive s).contains d.toNat ∨
      s.tide.closeSent.contains d.toNat) := by simp [hc, hcap, hg, hd, hsent]
  have parts := sendParts_present (s := { s with tide.ownRecord := r }) hl d.toNat
  unfold sendMarker
  dsimp only
  rw [if_neg hk, hr, parts]
  refine (sendTo_present (by exact hl) _ _ _ _).trans ?_
  simp only [appendOut, List.append_assoc]
  rfl

/-- Settles O26: a member that is done sends its record and marker, and a marker of the flood is kept. -/
theorem closeMarkersFollowTheRecord : Obligations.CloseMarkersFollowTheRecord := by
  intro s hl hw hs
  have run : ∀ d, exec (.closeMarkerSend d) s = .next (sendMarker d s) := fun d =>
    congrArg Host.Outcome.next (foldSide_noShadow hs _)
  have take : ∀ m, exec (.closeMarker m) s = .next (takeMarker m s) := fun m =>
    congrArg Host.Outcome.next ((vaIn_open hl hw _).trans (coveSide_noShadow hs _ _ _))
  refine ⟨fun d hc hq ho hr hp hre hfwd h16 hlive hne hsent => ⟨_, run d, ?_⟩, fun d h => ⟨_, run d, ?_⟩,
    fun m hc hv ht hlive hd hp => ⟨_, take m, ?_⟩, fun m hc hv => ⟨_, take m, ?_⟩⟩
  · obtain ⟨r, hb, hkeep⟩ := buildRecord_frame s
    rw [sendMarker_sends hl ((closing_iff s).2 hc) ((captureClosed_iff s).2 ⟨hq, ho, hr, hp, hre⟩)
      ((directGone_iff s d.toNat).2 hfwd) (mem_otherLive.2 ⟨hlive, hne⟩) hsent hb]
    refine ⟨chunks 256 r, (List.range (chunks 256 r).length).map fun i => BitVec.ofNat 32 (256 * i),
      ownMarker s d.toNat, ?_, chunks_flatten (by decide) r, by simp, hkeep, rfl,
      toNat_ofNat_of_lt (Nat.lt_trans s.agree.position.isLt (by decide)), (by simp [ownMarker]), rfl, rfl, rfl, rfl, rfl,
      rfl, rfl, rfl, rfl⟩
    rw [List.zip_map_left, List.map_map]
    simp only [appendOut, List.append_assoc]
    refine congrArg (s.out.lkp ++ ·) (congrArg (· ++ _) (List.map_congr_left fun e _ => ?_))
    simp [sealStore]
  · unfold sendMarker
    refine if_pos ?_
    rcases h with ⟨hp, hf, hr⟩ | h | h | h | h | h | ⟨i, hi, hfwd, hdest⟩
    · have : closing s = false := by
        rw [Bool.eq_false_iff, ne_eq, closing_iff]
        simpa [hf, hr] using hp
      simp [this]
    · simp [captureClosed_false (.inl h)]
    · simp [captureClosed_false (.inr (.inl h))]
    · simp [captureClosed_false (.inr (.inr (.inl h)))]
    · simp [captureClosed_false (.inr (.inr (.inr h)))]
    · simp [h]
    · have : directGone s d.toNat = false := by
        rw [Bool.eq_false_iff, ne_eq, directGone_iff]
        intro hall
        rcases hall i hi with h | h
        · simp [hfwd] at h
        · exact h hdest
      simp [this]
  · have early : earlyForm s m.cove m.view m.tide = false := earlyForm_of_cove (by simp [hc]) _ _ _
    unfold takeMarker
    rw [if_neg (by simp [hl]), if_neg (by simp [early]), if_pos ⟨hc, hv, ht, hlive, hd, .inl hp⟩]
  · have early : earlyForm s m.cove m.view m.tide = false := earlyForm_of_cove hc _ _ _
    unfold takeMarker
    rw [if_neg (by simp [hl]), if_neg (by simp [early]), if_neg (by simp [hv])]
    rfl

end Sys2Proof.Machine

/-! PROOFS. TIDE_SEAL refuted: a seal may run in PHASE SUSPENDED (R116, R378). -/

namespace Sys2Proof.Machine

/-- Firmware runs in Summer; coding is suspended, and a seal runs in which the member is ready already. -/
def sealingSuspended : State := { State.reset with
  stat.fwState := V3.all 2
  ports.mgp := true
  job.state := 3
  tide.phase := V3.all 6
  tide.readies := [(0, [])] }

/-- A TIDE_SEAL with no field set. -/
def tideSealCmd : Line := mkLine [(0, 1, 0x09)]

theorem handled_sealingSuspended : Handled sealingSuspended 5 false 0x09 tideSealCmd := by
  refine ⟨by decide +kernel, by decide, fun e he => ?_, rfl, by decide +kernel, rfl⟩
  cases he
  decide +kernel

/-- Refutes O27: in PHASE SUSPENDED a seal may already run (R378), and a TIDE_SEAL then is BUSY before its block is
checked. -/
theorem not_tideSealCountsAndStartsTheSeal : ¬ Obligations.TideSealCountsAndStartsTheSeal := by
  intro h
  obtain ⟨-, -, -, -, badBlock⟩ := h sealingSuspended 5 false tideSealCmd handled_sealingSuspended
  obtain ⟨t, ht, ⟨-, -, -, -, code, -⟩, -⟩ := badBlock (.inr rfl) (by decide +kernel)
  obtain rfl := Host.Outcome.next.inj ht
  exact absurd code (by decide +kernel)

end Sys2Proof.Machine

/-! PROOFS. READY, and the records a member gathers (R124, R125, R130, R135). -/

namespace Sys2Proof.Machine

/-! ### Keys put and found -/

theorem find_put_same {β : Type} (k : Nat) (v : β) (l : List (Nat × β)) : find k (put k v l) = some v := by
  induction l with
  | nil => simp [put, find]
  | cons e t ih =>
    rw [put]
    split
    · simp [find]
    · next h => rw [find, if_neg h, ih]

theorem find_put_other {β : Type} {k j : Nat} (v : β) (l : List (Nat × β)) (h : j ≠ k) :
    find j (put k v l) = find j l := by
  induction l with
  | nil => simp [put, find, h.symm]
  | cons e t ih =>
    rw [put]
    split
    · next he => rw [find, find, if_neg h.symm, if_neg (by rw [he]; exact h.symm)]
    · rw [find, find, ih]

theorem look_put_same {β : Type} (d : β) (k : Nat) (v : β) (l : List (Nat × β)) : look d k (put k v l) = v := by
  induction l with
  | nil => simp [put, look]
  | cons e t ih =>
    rw [put]
    split
    · simp [look]
    · next h => rw [look, if_neg h, ih]

theorem look_put_other {β : Type} (d : β) {k j : Nat} (v : β) (l : List (Nat × β)) (h : j ≠ k) :
    look d j (put k v l) = look d j l := by
  induction l with
  | nil => simp [put, look, h.symm]
  | cons e t ih =>
    rw [put]
    split
    · next he => rw [look, look, if_neg h.symm, if_neg (by rw [he]; exact h.symm)]
    · rw [look, look, ih]

/-! ### Messages of the seal that reach the member (R124) -/

theorem sealAccepts_of_own {s : State} {m : SealMsg} (h : FromOwnCove s m) : sealAccepts s m = true := by
  obtain ⟨hl, hw, -, -, ht, hc, hv⟩ := h
  simpa [sealAccepts, hl, ht, hc, hv] using hw

theorem sealIn_own {s : State} {m : SealMsg} (h : FromOwnCove s m) (f : State → State) : sealIn s m f = .next (f s) := by
  have accepts := sealAccepts_of_own h
  obtain ⟨hl, hw, -⟩ := h
  rw [sealIn, vaIn_open hl hw, if_pos accepts]

theorem sealInEither_own {s : State} {m : SealMsg} (h : FromOwnCove s m) (f : State → State) :
    sealInEither s m f = .next (f s) := by
  have own := h
  obtain ⟨-, -, hs, -⟩ := h
  have none : shadowMsg s m = false := by simp only [shadowMsg, hs]
  rw [sealInEither, none, if_neg (by decide), sealIn_own own]

theorem captainCheck_of_member {s : State} (h : isCaptain s = false) : captainCheck s = s := if_pos (by simp [h])

theorem takeReady_of_member {s : State} (h : isCaptain s = false) (p : Nat) (manifest : List Byte) :
    takeReady s p manifest = { s with tide.readies := put p manifest s.tide.readies } :=
  if_neg (by simp [h])

theorem sendReady_of_member {s : State} (h : isCaptain s = false) (hl : s.ports.lkp = true) (manifest : List Byte) :
    sendReady s manifest = appendOut { s with tide.readies := put (ownPos s) manifest s.tide.readies }
      ((otherLive s).map fun q => sealStore s q 0x13 (sealTide s) 0 manifest) := by
  unfold sendReady
  rw [takeReady_of_member h]
  exact forEach_sends (g := fun (u : State) (q : Nat) => sealStore u q 0x13 (sealTide u) 0 manifest) _
    (fun _ _ hu => sendSeal_present hu ..) (fun _ _ _ => rfl) hl

/-- Settles O28: the area is written, and READY with the manifest goes out. -/
theorem memberBecomesReady : Obligations.MemberBecomesReady := by
  intro s hs hc
  have run : exec .sealReady s = .next (switchDone (makeReady s)) :=
    congrArg (fun u => Host.Outcome.next (switchDone u)) (foldSide_noShadow hs _)
  refine ⟨fun hp hdue hall hl => ?_, fun h => ⟨_, run, ?_⟩⟩
  · have tide : sealTide s = sealedTide s + 1 := if_neg (by simp [phaseNow, hp])
    have ready : makeReady s = appendOut { setPhase (writeArea s (workingSlot s) (sealTide s)) phReady with
        tide.readies := put (ownPos s) (manifestOf s) s.tide.readies, tide.phase := V3.all phReady }
        ((otherLive s).map fun q => sealStore s q 0x13 (sealedTide s + 1) 0 (manifestOf s)) := by
      unfold makeReady
      rw [if_pos ⟨hp, hdue, hall⟩, sendReady_of_member (by exact hc) (by exact hl)]
      have ready : sealTide (setPhase (writeArea s (workingSlot s) (sealTide s)) phReady) = sealedTide s + 1 :=
        if_neg (by simp [phaseNow, setPhase])
      rw [ready]
      exact captainCheck_of_member hc
    have stays : switchDone (makeReady s) = makeReady s := by
      rw [ready]
      show (match s.recov.shadow with | some sh => _ | none => _) = _
      rw [hs]
    rw [stays, ready] at run
    refine ⟨_, run, V3.get_all _, ?_, find_put_same _ _ _, rfl, rfl, rfl, rfl⟩
    show s.mem.write _ _ = _
    rw [tide]
    rfl
  · have stays : makeReady s = s := if_neg (by rintro ⟨h1, h2, h3⟩; rcases h with h | h | h <;> simp_all [phaseNow])
    rw [stays, switchDone, hs]

/-- Settles O29: fragments join by their offset, and READY is kept for its origin. -/
theorem recordsAndReadyAreGathered : Obligations.RecordsAndReadyAreGathered := by
  intro s m h
  have part : m.tide = foldTide s → exec (.markPart m) s = .next _ := fun ht =>
    (sealInEither_own h _).trans (congrArg Host.Outcome.next (if_neg (by simp [ht])))
  have ready := sealInEither_own h fun s =>
    if m.tide ≠ sealedTide s + 1 ∨ phaseNow s = phHeld then s
    else captainCheck (takeReady s m.origin.toNat m.body)
  refine ⟨fun ht => ⟨fun h0 hne => ⟨_, part ht, ?_⟩, fun h0 hlen => ⟨_, part ht, ?_⟩, fun h0 hlen => ⟨_, part ht, ?_⟩⟩,
    fun ht hp hc => ⟨_, ready, ?_⟩, fun ht => ⟨_, ready, if_pos (.inl ht)⟩⟩
  · simp only [h0, if_true, hne, if_false]
    exact ⟨trivial, look_put_same _ _ _ _, fun o ho => look_put_other _ _ _ ho⟩
  · simp only [h0, if_false, hlen, if_true]
    exact ⟨trivial, look_put_same _ _ _ _, fun o ho => look_put_other _ _ _ ho⟩
  · simp only [h0, if_false, hlen]
  · rw [if_neg (by simp [ht]; exact hp), takeReady_of_member hc, captainCheck_of_member (by exact hc)]
    exact ⟨rfl, find_put_same _ _ _, fun o ho => find_put_other _ _ ho⟩

end Sys2Proof.Machine

/-! PROOFS. The flip of a READY member (R125, R129). -/

namespace Sys2Proof.Machine

/-! ### Tide numbers in two registers -/

theorem tide_halves (t : U48) : (BitVec.ofNat 16 (t.toNat / 2 ^ 32) ++ (t.truncate 32 : BitVec 32) : U48) = t := by
  refine BitVec.eq_of_getLsbD_eq fun i hi => ?_
  rw [BitVec.getLsbD_append]
  by_cases h : i < 32
  · simp [h]
  · rw [if_neg h, BitVec.getLsbD_ofNat, Nat.testBit_div_two_pow, BitVec.getLsbD, Nat.sub_add_cancel (Nat.not_lt.1 h)]
    simp [show i - 32 < 16 by omega]

/-- A state whose tide registers were set to a tide has sealed that tide. -/
theorem sealedTide_of_halves {s : State} {t : U48} (hlo : s.tide.tideLo = V3.all (t.truncate 32))
    (hhi : s.tide.tideHi = V3.all (BitVec.ofNat 16 (t.toNat / 2 ^ 32))) : sealedTide s = t := by
  rw [sealedTide, hlo, hhi, V3.get_all, V3.get_all, tide_halves]

/-! ### The flip of a READY member (R125, R129) -/

theorem mem_addNew {α : Type} [DecidableEq α] (x : α) (l : List α) : x ∈ addNew x l := by
  unfold addNew
  split
  · assumption
  · simp

/-- The state of a member that has flipped, before FLIPPED goes out. -/
def flipped (s : State) (t : U48) (n : U16) (losses : U32) : State :=
  freshFlood { s with tide := { s.tide with
    slot := V3.all (~~~ s.tide.slot.get)
    phase := V3.all phCommitted
    tideLo := V3.all (t.truncate 32)
    tideHi := V3.all (BitVec.ofNat 16 (t.toNat / 2 ^ 32))
    decision := some (t, .commit n losses)
    lossSeal := decide (s.tide.jobLosses < losses.toNat) && !s.tide.reopened
    reopened := false
    jobLosses := losses.toNat
    lossesHere := 0
    childLosses := []
    flips := addNew (ownPos s) s.tide.flips
    stepRecord := if s.tide.ownRecord = [] then s.tide.stepRecord else
      some (t, (s.tide.ownRecord.drop 128).take 4224) } }

theorem doFlip_ready {s : State} (hp : s.tide.phase.get = 3) (hl : s.ports.lkp = true) (t : U48) (n : U16) (losses : U32) :
    doFlip s t n losses = refreshStatusLine (appendOut (flipped s t n losses)
      ((otherLive s).map fun q => sealStore s q 0x16 t 0 [])) := by
  have closing : ¬ (phaseNow s = phClosing ∧ allRecords s = true) := by simp [phaseNow, hp]
  have suspended : ¬ phaseNow s = phSuspended := by simp [phaseNow, hp]
  unfold doFlip
  rw [if_neg closing]
  simp only [suspended, decide_false, Bool.false_eq_true, if_false]
  refine congrArg refreshStatusLine ?_
  exact forEach_sends (g := fun (u : State) (q : Nat) => sealStore u q 0x16 t 0 []) (otherLive s)
    (fun _ _ hu => sendSeal_present hu ..) (fun _ _ _ => rfl) (s := flipped s t n losses) hl

theorem isCaptain_of_agree {s t : State} (hc : t.agree.cove = s.agree.cove) (hl : t.agree.live = s.agree.live)
    (hp : t.agree.position = s.agree.position) : isCaptain t = isCaptain s := by
  unfold isCaptain liveSet ownPos
  rw [hc, hl, hp]

theorem passDown_of_member {s : State} (h : isCaptain s = false) : passDown s = s := if_neg (by simp [h])

theorem rootResend_of_member {s : State} (h : isCaptain s = false) : rootResend s = s := if_neg (by simp [isSealRoot, h])

theorem flippedCheck_of_member {s : State} (h : isCaptain s = false) : flippedCheck s = s := if_pos (by simp [h])

/-- What follows a flip at a member that is no captain and hands nothing over: nothing. -/
theorem afterFlip_of_member {s : State} (h : isCaptain s = false) (hh : s.recov.handover = none) :
    flippedCheck (passDown (rootResend (handoverFlip s))) = s := by
  have none : handoverFlip s = s := by simp only [handoverFlip, hh]
  rw [none, rootResend_of_member h, passDown_of_member h, flippedCheck_of_member h]

theorem bareTarget_of_own {s : State} {m : SealMsg} (h : FromOwnCove s m) : bareTarget s = false := by
  obtain ⟨-, -, -, ht, -⟩ := h
  simp [bareTarget, ht]

/-- Settles O30: the flip, and FLIPPED to the others. -/
theorem commitFlipsTheSlots : Obligations.CommitFlipsTheSlots := by
  intro s m h hc hh hp ht hd
  have bare := bareTarget_of_own h
  have run : exec (.commit m) s = .next _ := (sealIn_own h _).trans (congrArg Host.Outcome.next
    ((if_neg (by simp [bare])).trans (if_pos ⟨ht, hd, by simp [phaseNow, hp]⟩)))
  obtain ⟨hl, -⟩ := h
  obtain ⟨u, hu⟩ : ∃ u, u = { s with
    tide.released := false, tide.upReport := none, tide.acks := [], tide.passedDown := [] } := ⟨_, rfl⟩
  have flip := doFlip_ready (s := u) (by rw [hu]; exact hp) (by rw [hu]; exact hl) m.tide
    (BitVec.ofNat 16 (fldAt m.body 0 2)) (BitVec.ofNat 32 (fldAt m.body 4 4))
  have last : flippedCheck (passDown (rootResend (handoverFlip (doFlip u m.tide (BitVec.ofNat 16 (fldAt m.body 0 2))
      (BitVec.ofNat 32 (fldAt m.body 4 4)))))) = _ := (afterFlip_of_member
    ((isCaptain_of_agree (by rw [flip, hu]; rfl) (by rw [flip, hu]; rfl) (by rw [flip, hu]; rfl)).trans hc)
    (by rw [flip, hu]; exact hh)).trans flip
  refine ⟨_, run, ?_⟩
  dsimp only
  rw [← hu, last, hu]
  exact ⟨V3.get_all _, sealedTide_of_halves rfl rfl, V3.get_all _, rfl, mem_addNew _ _, rfl, rfl, rfl, rfl, rfl,
    rfl, rfl, rfl, rfl, rfl, rfl⟩

end Sys2Proof.Machine

/-! PROOFS. RELEASE opens the next flood (R116, R121, R125, R142). -/

namespace Sys2Proof.Machine

/-! ### RELEASE (R116, R121, R125) -/

theorem isRootCove_of_agree {s t : State} (hp : t.job.plan = s.job.plan) (hc : t.agree.cove = s.agree.cove) :
    isRootCove t = isRootCove s := by
  unfold isRootCove
  rw [hp, hc]

theorem ackRoot_elsewhere {s : State} (h : isRootCove s = false) (t : U48) (arg : U32) : ackRoot s t arg = s :=
  if_neg (by simp [h])

theorem serveWaiting_none {s : State} (h : s.recov.waiting = []) : serveWaiting s = s := by
  unfold serveWaiting
  rw [h]
  show { s with recov.waiting := [] } = s
  rw [← h]

theorem twinAfterRelease_idle {s : State} (h : s.twin.state = 0) : twinAfterRelease s = s := if_neg (by simp [h])

/-- The state of a member that RELEASE has reached, its cost taken (R144). -/
def relieved (s : State) : State :=
  { takeCost s with tide := { (takeCost s).tide with released := true, upReport := none, upFlipped := none } }

/-- The flood after the sealed tide stands open with an interval (R116, R121, R142). -/
def floodOpened (s : State) (n : Nat) : State :=
  { s with
    tide := { s.tide with
      policy := s.tide.nextPolicy, n := V3.all (BitVec.ofNat 13 n), steps := 0, floodGtc := s.time.gtc, firstApply := none,
      laterApplySum := 0, laterApplyCount := 0, holdSince := none, reports := [], queried := [], mailbox := none,
      noTide := false, phase := V3.all phFlood }
    fold := { s.fold with share := s.fold.nextShare }
    cap := { s.cap with nearFill := 0, farFill := 0, touchValid := [], touchCache := [] } }

theorem openFlood_opened (s : State) (n : Nat) :
    { openFlood s n with tide := { (openFlood s n).tide with noTide := false } } = floodOpened s n := rfl

/-- The state of that member in the next flood, before its TIDE_SEAL completes. -/
def nextFlood (s : State) (n : Nat) : State := floodOpened (relieved s) n

/-- A member that flipped and takes part in nothing else opens the flood and completes its TIDE_SEAL. -/
theorem doRelease_flipped {s : State} {n : U16} {l : U32} {t : U48} {mb : Fin 8}
    (hd : s.tide.decision = some (t, .commit n l)) (hr : recState s ≠ recDeciding) (ht : sealedTide s ≠ lastTide)
    (hp : phaseNow s ≠ phSuspended) (hm : s.tide.mailbox = some mb) (hh : s.cap.held = [])
    (hw : s.recov.waiting = []) (htw : s.twin.state = 0) :
    doRelease s = respond (nextFlood s n.toNat) mb stOk 0 (sealResults (nextFlood s n.toNat) 1) := by
  have idle : twinAfterRelease (retryHeld (serveWaiting (respond (nextFlood s n.toNat) mb stOk 0
      (sealResults (nextFlood s n.toNat) 1)))) =
        respond (nextFlood s n.toNat) mb stOk 0 (sealResults (nextFlood s n.toNat) 1) := by
    rw [serveWaiting_none (by rw [respond_recov]; exact hw), retryHeld_of_noneHeld (by rw [respond_cap]; exact hh),
      twinAfterRelease_idle (by rw [respond_twin]; exact htw)]
  refine Eq.trans ?_ idle
  unfold doRelease
  extract_lets n' mb' s1 _ s2 _ s3 _ _ _ _ _ s4 s5
  have hn : n' = n.toNat := by simp only [n', hd]
  have h3 : s3 = s2 := if_neg hr
  have h4 : s4 = nextFlood s n.toNat := by
    refine (if_neg ?_).trans ((if_neg ?_).trans ?_)
    · rw [h3]
      exact ht
    · rw [h3]
      exact hp
    · refine (openFlood_opened s3 n').trans ?_
      rw [h3, hn]
      rfl
  have h5 : s5 = respond (nextFlood s n.toNat) mb stOk 0 (sealResults (nextFlood s n.toNat) 1) := by
    simp only [s5, mb', hm, h4]
  rw [h5]

/-- Settles O31: RELEASE at a member that has flipped. -/
theorem releaseOpensTheNextFlood : Obligations.ReleaseOpensTheNextFlood := by
  intro s m n l mb h hc hroot hp ht hlast hd hn hrel hh hw hrec htw hm hf
  have bare := bareTarget_of_own h
  have code : decisionCode s m.tide = 1 := by simp only [decisionCode, hd, if_true]
  have run : exec (.release m) s = .next _ := (sealIn_own h _).trans (congrArg Host.Outcome.next
    ((if_neg (by simp [bare])).trans (if_pos ⟨ht, code, by simp [hrel]⟩)))
  obtain ⟨u, hu⟩ : ∃ u, u = { s with tide := { s.tide with released := true } } := ⟨_, rfl⟩
  have release := doRelease_flipped (s := u) (n := n) (l := l) (t := m.tide) (mb := mb) (by rw [hu]; exact hd)
    (by rw [hu]; show s.recov.state.get ≠ _; rw [hrec]; decide)
    (by rw [hu]; show sealedTide s ≠ _; rw [← ht]; exact fun e => hlast (by rw [e]; rfl))
    (by rw [hu]; show s.tide.phase.get ≠ _; rw [hp]; decide) (by rw [hu]; exact hm)
    (by rw [hu]; exact hh) (by rw [hu]; exact hw) (by rw [hu]; exact htw)
  obtain ⟨v, hv⟩ : ∃ v, v = nextFlood u n.toNat := ⟨_, rfl⟩
  rw [← hv] at release
  have hrun : fwRunning v = true := by rw [hv, hu]; exact decide_eq_true hf
  have hsealed : sealedTide v = sealedTide s := by rw [hv, hu]; rfl
  have root : isRootCove (respond v mb stOk 0 (sealResults v 1)) = false :=
    (isRootCove_of_agree (by rw [respond_job, hv, hu]; rfl) (by rw [respond_agree, hv, hu]; rfl)).trans hroot
  refine ⟨_, run, ?_⟩
  dsimp only
  rw [← hu, rootResend_of_member (by rw [hu]; exact hc), passDown_of_member (by rw [hu]; exact hc), release,
    ackRoot_elsewhere root]
  have results : ∀ {o k : Nat}, 8 ≤ o → o + k ≤ 32 →
      fld (box (respond v mb stOk 0 (sealResults v 1)) mb).rsp o k = fld (mkLine (sealResults v 1)) o k := fun ho hk =>
    fld_rsp_respond mb stOk 0 _ hrun ho hk
  have tideKept : sealedTide (respond v mb stOk 0 (sealResults v 1)) = sealedTide s := by
    rw [← hsealed, sealedTide, respond_tide]
    rfl
  have hbox := respond_box_same v mb stOk 0 (sealResults v 1) hrun
  rw [results (by decide) (by decide), results (by decide) (by decide), tideKept, hbox, respond_tide, respond_cap,
    respond_mem, respond_digests]
  have hold : box v mb = box s mb := by rw [hv, hu]; rfl
  rw [hold]
  have last : fld (mkLine (sealResults v 1)) 10 6 = (sealedTide s).toNat := by
    refine (fld_mkLine_skip (by decide) (by decide)).trans ((fld_mkLine_head (by decide) (by simp [apart])).trans ?_)
    rw [← hsealed]
    exact Nat.mod_eq_of_lt (sealedTide v).isLt
  have interval : v.tide.n.get.toNat = n.toNat := by
    rw [hv]
    exact (congrArg BitVec.toNat (V3.get_all _)).trans (toNat_ofNat_of_lt hn)
  rw [interval, last, hv, hu]
  exact ⟨V3.get_all _, rfl, rfl, rfl, rfl, rfl, rfl, rfl, rfl, rfl, rfl, rfl, rfl, rfl, rfl, rfl, rfl,
    fld_mkLine_head (by decide) (by simp [apart]), rfl⟩

end Sys2Proof.Machine

/-! PROOFS. ABANDON at a READY member (R130, R133, R245). -/

namespace Sys2Proof.Machine

/-! ### ABANDON (R130, R133, R245) -/

theorem endSeal_pending {s : State} {mb : Fin 8} (h : s.tide.mailbox = some mb) (status detail : Nat) :
    endSeal s status detail = respond { s with tide.mailbox := none } mb status detail (sealResults s 0) := by
  simp only [endSeal, h]

/-- The member of an abandoned seal stands in PHASE HELD. -/
def toHeld (s : State) : State :=
  { setPhase s phHeld with tide.released := false, tide.upReport := none, tide.upFlipped := none }

/-- Rollback becomes due, or recovery fails (R245, R246). -/
def startRollback (s : State) : State :=
  if s.recov.target ∧ recState s = recParity then s else
  let s := { s with recov.tide := sealedTide s }
  if s.tide.noTide then failRecovery s
  else if beyondTolerance s (liveSet s) then setRec { s with recov.rollingBack := false } recFailed
  else
    let s := { setRec s recRolling with recov.rollingBack := true }
    if coveDamaged s then s else { s with agree.renewalDue := true }

theorem doHeld_eq (s : State) : doHeld s = startRollback (startSpring (stopRuns
    (endSeal (toHeld (beginRecovery s)) stLostMember s.agree.removed.toNat) .lost)) := by
  have removed : (toHeld (beginRecovery s)).agree.removed = s.agree.removed := by
    unfold beginRecovery
    dsimp only
    split
    · rfl
    · split <;> rfl
  rw [← removed]
  rfl

theorem startRollback_rolls {s : State} (ht : s.recov.target = false) (hn : s.tide.noTide = false)
    (hb : beyondTolerance s (liveSet s) = false) (hd : s.recov.state.get ≠ recData) : ∃ agree,
    startRollback s = { s with
      recov := { s.recov with tide := sealedTide s, state := V3.all recRolling, rollingBack := true }
      agree := agree } ∧ agree.cove = s.agree.cove := by
  have hb' : beyondTolerance { s with recov.tide := sealedTide s } (liveSet s) = false := hb
  have roll : setRec { s with recov.tide := sealedTide s } recRolling =
      { s with recov := { s.recov with tide := sealedTide s, state := V3.all recRolling } } :=
    if_pos (by rw [decide_eq_false (show ¬ recState { s with recov.tide := sealedTide s } = recData from hd)]; rfl)
  unfold startRollback
  rw [if_neg (by simp [ht])]
  dsimp only
  rw [if_neg (by simp [hn]), if_neg (by exact Bool.eq_false_iff.1 hb'), roll]
  split
  · exact ⟨_, rfl, rfl⟩
  · exact ⟨_, rfl, rfl⟩

/-- What the start of a recovery changes: the flags of the loss, and its registers, whose LOST it can only clear. -/
theorem beginRecovery_fields (s : State) : ∃ recov, beginRecovery s = { s with
    tide := { s.tide with lossSeal := false, reopened := true }, recov := recov } ∧ recov.state = s.recov.state ∧
    (s.recov.target = false → recov.target = false) ∧
    ∀ q, recov.lost.get.getLsbD q = true → s.recov.lost.get.getLsbD q = true := by
  unfold beginRecovery
  dsimp only
  split
  · exact ⟨_, rfl, rfl, id, fun q h => h⟩
  · split
    · refine ⟨_, rfl, rfl, fun _ => rfl, fun q h => ?_⟩
      simp at h
    · exact ⟨_, rfl, rfl, id, fun q h => h⟩

/-- Fewer lost positions are no further beyond the tolerance. -/
theorem beyondTolerance_mono {s t : State} {live : U16} (hc : ownCove t = ownCove s)
    (h : ∀ q, t.recov.lost.get.getLsbD q = true → s.recov.lost.get.getLsbD q = true)
    (hs : beyondTolerance s live = false) : beyondTolerance t live = false := by
  unfold beyondTolerance at hs ⊢
  rw [hc]
  cases hoc : ownCove s with
  | none => rfl
  | some c =>
    rw [hoc] at hs
    simp only [decide_eq_false_iff_not, Nat.not_lt] at hs ⊢
    refine Nat.le_trans (List.Sublist.length_le (List.monotone_filter_right _ fun q hq => ?_)) hs
    simp only [Bool.or_eq_true] at hq ⊢
    exact hq.imp_right (h q)

theorem startSpring_summer {s : State} (h0 : s.power.season.get = 0) (hm : s.power.moving = false) : startSpring s = s := by
  unfold startSpring
  rw [if_neg (by simp [hm]), if_neg (by simp [h0])]

/-- Back in the flood, whose seal is abandoned for its manifests (R130). -/
def reopened (s : State) : State :=
  { setPhase s phFlood with tide := { (setPhase s phFlood).tide with
    readies := [], closeSent := [], ownRecord := [], reports := [], queried := [], upReport := none, upFlipped := none,
    holdSince := none, mailbox := none } }

theorem doManifest_pending {s : State} {mb : Fin 8} (hp : phaseNow s ≠ phSuspended) (hm : s.tide.mailbox = some mb)
    (hh : s.cap.held = []) : ∃ detail,
    doManifest s = respond (reopened s) mb stFault detail (sealResults (reopened s) 0) := by
  unfold doManifest
  rw [if_neg hp]
  dsimp only
  rw [endSeal_pending (by exact hm), retryHeld_of_noneHeld (by rw [respond_cap]; exact hh)]
  exact ⟨_, rfl⟩

/-- The member in PHASE HELD, its TIDE_SEAL about to be answered. -/
def heldSeal (s : State) (recov : RecS) : State :=
  { s with
    tide := { s.tide with
      lossSeal := false, reopened := true, phase := V3.all phHeld, released := false, upReport := none,
      upFlipped := none, mailbox := none }
    recov := recov }

theorem doHeld_rolls {s : State} {mb : Fin 8} (hm : s.tide.mailbox = some mb) (ht : s.recov.target = false)
    (hn : s.tide.noTide = false) (hb : beyondTolerance s (liveSet s) = false) (hd : s.recov.state.get ≠ recData)
    (h0 : s.power.season.get = 0) (hmv : s.power.moving = false) : ∃ rec1 agree recov,
    doHeld s = { stopRuns (respond (heldSeal s rec1) mb stLostMember s.agree.removed.toNat
      (sealResults (heldSeal s rec1) 0)) .lost with recov := recov, agree := agree } ∧ recov.tide = sealedTide s ∧
      agree.cove = s.agree.cove := by
  obtain ⟨rec1, hbegin, hstate, htarget, hlost⟩ := beginRecovery_fields s
  have sealed : endSeal (toHeld (beginRecovery s)) stLostMember s.agree.removed.toNat =
      respond (heldSeal s rec1) mb stLostMember s.agree.removed.toNat (sealResults (heldSeal s rec1) 0) := by
    rw [endSeal_pending (by rw [hbegin]; exact hm), hbegin]
    rfl
  obtain ⟨v, hv⟩ : ∃ v, v = stopRuns (respond (heldSeal s rec1) mb stLostMember s.agree.removed.toNat
      (sealResults (heldSeal s rec1) 0)) .lost := ⟨_, rfl⟩
  have vrecov : v.recov = rec1 := by rw [hv]; exact respond_recov ..
  have vagree : v.agree = s.agree := by rw [hv]; exact respond_agree ..
  have vtide : v.tide = (heldSeal s rec1).tide := by rw [hv]; exact respond_tide ..
  have vpower : v.power = s.power := by rw [hv]; exact respond_power ..
  have vjob : v.job = s.job := by rw [hv]; exact respond_job ..
  have cove : ownCove v = ownCove s := by unfold ownCove; rw [vjob, vagree]
  have live : liveSet v = liveSet s := by unfold liveSet; rw [vagree]
  obtain ⟨agree, hroll, hcove⟩ := startRollback_rolls (s := v) (by rw [vrecov]; exact htarget ht) (by rw [vtide]; exact hn)
    (by rw [live]; exact beyondTolerance_mono cove (by rw [vrecov]; exact hlost) hb) (by rw [vrecov, hstate]; exact hd)
  have tide : sealedTide v = sealedTide s := by
    unfold sealedTide
    rw [vtide]
    rfl
  refine ⟨rec1, agree, { v.recov with tide := sealedTide v, state := V3.all recRolling, rollingBack := true }, ?_, tide,
    hcove.trans (by rw [vagree])⟩
  rw [doHeld_eq, sealed, ← hv, startSpring_summer (by rw [vpower]; exact h0) (by rw [vpower]; exact hmv), hroll]

/-- The response of a TIDE_SEAL whose seal was abandoned. -/
theorem sealEnded {u : State} (mb : Fin 8) {status detail : Nat} (hf : fwRunning u = true) (hs : status < 256) :
    (box (respond u mb status detail (sealResults u 0)) mb).busy = false ∧
      (box (respond u mb status detail (sealResults u 0)) mb).done = true ∧
      (box (respond u mb status detail (sealResults u 0)) mb).code = BitVec.ofNat 8 status ∧
      fld (box (respond u mb status detail (sealResults u 0)) mb).rsp 8 1 = 0 := by
  rw [fld_rsp_respond mb status detail _ hf (by decide) (by decide), respond_box_same _ _ _ _ _ hf]
  exact ⟨rfl, rfl, rfl, fld_mkLine_head (by decide) (by simp [apart])⟩

/-- Settles O32: reason 1 reopens the flood, reason 0 holds it. -/
theorem abandonResumesOrHoldsTheFlood : Obligations.AbandonResumesOrHoldsTheFlood := by
  intro s m mb h hc hroot hp ht hd hh hm hf
  have bare := bareTarget_of_own h
  have run : exec (.abandon m) s = .next _ := (sealIn_own h _).trans (congrArg Host.Outcome.next
    ((if_neg (by simp [bare])).trans (if_pos ⟨ht, hd, by simp [phaseNow, hp]⟩)))
  obtain ⟨-, -, -, htarget, -⟩ := h
  obtain ⟨u, hu⟩ : ∃ u, u = { s with tide := { s.tide with
    decision := some (m.tide, .abandon m.arg), released := false, acks := [], passedDown := [] } } := ⟨_, rfl⟩
  have stays : passDown (rootResend u) = u := by
    rw [rootResend_of_member (by rw [hu]; exact hc), passDown_of_member (by rw [hu]; exact hc)]
  refine ⟨fun harg => ⟨_, run, ?_⟩, fun harg hrec hseason hmoving hno hbeyond => ⟨_, run, ?_⟩⟩
  · obtain ⟨detail, done⟩ := doManifest_pending (s := u) (mb := mb) (by rw [hu]; simp [phaseNow, hp]) (by rw [hu]; exact hm)
      (by rw [hu]; exact hh)
    have abandon : doAbandon u 1 = _ := (if_pos rfl).trans done
    have hrun : fwRunning (reopened u) = true := by rw [hu]; exact decide_eq_true hf
    have ended := sealEnded (u := reopened u) mb (status := stFault) (detail := detail) hrun (by decide)
    dsimp only
    rw [← hu, stays, harg, abandon, ackRoot_elsewhere, respond_tide, respond_cap, respond_mem, respond_fold]
    · rw [hu] at ended ⊢
      exact ⟨V3.get_all _, rfl, rfl, rfl, rfl, rfl, rfl, rfl, rfl, ended⟩
    · rw [isRootCove_of_agree (s := s) (by rw [respond_job, hu]; rfl) (by rw [respond_agree, hu]; rfl)]
      exact hroot
  · obtain ⟨rec1, agree, recov, held, htide, hcove⟩ := doHeld_rolls (s := u) (mb := mb) (by rw [hu]; exact hm)
      (by rw [hu]; exact htarget) (by rw [hu]; exact hno) (by rw [hu]; exact hbeyond) (by rw [hu]; exact hrec)
      (by rw [hu]; exact hseason) (by rw [hu]; exact hmoving)
    have abandon : doAbandon u 0 = _ := (if_neg (by decide)).trans held
    have hrun : fwRunning (heldSeal u rec1) = true := by rw [hu]; exact decide_eq_true hf
    have ended := sealEnded (u := heldSeal u rec1) mb (status := stLostMember) (detail := u.agree.removed.toNat) hrun
      (by decide)
    dsimp only
    rw [← hu, stays, harg, abandon, ackRoot_elsewhere]
    · obtain ⟨w, hw⟩ : ∃ w, w = respond (heldSeal u rec1) mb stLostMember u.agree.removed.toNat
          (sealResults (heldSeal u rec1) 0) := ⟨_, rfl⟩
      rw [← hw] at ended ⊢
      have wtide : w.tide = (heldSeal u rec1).tide := by rw [hw, respond_tide]
      refine ⟨?_, ?_, ?_, ?_, ?_, ?_, ?_, ?_, ?_, ?_, ?_, ended⟩
      · show w.tide.phase.get = 5
        rw [wtide]
        exact V3.get_all _
      · show w.tide.slot = _
        rw [wtide, hu]
        rfl
      · show w.tide.tideHi.get ++ w.tide.tideLo.get = _
        rw [wtide, hu]
        rfl
      · rw [hu] at htide
        exact htide
      · show w.tide.mailbox = none
        rw [wtide]
        rfl
      · show w.cap = _
        rw [hw, respond_cap, hu]
        rfl
      · show w.mem = _
        rw [hw, respond_mem, hu]
        rfl
      · show w.fold = _
        rw [hw, respond_fold, hu]
        rfl
      · show w.apply.run.map _ = _
        rw [hw, respond_apply, hu]
        rfl
      · show w.exch.reduces.map _ = _
        rw [hw, respond_exch, hu]
        rfl
      · show w.exch.compress.map _ = _
        rw [hw, respond_exch, hu]
        rfl
    · refine (isRootCove_of_agree (s := s) ?_ (by rw [hu] at hcove; exact hcove)).trans hroot
      show (respond (heldSeal u rec1) mb stLostMember u.agree.removed.toNat _).job.plan = _
      rw [respond_job, hu]
      rfl

end Sys2Proof.Machine

/-! PROOFS. The decision of the root of a one-cove job (R128, R132, R143). -/

namespace Sys2Proof.Machine

/-! ### The root's decision (R128, R132, R143) -/

theorem children_of_oneCove {s : State} {p : Plan} (hp : s.job.plan = some p) (h1 : p.coves.length = 1) :
    children s = [] := by
  unfold children
  rw [hp]
  cases s.agree.cove with
  | none => rfl
  | some id =>
    show childCoves p id = []
    unfold childCoves
    split
    · rw [List.drop_eq_nil_of_le (by omega), List.take_nil]
    · rfl

theorem decisionMsg_commit {s : State} {t : U48} {n : U16} {l : U32} (hd : s.tide.decision = some (t, .commit n l))
    (hr : s.tide.released = false) : decisionMsg s = some (t, 0x15, 0, commitBody n l, 0) := by
  simp [decisionMsg, hd, hr]

theorem sendDecision_commit {s : State} {t : U48} {n : U16} {l : U32} (hd : s.tide.decision = some (t, .commit n l))
    (hr : s.tide.released = false) (hl : s.ports.lkp = true) (qs : List Nat) : sendDecision s qs =
      appendOut { s with tide.rootSent := s.time.gtc }
        (qs.map fun q => sealStore s q 0x15 t 0 (commitBody n l)) := by
  simp only [sendDecision, decisionMsg_commit hd hr]
  exact forEach_sends (s := { s with tide.rootSent := s.time.gtc })
    (g := fun (u : State) (q : Nat) => sealStore u q 0x15 t 0 (commitBody n l)) qs
    (fun _ _ hu => sendSeal_present hu ..) (fun _ _ _ => rfl) hl

theorem unacked_none {s : State} (h : s.tide.acks = []) (arg : U32) : unacked s arg = otherLive s := by
  simp [unacked, h]

theorem undecided_whole {s : State} (hd : coveDamaged s = false) (hr : s.recov.state.get = 0) : undecided s = false := by
  simp [undecided, hd, recState, hr]

/-- With every live member's manifest the same, none differs. -/
theorem manifestsDiffer_of_alike {s : State} {body : List Byte}
    (h : ∀ q ∈ livePositions s, find q s.tide.readies = some body) : manifestsDiffer s = false := by
  have alike : ∀ n ∈ readyManifests s, n = body := by
    intro n hn
    obtain ⟨q, hq, hf⟩ := List.mem_filterMap.1 hn
    rw [h q hq] at hf
    exact (Option.some.inj hf).symm
  unfold manifestsDiffer
  split
  · rfl
  · next m t hm =>
    rw [hm] at alike
    simp only [List.any_eq_false, decide_eq_true_eq, ne_eq, not_not]
    intro n hn
    rw [alike n (List.mem_cons_of_mem _ hn), alike m List.mem_cons_self]

theorem find_some_mem {β : Type} {k : Nat} {v : β} {l : List (Nat × β)} (h : find k l = some v) : ∃ e ∈ l, e.1 = k := by
  induction l with
  | nil => cases h
  | cons e t ih =>
    rw [find] at h
    split at h
    · next he => exact ⟨e, List.mem_cons_self, he⟩
    · obtain ⟨x, hx, hk⟩ := ih h
      exact ⟨x, List.mem_cons_of_mem _ hx, hk⟩

theorem allReady_of_alike {s : State} {body : List Byte}
    (h : ∀ q ∈ livePositions s, find q s.tide.readies = some body) : allReady s = true := by
  refine List.all_eq_true.2 fun q hq => ?_
  obtain ⟨e, he, hk⟩ := find_some_mem (h q hq)
  exact List.any_eq_true.2 ⟨e, he, by simpa using hk⟩

theorem takeReady_alike {s : State} {p : Nat} {body : List Byte}
    (h : ∀ q ∈ livePositions s, find q (put p body s.tide.readies) = some body) :
    takeReady s p body = { s with tide.readies := put p body s.tide.readies } := by
  have alike := manifestsDiffer_of_alike (s := { s with tide.readies := put p body s.tide.readies }) h
  exact if_neg (by rw [alike]; simp)

/-- The root of a one-cove job whose members are all ready decides COMMIT. -/
theorem rootDecide_commits {s : State} {p : Plan} {t : U48} {body : List Byte} (hc : isCaptain s = true)
    (hroot : isRootCove s = true) (hp : s.job.plan = some p) (h1 : p.coves.length = 1) (hrec : s.recov.state.get = 0)
    (hdam : coveDamaged s = false) (hlt : (sealedTide s).toNat + 1 < 2 ^ 48) (ht : t = sealedTide s + 1)
    (hd : s.tide.decision = none) (h : ∀ q ∈ livePositions s, find q s.tide.readies = some body) :
    rootDecide s t = rootCommit s t false := by
  have kids := children_of_oneCove hp h1
  have whole := undecided_whole hdam hrec
  have code : ∀ u, decisionCode s u = 0 := fun u => by simp only [decisionCode, hd]
  have elsewhere : heldElsewhere s t = false := by simp [heldElsewhere, whole]
  have above : ¬ (t.toNat ≤ (sealedTide s).toNat ∨ decisionCode s t = 1) := by
    have one : (sealedTide s + 1).toNat = (sealedTide s).toNat + 1 := by
      rw [BitVec.toNat_add]
      exact Nat.mod_eq_of_lt hlt
    rw [code, ht, one]
    omega
  have state : coveState s t = some 0 := by
    unfold coveState
    rw [if_neg above, if_neg (by simp [ht]), if_neg (by simp [whole]),
      if_neg (by simp [manifestsDiffer_of_alike h]), if_pos (allReady_of_alike h)]
  unfold rootDecide
  rw [if_neg (by simp [isSealRoot, hc, hroot, ht, code]; exact ht ▸ elsewhere)]
  simp only [kids, List.filterMap_nil, whole, state, unheard, List.filter_nil, List.any_nil]
  simp

theorem captainCheck_root {s : State} (hc : isCaptain s = true) (hr : recState s ≠ recReshard)
    (hroot : isRootCove s = true) : captainCheck s = rootDecide s (sealedTide s + 1) := by
  unfold captainCheck
  rw [if_neg (by simp [hc]), if_neg hr]
  exact if_pos hroot

theorem otherLive_of_agree {s t : State} (hl : t.agree.live = s.agree.live) (hp : t.agree.position = s.agree.position) :
    otherLive t = otherLive s := by
  unfold otherLive livePositions liveSet ownPos
  rw [hl, hp]

theorem mem_sealMembers {s t : State} {q : Nat} (hr : t.recov = s.recov) (ha : t.agree.live = s.agree.live)
    (hrec : s.recov.state.get = 0) (hq : (liveSet s).getLsbD q = true) : q ∈ sealMembers t := by
  have calm : recState t ≠ recDeciding := by
    rw [recState, hr, hrec]
    decide
  refine List.mem_filter.2 ⟨mem_bitsOf.2 ?_, by simpa using .inl calm⟩
  rw [liveSet, ha]
  exact hq

theorem rootPass_awaits {s : State} {t : U48} {n : U16} {l : U32} (hd : s.tide.decision = some (t, .commit n l))
    (hr : s.tide.released = false) (ha : s.tide.acks = []) (hq : otherLive s ≠ []) : rootPass s = s := by
  simp only [rootPass, decisionMsg_commit hd hr, unacked_none ha]
  exact if_neg fun h => hq h.1

theorem rootRelease_awaits {s : State} {q : Nat} (hq : q ∈ sealMembers s) (hf : q ∉ s.tide.flips) : rootRelease s = s := by
  refine if_neg ?_
  rintro ⟨-, -, -, hall, -⟩
  exact hf (by simpa using List.all_eq_true.1 hall q hq)

/-- COMMIT decided, with a member whose flip is still to come: the root has flipped, and waits. -/
theorem rootCommit_flips {s : State} {t : U48} {q : Nat} (hl : s.ports.lkp = true) (hph : s.tide.phase.get = 3)
    (hauto : s.tide.nextPolicy.auto = false) (hq : q ∈ otherLive s) (hf : s.tide.flips = [])
    (hrec : s.recov.state.get = 0) : ∃ l out statusLine,
    rootCommit s t false = { flipped { s with tide := { s.tide with
        lastStep7 := some s.time.gtc, abandonNext := false,
        decision := some (t, .commit (BitVec.ofNat 16 s.tide.nextPolicy.nFixed) l), released := false, acks := [],
        passedDown := [], rootSent := s.time.gtc } } t (BitVec.ofNat 16 s.tide.nextPolicy.nFixed) l with
      out := out
      agree := { s.agree with statusLine := statusLine } } := by
  have interval : nextInterval s t (s.tide.jobLosses + subtreeLosses s) = s.tide.nextPolicy.nFixed := by
    simp [nextInterval, hauto]
  obtain ⟨l, hloss⟩ : ∃ l, l = BitVec.ofNat 32 (s.tide.jobLosses + subtreeLosses s) := ⟨_, rfl⟩
  obtain ⟨u, hu⟩ : ∃ u : State, u = { s with tide := { s.tide with
      lastStep7 := some s.time.gtc, abandonNext := false,
      decision := some (t, .commit (BitVec.ofNat 16 s.tide.nextPolicy.nFixed) l), released := false, acks := [],
      passedDown := [] } } := ⟨_, rfl⟩
  have sent : putDecision { s with tide := { s.tide with lastStep7 := some s.time.gtc, abandonNext := false } } t
      (.commit (BitVec.ofNat 16 s.tide.nextPolicy.nFixed) l) = appendOut { u with tide.rootSent := u.time.gtc }
        ((otherLive s).map fun q => sealStore u q 0x15 t 0 (commitBody (BitVec.ofNat 16 s.tide.nextPolicy.nFixed) l)) := by
    unfold putDecision
    rw [hu]
    exact sendDecision_commit (by exact rfl) (by exact rfl) (by exact hl) _
  obtain ⟨w, hw⟩ : ∃ w, w = appendOut { u with tide.rootSent := u.time.gtc } ((otherLive s).map fun q =>
      sealStore u q 0x15 t 0 (commitBody (BitVec.ofNat 16 s.tide.nextPolicy.nFixed) l)) := ⟨_, rfl⟩
  have flip := doFlip_ready (s := w) (by rw [hw, hu]; exact hph) (by rw [hw, hu]; exact hl) t
    (BitVec.ofNat 16 s.tide.nextPolicy.nFixed) l
  obtain ⟨hlive, hne⟩ := mem_otherLive.1 hq
  have wagree : w.agree = s.agree := by rw [hw, hu]; rfl
  have wrecov : w.recov = s.recov := by rw [hw, hu]; rfl
  have wflips : w.tide.flips = [] := by rw [hw, hu]; exact hf
  obtain ⟨v, hv⟩ : ∃ v, v = doFlip w t (BitVec.ofNat 16 s.tide.nextPolicy.nFixed) l := ⟨_, rfl⟩
  have vlive : v.agree.live = s.agree.live := by rw [hv, flip, ← wagree]; rfl
  have vpos : v.agree.position = s.agree.position := by rw [hv, flip, ← wagree]; rfl
  have pass : rootPass v = v := rootPass_awaits (t := t) (n := BitVec.ofNat 16 s.tide.nextPolicy.nFixed) (l := l)
    (by rw [hv, flip]; rfl) (by rw [hv, flip, hw, hu]; rfl) (by rw [hv, flip, hw, hu]; rfl)
    (by rw [otherLive_of_agree vlive vpos]; exact List.ne_nil_of_mem hq)
  have release : rootRelease v = v := rootRelease_awaits (q := q)
    (mem_sealMembers (by rw [hv, flip, ← wrecov]; rfl) vlive hrec hlive) (by
      rw [hv, flip]
      show q ∉ addNew (ownPos w) w.tide.flips
      rw [wflips, ownPos, wagree]
      simpa [addNew] using hne)
  have run : rootCommit s t false = rootRelease (rootPass (doFlip w t (BitVec.ofNat 16 s.tide.nextPolicy.nFixed) l)) := by
    unfold rootCommit
    dsimp only
    rw [interval, ← hloss, sent, hw]
  rw [run, ← hv, pass, release, hv, flip, hw, hu]
  exact ⟨l, _, _, rfl⟩

/-- Settles O34: the last READY at the root of a one-cove job, and the repetition of its decision. -/
theorem rootDecidesAndRepeatsTheDecision : Obligations.RootDecidesAndRepeatsTheDecision := by
  intro s m p h hc hp h1 hroot hrec hlt hdam hho hknown
  have own := h
  obtain ⟨hl, -⟩ := h
  have isRoot : isSealRoot s = true := by simp [isSealRoot, hc, hroot]
  refine ⟨fun ht hph hd hauto hall hother hf => ?_, fun t0 n l hd hr htime hun => ?_, fun h0 h1 h2 => ?_⟩
  · obtain ⟨q, hq⟩ := hother
    have alike : ∀ q ∈ livePositions s, find q (put m.origin.toNat m.body s.tide.readies) = some m.body := fun q hq => by
      simpa using List.all_eq_true.1 hall q hq
    have run : exec (.ready m) s = .next _ := (sealInEither_own own _).trans (congrArg Host.Outcome.next
      (if_neg (by simp [ht, phaseNow, hph])))
    obtain ⟨u, hu⟩ : ∃ u, u = { s with tide.readies := put m.origin.toNat m.body s.tide.readies } := ⟨_, rfl⟩
    obtain ⟨l, out, line, hcommit⟩ := rootCommit_flips (s := u) (t := m.tide) (q := q) (by rw [hu]; exact hl)
      (by rw [hu]; exact hph) (by rw [hu]; exact hauto) (by rw [hu]; exact hq) (by rw [hu]; exact hf)
      (by rw [hu]; exact hrec)
    have decide_ := rootDecide_commits (s := u) (p := p) (t := m.tide) (body := m.body) (by rw [hu]; exact hc)
      (by rw [hu]; exact hroot) (by rw [hu]; exact hp) h1 (by rw [hu]; exact hrec) (by rw [hu]; exact hdam)
      (by rw [hu]; exact hlt) (by rw [hu]; exact ht) (by rw [hu]; exact hd) (by rw [hu]; exact alike)
    have check : captainCheck u = rootDecide u m.tide := by
      rw [captainCheck_root (by rw [hu]; exact hc) (by rw [hu]; simp [recState, hrec]) (by rw [hu]; exact hroot), ht, hu]
      rfl
    refine ⟨_, run, ?_⟩
    rw [takeReady_alike alike, ← hu, check, decide_, hcommit, hu]
    exact ⟨⟨l, rfl⟩, V3.get_all _, sealedTide_of_halves rfl rfl, rfl, rfl⟩
  · have sends : exec .decisionResend s = .next (sendDecision s (unacked s 0)) := by
      refine congrArg Host.Outcome.next ?_
      simp only [decisionMsg_commit hd hr]
      exact if_pos ⟨isRoot, hun, htime⟩
    rw [sendDecision_commit hd hr hl] at sends
    exact ⟨_, sends, rfl, rfl⟩
  · refine ⟨s, congrArg Host.Outcome.next ?_, rfl⟩
    have none : ∀ k, k = 0 ∨ k = 1 ∨ k = 2 → unacked s k = [] := by
      rintro k (rfl | rfl | rfl) <;> assumption
    split
    · next k hk =>
      refine if_neg fun hn => hn.2.1 (none k ?_)
      unfold decisionMsg at hk
      split at hk
      · cases hk
      · cases hk
        exact .inr (.inr rfl)
      · split at hk <;> cases hk
        · exact .inr (.inl rfl)
        · exact .inl rfl
    · rfl

end Sys2Proof.Machine

/-! PROOFS. SWITCH makes the shadows current (R267). -/

namespace Sys2Proof.Machine

/-! ### The switch of a re-shard (R267) -/

/-- The shadow whose switch is due. -/
def dueShadow (sh : Shadow) : Shadow := { sh with tide := { sh.tide with released := true } }

/-- SWITCH at a member of the forming cove that is not its captain makes its shadow due. -/
theorem exec_switch_due {s : State} {m : SealMsg} {sh : Shadow} (hl : s.ports.lkp = true) (hw : s.power.season.get ≠ 2)
    (hs : s.recov.shadow = some sh) (ht : m.tree = false) (hc : sh.agree.cove = some m.cove)
    (hv : m.view = sh.agree.epoch.get.truncate 16) (hr : sh.tide.released = false)
    (hcap : isCaptain { s with job := { s.job with plan := some sh.plan }, agree := sh.agree } = false) :
    exec (.switch m) s =
      .next (makeCurrent { s with recov.shadow := some (dueShadow sh) } (dueShadow sh)) := by
  obtain ⟨w, hwdef⟩ : ∃ w : State, w = { s with
    job.plan := some sh.plan, tier.regions := sh.regions, tier.quotas := sh.quotas, digests := sh.digests,
    agree := sh.agree, tide := sh.tide } := ⟨_, rfl⟩
  have accepts : sealAccepts w m = true := by
    have view : viewNow w = m.view := by rw [hwdef, hv]; rfl
    have cove : w.agree.cove = some m.cove := by rw [hwdef]; exact hc
    have up : w.ports.lkp = true := by rw [hwdef]; exact hl
    have awake : w.power.season.get ≠ 2 := by rw [hwdef]; exact hw
    simpa [sealAccepts, up, ht, cove, view] using awake
  rw [hwdef] at accepts
  refine congrArg Host.Outcome.next ((vaIn_open hl hw _).trans ?_)
  simp only [withShadow, hs, Option.isNone_some, Bool.false_eq_true, if_false]
  rw [if_neg (by simp [accepts]), if_neg (by simp [hr]), if_neg (by exact Bool.eq_false_iff.1 hcap)]
  simp only [switchDone, hs, Option.map_some, if_true]
  rfl

/-- What the switch makes current. -/
theorem makeCurrent_fields (s : State) (sh : Shadow) : ∃ u,
    makeCurrent s sh = refreshStatusLine (respondOpt u sh.mailbox stOk 0) ∧
    u.job.plan = some sh.plan ∧ u.job.state = 3 ∧ u.tier.regions = sh.regions ∧ u.tier.quotas = sh.quotas ∧
    u.digests = sh.digests ∧ u.agree.cove = sh.agree.cove ∧ u.recov.shadow = none ∧
    u.recov.state = V3.all recResumable ∧ u.recov.lost = V3.all 0 ∧ u.recov.target = false ∧ u.tide.slot = V3.all 0 ∧
    u.tide.phase = V3.all phHeld ∧ u.mem = s.mem ∧ u.cap.nearFill = 0 ∧ u.cap.farFill = 0 :=
  ⟨_, rfl, rfl, rfl, rfl, rfl, rfl, rfl, rfl, rfl, rfl, rfl, rfl, rfl, rfl, rfl, rfl⟩

theorem refreshStatusLine_fields (s : State) : ∃ line, refreshStatusLine s = { s with agree.statusLine := line } :=
  ⟨_, rfl⟩

/-- Settles O35: the shadow's fields are the current ones after the switch. -/
theorem switchMakesTheShadowsCurrent : Obligations.SwitchMakesTheShadowsCurrent := by
  intro s m hl hw
  refine ⟨fun hs => ⟨_, congrArg Host.Outcome.next ((vaIn_open hl hw _).trans (if_pos (by simp [hs]))), rfl⟩,
    fun sh hs ht hc hv hr hcap => ⟨_, exec_switch_due hl hw hs ht hc hv hr hcap, ?_⟩⟩
  obtain ⟨u, hmake, hplan, hstate, hregions, hquotas, hdigests, hcove, hshadow, hrec, hlost, htarget, hslot, hphase, hmem,
    hnear, hfar⟩ := makeCurrent_fields { s with recov.shadow := some (dueShadow sh) } (dueShadow sh)
  obtain ⟨line, hline⟩ := refreshStatusLine_fields (respondOpt u (dueShadow sh).mailbox stOk 0)
  rw [hmake, hline]
  simp only [respondOpt_job, respondOpt_tier, respondOpt_digests, respondOpt_agree, respondOpt_recov, respondOpt_tide,
    respondOpt_mem, respondOpt_cap, hplan, hstate, hregions, hquotas, hdigests, hcove, hshadow, hrec, hlost, htarget, hslot,
    hphase, hmem, hnear, hfar, V3.get_all, true_and, and_true, and_self]
  exact ⟨rfl, rfl, rfl, rfl, hc⟩

end Sys2Proof.Machine

/-! PROOFS. Heartbeats refuted: a refuting answer about a port that is watched already (R215). -/

namespace Sys2Proof.Machine

/-- A probe of port 0 is out while that port is already watched. -/
def probedWhileWatched : State := { State.reset with
  agree.probes := [(1, .port 0)]
  agree.watchAt := [(0, 5)] }

/-- A status line of the own job, in Summer. -/
def refutingLine : StatusLine :=
  ⟨0, 0, 0xFF, 0, jobTag probedWhileWatched, 0, 0, 0, 0, 0, 0⟩

/-- Refutes O36: a refuting answer about a port that is watched already logs nothing and leaves the watch as it was
(R215), while the statement has the link logged and the watch begun whenever the log is empty. -/
theorem not_heartbeatsSuspicionAndProbes : ¬ Obligations.HeartbeatsSuspicionAndProbes := by
  intro h
  obtain ⟨-, -, -, -, -, -, -, -, probed⟩ := h probedWhileWatched
  obtain ⟨-, refuted⟩ := probed 0 1 [] rfl (by decide +kernel)
  obtain ⟨t, ht, -, -, -, e, logged, -⟩ := refuted refutingLine
    rfl (by decide +kernel) rfl
  obtain rfl := Host.Outcome.next.inj ht
  have quiet : (probeAnswer { probedWhileWatched with agree.probes := [] } 1
      (.status refutingLine) (.port 0)).log.entries = [] := by
    decide +kernel
  exact absurd (quiet.symm.trans logged) (List.cons_ne_nil _ _).symm

end Sys2Proof.Machine

/-! PROOFS. Messages of the agreement, and a member's answers by ballot (R217, R220, R225, R247). -/

namespace Sys2Proof.Machine

/-! ### Messages of the agreement that reach the member (R217, R225) -/

theorem wakeCause_summer {s : State} (hs : s.power.season.get = 0) (hm : s.power.moving = false) : wakeCause s = s :=
  if_neg (by simp [hs, hm])

theorem agreeIn_summer {s : State} {m : AgreeMsg} (hl : s.ports.lkp = true) (hp : s.job.part.isSome = true)
    (ht : m.jobTag = jobTag s) (hs : s.power.season.get = 0) (hm : s.power.moving = false) (wakes : Bool)
    (f : State → State) : agreeIn s m wakes f = f s := by
  have here : ¬(m.jobTag ≠ jobTag s ∨ s.job.part.isNone = true) := by
    rintro (h | h)
    · exact h ht
    · rw [Option.isNone_iff_eq_none] at h
      simp [h] at hp
  have awake : ¬ s.power.season.get = 2 := by rw [hs]; decide
  rw [agreeIn, if_neg (by simp [hl]), if_neg here, wakeCause_summer hs hm, ite_self]
  exact if_neg awake

theorem inJob_own {s : State} {m : AgreeMsg} (h : ∃ p, s.job.plan = some p ∧ (planCove p m.cove).isSome = true)
    (f : State → State) : inJob s m f = f s := by
  obtain ⟨p, hp, hc⟩ := h
  simp only [inJob, hp, hc, if_true]

theorem agreeing_iff (s : State) : agreeing s = true ↔ s.agree.cove.isSome = true ∧ s.agree.state ≠ 0 ∧ s.agree.state ≠ 4 ∧
    s.agree.state ≠ 5 ∧ s.agree.withdrawn = false := by
  simp [agreeing, and_assoc]

theorem agreeing_of_own {s : State} {m : AgreeMsg} (h : OwnCoveMember s m) : agreeing s = true := by
  obtain ⟨-, -, -, -, -, hc, -, h0, h4, h5, hw⟩ := h
  exact (agreeing_iff s).mpr ⟨by simp [hc], h0, h4, h5, hw⟩

theorem memberMsg_own {s : State} {m : AgreeMsg} (h : OwnCoveMember s m) {ahead : Nat}
    (he : m.epoch.toNat ≤ (epochNow s).toNat + ahead) (f : State → State) : memberMsg s m ahead f = f s := by
  have acts := agreeing_of_own h
  obtain ⟨hl, hp, ht, hs, hm, hc, hj, h0, -, h5, hw⟩ := h
  have here : ¬(s.agree.cove ≠ some m.cove ∨ s.agree.state = agNone ∨ s.agree.state = agExcluded ∨ s.agree.withdrawn = true) := by
    simpa [hc, hw] using And.intro h0 h5
  rw [memberMsg, agreeIn_summer hl hp ht hs hm, inJob_own hj, if_neg here, if_neg (by omega), if_neg (by simp [acts])]

theorem sendAgreePos_present {s : State} (h : s.ports.lkp = true) (pos : Nat) (type : Byte) (epoch ballot arg : U32)
    (body : List Byte) : sendAgreePos s pos type epoch ballot arg body =
      appendOut s [toPosition s pos type epoch ballot arg body] :=
  sendTo_present h _ _ _ _

/-! ### O37 -/

/-- Settles O37, by the branches of PREPARE and ACCEPT. -/
theorem membersAnswerByBallot : Obligations.MembersAnswerByBallot := by
  intro s m own
  have lkp : s.ports.lkp = true := own.1
  have ahead (h : m.epoch.toNat = (epochNow s).toNat + 1) : ¬ m.epoch.toNat ≤ (epochNow s).toNat := by omega
  have prepared (h : m.epoch.toNat ≤ (epochNow s).toNat + 1) := memberMsg_own own h
  refine ⟨fun he idle higher => ?_, fun he low => ?_, fun he held busy higher => ?_, fun he none => ?_,
    fun i he found => ?_, fun he high => ?_, fun he low => ?_⟩
  · have answers : ¬(phaseNow s = phHeld ∧ ¬ foldIdle s = true) := fun ⟨h5, h⟩ => idle.elim (· h5) h
    refine ⟨_, congrArg Host.Outcome.next ((prepared (by omega) _).trans ((if_neg (ahead he)).trans
      ((if_pos higher).trans ((if_neg answers).trans (sendAgreePos_present (by exact lkp) _ _ _ _ _ _))))), rfl,
      fun none => ?_, fun a some => ?_⟩
    · simp only [promiseBody, none]
      rfl
    · simp only [promiseBody, some]
      rfl
  · exact ⟨_, congrArg Host.Outcome.next ((prepared (by omega) _).trans ((if_neg (ahead he)).trans
      ((if_neg (by omega)).trans (sendAgreePos_present lkp _ _ _ _ _ _)))), rfl⟩
  · exact ⟨_, congrArg Host.Outcome.next ((prepared (by omega) _).trans ((if_neg (ahead he)).trans
      ((if_pos higher).trans (if_pos ⟨held, by simp [busy]⟩)))), rfl⟩
  · have unheld : s.agree.installs.find? (fun i => i.epoch = m.epoch) = .none := by
      simpa [List.find?_eq_none] using none
    refine ⟨_, congrArg Host.Outcome.next ((prepared (by omega) _).trans (if_pos he)), ?_⟩
    simp only [unheld]
  · refine ⟨_, congrArg Host.Outcome.next ((prepared (by omega) _).trans (if_pos he)), ?_⟩
    simp only [found]
    exact sendAgreePos_present lkp _ _ _ _ _ _
  · exact ⟨_, congrArg Host.Outcome.next ((prepared (by omega) _).trans
      ((if_neg (by have := ahead he; omega)).trans (sendAgreePos_present (by exact lkp) _ _ _ _ _ _))), rfl⟩
  · exact ⟨_, congrArg Host.Outcome.next ((prepared (by omega) _).trans
      ((if_pos (.inr low)).trans (sendAgreePos_present lkp _ _ _ _ _ _))), rfl⟩

end Sys2Proof.Machine

/-! PROOFS. Suspicion, probes and the proposer's rounds (R213, R214, R221). -/

namespace Sys2Proof.Machine

/-! ### Positions as bits -/

theorem livePositions_sorted (s : State) : (livePositions s).Pairwise (· < ·) :=
  List.Pairwise.filter _ List.pairwise_lt_range

theorem mem_livePositions {s : State} {q : Nat} : q ∈ livePositions s ↔ (liveSet s).getLsbD q = true := mem_bitsOf

theorem getLsbD_maskOf (l : List Nat) {i : Nat} (hi : i < 16) : (maskOf 16 l).getLsbD i = decide (i ∈ l) := by
  induction l with
  | nil => simp [maskOf]
  | cons p t ih =>
    have bit : (BitVec.ofNat 16 (2 ^ p)).getLsbD i = decide (i = p) := by
      rw [BitVec.getLsbD_ofNat, Nat.testBit_two_pow, decide_eq_true hi, Bool.true_and]
      exact decide_eq_decide.2 eq_comm
    rw [maskOf, BitVec.getLsbD_or, ih, bit]
    simp

/-- The lowest live position not suspected lies below the own one where some such position does. -/
theorem lowest_below {s : State} {l : List Nat} {r : Nat} (hr : r < ownPos s) (live : (liveSet s).getLsbD r = true)
    (out : r ∉ l) : ∃ x, (livePositions s).find? (fun q => q ∉ l) = some x ∧ x ≠ ownPos s := by
  obtain ⟨x, hx⟩ : ∃ x, (livePositions s).find? (fun q => q ∉ l) = some x := by
    rw [← Option.isSome_iff_exists, List.find?_isSome]
    exact ⟨r, mem_livePositions.2 live, by simpa using out⟩
  refine ⟨x, hx, fun own => ?_⟩
  obtain ⟨-, before, after, split, unfit⟩ := List.find?_eq_some_iff_append.1 hx
  have sorted := livePositions_sorted s
  have mem : r ∈ before ++ x :: after := split ▸ mem_livePositions.2 live
  rw [split, List.pairwise_append] at sorted
  rcases List.mem_append.1 mem with hb | ha
  · simpa [out] using unfit r hb
  · rcases List.mem_cons.1 ha with rfl | ha
    · omega
    · have := (List.pairwise_cons.1 sorted.2.1).1 r ha
      omega

/-! ### Suspicion and its timer (R213, R221) -/

theorem startTimer_eq (s : State) :
    startTimer s = { s with agree.timerAt := some (s.agree.timerAt.getD (s.time.gtc + 300000)) } := by
  rw [startTimer]
  cases h : s.agree.timerAt with
  | none => rfl
  | some due => exact (if_pos rfl).trans (by rw [Option.getD_some, ← h])

/-- A member above the lowest position not suspected waits for the timer. -/
theorem evaluate_waits {s : State} (ha : agreeing s = true) (hl : ∀ x ∈ s.agree.suspects, (liveSet s).getLsbD x = true)
    (hn : s.agree.suspects ≠ []) {r : Nat} (hr : r < ownPos s) (live : (liveSet s).getLsbD r = true)
    (out : r ∉ s.agree.suspects) : evaluate s = startTimer s := by
  have kept : (s.agree.suspects.filter fun q => (liveSet s).getLsbD q) = s.agree.suspects := List.filter_eq_self.2 hl
  obtain ⟨x, hx, other⟩ := lowest_below hr live out
  rw [evaluate]
  simp only [kept]
  rw [if_neg (by simp [hn, ha])]
  simp only [hx, if_neg other]

/-! ### A round begun, and its probes (R221) -/

/-- The ballot of the next round. -/
def nextBallot (s : State) : U32 := BitVec.ofNat 32 ((s.agree.round + 1) * 256 + ownPos s)

/-- A member that has begun a round, with its own promise. -/
def roundBegun (s : State) : State := { s with
  agree.round := s.agree.round + 1
  agree.proposal := some
    { epoch := epochNow s + 1, ballot := nextBallot s, accepting := false,
      promises := [⟨ownPos s, s.agree.accepted, sealInfo s⟩], acceptedBy := [], nackMax := 0, answered := [ownPos s],
      live := 0, reason := 0, joining := noRank, since := s.time.gtc }
  agree.promised := nextBallot s
  agree.state := agChanging
  agree.retryAt := none }

theorem startProposal_begins {s : State} (hp : s.agree.proposal = none) (ha : agreeing s = true)
    (hb : s.agree.promised.toNat < (nextBallot s).toNat) (hi : phaseNow s = phHeld → foldIdle s = true)
    (hl : s.ports.lkp = true) : startProposal s = appendOut (roundBegun s)
      ((otherLive s).map fun q => toPosition s q 0x22 (epochNow s + 1) (nextBallot s) 0 []) := by
  have mine : (decide (s.agree.promised.toNat < (nextBallot s).toNat) && (decide (phaseNow s ≠ phHeld) || foldIdle s)) = true := by
    by_cases h5 : phaseNow s = phHeld
    · simp [hb, hi h5]
    · rw [decide_eq_true hb, decide_eq_true h5]
      rfl
  have began : startProposal s = forEach (otherLive (roundBegun s))
      (fun u q => sendAgreePos u q 0x22 (epochNow u + 1) (nextBallot s) 0 []) (roundBegun s) := by
    rw [startProposal, if_neg (by simp [hp, ha])]
    simp only [nextBallot] at mine
    dsimp only
    split
    · rfl
    · next h => exact absurd mine h
  rw [began]
  exact forEach_sends (g := fun (u : State) (q : Nat) => toPosition u q 0x22 (epochNow u + 1) (nextBallot s) 0 []) _
    (fun u q hu => sendAgreePos_present hu ..) (fun _ _ _ => rfl) hl

/-- Probes of several positions, each for a reason of its own that no probe outstanding has. -/
theorem forEach_probes (why : Nat → ProbeWhy) (hw : Function.Injective why) (l : List Nat) (hd : l.Nodup) {s : State}
    (hn : ∀ q ∈ l, ∀ p ∈ s.agree.probes, p.2 ≠ why q) (hl : s.ports.lkp = true) :
    ∃ cnt, forEach l (fun u q => probePos u q (why q)) s = appendOut { s with
      cnt := cnt, agree.probes := s.agree.probes ++ l.map fun q => (rankAt s (ownCoveId s) q, why q) }
      (l.map fun q => .probe (rankAt s (ownCoveId s) q)) := by
  induction l generalizing s with
  | nil => exact ⟨s.cnt, by simp [forEach, appendOut_nil]⟩
  | cons q t ih =>
    have fresh : ¬ (s.agree.probes.any fun p => decide (p.2 = why q)) = true := by
      simpa using fun x h => hn q List.mem_cons_self (x, why q) h rfl
    obtain ⟨cnt, sent⟩ : ∃ cnt, probePos s q (why q) = { s with
        out := { s.out with lkp := s.out.lkp ++ [.probe (rankAt s (ownCoveId s) q)] }
        agree := { s.agree with probes := s.agree.probes ++ [(rankAt s (ownCoveId s) q, why q)] }, cnt := cnt } :=
      ⟨_, (if_neg fresh).trans (if_pos hl)⟩
    obtain ⟨notin, nodup⟩ := List.nodup_cons.1 hd
    obtain ⟨cnt', rest⟩ := ih nodup (s := probePos s q (why q)) (by
      rw [sent]
      intro x hx p hp
      rcases List.mem_append.1 hp with hp | hp
      · exact hn x (List.mem_cons_of_mem _ hx) p hp
      · rw [List.mem_singleton.1 hp]
        exact fun e => notin (hw e ▸ hx)) (by rw [sent]; exact hl)
    refine ⟨cnt', ?_⟩
    rw [show forEach (q :: t) (fun u q => probePos u q (why q)) s =
      forEach t (fun u q => probePos u q (why q)) (probePos s q (why q)) from rfl, rest, sent]
    simp only [appendOut, List.map_cons, List.append_assoc, List.singleton_append]
    rfl

/-- The lower live positions that are not confirmed lost. -/
def lowerProbed (s : State) : List Nat :=
  ((livePositions s).filter fun q => q < ownPos s).filter fun q => q ∉ s.agree.confirmed

/-- The suspects that are neither confirmed lost nor lower live positions. -/
def suspectsProbed (s : State) : List Nat :=
  s.agree.suspects.filter fun q => q ∉ s.agree.confirmed ∧ q ∉ (livePositions s).filter fun q => q < ownPos s

theorem proposeTimer_due {s : State} {due : U64} {r : Nat} (ha : agreeing s = true) (hd : s.agree.timerAt = some due)
    (hn : due.toNat ≤ s.time.gtc.toNat) (hs : s.agree.suspects ≠ []) (hp : s.agree.proposal = none) (hr : r < ownPos s)
    (live : (liveSet s).getLsbD r = true) (out : r ∉ s.agree.confirmed) :
    exec .proposeTimer s = .next (startTimer (forEach (suspectsProbed s) (fun u q => probePos u q (.suspicion q))
      (forEach (lowerProbed s) (fun u q => probePos u q (.lower q)) { s with agree.timerAt := none }))) := by
  have low : r ∈ (livePositions s).filter fun q => q < ownPos s := by simp [mem_livePositions, live, hr]
  have some_low : ¬ ((livePositions s).filter fun q => q < ownPos s) = [] := List.ne_nil_of_mem low
  have unsure : ¬ (((livePositions s).filter fun q => q < ownPos s).all fun q => q ∈ s.agree.confirmed) = true :=
    fun all => out (by simpa using List.all_eq_true.1 all r low)
  have probes : ¬((!agreeing { s with agree.timerAt := none }) = true ∨ s.agree.suspects = [] ∨
      s.agree.proposal.isSome = true) := by
    rw [show agreeing { s with agree.timerAt := none } = true from ha]
    simp [hs, hp]
  refine congrArg Host.Outcome.next ?_
  simp only [hd]
  exact (if_pos hn).trans ((if_neg probes).trans ((if_neg some_low).trans (if_neg unsure)))

/-! ### The end of a round (R221) -/

theorem reachable_unanswered {s : State} {p : Proposal} {u : Nat} (live : (liveSet s).getLsbD u = true)
    (other : u ≠ ownPos s) (sure : u ∉ s.agree.confirmed) (out : u ∉ p.answered) : allAnswered s p = false := by
  rw [allAnswered, List.all_eq_false]
  exact ⟨u, by simp [reachable, mem_livePositions, live, sure], by simp [other, out]⟩

/-- A proposer that still waits for an answer keeps what it has. -/
theorem proposalStep_waits {s : State} {p : Proposal} (hp : s.agree.proposal = some p) (hw : allAnswered s p = false) :
    proposalStep s = s := by
  simp only [proposalStep, hp]
  exact if_neg (by simp [hw])

theorem best_of_none {l : List Promised} (h : ∀ r ∈ l, r.acc = none) :
    l.foldl (fun (b : Option Accepted) q =>
      match b, q.acc with
      | some x, some y => if x.ballot.toNat < y.ballot.toNat then some y else some x
      | none, some y => some y
      | b, none => b) none = none := by
  induction l with
  | nil => rfl
  | cons r t ih =>
    rw [List.foldl_cons, h r List.mem_cons_self]
    exact ih fun r hr => h r (List.mem_cons_of_mem _ hr)

/-- Confirmed losses of the live set. -/
def lostHere (s : State) : List Nat := s.agree.confirmed.filter fun q => (liveSet s).getLsbD q

theorem proposedView_loss {s : State} {p : Proposal} (h : ∀ r ∈ p.promises, r.acc = none)
    (hl : ∃ q ∈ s.agree.confirmed, (liveSet s).getLsbD q = true) :
    proposedView s p = (liveSet s &&& ~~~(maskOf 16 (lostHere s)), 0, noRank) := by
  obtain ⟨q, hq, live⟩ := hl
  have some_lost : lostHere s ≠ [] := List.ne_nil_of_mem (List.mem_filter.2 ⟨hq, live⟩)
  have none := best_of_none h
  simp only [proposedView]
  split
  · next a ha => exact absurd (ha.symm.trans none) (by simp)
  · split
    · next hnil _ => exact absurd hnil some_lost
    · rfl

/-- The state of a proposer that puts a view to the members, with its own acceptance where it has promised no more. -/
def viewPut (s : State) (p : Proposal) (live : U16) (reason joining : U32) : State :=
  let mine := decide (s.agree.promised.toNat ≤ p.ballot.toNat)
  { s with agree := { s.agree with
      proposal := some { p with
        accepting := true, live := live, reason := reason, joining := joining, answered := [ownPos s],
        acceptedBy := if mine then [ownPos s] else [], since := s.time.gtc }
      promised := if mine then p.ballot else s.agree.promised
      accepted := if mine then some ⟨p.ballot, live, reason, joining⟩ else s.agree.accepted } }

theorem endPrepare_accepts {s : State} {p : Proposal} {live : U16} {reason joining : U32}
    (hq : ¬ p.promises.length < quorum s) (hv : proposedView s p = (live, reason, joining)) (hl : s.ports.lkp = true) :
    endPrepare s p = appendOut (viewPut s p live reason joining)
      ((otherLive s).map fun q => toPosition s q 0x24 (epochNow s + 1) p.ballot reason (acceptBody live joining)) := by
  rw [endPrepare, if_neg hq, hv]
  exact forEach_sends (g := fun (u : State) (q : Nat) =>
      toPosition u q 0x24 (epochNow u + 1) p.ballot reason (acceptBody live joining)) _
    (fun u q hu => sendAgreePos_present hu ..) (fun _ _ _ => rfl) (by exact hl)

/-! ### O38 -/

theorem next_proposeWait {s : State} {p : Proposal} (hp : s.agree.proposal = some p) (ha : agreeing s = true)
    (hd : p.since.toNat + 50000 ≤ s.time.gtc.toNat) (hq : p.accepting = false) :
    exec .proposeWait s = .next (endPrepare s p) := by
  refine congrArg Host.Outcome.next ?_
  simp only [hp]
  exact (if_pos ⟨ha, hd⟩).trans (if_neg (by simp [hq]))

theorem suspecting_ne {state other : BitVec 3} (h : state ≠ other) (h2 : 2 ≠ other) :
    (if state = 1 then 2 else state) ≠ other := by
  split_ifs
  · exact h2
  · exact h

theorem suspect_waits {s : State} {m : AgreeMsg} {r : Nat} (own : OwnCoveMember s m)
    (hm : m.sender = 0xFF ∨ m.epoch = epochNow s) (he : m.epoch.toNat ≤ (epochNow s).toNat)
    (live : (liveSet s).getLsbD m.arg.toNat = true) (other : m.arg.toNat ≠ ownPos s) (hr : r < ownPos s)
    (hrq : r ≠ m.arg.toNat) (liver : (liveSet s).getLsbD r = true) (out : r ∉ s.agree.suspects)
    (all : ∀ x ∈ s.agree.suspects, (liveSet s).getLsbD x = true) :
    Ends (.suspect m) s fun t => t = { s with agree := { s.agree with
      suspects := addNew m.arg.toNat s.agree.suspects
      firstSuspicion := some (s.agree.firstSuspicion.getD s.time.gtc)
      state := if s.agree.state = 1 then 2 else s.agree.state
      timerAt := some (s.agree.timerAt.getD (s.time.gtc + 300000)) } } := by
  have acts := agreeing_of_own own
  have taken : ¬(m.sender ≠ 0xFF ∧ m.epoch ≠ epochNow s) := fun ⟨h1, h2⟩ => hm.elim h1 h2
  have agrees : agreeing { s with agree := { s.agree with
      suspects := addNew m.arg.toNat s.agree.suspects
      firstSuspicion := some (s.agree.firstSuspicion.getD s.time.gtc)
      state := if s.agree.state = 1 then 2 else s.agree.state } } = true := by
    rw [agreeing_iff] at acts ⊢
    obtain ⟨hc, h0, h4, h5, hw⟩ := acts
    exact ⟨hc, suspecting_ne h0 (by decide), suspecting_ne h4 (by decide), suspecting_ne h5 (by decide), hw⟩
  have mem_add (x : Nat) : x ∈ addNew m.arg.toNat s.agree.suspects ↔ x ∈ s.agree.suspects ∨ x = m.arg.toNat := by
    rw [addNew]
    split
    · next h => exact ⟨.inl, fun hx => hx.elim id (· ▸ h)⟩
    · simp
  refine ⟨_, congrArg Host.Outcome.next ((memberMsg_own own (by omega) _).trans ((if_neg taken).trans
    ((if_neg (by simp [other, acts, live])).trans ((evaluate_waits agrees (fun x hx => ?_)
      (List.ne_nil_of_mem (mem_addNew _ _)) hr liver ?_).trans (startTimer_eq _))))), rfl⟩
  · rcases (mem_add x).1 hx with h | rfl
    · exact all x h
    · exact live
  · rw [mem_add]
    simp [out, hrq]

theorem proposeTimer_probes {s : State} {due : U64} {r : Nat} (ha : agreeing s = true) (hl : s.ports.lkp = true)
    (hd : s.agree.timerAt = some due) (hn : due.toNat ≤ s.time.gtc.toNat) (hs : s.agree.suspects ≠ [])
    (hp : s.agree.proposal = none) (unprobed : s.agree.probes = []) (nodup : s.agree.suspects.Nodup) (hr : r < ownPos s)
    (live : (liveSet s).getLsbD r = true) (out : r ∉ s.agree.confirmed) :
    ∃ probes cnt, exec .proposeTimer s = .next (appendOut { s with
        agree := { s.agree with timerAt := some (s.time.gtc + 300000), probes := probes }, cnt := cnt }
      ((lowerProbed s ++ suspectsProbed s).map fun q => .probe (rankAt s (ownCoveId s) q))) := by
  have sorted : (lowerProbed s).Nodup :=
    (List.Pairwise.imp (fun h => Nat.ne_of_lt h) (livePositions_sorted s)).filter _ |>.filter _
  obtain ⟨c1, lows⟩ := forEach_probes .lower (fun _ _ h => ProbeWhy.lower.inj h) (lowerProbed s) sorted
    (s := { s with agree.timerAt := none }) (by simp [unprobed]) hl
  obtain ⟨c2, sus⟩ := forEach_probes .suspicion (fun _ _ h => ProbeWhy.suspicion.inj h) (suspectsProbed s) (nodup.filter _)
    (s := forEach (lowerProbed s) (fun u q => probePos u q (.lower q)) { s with agree.timerAt := none }) (by
      rw [lows]
      simp [appendOut, unprobed]) (by rw [lows]; exact hl)
  refine ⟨?_, ?_, (proposeTimer_due ha hd hn hs hp hr live out).trans (congrArg Host.Outcome.next ?_)⟩
  rotate_left 2
  · rw [sus, lows, startTimer_eq, List.map_append]
    simp only [appendOut, ← List.append_assoc]
    rfl

/-- Settles O38, clause by clause: a suspicion that waits, the timer's probes, a round begun, and what ends it. -/
theorem proposersFollowTheRounds : Obligations.ProposersFollowTheRounds := by
  intro s
  refine ⟨fun m q r own arg hm he live other hr hrq liver out all => ?_, fun hc h0 h4 h5 hw lkp => ?_⟩
  · subst arg
    exact suspect_waits own hm he live other hr hrq liver out all
  have acts : agreeing s = true := (agreeing_iff s).2 ⟨hc, h0, h4, h5, hw⟩
  have ballot (small : (s.agree.round + 1) * 256 + ownPos s < 2 ^ 32) :
      (nextBallot s).toNat = (s.agree.round + 1) * 256 + ownPos s := Nat.mod_eq_of_lt small
  refine ⟨fun due r hd hn hs hp unprobed nodup hr live out => ?_, fun hp low small => ?_, fun p hp => ⟨?_, ?_, ?_, ?_⟩⟩
  · obtain ⟨probes, cnt, run⟩ := proposeTimer_probes acts lkp hd hn hs hp unprobed nodup hr live out
    refine ⟨_, run, rfl, ?_⟩
    have lows : lowerProbed s = (List.range 16).filter fun q =>
        (liveSet s).getLsbD q && decide (q < ownPos s) && decide (q ∉ s.agree.confirmed) := by
      rw [lowerProbed, livePositions, bitsOf, List.filter_filter, List.filter_filter]
      refine List.filter_congr fun q _ => ?_
      ac_rfl
    have sus : suspectsProbed s = s.agree.suspects.filter fun q => decide (q ∉ s.agree.confirmed) &&
        !((liveSet s).getLsbD q && decide (q < 16 ∧ q < ownPos s)) := by
      refine List.filter_congr fun q _ => ?_
      rw [Bool.eq_iff_iff]
      simp only [decide_eq_true_eq, Bool.and_eq_true, Bool.not_eq_true', Bool.and_eq_false_imp, List.mem_filter,
        mem_livePositions, decide_eq_false_iff_not]
      refine and_congr_right fun _ => ⟨fun h hl hq => h ⟨hl, hq.2⟩, fun h hq => h hq.1 ⟨?_, hq.2⟩⟩
      exact List.mem_range.1 (List.mem_filter.1 (mem_livePositions.2 hq.1)).1
    rw [List.map_append, lows, sus]
    exact (List.append_assoc ..).symm
  · replace ballot := ballot small
    refine ⟨?_, fun due cap held idle none => ?_⟩
    · rintro ⟨due, hr, hd⟩ free
      have run : exec .retryWait s = .next (appendOut (roundBegun { s with agree.retryAt := none })
          ((otherLive s).map fun q => toPosition s q 0x22 (epochNow s + 1) (nextBallot s) 0 [])) := by
        refine congrArg Host.Outcome.next ?_
        simp only [hr]
        exact (if_pos hd).trans (startProposal_begins (s := { s with agree.retryAt := none }) hp acts
          (ballot ▸ low) (fun h => absurd h free) lkp)
      exact ⟨_, run, rfl, rfl, rfl, rfl, rfl, rfl, rfl, rfl, _, rfl, rfl, rfl, ballot, rfl, rfl⟩
    · refine ⟨_, congrArg Host.Outcome.next ((if_pos ⟨due, cap, acts, held, idle, by simp [none]⟩).trans
        (startProposal_begins (s := { s with agree.wishes := s.agree.wishes ++ [(16, 0, noRank)] }) hp acts
          (ballot ▸ low) (fun _ => idle) lkp)), rfl, by simp [none, appendOut, roundBegun, noRank], rfl, rfl, rfl, rfl, rfl⟩
  · intro early
    refine ⟨_, congrArg Host.Outcome.next ?_, rfl⟩
    simp only [hp]
    exact if_neg fun h => by omega
  · intro late preparing few
    exact ⟨_, (next_proposeWait hp acts late preparing).trans (congrArg Host.Outcome.next
      (if_pos (Nat.lt_succ_of_le few))), rfl⟩
  · intro late preparing many fresh lost
    refine ⟨_, (next_proposeWait hp acts late preparing).trans (congrArg Host.Outcome.next
      (endPrepare_accepts (Nat.not_lt.2 many) (proposedView_loss fresh lost) lkp)),
      liveSet s &&& ~~~(maskOf 16 (lostHere s)), fun i hi => ?_, rfl, rfl, rfl, rfl, _, rfl, rfl, rfl, rfl, rfl⟩
    rw [BitVec.getLsbD_and, BitVec.getLsbD_not, getLsbD_maskOf _ hi, decide_eq_true hi, Bool.true_and]
    cases h : (liveSet s).getLsbD i <;> simp [lostHere, h]
  · intro m u own he hb hm live out liveu other sure unanswered diff
    have waits (p' : Proposal) (ha : p'.answered = p.answered ++ [m.sender.toNat]) :
        proposalStep { s with agree.proposal := some p' } = { s with agree.proposal := some p' } :=
      proposalStep_waits rfl (reachable_unanswered (u := u) liveu other sure (by simp [ha, unanswered, diff]))
    refine ⟨fun preparing arg => ?_, fun accepting => ?_, ?_⟩
    · refine ⟨_, congrArg Host.Outcome.next (memberMsg_own own hm _), ?_⟩
      simp only [hp]
      refine (if_neg (by simp [preparing, hb, he, out, live])).trans ?_
      rw [if_pos arg]
      exact waits _ rfl
    · refine ⟨_, congrArg Host.Outcome.next (memberMsg_own own hm _), ?_⟩
      simp only [hp]
      exact (if_neg (by simp [accepting, hb, he, out, live])).trans (waits _ rfl)
    · refine ⟨_, congrArg Host.Outcome.next (memberMsg_own own hm _), ?_⟩
      simp only [hp]
      refine (if_neg (by simp [hb, he])).trans ?_
      rw [addNew, if_neg out]
      exact waits _ rfl

end Sys2Proof.Machine

/-! PROOFS. Views installed, quorums lost and aborts passed on (R20, R220, R223 to R225, R228, R247). -/

namespace Sys2Proof.Machine

/-! ### Ending pending commands (R20, R224, R225) -/

theorem raiseEvent_stat (s : State) (code arg : Byte) : ∃ o, (raiseEvent s code arg).stat = { s.stat with evtOvf := o } := by
  simp only [raiseEvent]
  split_ifs
  · exact ⟨_, rfl⟩
  · exact ⟨_, rfl⟩
  · exact ⟨_, rfl⟩
  · exact ⟨_, rfl⟩

/-- An answer touches nothing of the status fields but the count of lost events. -/
theorem respond_stat (s : State) (mb : Fin 8) (status detail : Nat) (results : List (Nat × Nat × Nat)) :
    ∃ o, (respond s mb status detail results).stat = { s.stat with evtOvf := o } := by
  rw [respond]
  split
  · rw [mbDoneEvent]
    split
    · exact raiseEvent_stat ..
    · exact ⟨_, rfl⟩
  · exact ⟨_, rfl⟩

theorem respondOpt_none (s : State) (status detail : Nat) : respondOpt s none status detail = s := rfl

theorem endSeal_idle {s : State} (h : s.tide.mailbox = none) (status detail : Nat) : endSeal s status detail = s := by
  simp only [endSeal, h]

/-- What the answers to the commands that a loss ends leave as it is. -/
theorem endPending_frame (s : State) (status detail : Nat) (k : StopKind) :
    (endPending s status detail k).agree = s.agree ∧ (endPending s status detail k).cap = s.cap ∧
    (endPending s status detail k).mem = s.mem ∧ (endPending s status detail k).fold = s.fold ∧
    (endPending s status detail k).job = s.job ∧ (endPending s status detail k).digests = s.digests ∧
    (endPending s status detail k).tide.slot = s.tide.slot ∧ (endPending s status detail k).tide.phase = s.tide.phase := by
  have sealEnd : (endSeal s status detail).agree = s.agree ∧ (endSeal s status detail).cap = s.cap ∧
      (endSeal s status detail).mem = s.mem ∧ (endSeal s status detail).fold = s.fold ∧
      (endSeal s status detail).job = s.job ∧ (endSeal s status detail).digests = s.digests ∧
      (endSeal s status detail).tide.slot = s.tide.slot ∧ (endSeal s status detail).tide.phase = s.tide.phase := by
    rw [endSeal]
    split
    · simp
    · simp
  simpa [endPending, stopRuns] using sealEnd

/-- The answers to the commands of which one may wait at a loss, each ended. -/
def drainEnded (s : State) (status detail : Nat) : State :=
  respondOpt { s with stat.drainMb := none } s.stat.drainMb status detail

def suspendEnded (s : State) (status detail : Nat) : State :=
  respondOpt { s with stat.suspendMb := none } s.stat.suspendMb status detail

def formEnded (s : State) (status detail : Nat) : State :=
  respondOpt { s with tide.forming := none } s.tide.forming.join status detail

def resumeEnded (s : State) (status detail : Nat) : State :=
  respondOpt { s with tide.resuming := none } s.tide.resuming.join status detail

theorem endPending_eq (s : State) (status detail : Nat) (k : StopKind) : endPending s status detail k =
    stopRuns (resumeEnded (formEnded (suspendEnded (drainEnded (endSeal s status detail) status detail) status detail)
      status detail) status detail) k := rfl

theorem drainEnded_idle {s : State} (h : s.stat.drainMb = none) (status detail : Nat) : drainEnded s status detail = s := by
  rw [drainEnded, h, respondOpt_none, ← h]

theorem suspendEnded_idle {s : State} (h : s.stat.suspendMb = none) (status detail : Nat) :
    suspendEnded s status detail = s := by
  rw [suspendEnded, h, respondOpt_none, ← h]

theorem formEnded_idle {s : State} (h : s.tide.forming = none) (status detail : Nat) : formEnded s status detail = s := by
  rw [formEnded, h, Option.join_none, respondOpt_none, ← h]

theorem resumeEnded_idle {s : State} (h : s.tide.resuming = none) (status detail : Nat) :
    resumeEnded s status detail = s := by
  rw [resumeEnded, h, Option.join_none, respondOpt_none, ← h]

theorem endPending_idle {s : State} (hm : s.tide.mailbox = none) (hd : s.stat.drainMb = none)
    (hs : s.stat.suspendMb = none) (hf : s.tide.forming = none) (hr : s.tide.resuming = none) (status detail : Nat)
    (k : StopKind) : endPending s status detail k = stopRuns s k := by
  rw [endPending_eq, endSeal_idle hm, drainEnded_idle hd, suspendEnded_idle hs, formEnded_idle hf, resumeEnded_idle hr]

theorem endPending_endSeal (s : State) (status detail : Nat) (k : StopKind) :
    endPending (endSeal s status detail) status detail k = endPending s status detail k := by
  have none : (endSeal s status detail).tide.mailbox = none := by
    cases h : s.tide.mailbox with
    | none => rw [endSeal_idle h, h]
    | some mb => rw [endSeal_pending h, respond_tide]
  have again : endSeal (endSeal s status detail) status detail = endSeal s status detail := endSeal_idle none _ _
  rw [endPending, again]
  rfl

/-- With nothing else to answer, the seal's command is answered and what runs is told to stop. -/
theorem endPending_sealOnly {s : State} {mb : Fin 8} (hm : s.tide.mailbox = some mb) (hd : s.stat.drainMb = none)
    (hs : s.stat.suspendMb = none) (hf : s.tide.forming = none) (hr : s.tide.resuming = none) (status detail : Nat)
    (k : StopKind) : endPending s status detail k =
      stopRuns (respond { s with tide.mailbox := none } mb status detail (sealResults s 0)) k := by
  obtain ⟨o, stat⟩ := respond_stat { s with tide.mailbox := none } mb status detail
    (sealResults s 0)
  rw [← endPending_endSeal, endSeal_pending hm]
  refine endPending_idle ?_ ?_ ?_ ?_ ?_ _ _ _
  · rw [respond_tide]
  · rw [stat]; exact hd
  · rw [stat]; exact hs
  · rw [respond_tide]; exact hf
  · rw [respond_tide]; exact hr

theorem abandonShadow_none {s : State} (h : s.recov.shadow = none) (detail : Nat) : abandonShadow s detail = s := by
  simp only [abandonShadow, h]

/-- A member that is leaving the agreement, before its commands are answered. -/
def barredOut (s : State) (removed : U16) : State := { s with
  agree := { s.agree with
    state := agExcluded, proposal := none, wishes := [], timerAt := none, retryAt := none, suspects := [],
    confirmed := [], firstSuspicion := none, removed := removed }
  job := { s.job with state := 4, former := s.agree.cove.map fun c => (c, ownPos s) }
  cap := { s.cap with barred := true }
  recov := { s.recov with rollingBack := false, handover := none, hoKnown := none, asked := none } }

/-- A member that a view omits is EXCLUDED, its seal state, memory and digests kept. -/
theorem exclude_fields {s : State} (h : s.recov.shadow = none) (removed : U16) :
    (exclude s removed).agree.state = 5 ∧ (exclude s removed).job.state = 4 ∧
    (exclude s removed).cap = { s.cap with barred := true } ∧ (exclude s removed).agree.proposal = none ∧
    (exclude s removed).agree.epoch = s.agree.epoch ∧ (exclude s removed).agree.live = s.agree.live ∧
    (exclude s removed).mem = s.mem ∧ (exclude s removed).fold = s.fold ∧ (exclude s removed).tide.slot = s.tide.slot ∧
    (exclude s removed).tide.phase = s.tide.phase ∧ (exclude s removed).digests = s.digests := by
  have ends : exclude s removed = refreshStatusLine (endPending (barredOut s removed) stLostMember removed.toNat .lost) :=
    congrArg (fun u => refreshStatusLine (endPending u stLostMember removed.toNat .lost))
      (abandonShadow_none (s := barredOut s removed) h _)
  obtain ⟨agree, cap, mem, fold, job, digests, slot, phase⟩ :=
    endPending_frame (barredOut s removed) stLostMember removed.toNat .lost
  obtain ⟨line, hline⟩ := refreshStatusLine_fields (endPending (barredOut s removed) stLostMember removed.toNat .lost)
  rw [ends, hline]
  simp only [agree, cap, mem, fold, job, digests, slot, phase]
  exact ⟨rfl, rfl, rfl, rfl, rfl, rfl, rfl, rfl, rfl, rfl, rfl⟩

/-! ### INSTALL at a member (R220, R223) -/

/-- The agreement unit of a member without suspects, once a view is in force. -/
structure CalmView (s : State) (m : AgreeMsg) (view : U16) (a : AgreeS) : Prop where
  epoch : a.epoch = V3.all m.epoch
  live : a.live = V3.all view
  promised : a.promised = 0
  accepted : a.accepted = none
  proposal : a.proposal = none
  installs : a.installs = s.agree.installs ++ [m]
  state : a.state = 1
  suspects : a.suspects = []
  wishes : a.wishes = []
  cove : a.cove = s.agree.cove
  position : a.position = s.agree.position
  posRank : a.posRank = s.agree.posRank
  moved : a.moved = s.agree.moved

theorem takeView_calm {s : State} (hs : s.agree.suspects = []) (hw : s.agree.wishes = []) (m : AgreeMsg) (live : U16)
    (joining : U32) : ∃ agree, takeView s m live joining = { s with agree := agree } ∧ CalmView s m live agree := by
  refine ⟨_, rfl, ?_⟩
  constructor <;> simp [hs, hw]

/-- The view is in force and what the member was doing begins anew (R223). -/
def viewBegun (s : State) (m : AgreeMsg) (live : U16) (joining : U32) : State :=
  restartActions (dropStaged (takeView s m live joining))

theorem viewBegun_calm {s : State} (hs : s.agree.suspects = []) (hw : s.agree.wishes = []) (ht : s.recov.target = false)
    (m : AgreeMsg) (live : U16) (joining : U32) : ∃ tier agree waiting, viewBegun s m live joining = { s with
      tier := tier, agree := agree, recov := { s.recov with groupsLeft := [], restartAt := [], waiting := waiting } } ∧
      CalmView s m live agree ∧ (s.recov.waiting = [] → waiting = []) := by
  obtain ⟨agree, taken, calm⟩ := takeView_calm hs hw m live joining
  rw [viewBegun, taken]
  refine ⟨_, agree, _, if_neg (by rw [Bool.not_eq_true]; exact ht), calm, fun h => ?_⟩
  show List.filter _ s.recov.waiting = []
  rw [h]
  rfl

theorem supplyTargets_whole {s : State} (h : s.recov.lost.get = 0) : supplyTargets s = s := by
  have none : lostPositions s = [] := by simp [lostPositions, h, bitsOf]
  rw [supplyTargets, none]
  exact ite_self _

theorem supplyTargets_idle {s : State} (h : s.tide.phase.get ≠ 5 ∨ s.recov.lost.get = 0) : supplyTargets s = s := by
  rcases h with h | h
  · exact if_neg fun ⟨held, _⟩ => h held
  · exact supplyTargets_whole h

/-- A change of the seal root at a member that is no captain only sends. -/
theorem rootChanged_of_member {s : State} (hc : isCaptain s = false) (hl : s.ports.lkp = true) (before : Nat) :
    ∃ xs, rootChanged s before = appendOut s xs := by
  rw [rootChanged]
  split
  · exact ⟨[], (appendOut_nil s).symm⟩
  · rw [if_neg (by simp [hc]), handDecision]
    split
    · split
      · exact ⟨[], (appendOut_nil s).symm⟩
      · exact ⟨_, sendSeal_present hl ..⟩
    · exact ⟨_, sendSeal_present hl ..⟩
    · exact ⟨[], (appendOut_nil s).symm⟩

/-- A calm member that is no captain tells the captain what it knows of the seal, and no more (R223). -/
theorem afterInstall_of_member {s : State} (hl : s.ports.lkp = true) (hc : s.agree.cove.isSome = true)
    (h5 : s.agree.state ≠ 5) (hcap : captainOf (liveSet s) ≠ ownPos s) (hw : s.agree.wishes = [])
    (hs : s.agree.suspects = []) : afterInstall s = appendOut s
      [toPosition s (captainOf (liveSet s)) 0x28 (epochNow s) 0 0 (sealInfo s)] := by
  have sent : sendInstalled s = appendOut s [toPosition s (captainOf (liveSet s)) 0x28 (epochNow s) 0 0 (sealInfo s)] :=
    (if_neg hcap).trans (sendAgreePos_present hl ..)
  obtain ⟨u, hu⟩ : ∃ u, u = appendOut s [toPosition s (captainOf (liveSet s)) 0x28 (epochNow s) 0 0 (sealInfo s)] :=
    ⟨_, rfl⟩
  have uagree : u.agree = s.agree := by rw [hu]; rfl
  have member : isCaptain u = false := by
    rw [isCaptain_of_agree (s := s) (by rw [uagree]) (by rw [uagree]) (by rw [uagree])]
    simp [isCaptain, hcap]
  have report : lossReport u = u := if_pos (by simp [member])
  have calmed : evaluate u = u := by
    have none : u.agree.suspects = [] := by rw [uagree, hs]
    simp only [evaluate, none, List.filter_nil, true_or, if_true]
    rw [← none]
  rw [afterInstall, if_neg (by simpa [Option.isNone_iff_eq_none, Option.isSome_iff_ne_none.1 hc] using h5), sent, ← hu]
  dsimp only
  rw [report, if_neg (by simp [uagree, hw]), calmed]

/-- What a view's installation ends with: waiting repairs, and a change of the seal root. -/
def viewEnds (s : State) (before : Nat) : State :=
  let t := if agreeing s then serveWaiting (supplyTargets s) else s
  refreshStatusLine (if agreeing t then rootChanged t before else t)

/-- What a view's reason asks for. -/
def viewReason (s : State) (gone added : U16) (reason : Nat) (joining : U32) : State :=
  let t := if gone ≠ 0 ∧ reason = 0 then installLoss s gone else s
  if joining ≠ noRank ∧ added ≠ 0 then installJoin t ((bitsOf 16 added).headD 0) joining.toNat
  else if reason = 1 then installHandover t joining.toNat
  else if gone = 0 then installRenewal t
  else t

theorem installView_eq (s : State) (m : AgreeMsg) (live : U16) (joining : U32) : installView s m live joining =
    viewEnds (viewReason (viewBegun s m live joining) (liveSet s &&& ~~~live) (live &&& ~~~liveSet s) m.arg.toNat joining)
      (captainOf (liveSet s)) := rfl

theorem viewReason_renewal {reason : Nat} (h : reason ≠ 1) (s : State) (added : U16) :
    viewReason s 0 added reason noRank = installRenewal s := by
  have unlost : ¬((0 : U16) ≠ 0 ∧ reason = 0) := fun ⟨h, _⟩ => h rfl
  have unjoined : ¬(noRank ≠ noRank ∧ added ≠ 0) := fun ⟨h, _⟩ => h rfl
  rw [viewReason, if_neg unlost, if_neg unjoined, if_neg h, if_pos rfl]

theorem viewReason_loss {gone : U16} (h : gone ≠ 0) (s : State) (added : U16) :
    viewReason s gone added 0 noRank = installLoss s gone := by
  have unjoined : ¬(noRank ≠ noRank ∧ added ≠ 0) := fun ⟨h, _⟩ => h rfl
  have lost : gone ≠ 0 ∧ 0 = 0 := ⟨h, rfl⟩
  rw [viewReason, if_neg unjoined, if_neg (by decide), if_neg h, if_pos lost]

theorem viewEnds_idle {s : State} (hh : s.tide.phase.get ≠ 5 ∨ s.recov.lost.get = 0) (hw : s.recov.waiting = [])
    (hc : isCaptain s = false) (hl : s.ports.lkp = true) (before : Nat) :
    ∃ xs, viewEnds s before = refreshStatusLine (appendOut s xs) ∧ (captainOf (liveSet s) = before → xs = []) := by
  have served : serveWaiting (supplyTargets s) = s := by rw [supplyTargets_idle hh, serveWaiting_none hw]
  rw [viewEnds]
  simp only [served, ite_self]
  by_cases root : captainOf (liveSet s) = before
  · have same : rootChanged s before = s := if_pos (Or.inr root)
    exact ⟨[], by rw [same, ite_self, appendOut_nil], fun _ => rfl⟩
  · obtain ⟨xs, hxs⟩ := rootChanged_of_member hc hl before
    rw [hxs]
    split
    · exact ⟨xs, rfl, fun h => absurd h root⟩
    · exact ⟨[], by rw [appendOut_nil], fun _ => rfl⟩

/-! ### A renewal (R247) -/

/-- What a renewal leaves of a member without losses. -/
theorem installRenewal_fields (s : State) : ∃ agree tide fold,
    installRenewal s = { s with agree := { s.agree with renewalDue := agree }, tide := tide, fold := fold } ∧
    tide.phase = s.tide.phase ∧ tide.slot = s.tide.slot ∧
    (s.tide.phase.get = 5 → fold.buffer = [] ∧ fold.sendPlus = [] ∧ fold.sendMinus = []) := by
  by_cases h5 : phaseNow s = phHeld
  · exact ⟨_, _, _, if_pos h5, rfl, rfl, fun _ => ⟨rfl, rfl, rfl⟩⟩
  · exact ⟨_, _, _, if_neg h5, rfl, rfl, fun h => absurd h h5⟩

/-! ### A loss (R20, R223, R238) -/

/-- A member that has taken note of the positions a view removes. -/
def lossHeard (s : State) (removed : U16) : State := { s with
  agree := { s.agree with removed := removed }
  tide := { s.tide with
    reports := s.tide.reports.map fun r => { r with stale := true }
    queried := [], lossesHere := s.tide.lossesHere + (bitsOf 16 removed).length, upReport := none } }

/-- A member that has noted its losses: what it ran is told to stop, what it staged is dropped. -/
def lossNoted (s : State) (removed : U16) : State := dropStaged (stopRuns (lossHeard s removed) .lost)

/-- A COVE_FORM under way ends with the loss. -/
def formingEnds (s : State) (removed : U16) : State :=
  match s.tide.forming with
  | some mb => respondOpt (leaveCove { s with tide.forming := none }) mb stLostMember removed.toNat
  | none => s

/-- The recovery as a loss begins it anew. -/
def recoveryAnew (s : State) (removed : U16) : RecS :=
  let st := recState s
  { s.recov with
    lost := V3.all ((if st = recNone ∨ st = recDone ∨ st = recFailed then 0 else s.recov.lost.get) ||| removed)
    forward := false, rollingBack := false, tried := 0, asked := none, groupsLeft := [], restartAt := [], waiting := []
    tmarkMisses := 0
    hoKnown := match s.recov.hoKnown with
      | some (p, r, f) => if removed.getLsbD p then none else some (p, r, f)
      | none => none
    parityDone := if s.recov.target then s.recov.parityDone else []
    reqs := if s.recov.target then s.recov.reqs else []
    rows := if s.recov.target then s.recov.rows else []
    rowsDone := if s.recov.target then s.recov.rowsDone else 0 }

theorem recoveryAnew_lost {s : State} (h : recState s = recNone) (removed : U16) :
    (recoveryAnew s removed).lost = V3.all removed := by
  simp [recoveryAnew, h]

/-- What becomes of a recovery that is deciding after a loss. -/
def decided (s : State) (held resharding : Bool) : State :=
  let s := if s.tide.noTide then failRecovery s
    else if beyondTolerance s (liveSet s) then failRecovery s
    else if held ∧ ¬ s.recov.target then { setRec s recRolling with recov.rollingBack := true }
    else if held then setRec s recParity
    else s
  let s := if resharding ∧ held then reportReshardLoss s else s
  if !isCaptain s ∨ recState s = recFailed then s else claimNext s

/-- A loss taken in stages: what was pending ends, and recovery begins anew. -/
theorem installLoss_eq (s : State) (removed : U16) : installLoss s removed =
    (fun t : State => if t.agree.cove.isNone then stopRuns t .lost else
      (fun u : State => decided (startSpring (setRec { u with recov := recoveryAnew u removed } recDeciding))
        (decide (phaseNow u = phHeld)) s.recov.shadow.isSome) (dropStaged (stopRuns t .lost)))
    (formingEnds (endSeal (abandonShadow (if isCaptain (lossHeard s removed) then
      startAborts (lossHeard s removed) ((bitsOf 16 removed).map fun q => rankAt s (ownCoveId s) q)
      else lossHeard s removed) removed.toNat) stLostMember removed.toNat) removed) := by
  simp only [installLoss, decided, decide_eq_true_eq]
  rfl

theorem setRec_sameCoding {s : State} {v : BitVec 4} (hs : ¬ s.recov.state.get = 6) (hv : ¬ v = 6) :
    setRec s v = { s with recov.state := V3.all v } := by
  have same : decide (recState s = recData) = decide (v = recData) := by
    rw [decide_eq_false hv]
    exact decide_eq_false hs
  exact if_pos same

theorem decided_waits {s : State} (hn : s.tide.noTide = false) (hb : beyondTolerance s (liveSet s) = false)
    (hc : isCaptain s = false) (resharding : Bool) : decided s false resharding = s := by
  simp [decided, hn, hb, hc]

/-- What a loss does first finds nothing to end at a member that is no captain. -/
theorem lossHeard_quiet {s : State} {removed : U16} (hc : isCaptain s = false) (hm : s.tide.mailbox = none)
    (hs : s.recov.shadow = none) (hf : s.tide.forming = none) :
    formingEnds (endSeal (abandonShadow (if isCaptain (lossHeard s removed) then
      startAborts (lossHeard s removed) ((bitsOf 16 removed).map fun q => rankAt s (ownCoveId s) q)
      else lossHeard s removed) removed.toNat) stLostMember removed.toNat) removed = lossHeard s removed := by
  have member : isCaptain (lossHeard s removed) = false := hc
  rw [if_neg (by rw [member]; decide), abandonShadow_none (by exact hs), endSeal_idle (by exact hm), formingEnds]
  rw [show (lossHeard s removed).tide.forming = none from hf]

theorem recovery_decides {s : State} (removed : U16) (hr : s.recov.state.get = 0) (h0 : s.power.season.get = 0)
    (hv : s.power.moving = false) :
    startSpring (setRec { s with recov := recoveryAnew s removed } recDeciding) =
      { s with recov := { recoveryAnew s removed with state := V3.all recDeciding } } := by
  have idle : ¬ (recoveryAnew s removed).state.get = 6 := by
    show ¬ s.recov.state.get = 6
    rw [hr]
    decide
  rw [setRec_sameCoding (by exact idle) (by decide)]
  exact startSpring_summer (by exact h0) (by exact hv)

theorem installLoss_deciding {s : State} {removed : U16} (hc : isCaptain s = false) (hm : s.tide.mailbox = none)
    (hs : s.recov.shadow = none) (hf : s.tide.forming = none) (hcv : s.agree.cove.isSome = true)
    (hr : s.recov.state.get = 0) (ht : s.recov.target = false) (hn : s.tide.noTide = false) (hp : s.tide.phase.get ≠ 5)
    (h0 : s.power.season.get = 0) (hv : s.power.moving = false) (hb : ∀ t : State, ownCove t = ownCove s →
      t.recov.lost.get = removed → beyondTolerance t (liveSet s) = false) :
    ∃ recov, installLoss s removed = { lossNoted s removed with recov := recov } ∧ recov.state.get = 1 ∧
      recov.lost.get = removed ∧ recov.waiting = [] := by
  have cove : ¬ (lossHeard s removed).agree.cove.isNone = true := by
    rw [Option.isNone_iff_eq_none]
    exact Option.isSome_iff_ne_none.1 hcv
  have start : installLoss s removed = decided (startSpring (setRec { lossNoted s removed with
      recov := recoveryAnew (lossNoted s removed) removed } recDeciding))
        (decide (phaseNow (lossNoted s removed) = phHeld)) false := by
    rw [installLoss_eq, lossHeard_quiet hc hm hs hf, hs]
    exact if_neg cove
  have unheld : decide (phaseNow (lossNoted s removed) = phHeld) = false := decide_eq_false hp
  obtain ⟨w, hw⟩ : ∃ w, w = lossNoted s removed := ⟨_, rfl⟩
  have wrec : w.recov.state.get = 0 := by rw [hw]; exact hr
  have waiting : (recoveryAnew w removed).waiting = [] := by rw [hw]; rfl
  have begun := recovery_decides removed wrec (by rw [hw]; exact h0) (by rw [hw]; exact hv)
  obtain ⟨recov, hrecov⟩ : ∃ r : RecS, r = { recoveryAnew w removed with state := V3.all recDeciding } := ⟨_, rfl⟩
  have rlost : recov.lost.get = removed := by
    rw [hrecov]
    exact (congrArg V3.get (recoveryAnew_lost wrec removed)).trans (V3.get_all _)
  obtain ⟨u, hu⟩ : ∃ u : State, u = { w with recov := recov } := ⟨_, rfl⟩
  have ulive : liveSet u = liveSet s := by rw [hu, hw]; rfl
  have ucove : ownCove u = ownCove s := by rw [hu, hw]; rfl
  have utide : u.tide.noTide = false := by rw [hu, hw]; exact hn
  have ucaptain : isCaptain u = false := by
    rw [isCaptain_of_agree (s := s) (by rw [hu, hw]; rfl) (by rw [hu, hw]; rfl) (by rw [hu, hw]; rfl)]
    exact hc
  have within : beyondTolerance u (liveSet u) = false := by rw [ulive]; exact hb u ucove (by rw [hu]; exact rlost)
  have waits := decided_waits utide within ucaptain false
  refine ⟨recov, ?_, by rw [hrecov]; exact V3.get_all _, rlost, by rw [hrecov]; exact waiting⟩
  rw [start, unheld, ← hw, begun, ← hrecov, ← hu, waits]

/-! ### O39 -/

theorem toPosition_of_agree {s t : State} (hc : t.agree.cove = s.agree.cove) (hp : t.agree.position = s.agree.position)
    (hr : t.agree.posRank = s.agree.posRank) (hm : t.agree.moved = s.agree.moved) (hj : t.job = s.job)
    (ht : t.time = s.time) (q : Nat) (type : Byte) (epoch ballot arg : U32) (body : List Byte) :
    toPosition t q type epoch ballot arg body = toPosition s q type epoch ballot arg body := by
  have rank : rankAt t (ownCoveId t) q = rankAt s (ownCoveId s) q := by
    unfold rankAt ownCoveId
    rw [hc, hr, hm, hj]
  have tag : jobTag t = jobTag s := by unfold jobTag; rw [hj]
  have id : ownCoveId t = ownCoveId s := by unfold ownCoveId; rw [hc]
  have pos : ownPos t = ownPos s := by unfold ownPos; rw [hp]
  unfold toPosition
  rw [rank, tag, id, pos, ht]

theorem CalmView.withLine {s : State} {m : AgreeMsg} {view : U16} {a : AgreeS} (h : CalmView s m view a) (due : Bool)
    (line : StatusLine) : CalmView s m view { a with renewalDue := due, statusLine := line } :=
  ⟨h.epoch, h.live, h.promised, h.accepted, h.proposal, h.installs, h.state, h.suspects, h.wishes, h.cove, h.position,
    h.posRank, h.moved⟩

theorem CalmView.withRemoved {s : State} {m : AgreeMsg} {view : U16} {a : AgreeS} (h : CalmView s m view a) (removed : U16)
    (line : StatusLine) : CalmView s m view { a with removed := removed, statusLine := line } :=
  ⟨h.epoch, h.live, h.promised, h.accepted, h.proposal, h.installs, h.state, h.suspects, h.wishes, h.cove, h.position,
    h.posRank, h.moved⟩

/-- With no position lost but those a view removes, the view decides on the tolerance. -/
theorem beyondTolerance_of_gone {s t : State} {before view : U16} (hc : ownCove t = ownCove s)
    (hl : t.recov.lost.get = before &&& ~~~view) (hb : beyondTolerance s view = false) : beyondTolerance t view = false := by
  unfold beyondTolerance at hb ⊢
  rw [hc]
  cases hoc : ownCove s with
  | none => rfl
  | some c =>
    rw [hoc] at hb
    simp only [decide_eq_false_iff_not, Nat.not_lt] at hb ⊢
    refine Nat.le_trans (List.Sublist.length_le (List.monotone_filter_right _ fun q hq => ?_)) hb
    have gone : t.recov.lost.get.getLsbD q = true → view.getLsbD q = false := by
      rw [hl, BitVec.getLsbD_and, BitVec.getLsbD_not]
      cases view.getLsbD q <;> simp
    simp only [Bool.or_eq_true, Bool.not_eq_true'] at hq ⊢
    exact .inl (hq.elim id gone)

/-- What a member without suspects that is no captain does after installing. -/
theorem afterInstall_calm {s u : State} {m : AgreeMsg} {view : U16} (h : CalmView s m view u.agree)
    (hl : u.ports.lkp = true) (hj : u.job = s.job) (ht : u.time = s.time) (hc : s.agree.cove.isSome = true)
    (hcap : captainOf view ≠ ownPos s) : ∃ body,
      afterInstall u = appendOut u [toPosition s (captainOf view) 0x28 m.epoch 0 0 body] := by
  have live : liveSet u = view := (congrArg V3.get h.live).trans (V3.get_all _)
  have epoch : epochNow u = m.epoch := (congrArg V3.get h.epoch).trans (V3.get_all _)
  have pos : ownPos u = ownPos s := congrArg BitVec.toNat h.position
  refine ⟨sealInfo u, ?_⟩
  rw [afterInstall_of_member hl (by rw [h.cove]; exact hc) (by rw [h.state]; decide) (by rw [live, pos]; exact hcap)
    h.wishes h.suspects, live, epoch, toPosition_of_agree h.cove h.position h.posRank h.moved hj ht]

/-- A renewal installed at a member without suspects that is no captain. -/
theorem renewal_installed {s : State} {m : AgreeMsg} (hl : s.ports.lkp = true) (hc : s.agree.cove.isSome = true)
    (hm : m.arg.toNat ≠ 1) (hcap : captainOf (liveSet s) ≠ ownPos s) (hs : s.agree.suspects = []) (hw : s.agree.wishes = [])
    (hwt : s.recov.waiting = []) (ht : s.recov.target = false) (h0 : s.recov.lost.get = 0) :
    ∃ (tier : TierS) (agree : AgreeS) (recov : RecS) (tide : SealS) (fold : FoldS) (body : List Byte),
      afterInstall (installView s m (liveSet s) noRank) = appendOut { s with
        tier := tier, agree := agree, recov := recov, tide := tide, fold := fold }
        [toPosition s (captainOf (liveSet s)) 0x28 m.epoch 0 0 body] ∧
      CalmView s m (liveSet s) agree ∧ recov.lost = s.recov.lost ∧ tide.phase = s.tide.phase ∧
      tide.slot = s.tide.slot ∧
      (s.tide.phase.get = 5 → fold.buffer = [] ∧ fold.sendPlus = [] ∧ fold.sendMinus = []) := by
  obtain ⟨tier, agree, waiting, begun, calm, none⟩ := viewBegun_calm hs hw ht m (liveSet s) noRank
  obtain ⟨due, tide, fold, renewed, phase, slot, drops⟩ := installRenewal_fields (viewBegun s m (liveSet s) noRank)
  obtain ⟨u, hu⟩ : ∃ u : State, u = { s with
      tier := tier, agree := { agree with renewalDue := due }, tide := tide, fold := fold
      recov := { s.recov with groupsLeft := [], restartAt := [], waiting := waiting } } := ⟨_, rfl⟩
  have hview : installRenewal (viewBegun s m (liveSet s) noRank) = u := by rw [renewed, begun, hu]
  have ulive : liveSet u = liveSet s := by rw [hu]; exact (congrArg V3.get calm.live).trans (V3.get_all _)
  have member : isCaptain u = false := by
    have pos : ownPos u = ownPos s := by rw [hu]; exact congrArg BitVec.toNat calm.position
    simp [isCaptain, ulive, pos, hcap]
  obtain ⟨xs, ends, quiet⟩ := viewEnds_idle (s := u) (.inr (by rw [hu]; exact h0)) (by rw [hu]; exact none hwt) member
    (by rw [hu]; exact hl) (captainOf (liveSet s))
  obtain ⟨line, hline⟩ := refreshStatusLine_fields u
  have same : liveSet s &&& ~~~(liveSet s) = 0 := by simp
  have installed : installView s m (liveSet s) noRank = { u with agree.statusLine := line } := by
    rw [installView_eq, same, viewReason_renewal hm, hview, ends, quiet (by rw [ulive]), appendOut_nil, hline]
  obtain ⟨body, after⟩ := afterInstall_calm (s := s) (u := { u with agree.statusLine := line }) (view := liveSet s) (m := m)
    (by rw [hu]; exact calm.withLine due line) (by rw [hu]; exact hl) (by rw [hu]) (by rw [hu]) hc hcap
  refine ⟨tier, { agree with renewalDue := due, statusLine := line },
    { s.recov with groupsLeft := [], restartAt := [], waiting := waiting }, tide, fold, body, ?_, calm.withLine due line,
    rfl, phase.trans (by rw [begun]), slot.trans (by rw [begun]), fun h5 => drops (by rw [begun]; exact h5)⟩
  rw [installed, after, hu]

/-- The loss begins a recovery at a member without suspects that is no captain. -/
theorem loss_begun {s : State} {m : AgreeMsg} {view : U16} (hc : s.agree.cove.isSome = true)
    (hcap : captainOf view ≠ ownPos s) (hs : s.agree.suspects = []) (hw : s.agree.wishes = [])
    (ht : s.recov.target = false) (shadow : s.recov.shadow = none) (hp : s.tide.phase.get ≠ 5)
    (hn : s.tide.noTide = false) (hf : s.tide.forming = none) (hmb : s.tide.mailbox = none)
    (hr : s.recov.state.get = 0) (h0 : s.power.season.get = 0) (hv : s.power.moving = false)
    (hb : beyondTolerance s view = false) (removed : U16) (hg : removed = liveSet s &&& ~~~view) :
    ∃ (tier : TierS) (agree : AgreeS) (recov : RecS) (tide : SealS),
      installLoss (viewBegun s m view noRank) removed = { stopRuns s .lost with
        tier := tier, agree := agree, recov := recov, tide := tide } ∧
      CalmView s m view agree ∧ recov.state.get = 1 ∧ recov.lost.get = removed ∧ recov.waiting = [] ∧
      tide.phase = s.tide.phase := by
  obtain ⟨tier, agree, waiting, begun, calm, -⟩ := viewBegun_calm hs hw ht m view noRank
  obtain ⟨v, hv'⟩ : ∃ v : State, v = { s with
    tier := tier, agree := agree, recov := { s.recov with groupsLeft := [], restartAt := [], waiting := waiting } } :=
    ⟨_, rfl⟩
  have vlive : liveSet v = view := by rw [hv']; exact (congrArg V3.get calm.live).trans (V3.get_all _)
  have vpos : ownPos v = ownPos s := by rw [hv']; exact congrArg BitVec.toNat calm.position
  have vmember : isCaptain v = false := by simp [isCaptain, vlive, vpos, hcap]
  have vcove : ownCove v = ownCove s := by
    have cove : v.agree.cove = s.agree.cove := by rw [hv']; exact calm.cove
    have job : v.job = s.job := by rw [hv']
    unfold ownCove
    rw [cove, job]
  obtain ⟨recov, taken, state, lost, idle⟩ := installLoss_deciding (s := v) (removed := removed) vmember
    (by rw [hv']; exact hmb) (by rw [hv']; exact shadow) (by rw [hv']; exact hf)
    (by rw [hv']; show agree.cove.isSome = true; rw [calm.cove]; exact hc) (by rw [hv']; exact hr)
    (by rw [hv']; exact ht) (by rw [hv']; exact hn) (by rw [hv']; exact hp)
    (by rw [hv']; exact h0) (by rw [hv']; exact hv)
    (fun t hct hlt => by rw [vlive]; exact beyondTolerance_of_gone (hct.trans vcove) (hlt.trans hg) hb)
  refine ⟨(lossNoted v removed).tier, { agree with removed := removed }, recov, (lossNoted v removed).tide, ?_,
    calm.withRemoved removed agree.statusLine, state, lost, idle, ?_⟩
  · rw [begun, ← hv', taken, hv']
    rfl
  · rw [hv']
    rfl

/-- A loss installed at a member without suspects that is no captain. -/
theorem loss_installed {s : State} {m : AgreeMsg} {view : U16} (hl : s.ports.lkp = true)
    (hc : s.agree.cove.isSome = true) (hm : m.arg = 0) (hcap : captainOf view ≠ ownPos s) (hs : s.agree.suspects = [])
    (hw : s.agree.wishes = []) (ht : s.recov.target = false) (hg : liveSet s &&& ~~~view ≠ 0)
    (shadow : s.recov.shadow = none) (hp : s.tide.phase.get ≠ 5) (hn : s.tide.noTide = false) (hf : s.tide.forming = none)
    (hmb : s.tide.mailbox = none) (hr : s.recov.state.get = 0) (h0 : s.power.season.get = 0) (hv : s.power.moving = false)
    (hb : beyondTolerance s view = false) :
    ∃ (tier : TierS) (agree : AgreeS) (recov : RecS) (tide : SealS) (xs : List LkpOut),
      afterInstall (installView s m view noRank) = appendOut { stopRuns s .lost with
        tier := tier, agree := agree, recov := recov, tide := tide } xs ∧
      agree.epoch = V3.all m.epoch ∧ agree.live = V3.all view ∧ recov.state.get = 1 ∧
      recov.lost.get = liveSet s &&& ~~~view ∧ tide.phase = s.tide.phase := by
  obtain ⟨tier, agree, recov, tide, taken, calm, state, lost, idle, phase⟩ := loss_begun (m := m) hc hcap hs hw ht shadow
    hp hn hf hmb hr h0 hv hb _ rfl
  obtain ⟨u, hu⟩ : ∃ u : State, u = { stopRuns s .lost with tier := tier, agree := agree, recov := recov, tide := tide } :=
    ⟨_, rfl⟩
  have uagree : u.agree = agree := by rw [hu]
  have ujob : u.job = s.job := by rw [hu]; rfl
  have utime : u.time = s.time := by rw [hu]; rfl
  have ulkp : u.ports.lkp = true := by rw [hu]; exact hl
  have uphase : u.tide.phase.get ≠ 5 := by rw [hu]; show tide.phase.get ≠ 5; rw [phase]; exact hp
  have ulive : liveSet u = view := by rw [liveSet, uagree, calm.live, V3.get_all]
  have upos : ownPos u = ownPos s := by rw [hu]; exact congrArg BitVec.toNat calm.position
  have member : isCaptain u = false := by simp [isCaptain, ulive, upos, hcap]
  obtain ⟨xs, ends, -⟩ := viewEnds_idle (s := u) (.inl uphase) (by rw [hu]; exact idle) member ulkp (captainOf (liveSet s))
  obtain ⟨line, hline⟩ := refreshStatusLine_fields (appendOut u xs)
  have installed : installView s m view noRank = { appendOut u xs with agree.statusLine := line } := by
    have zero : m.arg.toNat = 0 := by rw [hm]; rfl
    rw [installView_eq, zero, viewReason_loss hg, taken, ← hu, ends, hline]
  have ucalm : CalmView s m view { u.agree with statusLine := line } := by
    rw [uagree]
    exact calm.withLine agree.renewalDue line
  obtain ⟨body, after⟩ := afterInstall_calm (s := s) (u := { appendOut u xs with agree.statusLine := line }) ucalm ulkp
    ujob utime hc hcap
  refine ⟨tier, { agree with statusLine := line }, recov, tide,
    xs ++ [toPosition s (captainOf view) 0x28 m.epoch 0 0 body], ?_, calm.epoch, calm.live, state, lost, phase⟩
  rw [installed, after, ← appendOut_append, hu]
  rfl

theorem next_install_own {s : State} {m : AgreeMsg} (own : OwnCoveMember s m) :
    exec (.install m) s = .next (memberInstall s m) := by
  obtain ⟨hl, hp, ht, hs, hm, hc, hj, h0, -, h5, -⟩ := own
  have member : isMember s = true := by simpa [isMember, hc] using h0
  exact congrArg Host.Outcome.next ((agreeIn_summer hl hp ht hs hm true _).trans ((inJob_own hj _).trans
    ((if_pos ⟨member, hc⟩).trans (if_neg h5))))

theorem memberInstall_stays {s : State} {m : AgreeMsg} (own : OwnCoveMember s m)
    (he : (epochNow s).toNat < m.epoch.toNat) (live : (installLive m).getLsbD (ownPos s) = true) :
    memberInstall s m = afterInstall (installView s m (installLive m) (installJoining m)) := by
  obtain ⟨-, -, -, -, -, -, -, -, h4, -⟩ := own
  rw [memberInstall, if_neg (by omega), if_neg fun ⟨h, _⟩ => h4 h, if_pos live]

theorem memberInstall_omits {s : State} {m : AgreeMsg} (he : (epochNow s).toNat < m.epoch.toNat)
    (live : (installLive m).getLsbD (ownPos s) = false) :
    memberInstall s m = exclude s (liveSet s &&& ~~~(installLive m)) := by
  have out : ¬ (installLive m).getLsbD (ownPos s) = true := by rw [live]; decide
  rw [memberInstall, if_neg (by omega), if_neg fun ⟨_, h⟩ => out h, if_neg out]

theorem getLsbD_bit {g i : Nat} (hi : i < 16) : (BitVec.ofNat 16 (2 ^ g)).getLsbD i = decide (i = g) := by
  rw [BitVec.getLsbD_ofNat, Nat.testBit_two_pow, decide_eq_true hi, Bool.true_and]
  exact decide_eq_decide.2 eq_comm

/-- A view that removes one live position removes that position alone. -/
theorem removed_bit {live : U16} {g : Nat} (hg : g < 16) (h : live.getLsbD g = true) :
    live &&& ~~~(live &&& ~~~(BitVec.ofNat 16 (2 ^ g))) = BitVec.ofNat 16 (2 ^ g) := by
  refine BitVec.eq_of_getLsbD_eq fun i hi => ?_
  simp only [BitVec.getLsbD_and, BitVec.getLsbD_not, getLsbD_bit hi, hi, decide_true, Bool.true_and]
  by_cases e : i = g
  · simp [e, h]
  · simp [e]

/-- The member without a quorum: its proposals are gone and capture is barred, its commands are answered. -/
def quorumLost (s : State) : State :=
  raiseEvent (endPending { s with
    agree := { s.agree with state := agNoQuorum, proposal := none, wishes := [], timerAt := none, retryAt := none }
    cap := { s.cap with barred := true } } stNoQuorum (liveSet s).toNat .noQuorum) evNoQuorum (BitVec.ofNat 8 (ownPos s))

theorem quorumLost_fields (s : State) : (quorumLost s).agree = { s.agree with
      state := agNoQuorum, proposal := none, wishes := [], timerAt := none, retryAt := none } ∧
    (quorumLost s).cap = { s.cap with barred := true } ∧ (quorumLost s).mem = s.mem ∧ (quorumLost s).fold = s.fold ∧
    (quorumLost s).job = s.job ∧ (quorumLost s).digests = s.digests ∧ (quorumLost s).tide.slot = s.tide.slot ∧
    (quorumLost s).tide.phase = s.tide.phase := by
  simpa [quorumLost] using endPending_frame { s with
    agree := { s.agree with state := agNoQuorum, proposal := none, wishes := [], timerAt := none, retryAt := none }
    cap := { s.cap with barred := true } } stNoQuorum (liveSet s).toNat .noQuorum

/-- The job's COLL_ABORT at a member of its view. -/
theorem next_collAbort_own {s : State} {m : AgreeMsg} (own : OwnCoveMember s m) (he : m.epoch.toNat ≤ (epochNow s).toNat) :
    exec (.collAbort m) s = .next (abortHere s m.cove m.epoch m.arg (bodyFld m 0 4)) := by
  obtain ⟨hl, hp, ht, hs, hm, hc, hj, h0, -, h5, -⟩ := own
  refine congrArg Host.Outcome.next ((agreeIn_summer hl hp ht hs hm true _).trans ((inJob_own hj _).trans ?_))
  have same : ¬((decide (s.agree.cove = some m.cove) && s.agree.state ≠ agExcluded && s.agree.state ≠ agNone) = true ∧
      (epochNow s).toNat < m.epoch.toNat) := fun ⟨_, h⟩ => by omega
  exact congrArg (abortHere · m.cove m.epoch m.arg (bodyFld m 0 4)) (if_neg same)

theorem quorumLost_box {s : State} {mb : Fin 8} (hm : s.tide.mailbox = some mb) (hd : s.stat.drainMb = none)
    (hs : s.stat.suspendMb = none) (hf : s.tide.forming = none) (hr : s.tide.resuming = none) (hw : fwRunning s = true) :
    (box (quorumLost s) mb).busy = false ∧ (box (quorumLost s) mb).done = true ∧ (box (quorumLost s) mb).code = 0x22 := by
  obtain ⟨u, hu⟩ : ∃ u : State, u = { s with
    agree := { s.agree with state := agNoQuorum, proposal := none, wishes := [], timerAt := none, retryAt := none }
    cap := { s.cap with barred := true } } := ⟨_, rfl⟩
  have ends := endPending_sealOnly (s := u) (mb := mb) (by rw [hu]; exact hm) (by rw [hu]; exact hd)
    (by rw [hu]; exact hs) (by rw [hu]; exact hf) (by rw [hu]; exact hr) stNoQuorum (liveSet s).toNat .noQuorum
  have answer : box (quorumLost s) mb = box (respond { u with tide.mailbox := none } mb stNoQuorum (liveSet s).toNat
      (sealResults u 0)) mb := by
    rw [quorumLost, ← hu, ends]
    exact congrArg (fun b => b.boxes.get mb) (raiseEvent_mb ..)
  rw [answer, respond_box_same _ _ _ _ _ (by rw [hu]; exact hw)]
  exact ⟨rfl, rfl, rfl⟩

/-! ### COLL_ABORT passed on (R228) -/

/-- An abort of a group's reductions, to one die. -/
def abortTo (s : State) (cove : U16) (epoch group : U32) (lost rank : Nat) : LkpOut :=
  .store rank .va .any (.agree 0x29
    { jobTag := jobTag s, cove := cove, sender := if s.agree.cove = some cove then BitVec.ofNat 8 (ownPos s) else 0xFF,
      dest := 0xFF, epoch := epoch, ballot := 0, arg := group, gtc := s.time.gtc, body := leBytes 4 lost ++ leBytes 4 0 })

/-- The aborts a die passes on to the ranks below it in the group's relay. -/
def abortRelays (s : State) (cove : U16) (epoch group : U32) (lost : Nat) : List LkpOut :=
  match planGroup s (group.truncate 16) with
  | some g => (relayTo (relayList s g lost) (ownRank s)).map fun r => abortTo s cove epoch group lost r
  | none => []

/-- The group's reductions stop, and the collective engine is told. -/
def abortStops (s : State) (group : U32) : State :=
  let halt (r : Reduce) : Reduce := if r.group = group.truncate 16 ∧ r.stop = .none then { r with stop := .lost } else r
  let t := { s with exch.reduces := s.exch.reduces.map halt }
  if t.ports.fbp then { t with out.fbp := t.out.fbp ++ [.collStop (group.truncate 16)] } else t

theorem abortHere_new {s : State} {cove : U16} {epoch group : U32} {lost : Nat} (hl : s.ports.lkp = true)
    (hf : s.ports.fbp = true) (new : (cove, epoch, group) ∉ s.agree.relayed) :
    abortHere s cove epoch group lost = { s with
      agree := { s.agree with relayed := s.agree.relayed ++ [(cove, epoch, group)] }
      exch := { s.exch with reduces := s.exch.reduces.map fun r =>
        if r.group = group.truncate 16 ∧ r.stop = .none then { r with stop := .lost } else r }
      out := { lkp := s.out.lkp ++ abortRelays s cove epoch group lost,
               fbp := s.out.fbp ++ [.collStop (group.truncate 16)] } } := by
  obtain ⟨u, hu⟩ : ∃ u, u = { s with agree.relayed := s.agree.relayed ++ [(cove, epoch, group)] } := ⟨_, rfl⟩
  have sends (l : List Nat) : forEach l (fun t r => sendAs t r 0x29 cove epoch 0 group (leBytes 4 lost ++ leBytes 4 0)) u =
      appendOut u (l.map fun r => abortTo s cove epoch group lost r) := by
    have each := forEach_sends (f := fun t r => sendAs t r 0x29 cove epoch 0 group (leBytes 4 lost ++ leBytes 4 0))
      (g := fun (t : State) (r : Nat) => abortTo t cove epoch group lost r) l (s := u)
      (fun t r ht => sendTo_present ht ..) (fun _ _ _ => rfl) (by rw [hu]; exact hl)
    have same (r : Nat) : abortTo u cove epoch group lost r = abortTo s cove epoch group lost r := by rw [hu]; rfl
    simpa only [same] using each
  have relays : (match planGroup u (group.truncate 16) with
      | some g => forEach (relayTo (relayList u g lost) (ownRank u)) (fun t r =>
          sendAs t r 0x29 cove epoch 0 group (leBytes 4 lost ++ leBytes 4 0)) u
      | none => u) = appendOut u (abortRelays s cove epoch group lost) := by
    have same : planGroup u (group.truncate 16) = planGroup s (group.truncate 16) := by rw [hu]; rfl
    have below (g : Group) : relayTo (relayList u g lost) (ownRank u) = relayTo (relayList s g lost) (ownRank s) := by
      rw [hu]
      rfl
    rw [same, abortRelays]
    cases planGroup s (group.truncate 16) with
    | none => exact (appendOut_nil u).symm
    | some g =>
      dsimp only
      rw [below, sends]
  rw [abortHere, if_neg new]
  dsimp only
  rw [← hu]
  refine Eq.trans (congrArg (fun t => abortStops t group) relays) ?_
  rw [hu]
  exact if_pos hf

theorem relayTo_found {l : List Nat} {me i : Nat} (h : l.findIdx? (fun r => r = me) = some i) :
    relayTo l me = (l.drop (8 * i + 1)).take 8 := by
  simp only [relayTo, h]

theorem abortRelays_oneGroup {s : State} {p : Plan} {g : Group} {cove : U16} {epoch group : U32} {lost : Nat}
    (hp : s.job.plan = some p) (hg : p.groups = [g]) (hid : g.id = group.truncate 16) :
    (abortRelays s cove epoch group lost).length = (relayTo (relayList s g lost) (ownRank s)).length := by
  have found : planGroup s (group.truncate 16) = some g := by simp [planGroup, hp, hg, hid]
  simp [abortRelays, found]

/-- Settles O39: INSTALL by its cases, then INSTALLED, NO_QUORUM and COLL_ABORT. -/
theorem viewsAndAborts : Obligations.ViewsAndAborts := by
  intro s m own shadow
  have hown := own
  obtain ⟨lkp, part, tag, summer, still, cove, job, h0, h4, h5, -⟩ := hown
  refine ⟨fun he => ?_, fun he out => ?_, fun he same live arg joins cap sus wish wait tgt lost => ?_,
    fun g he hg other liveg view arg joins cap sus wish flood tide form pending quiet tgt live within => ?_,
    fun he member => ?_, fun since hsince => ⟨fun early => ?_, fun quorum => ?_, fun late few => ?_⟩,
    fun he fbp => ⟨fun known => ?_, fun new => ?_⟩, fun g => ⟨s, rfl, rfl⟩⟩
  · exact ⟨_, (next_install_own own).trans (congrArg Host.Outcome.next (if_pos he)), rfl⟩
  · exact ⟨_, (next_install_own own).trans (congrArg Host.Outcome.next (memberInstall_omits he out)),
      exclude_fields shadow _⟩
  · have joining : installJoining m = noRank := congrArg (BitVec.ofNat 32) joins
    obtain ⟨tier, agree, recov, tide, fold, body, run, calm, rlost, phase, slot, drops⟩ := renewal_installed (m := m) lkp
      (by rw [cove]; rfl) (by rw [arg]; decide) cap sus wish wait tgt lost
    have view : installLive m = liveSet s := same
    have stays : memberInstall s m = _ := (memberInstall_stays own he (by rw [view]; exact live)).trans
      ((congr_arg₂ (fun l r => afterInstall (installView s m l r)) view joining).trans run)
    refine ⟨_, (next_install_own own).trans (congrArg Host.Outcome.next stays), ?_⟩
    dsimp only [appendOut]
    exact ⟨(congrArg V3.get calm.epoch).trans (V3.get_all _), (congrArg V3.get calm.live).trans (V3.get_all _),
      calm.promised, calm.accepted, calm.proposal, calm.installs, calm.state, rfl, phase, slot, rlost, drops, body, rfl⟩
  · have joining : installJoining m = noRank := congrArg (BitVec.ofNat 32) joins
    have hview : installLive m = liveSet s &&& ~~~(BitVec.ofNat 16 (2 ^ g)) := view
    have gone : liveSet s &&& ~~~(installLive m) = BitVec.ofNat 16 (2 ^ g) := by rw [hview, removed_bit hg liveg]
    have some : liveSet s &&& ~~~(installLive m) ≠ 0 := by
      rw [gone]
      intro h
      have bit := getLsbD_bit hg (g := g)
      rw [h] at bit
      simp at bit
    have stay : (installLive m).getLsbD (ownPos s) = true := by
      have hp : ownPos s < 16 := List.mem_range.1 (List.mem_filter.1 (mem_livePositions.2 live)).1
      rw [hview, BitVec.getLsbD_and, BitVec.getLsbD_not, getLsbD_bit hp, live]
      simp [hp, other.symm]
    obtain ⟨tier, agree, recov, tide', xs, run, epoch, hlive, state, lost, phase⟩ := loss_installed (m := m)
      (view := installLive m) lkp (by rw [cove]; rfl) arg cap sus wish tgt some shadow (by rw [flood]; decide) tide form
      pending quiet summer still within
    have stays : memberInstall s m = _ := (memberInstall_stays own he stay).trans
      ((congrArg (fun r => afterInstall (installView s m (installLive m) r)) joining).trans run)
    refine ⟨_, (next_install_own own).trans (congrArg Host.Outcome.next stays), ?_⟩
    dsimp only [appendOut]
    exact ⟨(congrArg V3.get epoch).trans (V3.get_all _), (congrArg V3.get hlive).trans (V3.get_all _), state,
      lost.trans gone, (congrArg V3.get phase).trans flood, rfl, rfl, rfl, rfl, rfl, rfl⟩
  · have run : exec (.installed m) s =
        .next { s with agree.infos := put m.sender.toNat (m.body.take 16) s.agree.infos } :=
      congrArg Host.Outcome.next ((memberMsg_own own (by rw [he]; omega) _).trans ((if_neg (by simp [he])).trans
        (if_pos (by rw [Bool.not_eq_true']; exact member))))
    refine ⟨_, run, ?_⟩
    exact ⟨rfl, find_put_same _ _ _⟩
  · refine ⟨_, congrArg Host.Outcome.next ?_, rfl⟩
    simp only [hsince]
    exact if_neg fun ⟨_, _, h⟩ => by omega
  · refine ⟨_, congrArg Host.Outcome.next ?_, rfl⟩
    simp only [hsince]
    exact if_neg fun ⟨_, h, _⟩ => h quorum
  · have due : agreeing s = true ∧ ¬ hasQuorum s = true ∧ since.toNat + 1500000 ≤ s.time.gtc.toNat :=
      ⟨agreeing_of_own own, by simp [few], late⟩
    have run : exec .noQuorum s = .next (quorumLost s) := by
      refine congrArg Host.Outcome.next ?_
      simp only [hsince]
      rw [if_pos due]
      simp only [quorumLost, hsince]
    obtain ⟨agree, cap, mem, fold, -, -, -, phase⟩ := quorumLost_fields s
    refine ⟨_, run, ?_⟩
    dsimp only
    rw [agree, cap, mem, fold, phase]
    refine ⟨rfl, rfl, rfl, rfl, rfl, rfl, rfl, rfl, fun mb pending fw drain suspend forming resuming => ?_⟩
    exact quorumLost_box pending drain suspend forming resuming (by simpa [fwRunning] using fw)
  · exact ⟨_, next_collAbort_own own he, if_pos known⟩
  · have stopped := abortHere_new (lost := bodyFld m 0 4) lkp fbp new
    refine ⟨_, (next_collAbort_own own he).trans (congrArg Host.Outcome.next stopped), rfl, fun p g i hp hg hid hi => ?_⟩
    show (s.out.lkp ++ abortRelays s m.cove m.epoch m.arg (bodyFld m 0 4)).length = _
    rw [List.length_append, abortRelays_oneGroup hp hg hid]
    have below : relayTo (relayList s g (bodyFld m 0 4)) (ownRank s) = _ := relayTo_found hi
    rw [below, List.length_take, List.length_drop]
    rfl

end Sys2Proof.Machine

/-! PROOFS. The broadcast of a plan over the tree of ranks (R239 to R241). -/

namespace Sys2Proof.Machine

theorem sendPlanMsg_present {s : State} (hl : s.ports.lkp = true) (rank : Nat) (type : Byte) (epoch : Nat) (body : List Byte) :
    sendPlanMsg s rank type epoch body =
      appendOut s [planStore s rank (if type = 0x2A then .vf else .va) type epoch body] :=
  sendTo_present hl ..

/-- The fragments that go to a child from an index on (R240). -/
def fragmentStores (s : State) (i c : Nat) : List LkpOut :=
  ((List.zip (List.range s.bcast.fragments.length) s.bcast.fragments).drop i).map
    fun e => planStore s c .vf 0x2A e.1 e.2

theorem sendFragments_eq {s : State} (hl : s.ports.lkp = true) (c i : Nat) :
    sendFragments s c i = appendOut { s with bcast.sentAt := put c s.time.gtc s.bcast.sentAt } (fragmentStores s i c) := by
  have sent := forEach_sends (f := fun u (e : Nat × List Byte) => sendPlanMsg u c 0x2A e.1 e.2)
    (g := fun (u : State) e => planStore u c .vf 0x2A e.1 e.2)
    ((List.zip (List.range s.bcast.fragments.length) s.bcast.fragments).drop i)
    (fun u e hu => sendPlanMsg_present hu ..) (fun _ _ _ => rfl) hl
  exact (congrArg (fun t : State => { t with bcast.sentAt := put c s.time.gtc t.bcast.sentAt }) sent).trans rfl

/-- The fragments from an index on go to every child, each send noted. -/
theorem forEach_sendFragments (i : Nat) (l : List Nat) {s : State} (hl : s.ports.lkp = true) :
    ∃ at_, forEach l (fun u c => sendFragments u c i) s =
      appendOut { s with bcast.sentAt := at_ } (l.flatMap (fragmentStores s i)) := by
  induction l generalizing s with
  | nil => exact ⟨s.bcast.sentAt, (appendOut_nil s).symm⟩
  | cons c t ih =>
    show ∃ at_, forEach t _ (sendFragments s c i) = _
    rw [sendFragments_eq hl]
    obtain ⟨x, rest⟩ := ih (s := appendOut { s with bcast.sentAt := put c s.time.gtc s.bcast.sentAt } (fragmentStores s i c))
      (by exact hl)
    refine ⟨x, rest.trans ?_⟩
    rw [List.flatMap_cons]
    exact appendOut_append { s with bcast.sentAt := x } _ _

/-- The stores of the fragment that came last. -/
theorem fragmentStores_last {s : State} {fr : List (List Byte)} {b : List Byte} (h : s.bcast.fragments = fr ++ [b])
    (c : Nat) : fragmentStores s fr.length c = [planStore s c .vf 0x2A fr.length b] := by
  have cut : (List.zip (List.range (fr ++ [b]).length) (fr ++ [b])).drop fr.length = [(fr.length, b)] := by
    rw [List.length_append, List.length_singleton, List.range_succ, List.zip_append List.length_range,
      List.drop_left' (by simp)]
    rfl
  rw [fragmentStores, h, cut]
  rfl

theorem flatMap_fragmentStores_last {s : State} {fr : List (List Byte)} {b : List Byte}
    (h : s.bcast.fragments = fr ++ [b]) (l : List Nat) :
    l.flatMap (fragmentStores s fr.length) = l.map fun c => planStore s c .vf 0x2A fr.length b := by
  rw [funext (fragmentStores_last h)]
  exact List.map_eq_flatMap.symm

theorem next_planPart {s : State} {m : AgreeMsg} (own : OwnJobMessage s m)
    (hc : ¬(s.bcast.complete = true ∧ s.bcast.ballot = m.ballot)) : exec (.planPart m) s = .next (takeFragment s m) := by
  obtain ⟨hl, hp, ht, hs, hm⟩ := own
  have awake : ¬ (decide (s.power.season.get = 1 ∨ s.power.season.get = 2) = true ∧ s.beacon.wakeEn = true ∧
      s.ports.lkp = true ∧ m.jobTag = jobTag s) := by simp [hs]
  have out2 : ¬ (s.ports.lkp = true ∧ s.power.season.get = 2) := by simp [hs]
  have read := agreeIn_summer hl hp ht hs hm true
    (fun s => if s.bcast.complete ∧ s.bcast.ballot = m.ballot then count s cntPlanDup else takeFragment s m)
  refine congrArg Host.Outcome.next ?_
  show discardedFragment (if _ then _ else s) _ = _
  rw [if_neg awake]
  exact (if_neg out2).trans (read.trans (if_neg hc))

/-- A probe of the parent, with none out. -/
theorem probeParent_probes {s : State} {r : Nat} (hr : s.bcast.parent = some r) (hn : s.agree.probes = [])
    (hl : s.ports.lkp = true) : probeParent s = { s with
      agree := { s.agree with probes := [(r, .planParent)] }
      out := { s.out with lkp := s.out.lkp ++ [.probe r] }
      cnt := s.cnt.set 20 (s.cnt.get 20 + 1) } := by
  have none : ¬ (s.agree.probes.any fun p => decide (p.2 = .planParent)) = true := by simp [hn]
  have sent : sendProbe s r .planParent = { s with
      agree := { s.agree with probes := [(r, .planParent)] }
      out := { s.out with lkp := s.out.lkp ++ [.probe r] }
      cnt := s.cnt.set 20 (s.cnt.get 20 + 1) } := by
    refine (if_pos hl).trans ?_
    rw [hn]
    rfl
  simp only [probeParent, hr]
  exact (if_neg none).trans sent

theorem judgeImage_waits {s : State} (h : s.bcast.fragments.length < 1 + (s.bcast.length + 255) / 256) :
    judgeImage s = s := if_pos h

/-- The first fragment of a plan sets the relay up and goes on to every child (R239, R240). -/
theorem takeFragment_first {s : State} {m : AgreeMsg} (hb : s.bcast = BcastS.reset) (he : m.epoch = 0)
    (hl : s.ports.lkp = true) : ∃ at_, takeFragment s m = appendOut { s with bcast := { BcastS.reset with
      children := treeChildren s (ownRank s), parent := some m.arg.toNat, ballot := m.ballot, length := fldAt m.body 0 8,
      digest := (m.body.drop 8).take 32, fragments := [m.body], reshard := s.job.plan.isSome,
      lastFragment := s.time.gtc, sentAt := at_ } }
      ((treeChildren s (ownRank s)).map fun c =>
        .store c .vf .any (.agree 0x2A
          ⟨jobTag s, 0, 0xFF, 0xFF, 0, m.ballot, BitVec.ofNat 32 (ownRank s), s.time.gtc, m.body⟩)) := by
  obtain ⟨n, hn⟩ : ∃ n : BcastS, n = { BcastS.reset with
      children := treeChildren s (ownRank s), parent := some m.arg.toNat, ballot := m.ballot, length := fldAt m.body 0 8,
      digest := (m.body.drop 8).take 32, fragments := [m.body], reshard := s.job.plan.isSome,
      lastFragment := s.time.gtc } := ⟨_, rfl⟩
  have start : takeFragment s m = forEach n.children (fun t c => sendFragments t c 0) { s with bcast := n } := by
    have fresh : m.epoch.toNat = 0 ∧ (s.bcast.fragments = [] ∨ (s.bcast.ended = true ∧ m.ballot ≠ s.bcast.ballot)) :=
      ⟨by rw [he]; rfl, .inl (by rw [hb]; rfl)⟩
    refine (if_pos fresh).trans ?_
    have kept : (decide (BcastS.reset.ballot = m.ballot) && !BcastS.reset.ended && !BcastS.reset.digest.isEmpty) = false := by
      simp [BcastS.reset]
    subst hn
    simp only [hb, kept]
    rfl
  obtain ⟨x, sent⟩ := forEach_sendFragments 0 n.children (s := { s with bcast := n }) hl
  refine ⟨x, (start.trans sent).trans ?_⟩
  have first : n.children.flatMap (fragmentStores { s with bcast := { n with sentAt := x } } 0) =
      n.children.map fun c => planStore { s with bcast := { n with sentAt := x } } c .vf 0x2A 0 m.body :=
    flatMap_fragmentStores_last (fr := []) (by rw [hn]; rfl) _
  refine (congrArg (appendOut { s with bcast := { n with sentAt := x } }) first).trans ?_
  rw [hn]
  rfl

/-- The fragment that is due goes on to every child while more are to come (R240). -/
theorem takeFragment_due {s : State} {m : AgreeMsg} (hf : s.bcast.fragments ≠ []) (hd : s.bcast.ended = false)
    (hb : m.ballot = s.bcast.ballot) (hi : m.epoch.toNat = s.bcast.fragments.length)
    (hmore : m.epoch.toNat < (s.bcast.length + 255) / 256) (hl : s.ports.lkp = true) :
    ∃ at_, takeFragment s m = appendOut { s with bcast := { s.bcast with
      fragments := s.bcast.fragments ++ [m.body], lastFragment := s.time.gtc, sentAt := at_ } }
      (s.bcast.children.map fun c => planStore s c .vf 0x2A m.epoch.toNat m.body) := by
  have old : ¬(m.epoch.toNat = 0 ∧ (s.bcast.fragments = [] ∨ (s.bcast.ended = true ∧ m.ballot ≠ s.bcast.ballot))) := by
    simp [hf, hd]
  have next : ¬(m.ballot ≠ s.bcast.ballot ∨ m.epoch.toNat < s.bcast.fragments.length) := by simp [hb, hi]
  obtain ⟨u, hu⟩ : ∃ u : State, u = { s with
    bcast.fragments := s.bcast.fragments ++ [m.body], bcast.lastFragment := s.time.gtc } := ⟨_, rfl⟩
  have start : takeFragment s m = judgeImage (forEach s.bcast.children (fun v c => sendFragments v c m.epoch.toNat) u) := by
    subst hu
    exact (if_neg old).trans ((if_neg hf).trans ((if_neg next).trans (if_neg (by omega))))
  obtain ⟨x, sent⟩ := forEach_sendFragments m.epoch.toNat s.bcast.children (s := u) (by rw [hu]; exact hl)
  refine ⟨x, ?_⟩
  rw [start, sent, judgeImage_waits (by
    subst hu
    show (s.bcast.fragments ++ [m.body]).length < 1 + (s.bcast.length + 255) / 256
    rw [List.length_append, List.length_singleton]
    omega), hi, flatMap_fragmentStores_last (fr := s.bcast.fragments) (b := m.body) (by rw [hu]), hu]
  rfl

theorem takeFragment_repeated {s : State} {m : AgreeMsg} (hf : s.bcast.fragments ≠ []) (hd : s.bcast.ended = false)
    (h : m.ballot ≠ s.bcast.ballot ∨ m.epoch.toNat < s.bcast.fragments.length) :
    takeFragment s m = { s with cnt := s.cnt.set 18 (s.cnt.get 18 + 1) } := by
  have old : ¬(m.epoch.toNat = 0 ∧ (s.bcast.fragments = [] ∨ (s.bcast.ended = true ∧ m.ballot ≠ s.bcast.ballot))) := by
    simp [hf, hd]
  exact (if_neg old).trans ((if_neg hf).trans (if_pos h))

theorem takeFragment_gap {s : State} {m : AgreeMsg} (hf : s.bcast.fragments ≠ []) (hd : s.bcast.ended = false)
    (hb : m.ballot = s.bcast.ballot) (h : s.bcast.fragments.length < m.epoch.toNat) :
    takeFragment s m = probeParent s := by
  have old : ¬(m.epoch.toNat = 0 ∧ (s.bcast.fragments = [] ∨ (s.bcast.ended = true ∧ m.ballot ≠ s.bcast.ballot))) := by
    simp [hf, hd]
  have next : ¬(m.ballot ≠ s.bcast.ballot ∨ m.epoch.toNat < s.bcast.fragments.length) := by
    rintro (h1 | h1)
    · exact h1 hb
    · omega
  exact (if_neg old).trans ((if_neg hf).trans ((if_neg next).trans (if_pos h)))

theorem next_planNeed {s : State} {m : AgreeMsg} (own : OwnJobMessage s m) (hf : s.bcast.fragments ≠ []) :
    exec (.planNeed m) s = .next (sendFragments { s with bcast.children := addNew m.arg.toNat s.bcast.children }
      m.arg.toNat m.epoch.toNat) := by
  obtain ⟨hl, hp, ht, hs, hm⟩ := own
  exact congrArg Host.Outcome.next ((agreeIn_summer hl hp ht hs hm true _).trans (if_neg hf))

/-- The last child's acknowledgement ends the relay's part, and goes on to its parent (R241). -/
theorem next_planAck_last {s : State} {m : AgreeMsg} {r : Nat} (own : OwnJobMessage s m) (hf : s.bcast.fragments ≠ [])
    (hb : m.ballot = s.bcast.ballot) (hc : s.bcast.children = [m.arg.toNat]) (hd : s.bcast.complete = true)
    (hm : s.bcast.mailbox = none) (hr : s.bcast.parent = some r) (hlost : s.bcast.lostChildren = [])
    (ha : s.bcast.acked = []) :
    exec (.planAck m) s = .next (appendOut { s with
      bcast := { s.bcast with acked := [(m.arg.toNat, m.epoch.toNat, fldAt m.body 0 4)], ended := true } }
      [planStore s r .va 0x2C (1 + m.epoch.toNat) (leBytes 4 (fldAt m.body 0 4))]) := by
  obtain ⟨hl, hp, ht, hse, hmo⟩ := own
  have here : ¬(m.ballot ≠ s.bcast.ballot ∨ s.bcast.fragments = []) := by simp [hb, hf]
  refine congrArg Host.Outcome.next ((agreeIn_summer hl hp ht hse hmo true _).trans ((if_neg here).trans ?_))
  rw [ha, hm]
  obtain ⟨u, hu⟩ : ∃ u : State, u = { s with
    bcast := { s.bcast with acked := [(m.arg.toNat, m.epoch.toNat, fldAt m.body 0 4)], ended := true } } := ⟨_, rfl⟩
  have done : ¬((!s.bcast.complete) = true ∨ (s.bcast.ended && false) = true ∨
      (!childrenDone { s.bcast with acked := [(m.arg.toNat, m.epoch.toNat, fldAt m.body 0 4)] }) = true) := by
    simp [hd, childrenDone, hc]
  have dies : ackedDies u.bcast = m.epoch.toNat := by rw [hu]; exact Nat.add_zero _
  have lost : ackedLost u.bcast = fldAt m.body 0 4 := by
    rw [hu]
    show (fldAt m.body 0 4 + 0) + s.bcast.lostChildren.length = _
    rw [hlost]
    rfl
  have ends : ackCheck { s with bcast := { s.bcast with
      acked := [(m.arg.toNat, m.epoch.toNat, fldAt m.body 0 4)], ended := s.bcast.ended && false } } =
      sendPlanMsg u r 0x2C (1 + ackedDies u.bcast) (leBytes 4 (ackedLost u.bcast)) := by
    refine (if_neg done).trans ?_
    rw [hu]
    simp only [hm, hr]
    rfl
  refine Eq.trans ?_ (ends.trans ((sendPlanMsg_present (by rw [hu]; exact hl) ..).trans ?_))
  · rfl
  · rw [dies, lost, hu]
    rfl

/-- Settles O40: a fragment is taken first, when due, again or past a gap; the other messages and timers of the broadcast
each run one branch. -/
theorem planTravelsTheTree : Obligations.PlanTravelsTheTree := by
  unfold Obligations.PlanTravelsTheTree
  intro s
  refine ⟨fun m own => ⟨fun hb he => ?_, fun hf hc hd hb => ⟨fun hi hmore => ?_, fun hlt => ?_, fun r hgt hr hn => ?_⟩,
    fun hf hc hd hb => ?_, fun hf => ?_, fun r hf hb hc hd he hm hr hlost ha => ?_⟩,
    fun hl => ⟨fun r hc he hr hn => ⟨fun hlt => ?_, fun hge => ?_⟩, fun c at_ hat hc he hk hack hlost =>
      ⟨fun hlt => ?_, fun hge => ?_⟩, fun hf hc h0 hge => ?_, fun h => ?_⟩⟩
  case refine_1 =>
    obtain ⟨x, run⟩ := takeFragment_first hb he own.1
    have run := (next_planPart own (by rw [hb]; simp [BcastS.reset])).trans (congrArg Host.Outcome.next run)
    exact ⟨_, run, rfl, rfl, rfl, rfl, rfl, rfl, rfl, rfl, rfl, rfl⟩
  case refine_2 =>
    obtain ⟨x, run⟩ := takeFragment_due hf hd hb hi hmore own.1
    have run := (next_planPart own (by simp [hc])).trans (congrArg Host.Outcome.next run)
    exact ⟨_, run, rfl, rfl⟩
  case refine_3 =>
    exact ⟨_, (next_planPart own (by simp [hc])).trans (congrArg _ (takeFragment_repeated hf hd (.inr hlt))), rfl⟩
  case refine_4 =>
    exact ⟨_, (next_planPart own (by simp [hc])).trans (congrArg _ ((takeFragment_gap hf hd hb hgt).trans
      (probeParent_probes hr hn own.1))), rfl⟩
  case refine_5 =>
    exact ⟨_, (next_planPart own (by simp [hc])).trans (congrArg _ (takeFragment_repeated hf hd (.inl hb))), rfl⟩
  case refine_6 =>
    refine ⟨_, (next_planNeed own hf).trans (congrArg _ (sendFragments_eq (by exact own.1) _ _)), rfl, ?_, rfl⟩
    exact mem_addNew _ _
  case refine_7 => exact ⟨_, next_planAck_last own hf hb hc hd hm hr hlost ha, rfl⟩
  case refine_8 => exact ⟨_, congrArg Host.Outcome.next (if_neg fun ⟨_, _, _, h⟩ => by omega), rfl⟩
  case refine_9 =>
    have due : s.bcast.parent.isSome = true ∧ ¬ s.bcast.complete = true ∧ ¬ s.bcast.ended = true ∧
        s.bcast.lastFragment.toNat + 1000000 ≤ s.time.gtc.toNat := by simp [hr, hc, he, hge]
    exact ⟨_, congrArg Host.Outcome.next ((if_pos due).trans (probeParent_probes hr hn hl)), rfl⟩
  case refine_10 =>
    refine ⟨s, congrArg Host.Outcome.next ?_, rfl⟩
    simp only [hat]
    exact if_neg fun ⟨_, _, _, _, _, h⟩ => by omega
  case refine_11 =>
    have due : s.bcast.complete = true ∧ ¬ s.bcast.ended = true ∧ s.bcast.children.contains c = true ∧
        ¬ (s.bcast.acked.any fun a => decide (a.1 = c)) = true ∧ ¬ s.bcast.lostChildren.contains c = true ∧
        at_.toNat + 5000000 ≤ s.time.gtc.toNat := by
      refine ⟨hc, by simp [he], by simpa using hk, ?_, by simpa using hlost, hge⟩
      simpa using fun b d h => hack (c, b, d) h rfl
    have run : exec (.planChildProbe c) s = .next (sendProbe s c (.planChild c)) := by
      refine congrArg Host.Outcome.next ?_
      simp only [hat]
      exact if_pos due
    exact ⟨_, run.trans (congrArg _ (if_pos hl)), rfl⟩
  case refine_12 =>
    have due : s.bcast.fragments ≠ [] ∧ ¬ s.bcast.complete = true ∧ ownRank s ≠ 0 ∧
        s.bcast.lastFragment.toNat + 10000000 ≤ s.time.gtc.toNat := ⟨hf, by simp [hc], h0, hge⟩
    exact ⟨_, congrArg Host.Outcome.next (if_pos due), rfl⟩
  case refine_13 =>
    refine ⟨s, congrArg Host.Outcome.next (if_neg ?_), rfl⟩
    rintro ⟨h1, h2, h3, h4⟩
    rcases h with h | h | h | h
    · exact h1 h
    · exact h2 h
    · exact h3 h
    · omega

end Sys2Proof.Machine

/-! PROOFS. Twins pair, compare and search (R269, R270). -/

namespace Sys2Proof.Machine

theorem sendTwin_present {s : State} {r : Nat} (hl : s.ports.lkp = true) (hr : s.twin.peer = some r) (type : Byte)
    (arg : U32) (body : List Byte) : sendTwin s type arg body = appendOut s [twinStore s r type arg body] := by
  simp only [sendTwin, hr]
  exact sendTo_present hl ..

/-- A comparison with nothing heard of the peer yet. -/
theorem compareTwins_unheard {s : State} (h : s.twin.theirs = []) : compareTwins s = s := by
  have no : commonTide s = none := by simp [commonTide, h]
  have even : peerLags s = false := by
    rw [peerLags, h]
    cases s.twin.own.getLast? <;> rfl
  rw [compareTwins, no, even]
  exact ite_self _

/-- The summary a twin sends of its sealed tide (R269). -/
def twinSummary (s : State) : List Byte :=
  leBytes 6 (sealedTide s).toNat ++ leBytes 2 0 ++ leBytes 4 (twinRows s) ++ leBytes 4 0 ++
    sha256 (digestSection s (sealedTide s))

theorem twinSummary_tide (s : State) : fldAt (twinSummary s) 0 6 = (sealedTide s).toNat := by
  rw [fldAt, List.drop_zero, twinSummary, List.append_assoc, List.append_assoc, List.append_assoc,
    List.take_left' (leBytes_length _ _), leNat_leBytes_of_lt (sealedTide s).isLt]

theorem twinSummary_digest (s : State) : (twinSummary s).drop 16 = sha256 (digestSection s (sealedTide s)) :=
  List.drop_left' (by simp only [List.length_append, leBytes_length])

/-- The first summary of a pair goes out and waits for the peer's. -/
theorem sendTwinSum_first {s : State} {r : Nat} (hl : s.ports.lkp = true) (hr : s.twin.peer = some r)
    (ho : s.twin.own = []) (ht : s.twin.theirs = []) : sendTwinSum s =
      appendOut { s with twin.own := [(sealedTide s, (twinSummary s).drop 16)] } [twinStore s r 0x50 0 (twinSummary s)] := by
  obtain ⟨u, hu⟩ : ∃ u : State, u = { s with twin.own := [(sealedTide s, (twinSummary s).drop 16)] } := ⟨_, rfl⟩
  have start : sendTwinSum s = compareTwins (sendTwin u 0x50 0 (twinSummary s)) := by
    rw [hu, twinSummary_digest]
    simp only [sendTwinSum, hr, ho]
    rfl
  rw [start, sendTwin_present (by rw [hu]; exact hl) (by rw [hu]; exact hr), compareTwins_unheard (by rw [hu]; exact ht),
    hu]
  rfl

/-! ### TWIN_PAIR -/

/-- The work of TWIN_PAIR with a mode above 0, for a peer that may be one. -/
theorem next_twinPair {s : State} {mb : Fin 8} {priv : Bool} {cmd : Line} (h : Handled s mb priv 0x14 cmd) :
    exec (.twinPair (.issue mb (portOf mb) priv cmd)) s = .next (
      if 2 < fld cmd 12 1 then badArg (took s mb priv cmd) mb 12
      else if fld cmd 12 1 = 0 then respondOk { took s mb priv cmd with twin := { s.twin with
        state := 0, peer := none, mode := 0, own := [], theirs := [], compared := none } } mb
      else
        match s.job.part with
        | none => wrongState (took s mb priv cmd) mb
        | some p =>
          if partitionDies p ≤ fld cmd 8 4 ∨ fld cmd 8 4 / 64 = p.rank / 64 then badArg (took s mb priv cmd) mb 8
          else sendTwinSum { took s mb priv cmd with twin := { s.twin with
            state := 1, peer := some (fld cmd 8 4), mode := BitVec.ofNat 8 (fld cmd 12 1), own := [], theirs := [],
            compared := none, rowsChecked := false, mailbox := some mb } }) :=
  exec_handled _ h (by rfl)

theorem twinPair_off {s : State} {mb : Fin 8} {priv : Bool} {cmd : Line} (h : Handled s mb priv 0x14 cmd)
    (hm : fld cmd 12 1 = 0) : Ends (.twinPair (.issue mb (portOf mb) priv cmd)) s fun t =>
      Answered s t mb cmd 0 0 ∧
      t.twin = { s.twin with state := 0, peer := none, mode := 0, own := [], theirs := [], compared := none } ∧
      t = { s with mb := t.mb, events := t.events, stat := { s.stat with evtOvf := t.stat.evtOvf }, twin := t.twin } := by
  obtain ⟨u, hu⟩ : ∃ u : State, u = { took s mb priv cmd with twin := { s.twin with
    state := 0, peer := none, mode := 0, own := [], theirs := [], compared := none } } := ⟨_, rfl⟩
  have running : fwRunning u = true := by
    rw [hu]
    exact (fwRunning_of_handled h :)
  refine ⟨respondOk u mb, (next_twinPair h).trans (congrArg Host.Outcome.next ?_), ?_, ?_, ?_⟩
  · rw [hu]
    exact (if_neg (by omega)).trans (if_pos hm)
  · exact answered_respond running (by rw [hu]; exact box_took ..) (by decide) (by decide) (by simp)
  · rw [respondOk, respond_twin, hu]
  · rw [respondOk]
    obtain ⟨t, ht⟩ : ∃ t, t = respond u mb stOk 0 [] := ⟨_, rfl⟩
    have only : OnlyBox u t mb := ht ▸ onlyBox_respond running mb stOk 0 []
    have hmb : t.mb = { u.mb with boxes := t.mb.boxes } := congrArg State.mb only.frame
    have htwin : t.twin = u.twin := by rw [only.frame]
    rw [← ht, htwin]
    refine only.frame.trans ?_
    rw [hmb, hu]
    rfl

theorem twinPair_sends {s : State} {mb : Fin 8} {priv : Bool} {cmd : Line} {p : Partition}
    (h : Handled s mb priv 0x14 cmd) (hp : s.job.part = some p) (hm : fld cmd 12 1 = 1 ∨ fld cmd 12 1 = 2)
    (hbox : fld cmd 8 4 / 64 ≠ p.rank / 64) (hd : fld cmd 8 4 < partitionDies p) (hl : s.ports.lkp = true) :
    exec (.twinPair (.issue mb (portOf mb) priv cmd)) s = .next (appendOut { took s mb priv cmd with twin := { s.twin with
      state := 1, peer := some (fld cmd 8 4), mode := BitVec.ofNat 8 (fld cmd 12 1),
      own := [(sealedTide s, (twinSummary s).drop 16)], theirs := [],
      compared := none, rowsChecked := false, mailbox := some mb } }
      [twinStore s (fld cmd 8 4) 0x50 0 (twinSummary s)]) := by
  obtain ⟨u, hu⟩ : ∃ u : State, u = { took s mb priv cmd with twin := { s.twin with
    state := 1, peer := some (fld cmd 8 4), mode := BitVec.ofNat 8 (fld cmd 12 1), own := [], theirs := [],
    compared := none, rowsChecked := false, mailbox := some mb } } := ⟨_, rfl⟩
  have sent := sendTwinSum_first (s := u) (r := fld cmd 8 4) (by rw [hu]; exact hl) (by rw [hu]) (by rw [hu]) (by rw [hu])
  refine (next_twinPair h).trans (congrArg Host.Outcome.next ?_)
  simp only [hp]
  have may : ¬(partitionDies p ≤ fld cmd 8 4 ∨ fld cmd 8 4 / 64 = p.rank / 64) := by
    rintro (h1 | h1)
    · omega
    · exact hbox h1
  rw [if_neg (by omega), if_neg (by omega), if_neg may, ← hu, sent, hu]
  rfl

/-! ### TWIN_SUM -/

theorem agreeIn_own {s : State} {m : AgreeMsg} (hl : s.ports.lkp = true) (hp : s.job.part.isSome = true)
    (ht : m.jobTag = jobTag s) (hs : s.power.season.get ≠ 2) (f : State → State) :
    agreeIn s m false f = f s := by
  have here : ¬(m.jobTag ≠ jobTag s ∨ s.job.part.isNone = true) := by
    rintro (h | h)
    · exact h ht
    · rw [Option.isNone_iff_eq_none] at h
      simp [h] at hp
  exact (if_neg (by simp [hl])).trans ((if_neg here).trans (if_neg hs))

theorem twinSum_rows_differ {s : State} {m : AgreeMsg} {r : Nat} {mb : Fin 8} (hl : s.ports.lkp = true)
    (hp : s.job.part.isSome = true) (ht : m.jobTag = jobTag s) (hs : s.power.season.get ≠ 2)
    (hr : s.twin.peer = some r) (hrows : fldAt m.body 8 4 ≠ twinRows s) (hc : s.twin.rowsChecked = false)
    (hm : s.twin.mailbox = some mb) : exec (.twinSum m) s = .next
      (badArg { s with twin := { s.twin with state := 0, peer := none, mode := 0, mailbox := none } } mb 8) := by
  have differ : fldAt m.body 8 4 ≠ twinRows s ∧ ¬ s.twin.rowsChecked = true := ⟨hrows, by simp [hc]⟩
  refine congrArg Host.Outcome.next ((agreeIn_own hl hp ht hs _).trans ?_)
  simp only [hr]
  refine (if_pos differ).trans ?_
  simp only [hm]

/-- A summary from the peer whose row count has been checked is kept and compared. -/
theorem twinSum_kept {s : State} {m : AgreeMsg} {r : Nat} (hl : s.ports.lkp = true) (hp : s.job.part.isSome = true)
    (ht : m.jobTag = jobTag s) (hs : s.power.season.get ≠ 2) (hr : s.twin.peer = some r)
    (hc : s.twin.rowsChecked = true) (hm : s.twin.mailbox = none) (hth : s.twin.theirs = []) :
    exec (.twinSum m) s = .next (compareTwins { s with twin := { s.twin with
      theirs := [(BitVec.ofNat 48 (fldAt m.body 0 6), (m.body.drop 16).take 32)] } }) := by
  have known : ¬(fldAt m.body 8 4 ≠ twinRows s ∧ ¬ s.twin.rowsChecked = true) := fun h => h.2 hc
  refine congrArg Host.Outcome.next ((agreeIn_own hl hp ht hs _).trans ?_)
  simp only [hr]
  refine (if_neg known).trans ?_
  have kept : lastTwo ((s.twin.theirs.filter fun o => o.1 ≠ BitVec.ofNat 48 (fldAt m.body 0 6)) ++
      [(BitVec.ofNat 48 (fldAt m.body 0 6), (m.body.drop 16).take 32)]) =
      [(BitVec.ofNat 48 (fldAt m.body 0 6), (m.body.drop 16).take 32)] := by
    rw [hth]
    rfl
  rw [hm, respondOpt_none]
  have same : ({ s.twin with
      peer := some r
      theirs := lastTwo ((s.twin.theirs.filter fun o => o.1 ≠ BitVec.ofNat 48 (fldAt m.body 0 6)) ++
        [(BitVec.ofNat 48 (fldAt m.body 0 6), (m.body.drop 16).take 32)])
      rowsChecked := true, mailbox := none } : TwinS) =
      { s.twin with
        peer := some r, mailbox := none
        theirs := [(BitVec.ofNat 48 (fldAt m.body 0 6), (m.body.drop 16).take 32)] } := by
    rw [kept, ← hc]
  exact congrArg (fun w => compareTwins { s with twin := w }) same

/-- A comparison of one summary of each side, of one tide. -/
theorem compareTwins_of_common {s : State} {t : U48} {a b : List Byte} {r : Nat} (hj : s.job.state = 3)
    (ho : s.twin.own = [(t, a)]) (hth : s.twin.theirs = [(t, b)]) (hr : s.twin.peer = some r) : compareTwins s =
      if s.twin.compared = some t then s
      else if a = b then { s with twin := { s.twin with state := 2, tide := t, compared := some t } }
      else
        let u := { s with twin := { s.twin with state := 3, tide := t, compared := some t, lineValid := false, lo := 0, hi := 16384 } }
        if ownRank s < r then
          forEach (List.range ((rowsY u + 31) / 32)) (fun v i =>
            sendTwin v 0x51 (BitVec.ofNat 32 (32 * i)) (bayDigests v (32 * i))) u
        else u := by
  have common : commonTide s = some (t, a, b) := by simp [commonTide, ho, hth]
  have formed : ¬ s.job.state ≠ 3 := by simp [hj]
  rw [compareTwins, if_neg formed, common]
  simp only [hr]

/-! ### The search (R270) -/

theorem sendRange_present {s : State} {r : Nat} (hl : s.ports.lkp = true) (hr : s.twin.peer = some r) (b lo hi : Nat) :
    sendRange s b lo hi = appendOut { s with twin := { s.twin with lo := lo, hi := hi } }
      [twinStore s r 0x52 (BitVec.ofNat 32 b) (leBytes 2 lo ++ leBytes 2 (lo + (hi - lo) / 2) ++ leBytes 4 0 ++
        leBytes 8 (rangeDigest s b lo (lo + (hi - lo) / 2)).toNat)] :=
  (sendTwin_present (by exact hl) (by exact hr) ..).trans rfl

theorem twinBays_opens {s : State} {m : AgreeMsg} {r i : Nat} (hl : s.ports.lkp = true) (hp : s.job.part.isSome = true)
    (ht : m.jobTag = jobTag s) (hs : s.power.season.get ≠ 2) (hr : s.twin.peer = some r) (h3 : s.twin.state = 3)
    (hrank : r ≤ ownRank s) (hlo : s.twin.lo = 0) (hhi : s.twin.hi = 16384) (hin : i < m.body.length / 8)
    (hne : (m.body.drop (8 * i)).take 8 ≠ ((digestSection s s.twin.tide).drop (8 * (m.arg.toNat + i))).take 8)
    (hmin : ∀ j, j < i →
      (m.body.drop (8 * j)).take 8 = ((digestSection s s.twin.tide).drop (8 * (m.arg.toNat + j))).take 8) :
    exec (.twinBays m) s = .next (sendRange { s with twin.bay := BitVec.ofNat 16 (m.arg.toNat + i) }
      (m.arg.toNat + i) 0 16384) := by
  have first : ((List.range (m.body.length / 8)).find? fun i => decide ((m.body.drop (8 * i)).take 8 ≠
      ((digestSection s s.twin.tide).drop (8 * (m.arg.toNat + i))).take 8)) = some i := by
    rw [List.find?_range_eq_some]
    exact ⟨by simpa using hne, List.mem_range.2 hin, fun j hj => by simpa using hmin j hj⟩
  have open_ : ¬(s.twin.state ≠ 3 ∨ decide (ownRank s < r) = true ∨ s.twin.lo ≠ 0 ∨ s.twin.hi ≠ 16384) := by
    simp [h3, hlo, hhi, hrank]
  refine congrArg Host.Outcome.next ((agreeIn_own hl hp ht hs _).trans ?_)
  simp only [hr]
  refine (if_neg open_).trans ?_
  simp only [first]

theorem next_twinRange {s : State} {m : AgreeMsg} (hl : s.ports.lkp = true) (hp : s.job.part.isSome = true)
    (ht : m.jobTag = jobTag s) (hs : s.power.season.get ≠ 2) (h3 : s.twin.state = 3)
    (hfe : fldAt m.body 0 2 < fldAt m.body 2 2) : exec (.twinRange m) s = .next (
      let f := fldAt m.body 0 2
      let e := fldAt m.body 2 2
      let differs := decide (fldAt m.body 8 8 ≠ (rangeDigest s m.arg.toNat f e).toNat)
      let lo := if differs then f else e
      let hi := if differs then e else 2 * e - f
      if hi - lo ≤ 1 then
        sendTwin (twinFound s m.arg.toNat lo) 0x52 m.arg (leBytes 2 lo ++ leBytes 2 lo ++ leBytes 4 0 ++ leBytes 8 0)
      else sendRange s m.arg.toNat lo hi) :=
  congrArg Host.Outcome.next ((agreeIn_own hl hp ht hs _).trans
    ((if_neg (by simp [h3])).trans (if_neg (by exact Nat.not_le.2 hfe))))

theorem twinFound_present {s : State} (hm : s.ports.mgp = true) (b l : Nat) : twinFound s b l = { s with
    twin := { s.twin with
      state := 4, divEvt := true, bay := BitVec.ofNat 16 b, line := BitVec.ofNat 14 l, lineValid := true,
      lo := l, hi := l + 1 }
    events := { s.events with delivered := s.events.delivered ++ [⟨7, 0, 1, s.time.gtc⟩] } } :=
  raiseEvent_present _ _ _ hm

theorem twinPeerLost_ends {s : State} {r : Nat} (hr : s.twin.peer = some r) (h0 : s.twin.state ≠ 0)
    (hm : s.twin.mailbox = none) (hmgp : s.ports.mgp = true) : exec .twinPeerLost s = .next { s with
      twin := { s.twin with state := 5 }
      events := { s.events with delivered := s.events.delivered ++ [⟨8, 0, 1, s.time.gtc⟩] } } := by
  have lost : s.twin.peer.isSome = true ∧ s.twin.state ≠ 0 := ⟨by rw [hr]; rfl, h0⟩
  refine congrArg Host.Outcome.next ((if_pos lost).trans ?_)
  rw [hm]
  refine (raiseEvent_present _ _ _ (by exact hmgp)).trans ?_
  have same : ({ s.twin with state := 5, mailbox := none } : TwinS) = { s.twin with state := 5 } := by rw [← hm]
  exact congrArg (fun w : TwinS => ({ s with
    twin := w
    events := { s.events with delivered := s.events.delivered ++ [⟨8, 0, 1, s.time.gtc⟩] } } : State)) same

theorem lkpStoreDiscard_counts {s : State} {off : U16} {vc : Vc} (bytes : List Byte) (hl : s.ports.lkp = true)
    (hs : s.power.season.get ≠ 2)
    (h : (off ≠ 0x0100 ∧ off ≠ 0x0200) ∨ (off = 0x0100 ∧ vc = .vf) ∨ (off = 0x0200 ∧ vc = .va)) :
    exec (.lkpStoreDiscard off vc bytes) s = .next { s with cnt := s.cnt.set 17 (s.cnt.get 17 + 1) } := by
  have other : discardable off vc bytes = true := by
    rcases h with ⟨h1, h2⟩ | ⟨rfl, rfl⟩ | ⟨rfl, rfl⟩
    · cases vc
      · exact Bool.or_eq_true_iff.2 (.inl (decide_eq_true h1))
      · exact Bool.or_eq_true_iff.2 (.inl (decide_eq_true h2))
    · rfl
    · rfl
  exact congrArg Host.Outcome.next ((if_neg (by simp [hl, other])).trans (if_neg fun h => hs h.1))

/-- Settles O46: each command and message of the pair runs one branch; the search keeps the half that differs. -/
theorem twinsCompareAndSearch : Obligations.TwinsCompareAndSearch := by
  unfold Obligations.TwinsCompareAndSearch
  intro s
  refine ⟨fun mb priv cmd hh _ => ⟨twinPair_off hh, fun p hp hm hbox => ?_, fun p hp hl hm hbox hd => ?_⟩,
    fun m r hl hp ht hs hr => ⟨fun mb hrows hc hm hf => ?_, fun d hc hm hj hth ho => ⟨fun hk => ?_, fun hk heq => ?_,
      fun hk hne hrank => ?_⟩, fun i h3 hrank hlo hhi hi hne hmin => ?_, fun f e h3 hf he hfe => ⟨fun hd => ?_, fun hd => ?_⟩,
      fun f h3 hf he hmgp => ?_, fun h0 hm hmgp => ⟨_, twinPeerLost_ends hr h0 hm hmgp, rfl⟩⟩,
    fun off vc bytes hl hs h => ⟨_, lkpStoreDiscard_counts bytes hl hs h, rfl⟩⟩
  case refine_1 =>
    refine ⟨_, (next_twinPair hh).trans (congrArg Host.Outcome.next ?_), refusedOnly hh (status := stBadArg) (detail := 8) (by decide) (by decide)⟩
    simp only [hp]
    exact (if_neg (by omega)).trans ((if_neg (by omega)).trans (if_pos (.inr hbox)))
  case refine_2 =>
    have taken := box_took s mb priv cmd
    refine ⟨_, twinPair_sends hh hp hm hbox hd hl, rfl, ?_, ?_, rfl, _, rfl, twinSummary_tide s, rfl⟩
    · exact (congrArg Mailbox.busy taken :)
    · exact (congrArg Mailbox.rsp taken :)
  case refine_3 =>
    obtain ⟨u, hu⟩ : ∃ u : State,
      u = { s with twin := { s.twin with state := 0, peer := none, mode := 0, mailbox := none } } := ⟨_, rfl⟩
    have running : fwRunning u = true := by
      rw [hu]
      exact decide_eq_true hf
    have others := (onlyBox_respond running mb stBadArg 8 []).others
    have answer := respond_box_same u mb stBadArg 8 [] running
    refine ⟨respond u mb stBadArg 8 [], ?_, ?_, ?_, ?_, ?_, ?_⟩
    · rw [hu]
      exact twinSum_rows_differ hl hp ht hs hr hrows hc hm
    · rw [respond_twin, hu]
    · rw [answer]
      rfl
    · rw [answer]
      rfl
    · rw [answer]
      exact (responseLine_header (status := stBadArg) (rs := []) _ _ _ (by decide) (by decide) (by simp)).2.2.2
    · rw [hu] at others ⊢
      exact others
  case refine_4 =>
    exact ⟨_, (twinSum_kept hl hp ht hs hr hc hm hth).trans (congrArg _
      ((compareTwins_of_common (by exact hj) (by exact ho) rfl (by exact hr)).trans (if_pos hk))), rfl⟩
  case refine_5 =>
    refine ⟨_, (twinSum_kept hl hp ht hs hr hc hm hth).trans (congrArg _
      ((compareTwins_of_common (by exact hj) (by exact ho) rfl (by exact hr)).trans ((if_neg hk).trans (if_pos heq.symm)))), ?_⟩
    rw [heq]
  case refine_6 =>
    refine ⟨_, (twinSum_kept hl hp ht hs hr hc hm hth).trans (congrArg _
      ((compareTwins_of_common (by exact hj) (by exact ho) rfl (by exact hr)).trans ((if_neg hk).trans ((if_neg (Ne.symm hne)).trans
        (if_neg (by exact Nat.not_lt.2 hrank)))))), rfl⟩
  case refine_7 =>
    refine ⟨_, (twinBays_opens hl hp ht hs hr h3 hrank hlo hhi hi hne hmin).trans (congrArg _
      (sendRange_present (by exact hl) (by exact hr) ..)), ?_⟩
    show appendOut { s with twin := { s.twin with bay := BitVec.ofNat 16 (m.arg.toNat + i), lo := 0, hi := 16384 } } _ = _
    have same : ({ s.twin with bay := BitVec.ofNat 16 (m.arg.toNat + i), lo := 0, hi := 16384 } : TwinS) =
        { s.twin with bay := BitVec.ofNat 16 (m.arg.toNat + i) } := by rw [← hlo, ← hhi]
    rw [same]
    rfl
  case refine_8 =>
    subst hf he
    have run := next_twinRange hl hp ht hs h3 (by omega)
    simp only [decide_eq_true hd, if_true] at run
    rw [if_neg (by omega), sendRange_present hl hr] at run
    exact ⟨_, run, rfl, by simp [appendOut]⟩
  case refine_9 =>
    subst hf he
    have run := next_twinRange hl hp ht hs h3 (by omega)
    simp only [hd, ne_eq, not_true, decide_false, Bool.false_eq_true, if_false] at run
    rw [if_neg (by omega), sendRange_present hl hr] at run
    exact ⟨_, run, rfl, by simp [appendOut]⟩
  case refine_10 =>
    subst hf
    have run := next_twinRange hl hp ht hs h3 (by omega)
    rw [he] at run
    by_cases hd : fldAt m.body 8 8 = (rangeDigest s m.arg.toNat (fldAt m.body 0 2) (fldAt m.body 0 2 + 1)).toNat
    · simp only [hd, ne_eq, not_true, decide_false, Bool.false_eq_true, if_false] at run
      rw [if_pos (by omega), twinFound_present hmgp, sendTwin_present (by exact hl) (by exact hr)] at run
      exact ⟨_, run, rfl, rfl, rfl, rfl, (if_neg (not_not.2 hd)).symm, rfl, rfl⟩
    · simp only [decide_eq_true hd, ne_eq, if_true] at run
      rw [if_pos (by omega), twinFound_present hmgp, sendTwin_present (by exact hl) (by exact hr)] at run
      exact ⟨_, run, rfl, rfl, rfl, rfl, (if_pos hd).symm, rfl, rfl⟩

end Sys2Proof.Machine

/-! PROOFS. A counterexample to the statement on the reset levels (R312, R375, R383). -/

namespace Sys2Proof.Machine

/-- A run without tiles, of the command of mailbox 0. -/
def emptyRun : ApplyRun :=
  { mailbox := 0, recipe := ⟨0, 0, [], [], [], []⟩, step := 0, reduceBase := 0, scalars := [], layer := 0, tile := 0,
    endLayer := 0, running := Vector.replicate 4 none, stop := .coreReset, aborts := [], faultIndex := 0, startGtc := 0,
    lastGtc := none, laneOps := 0, nonfinite := 0, races := 0 }

/-- A core reset whose apply stop has lasted 100 us, while the fence that UNIT_FENCE of mailbox 5 asked for waits for a
cluster, and firmware is not running. -/
def fenceWaitsForStop : State := { State.reset with
  rst := { ResetS.powerOn with phase := .coreStopping 0 }
  time := { TimeS.reset with gtc := 100000 }
  apply := { ApplyS.reset with run := some emptyRun, switching := some (0, 1, some 5, false) } }

/-- Refutes O52: with the clusters stopped, a fence that waits switches in, and its answer, which firmware cannot give,
joins the results kept for after the reset (R312, R375); the statement has the run's results alone join them. -/
theorem not_resetLevels : ¬ Obligations.ResetLevels := by
  intro h
  obtain ⟨-, -, -, -, -, -, -, -, -, -, stops, -⟩ := h fenceWaitsForStop
  obtain ⟨-, ended, -⟩ := stops 0 emptyRun rfl rfl
  obtain ⟨t, ht, -, -, -, fs, results, -⟩ := ended (by decide)
  obtain rfl := Host.Outcome.next.inj ht
  have two : (stopAtOnce fenceWaitsForStop emptyRun).rst.results.length = 2 := by decide +kernel
  have one : (fenceWaitsForStop.rst.results ++ [(emptyRun.mailbox, fs)]).length = 1 := rfl
  exact absurd ((one.symm.trans (congrArg List.length results).symm).trans two) (by decide)

end Sys2Proof.Machine

/-! PROOFS. A counterexample to the statement on the firmware's start (R382, R391). -/

namespace Sys2Proof.Machine

/-- Spring from Winter with the image checked, and a core reset held since the transition. -/
def resetHeldInSpring : State := { State.reset with
  stat := { HyStat.reset with fwState := V3.all 1 }
  fw := { image := [], expected := 0, length := 0, checked := true }
  rst := { ResetS.powerOn with phase := .running, heldMgp := true }
  power := { PowerS.reset with moving := true, fromWinter := true, springStep := 3, season := V3.all 3 } }

/-- Refutes O53: FIRMWARE_READY that ends a Spring from Winter lets a core reset that was held go on (R382), which puts
FW_STATE back to CHECKING, while the statement has it RUNNING whatever is held. -/
theorem not_firmwareComesUp : ¬ Obligations.FirmwareComesUp := by
  intro h
  obtain ⟨-, -, -, -, -, ready⟩ := h resetHeldInSpring
  obtain ⟨spring, -⟩ := ready (by decide) rfl rfl
  obtain ⟨t, ht, running, -⟩ := spring rfl rfl rfl
  obtain rfl := Host.Outcome.next.inj ht
  have checking : (wakeFirmware (freshDataMemory { resetHeldInSpring with fw.checked := false })).stat.fwState.get = 1 := by
    decide +kernel
  exact absurd (checking.symm.trans running) (by decide)

end Sys2Proof.Machine

/-! PROOFS. POWER_SET, the seasons reached, and the steps of Spring (R236, R387 to R391). -/

namespace Sys2Proof.Machine

/-! ### What the ends of transitions find nothing to do about -/

theorem releaseHeldReset_none {s : State} (hm : s.rst.heldMgp = false) (hw : s.rst.heldWdog = false) :
    releaseHeldReset s = s := if_neg (by simp [hm, hw])

theorem settled_quiet {s : State} (hk : s.power.wakeKept = false) (hm : s.rst.heldMgp = false)
    (hw : s.rst.heldWdog = false) : settled s = s :=
  (if_neg (by simp [hk])).trans (releaseHeldReset_none hm hw)

theorem askWaker_none {s : State} (h : s.bcast.wokeBy = none) : askWaker s = s := by
  simp only [askWaker, h]

/-- MSP absent with nothing held and nothing captured. -/
theorem releaseMsp_idle {s : State} (hh : s.cap.held = []) (ho : s.cap.oldReads = []) (hq : s.cap.queue = []) :
    releaseMsp s = s := by
  have merges : completeMerges s = s := by rw [completeMerges, hq]; rfl
  have same : ({ s.cap with held := [], oldReads := [], queue := [] } : CapS) = s.cap := by rw [← hh, ← ho, ← hq]
  rw [releaseMsp, merges, hh, ho, hq]
  exact congrArg (fun c : CapS => ({ s with cap := c } : State)) same

theorem respondOpt_held (s : State) (mb : Option (Fin 8)) (status detail : Nat) :
    (respondOpt s mb status detail).rst.heldMgp = s.rst.heldMgp ∧
      (respondOpt s mb status detail).rst.heldWdog = s.rst.heldWdog := by
  cases mb with
  | none => exact ⟨rfl, rfl⟩
  | some m =>
    by_cases hf : fwRunning s = true
    · have only := (onlyBox_respond hf m status detail []).frame
      exact ⟨(congrArg (fun t : State => t.rst.heldMgp) only).trans rfl,
        (congrArg (fun t : State => t.rst.heldWdog) only).trans rfl⟩
    · have kept : respond s m status detail [] = _ := if_neg hf
      exact ⟨(congrArg (fun t : State => t.rst.heldMgp) kept).trans rfl,
        (congrArg (fun t : State => t.rst.heldWdog) kept).trans rfl⟩

/-! ### POWER_SET (R389) -/

theorem next_powerSet {s : State} {priv : Bool} {cmd : Line} (h : Handled s 5 priv 0x15 cmd) :
    exec (.powerSet (.issue 5 .mgp priv cmd)) s = .next (powerWork 5 (takenCmd 5 priv cmd) (took s 5 priv cmd)) :=
  exec_handled powerWork h (by rfl)

theorem box_took_other {s : State} {mb m : Fin 8} {priv : Bool} {cmd : Line} (h : m ≠ mb) :
    box (took s mb priv cmd) m = box s m := otherBoxes_took s mb priv cmd m h

/-- One long command of the list that keeps Autumn waiting, and none else. -/
theorem longMailbox_only {s : State} {m : Fin 8} (hl : (box s m).long = true)
    (ho : ∀ q : Fin 8, q ≠ m → (box s q).long = false) (op : Nat) :
    longMailbox s op = if (box s m).op.toNat % 128 = op then some m else none := by
  have test : ∀ q : Fin 8, ((box s q).long && decide ((box s q).op.toNat % 128 = op)) = true ↔
      q = m ∧ (box s m).op.toNat % 128 = op := fun q => by
    by_cases hq : q = m
    · subst hq
      simp [hl]
    · simp [ho q hq, hq]
  split
  · next hop =>
    refine find?_eq_of_unique (List.mem_finRange m) ((test m).2 ⟨rfl, hop⟩) fun q _ hq => ((test q).1 hq).1
  · next hop => exact List.find?_eq_none.2 fun q _ hq => hop ((test q).1 hq).2

theorem longMailbox_none {s : State} (h : ∀ q : Fin 8, (box s q).long = false) (op : Nat) : longMailbox s op = none :=
  List.find?_eq_none.2 fun q _ => by simp [h q]

theorem otherLong_none {s : State} {mb : Fin 8} (h : ∀ q : Fin 8, q ≠ mb → (box s q).long = false) :
    otherLong s mb = none :=
  List.find?_eq_none.2 fun q _ => by
    by_cases hq : q = mb
    · simp [hq]
    · simp [h q hq]

/-- The long commands that Autumn waits for (R389). -/
theorem autumnWaits_only {s : State} {m : Fin 8} (hl : (box s m).long = true)
    (hop : (box s m).op ∈ [0x0C, 0x0D, 0x0E, 0x10, 0x12, 0x13, 0x1B]) (ho : ∀ q : Fin 8, q ≠ m → (box s q).long = false) :
    ([0x0C, 0x0D, 0x0E, 0x10, 0x12, 0x13, 0x1B].findSome? fun op => longMailbox s op) = some m := by
  rw [funext (longMailbox_only hl ho)]
  simp only [List.mem_cons, List.not_mem_nil, or_false] at hop
  rcases hop with h | h | h | h | h | h | h <;> rw [h] <;> rfl

theorem autumnWaits_none {s : State} (h : ∀ q : Fin 8, (box s q).long = false) :
    ([0x0C, 0x0D, 0x0E, 0x10, 0x12, 0x13, 0x1B].findSome? fun op => longMailbox s op) = none := by
  rw [funext (longMailbox_none h)]
  rfl

theorem took_long {s : State} {priv : Bool} {cmd : Line} (q : Fin 8) : (box (took s 5 priv cmd) q).long = (box s q).long := by
  by_cases hq : q = 5
  · subst hq
    rw [box_took]
    rfl
  · rw [box_took_other hq]

/-- What POWER_SET starts. -/
theorem powerSet_starts {s : State} {priv : Bool} {cmd : Line} (f : PowerS → PowerS) (t : State)
    (ht : t = { accepted (took s 5 priv cmd) 5 with power := f (accepted (took s 5 priv cmd) 5).power }) :
    RunsLong s t 5 cmd ∧ BoxFrame s t 5 ∧
      t = { s with
        mb := t.mb, events := t.events, stat := { s.stat with evtOvf := t.stat.evtOvf }, power := f s.power } := by
  obtain ⟨u, hu⟩ : ∃ u, u = accepted (took s 5 priv cmd) 5 := ⟨_, rfl⟩
  have only : OnlyBox s u 5 := hu ▸ (onlyBox_took ..).trans (onlyBox_accepted ..)
  have runs : RunsLong s u 5 cmd := hu ▸ runsLong_accepted (box_took ..)
  have hmb : u.mb = { s.mb with boxes := u.mb.boxes } := congrArg State.mb only.frame
  have power : u.power = s.power := by rw [only.frame]
  rw [← hu, power] at ht
  subst ht
  refine ⟨runs, only.boxFrame, ?_⟩
  conv_lhs => rw [only.frame]
  rw [hmb]

/-- POWER_SET from Summer (R389). -/
theorem powerSet_summer {s : State} {priv : Bool} {cmd : Line} (h : Handled s 5 priv 0x15 cmd) (hm : s.power.moving = false) :
    (2 < fld cmd 8 1 → Ends (.powerSet (.issue 5 .mgp priv cmd)) s fun t =>
        Answered s t 5 cmd 0x10 8 ∧ OnlyAnswer s t 5) ∧
    (fld cmd 8 1 = 0 → Ends (.powerSet (.issue 5 .mgp priv cmd)) s fun t =>
        Answered s t 5 cmd 0 0 ∧ OnlyAnswer s t 5) ∧
    (∀ m : Fin 8, fld cmd 8 1 = 1 → m ≠ 5 → (box s m).long = true →
        (box s m).op ∈ [0x0C, 0x0D, 0x0E, 0x10, 0x12, 0x13, 0x1B] → (∀ q : Fin 8, q ≠ m → (box s q).long = false) →
        Ends (.powerSet (.issue 5 .mgp priv cmd)) s fun t => Answered s t 5 cmd 0x13 m.val ∧ OnlyAnswer s t 5) ∧
    ((∀ q : Fin 8, (box s q).long = false) → s.bist.test = none →
        (fld cmd 8 1 = 1 → s.recov.state.get ∈ [1, 2, 3, 4, 5, 6, 8] ∨ s.twin.state ≠ 0 →
          Ends (.powerSet (.issue 5 .mgp priv cmd)) s fun t =>
            Answered s t 5 cmd 0x12 (s.job.state.toNat + 256 * s.tide.phase.get.toNat) ∧ OnlyAnswer s t 5) ∧
        (fld cmd 8 1 = 2 → 2 < s.job.state.toNat → Ends (.powerSet (.issue 5 .mgp priv cmd)) s fun t =>
          Answered s t 5 cmd 0x12 (s.job.state.toNat + 256 * s.tide.phase.get.toNat) ∧ OnlyAnswer s t 5) ∧
        ((fld cmd 8 1 = 1 ∧ s.recov.state.get ∈ [0, 7, 9] ∧ s.twin.state = 0) ∨
            (fld cmd 8 1 = 2 ∧ s.job.state.toNat ≤ 2) → Ends (.powerSet (.issue 5 .mgp priv cmd)) s fun t =>
          RunsLong s t 5 cmd ∧ BoxFrame s t 5 ∧
          t = { s with
            mb := t.mb, events := t.events, stat := { s.stat with evtOvf := t.stat.evtOvf }
            power := { s.power with moving := true, target := BitVec.ofNat 2 (fld cmd 8 1), mailbox := some 5 } })) := by
  have summer : s.power.season.get = 0 := h.2.2.2.2.2
  have season : (took s 5 priv cmd).power.season.get.toNat = 0 := congrArg BitVec.toNat summer
  have still : ¬ (took s 5 priv cmd).power.moving = true := by
    rw [Bool.not_eq_true]
    exact hm
  have refused := fun (status detail : Nat) (h1 : status < 256) (h2 : detail < 2 ^ 32) =>
    refusedOnly h (status := status) (detail := detail) h1 h2
  have wrong := refused stWrongState _ (by decide) (wrongState_detail_lt s)
  have run := next_powerSet h
  unfold powerWork at run
  dsimp only [takenCmd] at run
  refine ⟨fun hbig => ?_, fun h0 => ?_, fun m h1 hm5 hl hop ho => ?_, fun ho ht => ⟨fun h1 hr => ?_, fun h2 hj => ?_,
    fun hgo => ?_⟩⟩
  · rw [if_pos hbig] at run
    exact ⟨_, run, refused stBadArg 8 (by decide) (by decide)⟩
  · rw [if_neg (by omega), if_neg still, if_pos (season.trans h0.symm)] at run
    exact ⟨_, run, refused stOk 0 (by decide) (by decide)⟩
  all_goals rw [if_neg (by omega), if_neg still, if_neg (by omega), if_neg (by omega)] at run
  · have waits := autumnWaits_only (s := took s 5 priv cmd) ((took_long m).trans hl)
      (by rw [box_took_other hm5]; exact hop) (fun q hq => (took_long q).trans (ho q hq))
    rw [if_pos h1, waits] at run
    exact ⟨_, run, refused stBusy m.val (by decide) (by omega)⟩
  all_goals
    have waits := autumnWaits_none (s := took s 5 priv cmd) (fun q => (took_long q).trans (ho q))
    have test : ¬ (took s 5 priv cmd).bist.test.isSome = true := by
      show ¬ s.bist.test.isSome = true
      simp [ht]
  · have recovers : (recState (took s 5 priv cmd) ≠ recNone ∧ recState (took s 5 priv cmd) ≠ recDone ∧
        recState (took s 5 priv cmd) ≠ recFailed) ∨ (took s 5 priv cmd).twin.state ≠ 0 := by
      refine hr.imp (fun hr => ?_) id
      show s.recov.state.get ≠ 0 ∧ s.recov.state.get ≠ 7 ∧ s.recov.state.get ≠ 9
      generalize s.recov.state.get = r at hr
      revert r
      decide
    rw [if_pos h1, waits] at run
    exact ⟨_, run.trans (congrArg _ ((if_neg test).trans (if_pos recovers))), wrong⟩
  · rw [if_neg (by omega), if_pos (.inl hj)] at run
    exact ⟨_, run, wrong⟩
  · rcases hgo with ⟨h1, hr, htw⟩ | ⟨h2, hj⟩
    · have rests : ¬ ((recState (took s 5 priv cmd) ≠ recNone ∧ recState (took s 5 priv cmd) ≠ recDone ∧
          recState (took s 5 priv cmd) ≠ recFailed) ∨ (took s 5 priv cmd).twin.state ≠ 0) := by
        rintro (⟨n0, n7, n9⟩ | n)
        · simp only [List.mem_cons, List.not_mem_nil, or_false] at hr
          rcases hr with h | h | h
          · exact n0 h
          · exact n7 h
          · exact n9 h
        · exact n htw
      rw [if_pos h1, waits] at run
      exact ⟨_, run.trans (congrArg _ ((if_neg test).trans (if_neg rests))),
        powerSet_starts (fun p => { p with moving := true, target := BitVec.ofNat 2 (fld cmd 8 1), mailbox := some 5 }) _ rfl⟩
    · have free : ¬ (2 < (took s 5 priv cmd).job.state.toNat ∨ (otherLong (took s 5 priv cmd) 5).isSome = true) := by
        rw [otherLong_none fun q _ => (took_long q).trans (ho q)]
        rintro (h | h)
        · exact absurd hj (Nat.not_le.2 h)
        · simp at h
      rw [if_neg (by omega), if_neg free] at run
      exact ⟨_, run,
        powerSet_starts (fun p => { p with moving := true, target := BitVec.ofNat 2 (fld cmd 8 1), mailbox := some 5 }) _ rfl⟩

/-- POWER_SET Summer from Autumn starts Spring (R389, R391). -/
theorem powerSet_autumn {s : State} {priv : Bool} {cmd : Line} {e : CatEntry} (hp : Prompt s 5 0x15 cmd)
    (he : catalogue 0x15 = some e) (hb : badByte e cmd = none) (hu : usesProfile e cmd = false) (hr : s.bist.run = none)
    (h1 : s.power.season.get = 1) (hm : s.power.moving = false) (h0 : fld cmd 8 1 = 0) :
    Ends (.powerSet (.issue 5 .mgp priv cmd)) s fun t =>
        RunsLong s t 5 cmd ∧ BoxFrame s t 5 ∧ t.power.season.get = 3 ∧ t.power.moving = true ∧ t.power.target = 0 ∧
        t.power.springStep = 0 ∧ t.power.fromWinter = false ∧ t.power.mailbox = some 5 ∧
        t = { s with
          mb := t.mb, events := t.events, stat := { s.stat with evtOvf := t.stat.evtOvf }, power := t.power } := by
  have cat := he
  obtain rfl := Option.some.inj (he.symm.trans (by rfl : catalogue 0x15 = some ⟨.management, false, true, [(8, 1)]⟩))
  have handled : handle 0x15 powerWork 5 (takenCmd 5 priv cmd) (took s 5 priv cmd) =
      powerWork 5 (takenCmd 5 priv cmd) (took s 5 priv cmd) := by
    have asleep : ¬ ((took s 5 priv cmd).power.season.get = 1 ∧ autumnRefuses 0x15 = true) := fun h => absurd h.2 (by decide)
    have bist : ¬ ((took s 5 priv cmd).bist.run.isSome = true ∧ CmdClass.management ≠ .info ∧ CmdClass.management ≠ .abort) := by
      show ¬ (s.bist.run.isSome = true ∧ _)
      simp [hr]
    have granted : ¬ (!classAllowed 5 priv .management) = true := (by decide : ¬ (!true) = true)
    have taken : ¬ (!stateAccepts (took s 5 priv cmd).job.state.toNat 0x15 .management) = true := (by decide : ¬ (!true) = true)
    simp only [handle, cat, hb]
    refine (if_neg granted).trans ((if_neg bist).trans ((if_neg taken).trans ((if_neg asleep).trans (if_neg ?_))))
    rw [hu]
    decide
  have season : (took s 5 priv cmd).power.season.get.toNat = 1 := congrArg BitVec.toNat h1
  have still : ¬ (took s 5 priv cmd).power.moving = true := by
    rw [Bool.not_eq_true]
    exact hm
  have work : powerWork 5 (takenCmd 5 priv cmd) (took s 5 priv cmd) =
      { startSpring (accepted (took s 5 priv cmd) 5) with
        power := { (startSpring (accepted (took s 5 priv cmd) 5)).power with mailbox := some 5 } } := by
    unfold powerWork
    dsimp only [takenCmd]
    rw [if_neg (by omega), if_neg still, if_neg (by omega), if_pos h0]
  have power : (accepted (took s 5 priv cmd) 5).power = s.power := by rw [(onlyBox_accepted ..).frame]; rfl
  have spring : startSpring (accepted (took s 5 priv cmd) 5) = { accepted (took s 5 priv cmd) 5 with
      power := { (accepted (took s 5 priv cmd) 5).power with
        moving := true, target := 0, springStep := 0,
        fromWinter := decide ((accepted (took s 5 priv cmd) 5).power.season.get = 2), season := V3.all 3 } } :=
    (if_neg (by rw [power, hm]; decide)).trans (if_pos (by rw [power]; exact .inl h1))
  have run : exec (.powerSet (.issue 5 .mgp priv cmd)) s = .next { startSpring (accepted (took s 5 priv cmd) 5) with
      power := { (startSpring (accepted (took s 5 priv cmd) 5)).power with mailbox := some 5 } } :=
    congrArg Host.Outcome.next ((mailboxState_prompt powerWork hp he).trans (handled.trans work))
  obtain ⟨runs, frame, eq⟩ := powerSet_starts (s := s) (priv := priv) (cmd := cmd)
    (fun p => { p with
      moving := true, target := 0, springStep := 0, fromWinter := decide (p.season.get = 2), season := V3.all 3
      mailbox := some 5 })
    { startSpring (accepted (took s 5 priv cmd) 5) with
      power := { (startSpring (accepted (took s 5 priv cmd) 5)).power with mailbox := some 5 } } (by rw [spring])
  refine ⟨_, run, runs, frame, ?_⟩
  obtain ⟨t, ht⟩ : ∃ t : State, t = { startSpring (accepted (took s 5 priv cmd) 5) with
      power := { (startSpring (accepted (took s 5 priv cmd) 5)).power with mailbox := some 5 } } := ⟨_, rfl⟩
  rw [← ht] at eq ⊢
  have tpower : t.power = { s.power with
      moving := true, target := 0, springStep := 0, fromWinter := decide (s.power.season.get = 2), season := V3.all 3
      mailbox := some 5 } := congrArg State.power eq
  rw [tpower]
  refine ⟨V3.get_all _, rfl, rfl, rfl, ?_, rfl, eq⟩
  show decide (s.power.season.get = 2) = false
  rw [h1]
  decide

/-! ### Seasons reached (R387 to R390) -/

theorem seasonReached_autumn {s : State} {mb : Fin 8} (hm : s.power.moving = true) (hk : s.power.wakeKept = false)
    (hg : s.rst.heldMgp = false) (hw : s.rst.heldWdog = false) (ht : s.power.target = 1) (hmb : s.power.mailbox = some mb)
    (hf : s.stat.fwState.get = 2) : Ends .seasonReached s fun t =>
          (box t mb).busy = false ∧ (box t mb).done = true ∧ (box t mb).code = 0 ∧
          (box t mb).count = (box s mb).count + 1 ∧ BoxFrame s t mb ∧ t.power.season.get = 1 ∧ t.power.moving = false ∧
          t.power.asleep = true ∧ t.tier.staged = [] ∧ t.tier.rows = [] ∧ t.tier.lastSeq = [] ∧
          t.tier.cursorLine = none ∧ t.tier.flight = [] ∧
          t = { s with
            mb := t.mb, events := t.events, stat := { s.stat with evtOvf := t.stat.evtOvf }
            power := t.power
            tier := { s.tier with
              staged := [], rows := [], lastSeq := [], cursorLine := none, flight := [], loading := t.tier.loading
              schedule := t.tier.schedule } } := by
  obtain ⟨u, hu⟩ : ∃ u, u = dropStaged { s with power := { s.power with
    season := V3.all 1, moving := false, target := 1, asleep := true, mailbox := none } } := ⟨_, rfl⟩
  have running : fwRunning u = true := by
    rw [hu]
    exact decide_eq_true hf
  obtain ⟨t, htt⟩ : ∃ t, t = respond u mb stOk 0 [] := ⟨_, rfl⟩
  have only : OnlyBox u t mb := htt ▸ onlyBox_respond running mb stOk 0 []
  have answer : box t mb = answered (u.ctrl.compatA.get = 1) (box u mb) stOk 0 [] := htt ▸ respond_box_same u mb stOk 0 [] running
  have tier : t.tier = u.tier := by rw [only.frame]
  have power : t.power = u.power := by rw [only.frame]
  have hmbx : t.mb = { u.mb with boxes := t.mb.boxes } := congrArg State.mb only.frame
  have quiet : settled t = t := by
    refine settled_quiet ?_ ?_ ?_
    · rw [power, hu]
      exact hk
    · rw [only.frame, hu]
      exact hg
    · rw [only.frame, hu]
      exact hw
  have run : exec .seasonReached s = .next t := by
    refine congrArg Host.Outcome.next ((if_neg (by simp [hm])).trans ((if_pos ht).trans (Eq.trans ?_ quiet)))
    rw [htt, hu, reachAutumn, hmb]
    rfl
  refine ⟨t, run, ?_, ?_, ?_, ?_, ?_, ?_, ?_, ?_, ?_, ?_, ?_, ?_, ?_, ?_⟩
  · rw [answer]; rfl
  · rw [answer]; rfl
  · rw [answer]; rfl
  · rw [answer, hu]; rfl
  · have frame := only.boxFrame
    rw [hu] at frame
    exact frame
  · rw [power, hu]; exact V3.get_all _
  · rw [power, hu]; rfl
  · rw [power, hu]; rfl
  · rw [tier, hu]; rfl
  · rw [tier, hu]; rfl
  · rw [tier, hu]; rfl
  · rw [tier, hu]; rfl
  · rw [tier, hu]; rfl
  · conv_lhs => rw [only.frame]
    rw [hmbx, tier, power, hu]
    rfl

/-- What Winter leaves of a state with nothing held and nothing captured (R387). -/
def wintered (s : State) : State :=
  { State.reset with
    fuses := s.fuses
    ctrl := { Ctrl.reset with compatA := s.ctrl.compatA }
    rst := { s.rst with results := [] }
    fw := { s.fw with checked := false }
    job := { JobS.reset with part := s.job.part, state := if s.job.part.isSome then 1 else 0 }
    mem := s.mem
    cap := { CapS.reset with verdicts := s.cap.verdicts }
    agree := { AgreeS.reset with health := s.agree.health, statusLine := s.agree.statusLine }
    bcast := { BcastS.reset with wokeBy := s.bcast.wokeBy }
    beacon := s.beacon
    power := s.power
    lat := { LatS.reset with
      errors := s.lat.errors.filter fun e => decide (e.mac < 4)
      remaps := s.lat.remaps
      softFb := s.lat.softFb
      softPs := s.lat.softPs }
    events := s.events
    ports := { s.ports with gtcFault := false, linkFault := 0 }
    time := { TimeS.reset with
      gtc := s.time.gtc
      onDelayLine := s.time.onDelayLine
      goodEdges := s.time.goodEdges }
    out := s.out
    freeCtr := s.freeCtr
    pending := s.pending }

theorem unpowered_idle {s : State} (hh : s.cap.held = []) (ho : s.cap.oldReads = []) (hq : s.cap.queue = []) :
    unpowered s = wintered s := by
  rw [unpowered, releaseMsp_idle hh ho hq]
  rfl

/-- Presence of the ports where nothing is held at MSP. -/
theorem showPorts_idle {s : State} (hh : s.cap.held = []) (ho : s.cap.oldReads = []) (hq : s.cap.queue = [])
    (p : Bool × Bool × Bool × Bool) : ∃ ev, showPorts s p = { s with
      events := ev, ports := { s.ports with msp := p.1, fbp := p.2.1, lkp := p.2.2.1, mgp := p.2.2.2 } } := by
  rw [showPorts, releaseMsp_idle hh ho hq, ite_self]
  exact ⟨_, rfl⟩

theorem setPresence_bare {s : State} (h : s.ports.wrapped = none) (p : Bool × Bool × Bool × Bool) :
    setPresence s p = showPorts s p := by
  simp only [setPresence, h]

theorem seasonReached_winter {s : State} (hm : s.power.moving = true) (hk : s.power.wakeKept = false)
    (hg : s.rst.heldMgp = false) (hwd : s.rst.heldWdog = false) (ht : s.power.target = 2) (hw : s.ports.wrapped = none)
    (hh : s.cap.held = []) (ho : s.cap.oldReads = []) (hq : s.cap.queue = []) :
    ∃ u ev line, u = respondOpt s s.power.mailbox stOk 0 ∧ exec .seasonReached s = .next { wintered u with
      power := { s.power with season := V3.all 2, moving := false, target := 2, asleep := true, mailbox := none }
      events := ev
      agree := { (wintered u).agree with statusLine := line }
      ports := { s.ports with
        gtcFault := false, linkFault := 0, msp := false, fbp := false, lkp := true, mgp := true } } := by
  obtain ⟨u, hu⟩ : ∃ u, u = respondOpt s s.power.mailbox stOk 0 := ⟨_, rfl⟩
  have cap : u.cap = s.cap := by rw [hu, respondOpt_cap]
  have ports : u.ports = s.ports := by rw [hu, respondOpt_ports]
  have power : u.power = s.power := by rw [hu, respondOpt_power]
  obtain ⟨hum, huw⟩ := respondOpt_held s s.power.mailbox stOk 0
  obtain ⟨v, hv⟩ : ∃ v, v = wintered { u with power := { u.power with
    season := V3.all 2, moving := false, target := 2, asleep := true, mailbox := none } } := ⟨_, rfl⟩
  obtain ⟨ev, shown⟩ := showPorts_idle (s := v) (by rw [hv]; rfl) (by rw [hv]; rfl) (by rw [hv]; rfl) (false, false, true, true)
  obtain ⟨w, hwv⟩ : ∃ w : State, w = { v with
    events := ev, ports := { v.ports with msp := false, fbp := false, lkp := true, mgp := true } } := ⟨_, rfl⟩
  obtain ⟨line, lined⟩ := refreshStatusLine_fields w
  have reached : reachWinter s = settled (refreshStatusLine w) := by
    have bare : v.ports.wrapped = none := by rw [hv]; show u.ports.wrapped = none; rw [ports]; exact hw
    rw [reachWinter, ← hu, unpowered_idle (by show u.cap.held = []; rw [cap]; exact hh)
      (by show u.cap.oldReads = []; rw [cap]; exact ho) (by show u.cap.queue = []; rw [cap]; exact hq), ← hv,
      setPresence_bare bare, shown, ← hwv]
  refine ⟨u, ev, line, hu, congrArg Host.Outcome.next ((if_neg (by simp [hm])).trans ?_)⟩
  rw [if_neg (by rw [ht]; decide), if_pos ht, reached, lined, settled_quiet]
  · rw [hwv, hv, ← ports, ← power]
    rfl
  · rw [hwv, hv]
    show u.power.wakeKept = false
    rw [power]
    exact hk
  · rw [hwv, hv]
    show u.rst.heldMgp = false
    rw [hu, hum]
    exact hg
  · rw [hwv, hv]
    show u.rst.heldWdog = false
    rw [hu, huw]
    exact hwd

/-! ### Spring (R236, R391) -/

theorem wake_spring {s : State} (hp : s.ports.mgp = true) (he : s.beacon.wakeEn = true) (hm : s.power.moving = false)
    (hs : s.power.season.get = 1 ∨ s.power.season.get = 2) : exec .wake s = .next { s with
      beacon := { s.beacon with wake := true }
      events := { s.events with delivered := s.events.delivered ++ [⟨4, 0, 1, s.time.gtc⟩] }
      power := { s.power with
        moving := true, target := 0, springStep := 0, fromWinter := decide (s.power.season.get = 2),
        season := V3.all 3 } } := by
  have wakes : s.beacon.wakeEn = true ∧ (s.power.season.get = 1 ∨ s.power.season.get = 2 ∨
      (s.power.moving = true ∧ s.power.target ≠ 0)) := ⟨he, hs.imp_right .inl⟩
  have spring : startSpring { s with beacon.wake := true } = { s with
      beacon := { s.beacon with wake := true }
      power := { s.power with
        moving := true, target := 0, springStep := 0, fromWinter := decide (s.power.season.get = 2),
        season := V3.all 3 } } := (if_neg (by simp [hm])).trans (if_pos hs)
  refine congrArg Host.Outcome.next ((if_pos hp).trans ((if_pos wakes).trans ?_))
  rw [spring]
  exact raiseEvent_present _ _ _ hp

/-- Spring ends with no relay to ask, no reset held and no POWER_SET to answer. -/
theorem finishSpring_quiet {s : State} (hb : s.bcast.wokeBy = none) (hm : s.rst.heldMgp = false)
    (hw : s.rst.heldWdog = false) (hmb : s.power.mailbox = none) : ∃ line, line.season = 0 ∧ finishSpring s = { s with
      power := { s.power with
        season := V3.all 0, target := 0, moving := false, springStep := 0, fromWinter := false, asleep := false,
        mailbox := none }
      agree := { s.agree with statusLine := line } } := by
  obtain ⟨u, hu⟩ : ∃ u : State, u = { s with power := { s.power with
    season := V3.all 0, target := 0, moving := false, springStep := 0, fromWinter := false, asleep := false,
    mailbox := none } } := ⟨_, rfl⟩
  have start : finishSpring s = releaseHeldReset (refreshStatusLine u) := by
    rw [finishSpring, hmb, respondOpt_none, askWaker_none (by exact hb), hu]
  obtain ⟨line, lined⟩ := refreshStatusLine_fields u
  have season : line.season = 0 := by
    have lines := congrArg (fun t : State => t.agree.statusLine.season) lined
    refine lines.symm.trans ?_
    show u.power.season.get.zeroExtend 8 = 0
    rw [hu]
    show (V3.all 0 : V3 2).get.zeroExtend 8 = 0
    rw [V3.get_all]
    rfl
  refine ⟨line, season, ?_⟩
  rw [start, lined, releaseHeldReset_none (by rw [hu]; exact hm) (by rw [hu]; exact hw), hu]

/-- A report of a class that raises no event changes the log alone. -/
theorem logReport_logOnly (s : State) {cls : Nat} (quiet : classUncorr cls = false) (src : U16) (detail : Nat) :
    ∃ log, logReport s cls src detail = { s with log := log } := by
  obtain ⟨events, stat⟩ := logReport_quiet s cls src detail quiet
  rw [logReport_frame, events, stat]
  exact ⟨_, rfl⟩

theorem failLoad_fields (s : State) (cause : BitVec 3) : ∃ log, failLoad s cause = { s with
    log := log, fw := { s.fw with expected := 0, checked := false }
    stat := { s.stat with fwState := V3.all fwLoadFailed, fwCause := cause } } :=
  logReport_logOnly _ (by decide) _ _

/-- A step of Spring runs its branch. -/
theorem next_springStep {s : State} (hm : s.power.moving = true) (h3 : s.power.season.get = 3) :
    exec .springStepDone s = .next (
      if s.power.fromWinter then
        match s.power.springStep with
        | 0 => { s with power.springStep := 1 }
        | 1 =>
          let t := unpowered { s with power.springStep := 2 }
          { t with stat.fwState := V3.all fwChecking }
        | 2 => if bootChecks s then bootCheck s else s
        | _ => wakeFirmware s
      else if s.power.springStep < 2 then { s with power.springStep := s.power.springStep + 1 }
      else finishSpring s) :=
  congrArg Host.Outcome.next (if_neg (by simp [hm, h3]))

theorem springStep_autumn {s : State} (hm : s.power.moving = true) (h3 : s.power.season.get = 3)
    (hf : s.power.fromWinter = false) :
    (s.power.springStep < 2 → Ends .springStepDone s fun t =>
        t = { s with power := { s.power with springStep := s.power.springStep + 1 } }) ∧
      (2 ≤ s.power.springStep → s.bcast.wokeBy = none → s.rst.heldMgp = false → s.rst.heldWdog = false →
        s.power.mailbox = none → Ends .springStepDone s fun t =>
          t.power.season.get = 0 ∧ t.power.moving = false ∧ t.power.asleep = false ∧ t.power.target = 0 ∧
          t.agree.statusLine.season = 0 ∧
          t = { s with power := t.power, agree := { s.agree with statusLine := t.agree.statusLine } }) := by
  have run := next_springStep hm h3
  rw [if_neg (by simp [hf])] at run
  refine ⟨fun h => ⟨_, run.trans (congrArg _ (if_pos h)), rfl⟩, fun h hb hg hw hmb => ?_⟩
  obtain ⟨line, season, ends⟩ := finishSpring_quiet hb hg hw hmb
  exact ⟨_, run.trans (congrArg _ ((if_neg (by omega)).trans ends)), V3.get_all _, rfl, rfl, rfl, season, rfl⟩

/-- The second step of Spring from Winter: the image memory is read by the boot ROM. -/
theorem springStep_power {s : State} (hm : s.power.moving = true) (h3 : s.power.season.get = 3)
    (hf : s.power.fromWinter = true) (h1 : s.power.springStep = 1) (hh : s.cap.held = []) (ho : s.cap.oldReads = [])
    (hq : s.cap.queue = []) : exec .springStepDone s = .next { wintered { s with power.springStep := 2 } with
      stat := { State.reset.stat with fwState := V3.all fwChecking } } := by
  have run := next_springStep hm h3
  rw [if_pos hf, h1] at run
  dsimp only at run
  rw [unpowered_idle (by exact hh) (by exact ho) (by exact hq)] at run
  exact run

theorem springStep_check {s : State} (hm : s.power.moving = true) (h3 : s.power.season.get = 3)
    (hf : s.power.fromWinter = true) (h2 : s.power.springStep = 2) (hc : s.stat.fwState.get = 1)
    (hck : s.fw.checked = false) (hp : s.rst.phase = .running) :
    (imageGood s = true → Ends .springStepDone s fun t =>
          t = { s with fw := { s.fw with checked := true }, power := { s.power with springStep := 3 } }) ∧
        (imageGood s = false → Ends .springStepDone s fun t =>
          t.stat.fwState.get = 3 ∧ t.stat.fwCause = 5 ∧ t.fw.expected = 0 ∧ t.power = s.power ∧ t.job = s.job ∧
          t.mem = s.mem) := by
  have checks : bootChecks s = true := by simp [bootChecks, hc, hck, hp, fwChecking]
  have third : s.power.moving = true ∧ s.power.fromWinter = true ∧ s.power.springStep = 2 := ⟨hm, hf, h2⟩
  have run := next_springStep hm h3
  rw [if_pos hf, h2] at run
  dsimp only at run
  rw [if_pos checks] at run
  refine ⟨fun good => ⟨_, run.trans (congrArg _ ((if_pos good).trans (if_pos third))), rfl⟩, fun bad => ?_⟩
  refine ⟨_, run.trans (congrArg _ (if_neg (by simp [bad]))), ?_⟩
  obtain ⟨log, fails⟩ := failLoad_fields s 5
  rw [fails]
  exact ⟨V3.get_all _, rfl, rfl, rfl, rfl, rfl⟩

theorem springStep_wakes {s : State} (hm : s.power.moving = true) (h3 : s.power.season.get = 3)
    (hf : s.power.fromWinter = true) (hstep : 3 ≤ s.power.springStep) (hb : s.bcast.wokeBy = none)
    (hg : s.rst.heldMgp = false) (hw : s.rst.heldWdog = false) (hmb : s.power.mailbox = none)
    (bare : s.ports.wrapped = none) : Ends .springStepDone s fun t =>
          t.power.season.get = 0 ∧ t.power.moving = false ∧ t.stat.fwState.get = 2 ∧
          t.job = { s.job with state := if s.job.part.isSome then 1 else 0 } ∧ t.ports.msp = true ∧ t.ports.fbp = true ∧
          t.ports.lkp = true ∧ t.ports.mgp = true ∧ t.mem = s.mem ∧ t.lat = s.lat ∧ t.fuses = s.fuses := by
  obtain ⟨u, hu⟩ : ∃ u : State, u = { s with
    stat.fwState := V3.all fwIsRunning, fw.checked := false, job.state := if s.job.part.isSome then 1 else 0 } := ⟨_, rfl⟩
  obtain ⟨ev, shown⟩ : ∃ ev, setPresence u allPresent = { u with
      events := ev, ports := { u.ports with msp := true, fbp := true, lkp := true, mgp := true } } := by
    have open_ : setPresence u allPresent = showPorts u allPresent := setPresence_bare (by rw [hu]; exact bare) _
    have stays : ¬ (u.ports.msp = true ∧ ¬ allPresent.1 = true) := by simp [allPresent]
    rw [open_, showPorts, if_neg stays]
    exact ⟨_, rfl⟩
  obtain ⟨line, -, ends⟩ := finishSpring_quiet (s := { u with
    events := ev, ports := { u.ports with msp := true, fbp := true, lkp := true, mgp := true } })
    (by rw [hu]; exact hb) (by rw [hu]; exact hg) (by rw [hu]; exact hw) (by rw [hu]; exact hmb)
  have run := next_springStep hm h3
  rw [if_pos hf] at run
  obtain ⟨n, hn⟩ : ∃ n, s.power.springStep = n + 3 := ⟨s.power.springStep - 3, by omega⟩
  rw [hn] at run
  have wakes : wakeFirmware s = finishSpring (setPresence u allPresent) := by rw [hu]; rfl
  refine ⟨_, run.trans (congrArg _ (wakes.trans ((congrArg finishSpring shown).trans ends))), ?_⟩
  rw [hu]
  exact ⟨V3.get_all _, rfl, V3.get_all _, rfl, rfl, rfl, rfl, rfl, rfl, rfl, rfl⟩

/-- Settles O51: POWER_SET by its argument, then the season reached, and the steps of Spring. -/
theorem seasonsFollowTheirSteps : Obligations.SeasonsFollowTheirSteps := by
  unfold Obligations.SeasonsFollowTheirSteps
  intro s
  refine ⟨fun priv cmd h hm => powerSet_summer h hm,
    fun priv cmd e hp he hb hu hr h1 hm h0 => powerSet_autumn hp he hb hu hr h1 hm h0,
    fun hm => ⟨s, congrArg Host.Outcome.next (if_pos (by simp [hm])), rfl⟩,
    fun hm hk hg hw => ⟨fun mb ht hmb hf => seasonReached_autumn hm hk hg hw ht hmb hf, fun ht bare hh ho hq => ?_⟩,
    fun hp => ⟨fun he => ⟨s, congrArg Host.Outcome.next ((if_pos hp).trans (if_neg (by simp [he]))), rfl⟩,
      fun hm hs => ⟨s, congrArg Host.Outcome.next ((if_pos hp).trans (wakeCause_summer hs hm)), rfl⟩,
      fun he hm hs => ⟨_, wake_spring hp he hm hs, rfl⟩⟩,
    fun hm => ⟨s, congrArg Host.Outcome.next (if_pos (by simp [hm])), rfl⟩,
    fun hm h3 hf => springStep_autumn hm h3 hf,
    fun hm h3 hf => ⟨fun h0 => ?_, fun h1 hh ho hq => ?_, fun h2 hc hck hp => springStep_check hm h3 hf h2 hc hck hp,
      fun hstep hb hg hw hmb bare => springStep_wakes hm h3 hf hstep hb hg hw hmb bare⟩⟩
  case refine_1 =>
    obtain ⟨u, ev, line, hu, run⟩ := seasonReached_winter hm hk hg hw ht bare hh ho hq
    refine ⟨_, run, V3.get_all _, rfl, rfl, rfl, rfl, rfl, rfl, ?_, rfl, ?_, ?_, ?_, ?_, ?_, ?_, ?_, ?_, ?_, rfl, rfl, rfl, rfl,
      rfl, ?_⟩
    · show u.job.part = _
      rw [hu, respondOpt_job]
    · show (if u.job.part.isSome then 1 else 0 : BitVec 3) = _
      rw [hu, respondOpt_job]
    · show u.fuses = _
      rw [hu, respondOpt_fuses]
    · show u.fw.image = _
      rw [hu, respondOpt_fw]
    · show u.ctrl.compatA = _
      rw [hu, respondOpt_ctrl]
    · show u.lat.remaps = _
      rw [hu, respondOpt_lat]
    · show u.lat.softFb = _
      rw [hu, respondOpt_lat]
    · show u.lat.softPs = _
      rw [hu, respondOpt_lat]
    · show u.beacon = _
      rw [hu, respondOpt_beacon]
    · show u.mem = _
      rw [hu, respondOpt_mem]
    · show u.pending = _
      rw [hu, respondOpt_pending]
  case refine_2 =>
    have run := next_springStep hm h3
    rw [if_pos hf, h0] at run
    exact ⟨_, run, rfl⟩
  case refine_3 =>
    exact ⟨_, springStep_power hm h3 hf h1 hh ho hq, rfl, V3.get_all _, rfl, rfl, rfl, rfl, rfl, rfl, rfl⟩

end Sys2Proof.Machine

/-! PROOFS. Fences, fence-and-test, BIST and the wrapper (R295, R375 to R377, R394 to R398). -/

namespace Sys2Proof.Machine

/-! ### The physical clusters (R147, R375) -/

theorem physOf_setPhys_same (c : Ctrl) (l : Fin 4) {p : Nat} (hp : p < 8) : physOf (setPhys c l p) l = p := by
  have cut : (V3.all (BitVec.ofNat 3 p)).get.toNat = p := by
    rw [V3.get_all, BitVec.toNat_ofNat, Nat.mod_eq_of_lt (by omega)]
  match l with
  | 0 => exact cut
  | 1 => exact cut
  | 2 => exact cut
  | 3 => exact cut

theorem physOf_setPhys_other (c : Ctrl) {l k : Fin 4} (h : k ≠ l) (p : Nat) : physOf (setPhys c l p) k = physOf c k := by
  match l, k with
  | 0, 1 | 0, 2 | 0, 3 | 1, 0 | 1, 2 | 1, 3 | 2, 0 | 2, 1 | 2, 3 | 3, 0 | 3, 1 | 3, 2 => rfl
  | 0, 0 | 1, 1 | 2, 2 | 3, 3 => exact absurd rfl h

/-- Of five physical clusters one serves no logical cluster. -/
theorem reserveOf_free (c : Ctrl) : reserveOf c < 5 ∧ ∀ l : Fin 4, physOf c l ≠ reserveOf c := by
  cases hf : (List.range 5).find? fun p => (List.finRange 4).all fun l => decide (physOf c l ≠ p) with
  | none =>
    have named : ∀ p : Fin 5, ∃ l : Fin 4, physOf c l = p.val := fun p => by
      simpa using List.find?_eq_none.1 hf p.val (by simpa using p.isLt)
    choose f hfp using named
    have inj : Function.Injective f := fun p q h => Fin.ext ((hfp p).symm.trans ((congrArg (physOf c) h).trans (hfp q)))
    exact absurd (Fintype.card_le_of_injective f inj) (by decide)
  | some p =>
    have hr : reserveOf c = p := by rw [reserveOf, hf]; rfl
    have found := List.find?_some hf
    rw [hr]
    exact ⟨List.mem_range.1 (List.mem_of_find?_eq_some hf), by simpa using found⟩

theorem logicalOf_none {c : Ctrl} {p : Nat} (h : ∀ l : Fin 4, physOf c l ≠ p) : logicalOf c p = none :=
  List.find?_eq_none.2 fun l _ => by simpa using h l

theorem logicalOf_some {c : Ctrl} {p : Nat} {l : Fin 4} (h : physOf c l = p)
    (hu : ∀ k : Fin 4, k ≠ l → physOf c k ≠ physOf c l) : logicalOf c p = some l :=
  find?_eq_of_unique (List.mem_finRange l) (by simpa using h) fun k _ hk => by
    by_contra hkl
    exact hu k hkl ((of_decide_eq_true hk).trans h.symm)

/-! ### UNIT_FENCE (R375 to R377) -/

/-- The state in which UNIT_FENCE has been accepted. -/
abbrev fencing (s : State) (mb : Fin 8) (priv : Bool) (cmd : Line) : State := accepted (took s mb priv cmd) mb

theorem onlyBox_fencing (s : State) (mb : Fin 8) (priv : Bool) (cmd : Line) : OnlyBox s (fencing s mb priv cmd) mb :=
  (onlyBox_took ..).trans (onlyBox_accepted ..)

/-- A state that differs from another in log, apply unit and control registers. -/
def refenced (s : State) (log : LogS) (apply : ApplyS) (ctrl : Ctrl) : State :=
  { s with log := log, apply := apply, ctrl := ctrl }

/-- UNIT_FENCE accepted and then answered OK, with what it has fenced. -/
theorem fence_answered {s : State} {mb : Fin 8} (priv : Bool) (cmd : Line) (hf : fwRunning s = true)
    (log : LogS) (apply : ApplyS) (ctrl : Ctrl) {t : State}
    (ht : t = respondOk (refenced (fencing s mb priv cmd) log apply ctrl) mb) :
    (box t mb).busy = false ∧ (box t mb).long = false ∧ (box t mb).code = 0 ∧
      (box t mb).count = (box s mb).count + 2 ∧ OtherBoxes s t mb ∧
      t = { s with
        mb := t.mb, events := t.events, stat := { s.stat with evtOvf := t.stat.evtOvf }
        log := log, apply := apply, ctrl := ctrl } := by
  obtain ⟨u, hu⟩ : ∃ u, u = fencing s mb priv cmd := ⟨_, rfl⟩
  have only : OnlyBox s u mb := hu ▸ onlyBox_fencing s mb priv cmd
  have running : fwRunning u = true := by rw [only.frame]; exact hf
  have count : (box u mb).count = (box s mb).count + 1 := by
    rw [hu, fencing, accepted_box_same, box_took]
    rfl
  rw [← hu] at ht
  obtain ⟨v, hv⟩ : ∃ v, v = refenced u log apply ctrl := ⟨_, rfl⟩
  have runs : fwRunning v = true := by rw [hv]; exact running
  have answers : OnlyBox v t mb := by rw [ht, ← hv]; exact onlyBox_respond runs mb stOk 0 []
  have hbox : box t mb = answered (v.ctrl.compatA.get = 1) (box v mb) stOk 0 [] := by
    rw [ht, ← hv]
    exact respond_box_same v mb stOk 0 [] runs
  have hmb : t.mb = { v.mb with boxes := t.mb.boxes } := congrArg State.mb answers.frame
  have umb : u.mb = { s.mb with boxes := u.mb.boxes } := congrArg State.mb only.frame
  refine ⟨by rw [hbox]; rfl, by rw [hbox]; rfl, by rw [hbox]; rfl, ?_, fun m hm => ?_, ?_⟩
  · rw [hbox, hv]
    show (box u mb).count + 1 = _
    rw [count, BitVec.add_assoc]
    rfl
  · rw [answers.others m hm, hv]
    exact only.others m hm
  · conv_lhs => rw [answers.frame, hv, refenced, only.frame]
    rw [hmb, hv, refenced, umb]

theorem logReport_other (s : State) (src : U16) (detail : Nat) : ∃ log, logReport s clOther src detail = { s with log := log } :=
  logReport_logOnly s (by decide) src detail

/-- A fenced unit is answered for, or tested. -/
theorem fenceDone_answers (s : State) (mb : Fin 8) (slice : Bool) (i : Nat) :
    ∃ log, fenceDone s (some mb) slice false i = respondOk { s with log := log } mb := by
  obtain ⟨log, logged⟩ := logReport_other s (srcOf (if slice then 1 else 3) i) i
  refine ⟨log, ?_⟩
  rw [fenceDone, logged]
  rfl

theorem fenceDone_tests (s : State) (mb : Fin 8) (slice : Bool) (i : Nat) :
    ∃ log, fenceDone s (some mb) slice true i = beginTest { s with log := log } mb slice i := by
  obtain ⟨log, logged⟩ := logReport_other s (srcOf (if slice then 1 else 3) i) i
  refine ⟨log, ?_⟩
  rw [fenceDone, logged]
  rfl

theorem next_unitFence {s : State} {mb : Fin 8} {priv : Bool} {cmd : Line} (h : Handled s mb priv 0x18 cmd) :
    exec (.unitFence (.issue mb (portOf mb) priv cmd)) s = .next (
      if 1 < fld cmd 8 1 then badArg (took s mb priv cmd) mb 8
      else if (if decide (fld cmd 8 1 = 1) then 8 else 5) ≤ fld cmd 9 1 then badArg (took s mb priv cmd) mb 9
      else if 2 < fld cmd 10 1 then badArg (took s mb priv cmd) mb 10
      else if fld cmd 10 1 = 1 ∧ s.power.season.get = 1 then wrongState (took s mb priv cmd) mb
      else if fld cmd 10 1 = 1 ∧ s.bist.state = 1 then
        busyWith (took s mb priv cmd) mb (match s.bist.test with | some q => q.1 | none => none)
      else if fld cmd 10 1 = 2 then
        match returnUnit (took s mb priv cmd) (decide (fld cmd 8 1 = 1)) (fld cmd 9 1) with
        | some u => respondOk u mb
        | none => wrongState (took s mb priv cmd) mb
      else
        match (if decide (fld cmd 8 1 = 1) then
            fenceSlice (fencing s mb priv cmd) (fld cmd 9 1) (some mb) (decide (fld cmd 10 1 = 1))
          else fenceCluster (fencing s mb priv cmd) (fld cmd 9 1) (some mb) (decide (fld cmd 10 1 = 1))) with
        | some u => u
        | none => wrongState (took s mb priv cmd) mb) :=
  exec_handled fenceWork h (by rfl)

/-- The meaning of UNIT_FENCE once its fields are right, in Summer. -/
theorem next_unitFence_fields {s : State} {mb : Fin 8} {priv : Bool} {cmd : Line} (h : Handled s mb priv 0x18 cmd)
    (h8 : fld cmd 8 1 ≤ 1) (h9 : fld cmd 9 1 < if decide (fld cmd 8 1 = 1) then 8 else 5) (h10 : fld cmd 10 1 ≤ 2)
    (hb : fld cmd 10 1 = 1 → s.bist.state ≠ 1) : exec (.unitFence (.issue mb (portOf mb) priv cmd)) s = .next (
      if fld cmd 10 1 = 2 then
        match returnUnit (took s mb priv cmd) (decide (fld cmd 8 1 = 1)) (fld cmd 9 1) with
        | some u => respondOk u mb
        | none => wrongState (took s mb priv cmd) mb
      else
        match (if decide (fld cmd 8 1 = 1) then
            fenceSlice (fencing s mb priv cmd) (fld cmd 9 1) (some mb) (decide (fld cmd 10 1 = 1))
          else fenceCluster (fencing s mb priv cmd) (fld cmd 9 1) (some mb) (decide (fld cmd 10 1 = 1))) with
        | some u => u
        | none => wrongState (took s mb priv cmd) mb) := by
  have summer : ¬(fld cmd 10 1 = 1 ∧ s.power.season.get = 1) := by
    rintro ⟨-, h1⟩
    rw [h.2.2.2.2.2] at h1
    exact absurd h1 (by decide)
  rw [next_unitFence h, if_neg (by omega), if_neg (by omega), if_neg (by omega), if_neg summer,
    if_neg fun hb' => hb hb'.1 hb'.2]

theorem fencing_apply (s : State) (mb : Fin 8) (priv : Bool) (cmd : Line) : (fencing s mb priv cmd).apply = s.apply := by
  rw [(onlyBox_fencing s mb priv cmd).frame]

theorem fencing_ctrl (s : State) (mb : Fin 8) (priv : Bool) (cmd : Line) : (fencing s mb priv cmd).ctrl = s.ctrl := by
  rw [(onlyBox_fencing s mb priv cmd).frame]

theorem fenceSlice_free {s : State} (h : s.apply.sliceFenced = none) (i : Nat) (mb : Option (Fin 8)) (test : Bool) :
    fenceSlice s i mb test = some (fenceDone { s with apply.sliceFenced := some i } mb true test i) := if_pos (.inl h)

theorem fenceSlice_taken {s : State} {i j : Nat} (h : s.apply.sliceFenced = some j) (hij : j ≠ i) (mb : Option (Fin 8))
    (test : Bool) : fenceSlice s i mb test = none :=
  if_neg (by simp [h, hij])

/-- A named cluster gives way to the reserve, at once while no run exists. -/
theorem fenceCluster_named {s : State} {l : Fin 4} {p : Nat} (hl : logicalOf s.ctrl p = some l)
    (hr : s.apply.fenced.contains (reserveOf s.ctrl) = false) (hs : s.apply.switching = none) (hn : s.apply.run = none)
    (mb : Option (Fin 8)) (test : Bool) : fenceCluster s p mb test = some (fenceDone { s with
      ctrl := setPhys s.ctrl l (reserveOf s.ctrl)
      apply := { s.apply with fenced := addNew p s.apply.fenced, switching := none } } mb false test p) := by
  have free : reserveFree s = true := by rw [reserveFree, hr, hs]; rfl
  simp only [fenceCluster, hl]
  rw [if_pos free]
  simp only [switchIn, hn]
  rfl

theorem fenceCluster_reserve {s : State} {p : Nat} (hl : logicalOf s.ctrl p = none) (mb : Option (Fin 8)) (test : Bool) :
    fenceCluster s p mb test = some (fenceDone { s with apply.fenced := addNew p s.apply.fenced } mb false test p) := by
  simp only [fenceCluster, hl]

theorem fenceCluster_none {s : State} {l : Fin 4} {p : Nat} (hl : logicalOf s.ctrl p = some l)
    (hr : s.apply.fenced.contains (reserveOf s.ctrl) = true) (mb : Option (Fin 8)) (test : Bool) :
    fenceCluster s p mb test = none := by
  have held : ¬ reserveFree s = true := by rw [reserveFree, hr]; simp
  simp only [fenceCluster, hl]
  exact if_neg held

/-- UNIT_FENCE for a GF slice (R376, R377). -/
theorem unitFence_slice {s : State} {mb : Fin 8} {priv : Bool} {cmd : Line} (h : Handled s mb priv 0x18 cmd)
    (h8 : fld cmd 8 1 = 1) (h9 : fld cmd 9 1 < 8) :
    (2 < fld cmd 10 1 → Ends (.unitFence (.issue mb (portOf mb) priv cmd)) s fun t =>
        Answered s t mb cmd 0x10 10 ∧ OnlyAnswer s t mb) ∧
    (fld cmd 10 1 = 0 → s.apply.sliceFenced = none → Ends (.unitFence (.issue mb (portOf mb) priv cmd)) s fun t =>
        (box t mb).busy = false ∧ (box t mb).long = false ∧ (box t mb).code = 0 ∧
        (box t mb).count = (box s mb).count + 2 ∧ OtherBoxes s t mb ∧
        t = { s with
          mb := t.mb, events := t.events, stat := { s.stat with evtOvf := t.stat.evtOvf }, log := t.log
          apply := { s.apply with sliceFenced := some (fld cmd 9 1) } }) ∧
    (∀ i, fld cmd 10 1 = 0 → s.apply.sliceFenced = some i → i ≠ fld cmd 9 1 →
        Ends (.unitFence (.issue mb (portOf mb) priv cmd)) s fun t =>
          Answered s t mb cmd 0x12 (s.job.state.toNat + 256 * s.tide.phase.get.toNat) ∧ OnlyAnswer s t mb) ∧
    (fld cmd 10 1 = 1 → s.bist.state ≠ 1 → s.apply.sliceFenced = none →
        Ends (.unitFence (.issue mb (portOf mb) priv cmd)) s fun t =>
          RunsLong s t mb cmd ∧ OtherBoxes s t mb ∧ t.bist.state = 1 ∧ t.bist.set = 0x81 ∧
          t.bist.test = some (some mb, true, fld cmd 9 1) ∧ t.apply.sliceFenced = some (fld cmd 9 1) ∧
          t.mem = s.mem ∧ t.cap = s.cap ∧ t.ctrl = s.ctrl) ∧
    (fld cmd 10 1 = 2 → s.apply.sliceFenced = some (fld cmd 9 1) →
        Ends (.unitFence (.issue mb (portOf mb) priv cmd)) s fun t =>
          Answered s t mb cmd 0 0 ∧ OtherBoxes s t mb ∧ t.apply = { s.apply with sliceFenced := none } ∧
          t.ctrl = s.ctrl ∧ t.mem = s.mem) ∧
    (fld cmd 10 1 = 2 → s.apply.sliceFenced = none → Ends (.unitFence (.issue mb (portOf mb) priv cmd)) s fun t =>
        Answered s t mb cmd 0x12 (s.job.state.toNat + 256 * s.tide.phase.get.toNat) ∧ OnlyAnswer s t mb) := by
  have slice : decide (fld cmd 8 1 = 1) = true := decide_eq_true h8
  have wrong := refusedOnly h (status := stWrongState) (by decide) (wrongState_detail_lt s)
  have fields := fun (hle : fld cmd 10 1 ≤ 2) (hb : fld cmd 10 1 = 1 → s.bist.state ≠ 1) =>
    next_unitFence_fields h (by omega) (by rw [if_pos slice]; exact h9) hle hb
  obtain ⟨A, hA⟩ : ∃ A, A = fencing s mb priv cmd := ⟨_, rfl⟩
  have only : OnlyBox s A mb := hA ▸ onlyBox_fencing s mb priv cmd
  have happly : A.apply = s.apply := by rw [only.frame]
  have hctrl : A.ctrl = s.ctrl := by rw [only.frame]
  rw [← hA, slice] at fields
  refine ⟨fun h10 => ?_, fun h10 hn => ?_, fun i h10 hs hne => ?_, fun h10 hb hn => ?_, fun h10 hs => ?_, fun h10 hn => ?_⟩
  · refine ⟨_, (next_unitFence h).trans (congrArg Host.Outcome.next ?_),
      refusedOnly h (status := stBadArg) (detail := 10) (by decide) (by decide)⟩
    rw [if_neg (by omega), if_neg (by rw [if_pos slice]; omega), if_pos h10]
    rfl
  · have run := fields (by omega) (by omega)
    obtain ⟨log, answers⟩ := fenceDone_answers { A with apply.sliceFenced := some (fld cmd 9 1) } mb true (fld cmd 9 1)
    rw [if_neg (by omega), if_pos rfl, decide_eq_false (by omega), fenceSlice_free (by rw [happly]; exact hn)] at run
    dsimp only at run
    rw [answers] at run
    obtain ⟨b, l, c, n, o, frame⟩ := fence_answered priv cmd (fwRunning_of_handled h) log
      { A.apply with sliceFenced := some (fld cmd 9 1) } A.ctrl
      (mb := mb) (t := respondOk { A with log := log, apply := { A.apply with sliceFenced := some (fld cmd 9 1) } } mb)
      (by rw [hA]; rfl)
    refine ⟨_, run, b, l, c, n, o, ?_⟩
    rw [respondOk, respond_log, ← happly, ← hctrl]
    exact frame
  · have run := fields (by omega) (by omega)
    rw [if_neg (by omega), if_pos rfl, fenceSlice_taken (by rw [happly]; exact hs) hne] at run
    exact ⟨_, run, wrong⟩
  · have run := fields (by omega) (fun _ => hb)
    obtain ⟨log, tests⟩ := fenceDone_tests { A with apply.sliceFenced := some (fld cmd 9 1) } mb true (fld cmd 9 1)
    rw [if_neg (by omega), if_pos rfl, decide_eq_true h10, fenceSlice_free (by rw [happly]; exact hn)] at run
    dsimp only at run
    rw [tests] at run
    have runs : RunsLong s A mb cmd := hA ▸ runsLong_accepted (box_took ..)
    refine ⟨_, run, runs, only.others, rfl, rfl, rfl, rfl, ?_, ?_, hctrl⟩
    · show A.mem = s.mem
      rw [only.frame]
    · show A.cap = s.cap
      rw [only.frame]
  · have run := fields (by omega) (by omega)
    obtain ⟨log, logged⟩ := logReport_other { took s mb priv cmd with apply.sliceFenced := none } (srcOf 1 (fld cmd 9 1))
      (fld cmd 9 1)
    have returned : returnUnit (took s mb priv cmd) true (fld cmd 9 1) =
        some { took s mb priv cmd with log := log, apply := { s.apply with sliceFenced := none } } :=
      (if_pos rfl).trans ((if_pos hs).trans (congrArg some logged))
    rw [if_pos h10, returned] at run
    dsimp only at run
    obtain ⟨u, hu⟩ : ∃ u : State,
      u = { took s mb priv cmd with log := log, apply := { s.apply with sliceFenced := none } } := ⟨_, rfl⟩
    have running : fwRunning u = true := by rw [hu]; exact (fwRunning_of_handled h :)
    have answers := onlyBox_respond running mb stOk 0 []
    rw [← hu] at run
    refine ⟨_, run, answered_respond running (by rw [hu]; exact box_took ..) (by decide) (by decide) (by simp),
      fun m hm => (answers.others m hm).trans ?_, ?_, ?_, ?_⟩
    · rw [hu]
      exact otherBoxes_took s mb priv cmd m hm
    · rw [respondOk, respond_apply, hu]
    · rw [respondOk, respond_ctrl, hu]
      rfl
    · rw [respondOk, respond_mem, hu]
      rfl
  · have run := fields (by omega) (by omega)
    have kept : returnUnit (took s mb priv cmd) true (fld cmd 9 1) = none :=
      if_neg (show ¬ s.apply.sliceFenced = some (fld cmd 9 1) by simp [hn])
    rw [if_pos h10, kept] at run
    exact ⟨_, run, wrong⟩

/-- UNIT_FENCE for an apply cluster (R375). -/
theorem unitFence_cluster {s : State} {mb : Fin 8} {priv : Bool} {cmd : Line} (h : Handled s mb priv 0x18 cmd)
    (h8 : fld cmd 8 1 = 0) (h9 : fld cmd 9 1 < 5) (h10 : fld cmd 10 1 = 0) (hs : s.apply.switching = none)
    (hn : s.apply.run = none)
    (hd : ∀ l : Fin 4, physOf s.ctrl l < 5 ∧ ∀ k : Fin 4, k ≠ l → physOf s.ctrl k ≠ physOf s.ctrl l) :
    ((∀ l : Fin 4, physOf s.ctrl l ≠ fld cmd 9 1) → Ends (.unitFence (.issue mb (portOf mb) priv cmd)) s fun t =>
        (box t mb).busy = false ∧ (box t mb).code = 0 ∧ OtherBoxes s t mb ∧ t.ctrl = s.ctrl ∧
        t.apply = { s.apply with fenced := addNew (fld cmd 9 1) s.apply.fenced }) ∧
    (∀ l : Fin 4, physOf s.ctrl l = fld cmd 9 1 → s.apply.fenced = [] →
        Ends (.unitFence (.issue mb (portOf mb) priv cmd)) s fun t =>
          (box t mb).busy = false ∧ (box t mb).code = 0 ∧ OtherBoxes s t mb ∧ t.apply.fenced = [fld cmd 9 1] ∧
          (∀ k : Fin 4, k ≠ l → physOf t.ctrl k = physOf s.ctrl k) ∧ physOf t.ctrl l < 5 ∧
          (∀ k : Fin 4, physOf t.ctrl k ≠ fld cmd 9 1) ∧ t.mem = s.mem) ∧
    (∀ l : Fin 4, physOf s.ctrl l = fld cmd 9 1 → reserveOf s.ctrl ∈ s.apply.fenced →
        Ends (.unitFence (.issue mb (portOf mb) priv cmd)) s fun t =>
          Answered s t mb cmd 0x12 (s.job.state.toNat + 256 * s.tide.phase.get.toNat) ∧ OnlyAnswer s t mb) := by
  have cluster : decide (fld cmd 8 1 = 1) = false := decide_eq_false (by omega)
  have run := next_unitFence_fields h (by omega) (by rw [cluster]; exact h9) (by omega) (by omega)
  obtain ⟨A, hA⟩ : ∃ A, A = fencing s mb priv cmd := ⟨_, rfl⟩
  have only : OnlyBox s A mb := hA ▸ onlyBox_fencing s mb priv cmd
  have happly : A.apply = s.apply := by rw [only.frame]
  have hctrl : A.ctrl = s.ctrl := by rw [only.frame]
  have hmem : A.mem = s.mem := by rw [only.frame]
  rw [← hA, cluster, if_neg (by omega), if_neg (by decide), decide_eq_false (by omega)] at run
  refine ⟨fun hfree => ?_, fun l hl hf => ?_, fun l hl hr => ?_⟩
  · obtain ⟨log, answers⟩ := fenceDone_answers { A with apply.fenced := addNew (fld cmd 9 1) A.apply.fenced } mb false
      (fld cmd 9 1)
    rw [fenceCluster_reserve (logicalOf_none (by rw [hctrl]; exact hfree))] at run
    dsimp only at run
    rw [answers] at run
    obtain ⟨b, -, c, -, o, frame⟩ := fence_answered priv cmd (fwRunning_of_handled h) log
      { A.apply with fenced := addNew (fld cmd 9 1) A.apply.fenced } A.ctrl
      (mb := mb) (t := respondOk { A with
        log := log, apply := { A.apply with fenced := addNew (fld cmd 9 1) A.apply.fenced } } mb) (by rw [hA]; rfl)
    refine ⟨_, run, b, c, o, ?_, ?_⟩
    · rw [respondOk, respond_ctrl]
      exact hctrl
    · rw [respondOk, respond_apply, ← happly]
  · obtain ⟨hlt, hfree⟩ := reserveOf_free s.ctrl
    have named : logicalOf A.ctrl (fld cmd 9 1) = some l := by
      rw [hctrl]
      exact logicalOf_some hl (hd l).2
    have open_ : A.apply.fenced.contains (reserveOf A.ctrl) = false := by rw [happly, hf]; rfl
    obtain ⟨log, answers⟩ := fenceDone_answers { A with
      ctrl := setPhys A.ctrl l (reserveOf A.ctrl)
      apply := { A.apply with fenced := addNew (fld cmd 9 1) A.apply.fenced, switching := none } } mb false (fld cmd 9 1)
    rw [fenceCluster_named named open_ (by rw [happly]; exact hs) (by rw [happly]; exact hn)] at run
    dsimp only at run
    rw [answers] at run
    obtain ⟨b, -, c, -, o, frame⟩ := fence_answered priv cmd (fwRunning_of_handled h) log
      { A.apply with fenced := addNew (fld cmd 9 1) A.apply.fenced, switching := none } (setPhys A.ctrl l (reserveOf A.ctrl))
      (mb := mb) (t := respondOk { A with
        ctrl := setPhys A.ctrl l (reserveOf A.ctrl)
        log := log
        apply := { A.apply with fenced := addNew (fld cmd 9 1) A.apply.fenced, switching := none } } mb) (by rw [hA]; rfl)
    have same : physOf (setPhys s.ctrl l (reserveOf s.ctrl)) l = reserveOf s.ctrl := physOf_setPhys_same _ _ (by omega)
    refine ⟨_, run, b, c, o, ?_, ?_, ?_, ?_, ?_⟩
    · rw [respondOk, respond_apply]
      show addNew (fld cmd 9 1) A.apply.fenced = _
      rw [happly, hf]
      rfl
    all_goals rw [respondOk]
    · intro k hk
      rw [respond_ctrl]
      show physOf (setPhys A.ctrl l (reserveOf A.ctrl)) k = _
      rw [hctrl, physOf_setPhys_other _ hk]
    · rw [respond_ctrl]
      show physOf (setPhys A.ctrl l (reserveOf A.ctrl)) l < 5
      rw [hctrl, same]
      exact hlt
    · intro k
      rw [respond_ctrl]
      show physOf (setPhys A.ctrl l (reserveOf A.ctrl)) k ≠ _
      rw [hctrl, ← hl]
      by_cases hk : k = l
      · rw [hk, same]
        exact (hfree l).symm
      · rw [physOf_setPhys_other _ hk]
        exact (hd l).2 k hk
    · rw [respond_mem]
      exact hmem
  · rw [fenceCluster_none (l := l) (by rw [hctrl]; exact logicalOf_some hl (hd l).2)
      (by rw [happly, hctrl]; simpa using hr)] at run
    exact ⟨_, run, refusedOnly h (status := stWrongState) (by decide) (wrongState_detail_lt s)⟩

/-! ### The end of a fence-and-test (R377) -/

theorem fenceTestDone_slice {s : State} {mb : Fin 8} {i : Nat} (signature : U64) (ht : s.bist.test = some (some mb, true, i))
    (hf : s.stat.fwState.get = 2) : Ends (.fenceTestDone signature) s fun t =>
          (box t mb).busy = false ∧ (box t mb).done = true ∧ (box t mb).code = 0 ∧
          (box t mb).count = (box s mb).count + 1 ∧ OtherBoxes s t mb ∧ t.bist.state = 2 ∧ t.bist.test = none ∧
          t.bist.sig = signature ∧ t.apply = s.apply ∧
          (signature = fusedSignature s 0x81 i → t.bist.verdict = 0 ∧ t.bist.fail = 0 ∧ t.log = s.log) ∧
          (signature ≠ fusedSignature s 0x81 i → t.bist.verdict = 1 ∧ t.bist.fail = BitVec.ofNat 32 (2 ^ i)) := by
  obtain ⟨u, hu⟩ : ∃ u : State, u = { s with bist := { s.bist with
    state := 2
    verdict := if decide (signature ≠ fusedSignature s 0x81 i) then 1 else 0
    fail := if decide (signature ≠ fusedSignature s 0x81 i) then BitVec.ofNat 32 (2 ^ i) else 0
    sig := signature
    test := none } } := ⟨_, rfl⟩
  obtain ⟨log, hlog, same⟩ : ∃ log, (if decide (signature ≠ fusedSignature s 0x81 i) then
      logReport u clBist (srcOf 1 i) i else u) = { u with log := log } ∧ (signature = fusedSignature s 0x81 i → log = s.log) := by
    by_cases hs : signature = fusedSignature s 0x81 i
    · exact ⟨u.log, if_neg (by simp [hs]), fun _ => by rw [hu]⟩
    · obtain ⟨log, logged⟩ := logReport_logOnly u (cls := clBist) (by decide) (srcOf 1 i) i
      exact ⟨log, (if_pos (by simpa using hs)).trans logged, fun h => absurd h hs⟩
  obtain ⟨v, hv⟩ : ∃ v : State, v = { u with log := log } := ⟨_, rfl⟩
  have running : fwRunning v = true := by
    rw [hv, hu]
    exact decide_eq_true hf
  have run : exec (.fenceTestDone signature) s = .next (respond v mb stOk 0 []) := by
    refine congrArg Host.Outcome.next ?_
    simp only [ht]
    refine (congrArg (fun w => respondOpt w (some mb) stOk 0) (Eq.trans ?_ (hlog.trans hv.symm))).trans rfl
    rw [hu]
    rfl
  have answer := respond_box_same v mb stOk 0 [] running
  have others := (onlyBox_respond running mb stOk 0 []).others
  refine ⟨_, run, ?_, ?_, ?_, ?_, fun m hm => ?_, ?_, ?_, ?_, ?_, fun h => ?_, fun h => ?_⟩
  · rw [answer]; rfl
  · rw [answer]; rfl
  · rw [answer]; rfl
  · rw [answer, hv, hu]; rfl
  · rw [others m hm, hv, hu]; rfl
  all_goals simp only [respond_bist, respond_apply, respond_log, hv]
  · rw [hu]
  · rw [hu]
  · rw [hu]
  · rw [hu]
  · rw [hu]
    exact ⟨if_neg (by simp [h]), if_neg (by simp [h]), same h⟩
  · rw [hu]
    exact ⟨if_pos (by simpa using h), if_pos (by simpa using h)⟩

/-! ### BIST_RUN (R323, R394 to R396) -/

/-- The units a set and a mask choose (R394). -/
def bistUnits (set : Nat) (mask : U32) : List Nat :=
  if mask = 0 then setUnits set else (setUnits set).filter fun u => mask.getLsbD u

theorem next_bistRun {s : State} {mb : Fin 8} {priv : Bool} {cmd : Line} (h : Handled s mb priv 0x16 cmd) :
    exec (.bistRun (.issue mb (portOf mb) priv cmd)) s = .next (
      if s.fuses.lcs = 1 ∧ (boundPort mb ≠ .mgp ∨ fld cmd 8 1 ≠ 0) then
        respond (took s mb priv cmd) mb stNotPermitted (bindCode mb) []
      else if 3 < fld cmd 8 1 then badArg (took s mb priv cmd) mb 8
      else if (bitsOf 32 (BitVec.ofNat 32 (fld cmd 12 4))).any fun b => !(setUnits (fld cmd 8 1)).contains b then
        badArg (took s mb priv cmd) mb 12
      else if s.power.season.get ≠ 0 ∨ 2 < s.job.state.toNat then wrongState (took s mb priv cmd) mb
      else match otherLong (took s mb priv cmd) mb with
        | some o => busyWith (took s mb priv cmd) mb (some o)
        | none =>
          if s.bist.test.isSome then busyWith (took s mb priv cmd) mb none
          else { fencing s mb priv cmd with bist :=
            { state := 1, set := BitVec.ofNat 8 (fld cmd 8 1), verdict := 2, fail := 0, sig := 0, run := some mb,
              left := bistOrder (bistUnits (fld cmd 8 1) (BitVec.ofNat 32 (fld cmd 12 4))), failed := 0,
              sigFailed := none, lastSig := 0, stop := false, aborts := [],
              startGtc := (took s mb priv cmd).time.gtc, test := none } }) :=
  exec_handled bistWork h (by rfl)

/-- BIST_RUN comes through MGP or TAP. -/
theorem bistRun_mailbox : ∀ (mb : Fin 8) (priv : Bool), Permitted mb priv 0x16 → mb = 5 ∨ mb = 6 := by decide

theorem mem_bistOrder (us : List Nat) (u : Nat) : u ∈ bistOrder us ↔ u ∈ us := by
  simp only [bistOrder, List.mem_append, List.mem_filter, decide_eq_true_eq]
  refine ⟨fun h => h.elim And.left And.left, fun h => ?_⟩
  by_cases hu : u = 13 ∨ u = 16 ∨ u = 20
  · exact .inr ⟨h, hu⟩
  · exact .inl ⟨h, by omega⟩

theorem mem_setUnits_zero (u : Nat) : u ∈ setUnits 0 ↔ u < 22 ∧ u ≠ 15 := by
  simp only [setUnits, List.mem_append, List.mem_range, List.mem_cons, List.not_mem_nil, or_false]
  omega

/-- The bits of a mask are those of its field. -/
theorem getLsbD_mask {cmd : Line} (u : Nat) :
    (BitVec.ofNat 32 (fld cmd 12 4)).getLsbD u = (fld cmd 12 4).testBit u := by
  rw [BitVec.getLsbD_ofNat]
  by_cases hu : u < 32
  · simp [hu]
  · rw [Nat.testBit_lt_two_pow (Nat.lt_of_lt_of_le (fld_lt cmd 12 4) (Nat.pow_le_pow_right (by decide) (by omega)))]
    simp

theorem mask_zero {cmd : Line} : BitVec.ofNat 32 (fld cmd 12 4) = 0 ↔ fld cmd 12 4 = 0 := by
  have cut : (BitVec.ofNat 32 (fld cmd 12 4)).toNat = fld cmd 12 4 := toNat_ofNat_of_lt (fld_lt cmd 12 4)
  refine ⟨fun h => ?_, fun h => by rw [h]; rfl⟩
  rw [h] at cut
  exact cut.symm

theorem mem_bistUnits_zero {cmd : Line} (u : Nat) : u ∈ bistOrder (bistUnits 0 (BitVec.ofNat 32 (fld cmd 12 4))) ↔
    u < 22 ∧ u ≠ 15 ∧ (fld cmd 12 4 = 0 ∨ (fld cmd 12 4).testBit u = true) := by
  rw [mem_bistOrder, bistUnits]
  by_cases h0 : fld cmd 12 4 = 0
  · rw [if_pos (mask_zero.2 h0), mem_setUnits_zero]
    simp [h0]
  · rw [if_neg (mask_zero.not.2 h0), List.mem_filter, mem_setUnits_zero, getLsbD_mask]
    simp [h0, and_assoc]

/-- A mask that names a unit the set does not test. -/
theorem mask_outside {cmd : Line} {b : Nat} (hb : b < 32) (ho : b = 15 ∨ 22 ≤ b)
    (hs : (fld cmd 12 4).testBit b = true) :
    ((bitsOf 32 (BitVec.ofNat 32 (fld cmd 12 4))).any fun b => !(setUnits 0).contains b) = true := by
  rw [List.any_eq_true]
  refine ⟨b, mem_bitsOf.2 (by rw [getLsbD_mask]; exact hs), ?_⟩
  have out : b ∉ setUnits 0 := by
    rw [mem_setUnits_zero]
    omega
  simpa using out

theorem mask_inside {cmd : Line} (h : ∀ b, b < 32 → (b = 15 ∨ 22 ≤ b) → (fld cmd 12 4).testBit b = false) :
    ((bitsOf 32 (BitVec.ofNat 32 (fld cmd 12 4))).any fun b => !(setUnits 0).contains b) = false := by
  rw [List.any_eq_false]
  intro b hb
  obtain ⟨hlt, hbit⟩ : b < 32 ∧ (fld cmd 12 4).testBit b = true := by
    rw [bitsOf, List.mem_filter, List.mem_range, getLsbD_mask] at hb
    exact hb
  have inside : b ∈ setUnits 0 := by
    rw [mem_setUnits_zero]
    by_contra hout
    exact absurd hbit (by simp [h b hlt (by omega)])
  simpa using inside

/-- BIST_RUN of set 0 outside Field-Production (R394 to R396). -/
theorem bistRun_all {s : State} {mb : Fin 8} {priv : Bool} {cmd : Line} (h : Handled s mb priv 0x16 cmd)
    (hl : s.fuses.lcs ≠ 1) (h8 : fld cmd 8 1 = 0) :
    (∀ b, b < 32 → (b = 15 ∨ 22 ≤ b) → (fld cmd 12 4).testBit b = true →
        Ends (.bistRun (.issue mb (portOf mb) priv cmd)) s fun t => Answered s t mb cmd 0x10 12 ∧ OnlyAnswer s t mb) ∧
    ((∀ b, b < 32 → (b = 15 ∨ 22 ≤ b) → (fld cmd 12 4).testBit b = false) →
        (2 < s.job.state.toNat → Ends (.bistRun (.issue mb (portOf mb) priv cmd)) s fun t =>
          Answered s t mb cmd 0x12 (s.job.state.toNat + 256 * s.tide.phase.get.toNat) ∧ OnlyAnswer s t mb) ∧
        (s.job.state.toNat ≤ 2 → (∀ m : Fin 8, m ≠ mb → (box s m).long = false) → s.bist.test = none →
          Ends (.bistRun (.issue mb (portOf mb) priv cmd)) s fun t =>
            RunsLong s t mb cmd ∧ BoxFrame s t mb ∧ t.bist.state = 1 ∧ t.bist.set = 0 ∧ t.bist.verdict = 2 ∧
            t.bist.fail = 0 ∧ t.bist.run = some mb ∧
            (∀ u, u ∈ t.bist.left ↔ u < 22 ∧ u ≠ 15 ∧ (fld cmd 12 4 = 0 ∨ (fld cmd 12 4).testBit u = true)) ∧
            t = { s with
              mb := t.mb, events := t.events, stat := { s.stat with evtOvf := t.stat.evtOvf }, bist := t.bist })) := by
  have run := next_bistRun h
  rw [h8, if_neg (fun hc => hl hc.1), if_neg (by decide)] at run
  have summer : ¬ s.power.season.get ≠ 0 := not_not.2 h.2.2.2.2.2
  refine ⟨fun b hb ho hs => ?_, fun hin => ⟨fun hj => ?_, fun hj hlong ht => ?_⟩⟩
  · rw [if_pos (mask_outside hb ho hs)] at run
    exact ⟨_, run, refusedOnly h (status := stBadArg) (detail := 12) (by decide) (by decide)⟩
  · rw [mask_inside hin, if_neg (by decide), if_pos (.inr hj)] at run
    exact ⟨_, run, refusedOnly h (status := stWrongState) (by decide) (wrongState_detail_lt s)⟩
  · have free : otherLong (took s mb priv cmd) mb = none := otherLong_none fun q hq => by
      rw [box_took_other hq]
      exact hlong q hq
    rw [mask_inside hin, if_neg (by decide), if_neg (by rintro (h1 | h1); exacts [summer h1, by omega]), free] at run
    dsimp only at run
    rw [if_neg (by simp [ht])] at run
    obtain ⟨A, hA⟩ : ∃ A, A = fencing s mb priv cmd := ⟨_, rfl⟩
    have only : OnlyBox s A mb := hA ▸ onlyBox_fencing s mb priv cmd
    have runs : RunsLong s A mb cmd := hA ▸ runsLong_accepted (box_took ..)
    have amb : A.mb = { s.mb with boxes := A.mb.boxes } := congrArg State.mb only.frame
    rw [← hA] at run
    refine ⟨_, run, runs, only.boxFrame, rfl, rfl, rfl, rfl, rfl, mem_bistUnits_zero, ?_⟩
    conv_lhs => rw [only.frame]
    rw [amb]

/-! ### BIST_UNIT_DONE (R397, R398) -/

/-- The state in which a unit's signature has been compared. -/
def signed (s : State) (signature : U64) (u : Nat) (rest : List Nat) (bad : Bool) : State := { s with bist := { s.bist with
  left := rest
  lastSig := signature
  sigFailed := if bad ∧ lowestFailed s.bist.failed u then some signature else s.bist.sigFailed
  failed := if bad then setBit s.bist.failed u true else s.bist.failed } }

theorem next_bistUnitDone {s : State} {mb : Fin 8} {u : Nat} {rest : List Nat} (signature : U64)
    (hr : s.bist.run = some mb) (hl : s.bist.left = u :: rest) (hs : s.bist.stop = false) :
    exec (.bistUnitDone signature) s = .next (
      let bad := decide (signature ≠ fusedSignature s s.bist.set.toNat u)
      let v := if bad then logReport (signed s signature u rest bad) clBist (bistSource u) u else signed s signature u rest bad
      if rest = [] then endBist v mb else v) := by
  refine congrArg Host.Outcome.next ?_
  simp only [hr, hl, hs, Bool.false_eq_true, or_false]
  simp only [signed, hr, hs]

theorem signed_good (s : State) (signature : U64) (u : Nat) (rest : List Nat) :
    signed s signature u rest false = { s with bist := { s.bist with left := rest, lastSig := signature } } := by
  simp [signed]

theorem endBist_quiet {s : State} {mb : Fin 8} (hf : fwRunning s = true) (hs : s.bist.stop = false) (ha : s.bist.aborts = [])
    (hm : s.rst.heldMgp = false) (hw : s.rst.heldWdog = false) : endBist s mb = respond { s with bist := { s.bist with
      state := 2, verdict := if s.bist.failed = 0 then 0 else 1, fail := s.bist.failed,
      sig := s.bist.sigFailed.getD s.bist.lastSig, run := none, left := [], stop := false, aborts := [] } } mb stOk 0
      [(8, 1, (if s.bist.failed = 0 then 0 else 1 : BitVec 2).toNat), (12, 4, s.bist.failed.toNat),
       (16, 8, (s.time.gtc - s.bist.startGtc).toNat)] := by
  have verdict : (if s.bist.stop = true then 2 else if s.bist.failed = 0 then 0 else 1 : BitVec 2) =
      if s.bist.failed = 0 then 0 else 1 := if_neg (by simp [hs])
  obtain ⟨v, hv⟩ : ∃ v : State, v = { s with bist := { s.bist with
      state := 2, verdict := if s.bist.failed = 0 then 0 else 1, fail := s.bist.failed,
      sig := s.bist.sigFailed.getD s.bist.lastSig, run := none, left := [], stop := false, aborts := [] } } := ⟨_, rfl⟩
  have runs : fwRunning v = true := by rw [hv]; exact hf
  have start : endBist s mb = releaseHeldReset (respond v mb stOk 0
      [(8, 1, (if s.bist.failed = 0 then 0 else 1 : BitVec 2).toNat), (12, 4, s.bist.failed.toNat),
       (16, 8, (s.time.gtc - s.bist.startGtc).toNat)]) := by
    rw [hv]
    simp only [endBist, ha, verdict]
    rfl
  rw [start, ← hv, releaseHeldReset_none]
  · rw [(onlyBox_respond runs ..).frame, hv]
    exact hm
  · rw [(onlyBox_respond runs ..).frame, hv]
    exact hw

theorem setBit_true {w : Nat} (v : BitVec w) (i : Nat) : setBit v i true = v ||| BitVec.ofNat w (2 ^ i) := rfl

/-- A unit with others left. -/
theorem bistUnitDone_more {s : State} {mb : Fin 8} {u : Nat} {rest : List Nat} (signature : U64)
    (hr : s.bist.run = some mb) (hl : s.bist.left = u :: rest) (hs : s.bist.stop = false) (hn : rest ≠ []) :
    (signature = fusedSignature s s.bist.set.toNat u → Ends (.bistUnitDone signature) s fun t =>
        t = { s with bist := { s.bist with left := rest, lastSig := signature } }) ∧
    (signature ≠ fusedSignature s s.bist.set.toNat u → Ends (.bistUnitDone signature) s fun t =>
        t.bist.left = rest ∧ t.bist.failed = s.bist.failed ||| BitVec.ofNat 32 (2 ^ u) ∧ t.bist.run = some mb ∧
        t.mb = s.mb ∧ t.mem = s.mem ∧ (s.log.entries = [] → ∃ e : ErrEntry, t.log.entries = [e] ∧ e.cls = 13)) := by
  have run := next_bistUnitDone signature hr hl hs
  dsimp only at run
  rw [if_neg hn] at run
  refine ⟨fun h => ?_, fun h => ?_⟩
  · rw [decide_eq_false (not_not.2 h), if_neg (by decide), signed_good] at run
    exact ⟨_, run, rfl⟩
  · rw [decide_eq_true h, if_pos rfl] at run
    refine ⟨_, run, ?_⟩
    simp only [logReport_bist, logReport_mb, logReport_mem]
    refine ⟨rfl, rfl, hr, rfl, rfl, fun hlog => ?_⟩
    have empty : (signed s signature u rest true).log.entries = [] := hlog
    have logged := logReport_fresh (signed s signature u rest true) clBist (bistSource u) u (by simp [empty]) (by simp [empty])
    rw [empty, List.nil_append] at logged
    exact ⟨_, logged, rfl⟩

/-- The last unit ends the run. -/
theorem bistUnitDone_last {s : State} {mb : Fin 8} {u : Nat} {rest : List Nat} {signature : U64}
    (hr : s.bist.run = some mb) (hl : s.bist.left = u :: rest) (hf : s.stat.fwState.get = 2) (hn : rest = [])
    (hs : s.bist.stop = false) (ha : s.bist.aborts = []) (hm : s.rst.heldMgp = false) (hw : s.rst.heldWdog = false)
    (h : signature = fusedSignature s s.bist.set.toNat u) : Ends (.bistUnitDone signature) s fun t =>
        t.bist.state = 2 ∧ t.bist.run = none ∧ t.bist.fail = s.bist.failed ∧
        t.bist.verdict = (if s.bist.failed = 0 then 0 else 1) ∧ (box t mb).busy = false ∧ (box t mb).code = 0 ∧
        fld (box t mb).rsp 8 1 = (if s.bist.failed = 0 then 0 else 1) ∧
        fld (box t mb).rsp 12 4 = s.bist.failed.toNat ∧ OtherBoxes s t mb ∧ t.mem = s.mem ∧ t.log = s.log := by
  have run := next_bistUnitDone signature hr hl hs
  dsimp only at run
  rw [if_pos hn, decide_eq_false (not_not.2 h), if_neg (by decide), signed_good,
    endBist_quiet (by exact decide_eq_true hf) (by exact hs) (by exact ha) (by exact hm) (by exact hw)] at run
  dsimp only at run
  obtain ⟨rs, hrs⟩ : ∃ rs : List (Nat × Nat × Nat), rs = [(8, 1, (if s.bist.failed = 0 then 0 else 1 : BitVec 2).toNat),
    (12, 4, s.bist.failed.toNat), (16, 8, (s.time.gtc - s.bist.startGtc).toNat)] := ⟨_, rfl⟩
  obtain ⟨v, hv⟩ : ∃ v : State, v = { s with bist := { s.bist with
      state := 2, verdict := if s.bist.failed = 0 then 0 else 1, fail := s.bist.failed, lastSig := signature,
      sig := s.bist.sigFailed.getD signature, run := none, left := [], stop := false, aborts := [] } } := ⟨_, rfl⟩
  rw [← hrs, ← hv] at run
  have runs : fwRunning v = true := by
    rw [hv]
    exact decide_eq_true hf
  have answer := respond_box_same v mb stOk 0 rs runs
  have others := (onlyBox_respond runs mb stOk 0 rs).others
  have verdict : (if s.bist.failed = 0 then 0 else 1 : BitVec 2).toNat = if s.bist.failed = 0 then 0 else 1 := by
    split <;> rfl
  refine ⟨_, run, ?_, ?_, ?_, ?_, ?_, ?_, ?_, ?_, fun m hmb => ?_, ?_, ?_⟩
  · rw [respond_bist, hv]
  · rw [respond_bist, hv]
  · rw [respond_bist, hv]
  · rw [respond_bist, hv]
  · rw [answer]; rfl
  · rw [answer]; rfl
  · rw [fld_rsp_respond mb stOk 0 rs runs (by decide) (by decide), hrs, fld_mkLine_head (by decide) (by simp [apart]), verdict]
    split <;> rfl
  · rw [fld_rsp_respond mb stOk 0 rs runs (by decide) (by decide), hrs, fld_mkLine_skip (by decide) (by decide),
      fld_mkLine_head (by decide) (by simp [apart])]
    exact Nat.mod_eq_of_lt s.bist.failed.isLt
  · rw [others m hmb, hv]
    rfl
  · rw [respond_mem, hv]
  · rw [respond_log, hv]

/-! ### The wrapper (R295) -/

theorem wrapper_absent {s : State} {c : BitVec 4} (hon : s.power.on = true) (hw : s.ports.wrapped = none)
    (hh : s.cap.held = []) (ho : s.cap.oldReads = []) (hq : s.cap.queue = [])
    (hc : c = 4 ∨ (s.fuses.lcs ≠ 1 ∧ (c = 1 ∨ c = 3))) : exec (.wrapperInstructionUpdate (some c)) s = .next { s with
      ports := { s.ports with
        wir := c, wrapped := some (s.ports.msp, s.ports.fbp, s.ports.lkp, s.ports.mgp)
        msp := false, fbp := false, lkp := false, mgp := false } } := by
  have selects : c = 1 ∨ c = 3 ∨ c = 4 := by tauto
  have decoded : wrapperCode s (some c) = c := by
    refine if_neg ?_
    rintro (h | ⟨h1, h2⟩)
    · rcases selects with rfl | rfl | rfl <;> exact absurd h (by decide)
    · rcases hc with rfl | ⟨h, -⟩
      · exact absurd h2 (by decide)
      · exact h h1
  have shows : showPorts { s with ports := { s.ports with
      wir := c, wrapped := some (s.ports.msp, s.ports.fbp, s.ports.lkp, s.ports.mgp) } } noneReady = { s with
      ports := { s.ports with
        wir := c, wrapped := some (s.ports.msp, s.ports.fbp, s.ports.lkp, s.ports.mgp)
        msp := false, fbp := false, lkp := false, mgp := false } } := by
    rw [showPorts, releaseMsp_idle (by exact hh) (by exact ho) (by exact hq), ite_self]
    rfl
  have shown : presence s = (s.ports.msp, s.ports.fbp, s.ports.lkp, s.ports.mgp) := by rw [presence, hw]; rfl
  refine congrArg Host.Outcome.next ((if_neg (by simp [hon])).trans ?_)
  simp only [decoded]
  refine (if_pos selects).trans ?_
  simp only [hw, shown]
  exact shows

theorem wrapper_bypass {s : State} {c : BitVec 4} (hon : s.power.on = true) (hw : s.ports.wrapped = none)
    (hc : c = 0 ∨ 4 < c.toNat ∨ (s.fuses.lcs = 1 ∧ (c = 1 ∨ c = 3))) :
    exec (.wrapperInstructionUpdate (some c)) s = .next { s with ports := { s.ports with wir := 0 } } := by
  have decoded : wrapperCode s (some c) = 0 := by
    rcases hc with rfl | h | h
    · exact ite_self _
    · exact if_pos (.inl h)
    · exact if_pos (.inr h)
  refine congrArg Host.Outcome.next ((if_neg (by simp [hon])).trans ?_)
  simp only [decoded]
  refine (if_neg (by decide)).trans ?_
  simp only [hw]

theorem wrapper_released {s : State} {p : Bool × Bool × Bool × Bool} (hon : s.power.on = true)
    (hw : s.ports.wrapped = some p) (hmsp : s.ports.msp = false) (hq : s.events.queue = []) :
    exec (.wrapperInstructionUpdate none) s = .next { s with ports := { s.ports with
      wir := 0, wrapped := none, msp := p.1, fbp := p.2.1, lkp := p.2.2.1, mgp := p.2.2.2 } } := by
  have stays : ¬ (s.ports.msp = true ∧ ¬ p.1 = true) := by simp [hmsp]
  have events : (if p.2.2.2 = true then { queue := [], delivered := s.events.delivered ++ s.events.queue } else s.events) =
      s.events := by
    split
    · rw [hq, List.append_nil, ← hq]
    · rfl
  have bypass : ¬ (wrapperCode s none = 1 ∨ wrapperCode s none = 3 ∨ wrapperCode s none = 4) :=
    (by decide : ¬ ((0 : BitVec 4) = 1 ∨ (0 : BitVec 4) = 3 ∨ (0 : BitVec 4) = 4))
  refine congrArg Host.Outcome.next ((if_neg (by simp [hon])).trans ((if_neg bypass).trans ?_))
  simp only [hw, showPorts]
  rw [if_neg stays]
  simp only [events]
  rfl

/-- Settles O55: UNIT_FENCE and BIST_RUN by their fields, the ends of tests, and the wrapper's instruction. -/
theorem fencesAndSelfTests : Obligations.FencesAndSelfTests := by
  unfold Obligations.FencesAndSelfTests
  intro s
  refine ⟨fun mb priv cmd h => ⟨fun h8 => ?_, fun h9 => ?_, fun h8 h9 => unitFence_slice h h8 h9,
      fun h8 h9 h10 hs hn hd => unitFence_cluster h h8 h9 h10 hs hn hd⟩,
    fun signature => ⟨fun ht => ?_, fun mb i ht hf _ => fenceTestDone_slice signature ht hf⟩,
    fun mb priv cmd h => ⟨fun hl hr => ?_, fun hl h8 => ?_, fun hl h8 => bistRun_all h hl h8⟩,
    fun signature => ⟨fun hr => ?_, fun mb u rest hr hl hf => ⟨fun hn hs => (bistUnitDone_more signature hr hl hs hn).1,
      fun hn hs h _ => (bistUnitDone_more signature hr hl hs hn).2 h,
      fun hn hs ha hm hw h => bistUnitDone_last hr hl hf hn hs ha hm hw h⟩⟩,
    fun code hoff => ⟨s, congrArg Host.Outcome.next (if_pos (by simp [hoff])), rfl⟩,
    fun hon => ⟨fun c hw hh ho hq hc => ⟨_, wrapper_absent hon hw hh ho hq hc, rfl⟩,
      fun c hw hc => ⟨_, wrapper_bypass hon hw hc, rfl⟩,
      fun p hw hmsp hq => ⟨_, wrapper_released hon hw hmsp hq, rfl⟩⟩⟩
  case refine_1 =>
    exact ⟨_, (next_unitFence h).trans (congrArg _ (if_pos h8)),
      refusedOnly h (status := stBadArg) (detail := 8) (by decide) (by decide)⟩
  case refine_2 =>
    refine ⟨_, (next_unitFence h).trans (congrArg _ ((if_neg (by omega)).trans (if_pos ?_))),
      refusedOnly h (status := stBadArg) (detail := 9) (by decide) (by decide)⟩
    rcases h9 with ⟨h0, h5⟩ | ⟨h1, h5⟩
    · simpa [h0] using h5
    · simpa [h1] using h5
  case refine_3 =>
    refine ⟨s, congrArg Host.Outcome.next ?_, rfl⟩
    simp only [ht]
  case refine_4 =>
    have mbs := bistRun_mailbox mb priv h.2.1
    have restricted : s.fuses.lcs = 1 ∧ (boundPort mb ≠ .mgp ∨ fld cmd 8 1 ≠ 0) := by
      refine ⟨hl, hr.imp_left fun h6 => ?_⟩
      obtain rfl : mb = 6 := Fin.ext h6
      decide
    have code : bindCode mb = if mb.val = 6 then 2 else 1 := by rcases mbs with rfl | rfl <;> rfl
    refine ⟨_, (next_bistRun h).trans (congrArg _ (if_pos restricted)), ?_⟩
    rw [code]
    exact refusedOnly h (status := stNotPermitted) (by decide) (by split <;> decide)
  case refine_5 =>
    exact ⟨_, (next_bistRun h).trans (congrArg _ ((if_neg fun hc => hl hc.1).trans (if_pos h8))),
      refusedOnly h (status := stBadArg) (detail := 8) (by decide) (by decide)⟩
  case refine_6 =>
    refine ⟨s, congrArg Host.Outcome.next ?_, rfl⟩
    simp only [hr]

end Sys2Proof.Machine

/-! PROOFS. Reference edges, voted copies, GTC faults and relock (R293, R294, R304, R305, R339, R352). -/

namespace Sys2Proof.Machine

/-! ### Voted copies (R339) -/

theorem V3.get_repair {w : Nat} (v : V3 w) : v.repair.get = v.get := V3.get_all _

theorem V3.faults_all {w : Nat} (x : BitVec w) : (V3.all x).faults = 0 := by
  have got : (V3.all x).get = x := V3.get_all x
  simp only [V3.faults, got]
  simp [V3.all]

theorem copyFaults_voteAll (s : State) : ∀ f ∈ copyFaults (voteAll s), f.2 = 0 := by
  intro f hf
  simp only [copyFaults, voteAll, V3.repair, V3.faults_all, List.mem_cons, List.not_mem_nil, or_false] at hf
  rcases hf with rfl | rfl | rfl | rfl | rfl | rfl | rfl | rfl | rfl | rfl | rfl | rfl | rfl | rfl | rfl | rfl | rfl | rfl | rfl | rfl <;> rfl

/-- The classes that the error log holds. -/
def logClasses (s : State) : List Byte := s.log.entries.map ErrEntry.cls

/-- The event of a report whose class is uncorrectable. -/
def reportEvent (s : State) (cls : Nat) : State :=
  if classUncorr cls then raiseEvent s evErrUncorr (BitVec.ofNat 8 cls) else s

theorem reportEvent_log (s : State) (cls : Nat) : (reportEvent s cls).log = s.log := by
  unfold reportEvent
  split
  · exact raiseEvent_log ..
  · rfl

/-- A report that starts an entry, or that finds the log full. -/
def startEntry (s : State) (cls : Nat) (src : U16) (detail : Nat) : State :=
  if s.log.entries.length < 256 then reportEvent { s with log.entries := s.log.entries ++
    [{ cls := BitVec.ofNat 8 cls, uncorr := classUncorr cls, source := src, count := 1, first := s.time.gtc,
       last := s.time.gtc, detail := BitVec.ofNat 64 detail }] } cls
  else reportEvent { s with
    log.ovf := s.log.ovf.set (cls % 16) (satAdd 16 (s.log.ovf.getD (cls % 16) 0) 1) (Nat.mod_lt _ (by decide)) } cls

theorem logClasses_startEntry (s : State) (cls : Nat) (src : U16) (detail : Nat) :
    ∃ cs, logClasses (startEntry s cls src detail) = logClasses s ++ cs := by
  unfold startEntry
  split
  · refine ⟨[BitVec.ofNat 8 cls], ?_⟩
    rw [logClasses, reportEvent_log]
    exact List.map_append
  · refine ⟨[], ?_⟩
    rw [logClasses, reportEvent_log, List.append_nil]
    rfl

/-- A report joins the newest entry of its class and source, or starts one. -/
theorem logReport_cases (s : State) (cls : Nat) (src : U16) (detail : Nat) :
    logReport s cls src detail = startEntry s cls src detail ∨
      ∃ (i : Nat) (e : ErrEntry), s.log.entries[i]? = some e ∧ logReport s cls src detail =
        { s with log.entries := s.log.entries.set i { e with count := satAdd 32 e.count 1, last := s.time.gtc } } := by
  unfold logReport
  dsimp only
  split
  · exact .inl rfl
  · split
    · exact .inl rfl
    · next e he =>
      split
      · exact .inr ⟨_, e, he, rfl⟩
      · exact .inl rfl

/-- A report leaves the classes of the log, and adds at most its own. -/
theorem logClasses_logReport (s : State) (cls : Nat) (src : U16) (detail : Nat) :
    ∃ cs, logClasses (logReport s cls src detail) = logClasses s ++ cs := by
  rcases logReport_cases s cls src detail with h | ⟨i, e, he, h⟩
  · rw [h]
    exact logClasses_startEntry s cls src detail
  · obtain ⟨hi, rfl⟩ := List.getElem?_eq_some_iff.1 he
    refine ⟨[], ?_⟩
    have same := List.set_getElem_self (as := s.log.entries.map ErrEntry.cls) (i := i) (by simpa using hi)
    rw [List.getElem_map] at same
    rw [h, List.append_nil, logClasses, logClasses, List.map_set]
    exact same

/-- One repaired copy of the field at an offset. -/
def reportCopy (s : State) (off : Nat) : State := logReport (count s cntVoteFix) clVote (srcOf 11 0) off

/-- The offset of every copy to repair. -/
def faultOffsets (s : State) : List Nat := (copyFaults s).flatMap fun f => List.replicate f.2 f.1

theorem forEach_append {α : Type} (f : State → α → State) (l k : List α) (s : State) :
    forEach (l ++ k) f s = forEach k f (forEach l f s) := List.foldl_append

theorem repairCopies_eq (s : State) : repairCopies s = forEach (faultOffsets s) reportCopy (voteAll s) := by
  have inner : ∀ (t : State) (f : Nat × Nat), forEach (List.range f.2) (fun u _ => reportCopy u f.1) t =
      forEach (List.replicate f.2 f.1) reportCopy t := fun t f => by
    rw [forEach, forEach, ← List.length_range (n := f.2), ← List.map_const', List.foldl_map, List.length_range]
  have nested : ∀ (l : List (Nat × Nat)) (t : State),
      forEach l (fun t f => forEach (List.range f.2) (fun u _ => reportCopy u f.1) t) t =
        forEach (l.flatMap fun f => List.replicate f.2 f.1) reportCopy t := by
    intro l
    induction l with
    | nil => exact fun t => rfl
    | cons f l ih =>
      intro t
      rw [List.flatMap_cons, forEach_append, ← inner]
      exact ih _
  exact nested _ _

theorem get_set_counter_ne (v : Vector U32 23) {i j : Fin 23} (h : j ≠ i) (x : U32) :
    (v.set i.val x i.isLt).get j = v.get j := by
  show (v.set i.val x i.isLt)[j.val] = v[j.val]
  exact Vector.getElem_set_ne _ _ fun e => h (Fin.ext e.symm)

theorem reportCopy_fields (s : State) (off : Nat) : ∃ log, reportCopy s off = { s with
    cnt := s.cnt.set 22 (s.cnt.get 22 + 1), log := log } ∧ (∃ cs, log.entries.map ErrEntry.cls = logClasses s ++ cs) ∧
    (s.log.entries = [] → 14 ∈ log.entries.map ErrEntry.cls) := by
  obtain ⟨log, logged⟩ := logReport_logOnly (count s cntVoteFix) (cls := clVote) (by decide) (srcOf 11 0) off
  have same : logReport (count s cntVoteFix) clVote (srcOf 11 0) off = { count s cntVoteFix with log := log } := logged
  refine ⟨log, logged, ?_, fun h => ?_⟩
  · obtain ⟨cs, hcs⟩ := logClasses_logReport (count s cntVoteFix) clVote (srcOf 11 0) off
    rw [same] at hcs
    exact ⟨cs, hcs⟩
  · have empty : (count s cntVoteFix).log.entries = [] := h
    have fresh := logReport_fresh (count s cntVoteFix) clVote (srcOf 11 0) off (by rw [empty]; decide) (by rw [empty]; simp)
    rw [same, empty] at fresh
    have entries : log.entries = _ := fresh
    rw [entries]
    exact List.mem_cons_self

/-- The copies repaired are counted and logged; nothing else changes. -/
theorem forEach_reportCopy (l : List Nat) (s : State) : ∃ cnt log, forEach l reportCopy s = { s with cnt := cnt, log := log } ∧
    cnt.get 22 = s.cnt.get 22 + BitVec.ofNat 32 l.length ∧ (∀ i : Fin 23, i ≠ 22 → cnt.get i = s.cnt.get i) ∧
    (∃ cs, log.entries.map ErrEntry.cls = logClasses s ++ cs) ∧
    (s.log.entries = [] → l ≠ [] → 14 ∈ log.entries.map ErrEntry.cls) ∧ (l = [] → log = s.log) := by
  induction l generalizing s with
  | nil => exact ⟨s.cnt, s.log, rfl, (BitVec.add_zero _).symm, fun _ _ => rfl, ⟨[], (List.append_nil _).symm⟩,
      fun _ h => absurd rfl h, fun _ => rfl⟩
  | cons off l ih =>
    obtain ⟨log1, first, ⟨cs1, kept1⟩, vote⟩ := reportCopy_fields s off
    obtain ⟨cnt, log, rest, fixes, others, ⟨cs, kept⟩, -, -⟩ := ih (reportCopy s off)
    rw [first] at rest fixes others kept
    have kept' : log.entries.map ErrEntry.cls = log1.entries.map ErrEntry.cls ++ cs := kept
    refine ⟨cnt, log, ?_, ?_, fun i hi => ?_, ⟨cs1 ++ cs, ?_⟩, fun hs _ => ?_, fun h => absurd h (List.cons_ne_nil _ _)⟩
    · show forEach l reportCopy (reportCopy s off) = _
      rw [first]
      exact rest
    · rw [fixes]
      show (s.cnt.set 22 (s.cnt.get 22 + 1)).get 22 + _ = _
      rw [show (s.cnt.set 22 (s.cnt.get 22 + 1)).get 22 = s.cnt.get 22 + 1 from get_set_counter s.cnt 22 _,
        List.length_cons, BitVec.add_assoc, Nat.add_comm l.length 1, BitVec.ofNat_add]
      rfl
    · exact (others i hi).trans (get_set_counter_ne s.cnt hi _)
    · rw [kept', kept1, List.append_assoc]
    · rw [kept']
      exact List.mem_append_left _ (vote hs)

theorem length_faultOffsets (s : State) : (faultOffsets s).length = ((copyFaults s).map Prod.snd).sum := by
  rw [faultOffsets, List.length_flatMap]
  simp

theorem faultOffsets_nil {s : State} (h : (copyFaults s).all (fun f => f.2 = 0) = true) : faultOffsets s = [] := by
  rw [faultOffsets, List.flatMap_eq_nil_iff]
  intro f hf
  have : f.2 = 0 := by simpa using List.all_eq_true.1 h f hf
  rw [this]
  rfl

theorem faultOffsets_ne_nil {s : State} (h : ∃ f ∈ copyFaults s, 0 < f.2) : faultOffsets s ≠ [] := by
  obtain ⟨f, hf, hpos⟩ := h
  intro none
  rw [faultOffsets, List.flatMap_eq_nil_iff] at none
  have empty := congrArg List.length (none f hf)
  rw [List.length_replicate] at empty
  exact absurd empty (by simp; omega)

/-! ### What the other parts of an edge change -/

theorem chargeRb_fields (s : State) (d : Dir) (n : Nat) : ∃ plus minus,
    chargeRb s d n = { s with fold := { s.fold with rbTokPlus := plus, rbTokMinus := minus } } := by
  cases d
  · exact ⟨_, _, rfl⟩
  · exact ⟨_, _, rfl⟩

theorem sendTo_fields (s : State) (rank : Nat) (vc : Vc) (route : Route) (msg : Msg) : ∃ xs,
    sendTo s rank vc route msg = { s with out := { s.out with lkp := xs } } := by
  unfold sendTo
  split
  · exact ⟨_, rfl⟩
  · exact ⟨_, rfl⟩

theorem sendRbTo_fields (s : State) (rank : Nat) (type : Byte) (route : Route) (m : RbMsg) : ∃ seqs plus minus xs,
    sendRbTo s rank type route m = { s with
      recov := { s.recov with seqs := seqs }
      fold := { s.fold with rbTokPlus := plus, rbTokMinus := minus }
      out := { s.out with lkp := xs } } := by
  obtain ⟨plus, minus, charged⟩ := chargeRb_fields { s with
    recov.seqs := put rank (look 0 rank s.recov.seqs + 1) s.recov.seqs } (chargeDir s rank route)
    (stored (32 + m.payload.length))
  rw [sendRbTo, charged]
  obtain ⟨xs, sent⟩ := sendTo_fields { s with
    recov := { s.recov with seqs := put rank (look 0 rank s.recov.seqs + 1) s.recov.seqs }
    fold := { s.fold with rbTokPlus := plus, rbTokMinus := minus } } rank .vf route
    (.rebuild type { m with seq := look 0 rank s.recov.seqs })
  exact ⟨_, _, _, _, sent⟩

/-- The copy of a handover sends, and changes its own cursor and what sending changes. -/
theorem copyRun_fields (go : State → Nat → Bool) (fuel : Nat) (s : State) :
    ∃ handover seqs plus minus xs, copyRun go fuel s = { s with
      recov := { s.recov with handover := handover, seqs := seqs }
      fold := { s.fold with rbTokPlus := plus, rbTokMinus := minus }
      out := { s.out with lkp := xs } } := by
  induction fuel generalizing s with
  | zero => exact ⟨_, _, _, _, _, rfl⟩
  | succ fuel ih =>
    have packet : ∀ h : Handover, ∃ handover seqs plus minus xs, copyPacket s h = { s with
        recov := { s.recov with handover := handover, seqs := seqs }
        fold := { s.fold with rbTokPlus := plus, rbTokMinus := minus }
        out := { s.out with lkp := xs } } := fun h => by
      rw [copyPacket, sendMirror]
      obtain ⟨seqs, plus, minus, xs, sent⟩ := sendRbTo_fields s h.peerRank 0x44 .any _
      rw [sent]
      exact ⟨_, _, _, _, _, rfl⟩
    unfold copyRun
    split
    · next h hh =>
      split
      · obtain ⟨h1, s1, p1, m1, x1, e1⟩ := packet h
        obtain ⟨h2, s2, p2, m2, x2, e2⟩ := ih (copyPacket s h)
        exact ⟨h2, s2, p2, m2, x2, e2.trans (by rw [e1])⟩
      · exact ⟨_, _, _, _, _, rfl⟩
    · exact ⟨_, _, _, _, _, rfl⟩

theorem copyOn_none {s : State} (h : s.recov.handover = none) : copyOn s = s := by
  rw [copyOn, copyRun, h]

/-- A counter counts where its condition holds. -/
def countIf (s : State) (i : Fin 23) (n : Nat) (holds : Bool) : State := if holds then countN s i n else s

theorem countIf_fields (s : State) (i : Fin 23) (n : Nat) (holds : Bool) : ∃ cnt, countIf s i n holds = { s with cnt := cnt } ∧
    (∀ j : Fin 23, cnt.get j = s.cnt.get j + if j = i ∧ holds = true then BitVec.ofNat 32 n else 0) := by
  cases holds with
  | false => exact ⟨s.cnt, rfl, fun j => by simp⟩
  | true =>
    refine ⟨_, rfl, fun j => ?_⟩
    by_cases hj : j = i
    · subst hj
      rw [if_pos ⟨rfl, rfl⟩]
      exact get_set_counter ..
    · rw [if_neg fun h => hj h.1]
      exact (get_set_counter_ne _ hj _).trans (BitVec.add_zero _).symm

theorem countUs_eq (s : State) (n : Nat) : countUs s n =
    countIf (countIf (countIf (countIf (countIf s cntFbHighUs n (decide (3 * 1048576 ≤ fbBytes s.fold.buffer))) cntSqPwUs n
      (!queueRoom s.fold.sendPlus)) cntSqMwUs n (!queueRoom s.fold.sendMinus)) cntCapqUs n
      (decide (256 ≤ s.cap.queue.length))) cntOldrdUs n (decide (128 ≤ s.cap.oldReads.length)) := by
  have fields : ∀ (t : State) (i : Fin 23) (b : Bool), (countIf t i n b).fold = t.fold ∧ (countIf t i n b).cap = t.cap :=
    fun t i b => by
      obtain ⟨cnt, e, -⟩ := countIf_fields t i n b
      rw [e]
      exact ⟨rfl, rfl⟩
  show countIf (countIf (countIf (countIf (countIf s _ n _) _ n _) _ n _) _ n _) _ n _ = _
  simp only [(fields _ _ _).1, (fields _ _ _).2]

/-- The _US counters at a number of microsecond boundaries (R352). -/
theorem countUs_fields (s : State) (n : Nat) : ∃ cnt, countUs s n = { s with cnt := cnt } ∧
    cnt.get 8 = s.cnt.get 8 + (if 3145728 ≤ fbBytes s.fold.buffer then BitVec.ofNat 32 n else 0) ∧
    cnt.get 11 = s.cnt.get 11 + (if 256 ≤ s.cap.queue.length then BitVec.ofNat 32 n else 0) ∧
    cnt.get 22 = s.cnt.get 22 := by
  rw [countUs_eq]
  obtain ⟨c1, e1, g1⟩ := countIf_fields s cntFbHighUs n (decide (3 * 1048576 ≤ fbBytes s.fold.buffer))
  rw [e1]
  obtain ⟨c2, e2, g2⟩ := countIf_fields { s with cnt := c1 } cntSqPwUs n (!queueRoom s.fold.sendPlus)
  rw [e2]
  obtain ⟨c3, e3, g3⟩ := countIf_fields { s with cnt := c2 } cntSqMwUs n (!queueRoom s.fold.sendMinus)
  rw [e3]
  obtain ⟨c4, e4, g4⟩ := countIf_fields { s with cnt := c3 } cntCapqUs n (decide (256 ≤ s.cap.queue.length))
  rw [e4]
  obtain ⟨c5, e5, g5⟩ := countIf_fields { s with cnt := c4 } cntOldrdUs n (decide (128 ≤ s.cap.oldReads.length))
  rw [e5]
  refine ⟨c5, rfl, ?_, ?_, ?_⟩
  all_goals simp only [g1, g2, g3, g4, g5]
  all_goals simp [cntFbHighUs, cntSqPwUs, cntSqMwUs, cntCapqUs, cntOldrdUs]

/-- Microsecond boundaries passed since a time. -/
def boundariesSince (s : State) (before : U64) : Nat := s.time.gtc.toNat / 1000 - before.toNat / 1000

/-- What the microsecond boundaries change (R305, R352). -/
theorem passMicros_fields (s : State) (before : U64) (rate : BitVec 12) : ∃ cnt time, passMicros s before rate =
      { s with cnt := cnt, time := time } ∧
    cnt.get 8 = s.cnt.get 8 +
      (if 3145728 ≤ fbBytes s.fold.buffer then BitVec.ofNat 32 (boundariesSince s before) else 0) ∧
    cnt.get 11 = s.cnt.get 11 + (if 256 ≤ s.cap.queue.length then BitVec.ofNat 32 (boundariesSince s before) else 0) ∧
    cnt.get 22 = s.cnt.get 22 ∧
    time.gtc = s.time.gtc ∧ time.onDelayLine = s.time.onDelayLine ∧ time.goodEdges = s.time.goodEdges ∧
    (boundariesSince s before = 0 → time = s.time) ∧
    (s.time.boundary = true → boundariesSince s before = 1 → time.rate = rate ∧ time.belowSlow = decide (rate.toNat < 900) ∧
      time.rateMin = if s.time.measured = true ∧ s.time.rateMin.toNat ≤ rate.toNat then s.time.rateMin else rate) := by
  by_cases hn : boundariesSince s before = 0
  · refine ⟨s.cnt, s.time, if_pos hn, ?_, ?_, rfl, rfl, rfl, rfl, fun _ => rfl, fun _ h1 => absurd h1 (by omega)⟩
    · simp [hn]
    · simp [hn]
  · obtain ⟨cnt, counted, high, queue, fixes⟩ := countUs_fields s (boundariesSince s before)
    have start : passMicros s before rate = { (if s.time.boundary = true ∨ 1 < boundariesSince s before then
        measureRate (countUs s (boundariesSince s before)) rate else countUs s (boundariesSince s before)) with
        time.boundary := true } := if_neg hn
    rw [start, counted]
    by_cases hb : s.time.boundary = true ∨ 1 < boundariesSince s before
    · rw [if_pos hb]
      exact ⟨cnt, _, rfl, high, queue, fixes, rfl, rfl, rfl, fun h => absurd h hn, fun _ _ => ⟨rfl, rfl, rfl⟩⟩
    · rw [if_neg hb]
      exact ⟨cnt, _, rfl, high, queue, fixes, rfl, rfl, rfl, fun h => absurd h hn, fun h _ => absurd (.inl h) hb⟩

/-- The copies that differ do not depend on what time and counters hold. -/
theorem repair_fields (u : State) (edges : Nat) : ∃ handover seqs plus minus xs cnt log,
    repairCopies (copyOn (refillAll u edges)) = { voteAll u with
      recov := { (voteAll u).recov with handover := handover, seqs := seqs }
      fold := { u.fold with
        tokPlus := refill u.fold.tokPlus u.fold.share edges, tokMinus := refill u.fold.tokMinus u.fold.share edges
        rbTokPlus := plus, rbTokMinus := minus }
      out := { u.out with lkp := xs }, cnt := cnt, log := log } ∧
    cnt.get 22 = u.cnt.get 22 + BitVec.ofNat 32 ((copyFaults u).map Prod.snd).sum ∧
    (∀ i : Fin 23, i ≠ 22 → cnt.get i = u.cnt.get i) ∧ (∃ cs, log.entries.map ErrEntry.cls = logClasses u ++ cs) ∧
    (u.log.entries = [] → (∃ f ∈ copyFaults u, 0 < f.2) → 14 ∈ log.entries.map ErrEntry.cls) ∧
    ((copyFaults u).all (fun f => f.2 = 0) = true → log = u.log) ∧
    (u.recov.handover = none → xs = u.out.lkp) := by
  obtain ⟨handover, seqs, plus, minus, xs, sent⟩ := copyRun_fields bucketHolds 64 (refillAll u edges)
  obtain ⟨w, hw⟩ : ∃ w, w = copyOn (refillAll u edges) := ⟨_, rfl⟩
  have ww : w = { refillAll u edges with
      recov := { u.recov with handover := handover, seqs := seqs }
      fold := { (refillAll u edges).fold with rbTokPlus := plus, rbTokMinus := minus }
      out := { u.out with lkp := xs } } := hw.trans sent
  have faults : copyFaults w = copyFaults u := by rw [ww]; rfl
  have offsets : faultOffsets w = faultOffsets u := by rw [faultOffsets, faults, faultOffsets]
  obtain ⟨cnt, log, reports, fixes, others, classes, vote, quiet⟩ := forEach_reportCopy (faultOffsets w) (voteAll w)
  have wcnt : (voteAll w).cnt = u.cnt := by rw [ww]; rfl
  have wlog : (voteAll w).log = u.log := by rw [ww]; rfl
  rw [wcnt, offsets, length_faultOffsets] at fixes
  rw [wcnt] at others
  rw [logClasses, wlog] at classes
  rw [wlog, offsets] at vote quiet
  refine ⟨handover, seqs, plus, minus, xs, cnt, log, ?_, fixes, others, classes,
    fun h0 hf => vote h0 (faultOffsets_ne_nil hf), fun hf => quiet (faultOffsets_nil hf), fun hn => ?_⟩
  · rw [← hw, repairCopies_eq, reports, ww]
    rfl
  · have idle := copyOn_none (s := refillAll u edges) hn
    have same : w = refillAll u edges := hw.trans idle
    have lkp := congrArg (fun t : State => t.out.lkp) (ww.symm.trans same)
    exact lkp

theorem snapshot_snap (s : State) (x : List (Nat × U32)) : snapshot { s with time.snap := x } = snapshot s := rfl

/-! ### Reference edges (R293, R294, R304, R305) -/

theorem advance_due {s : State} {edges : Nat} {value : U64} (hd : s.time.onDelayLine = false) (hg : 1 ≤ s.time.goodEdges)
    (hv : value = s.time.gtc + BitVec.ofNat 64 (10 * edges)) : advance s edges value = { s with
      ports := { s.ports with gtcLock := s.ports.gtcLock || decide (4 ≤ s.time.goodEdges + edges) }
      time := { s.time with
        gtc := value, goodEdges := if 4 ≤ s.time.goodEdges + edges then 4 else s.time.goodEdges + edges } } :=
  (if_neg (by simp [hd])).trans ((if_neg (by omega)).trans (if_neg (not_not.2 hv)))

theorem advance_wrong {s : State} {edges : Nat} {value : U64} (hd : s.time.onDelayLine = false) (hg : 1 ≤ s.time.goodEdges)
    (hv : value ≠ s.time.gtc + BitVec.ofNat 64 (10 * edges)) : advance s edges value =
      gtcFails { s with time.gtc := s.time.gtc + BitVec.ofNat 64 (10 * edges) } :=
  (if_neg (by simp [hd])).trans ((if_neg (by omega)).trans (if_pos hv))

/-- An edge of an input that has locked. -/
theorem next_referenceEdge {s : State} {edges : Nat} {value : U64} {rate : BitVec 12} (hon : s.power.on = true)
    (hg : 1 ≤ s.time.goodEdges) : exec (.referenceEdge edges value rate) s = .next (
      let v := repairCopies (copyOn (refillAll (passMicros (advance s edges value) s.time.gtc rate) edges))
      { v with time.snap := snapshot v }) := by
  have measured : ¬ (s.time.goodEdges = 0 ∧ ¬ s.time.onDelayLine = true) := fun h => by omega
  refine congrArg Host.Outcome.next ((if_pos hon).trans ?_)
  simp only [edge, if_neg measured]

theorem refill_eq (old share edges : Nat) : refill old share edges = min 8192 (old + share * 480 * edges) := by
  unfold refill
  split
  · omega
  · omega

theorem gtcFails_fields {s : State} (hm : s.ports.mgp = true) (hl : s.log.entries = []) : ∃ (log : LogS) (e : ErrEntry),
    gtcFails s = { s with
      ports := { s.ports with gtcLock := false, gtcFault := true }
      time := { s.time with onDelayLine := true, goodEdges := 0 }
      log := log, events := { s.events with delivered := s.events.delivered ++ [⟨9, 0, 1, s.time.gtc⟩] } } ∧
    log.entries = [e] ∧ e.cls = 9 ∧ e.first = s.time.gtc := by
  obtain ⟨u, hu⟩ : ∃ u : State, u = { s with
    ports.gtcLock := false, ports.gtcFault := true, time.onDelayLine := true, time.goodEdges := 0 } := ⟨_, rfl⟩
  obtain ⟨log, logged⟩ := logReport_logOnly u (cls := clGtc) (by decide) (srcOf 12 0) 0
  have empty : u.log.entries = [] := by rw [hu]; exact hl
  have fresh := logReport_fresh u clGtc (srcOf 12 0) 0 (by rw [empty]; decide) (by rw [empty]; simp)
  rw [logged, empty] at fresh
  have start : gtcFails s = raiseEvent (logReport u clGtc (srcOf 12 0) 0) evGtcFault 0 := by rw [hu]; rfl
  refine ⟨log, _, ?_, fresh, rfl, ?_⟩
  · rw [start, logged, raiseEvent_present _ _ _ (by rw [hu]; exact hm), hu]
  · rw [hu]

/-- Every voted value is as it was where the voted fields are those of the repaired state. -/
theorem voted_values {s t : State} (hc : t.ctrl = (voteAll s).ctrl) (hs : t.stat = (voteAll s).stat)
    (ht : t.tide = (voteAll s).tide) (ha : t.agree = (voteAll s).agree) (hr : t.recov.state = (voteAll s).recov.state)
    (hl : t.recov.lost = (voteAll s).recov.lost) (hp : t.power = (voteAll s).power) :
    t.ctrl.capEn.get = s.ctrl.capEn.get ∧ t.ctrl.foldEn.get = s.ctrl.foldEn.get ∧
      t.ctrl.applyEn.get = s.ctrl.applyEn.get ∧ t.ctrl.exchEn.get = s.ctrl.exchEn.get ∧
      t.ctrl.compatA.get = s.ctrl.compatA.get ∧ (∀ l : Fin 4, physOf t.ctrl l = physOf s.ctrl l) ∧
      t.stat.fwState.get = s.stat.fwState.get ∧ t.tide.slot.get = s.tide.slot.get ∧
      t.tide.phase.get = s.tide.phase.get ∧ sealedTide t = sealedTide s ∧ t.tide.n.get = s.tide.n.get ∧
      t.agree.live.get = s.agree.live.get ∧ t.agree.epoch.get = s.agree.epoch.get ∧
      t.recov.state.get = s.recov.state.get ∧ t.recov.lost.get = s.recov.lost.get ∧
      t.power.season.get = s.power.season.get := by
  have copies : ∀ l : Fin 4, physOf (voteAll s).ctrl l = physOf s.ctrl l := fun l => by
    match l with
    | 0 | 1 | 2 | 3 => exact congrArg BitVec.toNat (V3.get_repair _)
  rw [sealedTide, hc, hs, ht, ha, hr, hl, hp]
  exact ⟨V3.get_repair _, V3.get_repair _, V3.get_repair _, V3.get_repair _, V3.get_repair _, copies, V3.get_repair _,
    V3.get_repair _, V3.get_repair _,
    congrArg₂ (· ++ ·) (V3.get_repair s.tide.tideHi) (V3.get_repair s.tide.tideLo), V3.get_repair _, V3.get_repair _,
    V3.get_repair _, V3.get_repair _, V3.get_repair _, V3.get_repair _⟩

/-- What an edge with the value that is due leaves. -/
structure EdgeDue (s : State) (edges : Nat) (value : U64) (rate : BitVec 12) (t : State) : Prop where
  frame : ∃ handover seqs plus minus xs, t = { voteAll s with
    ports := { s.ports with gtcLock := s.ports.gtcLock || decide (4 ≤ s.time.goodEdges + edges) }
    recov := { (voteAll s).recov with handover := handover, seqs := seqs }
    fold := { s.fold with
      tokPlus := refill s.fold.tokPlus s.fold.share edges, tokMinus := refill s.fold.tokMinus s.fold.share edges
      rbTokPlus := plus, rbTokMinus := minus }
    time := t.time, out := { s.out with lkp := xs }, cnt := t.cnt, log := t.log } ∧
    (s.recov.handover = none → xs = s.out.lkp)
  gtc : t.time.gtc = value
  line : t.time.onDelayLine = false
  good : t.time.goodEdges = min 4 (s.time.goodEdges + edges)
  snap : t.time.snap = snapshot t
  fixes : t.cnt.get 22 = s.cnt.get 22 + BitVec.ofNat 32 ((copyFaults s).map Prod.snd).sum
  calm : (copyFaults s).all (fun f => f.2 = 0) = true → t.log = s.log
  vote : s.log.entries = [] → (∃ f ∈ copyFaults s, 0 < f.2) → ∃ e ∈ t.log.entries, e.cls = 14
  high : t.cnt.get 8 = s.cnt.get 8 + (if 3145728 ≤ fbBytes s.fold.buffer
    then BitVec.ofNat 32 (value.toNat / 1000 - s.time.gtc.toNat / 1000) else 0)
  queue : t.cnt.get 11 = s.cnt.get 11 + (if 256 ≤ s.cap.queue.length
    then BitVec.ofNat 32 (value.toNat / 1000 - s.time.gtc.toNat / 1000) else 0)
  measured : s.time.boundary = true → value.toNat / 1000 = s.time.gtc.toNat / 1000 + 1 →
    t.time.rate = rate ∧ t.time.belowSlow = decide (rate.toNat < 900) ∧
    t.time.rateMin = (if s.time.measured = true ∧ s.time.rateMin.toNat ≤ rate.toNat then s.time.rateMin else rate)
  quiet : value.toNat / 1000 = s.time.gtc.toNat / 1000 → t.time.rate = s.time.rate ∧ t.time.rateMin = s.time.rateMin

theorem next_referenceEdge_due {s : State} {edges : Nat} {value : U64} {rate : BitVec 12} (hon : s.power.on = true)
    (hd : s.time.onDelayLine = false) (hg : 1 ≤ s.time.goodEdges)
    (hv : value = s.time.gtc + BitVec.ofNat 64 (10 * edges)) : ∃ t, exec (.referenceEdge edges value rate) s = .next t ∧
      EdgeDue s edges value rate t := by
  obtain ⟨a, ha⟩ : ∃ a, a = advance s edges value := ⟨_, rfl⟩
  have aeq := ha.trans (advance_due hd hg hv)
  have afold : a.fold = s.fold := by rw [aeq]
  have acap : a.cap = s.cap := by rw [aeq]
  have acnt : a.cnt = s.cnt := by rw [aeq]
  obtain ⟨c, tm, passed, high, queue, fixed, gtc, line, good, quiet, measured⟩ := passMicros_fields a s.time.gtc rate
  have since : boundariesSince a s.time.gtc = value.toNat / 1000 - s.time.gtc.toNat / 1000 := by rw [aeq]; rfl
  rw [since, afold, acnt] at high
  rw [since, acap, acnt] at queue
  rw [acnt] at fixed
  rw [since] at quiet measured
  obtain ⟨u, hu⟩ : ∃ u : State, u = { a with cnt := c, time := tm } := ⟨_, rfl⟩
  obtain ⟨handover, seqs, plus, minus, xs, cnt, log, veq, fixes, others, -, vote, calm, unsent⟩ := repair_fields u edges
  have faults : copyFaults u = copyFaults s := by rw [hu, aeq]; rfl
  have ucnt : u.cnt = c := by rw [hu]
  have ulog : u.log = s.log := by rw [hu, aeq]
  rw [faults, ucnt, fixed] at fixes
  rw [ucnt] at others
  rw [ulog, faults] at vote calm
  obtain ⟨v, hvv⟩ : ∃ v, v = repairCopies (copyOn (refillAll u edges)) := ⟨_, rfl⟩
  obtain ⟨snap, hsnap⟩ : ∃ snap, snap = snapshot v := ⟨_, rfl⟩
  have run := next_referenceEdge (edges := edges) (value := value) (rate := rate) hon hg
  dsimp only at run
  rw [← ha, passed, ← hu, ← hvv, ← hsnap] at run
  have vfull := hvv.trans veq
  have vcnt : v.cnt = cnt := by rw [vfull]
  have vlog : v.log = log := by rw [vfull]
  have vtime : v.time = tm := by rw [vfull, hu]; rfl
  refine ⟨_, run, ⟨⟨handover, seqs, plus, minus, xs, ?_, fun hn => ?_⟩, ?_, ?_, ?_,
    hsnap.trans (snapshot_snap v snap).symm, vcnt ▸ fixes, vlog ▸ calm, fun h0 hf => ?_, ?_, ?_, fun hb hn => ?_, fun hn => ?_⟩⟩
  · conv_lhs => rw [vfull, hu, aeq]
    rw [vcnt, vlog, vtime]
    rfl
  · rw [unsent (by rw [hu, aeq]; exact hn), hu, aeq]
  · show v.time.gtc = _
    rw [vtime, gtc, aeq]
  · show v.time.onDelayLine = _
    rw [vtime, line, aeq]
    exact hd
  · show v.time.goodEdges = _
    rw [vtime, good, aeq]
    exact (Nat.min_def ..).symm
  · show ∃ e ∈ v.log.entries, e.cls = 14
    rw [vlog]
    exact List.mem_map.1 (vote h0 hf)
  · show v.cnt.get 8 = _
    rw [vcnt]
    exact (others 8 (by decide)).trans high
  · show v.cnt.get 11 = _
    rw [vcnt]
    exact (others 11 (by decide)).trans queue
  · have facts := measured (by rw [aeq]; exact hb) (by omega)
    rw [aeq, ← vtime] at facts
    exact facts
  · have same : tm = a.time := quiet (by omega)
    show v.time.rate = _ ∧ v.time.rateMin = _
    rw [vtime, same, aeq]
    exact ⟨rfl, rfl⟩

/-- An edge that carries the value that is due. -/
theorem referenceEdge_due {s : State} {edges : Nat} {value : U64} {rate : BitVec 12} (hon : s.power.on = true)
    (hd : s.time.onDelayLine = false) (hg : 1 ≤ s.time.goodEdges)
    (hv : value = s.time.gtc + BitVec.ofNat 64 (10 * edges)) : Ends (.referenceEdge edges value rate) s fun t =>
          t.time.gtc = value ∧ t.time.onDelayLine = false ∧ t.time.goodEdges = min 4 (s.time.goodEdges + edges) ∧
          t.ports = { s.ports with gtcLock := s.ports.gtcLock || decide (4 ≤ s.time.goodEdges + edges) } ∧
          t.time.snap = snapshot t ∧
          (∀ f ∈ copyFaults t, f.2 = 0) ∧
          t.cnt.get 22 = s.cnt.get 22 + BitVec.ofNat 32 ((copyFaults s).map Prod.snd).sum ∧
          ((copyFaults s).all (fun f => f.2 = 0) = true → t.log = s.log) ∧
          (s.log.entries = [] → (∃ f ∈ copyFaults s, 0 < f.2) → ∃ e ∈ t.log.entries, e.cls = 14) ∧
          t.ctrl.capEn.get = s.ctrl.capEn.get ∧ t.ctrl.foldEn.get = s.ctrl.foldEn.get ∧
          t.ctrl.applyEn.get = s.ctrl.applyEn.get ∧ t.ctrl.exchEn.get = s.ctrl.exchEn.get ∧
          t.ctrl.compatA.get = s.ctrl.compatA.get ∧ (∀ l : Fin 4, physOf t.ctrl l = physOf s.ctrl l) ∧
          t.stat.fwState.get = s.stat.fwState.get ∧ t.tide.slot.get = s.tide.slot.get ∧
          t.tide.phase.get = s.tide.phase.get ∧ sealedTide t = sealedTide s ∧ t.tide.n.get = s.tide.n.get ∧
          t.agree.live.get = s.agree.live.get ∧ t.agree.epoch.get = s.agree.epoch.get ∧
          t.recov.state.get = s.recov.state.get ∧ t.recov.lost.get = s.recov.lost.get ∧
          t.power.season.get = s.power.season.get ∧
          t.cnt.get 8 = s.cnt.get 8 + (if 3145728 ≤ fbBytes s.fold.buffer
            then BitVec.ofNat 32 (value.toNat / 1000 - s.time.gtc.toNat / 1000) else 0) ∧
          t.cnt.get 11 = s.cnt.get 11 + (if 256 ≤ s.cap.queue.length
            then BitVec.ofNat 32 (value.toNat / 1000 - s.time.gtc.toNat / 1000) else 0) ∧
          (s.time.boundary = true → value.toNat / 1000 = s.time.gtc.toNat / 1000 + 1 →
            t.time.rate = rate ∧ t.time.belowSlow = decide (rate.toNat < 900) ∧
            t.time.rateMin = (if s.time.measured = true ∧ s.time.rateMin.toNat ≤ rate.toNat then s.time.rateMin else rate)) ∧
          (value.toNat / 1000 = s.time.gtc.toNat / 1000 → t.time.rate = s.time.rate ∧ t.time.rateMin = s.time.rateMin) ∧
          t.fold.tokPlus = min 8192 (s.fold.tokPlus + s.fold.share * 480 * edges) ∧
          t.mem = s.mem ∧ t.cap = s.cap ∧ t.mb = s.mb ∧ t.job = s.job ∧ t.tier = s.tier ∧ t.digests = s.digests ∧
          t.apply = s.apply ∧ t.exch = s.exch ∧ t.beacon = s.beacon ∧ (s.recov.handover = none → t.out = s.out) := by
  obtain ⟨t, run, due⟩ := next_referenceEdge_due (rate := rate) hon hd hg hv
  obtain ⟨handover, seqs, plus, minus, xs, frame, unsent⟩ := due.frame
  have faults : copyFaults t = copyFaults (voteAll s) := by rw [frame]; rfl
  obtain ⟨v1, v2, v3, v4, v5, v6, v7, v8, v9, v10, v11, v12, v13, v14, v15, v16⟩ := voted_values (s := s) (t := t)
    (by rw [frame]) (by rw [frame]) (by rw [frame]) (by rw [frame]) (by rw [frame]) (by rw [frame]) (by rw [frame])
  refine ⟨t, run, due.gtc, due.line, due.good, by rw [frame], due.snap, faults ▸ copyFaults_voteAll s, due.fixes, due.calm,
    due.vote, v1, v2, v3, v4, v5, v6, v7, v8, v9, v10, v11, v12, v13, v14, v15, v16, due.high, due.queue, due.measured,
    due.quiet, ?_, by rw [frame]; rfl, by rw [frame]; rfl, by rw [frame]; rfl, by rw [frame]; rfl, by rw [frame]; rfl,
    by rw [frame]; rfl, by rw [frame]; rfl, by rw [frame]; rfl, by rw [frame]; rfl, fun hn => ?_⟩
  · rw [frame]
    exact refill_eq _ _ _
  · rw [frame, unsent hn]

/-- An edge that carries another value. -/
theorem referenceEdge_wrong {s : State} {edges : Nat} {value : U64} {rate : BitVec 12} (hon : s.power.on = true)
    (hd : s.time.onDelayLine = false) (hg : 1 ≤ s.time.goodEdges)
    (hv : value ≠ s.time.gtc + BitVec.ofNat 64 (10 * edges)) (hm : s.ports.mgp = true) (hl : s.log.entries = []) :
    Ends (.referenceEdge edges value rate) s fun t =>
          t.time.gtc = s.time.gtc + BitVec.ofNat 64 (10 * edges) ∧ t.time.onDelayLine = true ∧
          t.ports = { s.ports with gtcLock := false, gtcFault := true } ∧
          (∃ e ∈ t.log.entries, e.cls = 9) ∧ (∃ e ∈ t.events.delivered, e.code = 9 ∧ e.arg = 0) ∧
          t.mem = s.mem ∧ t.cap = s.cap ∧ t.mb = s.mb := by
  obtain ⟨a, ha⟩ : ∃ a, a = advance s edges value := ⟨_, rfl⟩
  obtain ⟨alog, e, fails, entries, cls, -⟩ := gtcFails_fields
    (s := { s with time.gtc := s.time.gtc + BitVec.ofNat 64 (10 * edges) }) hm hl
  have aeq := ha.trans ((advance_wrong hd hg hv).trans fails)
  obtain ⟨c, tm, passed, -, -, -, gtc, line, -, -, -⟩ := passMicros_fields a s.time.gtc rate
  obtain ⟨u, hu⟩ : ∃ u : State, u = { a with cnt := c, time := tm } := ⟨_, rfl⟩
  obtain ⟨handover, seqs, plus, minus, xs, cnt, log, veq, -, -, ⟨cs, classes⟩, -, -, -⟩ := repair_fields u edges
  obtain ⟨v, hvv⟩ : ∃ v, v = repairCopies (copyOn (refillAll u edges)) := ⟨_, rfl⟩
  have run := next_referenceEdge (edges := edges) (value := value) (rate := rate) hon hg
  dsimp only at run
  rw [← ha, passed, ← hu, ← hvv] at run
  have vfull := hvv.trans veq
  have kept : (9 : Byte) ∈ log.entries.map ErrEntry.cls := by
    rw [classes, logClasses, hu, aeq]
    show _ ∈ alog.entries.map ErrEntry.cls ++ cs
    rw [entries]
    exact List.mem_append_left _ (by simp [cls])
  have gtc' : tm.gtc = s.time.gtc + BitVec.ofNat 64 (10 * edges) := by rw [gtc, aeq]
  have line' : tm.onDelayLine = true := by rw [line, aeq]
  refine ⟨_, run, ?_⟩
  dsimp only
  rw [vfull, hu, aeq]
  exact ⟨gtc', line', rfl, List.mem_map.1 kept, ⟨_, List.mem_append_right _ List.mem_cons_self, rfl, rfl⟩, rfl, rfl, rfl⟩

/-- Settles O56: edges, GTC faults and relock. -/
theorem edgesKeepTimeAndVotedCopies : Obligations.EdgesKeepTimeAndVotedCopies := by
  unfold Obligations.EdgesKeepTimeAndVotedCopies
  intro s
  refine ⟨fun edges value rate => ⟨fun hoff => ⟨s, congrArg Host.Outcome.next (if_neg (by simp [hoff])), rfl⟩,
      fun hon hd hg hv => referenceEdge_due hon hd hg hv,
      fun hon hd hg hv hm hl => referenceEdge_wrong hon hd hg hv hm hl⟩,
    fun kind => ⟨fun hoff => ?_, fun hon hm hl => ?_⟩, fun value => ⟨fun h => ?_, fun hon hd => ?_⟩⟩
  · refine ⟨s, ?_, rfl⟩
    cases kind with
    | wrongValue => exact congrArg Host.Outcome.next (if_neg (by simp [hoff]))
    | missingEdges => exact congrArg Host.Outcome.next (if_neg (by simp [hoff]))
  · obtain ⟨log, e, fails, entries, cls, first⟩ := gtcFails_fields hm hl
    have go : exec (.gtcFault kind) s = .next (gtcFails s) := by
      cases kind with
      | wrongValue => exact congrArg Host.Outcome.next (if_pos hon)
      | missingEdges => exact congrArg Host.Outcome.next (if_pos hon)
    rw [fails] at go
    exact ⟨_, go, rfl, ⟨e, entries, cls, first⟩, ⟨⟨9, 0, 1, s.time.gtc⟩, List.mem_append_right _ List.mem_cons_self, rfl, rfl, rfl⟩⟩
  · refine ⟨s, congrArg Host.Outcome.next (if_neg ?_), rfl⟩
    rintro ⟨h1, h2⟩
    rcases h with h | h
    · simp [h] at h1
    · simp [h] at h2
  · have shifted : ∀ g : U64, value - (g + (value - s.time.gtc)) = s.time.gtc - g := fun g => by bv_omega
    have mapped : ∀ (v : Vector U64 8) (q : Fin 8), (v.map fun g => g + (value - s.time.gtc)).get q =
        v.get q + (value - s.time.gtc) := fun v q => by
      show (v.map _)[q.val] = v[q.val] + _
      exact Vector.getElem_map ..
    refine ⟨_, congrArg Host.Outcome.next (if_pos ⟨hon, hd⟩), rfl, rfl, fun q => ?_, fun q => ?_, shifted _, rfl, rfl, rfl, rfl, rfl,
      rfl, rfl⟩
    · exact (congrArg (value - ·) (mapped s.agree.lastBeat q)).trans (shifted _)
    · exact (congrArg (value - ·) (mapped s.agree.missMark q)).trans (shifted _)

end Sys2Proof.Machine

/-! PROOFS. Scrubs, remaps and recomputed digests (R359 to R371). -/

namespace Sys2Proof.Machine

/-! ### Reports while MGP is present -/

/-- A report that starts the log, and its event (R292, R348). -/
theorem logReport_first {s : State} (hm : s.ports.mgp = true) (hl : s.log.entries = []) {cls : Nat}
    (loud : classUncorr cls = true) (src : U16) (detail : Nat) :
    logReport s cls src detail = { s with
      log := { s.log with entries := [⟨BitVec.ofNat 8 cls, true, src, 1, s.time.gtc, s.time.gtc, BitVec.ofNat 64 detail⟩] }
      events := { s.events with
        delivered := s.events.delivered ++ [⟨evErrUncorr, BitVec.ofNat 8 cls, 1, s.time.gtc⟩] } } := by
  have none : newestEntry (BitVec.ofNat 8 cls) src 0 s.log.entries = none := newestEntry_none _ src 0 _ (by simp [hl])
  simp only [logReport, none, loud, if_true]
  rw [if_pos (by simp [hl]), raiseEvent_present _ _ _ (by exact hm), hl]
  rfl

theorem reportEvent_present {s : State} (hm : s.ports.mgp = true) (log : LogS) (cls : Nat) :
    ∃ log' events, reportEvent { s with log := log } cls = { s with log := log', events := events } := by
  unfold reportEvent
  split
  · exact ⟨log, _, raiseEvent_present _ _ _ hm⟩
  · exact ⟨log, _, rfl⟩

/-- While MGP is present a report changes the log and what has been delivered. -/
theorem logReport_present {s : State} (hm : s.ports.mgp = true) (cls : Nat) (src : U16) (detail : Nat) :
    ∃ log events, logReport s cls src detail = { s with log := log, events := events } := by
  rcases logReport_cases s cls src detail with h | ⟨i, e, -, h⟩
  · rw [h, startEntry]
    split
    · exact reportEvent_present hm _ cls
    · exact reportEvent_present hm _ cls
  · exact ⟨_, _, h⟩

/-! ### Scrubs (R359 to R364) -/

/-- The errors of the other tiles. -/
abbrev otherErrors (s : State) (m tile : Nat) : List TileErr := s.lat.errors.filter fun e => !decide (e.mac = m ∧ e.tile = tile)

theorem next_patrolScrub {s : State} {m tile : Nat} (hon : s.power.on = true) (hse : s.power.season.get ≠ 2)
    (hr : s.rst.phase = .running) (ht : tile < macroTiles m) (upset : List (Nat × Byte)) (live : Bool) :
    exec (.patrolScrub m tile upset live) s = .next (scrub s m tile upset live) := by
  have up : sramUp s = true := by
    rw [sramUp, hon, hr]
    simpa using hse
  exact congrArg Host.Outcome.next (if_pos ⟨up, ht⟩)

theorem scrub_clean {s : State} {m tile : Nat} {upset : List (Nat × Byte)} (live : Bool)
    (h : judgeTile (tilePattern s m tile upset) = .clean) :
    scrub s m tile upset live = { s with lat.errors := otherErrors s m tile } := by
  simp only [scrub, h]

/-- A bad symbol is mended and reported, before its word is looked at. -/
theorem scrub_data {s : State} {m tile sym : Nat} {upset : List (Nat × Byte)} (live : Bool) (hl : s.log.entries = [])
    (h : judgeTile (tilePattern s m tile upset) = .data sym) :
    scrub s m tile upset live = noteMend { s with
      lat := { s.lat with
        corr := true, lastMacro := BitVec.ofNat 10 m, lastTile := BitVec.ofNat 20 tile, lastSymbol := BitVec.ofNat 5 sym
        errors := otherErrors s m tile }
      beacon := { s.beacon with mends := s.beacon.mends + 1 }
      cnt := s.cnt.set 21 (s.cnt.get 21 + 1)
      log := { s.log with entries :=
        [⟨0, false, srcOf (macroUnit m) m, 1, s.time.gtc, s.time.gtc, BitVec.ofNat 64 (latDetail m tile sym 0)⟩] } }
      m (tile * 32 + sym) := by
  simp only [scrub, h, mend, if_true]
  rw [logReport_quiet_fresh (by decide) (by show s.log.entries.length < 256; simp [hl])
    (by show ∀ e ∈ s.log.entries, _; simp [hl])]
  show noteMend { s with
      lat := _, beacon := _, cnt := _, log := { s.log with entries := s.log.entries ++ _ } } _ _ = _
  rw [hl]
  rfl

theorem scrub_uncorrectable {s : State} {m tile : Nat} {upset : List (Nat × Byte)} (live : Bool)
    (h : judgeTile (tilePattern s m tile upset) = .uncorrectable) :
    scrub s m tile upset live = tileLost { s with
      lat.errors := otherErrors s m tile ++ [⟨m, tile, tilePattern s m tile upset, true⟩] } m tile live := by
  simp only [scrub, h]

theorem noteMend_first {s : State} (h : s.lat.mended = []) (m word : Nat) :
    noteMend s m word = { s with lat.mended := [(m, word, 1, s.time.gtc)] } := by
  simp only [noteMend, h, List.find?_nil, List.nil_append]

theorem isRemapped_noRemap {s : State} {m : Nat} (hr : s.lat.remaps = []) (hm : 40 ≤ m) (word : Nat) :
    isRemapped s m word = false := by
  have fb : isFb m = false := decide_eq_false (by omega)
  have ps : isPs m = false := decide_eq_false (by omega)
  simp only [isRemapped, fb, ps, Bool.false_eq_true, if_false, hr, List.any_nil]

/-- Beyond the fold buffer and the parity merge store, a remap takes the first free entry (R363). -/
theorem installRemap_table {s : State} {m : Nat} (hm : 40 ≤ m) {word : Nat} (hr : isRemapped s m word = false) :
    installRemap s m word =
      (freeEntry s m).map fun j => { s with lat.remaps := s.lat.remaps ++ [{ mac := m, entry := j, word := word }] } := by
  have fb : isFb m = false := decide_eq_false (by omega)
  have ps : isPs m = false := decide_eq_false (by omega)
  simp only [installRemap, hr, fb, ps, Bool.false_eq_true, if_false]

theorem freeEntry_first {s : State} {m : Nat} (h : ∀ r ∈ s.lat.remaps, r.mac ≠ m) : freeEntry s m = some 0 := by
  have free : (s.lat.remaps.any fun r => decide (r.mac = m ∧ r.entry = 0)) = false :=
    List.any_eq_false.2 fun r hr => by simp [h r hr]
  rw [freeEntry, List.range_succ_eq_map, List.find?_cons, free]
  rfl

/-- The second mend of a word within a second remaps it (R364). -/
theorem noteMend_second {s : State} {m word : Nat} {g : U64} (h : s.lat.mended = [(m, word, 1, g)])
    (hg : s.time.gtc.toNat < g.toNat + 1000000000) (hf : s.stat.fwState.get = 2) (hr : s.lat.remaps = []) (hm : 40 ≤ m) :
    noteMend s m word = { s with lat.remaps := [⟨m, 0, word⟩], lat.mended := [] } := by
  have running : fwRunning s = true := decide_eq_true hf
  have free : isRemapped s m word = false := isRemapped_noRemap hr hm word
  have entry : freeEntry { s with lat.mended := [(m, word, 2, g)] } m = some 0 := freeEntry_first (by simp [hr])
  have install : installRemap { s with lat.mended := [(m, word, 2, g)] } m word =
      some { s with lat.remaps := [⟨m, 0, word⟩], lat.mended := [(m, word, 2, g)] } := by
    rw [installRemap_table hm (show isRemapped { s with lat.mended := [(m, word, 2, g)] } m word = false from free), entry]
    show some { s with lat := { s.lat with mended := _, remaps := s.lat.remaps ++ _ } } = _
    rw [hr]
    rfl
  have remap : firmwareRemap { s with lat.mended := [(m, word, 2, g)] } m word =
      { s with lat.remaps := [⟨m, 0, word⟩], lat.mended := [] } := by
    simp only [firmwareRemap, install]
    simp
  simp only [noteMend, h, List.find?_cons, and_self, decide_true, List.filter_cons, Bool.not_true, Bool.false_eq_true,
    if_false, List.filter_nil, List.nil_append]
  rw [if_pos hg, if_pos (by simp [running, free])]
  exact remap

/-- An uncorrectable tile is kept, noted and reported with its event, and then has its consequence (R362, R367). -/
theorem tileLost_reported {s : State} (hm : s.ports.mgp = true) (hl : s.log.entries = []) (m tile : Nat) (live : Bool) :
    tileLost s m tile live = (if live then fun t => consequence t m tile (latDetail m tile 0 0) else id) { s with
      lat := { s.lat with uncorr := true, lastMacro := BitVec.ofNat 10 m, lastTile := BitVec.ofNat 20 tile }
      log := { s.log with entries :=
        [⟨1, true, srcOf (macroUnit m) m, 1, s.time.gtc, s.time.gtc, BitVec.ofNat 64 (latDetail m tile 0 0)⟩] }
      events := { s.events with delivered := s.events.delivered ++ [⟨0x0A, 1, 1, s.time.gtc⟩] } } := by
  have first := logReport_first (s := { s with
    lat := { s.lat with uncorr := true, lastMacro := BitVec.ofNat 10 m, lastTile := BitVec.ofNat 20 tile } }) hm hl
    (cls := clLatUncorr) (by decide) (srcOf (macroUnit m) m) (latDetail m tile 0 0)
  cases live with
  | true => exact congrArg (consequence · m tile (latDetail m tile 0 0)) first
  | false => exact first

/-! ### What the owners do (R368 to R370) -/

theorem trap_running {s : State} (hf : s.stat.fwState.get = 2) (hm : s.ports.mgp = true) (detail : Nat) :
    ∃ log events, trap s detail = { s with stat.fwState := V3.all fwTrapped, log := log, events := events } := by
  obtain ⟨log, events, h⟩ := logReport_present (s := { s with stat.fwState := V3.all fwTrapped }) hm clFetchTrap (srcOf 9 0) detail
  exact ⟨log, events, (if_pos (decide_eq_true hf)).trans h⟩

theorem withdraw_coding {s : State} (h : codingActive s = true) : ∃ line : StatusLine, line.jobTag = 0 ∧
    withdraw s = { s with
      cap := { s.cap with barred := true }, agree := { s.agree with withdrawn := true, statusLine := line } } :=
  ⟨_, rfl, if_pos h⟩

theorem haltTier_noProgress {s : State} (hm : s.ports.mgp = true) (hp : s.tier.progressLine = none) (c : Nat) :
    ∃ log events, haltTier s c = { s with
      tier := { s.tier with halted := setBit s.tier.halted c true, haltFlag := true }, log := log, events := events } := by
  obtain ⟨log, events, h⟩ := logReport_present hm clChannelHalt (srcOf 8 c) c
  refine ⟨log, events, ?_⟩
  rw [haltTier, h]
  simp only [writeProgress, hp]

theorem consequence_fetch (s : State) {m : Nat} (h : m = 90 ∨ m = 91 ∨ m < 4) (tile detail : Nat) :
    consequence s m tile detail = trap s detail := if_pos (by omega)

theorem consequence_fold (s : State) {m : Nat} (h4 : 4 ≤ m) (h40 : m < 40) (tile detail : Nat) :
    consequence s m tile detail = withdraw s := (if_neg (by omega)).trans (if_pos h40)

theorem consequence_tier (s : State) {c : Nat} (hc : c < 4) (tile detail : Nat) :
    consequence s (73 + c) tile detail = haltTier s c := by
  unfold consequence
  rw [if_neg (by omega), if_neg (by omega), if_neg (by omega), if_neg (by omega), if_neg (by omega), if_neg (by omega),
    if_neg (by omega), if_pos (by omega), Nat.add_sub_cancel_left]

/-- A scrub that finds an uncorrectable tile. -/
theorem scrub_lost {s : State} {m tile : Nat} {upset : List (Nat × Byte)} (live : Bool) (hl : s.log.entries = [])
    (hm : s.ports.mgp = true) (h : judgeTile (tilePattern s m tile upset) = .uncorrectable) :
    scrub s m tile upset live = (if live then fun t => consequence t m tile (latDetail m tile 0 0) else id) { s with
      lat := { s.lat with
        uncorr := true, lastMacro := BitVec.ofNat 10 m, lastTile := BitVec.ofNat 20 tile
        errors := otherErrors s m tile ++ [⟨m, tile, tilePattern s m tile upset, true⟩] }
      log := { s.log with entries :=
        [⟨1, true, srcOf (macroUnit m) m, 1, s.time.gtc, s.time.gtc, BitVec.ofNat 64 (latDetail m tile 0 0)⟩] }
      events := { s.events with delivered := s.events.delivered ++ [⟨0x0A, 1, 1, s.time.gtc⟩] } } :=
  (scrub_uncorrectable live h).trans (tileLost_reported (s := { s with
    lat.errors := otherErrors s m tile ++ [⟨m, tile, tilePattern s m tile upset, true⟩] }) hm hl m tile live)

/-! ### LATTICE_REMAP (R366) -/

theorem next_latticeRemap {s : State} {mb : Fin 8} {priv : Bool} {cmd : Line} (h : Handled s mb priv 0x19 cmd) :
    exec (.latticeRemap (.issue mb (portOf mb) priv cmd)) s = .next (
      if 96 ≤ fld cmd 8 2 then badArg (took s mb priv cmd) mb 8
      else if 1 < fld cmd 10 1 then badArg (took s mb priv cmd) mb 10
      else if macroWords (fld cmd 8 2) ≤ fld cmd 12 4 then badArg (took s mb priv cmd) mb 12
      else if fld cmd 10 1 = 0 then
        match installRemap (took s mb priv cmd) (fld cmd 8 2) (fld cmd 12 4) with
        | some u => respondOk u mb
        | none => resource { took s mb priv cmd with lat.remapFull := true } mb 0xFFFF
      else if isRemapped (took s mb priv cmd) (fld cmd 8 2) (fld cmd 12 4) then
        respondOk (releaseRemap (took s mb priv cmd) (fld cmd 8 2) (fld cmd 12 4)) mb
      else wrongState (took s mb priv cmd) mb) :=
  exec_handled remapWork h (by rfl)

/-- A remap word is in the table exactly where an entry names it. -/
theorem isRemapped_table {s : State} {m : Nat} (hm : 40 ≤ m) (word : Nat) :
    isRemapped s m word = true ↔ ∃ r ∈ s.lat.remaps, r.mac = m ∧ r.word = word := by
  have fb : isFb m = false := decide_eq_false (by omega)
  have ps : isPs m = false := decide_eq_false (by omega)
  simp only [isRemapped, fb, ps, Bool.false_eq_true, if_false, List.any_eq_true, decide_eq_true_eq]

theorem isRemapped_not {s : State} {m : Nat} (hm : 40 ≤ m) {word : Nat} (h : ∀ r ∈ s.lat.remaps, r.mac = m → r.word ≠ word) :
    isRemapped s m word = false :=
  Bool.eq_false_iff.2 fun hr => by
    obtain ⟨r, hin, hmac, hword⟩ := (isRemapped_table hm word).1 hr
    exact h r hin hmac hword

theorem releaseRemap_table {s : State} {m : Nat} (hm : 40 ≤ m) (word : Nat) : releaseRemap s m word =
    { s with lat.remaps := s.lat.remaps.filter fun r => !decide (r.mac = m ∧ r.word = word) } := by
  have fb : isFb m = false := decide_eq_false (by omega)
  have ps : isPs m = false := decide_eq_false (by omega)
  simp only [releaseRemap, fb, ps, Bool.false_eq_true, if_false]

/-- A command that changed the lattice and was then answered. -/
theorem lattice_answered {s : State} {mb : Fin 8} {priv : Bool} {cmd : Line} (hf : fwRunning s = true) (lat : LatS)
    {status detail : Nat} (hs : status < 256) (hd : detail < 2 ^ 32) {t : State}
    (ht : t = respond { took s mb priv cmd with lat := lat } mb status detail []) :
    Answered s t mb cmd status detail ∧ BoxFrame s t mb ∧
      t = { s with
        mb := t.mb, events := t.events, stat := { s.stat with evtOvf := t.stat.evtOvf }
        lat := lat } := by
  obtain ⟨u, hu⟩ : ∃ u, u = took s mb priv cmd := ⟨_, rfl⟩
  have only : OnlyBox s u mb := hu ▸ onlyBox_took s mb priv cmd
  obtain ⟨v, hv⟩ : ∃ v : State, v = { u with lat := lat } := ⟨_, rfl⟩
  rw [← hu, ← hv] at ht
  have running : fwRunning v = true := by rw [hv, only.frame]; exact hf
  have answers : OnlyBox v t mb := ht ▸ onlyBox_respond running mb status detail []
  have kept : OnlyBox { s with lat := lat } v mb := by
    refine ⟨?_, fun m hm => ?_, fun hm => ?_⟩
    · conv_lhs => rw [hv, only.frame]
      rw [hv]
    · rw [hv]
      exact only.others m hm
    · rw [hv]
      exact only.quiet hm
  have whole := kept.trans answers
  refine ⟨?_, ⟨whole.others, ?_, whole.quiet⟩, ?_⟩
  · rw [ht]
    exact answered_respond running (by rw [hv, hu]; exact box_took s mb priv cmd) hs hd (by simp)
  · rw [whole.frame]
  · have hmb : t.mb = { s.mb with boxes := t.mb.boxes } := congrArg State.mb whole.frame
    conv_lhs => rw [whole.frame]
    rw [hmb]

theorem freeEntry_none {s : State} {m : Nat} (h : ∀ j, j < 8 → ∃ r ∈ s.lat.remaps, r.mac = m ∧ r.entry = j) :
    freeEntry s m = none :=
  List.find?_eq_none.2 fun j hj => by
    obtain ⟨r, hin, hmac, hentry⟩ := h j (List.mem_range.1 hj)
    simpa using ⟨r, hin, hmac, hentry⟩

/-- A remap of a word of a macro with a table (R366). -/
theorem latticeRemap_table {s : State} {mb : Fin 8} {priv : Bool} {cmd : Line} (h : Handled s mb priv 0x19 cmd)
    (h40 : 40 ≤ fld cmd 8 2) (h96 : fld cmd 8 2 < 96) (hw : fld cmd 12 4 < macroWords (fld cmd 8 2)) :
    (fld cmd 10 1 = 0 → (∀ r ∈ s.lat.remaps, r.mac ≠ fld cmd 8 2) →
      Ends (.latticeRemap (.issue mb (portOf mb) priv cmd)) s fun t =>
        Answered s t mb cmd 0 0 ∧ BoxFrame s t mb ∧
        t = { s with
          mb := t.mb, events := t.events, stat := { s.stat with evtOvf := t.stat.evtOvf }
          lat := { s.lat with remaps := s.lat.remaps ++ [⟨fld cmd 8 2, 0, fld cmd 12 4⟩] } }) ∧
    (fld cmd 10 1 = 0 → (∀ j, j < 8 → ∃ r ∈ s.lat.remaps, r.mac = fld cmd 8 2 ∧ r.entry = j) →
      (∀ r ∈ s.lat.remaps, r.mac = fld cmd 8 2 → r.word ≠ fld cmd 12 4) →
      Ends (.latticeRemap (.issue mb (portOf mb) priv cmd)) s fun t =>
        Answered s t mb cmd 0x30 0xFFFF ∧ BoxFrame s t mb ∧
        t = { s with
          mb := t.mb, events := t.events, stat := { s.stat with evtOvf := t.stat.evtOvf }
          lat := { s.lat with remapFull := true } }) ∧
    (fld cmd 10 1 = 1 → (∀ r ∈ s.lat.remaps, r.mac = fld cmd 8 2 → r.word ≠ fld cmd 12 4) →
      Ends (.latticeRemap (.issue mb (portOf mb) priv cmd)) s fun t =>
        Answered s t mb cmd 0x12 (s.job.state.toNat + 256 * s.tide.phase.get.toNat) ∧ OnlyAnswer s t mb) ∧
    (fld cmd 10 1 = 1 → (∃ r ∈ s.lat.remaps, r.mac = fld cmd 8 2 ∧ r.word = fld cmd 12 4) →
      Ends (.latticeRemap (.issue mb (portOf mb) priv cmd)) s fun t =>
        Answered s t mb cmd 0 0 ∧ BoxFrame s t mb ∧
        (∀ r, r ∈ t.lat.remaps ↔ r ∈ s.lat.remaps ∧ ¬ (r.mac = fld cmd 8 2 ∧ r.word = fld cmd 12 4)) ∧
        t = { s with
          mb := t.mb, events := t.events, stat := { s.stat with evtOvf := t.stat.evtOvf }
          lat := { s.lat with remaps := t.lat.remaps } }) := by
  have running := fwRunning_of_handled h
  have run := next_latticeRemap h
  rw [if_neg (by omega)] at run
  obtain ⟨u, hu⟩ : ∃ u, u = took s mb priv cmd := ⟨_, rfl⟩
  have lat : u.lat = s.lat := by rw [hu]; rfl
  rw [← hu] at run
  refine ⟨fun h10 hfree => ?_, fun h10 hfull hnew => ?_, fun h10 hnew => ?_, fun h10 hold => ?_⟩
  · have install := installRemap_table h40 (s := u) (word := fld cmd 12 4)
      (isRemapped_not h40 fun r hr hm => absurd hm (hfree r (lat ▸ hr)))
    rw [freeEntry_first (by rw [lat]; exact hfree)] at install
    rw [if_neg (by omega), if_neg (by omega), if_pos h10, install] at run
    refine ⟨_, run, ?_⟩
    rw [hu]
    exact lattice_answered running _ (by decide) (by decide) rfl
  · have install := installRemap_table h40 (s := u) (word := fld cmd 12 4) (isRemapped_not h40 (by rw [lat]; exact hnew))
    rw [freeEntry_none (by rw [lat]; exact hfull)] at install
    rw [if_neg (by omega), if_neg (by omega), if_pos h10, install] at run
    refine ⟨_, run, ?_⟩
    rw [hu]
    exact lattice_answered running _ (by decide) (by decide) rfl
  · rw [if_neg (by omega), if_neg (by omega), if_neg (by omega),
      if_neg (by rw [isRemapped_not h40 (s := u) (by rw [lat]; exact hnew)]; decide), hu] at run
    exact ⟨_, run, refusedOnly h (status := stWrongState) (by decide) (wrongState_detail_lt s)⟩
  · rw [if_neg (by omega), if_neg (by omega), if_neg (by omega),
      if_pos ((isRemapped_table h40 (s := u) _).2 (by rw [lat]; exact hold)), releaseRemap_table h40, hu] at run
    obtain ⟨a, b, c⟩ := lattice_answered (mb := mb) (priv := priv) (cmd := cmd) running
      { s.lat with remaps := s.lat.remaps.filter fun r => !decide (r.mac = fld cmd 8 2 ∧ r.word = fld cmd 12 4) }
      (status := stOk) (detail := 0) (by decide) (by decide) rfl
    refine ⟨_, run, a, b, fun r => ?_, ?_⟩
    · rw [respondOk, respond_lat]
      show r ∈ List.filter _ s.lat.remaps ↔ _
      simp [List.mem_filter, imp_iff_not_or]
    · rw [respondOk, respond_lat]
      exact c

/-! ### The digests that wait (R371) -/

theorem digests_refilled (home : Nat → U64) : ∀ (rows : List Nat) (ds : List (Nat × U64)) (b : Nat),
    look 0 b (rows.foldl (fun l r => putDigest l r (home r)) ds) = if b ∈ rows then home b else look 0 b ds
  | [], ds, b => by simp
  | r :: rows, ds, b => by
    rw [List.foldl_cons, digests_refilled home rows]
    by_cases hb : b ∈ rows
    · rw [if_pos hb, if_pos (List.mem_cons_of_mem _ hb)]
    · rw [if_neg hb]
      by_cases hr : b = r
      · rw [hr, look_putDigest_same, if_pos List.mem_cons_self]
      · rw [look_putDigest_other _ _ hr, if_neg (by simp [hr, hb])]

/-- A bay's digest at home does not read the digests. -/
theorem homeDigest_setDigests (s : State) (ds : List (Nat × U64)) (b : Nat) :
    homeDigest { s with digests := ds } b = homeDigest s b := rfl

theorem forEach_homeDigests (s : State) : ∀ (rows : List Nat) (ds : List (Nat × U64)),
    forEach rows (fun u b => { u with digests := putDigest u.digests b (homeDigest u b) }) { s with digests := ds } =
      { s with digests := rows.foldl (fun l r => putDigest l r (homeDigest s r)) ds }
  | [], _ => rfl
  | r :: rows, ds => forEach_homeDigests s rows (putDigest ds r (homeDigest s r))

theorem next_digestRecomputeDone {s : State} (h : s.cap.recompute ≠ []) (hq : s.cap.queue = []) (ho : s.cap.oldReads = [])
    (hh : s.cap.held = []) : exec .digestRecomputeDone s = .next { s with
      digests := s.cap.recompute.foldl (fun l r => putDigest l r (homeDigest s r)) s.digests
      cap := { s.cap with recompute := [] }
      lat := { s.lat with errors := s.lat.errors.filter fun e => !decide (40 ≤ e.mac ∧ e.mac ≤ 43) } } := by
  refine congrArg Host.Outcome.next ((if_neg (by simp [h, hq, ho])).trans ?_)
  have refilled := forEach_homeDigests s s.cap.recompute s.digests
  dsimp only
  rw [show s = { s with digests := s.digests } from rfl, refilled, retryHeld_of_noneHeld (by exact hh)]

/-! ### The scrubs' clauses -/

theorem patrolScrub_uncorrectable {s : State} {m tile : Nat} {upset : List (Nat × Byte)} (live : Bool)
    (hon : s.power.on = true) (hse : s.power.season.get ≠ 2) (hr : s.rst.phase = .running) (ht : tile < macroTiles m)
    (hl : s.log.entries = []) (hj : judgeTile (tilePattern s m tile upset) = .uncorrectable) (hm : s.ports.mgp = true) :
    (live = false → Ends (.patrolScrub m tile upset live) s fun t =>
      t = { s with
        lat := { s.lat with
          uncorr := true, lastMacro := BitVec.ofNat 10 m, lastTile := BitVec.ofNat 20 tile
          errors := (s.lat.errors.filter fun e => !decide (e.mac = m ∧ e.tile = tile)) ++
            [⟨m, tile, tilePattern s m tile upset, true⟩] }
        log := t.log
        events := { s.events with delivered := s.events.delivered ++ [⟨0x0A, 1, 1, s.time.gtc⟩] } } ∧
      ∃ e : ErrEntry, t.log.entries = [e] ∧ e.cls = 1 ∧ e.uncorr = true ∧ e.first = s.time.gtc ∧
        e.detail = BitVec.ofNat 64 (tile + m * 2 ^ 32)) ∧
    (live = true →
      (m = 90 ∨ m = 91 ∨ m < 4 → s.stat.fwState.get = 2 → Ends (.patrolScrub m tile upset live) s fun t =>
        t.stat.fwState.get = 4 ∧ t.mem = s.mem ∧ t.cap = s.cap ∧ t.fold = s.fold ∧ t.tide = s.tide ∧
        t.agree = s.agree) ∧
      (4 ≤ m → m < 40 → codingActive s = true → Ends (.patrolScrub m tile upset live) s fun t =>
        t.cap = { s.cap with barred := true } ∧ t.agree.withdrawn = true ∧ t.agree.statusLine.jobTag = 0 ∧
        t.stat.fwState = s.stat.fwState ∧ t.mem = s.mem ∧ t.tide = s.tide) ∧
      (∀ c, c < 4 → m = 73 + c → s.tier.progressLine = none → Ends (.patrolScrub m tile upset live) s fun t =>
        t.tier = { s.tier with halted := s.tier.halted ||| BitVec.ofNat 4 (2 ^ c), haltFlag := true } ∧
        t.stat.fwState = s.stat.fwState ∧ t.mem = s.mem ∧ t.cap = s.cap)) := by
  have run := next_patrolScrub hon hse hr ht upset live
  rw [scrub_lost live hl hm hj] at run
  refine ⟨fun hlive => ?_, fun hlive => ⟨fun hmac hf => ?_, fun h4 h40 hc => ?_, fun c hc hmac hp => ?_⟩⟩
  · rw [hlive] at run ⊢
    refine ⟨_, run, rfl, _, rfl, rfl, rfl, rfl, ?_⟩
    simp [latDetail]
  all_goals
    obtain ⟨u, hu⟩ : ∃ u : State, u = { s with
      lat := { s.lat with
        uncorr := true, lastMacro := BitVec.ofNat 10 m, lastTile := BitVec.ofNat 20 tile
        errors := otherErrors s m tile ++ [⟨m, tile, tilePattern s m tile upset, true⟩] }
      log := { s.log with entries :=
        [⟨1, true, srcOf (macroUnit m) m, 1, s.time.gtc, s.time.gtc, BitVec.ofNat 64 (latDetail m tile 0 0)⟩] }
      events := { s.events with delivered := s.events.delivered ++ [⟨0x0A, 1, 1, s.time.gtc⟩] } } := ⟨_, rfl⟩
    rw [← hu, if_pos hlive] at run
  · obtain ⟨log, events, traps⟩ := trap_running (s := u) (by rw [hu]; exact hf) (by rw [hu]; exact hm) (latDetail m tile 0 0)
    rw [consequence_fetch u hmac, traps, hu] at run
    exact ⟨_, run, V3.get_all _, rfl, rfl, rfl, rfl, rfl⟩
  · obtain ⟨line, tag, withdraws⟩ := withdraw_coding (s := u) (by rw [hu]; exact hc)
    rw [consequence_fold u h4 h40, withdraws, hu] at run
    exact ⟨_, run, rfl, rfl, tag, rfl, rfl, rfl⟩
  · obtain ⟨log, events, halts⟩ := haltTier_noProgress (s := u) (by rw [hu]; exact hm) (by rw [hu]; exact hp) c
    subst hmac
    rw [consequence_tier u hc, halts, hu] at run
    exact ⟨_, run, rfl, rfl, rfl, rfl⟩

/-- Settles O54: each scrub by its verdict, each remap by its macro's table. -/
theorem latticeScrubsAndRemaps : Obligations.LatticeScrubsAndRemaps := by
  unfold Obligations.LatticeScrubsAndRemaps
  intro s
  refine ⟨fun m tile upset live => ⟨fun h => ⟨s, congrArg Host.Outcome.next (if_neg ?_), rfl⟩,
      fun hon hse hr ht hl => ⟨fun hj => ?_, fun sym hj => ⟨fun hn => ?_, fun g hn hg hf hrm h40 => ?_⟩,
        fun hj hm => patrolScrub_uncorrectable live hon hse hr ht hl hj hm⟩⟩,
    fun mb priv cmd h => ⟨fun h96 => ?_, fun h96 h10 => ?_, fun h96 h10 hw => ?_, fun h40 h96 hw =>
      latticeRemap_table h h40 h96 hw⟩,
    fun w h => ⟨s, congrArg Host.Outcome.next (if_pos (by simpa using h)), rfl⟩,
    fun hon hlcs => ⟨fun m entry word valid h40 hw => ?_, ⟨_, congrArg Host.Outcome.next (if_neg (by simpa [hon] using hlcs)), rfl⟩⟩,
    fun h => ⟨s, congrArg Host.Outcome.next (if_pos (.inl h)), rfl⟩, fun h hq ho hh => ?_⟩
  · rintro ⟨up, ht⟩
    simp only [sramUp, Bool.and_eq_true, decide_eq_true_eq, ne_eq] at up
    obtain ⟨⟨hon, hse⟩, -⟩ := up
    rcases h with h | h | h
    · rw [hon] at h; cases h
    · exact hse h
    · omega
  · exact ⟨_, next_patrolScrub hon hse hr ht upset live, scrub_clean live hj⟩
  · have run := next_patrolScrub hon hse hr ht upset live
    rw [scrub_data live hl hj, noteMend_first (by exact hn)] at run
    refine ⟨_, run, rfl, _, rfl, rfl, rfl, rfl, ?_⟩
    simp [latDetail]
  · have run := next_patrolScrub hon hse hr ht upset live
    rw [scrub_data live hl hj, noteMend_second (by exact hn) (by exact hg) (by exact hf) (by exact hrm) h40] at run
    exact ⟨_, run, rfl, rfl, rfl, rfl, rfl⟩
  · exact ⟨_, (next_latticeRemap h).trans (congrArg Host.Outcome.next (if_pos h96)),
      refusedOnly h (status := stBadArg) (detail := 8) (by decide) (by decide)⟩
  · exact ⟨_, (next_latticeRemap h).trans (congrArg Host.Outcome.next ((if_neg (by omega)).trans (if_pos h10))),
      refusedOnly h (status := stBadArg) (detail := 10) (by decide) (by decide)⟩
  · exact ⟨_, (next_latticeRemap h).trans (congrArg Host.Outcome.next ((if_neg (by omega)).trans
      ((if_neg (by omega)).trans (if_pos hw)))), refusedOnly h (status := stBadArg) (detail := 12) (by decide) (by decide)⟩
  · have fb : isFb m = false := decide_eq_false (by omega)
    have ps : isPs m = false := decide_eq_false (by omega)
    refine ⟨_, congrArg Host.Outcome.next ((if_neg (by simpa [hon] using hlcs)).trans (if_neg (by simp [fb, ps, hw]))), rfl,
      fun r => ?_⟩
    cases valid with
    | false => simp [List.mem_filter, imp_iff_not_or]
    | true => simp [List.mem_filter, imp_iff_not_or]
  · refine ⟨_, next_digestRecomputeDone h hq ho hh, rfl, rfl, fun b hb => ?_, fun b hb => ?_, fun e he => ?_⟩
    · exact (digests_refilled (homeDigest s) _ _ b).trans (if_pos hb)
    · exact (digests_refilled (homeDigest s) _ _ b).trans (if_neg hb)
    · simpa [List.mem_filter, imp_iff_not_or] using he

end Sys2Proof.Machine

/-! PROOFS. Rollback restores the before-image (R246, R248, R249). -/

namespace Sys2Proof.Machine

/-! ### What a recovery keeps of memory (R32, R249) -/

theorem Mem.byte_defined {m : Mem} {a : Nat} (h : ¬ covered m.undef a) : m.byte a = look 0 a m.cells := by
  have none : m.undefAt a = none := Option.isNone_iff_eq_none.1 (by
    simpa [Mem.inUndef] using (Mem.inUndef_false_iff m a).2 h)
  simp only [Mem.byte, none]

/-- A byte that is written, and outside what is forgotten, stays. -/
theorem Mem.byte_forget {m : Mem} {rs : List (Nat × Nat)} {a : Nat} (hd : ¬ covered m.undef a)
    (h : ∀ r ∈ rs, a < r.1 ∨ r.2 ≤ a) : (m.forget rs).byte a = m.byte a := by
  have defined : ¬ covered (m.forget rs).undef a := by
    intro hc
    rcases (covered_append _ _ _).1 hc with hc | ⟨r, hr, hin⟩
    · exact hd (covered_cutAll _ _ _ hc)
    · obtain ⟨q, hq, rfl⟩ := List.mem_map.1 hr
      have := h q hq
      simp only at hin
      omega
  rw [Mem.byte_defined defined, Mem.byte_defined hd]
  refine look_filter_key 0 a m.cells (fun x => !rs.any fun r => decide (r.1 ≤ x) && decide (x < r.2)) ?_
  rw [Bool.not_eq_true', List.any_eq_false]
  intro r hr
  have := h r hr
  simp
  omega

theorem not_covered_write {m : Mem} {a x : Nat} {bs : List Byte} (h : a ≤ x ∧ x < a + bs.length) :
    ¬ covered (m.write a bs).undef x := fun hc => by
  have := ((covered_cutRanges _ _ _ _).1 hc).2
  omega

theorem mem_insertRange {r q : Nat × Nat} : ∀ {l : List (Nat × Nat)}, q ∈ insertRange r l ↔ q = r ∨ q ∈ l
  | [] => by simp [insertRange]
  | c :: t => by
    rw [insertRange]
    split
    · exact List.mem_cons
    · rw [List.mem_cons, mem_insertRange, List.mem_cons, or_left_comm]

theorem sorted_insertRange (r : Nat × Nat) : ∀ {l : List (Nat × Nat)}, l.Pairwise (fun a b => a.1 ≤ b.1) →
    (insertRange r l).Pairwise fun a b => a.1 ≤ b.1
  | [], _ => List.pairwise_singleton _ _
  | c :: t, h => by
    obtain ⟨hc, ht⟩ := List.pairwise_cons.1 h
    rw [insertRange]
    split
    · next hle =>
      refine List.pairwise_cons.2 ⟨fun q hq => ?_, h⟩
      rcases List.mem_cons.1 hq with rfl | hq
      · exact hle
      · exact Nat.le_trans hle (hc q hq)
    · next hlt =>
      refine List.pairwise_cons.2 ⟨fun q hq => ?_, sorted_insertRange r ht⟩
      rcases mem_insertRange.1 hq with rfl | hq
      · omega
      · exact hc q hq

/-- Ranges put in order one by one. -/
theorem orderedRanges : ∀ (rs l : List (Nat × Nat)), l.Pairwise (fun a b => a.1 ≤ b.1) →
    (rs.foldl (fun l r => insertRange r l) l).Pairwise (fun a b => a.1 ≤ b.1) ∧
      ∀ q, q ∈ rs.foldl (fun l r => insertRange r l) l ↔ q ∈ rs ∨ q ∈ l
  | [], l, h => ⟨h, by simp⟩
  | r :: t, l, h => by
    obtain ⟨sorted, mem⟩ := orderedRanges t (insertRange r l) (sorted_insertRange r h)
    refine ⟨sorted, fun q => ?_⟩
    rw [List.foldl_cons, mem, mem_insertRange, List.mem_cons, or_left_comm, or_assoc]

theorem gaps_above : ∀ (l : List (Nat × Nat)) (lo : Nat), ∀ g ∈ gaps lo l, lo ≤ g.1
  | [], lo, g, h => by
    rw [gaps] at h
    split at h
    · rw [List.mem_singleton.1 h]
    · cases h
  | (a, b) :: t, lo, g, h => by
    rw [gaps] at h
    rcases List.mem_append.1 h with h | h
    · split at h
      · rw [List.mem_singleton.1 h]
      · cases h
    · have := gaps_above t _ g h
      split at this <;> omega

/-- No gap holds an address of one of the ranges. -/
theorem gaps_outside : ∀ (l : List (Nat × Nat)) (lo : Nat), l.Pairwise (fun a b => a.1 ≤ b.1) →
    ∀ q ∈ l, ∀ x, q.1 ≤ x → x < q.2 → ∀ g ∈ gaps lo l, x < g.1 ∨ g.2 ≤ x
  | [], _, _, q, hq, _, _, _, _, _ => absurd hq List.not_mem_nil
  | (a, b) :: t, lo, h, q, hq, x, hlo, hhi, g, hg => by
    obtain ⟨hc, ht⟩ := List.pairwise_cons.1 h
    rw [gaps] at hg
    have start : a ≤ x := by
      rcases List.mem_cons.1 hq with rfl | hq
      · exact hlo
      · exact Nat.le_trans (hc q hq) hlo
    rcases List.mem_append.1 hg with hg | hg
    · split at hg
      · rw [List.mem_singleton.1 hg]
        exact .inr start
      · cases hg
    · rcases List.mem_cons.1 hq with rfl | hq
      · have := gaps_above t _ g hg
        left
        split at this <;> omega
      · exact gaps_outside t _ ht q hq x hlo hhi g hg

/-- What recovery forgets holds no address of a protected home. -/
theorem gaps_home {s : State} {h : Nat × Nat × Nat} (hh : h ∈ protectedHomes s) {x : Nat} (hlo : h.1 ≤ x)
    (hhi : x < h.1 + h.2.1) : ∀ g ∈ gaps 0 (keptRanges s), x < g.1 ∨ g.2 ≤ x := by
  obtain ⟨sorted, mem⟩ := orderedRanges ((protectedHomes s).map (fun h => (h.1, h.1 + h.2.1)) ++
    [(slotBase s (sealedSlot s), slotBase s (sealedSlot s) + slotSize s),
     ((nearStash s).1, (nearStash s).1 + (nearStash s).2), ((farStash s).1, (farStash s).1 + (farStash s).2)] ++
    (if s.recov.target then [(mapBase s, mapBase s + touchBytes (rowsY s))] else [])) [] List.Pairwise.nil
  exact gaps_outside _ 0 sorted (h.1, h.1 + h.2.1) ((mem _).2 (.inl (List.mem_append_left _ (List.mem_append_left _
    (List.mem_map_of_mem hh))))) x hlo hhi

/-- A line of a protected bay lies in a protected home. -/
theorem lineHome_inside {s : State} {b l a : Nat} (h : lineHome s b l = some a) (hl : l < 16384) :
    ∃ h ∈ protectedHomes s, h.1 ≤ a ∧ a + 64 ≤ h.1 + h.2.1 := by
  obtain ⟨base, hbase, rfl⟩ := Option.map_eq_some_iff.1 h
  obtain ⟨home, hin, hsome⟩ := List.exists_of_findSome?_eq_some hbase
  split at hsome
  · next hb =>
    obtain rfl := Option.some.inj hsome
    refine ⟨home, hin, by omega, ?_⟩
    have whole : home.2.1 / mib * mib ≤ home.2.1 := Nat.div_mul_le_self _ _
    have rows : (b - home.2.2 + 1) * mib ≤ home.2.1 / mib * mib := Nat.mul_le_mul_right _ (by omega)
    rw [Nat.add_mul] at rows
    simp only [mib] at *
    omega
  · cases hsome

theorem readEntries_line : ∀ (n : Nat) (bs : List Byte), ∀ e ∈ readEntries n bs, e.2.1 < 16384
  | 0, _, _, h => absurd h List.not_mem_nil
  | n + 1, bs, e, h => by
    rw [readEntries] at h
    split at h
    · cases h
    · rcases List.mem_cons.1 h with rfl | h
      · exact Nat.mod_lt _ (by decide)
      · exact readEntries_line n _ e h

theorem stashEntries_line {s : State} {e : Nat × Nat × Nat × Line} (h : e ∈ stashEntries s) : e.2.1 < 16384 := by
  rcases List.mem_append.1 (List.mem_of_mem_filter h) with h | h
  · exact readEntries_line _ _ e h
  · exact readEntries_line _ _ e h

/-! ### Rollback (R246, R248, R249) -/

/-- The restored line, its digest and what the apply unit had read of it. -/
theorem restoreLine_home {s : State} {b l n a : Nat} {v : Line} (h : lineHome s b l = some a) :
    restoreLine s (b, l, n, v) = { s with
      mem := s.mem.writeLine a v
      digests := putDigest s.digests b (digestOf s b ^^^ lineTerm (bayKey s b) l (s.mem.line a ^^^ v))
      apply := { s.apply with
        issued := s.apply.issued.map fun e => if e.addr = a then { e with stale := true } else e } } := by
  simp only [restoreLine, h]
  rfl

theorem next_rollbackDone {s : State} {e : Nat × Nat × Nat × Line} (hr : s.recov.rollingBack = true) (hq : s.cap.queue = [])
    (ho : s.cap.oldReads = []) (hs : s.power.asleep = false) (hc : commandsEnded s = true) (he : stashEntries s = [e]) :
    exec .rollbackDone s = .next (
      if digestsMatch { restoreLine s e with recov.rollingBack := false } then
        afterRollback (forgetOthers { restoreLine s e with recov.rollingBack := false })
      else failLogged { restoreLine s e with recov.rollingBack := false } 0) := by
  refine congrArg Host.Outcome.next ((if_pos ⟨hr, hc, hq, ho, hs⟩).trans ?_)
  rw [rollback, he]
  rfl

theorem setRec_quiet {s : State} {v : BitVec 4} (hs : s.recov.state.get ≠ 6) (hv : v ≠ 6) :
    setRec s v = { s with recov.state := V3.all v } := by
  have same : decide (recState { s with recov.state := V3.all v } = recData) = decide (v = recData) := by
    rw [decide_eq_decide]
    show (V3.all v).get = _ ↔ _
    rw [V3.get_all]
  refine if_pos ?_
  show decide (recState s = recData) = decide (v = recData)
  rw [decide_eq_false (show ¬ recState s = recData from hs), decide_eq_false (show ¬ v = recData from hv)]

/-- With no position lost and nothing waiting, a member that has rolled back is RESUMABLE. -/
theorem afterRollback_resumable {s : State} (hl : s.recov.lost.get = 0) (hs : s.recov.state.get ≠ 6)
    (hw : s.recov.waiting = []) : afterRollback s = { s with recov.state := V3.all recResumable } := by
  have stands : standing s = { s with recov.state := V3.all recResumable } :=
    (if_pos hl).trans (setRec_quiet hs (by decide))
  have none : lostPositions { s with recov.state := V3.all recResumable } = [] := by
    show bitsOf 16 s.recov.lost.get = []
    rw [hl]
    decide
  rw [afterRollback, stands, serveWaiting_none (by exact hw), supplyTargets]
  split
  · rw [none]
    rfl
  · rfl

theorem digestsMatch_rolledBack (s : State) : digestsMatch { s with recov.rollingBack := false } = digestsMatch s := rfl

/-- A logged failure of recovery while MGP is present (R247, R271). -/
theorem failLogged_present {s : State} (hm : s.ports.mgp = true) (hs : s.recov.state.get ≠ 6) (hb : s.recov.mailbox = none)
    (detail : Nat) : ∃ (log : LogS) (events : EventS), failLogged s detail = { s with
      log := log, recov := { s.recov with state := V3.all recFailed, rollingBack := false, mailbox := none }
      events := { events with delivered := events.delivered ++ [⟨0x0B, 0, 1, s.time.gtc⟩] } } := by
  obtain ⟨log, events, logged⟩ := logReport_present hm clRecovery (srcOf 7 0) detail
  refine ⟨log, events, ?_⟩
  rw [failLogged, logged, failRecovery, setRec_quiet (by exact hs) (by decide), raiseEvent_present _ _ _ (by exact hm)]
  show respondOpt _ s.recov.mailbox _ _ = _
  rw [hb]
  rfl

/-- Settles O43: the restored line lies in a protected home, which recovery keeps. -/
theorem rollbackRestoresTheBeforeImage : Obligations.RollbackRestoresTheBeforeImage := by
  unfold Obligations.RollbackRestoresTheBeforeImage
  intro s b l n v a hr hq ho hs hc hne he ha
  have run := next_rollbackDone hr hq ho hs hc he
  obtain ⟨home, hin, hlo, hhi⟩ := lineHome_inside ha (stashEntries_line (he ▸ List.mem_singleton_self _))
  rw [digestsMatch_rolledBack] at run
  refine ⟨fun hd hl hw => ?_, fun hd hmb hm => ?_⟩
  · rw [if_pos hd, restoreLine_home ha, forgetOthers, afterRollback_resumable (by exact hl) (by exact hne) (by exact hw)] at run
    refine ⟨_, run, rfl, ?_, look_putDigest_same .., fun row hrow => look_putDigest_other _ _ hrow⟩
    refine line_ext fun i hi => ?_
    rw [lineByte_memLine _ _ hi]
    refine (Mem.byte_forget (not_covered_write ?_) (gaps_home (s := s) hin (by omega) (by omega))).trans
      (Mem.byte_writeLine_same s.mem a v hi)
    rw [lineBytes_length]
    omega
  · obtain ⟨log, events, fails⟩ := failLogged_present (s := { restoreLine s (b, l, n, v) with recov.rollingBack := false })
      (by rw [restoreLine_home ha]; exact hm) (by rw [restoreLine_home ha]; exact hne)
      (by rw [restoreLine_home ha]; exact hmb) 0
    rw [if_neg (by rw [hd]; decide), fails, restoreLine_home ha] at run
    exact ⟨_, run, V3.get_all _, rfl, Mem.line_writeLine .., rfl, rfl, List.mem_append_right _ List.mem_cons_self⟩

end Sys2Proof.Machine

/-! PROOFS. PLAN_LOAD, RESHARD_START and the peer plan command (R239, R240, R266, R402). -/

namespace Sys2Proof.Machine

/-! ### Fitting regions does not look at the mailboxes (R266) -/

/-- Two fittings that differ in the mailboxes of their states alone. -/
structure SameFit (f g : Fitting) : Prop where
  state : ∃ m, g.state = { f.state with mb := m }
  bad : g.bad = f.bad
  short : g.short = f.short

theorem SameFit.regions {f g : Fitting} (h : SameFit f g) : g.state.tier.regions = f.state.tier.regions := by
  obtain ⟨⟨m, hm⟩, -, -⟩ := h
  rw [hm]

theorem SameFit.fault {f g : Fitting} (h : SameFit f g) (p : Plan) (k : Nat) (r : Region) :
    regionFieldFault g.state p k r = regionFieldFault f.state p k r := by
  obtain ⟨⟨m, hm⟩, -, -⟩ := h
  rw [hm]
  rfl

theorem SameFit.near {f g : Fitting} (h : SameFit f g) (r : Region) : placeNear g.state r = placeNear f.state r := by
  obtain ⟨⟨m, hm⟩, -, -⟩ := h
  rw [hm]
  rfl

theorem SameFit.home {f g : Fitting} (h : SameFit f g) (p : Plan) (r : Region) : homeFault g.state p r = homeFault f.state p r := by
  obtain ⟨⟨m, hm⟩, -, -⟩ := h
  rw [hm]
  rfl

theorem SameFit.shortfall {f g : Fitting} (h : SameFit f g) (r : Region) :
    regionShortfall g.state r = regionShortfall f.state r := by
  obtain ⟨⟨m, hm⟩, -, -⟩ := h
  rw [hm]
  rfl

theorem SameFit.refused {f g : Fitting} (h : SameFit f g) (o : Nat) :
    SameFit { f with bad := some (f.bad.getD o) } { g with bad := some (g.bad.getD o) } :=
  ⟨h.state, by rw [h.bad], h.short⟩

theorem SameFit.placed {f g : Fitting} (h : SameFit f g) (rs : List Region) (os : List Nat) :
    SameFit { f with state := { f.state with tier.regions := rs }, short := f.short ++ os }
      { g with state := { g.state with tier.regions := rs }, short := g.short ++ os } := by
  obtain ⟨⟨m, hm⟩, hb, hs⟩ := h
  exact ⟨⟨m, by rw [hm]⟩, hb, by rw [hs]⟩

theorem SameFit.placed_whole {f g : Fitting} (h : SameFit f g) (rs : List Region) :
    SameFit { f with state := { f.state with tier.regions := rs } } { g with state := { g.state with tier.regions := rs } } := by
  obtain ⟨⟨m, hm⟩, hb, hs⟩ := h
  exact ⟨⟨m, by rw [hm]⟩, hb, hs⟩



/-- A region that a block declares is there already. -/
abbrev declared (s : State) (r : Region) : Prop := (s.tier.regions.any fun g => decide ({ g with nearBays := 0 } = r)) = true

/-- A region with its near bays placed. -/
abbrev withNear (s : State) (r : Region) : Region := { r with nearBays := placeNear s r }

theorem fitRegion_declared {p : Plan} {move : Region → Region} {f : Fitting} {block : Line}
    (h : declared f.state (move (regionOf block))) : fitRegion p move f block = f := if_pos h

theorem fitRegion_faulty {p : Plan} {move : Region → Region} {f : Fitting} {block : Line} {o : Nat}
    (hd : ¬ declared f.state (move (regionOf block)))
    (hf : regionFieldFault f.state p (fld block 9 1) (move (regionOf block)) = some o) :
    fitRegion p move f block = { f with bad := some (f.bad.getD o) } := by
  fun_cases Machine.fitRegion p move f block with
  | case1 _ _ h => exact absurd h hd
  | case2 _ _ _ _ hx => rw [Option.some.inj (hf.symm.trans hx)]
  | case3 _ _ _ hx => cases hf.symm.trans hx
  | case4 _ _ _ hx => cases hf.symm.trans hx
  | case5 _ _ _ hx => cases hf.symm.trans hx

theorem fitRegion_homeless {p : Plan} {move : Region → Region} {f : Fitting} {block : Line} {o : Nat}
    (hd : ¬ declared f.state (move (regionOf block)))
    (hf : regionFieldFault f.state p (fld block 9 1) (move (regionOf block)) = none)
    (hh : homeFault f.state p (withNear f.state (move (regionOf block))) = some o) :
    fitRegion p move f block = { f with bad := some (f.bad.getD o) } := by
  fun_cases Machine.fitRegion p move f block with
  | case1 _ _ h => exact absurd h hd
  | case2 _ _ _ _ hx => cases hf.symm.trans hx
  | case3 _ _ _ _ _ _ hx => rw [Option.some.inj (hh.symm.trans hx)]
  | case4 _ _ _ _ _ hx => cases hh.symm.trans hx
  | case5 _ _ _ _ _ hx => cases hh.symm.trans hx

theorem fitRegion_short {p : Plan} {move : Region → Region} {f : Fitting} {block : Line} {o : Nat}
    (hd : ¬ declared f.state (move (regionOf block)))
    (hf : regionFieldFault f.state p (fld block 9 1) (move (regionOf block)) = none)
    (hh : homeFault f.state p (withNear f.state (move (regionOf block))) = none)
    (hs : regionShortfall f.state (withNear f.state (move (regionOf block))) = some o) :
    fitRegion p move f block = { f with
      state := { f.state with tier.regions := f.state.tier.regions ++ [withNear f.state (move (regionOf block))] }
      short := f.short ++ [o] } := by
  fun_cases Machine.fitRegion p move f block with
  | case1 _ _ h => exact absurd h hd
  | case2 _ _ _ _ hx => cases hf.symm.trans hx
  | case3 _ _ _ _ _ _ hx => cases hh.symm.trans hx
  | case4 _ _ _ _ _ _ _ _ hx => rw [Option.some.inj (hs.symm.trans hx)]
  | case5 _ _ _ _ _ _ _ hx => cases hs.symm.trans hx

theorem fitRegion_whole {p : Plan} {move : Region → Region} {f : Fitting} {block : Line}
    (hd : ¬ declared f.state (move (regionOf block)))
    (hf : regionFieldFault f.state p (fld block 9 1) (move (regionOf block)) = none)
    (hh : homeFault f.state p (withNear f.state (move (regionOf block))) = none)
    (hs : regionShortfall f.state (withNear f.state (move (regionOf block))) = none) :
    fitRegion p move f block = { f with
      state := { f.state with tier.regions := f.state.tier.regions ++ [withNear f.state (move (regionOf block))] } } := by
  fun_cases Machine.fitRegion p move f block with
  | case1 _ _ h => exact absurd h hd
  | case2 _ _ _ _ hx => cases hf.symm.trans hx
  | case3 _ _ _ _ _ _ hx => cases hh.symm.trans hx
  | case4 _ _ _ _ _ _ _ _ hx => cases hs.symm.trans hx
  | case5 => rfl

theorem SameFit.fitRegion {f g : Fitting} (h : SameFit f g) (p : Plan) (move : Region → Region) (block : Line) :
    SameFit (fitRegion p move f block) (fitRegion p move g block) := by
  have hp : withNear g.state (move (regionOf block)) = withNear f.state (move (regionOf block)) := by rw [withNear, h.near]
  by_cases hd : declared f.state (move (regionOf block))
  · rw [fitRegion_declared hd, fitRegion_declared (by rw [declared, h.regions]; exact hd)]
    exact h
  have hd' : ¬ declared g.state (move (regionOf block)) := by rw [declared, h.regions]; exact hd
  cases hf : regionFieldFault f.state p (fld block 9 1) (move (regionOf block)) with
  | some o =>
    rw [fitRegion_faulty hd hf, fitRegion_faulty hd' ((h.fault ..).trans hf)]
    exact h.refused o
  | none =>
    have hf' := (h.fault p (fld block 9 1) (move (regionOf block))).trans hf
    cases hh : homeFault f.state p (withNear f.state (move (regionOf block))) with
    | some o =>
      rw [fitRegion_homeless hd hf hh, fitRegion_homeless hd' hf' (by rw [hp, h.home]; exact hh)]
      exact h.refused o
    | none =>
      have hh' : homeFault g.state p (withNear g.state (move (regionOf block))) = none := by rw [hp, h.home]; exact hh
      cases hs : regionShortfall f.state (withNear f.state (move (regionOf block))) with
      | some o =>
        rw [fitRegion_short hd hf hh hs, fitRegion_short hd' hf' hh' (by rw [hp, h.shortfall]; exact hs), hp, h.regions]
        exact h.placed _ _
      | none =>
        rw [fitRegion_whole hd hf hh hs, fitRegion_whole hd' hf' hh' (by rw [hp, h.shortfall]; exact hs), hp, h.regions]
        exact h.placed_whole _
theorem SameFit.foldl {p : Plan} {move : Region → Region} : ∀ (blocks : List Line) {f g : Fitting}, SameFit f g →
    SameFit (blocks.foldl (Machine.fitRegion p move) f) (blocks.foldl (Machine.fitRegion p move) g)
  | [], _, _, h => h
  | b :: t, _, _, h => SameFit.foldl t (h.fitRegion p move b)

/-- Where the fitting of the shadows begins. -/
def startFit (s : State) (p : Plan) (q : Quotas) : Fitting :=
  { state := { s with job.plan := some p, agree.cove := none, tier.regions := [], tier.quotas := q }
    bad := windowFault p [] q, short := [] }

theorem startFit_reboxed (s : State) (m : MailboxS) (p : Plan) (q : Quotas) :
    SameFit (startFit s p q) (startFit { s with mb := m } p q) := ⟨⟨m, rfl⟩, rfl, rfl⟩

/-- What a fitting comes to. -/
def fitOutcome (s : State) (c : CovePlan) (q : Quotas) (f : Fitting) : (Nat × Nat) ⊕ (List Region × Quotas) :=
  let clash := f.state.tier.regions.any (fun r => (regionHomes r).any fun h => meets (occupied s) h.1 h.2.1) ||
    (windows q).any fun w => decide (0 < w.2.2.1) && meets (occupied s) w.2.1 w.2.2.1
  match f.bad with
  | some _ => .inl (stBadArg, 8)
  | none =>
    if clash then .inl (stBadArg, 8)
    else
      let both := s.tier.regions ++ f.state.tier.regions
      let short := (if s.tier.quotas.dataNear < nearInUse both then [8] else []) ++
        (if s.tier.quotas.dataFar < farInUse both then [12] else []) ++ f.short ++
        windowShort c f.state.tier.regions q q ++ (if s.tier.quotas.offload < offloadInUse both then [48] else [])
      match short.min? with
      | some o => .inl (stResource, o)
      | none => .inr (f.state.tier.regions, q)

theorem fitShadow_place (s : State) (p : Plan) : fitShadow s p =
    match coveOfRank p (ownRank s) with
    | none => .inr ([], Quotas.zero)
    | some (c, _) => fitOutcome s c (takenQuotas s.tier.quotas ((find (ownRank s) p.quotas).getD s.tier.quotas))
        (((p.profiles.filter fun f => f.rank = ownRank s ∧ f.op = 6).map Profile.block).foldl (fitRegion p id)
          (startFit s p (takenQuotas s.tier.quotas ((find (ownRank s) p.quotas).getD s.tier.quotas)))) := rfl

theorem SameFit.outcome {f g : Fitting} (h : SameFit f g) (s : State) (m : MailboxS) (c : CovePlan) (q : Quotas) :
    fitOutcome { s with mb := m } c q g = fitOutcome s c q f := by
  show fitOutcome s c q g = _
  rw [fitOutcome, fitOutcome, h.regions, h.bad, h.short]

theorem fitShadow_reboxed (s : State) (m : MailboxS) (p : Plan) : fitShadow { s with mb := m } p = fitShadow s p := by
  rw [fitShadow_place, fitShadow_place, show ownRank { s with mb := m } = ownRank s from rfl]
  cases coveOfRank p (ownRank s) with
  | none => rfl
  | some e => exact (SameFit.foldl _ (startFit_reboxed s m p _)).outcome s m e.1 _

theorem asPlanned_reboxed (s : State) (m : MailboxS) (r : Nat) :
    asPlanned { s with mb := m } r = { asPlanned s r with mb := m } := by
  unfold asPlanned
  dsimp only
  cases s.job.part with
  | none => rfl
  | some q =>
    cases s.job.plan with
    | none => rfl
    | some p => rfl

theorem unfitElsewhere_reboxed (s : State) (m : MailboxS) (p : Plan) :
    unfitElsewhere { s with mb := m } p = unfitElsewhere s p := by
  unfold unfitElsewhere
  rw [show ownRank { s with mb := m } = ownRank s from rfl]
  refine congrArg (fun f => List.findSome? f _) (funext fun r => ?_)
  rw [asPlanned_reboxed, fitShadow_reboxed]

/-- A re-shard's shadows fit. -/
def shadowsFit (s : State) (plan : Plan) : Prop :=
  namesLost s (localPlan (ownRank s) plan) = false ∧ (∃ x, fitShadow s (localPlan (ownRank s) plan) = .inr x) ∧
    unfitElsewhere s plan = none

theorem shadowsFit_reboxed {s : State} {plan : Plan} (m : MailboxS) (h : shadowsFit s plan) :
    shadowsFit { s with mb := m } plan := by
  obtain ⟨hl, ⟨x, hx⟩, hu⟩ := h
  exact ⟨hl, ⟨x, (fitShadow_reboxed s m _).trans hx⟩, (unfitElsewhere_reboxed s m plan).trans hu⟩

theorem shadowsFit_of_declared {s u : State} {plan : Plan} {mb : Option (Fin 8)} (h : declareShadow s plan mb = .inr u) :
    shadowsFit s plan := by
  unfold declareShadow at h
  dsimp only at h
  split at h
  · cases h
  · next hl =>
    split at h
    · cases h
    · cases h
    · next hx hu => exact ⟨Bool.eq_false_iff.2 hl, ⟨_, hx⟩, hu⟩

theorem declared_of_shadowsFit {s : State} {plan : Plan} (h : shadowsFit s plan) (mb : Option (Fin 8)) :
    ∃ u, declareShadow s plan mb = .inr u := by
  obtain ⟨hl, ⟨x, hx⟩, hu⟩ := h
  unfold declareShadow
  dsimp only
  rw [if_neg (by rw [hl]; decide), hx, hu]
  exact ⟨_, rfl⟩

/-- Whether the shadows fit does not depend on the mailboxes. -/
theorem declareShadow_reboxed {s u : State} {plan : Plan} (m : MailboxS) (h : declareShadow s plan none = .inr u) :
    ∃ v, declareShadow { s with mb := m } plan none = .inr v :=
  declared_of_shadowsFit (shadowsFit_reboxed m (shadowsFit_of_declared h)) none

/-! ### Broadcasts -/

theorem sendFragments_fields (s : State) (child from_ : Nat) : ∃ at_ xs, sendFragments s child from_ =
    { s with bcast := { s.bcast with sentAt := at_ }, out := { s.out with lkp := xs } } := by
  have sent : ∃ xs, forEach ((List.zip (List.range s.bcast.fragments.length) s.bcast.fragments).drop from_)
      (fun u e => sendPlanMsg u child 0x2A e.1 e.2) s = { s with out := { s.out with lkp := xs } } := by
    refine forEach_keeps (fun u => ∃ xs, u = { s with out := { s.out with lkp := xs } }) _ _ _ ?_ ⟨_, rfl⟩
    rintro u e ⟨xs, rfl⟩
    exact sendTo_fields ..
  obtain ⟨xs, hxs⟩ := sent
  refine ⟨put child s.time.gtc s.bcast.sentAt, xs, ?_⟩
  rw [sendFragments, hxs]

theorem forEach_sendFragments_fields (l : List Nat) (i : Nat) (s : State) : ∃ at_ xs,
    forEach l (fun t c => sendFragments t c i) s =
      { s with bcast := { s.bcast with sentAt := at_ }, out := { s.out with lkp := xs } } := by
  refine forEach_keeps (fun u => ∃ at_ xs, u =
    { s with bcast := { s.bcast with sentAt := at_ }, out := { s.out with lkp := xs } }) _ _ _ ?_ ⟨_, _, rfl⟩
  rintro u c ⟨at_, xs, rfl⟩
  exact sendFragments_fields ..

/-- A broadcast that begins changes its own record and what goes out. -/
theorem startBroadcast_fields (s : State) (mb : Fin 8) (image : List Byte) (reshard : Bool) : ∃ at_ xs,
    startBroadcast s mb image reshard = { s with
      bcast := { BcastS.reset with
        children := treeChildren s (ownRank s), ballot := digestLow (sha256 image), length := image.length
        digest := sha256 image, fragments := planFragments image, complete := true, reshard := reshard
        lastFragment := s.time.gtc, mailbox := some mb, sentAt := at_ }
      out := { s.out with lkp := xs } } :=
  forEach_sendFragments_fields ..

/-! ### PLAN_LOAD -/

theorem next_planLoad {s : State} {mb : Fin 8} {priv : Bool} {cmd : Line} (h : Handled s mb priv 0x05 cmd) (plan : Plan) :
    exec (.planLoad (.issue mb (portOf mb) priv cmd) plan) s = .next (
      match imageFault (took s mb priv cmd) cmd (distFlag cmd) with
      | some o => badArg (took s mb priv cmd) mb o
      | none =>
        if !planOk (took s mb priv cmd) plan then planFault (took s mb priv cmd) mb
        else match takingPlan (took s mb priv cmd) with
          | some o => busyWith (took s mb priv cmd) mb (some o)
          | none =>
            if distFlag cmd then
              startBroadcast (accepted { took s mb priv cmd with job.taking := some (mb, plan, false) } mb) mb
                (s.mem.bytes (fld cmd 8 8) (fld cmd 16 4)) false
            else accepted { took s mb priv cmd with job.taking := some (mb, plan, false) } mb) :=
  exec_handled (fun mb t s =>
    match imageFault s t.cmd (distFlag t.cmd) with
    | some o => badArg s mb o
    | none =>
      if !planOk s plan then planFault s mb
      else match takingPlan s with
        | some o => busyWith s mb (some o)
        | none =>
          let u := accepted { s with job.taking := some (mb, plan, false) } mb
          if distFlag t.cmd then startBroadcast u mb (s.mem.bytes (fld t.cmd 8 8) (fld t.cmd 16 4)) false else u) h (by rfl)

theorem imageFault_none {s : State} {c : Line} {dist : Bool} (hd : dist = true → ownRank s = 0) (h8 : fld c 8 8 % 64 = 0)
    (hlo : 0 < fld c 16 4) (hhi : fld c 16 4 ≤ 8388608) : imageFault s c dist = none := by
  have hm : ¬ 8 * mib < fld c 16 4 := by rw [mib]; omega
  exact (if_neg fun h => h.2 (hd h.1)).trans ((if_neg (by omega)).trans (if_neg (by omega)))

theorem takingPlan_none {s : State} (ht : s.job.taking = none) (hb : s.bcast.mailbox = none) : takingPlan s = none := by
  rw [takingPlan, ht, hb]

/-- A command that begins to take a plan. -/
theorem taking_accepted {s : State} {mb : Fin 8} {priv : Bool} {cmd : Line} (job : JobS) {t : State}
    (ht : t = accepted { took s mb priv cmd with job := job } mb) : RunsLong s t mb cmd ∧ t.job = job ∧
      t = { s with mb := t.mb, events := t.events, stat := { s.stat with evtOvf := t.stat.evtOvf }, job := t.job } := by
  obtain ⟨u, hu⟩ : ∃ u, u = took s mb priv cmd := ⟨_, rfl⟩
  have only : OnlyBox s u mb := hu ▸ onlyBox_took s mb priv cmd
  obtain ⟨v, hv⟩ : ∃ v : State, v = { u with job := job } := ⟨_, rfl⟩
  rw [← hu, ← hv] at ht
  have kept : OnlyBox { s with job := job } v mb := by
    refine ⟨?_, fun m hm => ?_, fun hm => ?_⟩
    · conv_lhs => rw [hv, only.frame]
      rw [hv]
    · rw [hv]
      exact only.others m hm
    · rw [hv]
      exact only.quiet hm
  have whole : OnlyBox { s with job := job } t mb := kept.trans (ht ▸ onlyBox_accepted v mb)
  have hjob : t.job = job := congrArg State.job whole.frame
  have hmb : t.mb = { s.mb with boxes := t.mb.boxes } := congrArg State.mb whole.frame
  refine ⟨?_, hjob, ?_⟩
  · rw [ht]
    exact runsLong_accepted (by rw [hv, hu]; exact box_took s mb priv cmd)
  · conv_lhs => rw [whole.frame]
    rw [hmb, hjob]

/-- A plan that breaks a rule is refused, at a place of the image that is left open. -/
theorem planFault_took {s : State} (mb : Fin 8) (priv : Bool) (cmd : Line) (hf : fwRunning s = true) {t : State}
    (ht : t = planFault (took s mb priv cmd) mb) :
    (box t mb).busy = false ∧ (box t mb).done = true ∧ (box t mb).code = 0x10 ∧ t.job = s.job ∧ t.bcast = s.bcast ∧
      t.tier = s.tier ∧ t.mem = s.mem := by
  obtain ⟨v, hv⟩ : ∃ v, v = { took s mb priv cmd with freeCtr := (took s mb priv cmd).freeCtr + 1 } := ⟨_, rfl⟩
  have running : fwRunning v = true := by rw [hv]; exact hf
  rw [planFault, badBlock, ← hv] at ht
  have hbox := respond_box_same v mb stBadArg (0x10000 + (Config.freeOffset (took s mb priv cmd).freeCtr).toNat) [] running
  rw [ht, hbox, respond_job, respond_bcast, respond_tier, respond_mem, hv]
  exact ⟨rfl, rfl, rfl, rfl, rfl, rfl, rfl⟩

/-- PLAN_LOAD, by its fields and the plan (R239). -/
theorem planLoad_clauses {s : State} {mb : Fin 8} {priv : Bool} {cmd : Line} {plan : Plan}
    (h : Handled s mb priv 0x05 cmd) (ht : s.job.taking = none) (hb : s.bcast.mailbox = none) :
    (fld cmd 1 1 = 0 → fld cmd 8 8 % 64 = 0 → 0 < fld cmd 16 4 → fld cmd 16 4 ≤ 8388608 → planOk s plan = true →
      Ends (.planLoad (.issue mb (portOf mb) priv cmd) plan) s fun t =>
        RunsLong s t mb cmd ∧ t.job = { s.job with taking := some (mb, plan, false) } ∧
        t = { s with mb := t.mb, events := t.events, stat := { s.stat with evtOvf := t.stat.evtOvf }, job := t.job }) ∧
    (fld cmd 1 1 = 0 → fld cmd 8 8 % 64 = 0 → 0 < fld cmd 16 4 → fld cmd 16 4 ≤ 8388608 → planOk s plan = false →
      Ends (.planLoad (.issue mb (portOf mb) priv cmd) plan) s fun t =>
        (box t mb).busy = false ∧ (box t mb).done = true ∧ (box t mb).code = 0x10 ∧ t.job = s.job ∧ t.bcast = s.bcast ∧
        t.tier = s.tier ∧ t.mem = s.mem) ∧
    (fld cmd 1 1 = 1 → ownRank s ≠ 0 → Ends (.planLoad (.issue mb (portOf mb) priv cmd) plan) s fun t =>
      Answered s t mb cmd 0x10 1 ∧ OnlyAnswer s t mb) ∧
    (fld cmd 1 1 = 0 → fld cmd 8 8 % 64 ≠ 0 → Ends (.planLoad (.issue mb (portOf mb) priv cmd) plan) s fun t =>
      Answered s t mb cmd 0x10 8 ∧ OnlyAnswer s t mb) ∧
    (fld cmd 1 1 = 0 → fld cmd 8 8 % 64 = 0 → 8388608 < fld cmd 16 4 →
      Ends (.planLoad (.issue mb (portOf mb) priv cmd) plan) s fun t =>
        Answered s t mb cmd 0x10 16 ∧ OnlyAnswer s t mb) := by
  have run := next_planLoad h plan
  have alone : fld cmd 1 1 = 0 → distFlag cmd = false := fun h1 => decide_eq_false (by omega)
  have refused : ∀ {o : Nat}, o < 2 ^ 32 → imageFault (took s mb priv cmd) cmd (distFlag cmd) = some o →
      Ends (.planLoad (.issue mb (portOf mb) priv cmd) plan) s fun t => Answered s t mb cmd 0x10 o ∧ OnlyAnswer s t mb := by
    intro o ho hfault
    rw [hfault] at run
    exact ⟨_, run, refusedOnly h (status := stBadArg) (by decide) ho⟩
  refine ⟨fun h1 h8 hlo hhi hp => ?_, fun h1 h8 hlo hhi hp => ?_, fun h1 hr => ?_, fun h1 h8 => ?_, fun h1 h8 hhi => ?_⟩
  · have hpt : planOk (took s mb priv cmd) plan = true := hp
    have idle : takingPlan (took s mb priv cmd) = none := takingPlan_none ht hb
    rw [imageFault_none (by simp [alone h1]) h8 hlo hhi] at run
    dsimp only at run
    rw [if_neg (by rw [hpt]; decide), idle, alone h1] at run
    exact ⟨_, run, taking_accepted (s := s) (mb := mb) (priv := priv) (cmd := cmd)
      { s.job with taking := some (mb, plan, false) } rfl⟩
  · have hpt : planOk (took s mb priv cmd) plan = false := hp
    rw [imageFault_none (by simp [alone h1]) h8 hlo hhi] at run
    dsimp only at run
    rw [if_pos (by rw [hpt]; decide)] at run
    exact ⟨_, run, planFault_took mb priv cmd (fwRunning_of_handled h) rfl⟩
  · exact refused (by decide) (if_pos ⟨decide_eq_true h1, hr⟩)
  · exact refused (by decide) ((if_neg (by simp [alone h1])).trans (if_pos h8))
  · exact refused (by decide) ((if_neg (by simp [alone h1])).trans ((if_neg (by omega)).trans
      (if_pos (.inr (by rw [mib]; omega)))))

/-! ### RESHARD_START (R266) -/

/-- What RESHARD_START does, in the state that has taken it. -/
def reshardWork (plan : Plan) (mb : Fin 8) (t : TakenCmd) (s : State) : State :=
  if !distFlag t.cmd then badArg s mb 1
  else match imageFault s t.cmd true with
    | some o => badArg s mb o
    | none =>
      if !reshardable s then wrongState s mb
      else if !planOk s plan then planFault s mb
      else match takingPlan s with
        | some o => busyWith s mb (some o)
        | none => match declareShadow s plan none with
          | .inl (st, d) => respond s mb st d []
          | .inr _ =>
            startBroadcast (accepted { s with job.taking := some (mb, plan, true) } mb) mb
              (s.mem.bytes (fld t.cmd 8 8) (fld t.cmd 16 4)) true

theorem next_reshardStart {s : State} {mb : Fin 8} {priv : Bool} {cmd : Line} (h : Handled s mb priv 0x13 cmd)
    (plan : Plan) : exec (.reshardStart (.issue mb (portOf mb) priv cmd) plan) s =
      .next (reshardWork plan mb (takenCmd mb priv cmd) (took s mb priv cmd)) :=
  exec_handled (reshardWork plan) h (by rfl)

theorem reshardStart_clauses {s : State} {mb : Fin 8} {priv : Bool} {cmd : Line} {plan : Plan}
    (h : Handled s mb priv 0x13 cmd) (h1 : fld cmd 1 1 = 1) (h8 : fld cmd 8 8 % 64 = 0) (hlo : 0 < fld cmd 16 4)
    (hhi : fld cmd 16 4 ≤ 8388608) (hr : ownRank s = 0) :
    (s.tide.phase.get = 5 → s.recov.state.get = 5 ∨ s.recov.state.get = 3 → planOk s plan = true → s.job.taking = none →
      s.bcast.mailbox = none → (∃ v, declareShadow s plan none = .inr v) →
      Ends (.reshardStart (.issue mb (portOf mb) priv cmd) plan) s fun t =>
        RunsLong s t mb cmd ∧ t.job = { s.job with taking := some (mb, plan, true) } ∧ t.mem = s.mem ∧
        t.tide = s.tide ∧ t.recov = s.recov ∧ t.bcast.reshard = true ∧ t.bcast.complete = true ∧
        t.bcast.children = treeChildren s 0 ∧ t.bcast.length = fld cmd 16 4 ∧
        t.bcast.digest = sha256 (s.mem.bytes (fld cmd 8 8) (fld cmd 16 4))) ∧
    (s.tide.phase.get = 1 → Ends (.reshardStart (.issue mb (portOf mb) priv cmd) plan) s fun t =>
      Answered s t mb cmd 0x12 (s.job.state.toNat + 256) ∧ OnlyAnswer s t mb) := by
  have run := next_reshardStart h plan
  have dist : distFlag cmd = true := decide_eq_true h1
  have fields : imageFault (took s mb priv cmd) cmd true = none := imageFault_none (fun _ => hr) h8 hlo hhi
  rw [reshardWork, if_neg (by rw [dist]; decide), fields] at run
  refine ⟨fun hph hst hp ht hb hd => ?_, fun hph => ?_⟩
  · have stands : reshardable (took s mb priv cmd) = true := by
      have hphase : phaseNow (took s mb priv cmd) = 5 := hph
      have hstate : recState (took s mb priv cmd) = 5 ∨ recState (took s mb priv cmd) = 3 := hst
      rw [reshardable, hphase]
      rcases hstate with e | e
      · rw [e]; decide
      · rw [e]; decide
    have good : planOk (took s mb priv cmd) plan = true := hp
    have idle : takingPlan (took s mb priv cmd) = none := takingPlan_none ht hb
    obtain ⟨v, hv⟩ := hd
    obtain ⟨w, hw⟩ := declareShadow_reboxed (took s mb priv cmd).mb hv
    have fits : declareShadow (took s mb priv cmd) plan none = .inr w := hw
    dsimp only at run
    rw [if_neg (by rw [stands]; decide), if_neg (by rw [good]; decide), idle, fits] at run
    dsimp only at run
    obtain ⟨t, ht'⟩ : ∃ t, t = accepted { took s mb priv cmd with job.taking := some (mb, plan, true) } mb := ⟨_, rfl⟩
    obtain ⟨runs, job, frame⟩ := taking_accepted { s.job with taking := some (mb, plan, true) } ht'
    obtain ⟨at_, xs, begins⟩ := startBroadcast_fields t mb (s.mem.bytes (fld cmd 8 8) (fld cmd 16 4)) true
    have rank : ownRank t = 0 := by rw [frame, job]; exact hr
    have kids : treeChildren t 0 = treeChildren s 0 := by rw [frame, job]; rfl
    have run' : exec (.reshardStart (.issue mb (portOf mb) priv cmd) plan) s =
      .next (startBroadcast t mb (s.mem.bytes (fld cmd 8 8) (fld cmd 16 4)) true) := by rw [ht']; exact run
    rw [begins, rank, kids] at run'
    refine ⟨_, run', runs, job, ?_, ?_, ?_, rfl, rfl, rfl, Mem.bytes_length .., rfl⟩
    · show t.mem = s.mem
      rw [frame]
    · show t.tide = s.tide
      rw [frame]
    · show t.recov = s.recov
      rw [frame]
  · have open_ : reshardable (took s mb priv cmd) = false := by
      have hphase : phaseNow (took s mb priv cmd) = 1 := hph
      rw [reshardable, hphase]
      rfl
    dsimp only at run
    rw [if_pos (by rw [open_]; decide)] at run
    have wrong := refusedOnly h (status := stWrongState) (by decide) (wrongState_detail_lt s)
    rw [hph] at wrong
    refine ⟨_, run, ?_⟩
    have shown : wrongState (took s mb priv cmd) mb =
        respond (took s mb priv cmd) mb stWrongState (s.job.state.toNat + 256 * (1 : BitVec 3).toNat) [] := by
      rw [wrongState, ← hph]
      rfl
    rw [shown]
    exact wrong

/-! ### The peer plan command, and its end (R240, R402) -/

theorem peerDone_idle {s : State} (h : (box s 7).done = false ∨ (box s 7).busy = true) : peerDone s = s :=
  if_neg (by rcases h with h | h <;> simp [h])

/-- What the peer plan command does, in the state that has taken it. -/
def peerPlanWork (plan : Plan) (mb : Fin 8) (t : TakenCmd) (s : State) : State :=
  if !s.bcast.complete ∨ fld t.cmd 8 8 ≠ s.bcast.length ∨ fld t.cmd 24 32 ≠ leNat s.bcast.digest then badArg s mb 8
  else if !planOk s plan then planFault s mb
  else if distFlag t.cmd ∧ s.job.state = 3 ∧ !reshardable s then wrongState s mb
  else if s.job.taking.isSome then busyWith s mb (takingPlan s)
  else accepted { s with job.taking := some (mb, plan, distFlag t.cmd) } mb

theorem next_peerPlan {s : State} {priv : Bool} {cmd : Line} (h : Handled s 7 priv 0x22 cmd) (plan : Plan) :
    exec (.peerPlan (.issue 7 .lkp priv cmd) plan) s =
      .next (peerDone (peerPlanWork plan 7 (takenCmd 7 priv cmd) (took s 7 priv cmd))) :=
  congrArg (fun t => Host.Outcome.next (peerDone t)) (mailboxState_handled (peerPlanWork plan) h (by rfl))

theorem peerPlan_taken {s : State} {priv : Bool} {cmd : Line} {plan : Plan} (h : Handled s 7 priv 0x22 cmd)
    (h1 : fld cmd 1 1 = 0) (ht : s.job.taking = none) (hp : planOk s plan = true) (hc : s.bcast.complete = true)
    (h8 : fld cmd 8 8 = s.bcast.length) (h24 : fld cmd 24 32 = leNat s.bcast.digest) :
    Ends (.peerPlan (.issue 7 .lkp priv cmd) plan) s fun t =>
      RunsLong s t 7 cmd ∧ t.job = { s.job with taking := some (7, plan, false) } ∧ t.job.plan = s.job.plan ∧
      t.mem = s.mem ∧ t.bcast = s.bcast := by
  have run := next_peerPlan h plan
  have alone : distFlag cmd = false := decide_eq_false (by omega)
  have whole : ¬((!(took s 7 priv cmd).bcast.complete) = true ∨ fld cmd 8 8 ≠ (took s 7 priv cmd).bcast.length ∨
      fld cmd 24 32 ≠ leNat (took s 7 priv cmd).bcast.digest) := by
    rintro (e | e | e)
    · have : (!s.bcast.complete) = true := e
      rw [hc] at this
      cases this
    · exact e h8
    · exact e h24
  have good : planOk (took s 7 priv cmd) plan = true := hp
  have free : (took s 7 priv cmd).job.taking = none := ht
  rw [peerPlanWork, if_neg whole, if_neg (by rw [good]; decide), if_neg (by simp [alone]), if_neg (by simp [free]),
    alone] at run
  obtain ⟨t, ht'⟩ : ∃ t, t = accepted { took s 7 priv cmd with job.taking := some (7, plan, false) } 7 := ⟨_, rfl⟩
  obtain ⟨runs, job, frame⟩ := taking_accepted { s.job with taking := some (7, plan, false) } ht'
  rw [← ht', peerDone_idle (.inr runs.1)] at run
  refine ⟨t, run, runs, job, by rw [job], ?_, ?_⟩
  · rw [frame]
  · rw [frame]

/-- The plan has been taken: for one die PLAN_LOAD completes (R241, R324). -/
theorem planLoadLocalDone_taken {s : State} {mb : Fin 8} {plan : Plan} (ht : s.job.taking = some (mb, plan, false))
    (hb : s.bcast.mailbox = none) (h7 : (box s 7).done = false) (hmb : mb ≠ 7) (hf : s.stat.fwState.get = 2) :
    Ends .planLoadLocalDone s fun t =>
      t.job = { s.job with
        taking := none, plan := some (localPlan (ownRank s) plan), state := if s.job.state = 1 then 2 else s.job.state } ∧
      t.tide = { s.tide with policy := plan.policy, nextPolicy := plan.policy } ∧ t.mem = s.mem ∧
      t.agree = s.agree ∧ (box t mb).busy = false ∧ (box t mb).done = true ∧ (box t mb).code = 0 ∧
      (box t mb).count = (box s mb).count + 1 ∧ fld (box t mb).rsp 8 4 = 1 ∧ fld (box t mb).rsp 12 4 = 0 ∧
      OtherBoxes s t mb := by
  obtain ⟨u, hu⟩ : ∃ u, u = takePlan { s with job.taking := none } plan := ⟨_, rfl⟩
  have running : fwRunning u = true := by rw [hu]; exact decide_eq_true hf
  have only := onlyBox_respond running mb stOk 0 (planResults 1 0 0xFFFFFFFF)
  have others : OtherBoxes s (respond u mb stOk 0 (planResults 1 0 0xFFFFFFFF)) mb := fun m hm =>
    (only.others m hm).trans (by rw [hu]; rfl)
  have idle := peerDone_idle (s := respond u mb stOk 0 (planResults 1 0 0xFFFFFFFF))
    (.inl ((congrArg Mailbox.done (others 7 hmb.symm)).trans h7))
  have alone : ¬ u.bcast.mailbox = some mb := by
    rw [hu]
    show ¬ s.bcast.mailbox = some mb
    simp [hb]
  have run : exec .planLoadLocalDone s = .next (respond u mb stOk 0 (planResults 1 0 0xFFFFFFFF)) := by
    rw [← idle, hu]
    refine congrArg Host.Outcome.next ?_
    simp only [ht, Bool.false_eq_true, if_false]
    rw [hu] at alone
    exact if_neg alone
  have hbox := respond_box_same u mb stOk 0 (planResults 1 0 0xFFFFFFFF) running
  have hrsp : ∀ {o n : Nat}, 8 ≤ o → o + n ≤ 32 →
      fld (box (respond u mb stOk 0 (planResults 1 0 0xFFFFFFFF)) mb).rsp o n = fld (mkLine (planResults 1 0 0xFFFFFFFF)) o n :=
    fun ho h => fld_rsp_respond mb stOk 0 _ running ho h
  refine ⟨_, run, ?_, ?_, ?_, ?_, by rw [hbox]; rfl, by rw [hbox]; rfl, by rw [hbox]; rfl, ?_,
    (hrsp (by decide) (by decide)).trans (fld_mkLine_head (by decide) (by simp [apart])),
    (hrsp (by decide) (by decide)).trans ((fld_mkLine_skip (by decide) (by decide)).trans
      (fld_mkLine_head (by decide) (by simp [apart]))), others⟩
  · rw [respond_job, hu]
    rfl
  · rw [respond_tide, hu]
    rfl
  · rw [respond_mem, hu]
    rfl
  · rw [respond_agree, hu]
    rfl
  · rw [hbox, hu]
    rfl

/-- Settles O41: each command by its fields, and a re-shard's shadows whatever the mailboxes hold. -/
theorem plansAreTakenByCommand : Obligations.PlansAreTakenByCommand := by
  unfold Obligations.PlansAreTakenByCommand
  intro s mb priv cmd plan
  exact ⟨fun h ht hb => planLoad_clauses h ht hb, fun h h1 h8 hlo hhi hr => reshardStart_clauses h h1 h8 hlo hhi hr,
    fun h h1 ht hp hc h8 h24 => peerPlan_taken h h1 ht hp hc h8 h24,
    fun ht hb h7 hmb hf _ => planLoadLocalDone_taken ht hb h7 hmb hf,
    fun ht => ⟨s, congrArg Host.Outcome.next (by simp only [ht]), rfl⟩⟩

end Sys2Proof.Machine

/-! PROOFS. Claims, rank moves and REBUILD_START (R254 to R256, R313, R402). -/

namespace Sys2Proof.Machine

/-! ### A peer command reaches mailbox 7 (R313) -/

/-- The mailbox in which a peer command stands. -/
abbrev peerBox (s : State) (l : Line) : Mailbox := takeBox (box s 7) l .lkp false

theorem pushPeer_takes {s : State} (hf : s.stat.fwState.get = 2) (hs : s.power.season.get ≠ 2) (hb : (box s 7).busy = false)
    (hp : s.mb.peer = []) {l : Line} {e : CatEntry} (hc : catalogue (opcodeOf l) = some e) (h9 : opcodeOf l ≠ 9) :
    pushPeer s l = { s with mb := { s.mb with
      boxes := s.mb.boxes.set 7 (peerBox s l), waiting := s.mb.waiting ++ [7] } } := by
  have open_ : mailboxesOpen { s with mb.peer := [l] } = true := by
    have hf' : fwRunning { s with mb.peer := [l] } = true := decide_eq_true hf
    rw [mailboxesOpen, hf']
    simpa using hs
  have free : (box { s with mb.peer := [l] } 7).busy = false := hb
  rw [pushPeer, hp, List.nil_append, servePeer]
  dsimp only
  rw [if_pos ⟨open_, by rw [free]; decide⟩, takeCmd_free 7 .lkp false l _ e hc h9 (by exact hb)]
  show { s with mb := { s.mb with peer := [], boxes := _, waiting := _ } } = _
  rw [← hp]
  rfl

/-- What that changes. -/
theorem peer_taken {s t : State} {l : Line}
    (ht : t = { s with mb := { s.mb with boxes := s.mb.boxes.set 7 (peerBox s l), waiting := s.mb.waiting ++ [7] } }) :
    t = { s with mb := t.mb } ∧ OtherBoxes s t 7 ∧ t.mb.waiting = s.mb.waiting ++ [7] ∧ (box t 7).busy = true ∧
      (box t 7).op = BitVec.ofNat 8 (fld l 0 1) ∧ (box t 7).cmd = l := by
  have same : box t 7 = peerBox s l := by
    rw [ht]
    exact box_setBox_same s 7 (peerBox s l)
  refine ⟨by rw [ht], fun m hm => ?_, by rw [ht], by rw [same]; rfl, by rw [same]; rfl, by rw [same]; rfl⟩
  rw [ht]
  exact box_setBox_other s 7 m (peerBox s l) hm

/-- The fields of a claim's command line. -/
theorem fld_claimLine (m : AgreeMsg) (r : Nat) : fld (claimLine m r) 0 1 = 0x20 ∧ fld (claimLine m r) 8 2 = m.cove.toNat ∧
    fld (claimLine m r) 10 1 = m.arg.toNat % 256 ∧ fld (claimLine m r) 12 4 = m.epoch.toNat ∧
    fld (claimLine m r) 16 4 = r % 2 ^ 32 := by
  refine ⟨?_, ?_, ?_, ?_, ?_⟩
  · exact fld_mkLine_head (by decide) (by simp [apart])
  · refine (fld_mkLine_skip (by decide) (by decide)).trans ((fld_mkLine_head (by decide) (by simp [apart])).trans ?_)
    exact Nat.mod_eq_of_lt m.cove.isLt
  · exact (fld_mkLine_skip (by decide) (by decide)).trans ((fld_mkLine_skip (by decide) (by decide)).trans
      (fld_mkLine_head (by decide) (by simp [apart])))
  · refine (fld_mkLine_skip (by decide) (by decide)).trans ((fld_mkLine_skip (by decide) (by decide)).trans
      ((fld_mkLine_skip (by decide) (by decide)).trans ((fld_mkLine_skip (by decide) (by decide)).trans
      ((fld_mkLine_head (by decide) (by simp [apart])).trans ?_))))
    exact Nat.mod_eq_of_lt m.epoch.isLt
  · exact (fld_mkLine_skip (by decide) (by decide)).trans ((fld_mkLine_skip (by decide) (by decide)).trans
      ((fld_mkLine_skip (by decide) (by decide)).trans ((fld_mkLine_skip (by decide) (by decide)).trans
      ((fld_mkLine_skip (by decide) (by decide)).trans (fld_mkLine_head (by decide) (by simp [apart]))))))

theorem fldAt_lt (bs : List Byte) (o n : Nat) : fldAt bs o n < 2 ^ (8 * n) := by
  have cut : ((bs.drop o).take n).length ≤ n := by simp
  calc fldAt bs o n < 256 ^ ((bs.drop o).take n).length := leNat_lt _
    _ ≤ 256 ^ n := Nat.pow_le_pow_right (by decide) cut
    _ = 2 ^ (8 * n) := by rw [show (256 : Nat) = 2 ^ 8 from rfl, ← Nat.pow_mul]

/-- The fields of a rank move's command line. -/
theorem fld_rankMoveLine (m : AgreeMsg) : fld (rankMoveLine m) 0 1 = 0x21 ∧ fld (rankMoveLine m) 8 2 = m.cove.toNat ∧
    fld (rankMoveLine m) 24 4 = fldAt m.body 0 4 ∧ fld (rankMoveLine m) 28 4 = fldAt m.body 4 4 := by
  refine ⟨?_, ?_, ?_, ?_⟩
  · exact fld_mkLine_head (by decide) (by simp [apart])
  · refine (fld_mkLine_skip (by decide) (by decide)).trans ((fld_mkLine_head (by decide) (by simp [apart])).trans ?_)
    exact Nat.mod_eq_of_lt m.cove.isLt
  · refine (fld_mkLine_skip (by decide) (by decide)).trans ((fld_mkLine_skip (by decide) (by decide)).trans
      ((fld_mkLine_skip (by decide) (by decide)).trans ((fld_mkLine_skip (by decide) (by decide)).trans
      ((fld_mkLine_skip (by decide) (by decide)).trans ((fld_mkLine_head (by decide) (by simp [apart])).trans ?_)))))
    exact Nat.mod_eq_of_lt (fldAt_lt _ _ _)
  · refine (fld_mkLine_skip (by decide) (by decide)).trans ((fld_mkLine_skip (by decide) (by decide)).trans
      ((fld_mkLine_skip (by decide) (by decide)).trans ((fld_mkLine_skip (by decide) (by decide)).trans
      ((fld_mkLine_skip (by decide) (by decide)).trans ((fld_mkLine_skip (by decide) (by decide)).trans
      ((fld_mkLine_head (by decide) (by simp [apart])).trans ?_))))))
    exact Nat.mod_eq_of_lt (fldAt_lt _ _ _)

theorem claim_pushed {s : State} {m : AgreeMsg} (r : Nat) (h : OwnJobMessage s m) (hf : s.stat.fwState.get = 2)
    (hb : (box s 7).busy = false) (hp : s.mb.peer = []) : Ends (.claim m r) s fun t =>
      t = { s with mb := t.mb } ∧ OtherBoxes s t 7 ∧ t.mb.waiting = s.mb.waiting ++ [7] ∧ (box t 7).busy = true ∧
      (box t 7).op = 0x20 ∧ fld (box t 7).cmd 8 2 = m.cove.toNat ∧ fld (box t 7).cmd 10 1 = m.arg.toNat % 256 ∧
      fld (box t 7).cmd 12 4 = m.epoch.toNat ∧ fld (box t 7).cmd 16 4 = r % 2 ^ 32 := by
  obtain ⟨hl, hpt, ht, hs, hm⟩ := h
  obtain ⟨hop, hcove, harg, hepoch, hrank⟩ := fld_claimLine m r
  have op : opcodeOf (claimLine m r) = 0x20 := by rw [opcodeOf, hop]
  have takes := pushPeer_takes (l := claimLine m r) hf (by rw [hs]; decide) hb hp (by rw [op]; rfl) (by rw [op]; decide)
  obtain ⟨frame, others, waits, busy, bop, bcmd⟩ := peer_taken rfl (s := s) (l := claimLine m r)
  refine ⟨_, congrArg Host.Outcome.next ((agreeIn_summer hl hpt ht hs hm true _).trans takes), frame, others, waits, busy, ?_⟩
  rw [bop, bcmd, hop]
  exact ⟨rfl, hcove, harg, hepoch, hrank⟩

theorem rankMove_pushed {s : State} {m : AgreeMsg} (h : OwnJobMessage s m) (hf : s.stat.fwState.get = 2)
    (hb : (box s 7).busy = false) (hp : s.mb.peer = []) (hg : planGroup s (m.arg.truncate 16) = none) :
    Ends (.rankMove m) s fun t =>
      t = { s with mb := t.mb } ∧ OtherBoxes s t 7 ∧ t.mb.waiting = s.mb.waiting ++ [7] ∧ (box t 7).busy = true ∧
      (box t 7).op = 0x21 ∧ fld (box t 7).cmd 8 2 = m.cove.toNat ∧ fld (box t 7).cmd 24 4 = fldAt m.body 0 4 ∧
      fld (box t 7).cmd 28 4 = fldAt m.body 4 4 := by
  obtain ⟨hl, hpt, ht, hs, hm⟩ := h
  obtain ⟨hop, hcove, hjr, hrank⟩ := fld_rankMoveLine m
  have op : opcodeOf (rankMoveLine m) = 0x21 := by rw [opcodeOf, hop]
  have takes := pushPeer_takes (l := rankMoveLine m) hf (by rw [hs]; decide) hb hp (by rw [op]; rfl) (by rw [op]; decide)
  obtain ⟨frame, others, waits, busy, bop, bcmd⟩ := peer_taken rfl (s := s) (l := rankMoveLine m)
  have run : exec (.rankMove m) s = .next (pushPeer s (rankMoveLine m)) := by
    refine congrArg Host.Outcome.next ((agreeIn_summer hl hpt ht hs hm true _).trans ?_)
    simp only [hg]
  refine ⟨_, run.trans (congrArg Host.Outcome.next takes), frame, others, waits, busy, ?_⟩
  rw [bop, bcmd, hop]
  exact ⟨rfl, hcove, hjr, hrank⟩

/-! ### CLAIM_ACK at the captain (R254) -/

theorem forEach_prepares (b : U32) (l : List Nat) (t : State) : ∃ xs,
    forEach l (fun u q => sendAgreePos u q 0x22 (epochNow u + 1) b 0 []) t = { t with out := { t.out with lkp := xs } } := by
  refine forEach_keeps (fun u => ∃ xs, u = { t with out := { t.out with lkp := xs } }) l _ t ?_ ⟨_, rfl⟩
  rintro u q ⟨xs, rfl⟩
  exact sendTo_fields ..

/-- A proposal that begins changes agreement and what goes out; the view in force stays. -/
theorem startProposal_fields {s : State} (hp : s.agree.proposal = none) (ha : agreeing s = true) :
    ∃ agree xs, startProposal s = { s with agree := agree, out := { s.out with lkp := xs } } ∧
      agree.proposal.isSome = true ∧ agree.live = s.agree.live ∧ agree.epoch = s.agree.epoch ∧
      agree.wishes = s.agree.wishes := by
  rw [startProposal, if_neg (by simp [hp, ha])]
  exact (forEach_prepares _ _ _).elim fun xs sent => ⟨_, xs, sent, rfl, rfl, rfl, rfl⟩

/-- A claim's answer at the captain that asked for it. -/
theorem claimAckWork_asked {s : State} {m : AgreeMsg} {r pos : Nat} (h : OwnCoveMember s m) (hcap : isCaptain s = true)
    (hb : m.ballot.toNat = pos) (h16 : pos < 16) (hlive : (liveSet s).getLsbD pos = false)
    (hasked : s.recov.asked = some (pos, r)) : claimAckWork m r s =
      if decide (m.arg = 1) then claimNext { s with recov.asked := none }
      else claimNext (wish { s with recov.asked := none } pos 2 r) := by
  have acts := agreeing_of_own h
  obtain ⟨-, -, -, -, -, hc, -⟩ := h
  have own : pos ≠ ownPos s := by
    rintro rfl
    simp only [isCaptain, Bool.and_eq_true] at hcap
    rw [hcap.2] at hlive
    cases hlive
  unfold claimAckWork
  dsimp only
  have steps : ¬(pos = ownPos s ∧ ¬decide (m.arg = 1) = true ∧ s.recov.handover.isNone = true ∧
      (liveSet s).getLsbD pos = true) := fun e => own e.1
  rw [hb, if_neg (by simp [hc, acts, h16]), if_neg steps, if_neg (by simp [hcap]), if_neg (by rw [hlive]; decide)]
  simp only [hasked, decide_true, if_true]

theorem next_claimAck {s : State} {m : AgreeMsg} {r pos : Nat} (h : OwnCoveMember s m) (hcap : isCaptain s = true)
    (hb : m.ballot.toNat = pos) (h16 : pos < 16) (hlive : (liveSet s).getLsbD pos = false)
    (hasked : s.recov.asked = some (pos, r)) : exec (.claimAck m r) s = .next (
      if decide (m.arg = 1) then claimNext { s with recov.asked := none }
      else claimNext (wish { s with recov.asked := none } pos 2 r)) := by
  have h' := h
  obtain ⟨hl, hpt, ht, hs, hm, -⟩ := h'
  exact congrArg Host.Outcome.next ((agreeIn_summer hl hpt ht hs hm true _).trans
    (claimAckWork_asked h hcap hb h16 hlive hasked))

/-- With every lost position wished for, the captain claims no standby. -/
theorem claimNext_wished {s : State} (h : ∀ p ∈ lostPositions s, (s.agree.wishes.any fun w => decide (w.1 = p)) = true) :
    claimNext s = s := by
  have none : ((lostPositions s).find? fun p => !(liveSet s).getLsbD p && !(s.agree.wishes.any fun w => w.1 = p)) = none :=
    List.find?_eq_none.2 fun p hp => by simp [h p hp]
  rw [claimNext]
  split
  · rfl
  · simp only [none]

/-- The captain's next claim, for a position that is lost, not live and not wished for. -/
theorem claimNext_lost {s : State} {pos : Nat} {p : Plan} (hcap : isCaptain s = true) (ha : s.recov.asked = none)
    (hlost : lostPositions s = [pos]) (hlive : (liveSet s).getLsbD pos = false) (hw : s.agree.wishes = [])
    (hp : s.job.plan = some p) : claimNext s =
      match p.standbys[s.recov.tried]? with
      | none =>
        raiseEvent (if recState s = recDeciding ∨ s.recov.rollingBack then s else setRec s recWaitTarget) evWaitTarget
          (BitVec.ofNat 8 pos)
      | some r =>
        sendAs { s with recov.tried := s.recov.tried + 1, recov.asked := some (pos, r) } r 0x2D (ownCoveId s) (epochNow s) 0
          (BitVec.ofNat 32 pos)
          (leBytes 6 (claimTide s) ++ leBytes 2 (liveSet s).toNat ++
            [BitVec.ofNat 8 (Layout.code (covLayout s))] ++ List.replicate 7 0) := by
  have found : ((lostPositions s).find? fun p => !(liveSet s).getLsbD p && !(s.agree.wishes.any fun w => w.1 = p)) = some pos := by
    rw [hlost, hw, List.find?_cons, hlive]
    rfl
  rw [claimNext, if_neg (by simp [hcap, ha])]
  simp only [found, hp] <;> rfl

theorem claimAck_clauses {s : State} {m : AgreeMsg} {r pos : Nat} {p : Plan} (h : OwnCoveMember s m)
    (hcap : isCaptain s = true) (hp : s.job.plan = some p) (hb : m.ballot.toNat = pos) (h16 : pos < 16)
    (hlive : (liveSet s).getLsbD pos = false) (hlost : lostPositions s = [pos])
    (hasked : s.recov.asked = some (pos, r)) (hw : s.agree.wishes = []) (hprop : s.agree.proposal = none) :
    (m.arg = 0 → Ends (.claimAck m r) s fun t =>
      t = { s with agree := t.agree, recov := { s.recov with asked := none }, out := { s.out with lkp := t.out.lkp } } ∧
      t.agree.wishes = [(pos, 2, BitVec.ofNat 32 r)] ∧ t.agree.proposal.isSome = true ∧
      t.agree.live = s.agree.live ∧ t.agree.epoch = s.agree.epoch) ∧
    (∀ r2, m.arg = 1 → p.standbys[s.recov.tried]? = some r2 → s.recov.state.get ≠ 1 →
      Ends (.claimAck m r) s fun t => t = { s with
        recov := { s.recov with asked := some (pos, r2), tried := s.recov.tried + 1 }
        out := { s.out with lkp := s.out.lkp ++ [.store r2 .va .any (.agree 0x2D
          ⟨jobTag s, ownCoveId s, BitVec.ofNat 8 (ownPos s), 0xFF, epochNow s, 0, BitVec.ofNat 32 pos, s.time.gtc,
            leBytes 6 s.recov.tide.toNat ++ leBytes 2 (liveSet s).toNat ++ [BitVec.ofNat 8 (Layout.code (covLayout s))] ++
              List.replicate 7 0⟩)] } }) ∧
    (m.arg = 1 → p.standbys[s.recov.tried]? = none → s.recov.state.get ≠ 1 → s.recov.state.get ≠ 6 → s.recov.rollingBack = false →
      s.ports.mgp = true → Ends (.claimAck m r) s fun t => t = { s with
        recov := { s.recov with asked := none, state := V3.all 3 }
        events := { s.events with
          delivered := s.events.delivered ++ [⟨6, BitVec.ofNat 8 pos, 1, s.time.gtc⟩] } }) := by
  have run := next_claimAck h hcap hb h16 hlive hasked
  have acts := agreeing_of_own h
  have next := claimNext_lost (s := { s with recov.asked := none }) hcap rfl hlost hlive hw hp
  refine ⟨fun h0 => ?_, fun r2 h1 hr2 hst => ?_, fun h1 hr2 hst h6 hrb hm => ?_⟩
  · obtain ⟨agree, xs, begins, some_, live, epoch, wishes⟩ := startProposal_fields
      (s := { s with recov.asked := none, agree.wishes := [(pos, 2, BitVec.ofNat 32 r)] }) hprop acts
    have wished : wish { s with recov.asked := none } pos 2 r =
        { s with agree := agree, recov := { s.recov with asked := none }, out := { s.out with lkp := xs } } := by
      rw [wish, if_neg (by show ¬ (s.agree.wishes.any _) = true; simp [hw])]
      refine Eq.trans ?_ begins
      show startProposal { s with recov := _, agree := { s.agree with wishes := s.agree.wishes ++ _ } } = _
      rw [hw]
      rfl
    rw [if_neg (by rw [h0]; decide), wished, claimNext_wished] at run
    · exact ⟨_, run, rfl, wishes, some_, live, epoch⟩
    · intro q hq
      have : q = pos := by
        have : q ∈ lostPositions s := hq
        rw [hlost] at this
        exact List.mem_singleton.1 this
      show (agree.wishes.any fun w => decide (w.1 = q)) = true
      rw [wishes, this]
      simp
  · dsimp only at next
    rw [hr2] at next
    obtain ⟨hl, -, -, -, -, hc, -⟩ := h
    have own : ownCoveId s = m.cove := by rw [ownCoveId, hc]; rfl
    have decided : ¬ recState { s with recov.asked := none } = recDeciding := hst
    rw [if_pos (decide_eq_true h1), next] at run
    dsimp only at run
    rw [sendAs, sendTo_present (by exact hl), if_pos (by show s.agree.cove = some (ownCoveId s); rw [hc, own]), claimTide,
      if_neg decided] at run
    exact ⟨_, run, rfl⟩
  · dsimp only at next
    rw [hr2] at next
    have calm : ¬(recState { s with recov.asked := none } = recDeciding ∨ s.recov.rollingBack = true) := by
      rintro (e | e)
      · exact hst e
      · rw [hrb] at e
        cases e
    rw [if_pos (decide_eq_true h1), next] at run
    dsimp only at run
    rw [if_neg calm, setRec_quiet (by exact h6) (by decide), raiseEvent_present _ _ _ (by exact hm)] at run
    exact ⟨_, run, rfl⟩

/-! ### The agreement unit takes the answer of a peer command (R402) -/

theorem servePeer_none {s : State} (h : s.mb.peer = []) : servePeer s = s := by rw [servePeer, h]

theorem respond_peer {u : State} (hf : fwRunning u = true) (status detail : Nat) :
    respond u 7 status detail [] = { u with mb := (respond u 7 status detail []).mb } := by
  have only := onlyBox_respond hf 7 status detail []
  obtain ⟨events, ovf⟩ := only.quiet (by decide)
  have hmb : (respond u 7 status detail []).mb = { u.mb with boxes := (respond u 7 status detail []).mb.boxes } :=
    congrArg State.mb only.frame
  conv_lhs => rw [only.frame, events, ovf]
  rw [hmb]

theorem sendClaimAck_reboxed (u : State) (m : MailboxS) (rank : Nat) (cove : U16) (epoch : U32) (pos : Nat) (refused : Bool) :
    sendClaimAck { u with mb := m } rank cove epoch pos refused = { sendClaimAck u rank cove epoch pos refused with mb := m } := by
  unfold sendClaimAck sendTo
  by_cases h : u.ports.lkp = true
  · rw [if_pos (by exact h), if_pos h]
    rfl
  · rw [if_neg (by exact h), if_neg h]

/-- A peer command is answered: the answer is taken, and a claim's goes to its captain (R254, R402). -/
theorem peerDone_answers {s u : State} {cmd : Line} {priv : Bool} (hf : fwRunning u = true)
    (hb : box u 7 = takeBox (box s 7) cmd .lkp priv) (hp : u.mb.peer = []) {status detail : Nat} (hs : status < 256) {t : State}
    (ht : t = peerDone (respond u 7 status detail [])) :
    (box t 7).busy = false ∧ (box t 7).done = false ∧ (box t 7).code.toNat = status ∧
      (box t 7).count = (box s 7).count + 1 ∧ (∀ m, m ≠ 7 → box t m = box u m) ∧
      t = { (if fld cmd 0 1 % 128 = 0x20 then sendClaimAck u (fld cmd 16 4) (BitVec.ofNat 16 (fld cmd 8 2))
        (BitVec.ofNat 32 (fld cmd 12 4)) (fld cmd 10 1) (decide (BitVec.ofNat 8 status ≠ 0)) else u) with mb := t.mb } := by
  obtain ⟨v, hv⟩ : ∃ v, v = respond u 7 status detail [] := ⟨_, rfl⟩
  have frame : v = { u with mb := v.mb } := hv ▸ respond_peer hf status detail
  have others := (onlyBox_respond hf 7 status detail []).others
  have hbox : box v 7 = answered (u.ctrl.compatA.get = 1) (takeBox (box s 7) cmd .lkp priv) status detail [] := by
    rw [hv, respond_box_same u 7 status detail [] hf, hb]
  have op : (box v 7).op.toNat % 128 = fld cmd 0 1 % 128 := by
    rw [hbox]
    exact congrArg (· % 128) (toNat_ofNat_of_lt (fld_lt cmd 0 1))
  have hcmd : (box v 7).cmd = cmd := by rw [hbox]; rfl
  have hcode : (box v 7).code = BitVec.ofNat 8 status := by rw [hbox]; rfl
  obtain ⟨w, hw⟩ : ∃ w, w = setBox v 7 { box v 7 with done := false } := ⟨_, rfl⟩
  have wframe : w = { u with mb := w.mb } := by
    rw [hw]
    conv_lhs => rw [frame]
    rfl
  have wpeer : w.mb.peer = [] := by
    rw [hw]
    show v.mb.peer = []
    rw [hv, (onlyBox_respond hf 7 status detail []).frame]
    exact hp
  have done : peerDone v = servePeer (if fld cmd 0 1 % 128 = 0x20 then
      sendClaimAck w (fld cmd 16 4) (BitVec.ofNat 16 (fld cmd 8 2)) (BitVec.ofNat 32 (fld cmd 12 4)) (fld cmd 10 1)
        (decide (BitVec.ofNat 8 status ≠ 0)) else w) := by
    have finished : (box v 7).done = true ∧ ¬ (box v 7).busy = true := by
      rw [hbox]
      exact ⟨rfl, Bool.false_ne_true⟩
    rw [peerDone]
    refine (if_pos finished).trans ?_
    dsimp only
    rw [op, hcode, hcmd, hw]
    dsimp only
    rw [hcode, hcmd]
  have same : box w 7 = { box v 7 with done := false } := by rw [hw]; exact box_setBox_same ..
  have kept : t.mb = w.mb ∧ t = { (if fld cmd 0 1 % 128 = 0x20 then sendClaimAck u (fld cmd 16 4)
      (BitVec.ofNat 16 (fld cmd 8 2)) (BitVec.ofNat 32 (fld cmd 12 4)) (fld cmd 10 1)
      (decide (BitVec.ofNat 8 status ≠ 0)) else u) with mb := w.mb } := by
    rw [ht, ← hv, done]
    split
    · have sent := sendClaimAck_reboxed u w.mb (fld cmd 16 4) (BitVec.ofNat 16 (fld cmd 8 2)) (BitVec.ofNat 32 (fld cmd 12 4))
        (fld cmd 10 1) (decide (BitVec.ofNat 8 status ≠ 0))
      rw [← wframe] at sent
      rw [sent, servePeer_none (by exact wpeer)]
      exact ⟨rfl, rfl⟩
    · rw [servePeer_none wpeer]
      exact ⟨rfl, wframe⟩
  obtain ⟨hmb, whole⟩ := kept
  have boxes : ∀ m, box t m = box w m := fun m => congrArg (fun x : MailboxS => x.boxes.get m) hmb
  refine ⟨?_, ?_, ?_, ?_, fun m hm => ?_, by rw [hmb]; exact whole⟩
  · rw [boxes, same, hbox]
    rfl
  · rw [boxes, same]
  · rw [boxes, same, hbox]
    exact toNat_ofNat_of_lt hs
  · rw [boxes, same, hbox]
    rfl
  · rw [boxes, hw, box_setBox_other _ _ _ _ hm, hv]
    exact others m hm

/-! ### The regions of a position taken (R256, R401) -/

/-- Fitting a region changes the tiers alone. -/
theorem fitRegion_tier (p : Plan) (move : Region → Region) (f : Fitting) (block : Line) :
    ∃ tier, (fitRegion p move f block).state = { f.state with tier := tier } := by
  by_cases hd : declared f.state (move (regionOf block))
  · rw [fitRegion_declared hd]
    exact ⟨_, rfl⟩
  · cases hf : regionFieldFault f.state p (fld block 9 1) (move (regionOf block)) with
    | some o =>
      rw [fitRegion_faulty hd hf]
      exact ⟨_, rfl⟩
    | none =>
      cases hh : homeFault f.state p (withNear f.state (move (regionOf block))) with
      | some o =>
        rw [fitRegion_homeless hd hf hh]
        exact ⟨_, rfl⟩
      | none =>
        cases hs : regionShortfall f.state (withNear f.state (move (regionOf block))) with
        | some o =>
          rw [fitRegion_short hd hf hh hs]
          exact ⟨_, rfl⟩
        | none =>
          rw [fitRegion_whole hd hf hh hs]
          exact ⟨_, rfl⟩

theorem foldl_fitRegion_tier (p : Plan) (move : Region → Region) : ∀ (blocks : List Line) (f : Fitting),
    ∃ tier, (blocks.foldl (fitRegion p move) f).state = { f.state with tier := tier }
  | [], f => ⟨f.state.tier, rfl⟩
  | b :: t, f => by
    obtain ⟨tier, first⟩ := fitRegion_tier p move f b
    obtain ⟨tier', rest⟩ := foldl_fitRegion_tier p move t (fitRegion p move f b)
    exact ⟨tier', rest.trans (by rw [first])⟩

/-- Where the fitting of a lost rank's regions begins. -/
def takeFit (s : State) (p : Plan) (q : Quotas) : Fitting :=
  { state := { s with tier.quotas := q }, bad := windowFault p s.tier.regions q, short := [] }

/-- The quotas that a standby takes over for a rank. -/
def takeQuotas (s : State) (p : Plan) (r : Nat) : Quotas :=
  takenQuotas s.tier.quotas (rebaseQuotas (rangesOf p r) (rangesOf p (ownRank s)) ((find r p.quotas).getD s.tier.quotas))

/-- What the taking of regions comes to. -/
def takeOutcome (s : State) (c : CovePlan) (q : Quotas) (f : Fitting) : (Nat × Nat) ⊕ State :=
  match f.bad with
  | some o => .inl (stBadArg, o)
  | none =>
    match (f.short ++ windowShort c f.state.tier.regions s.tier.quotas q).min? with
    | some o => .inl (stResource, o)
    | none => .inr f.state

theorem takeRegions_outcome (s : State) (p : Plan) (c : CovePlan) (pos : Nat) : takeRegions s p c pos =
    takeOutcome s c (takeQuotas s p (c.members.getD pos 0))
      (((p.profiles.filter fun f => f.rank = c.members.getD pos 0 ∧ f.op = 6).map Profile.block).foldl
        (fitRegion p (rebaseRegion (rangesOf p (c.members.getD pos 0)) (rangesOf p (ownRank s))))
        (takeFit s p (takeQuotas s p (c.members.getD pos 0)))) := rfl

theorem takeOutcome_inr {s u : State} {c : CovePlan} {q : Quotas} {f : Fitting} (h : takeOutcome s c q f = .inr u) :
    f.bad = none ∧ (f.short ++ windowShort c f.state.tier.regions s.tier.quotas q).min? = none ∧ u = f.state := by
  unfold takeOutcome at h
  split at h
  · cases h
  · next hb =>
    split at h
    · cases h
    · next hm => exact ⟨hb, hm, (Sum.inr.inj h).symm⟩

theorem takeOutcome_fits {s : State} {c : CovePlan} {q : Quotas} {f : Fitting} (hb : f.bad = none)
    (hm : (f.short ++ windowShort c f.state.tier.regions s.tier.quotas q).min? = none) : takeOutcome s c q f = .inr f.state := by
  rw [takeOutcome, hb]
  dsimp only
  rw [hm]

/-- A standby takes the same tiers whatever its mailboxes hold, and nothing else changes. -/
theorem takeRegions_reboxed {s u : State} {p : Plan} {c : CovePlan} {pos : Nat} (m : MailboxS)
    (h : takeRegions s p c pos = .inr u) :
    takeRegions { s with mb := m } p c pos = .inr { s with mb := m, tier := u.tier } := by
  rw [takeRegions_outcome] at h ⊢
  obtain ⟨hb, hm, hu⟩ := takeOutcome_inr h
  have start : SameFit (takeFit s p (takeQuotas s p (c.members.getD pos 0)))
    (takeFit { s with mb := m } p (takeQuotas s p (c.members.getD pos 0))) := ⟨⟨m, rfl⟩, rfl, rfl⟩
  have same := SameFit.foldl (p := p) (move := rebaseRegion (rangesOf p (c.members.getD pos 0)) (rangesOf p (ownRank s)))
    ((p.profiles.filter fun f => f.rank = c.members.getD pos 0 ∧ f.op = 6).map Profile.block) start
  obtain ⟨tier, other⟩ := foldl_fitRegion_tier p
    (rebaseRegion (rangesOf p (c.members.getD pos 0)) (rangesOf p (ownRank s)))
    ((p.profiles.filter fun f => f.rank = c.members.getD pos 0 ∧ f.op = 6).map Profile.block)
    (takeFit { s with mb := m } p (takeQuotas s p (c.members.getD pos 0)))
  obtain ⟨g, hg⟩ : ∃ g, g = ((p.profiles.filter fun f => f.rank = c.members.getD pos 0 ∧ f.op = 6).map Profile.block).foldl
    (fitRegion p (rebaseRegion (rangesOf p (c.members.getD pos 0)) (rangesOf p (ownRank s))))
    (takeFit { s with mb := m } p (takeQuotas s p (c.members.getD pos 0))) := ⟨_, rfl⟩
  rw [← hg] at same other
  have tiers : g.state.tier = u.tier := by
    obtain ⟨⟨m', hm'⟩, -, -⟩ := same
    rw [hm', hu]
  have fits := takeOutcome_fits (s := { s with mb := m }) (c := c) (q := takeQuotas s p (c.members.getD pos 0)) (f := g)
    (same.bad.trans hb) (by rw [same.short, same.regions]; exact hm)
  have placed : g.state = { s with mb := m, tier := u.tier } := by
    rw [← tiers, other]
    rfl
  rw [placed, hg] at fits
  exact fits

/-! ### The peer claim (R253, R254) -/

theorem next_peerClaim {s : State} {priv : Bool} {cmd : Line} (h : Handled s 7 priv 0x20 cmd) :
    exec (.peerClaim (.issue 7 .lkp priv cmd)) s =
      .next (peerDone (claimWork 7 (takenCmd 7 priv cmd) (took s 7 priv cmd))) :=
  congrArg (fun t => Host.Outcome.next (peerDone t)) (mailboxState_handled claimWork h (by rfl))

/-- The grant that a claim asks for. -/
abbrev freshGrant (s : State) (cmd : Line) : Grant :=
  { cove := BitVec.ofNat 16 (fld cmd 8 2), position := fld cmd 10 1, epoch := BitVec.ofNat 32 (fld cmd 12 4)
    live := BitVec.ofNat 16 (fld cmd 30 2), captainRank := fld cmd 16 4, share := s.recov.share, handover := false
    restored := BitVec.ofNat 48 (fld cmd 24 6) }

theorem claimWork_unqualified {s : State} {priv : Bool} {cmd : Line} {p : Plan} {c : CovePlan} (hg : s.recov.grant = none)
    (hp : s.job.plan = some p) (hc : planCove p (BitVec.ofNat 16 (fld cmd 8 2)) = some c)
    (hpos : fld cmd 10 1 < Layout.n c.layout)
    (hq : qualifies s (BitVec.ofNat 16 (fld cmd 8 2)) (fld cmd 10 1) (BitVec.ofNat 16 (fld cmd 30 2)) = false) :
    claimWork 7 (takenCmd 7 priv cmd) s = wrongState s 7 := by
  simp only [claimWork, hg, hp, hc]
  rw [if_neg (by omega), if_pos (by rw [hq]; decide)]

theorem claimWork_granted {s u : State} {priv : Bool} {cmd : Line} {p : Plan} {c : CovePlan} (hg : s.recov.grant = none)
    (hp : s.job.plan = some p) (hc : planCove p (BitVec.ofNat 16 (fld cmd 8 2)) = some c)
    (hpos : fld cmd 10 1 < Layout.n c.layout)
    (hq : qualifies s (BitVec.ofNat 16 (fld cmd 8 2)) (fld cmd 10 1) (BitVec.ofNat 16 (fld cmd 30 2)) = true)
    (ht : takeRegions s p c (fld cmd 10 1) = .inr u) : claimWork 7 (takenCmd 7 priv cmd) s =
      respondOk { u with recov.grant := some (freshGrant s cmd) } 7 := by
  simp only [claimWork, hg, hp, hc]
  rw [if_neg (by omega), if_neg (by rw [hq]; decide), ht]

theorem claimWork_again {s : State} {priv : Bool} {cmd : Line} {g : Grant} (hg : s.recov.grant = some g)
    (hc : g.cove = BitVec.ofNat 16 (fld cmd 8 2)) (hpos : g.position = fld cmd 10 1)
    (he : g.epoch = BitVec.ofNat 32 (fld cmd 12 4)) (hh : g.handover = false) :
    claimWork 7 (takenCmd 7 priv cmd) s = respondOk s 7 := by
  simp only [claimWork, hg]
  rw [if_neg (by simp [hh]), if_pos ⟨hc, hpos, he⟩]

/-- The answer of a claim goes out to the captain that sent it. -/
theorem sendClaimAck_store {u : State} (hl : u.ports.lkp = true) (cmd : Line) (refused : Bool) :
    sendClaimAck u (fld cmd 16 4) (BitVec.ofNat 16 (fld cmd 8 2)) (BitVec.ofNat 32 (fld cmd 12 4)) (fld cmd 10 1) refused =
      appendOut u [claimAckStore u (fld cmd 16 4) (BitVec.ofNat 16 (fld cmd 8 2)) (fld cmd 12 4) (fld cmd 10 1)
        (if refused then 1 else 0)] := by
  cases refused with
  | true => exact sendTo_present hl ..
  | false => exact sendTo_present hl ..

theorem took_peer {s : State} {priv : Bool} {cmd : Line} (hp : s.mb.peer = []) : (took s 7 priv cmd).mb.peer = [] := hp

theorem claimOp {s : State} {priv : Bool} {cmd : Line} {op : Nat} (h : Handled s 7 priv op cmd) : fld cmd 0 1 % 128 = op := h.1.1

theorem ofNat_eq_of_toNat {w : Nat} {x : BitVec w} {n : Nat} (h : x.toNat = n) : x = BitVec.ofNat w n := by
  rw [← h, BitVec.ofNat_toNat, BitVec.setWidth_eq]

theorem peerClaim_clauses {s : State} {priv : Bool} {cmd : Line} {p : Plan} {c : CovePlan} (h : Handled s 7 priv 0x20 cmd)
    (hpeer : s.mb.peer = []) (hl : s.ports.lkp = true) (hp : s.job.plan = some p)
    (hc : planCove p (BitVec.ofNat 16 (fld cmd 8 2)) = some c) (hpos : fld cmd 10 1 < Layout.n c.layout) :
    (s.recov.grant = none →
      qualifies s (BitVec.ofNat 16 (fld cmd 8 2)) (fld cmd 10 1) (BitVec.ofNat 16 (fld cmd 30 2)) = false →
      Ends (.peerClaim (.issue 7 .lkp priv cmd)) s fun t =>
        (box t 7).busy = false ∧ (box t 7).done = false ∧ (box t 7).code = 0x12 ∧
        t = { s with mb := t.mb, out := { s.out with lkp := s.out.lkp ++ [claimAckStore s (fld cmd 16 4)
          (BitVec.ofNat 16 (fld cmd 8 2)) (fld cmd 12 4) (fld cmd 10 1) 1] } }) ∧
    (∀ u, s.recov.grant = none →
      qualifies s (BitVec.ofNat 16 (fld cmd 8 2)) (fld cmd 10 1) (BitVec.ofNat 16 (fld cmd 30 2)) = true →
      takeRegions s p c (fld cmd 10 1) = .inr u →
      Ends (.peerClaim (.issue 7 .lkp priv cmd)) s fun t =>
        (box t 7).busy = false ∧ (box t 7).done = false ∧ (box t 7).code = 0 ∧
        t = { s with
          mb := t.mb, tier := u.tier, recov := { s.recov with grant := t.recov.grant }
          out := { s.out with lkp := s.out.lkp ++ [claimAckStore s (fld cmd 16 4) (BitVec.ofNat 16 (fld cmd 8 2))
            (fld cmd 12 4) (fld cmd 10 1) 0] } } ∧
        ∃ g, t.recov.grant = some g ∧ g.cove.toNat = fld cmd 8 2 ∧ g.position = fld cmd 10 1 ∧
          g.captainRank = fld cmd 16 4 ∧ g.live.toNat = fld cmd 30 2 ∧ g.handover = false) ∧
    (∀ g, s.recov.grant = some g → g.cove.toNat = fld cmd 8 2 → g.position = fld cmd 10 1 →
      g.epoch.toNat = fld cmd 12 4 → g.handover = false → Ends (.peerClaim (.issue 7 .lkp priv cmd)) s fun t =>
        (box t 7).code = 0 ∧ t = { s with mb := t.mb, out := { s.out with lkp := s.out.lkp ++ [claimAckStore s (fld cmd 16 4)
          (BitVec.ofNat 16 (fld cmd 8 2)) (fld cmd 12 4) (fld cmd 10 1) 0] } }) := by
  have run := next_peerClaim h
  have op := claimOp h
  have running := fwRunning_of_handled h
  have taken : box (took s 7 priv cmd) 7 = takeBox (box s 7) cmd .lkp priv := box_took s 7 priv cmd
  refine ⟨fun hg hq => ?_, fun u hg hq ht => ?_, fun g hg hgc hgp hge hh => ?_⟩
  · rw [claimWork_unqualified (s := took s 7 priv cmd) hg hp hc hpos hq] at run
    obtain ⟨busy, done, code, -, -, frame⟩ := peerDone_answers (u := took s 7 priv cmd) (by exact running) taken
      (took_peer hpeer) (status := stWrongState)
      (detail := (took s 7 priv cmd).job.state.toNat + 256 * (phaseNow (took s 7 priv cmd)).toNat) (by decide) rfl
    rw [if_pos op, sendClaimAck_store (by exact hl)] at frame
    exact ⟨_, run, busy, done, ofNat_eq_of_toNat code, frame⟩
  · have takes := takeRegions_reboxed (took s 7 priv cmd).mb ht
    rw [claimWork_granted (s := took s 7 priv cmd) hg hp hc hpos hq takes] at run
    obtain ⟨t, hteq⟩ : ∃ t, t = peerDone (respond { s with
      mb := (took s 7 priv cmd).mb, tier := u.tier
      recov := { s.recov with grant := some (freshGrant s cmd) } } 7 stOk 0 []) := ⟨_, rfl⟩
    obtain ⟨busy, done, code, -, -, frame⟩ := peerDone_answers (s := s) (cmd := cmd) (priv := priv)
      (by exact running) (by exact taken) (by exact took_peer hpeer) (by decide) hteq
    rw [if_pos op, sendClaimAck_store (by exact hl)] at frame
    have run' : exec (.peerClaim (.issue 7 .lkp priv cmd)) s = .next t := by rw [hteq]; exact run
    have grant : t.recov.grant = some (freshGrant s cmd) := congrArg (fun x : State => x.recov.grant) frame
    refine ⟨t, run', busy, done, ofNat_eq_of_toNat code, ?_, freshGrant s cmd, grant, ?_, rfl, rfl, ?_, rfl⟩
    · rw [grant]
      exact frame
    · exact toNat_ofNat_of_lt (fld_lt cmd 8 2)
    · exact toNat_ofNat_of_lt (fld_lt cmd 30 2)
  · rw [claimWork_again (s := took s 7 priv cmd) hg (ofNat_eq_of_toNat hgc) hgp (ofNat_eq_of_toNat hge) hh] at run
    obtain ⟨-, -, code, -, -, frame⟩ := peerDone_answers (u := took s 7 priv cmd) (by exact running) taken
      (took_peer hpeer) (status := stOk) (detail := 0) (by decide) rfl
    rw [if_pos op, sendClaimAck_store (by exact hl)] at frame
    exact ⟨_, run, ofNat_eq_of_toNat code, frame⟩

/-! ### The peer rank move (R256) -/

theorem next_peerRankMove {s : State} {priv : Bool} {cmd : Line} (h : Handled s 7 priv 0x21 cmd) :
    exec (.peerRankMove (.issue 7 .lkp priv cmd)) s = .next (peerDone (
      match s.job.plan with
      | none => wrongState (took s 7 priv cmd) 7
      | some p => match jobPlace p.coves (fld cmd 24 4) with
        | some (c, i) => respondOk (noteMove (took s 7 priv cmd) c i (fld cmd 28 4)) 7
        | none => badArg (took s 7 priv cmd) 7 24)) :=
  congrArg (fun t => Host.Outcome.next (peerDone t)) (mailboxState_handled (fun mb t s =>
    match s.job.plan with
    | none => wrongState s mb
    | some p => match jobPlace p.coves (fld t.cmd 24 4) with
      | some (c, i) => respondOk (noteMove s c i (fld t.cmd 28 4)) mb
      | none => badArg s mb 24) h (by rfl))

/-- Another cove's position is held by another die from now on. -/
theorem noteMove_other {s : State} {p : Plan} {c : U16} {i r : Nat} (hp : s.job.plan = some p) (hc : s.agree.cove ≠ some c)
    (hr : s.job.rankChanges = []) : noteMove s c i r = { s with
      job := { s.job with rankChanges := [(jobRank p c i, r)] }
      agree := { s.agree with
        moved := s.agree.moved.filter (fun m => !decide (m.1 = c ∧ m.2.1 = i)) ++ [(c, i, r)] } } := by
  simp only [noteMove, hp, hr]
  rw [if_neg hc]
  rfl

theorem find_moved (l : List (U16 × Nat × Nat)) (c : U16) (i r : Nat) :
    (l.filter (fun m => !decide (m.1 = c ∧ m.2.1 = i)) ++ [(c, i, r)]).find? (fun m => decide (m.1 = c ∧ m.2.1 = i)) =
      some (c, i, r) := by
  have gone : (l.filter fun m => !decide (m.1 = c ∧ m.2.1 = i)).find? (fun m => decide (m.1 = c ∧ m.2.1 = i)) = none :=
    List.find?_eq_none.2 fun m hm => by simpa [imp_iff_not_or] using (List.mem_filter.1 hm).2
  rw [List.find?_append, gone]
  simp

theorem peerRankMove_maps {s : State} {priv : Bool} {cmd : Line} {p : Plan} {c : U16} {i : Nat}
    (h : Handled s 7 priv 0x21 cmd) (hpeer : s.mb.peer = []) (hp : s.job.plan = some p)
    (hj : jobPlace p.coves (fld cmd 24 4) = some (c, i)) (hc : s.agree.cove ≠ some c) (hr : s.job.rankChanges = []) :
    Ends (.peerRankMove (.issue 7 .lkp priv cmd)) s fun t =>
      (box t 7).busy = false ∧ (box t 7).done = false ∧ (box t 7).code = 0 ∧ (box t 7).count = (box s 7).count + 1 ∧
      OtherBoxes s t 7 ∧ t.job = { s.job with rankChanges := [(jobRank p c i, fld cmd 28 4)] } ∧
      rankAt t c i = fld cmd 28 4 ∧ t = { s with mb := t.mb, job := t.job, agree := { s.agree with moved := t.agree.moved } } := by
  have run := next_peerRankMove h
  have running := fwRunning_of_handled h
  have op := claimOp h
  rw [hp] at run
  dsimp only at run
  rw [hj] at run
  dsimp only at run
  rw [noteMove_other (s := took s 7 priv cmd) hp hc hr] at run
  obtain ⟨t, ht⟩ : ∃ t, t = peerDone (respond { took s 7 priv cmd with
    job := { s.job with rankChanges := [(jobRank p c i, fld cmd 28 4)] }
    agree := { s.agree with
      moved := s.agree.moved.filter (fun m => !decide (m.1 = c ∧ m.2.1 = i)) ++ [(c, i, fld cmd 28 4)] } } 7 stOk 0 []) :=
    ⟨_, rfl⟩
  obtain ⟨busy, done, code, count, others, frame⟩ := peerDone_answers (s := s) (cmd := cmd) (priv := priv)
    (by exact running) (by exact box_took s 7 priv cmd) (by exact took_peer hpeer) (by decide) ht
  rw [if_neg (by rw [op]; decide)] at frame
  have run' : exec (.peerRankMove (.issue 7 .lkp priv cmd)) s = .next t := by rw [ht]; exact run
  have hjob : t.job = { s.job with rankChanges := [(jobRank p c i, fld cmd 28 4)] } := congrArg State.job frame
  have hagree : t.agree = { s.agree with
      moved := s.agree.moved.filter (fun m => !decide (m.1 = c ∧ m.2.1 = i)) ++ [(c, i, fld cmd 28 4)] } :=
    congrArg State.agree frame
  refine ⟨t, run', busy, done, ofNat_eq_of_toNat code, count,
    fun m hm => (others m hm).trans (otherBoxes_took s 7 priv cmd m hm), hjob, ?_, ?_⟩
  · have other : ¬(t.agree.cove = some c ∧ i < t.agree.posRank.length) := by
      rw [hagree]
      exact fun e => hc e.1
    rw [rankAt, if_neg other, hagree]
    dsimp only
    rw [find_moved]
  · rw [hjob, hagree]
    exact frame

/-! ### REBUILD_START (R255) -/

/-- What REBUILD_START does, in the state that has taken it. -/
def rebuildWork (mb : Fin 8) (t : TakenCmd) (s : State) : State :=
  let mode := fld t.cmd 8 1
  let share := fld t.cmd 9 1
  let cove : U16 := BitVec.ofNat 16 (fld t.cmd 10 2)
  let pos := fld t.cmd 12 1
  if 1 < mode then badArg s mb 8
  else if share = 0 ∨ 8 < share then badArg s mb 9
  else match s.job.plan with
    | none => wrongState s mb
    | some p => match planCove p cove with
      | none => badArg s mb 10
      | some c =>
        if Layout.n c.layout ≤ pos then badArg s mb 12
        else if 8 < share + c.share then badArg s mb 9
        else match s.recov.ask with
          | some a => busyWith s mb (some a.mailbox)
          | none =>
            if s.recov.mailbox.isSome then busyWith s mb s.recov.mailbox
            else if s.agree.cove.isSome ∨ s.job.state ≠ 2 then badArg s mb 12
            else match s.recov.grant with
              | some g =>
                if g.cove = cove ∧ g.position = pos then
                  decideRebuild s mb cove pos share (decide (mode = 1)) g.live g.epoch g.restored
                else wrongState s mb
              | none =>
                let ranks := (List.range c.members.length).map fun q => rankAt s cove q
                let a : RebuildAsk := { mailbox := mb, cove := cove, position := pos, share := share,
                                        handover := decide (mode = 1), asked := ranks, answers := [] }
                forEach ranks (fun u r => sendProbe u r .rebuildView) { s with recov.ask := some a }

theorem next_rebuildStart {s : State} {mb : Fin 8} {priv : Bool} {cmd : Line} (h : Handled s mb priv 0x12 cmd) :
    exec (.rebuildStart (.issue mb (portOf mb) priv cmd)) s =
      .next (rebuildWork mb (takenCmd mb priv cmd) (took s mb priv cmd)) :=
  exec_handled rebuildWork h (by rfl)

/-- What is kept of a REBUILD_START while the cove's members are asked for their view. -/
abbrev rebuildAsk (s : State) (mb : Fin 8) (cmd : Line) (c : CovePlan) : RebuildAsk :=
  { mailbox := mb, cove := BitVec.ofNat 16 (fld cmd 10 2), position := fld cmd 12 1, share := fld cmd 9 1, handover := false
    asked := (List.range c.members.length).map fun q => rankAt s (BitVec.ofNat 16 (fld cmd 10 2)) q
    answers := [] }

/-- A REBUILD_START for a whole rebuild whose fields and state allow it. -/
theorem rebuildWork_free {s : State} {mb : Fin 8} {priv : Bool} {cmd : Line} {p : Plan} {c : CovePlan}
    (h8 : fld cmd 8 1 = 0) (hp : s.job.plan = some p) (hc : planCove p (BitVec.ofNat 16 (fld cmd 10 2)) = some c)
    (h9 : 1 ≤ fld cmd 9 1) (hsh : fld cmd 9 1 + c.share ≤ 8) (h12 : fld cmd 12 1 < Layout.n c.layout)
    (hask : s.recov.ask = none) (hmb : s.recov.mailbox = none) (hcove : s.agree.cove = none) (hst : s.job.state = 2) :
    rebuildWork mb (takenCmd mb priv cmd) s =
      match s.recov.grant with
      | some g =>
        if g.cove = BitVec.ofNat 16 (fld cmd 10 2) ∧ g.position = fld cmd 12 1 then
          decideRebuild s mb (BitVec.ofNat 16 (fld cmd 10 2)) (fld cmd 12 1) (fld cmd 9 1) false g.live g.epoch g.restored
        else wrongState s mb
      | none =>
        forEach ((List.range c.members.length).map fun q => rankAt s (BitVec.ofNat 16 (fld cmd 10 2)) q)
          (fun u r => sendProbe u r .rebuildView) { s with recov.ask := some (rebuildAsk s mb cmd c) } := by
  have mode : decide (fld cmd 8 1 = 1) = false := decide_eq_false (by omega)
  simp only [rebuildWork, hp, hc, hask, mode]
  rw [if_neg (by omega), if_neg (by omega), if_neg (by omega), if_neg (by omega), if_neg (by simp [hmb]),
    if_neg (by simp [hcove, hst])]

/-- Probes of several dies go out one after another. -/
theorem forEach_sendProbe (why : ProbeWhy) : ∀ (l : List Nat) {s : State}, s.ports.lkp = true → ∃ cnt,
    forEach l (fun u r => sendProbe u r why) s = appendOut { s with
      cnt := cnt, agree.probes := s.agree.probes ++ l.map fun r => (r, why) } (l.map .probe)
  | [], s, _ => ⟨s.cnt, by simp [forEach, appendOut]⟩
  | r :: t, s, hl => by
    have first : sendProbe s r why = { s with
        out := { s.out with lkp := s.out.lkp ++ [.probe r] }
        agree := { s.agree with probes := s.agree.probes ++ [(r, why)] }
        cnt := s.cnt.set 20 (s.cnt.get 20 + 1) } := if_pos hl
    obtain ⟨cnt, rest⟩ := forEach_sendProbe why t (s := sendProbe s r why) (by rw [first]; exact hl)
    refine ⟨cnt, rest.trans ?_⟩
    rw [first]
    simp [appendOut]

theorem rebuildStart_probes {s : State} {mb : Fin 8} {priv : Bool} {cmd : Line} {p : Plan} {c : CovePlan}
    (h : Handled s mb priv 0x12 cmd) (h8 : fld cmd 8 1 = 0) (hp : s.job.plan = some p)
    (hc : planCove p (BitVec.ofNat 16 (fld cmd 10 2)) = some c) (h9 : 1 ≤ fld cmd 9 1) (hsh : fld cmd 9 1 + c.share ≤ 8)
    (h12 : fld cmd 12 1 < Layout.n c.layout) (hask : s.recov.ask = none) (hmb : s.recov.mailbox = none)
    (hcove : s.agree.cove = none) (hst : s.job.state = 2) (hl : s.ports.lkp = true) (hg : s.recov.grant = none) :
    Ends (.rebuildStart (.issue mb (portOf mb) priv cmd)) s fun t =>
      (box t mb).busy = true ∧ (box t mb).rsp = (box s mb).rsp ∧
      t = { s with
        mb := t.mb, agree := { s.agree with probes := t.agree.probes }, recov := { s.recov with ask := t.recov.ask }
        out := { s.out with lkp := s.out.lkp ++ (List.range c.members.length).map (fun q =>
          .probe (rankAt s (BitVec.ofNat 16 (fld cmd 10 2)) q)) }
        cnt := t.cnt } ∧ t.recov.ask.isSome = true := by
  have run := next_rebuildStart h
  rw [rebuildWork_free (s := took s mb priv cmd) h8 hp hc h9 hsh h12 hask hmb hcove hst,
    show (took s mb priv cmd).recov.grant = none from hg] at run
  dsimp only at run
  obtain ⟨u, hu⟩ : ∃ u : State, u =
    { took s mb priv cmd with recov.ask := some (rebuildAsk (took s mb priv cmd) mb cmd c) } := ⟨_, rfl⟩
  obtain ⟨cnt, sent⟩ := forEach_sendProbe .rebuildView ((List.range c.members.length).map fun q =>
    rankAt (took s mb priv cmd) (BitVec.ofNat 16 (fld cmd 10 2)) q) (s := u) (by rw [hu]; exact hl)
  have dies : (((List.range c.members.length).map fun q => rankAt (took s mb priv cmd) (BitVec.ofNat 16 (fld cmd 10 2)) q).map
      LkpOut.probe) = (List.range c.members.length).map fun q => .probe (rankAt s (BitVec.ofNat 16 (fld cmd 10 2)) q) :=
    List.map_map
  rw [← hu, sent, dies, hu] at run
  have taken := box_took s mb priv cmd
  refine ⟨_, run, ?_, ?_, rfl, rfl⟩
  · exact (congrArg Mailbox.busy taken :)
  · exact (congrArg Mailbox.rsp taken :)

/-- A standby that holds a CLAIM takes its position. -/
theorem rebuildStart_takes {s : State} {mb : Fin 8} {priv : Bool} {cmd : Line} {p : Plan} {c : CovePlan}
    (h : Handled s mb priv 0x12 cmd) (h8 : fld cmd 8 1 = 0) (hp : s.job.plan = some p)
    (hc : planCove p (BitVec.ofNat 16 (fld cmd 10 2)) = some c) (h9 : 1 ≤ fld cmd 9 1) (hsh : fld cmd 9 1 + c.share ≤ 8)
    (h12 : fld cmd 12 1 < Layout.n c.layout) (hask : s.recov.ask = none) (hmb : s.recov.mailbox = none)
    (hcove : s.agree.cove = none) (hst : s.job.state = 2) (hl : s.ports.lkp = true) {g : Grant} (hg : s.recov.grant = some g)
    (hgc : g.cove.toNat = fld cmd 10 2) (hgp : g.position = fld cmd 12 1) (hlive : g.live.getLsbD g.position = false)
    (hq : qualifies s g.cove g.position g.live = true) :
    Ends (.rebuildStart (.issue mb (portOf mb) priv cmd)) s fun t =>
      RunsLong s t mb cmd ∧ t.recov.mailbox = some mb ∧ t.recov.share = fld cmd 9 1 ∧ t.mem = s.mem ∧
      t.tier = s.tier ∧ t.agree = s.agree ∧ t.job = s.job ∧
      t.out.lkp = s.out.lkp ++
        [claimAckStore s (rankAt s g.cove (captainOf g.live)) g.cove g.epoch.toNat g.position 0] := by
  have run := next_rebuildStart h
  have cove := ofNat_eq_of_toNat hgc
  rw [rebuildWork_free (s := took s mb priv cmd) h8 hp hc h9 hsh h12 hask hmb hcove hst,
    show (took s mb priv cmd).recov.grant = some g from hg] at run
  dsimp only at run
  rw [if_pos ⟨cove, hgp⟩, ← cove, ← hgp] at run
  have fits : qualifies (took s mb priv cmd) g.cove g.position g.live = true := hq
  obtain ⟨u, hu⟩ : ∃ u, u = took s mb priv cmd := ⟨_, rfl⟩
  have only : OnlyBox s u mb := hu ▸ onlyBox_took s mb priv cmd
  obtain ⟨v, hv⟩ : ∃ v : State, v = { u with
    recov.grant := some
      { cove := g.cove, position := g.position, epoch := g.epoch, live := g.live,
        captainRank := rankAt u g.cove (captainOf g.live), share := fld cmd 9 1, handover := false, restored := g.restored }
    recov.mailbox := some mb
    recov.share := fld cmd 9 1 } := ⟨_, rfl⟩
  have decided : decideRebuild u mb g.cove g.position (fld cmd 9 1) false g.live g.epoch g.restored =
      sendClaimAck (accepted v mb) (rankAt u g.cove (captainOf g.live)) g.cove g.epoch g.position false := by
    have plan : u.job.plan = some p := by rw [hu]; exact hp
    have grant : u.recov.grant = some g := by rw [hu]; exact hg
    have place : planCove p g.cove = some c := by rw [cove]; exact hc
    rw [← hu] at fits
    simp only [decideRebuild, plan, place, grant, Option.isSome_some, if_true, Bool.false_eq_true, if_false, false_and]
    rw [if_neg (by rw [fits]; decide), if_neg (by rw [hlive]; simp), hv]
  obtain ⟨w, hw⟩ : ∃ w, w = accepted v mb := ⟨_, rfl⟩
  have accepts : OnlyBox v w mb := hw ▸ onlyBox_accepted v mb
  have port : w.ports.lkp = true := by
    rw [accepts.frame, hv, hu]
    exact hl
  have sent : sendClaimAck w (rankAt u g.cove (captainOf g.live)) g.cove g.epoch g.position false =
      appendOut w [claimAckStore s (rankAt s g.cove (captainOf g.live)) g.cove g.epoch.toNat g.position 0] := by
    refine (sendTo_present port ..).trans ?_
    rw [claimAckStore, BitVec.ofNat_toNat, BitVec.setWidth_eq, accepts.frame, hv, hu]
    rfl
  rw [← hu, decided, ← hw, sent] at run
  have runs : RunsLong s w mb cmd := by
    rw [hw]
    exact runsLong_accepted (by rw [hv, hu]; exact box_took s mb priv cmd)
  refine ⟨_, run, runs, ?_, ?_, ?_, ?_, ?_, ?_, ?_⟩
  · show w.recov.mailbox = _
    rw [accepts.frame, hv]
  · show w.recov.share = _
    rw [accepts.frame, hv]
  · show w.mem = _
    rw [accepts.frame, hv, only.frame]
  · show w.tier = _
    rw [accepts.frame, hv, only.frame]
  · show w.agree = _
    rw [accepts.frame, hv, only.frame]
  · show w.job = _
    rw [accepts.frame, hv, only.frame]
  · show w.out.lkp ++ _ = _
    rw [accepts.frame, hv, only.frame]

/-- Settles O42: claims and rank moves through mailbox 7, and REBUILD_START by the grant held. -/
theorem targetsAreClaimedAndTaken : Obligations.TargetsAreClaimedAndTaken := by
  unfold Obligations.TargetsAreClaimedAndTaken
  intro s
  refine ⟨fun m r h hf hb hp => ⟨claim_pushed r h hf hb hp, rankMove_pushed h hf hb hp⟩,
    fun m r pos p h hcap hp hb h16 hlive hlost hasked hw hprop =>
      claimAck_clauses h hcap hp hb h16 hlive hlost hasked hw hprop,
    fun priv cmd p c h hpeer hl hp hc hpos => peerClaim_clauses h hpeer hl hp hc hpos,
    fun priv cmd p c i h hpeer hp hj hc hr => peerRankMove_maps h hpeer hp hj hc hr,
    fun mb priv cmd p c h h8 hp hc => ⟨fun h9 => ?_, fun h9 hsh h12 hask hmb hcove hst hl =>
      ⟨rebuildStart_probes h h8 hp hc h9 hsh h12 hask hmb hcove hst hl,
        fun g hg hgc hgp hlive hq => rebuildStart_takes h h8 hp hc h9 hsh h12 hask hmb hcove hst hl hg hgc hgp hlive hq⟩⟩⟩
  refine ⟨_, (next_rebuildStart h).trans (congrArg Host.Outcome.next ((if_neg (show ¬ 1 < fld cmd 8 1 by omega)).trans
    (if_pos (show fld cmd 9 1 = 0 ∨ 8 < fld cmd 9 1 from h9)))),
    refusedOnly h (status := stBadArg) (detail := 9) (by decide) (by decide)⟩

end Sys2Proof.Machine

/-! PROOFS. The ring decode at a holder (R257 to R259, R261). -/

namespace Sys2Proof.Machine

/-! ### Rebuild packets go out (R258) -/

theorem sendRb_fields {s : State} (hl : s.ports.lkp = true) (pos : Nat) (type : Byte) (route : Route) (m : RbMsg) :
    ∃ seqs plus minus, sendRb s pos type route m = { s with
      recov := { s.recov with seqs := seqs }
      fold := { s.fold with rbTokPlus := plus, rbTokMinus := minus }
      out := { s.out with lkp := s.out.lkp ++ [rbStore s pos type route m] } } := by
  obtain ⟨plus, minus, charged⟩ := chargeRb_fields { s with
    recov.seqs := put (rankAt s (ownCoveId s) pos) (look 0 (rankAt s (ownCoveId s) pos) s.recov.seqs + 1) s.recov.seqs }
    (chargeDir s (rankAt s (ownCoveId s) pos) route) (stored (32 + m.payload.length))
  refine ⟨put (rankAt s (ownCoveId s) pos) (look 0 (rankAt s (ownCoveId s) pos) s.recov.seqs + 1) s.recov.seqs, plus, minus, ?_⟩
  rw [sendRb, sendRbTo]
  dsimp only
  rw [charged]
  exact if_pos hl

/-- Along +W the packet is charged to the bucket of that way round. -/
theorem sendRb_plus {s : State} (hl : s.ports.lkp = true) (pos : Nat) (type : Byte) (m : RbMsg) :
    ∃ seqs, sendRb s pos type (.w .plus) m = { s with
      recov := { s.recov with seqs := seqs }
      fold := { s.fold with rbTokPlus := s.fold.rbTokPlus - stored (32 + m.payload.length) }
      out := { s.out with lkp := s.out.lkp ++ [rbStore s pos type (.w .plus) m] } } :=
  ⟨_, if_pos hl⟩

/-! ### A survivor's progress (R246, R259) -/

theorem setRec_fields (s : State) (v : BitVec 4) : ∃ f n, setRec s v = { s with
    recov := { s.recov with state := V3.all v }, cap := { s.cap with filter := f, filterPending := n } } := by
  unfold setRec
  dsimp only
  split
  · exact ⟨_, _, rfl⟩
  · exact ⟨_, _, rfl⟩

/-- A survivor's progress changes its recovery's state, and the filter with it. -/
theorem survivorProgress_fields (s : State) : ∃ st f n, survivorProgress s = { s with
    recov := { s.recov with state := st }, cap := { s.cap with filter := f, filterPending := n } } ∧
    (st = s.recov.state → f = s.cap.filter ∧ n = s.cap.filterPending) := by
  have moved : ∀ v : BitVec 4, recState s ≠ v → ∃ st f n, setRec s v = { s with
      recov := { s.recov with state := st }, cap := { s.cap with filter := f, filterPending := n } } ∧
      (st = s.recov.state → f = s.cap.filter ∧ n = s.cap.filterPending) := by
    intro v hv
    obtain ⟨f, n, h⟩ := setRec_fields s v
    refine ⟨_, f, n, h, fun e => absurd ?_ hv⟩
    rw [recState, ← e, V3.get_all]
  unfold survivorProgress
  split
  · exact ⟨_, _, _, rfl, fun _ => ⟨rfl, rfl⟩⟩
  · split
    · next h => exact moved _ (by rw [h.1]; decide)
    · split
      · next h => exact moved _ (by rw [h.1]; decide)
      · exact ⟨_, _, _, rfl, fun _ => ⟨rfl, rfl⟩⟩

theorem addNew_fresh {α : Type} [DecidableEq α] {x : α} {l : List α} (h : x ∉ l) : addNew x l = l ++ [x] := if_neg h

theorem products_length (s : State) (c : Byte) (bay base depth count : Nat) :
    ((products s c bay base depth count).flatMap lineBytes).length = 64 * count := by
  have each : ∀ l : List Line, (l.flatMap lineBytes).length = 64 * l.length := fun l => by
    induction l with
    | nil => rfl
    | cons a t ih => rw [List.flatMap_cons, List.length_append, ih, lineBytes_length, List.length_cons]; omega
  rw [each, products, List.length_map, List.length_range]

/-- What a key was last put to is found. -/
theorem find_put_key {α β : Type} [DecidableEq α] (k : α) (v : β) : ∀ l : List (α × β), find k (put k v l) = some v
  | [] => if_pos rfl
  | (a, b) :: t => by
    rw [put]
    split
    · exact if_pos rfl
    · next h => exact (if_neg h).trans (find_put_key k v t)

/-! ### Starting a group (R257, R258) -/

/-- The packet with which a group's first holder begins it. -/
abbrev firstPart (s : State) (g : RingId) (T : U48) (c : Byte) : RbMsg :=
  ⟨g.parity, false, false, 0, g.target, 0, 0, 1, 0, T, g.bay, g.base, g.piece, g.depth, g.count, 0,
    (products s c g.bay.toNat g.base.toNat g.depth.toNat g.count.toNat).flatMap lineBytes⟩

theorem startGroup_begins {s : State} {g : RingId} {c : Byte} {h : Nat × Byte} {rest : List (Nat × Byte)} {T : U48}
    (hl : s.ports.lkp = true) (hd : g.depth.toNat % 2 = 0) (hh : groupHolders s g = (ownPos s, c) :: h :: rest)
    (ho : offers s = some T) : ∃ st f n seqs, startGroup s g = { s with
      recov := { s.recov with
        state := st, groupsLeft := addNew g s.recov.groupsLeft, restartAt := put g s.time.gtc s.recov.restartAt
        seqs := seqs }
      cap := { s.cap with filter := f, filterPending := n }
      fold := { s.fold with rbTokPlus := s.fold.rbTokPlus - stored (32 + 64 * g.count.toNat) }
      out := { s.out with lkp := s.out.lkp ++ [rbStore s h.1 0x40 (.w .plus) (firstPart s g T c)] } } ∧
      (st = s.recov.state → f = s.cap.filter ∧ n = s.cap.filterPending) := by
  obtain ⟨u, hu⟩ : ∃ u : State, u = { s with
    recov.restartAt := put g s.time.gtc s.recov.restartAt, recov.groupsLeft := addNew g s.recov.groupsLeft } := ⟨_, rfl⟩
  obtain ⟨seqs, sent⟩ := sendRb_plus (s := u) (by rw [hu]; exact hl) h.1 0x40 (firstPart s g T c)
  have part : sendPart { s with recov.restartAt := put g s.time.gtc s.recov.restartAt } g T 1
      (products s c g.bay.toNat g.base.toNat g.depth.toNat g.count.toNat) (h :: rest) =
      sendRb u h.1 0x40 (.w .plus) (firstPart s g T c) := by
    rw [hu, sendPart]
    dsimp only
    rw [if_pos hd]
    rfl
  obtain ⟨st, f, n, progress, quiet⟩ := survivorProgress_fields (sendRb u h.1 0x40 (.w .plus) (firstPart s g T c))
  refine ⟨st, f, n, seqs, ?_, fun e => ?_⟩
  · simp only [startGroup, hh, ho, if_true]
    rw [part, progress, sent, hu, products_length]
    rfl
  · have := quiet (by rw [e, sent, hu])
    rw [sent, hu] at this
    exact this

theorem ringGroupStart_clauses {s : State} {g : RingId} {c : Byte} {h : Nat × Byte} {rest : List (Nat × Byte)} {T : U48}
    (hl : s.ports.lkp = true) (hd : g.depth.toNat % 2 = 0)
    (hst : s.recov.state.get = 5 ∨ s.recov.state.get = (if g.parity then 4 else 6)) (ht : s.recov.target = false)
    (hrows : g.parity = true ∨ ∀ b, b < g.bay.toNat → rowLeft s false b = true) (hv : groupValid s g = true)
    (hn : g ∉ s.recov.groupsLeft) (hhalt : s.recov.halted.getLsbD (g.depth.toNat / 4 % 4) = false)
    (hh : groupHolders s g = (ownPos s, c) :: h :: rest) (ho : offers s = some T) :
    (32 + 64 * g.count.toNat ≤ s.fold.rbTokPlus → Ends (.ringGroupStart g) s fun t =>
      t = { s with
        recov := { s.recov with
          state := t.recov.state, groupsLeft := s.recov.groupsLeft ++ [g], restartAt := t.recov.restartAt
          seqs := t.recov.seqs }
        cap := { s.cap with filter := t.cap.filter, filterPending := t.cap.filterPending }
        fold := { s.fold with rbTokPlus := s.fold.rbTokPlus - (32 + 64 * g.count.toNat) }
        out := { s.out with lkp := s.out.lkp ++ [rbStore s h.1 0x40 (.w .plus)
          ⟨g.parity, false, false, 0, g.target, 0, 0, 1, 0, T, g.bay, g.base, g.piece, g.depth, g.count, 0,
            (products s c g.bay.toNat g.base.toNat g.depth.toNat g.count.toNat).flatMap lineBytes⟩] } } ∧
      (t.recov.state = s.recov.state → t.cap = s.cap)) ∧
    (s.fold.rbTokPlus < 32 + 64 * g.count.toNat → Ends (.ringGroupStart g) s fun t => t = s) := by
  have room : stored (32 + 64 * g.count.toNat) = 32 + 64 * g.count.toNat := by
    rw [stored_eq]
    omega
  have due : if g.parity then recState s = recParity ∨ recState s = recResumable
      else recState s = recResumable ∨ recState s = recData ∨ recState s = recReshard := by
    cases hp : g.parity with
    | true => rw [hp] at hst; exact hst.symm
    | false =>
      rw [hp] at hst
      exact hst.elim .inl fun e => .inr (.inl e)
  have rows : (g.parity || (List.range g.bay.toNat).all fun b => rowLeft s false b) = true := by
    rw [Bool.or_eq_true, List.all_eq_true]
    exact hrows.imp id fun hb b hin => hb b (List.mem_range.1 hin)
  have run : exec (.ringGroupStart g) s = .next (
      if stored (32 + 64 * g.count.toNat) ≤ s.fold.rbTokPlus then startGroup s g else s) := by
    refine congrArg Host.Outcome.next ?_
    dsimp only
    rw [if_pos hd]
    by_cases hr : stored (32 + 64 * g.count.toNat) ≤ s.fold.rbTokPlus
    · rw [if_pos hr]
      exact if_pos ⟨due, rows, by simp [ht], hv, by simpa using hn, by simp [hhalt], hr⟩
    · rw [if_neg hr]
      exact if_neg fun e => hr e.2.2.2.2.2.2
  rw [room] at run
  refine ⟨fun hr => ?_, fun hr => ?_⟩
  · obtain ⟨st, f, n, seqs, begins, quiet⟩ := startGroup_begins hl hd hh ho
    rw [if_pos hr, begins, room, addNew_fresh hn] at run
    refine ⟨_, run, rfl, fun e => ?_⟩
    obtain ⟨hf, hp⟩ := quiet e
    rw [hf, hp]
  · rw [if_neg (by omega)] at run
    exact ⟨s, run, rfl⟩

/-! ### Packets at a holder (R257, R258) -/

theorem rbIn_own {s : State} {m : RbMsg} (hc : s.agree.cove = some m.cove) (hv : m.view = viewNow s) (type : Byte)
    (f : State → State) : rbIn type m s f = f s :=
  if_pos (by rw [rbChecks, hc, hv]; simp)

theorem vfIn_open {s : State} (hl : s.ports.lkp = true) (hs : s.power.season.get ≠ 2) (f : State → State) :
    vfIn s f = f s := (if_neg (by simp [hl])).trans (if_neg hs)

theorem next_part {s : State} {m : RbMsg} (hl : s.ports.lkp = true) (hs : s.power.season.get ≠ 2)
    (hc : s.agree.cove = some m.cove) (hv : m.view = viewNow s) (hf : m.final = false) :
    exec (.part m) s = .next (passPart s m) := by
  refine congrArg Host.Outcome.next ((vfIn_open hl hs _).trans ((rbIn_own hc hv 0x40 _).trans ?_))
  exact if_neg (by simp [hf])

theorem next_pieceReq {s : State} {m : RbMsg} (hl : s.ports.lkp = true) (hs : s.power.season.get ≠ 2)
    (hc : s.agree.cove = some m.cove) (hv : m.view = viewNow s) : exec (.pieceReq m) s = .next (answerPiece s m) :=
  congrArg Host.Outcome.next ((vfIn_open hl hs _).trans (rbIn_own hc hv 0x41 _))

/-- A packet of an older tide goes back to the first holder. -/
theorem passPart_stale {s : State} {m : RbMsg} {T : U48} {h : Nat × Byte} {rest : List (Nat × Byte)} (hm : m.stale = false)
    (ho : offers s = some T) (ht : m.tide.toNat < T.toNat) (hh : groupHolders s (groupOf m) = h :: rest)
    (hp : h.1 ≠ ownPos s) : passPart s m = sendRb s h.1 0x40 .any { m with stale := true, payload := [] } := by
  simp only [passPart, ho, hm, Bool.false_eq_true, if_false, hh]
  rw [if_pos ht, if_neg hp]

/-- A packet of the tide offered has the own product folded in, and goes on. -/
theorem passPart_folds {s : State} {m : RbMsg} {c : Byte} {before rest : List (Nat × Byte)} (hm : m.stale = false)
    (ho : offers s = some m.tide) (hh : groupHolders s (groupOf m) = before ++ (ownPos s, c) :: rest)
    (hb : ∀ h ∈ before, h.1 ≠ ownPos s) : passPart s m =
      survivorProgress (sendPart s (groupOf m) m.tide (m.stage.toNat + 1) (xorLines (payloadLines m.payload)
        (products s c m.bay.toNat m.base.toNat m.depth.toNat m.count.toNat)) rest) := by
  have drop : (groupHolders s (groupOf m)).dropWhile (fun h => decide (h.1 ≠ ownPos s)) = (ownPos s, c) :: rest := by
    rw [hh, List.dropWhile_append_of_pos (fun h hin => by simpa using hb h hin)]
    exact List.dropWhile_cons_of_neg (by simp)
  simp only [passPart, ho, hm, Bool.false_eq_true, if_false]
  rw [if_neg (by omega), if_neg (by omega), drop]
  rfl

/-- The packet that a holder passes on. -/
abbrev passedPart (m : RbMsg) (ls : List Line) : RbMsg :=
  { RbMsg.blank with
    parity := m.parity, target := m.target, stage := BitVec.ofNat 8 (m.stage.toNat + 1), tide := m.tide, bay := m.bay
    base := m.base, piece := m.piece, depth := m.depth, count := m.count, payload := ls.flatMap lineBytes }

/-- Where a packet goes on to: the next holder along +W, or the target as FINAL. -/
theorem sendPart_passes {s : State} {m : RbMsg} (hl : s.ports.lkp = true) (hd : m.depth.toNat % 2 = 0)
    (hst : recState s ≠ recReshard) (ls : List Line) (rest : List (Nat × Byte)) :
    ∃ (p : RbMsg) (dst : Nat) (route : Route) (seqs : List (Nat × U32)) (plus minus : Nat),
      sendPart s (groupOf m) m.tide (m.stage.toNat + 1) ls rest = { s with
        recov := { s.recov with groupsLeft := addNew (groupOf m) s.recov.groupsLeft, seqs := seqs }
        fold := { s.fold with rbTokPlus := plus, rbTokMinus := minus }
        out := { s.out with lkp := s.out.lkp ++ [rbStore s dst 0x40 route p] } } ∧
      p.payload = ls.flatMap lineBytes ∧ p.stage = m.stage + 1 ∧ p.tide = m.tide ∧ p.stale = false ∧
      groupOf p = groupOf m ∧ (∀ h more, rest = h :: more → dst = h.1 ∧ route = .w .plus ∧ p.final = false) ∧
      (rest = [] → dst = m.target.toNat ∧ route = .any ∧ p.final = true) := by
  obtain ⟨u, hu⟩ : ∃ u : State, u = { s with recov.groupsLeft := addNew (groupOf m) s.recov.groupsLeft } := ⟨_, rfl⟩
  have port : u.ports.lkp = true := by rw [hu]; exact hl
  have stage : BitVec.ofNat 8 (m.stage.toNat + 1) = m.stage + 1 := by
    apply BitVec.eq_of_toNat_eq
    simp
  cases rest with
  | nil =>
    obtain ⟨seqs, plus, minus, sent⟩ := sendRb_fields port m.target.toNat 0x40 .any { passedPart m ls with final := true }
    refine ⟨{ passedPart m ls with final := true }, m.target.toNat, .any, seqs, plus, minus, ?_, rfl, stage, rfl, rfl, rfl,
      fun _ _ e => (by cases e), fun _ => ⟨rfl, rfl, rfl⟩⟩
    have part : sendPart s (groupOf m) m.tide (m.stage.toNat + 1) ls [] =
        sendRb u m.target.toNat 0x40 .any { passedPart m ls with final := true } := by
      rw [hu]
      exact if_neg hst
    rw [part, sent, hu]
    rfl
  | cons h more =>
    obtain ⟨seqs, plus, minus, sent⟩ := sendRb_fields port h.1 0x40 (.w .plus) (passedPart m ls)
    refine ⟨passedPart m ls, h.1, .w .plus, seqs, plus, minus, ?_, rfl, stage, rfl, rfl, rfl,
      fun k _ e => ?_, fun e => (by cases e)⟩
    · have part : sendPart s (groupOf m) m.tide (m.stage.toNat + 1) ls (h :: more) =
          sendRb u h.1 0x40 (.w .plus) (passedPart m ls) := by
        rw [hu, sendPart]
        dsimp only
        rw [if_pos (show (groupOf m).depth.toNat % 2 = 0 from hd)]
        rfl
      rw [part, sent, hu]
      rfl
    · obtain ⟨rfl, -⟩ := List.cons.inj e
      exact ⟨rfl, rfl, rfl⟩

theorem part_folds {s : State} {m : RbMsg} (hl : s.ports.lkp = true) (hs : s.power.season.get ≠ 2)
    (hc : s.agree.cove = some m.cove) (hv : m.view = viewNow s) (hf : m.final = false) (hm : m.stale = false)
    {c : Byte} {before rest : List (Nat × Byte)} (ho : offers s = some m.tide) (hd : m.depth.toNat % 2 = 0)
    (hst : s.recov.state.get = 5 ∨ s.recov.state.get = (if m.parity then 4 else 6)) (hn : groupOf m ∉ s.recov.groupsLeft)
    (hh : groupHolders s (groupOf m) = before ++ (ownPos s, c) :: rest) (hb : ∀ h ∈ before, h.1 ≠ ownPos s) :
    Ends (.part m) s fun t => ∃ (p : RbMsg) (dst : Nat) (route : Route),
      t = { s with
        recov := { s.recov with
          state := t.recov.state, groupsLeft := s.recov.groupsLeft ++ [groupOf m], seqs := t.recov.seqs }
        cap := { s.cap with filter := t.cap.filter, filterPending := t.cap.filterPending }
        fold := { s.fold with rbTokPlus := t.fold.rbTokPlus, rbTokMinus := t.fold.rbTokMinus }
        out := { s.out with lkp := s.out.lkp ++ [rbStore s dst 0x40 route p] } } ∧
      p.payload = (xorLines (payloadLines m.payload)
        (products s c m.bay.toNat m.base.toNat m.depth.toNat m.count.toNat)).flatMap lineBytes ∧
      p.stage = m.stage + 1 ∧ p.tide = m.tide ∧ p.stale = false ∧ groupOf p = groupOf m ∧
      (∀ h more, rest = h :: more → dst = h.1 ∧ route = .w .plus ∧ p.final = false) ∧
      (rest = [] → dst = m.target.toNat ∧ route = .any ∧ p.final = true) ∧
      (t.recov.state = s.recov.state → t.cap = s.cap) := by
  have plain : recState s ≠ recReshard := by
    rintro e
    have e : s.recov.state.get = 8 := e
    rw [e] at hst
    rcases hst with h | h
    · exact absurd h (by decide)
    · split at h
      · exact absurd h (by decide)
      · exact absurd h (by decide)
  have run := next_part hl hs hc hv hf
  obtain ⟨p, dst, route, seqs, plus, minus, sent, payload, stage, tide, stale, group, next, final⟩ :=
    sendPart_passes hl hd plain (xorLines (payloadLines m.payload)
      (products s c m.bay.toNat m.base.toNat m.depth.toNat m.count.toNat)) rest
  obtain ⟨u, hu⟩ : ∃ u, u = sendPart s (groupOf m) m.tide (m.stage.toNat + 1) (xorLines (payloadLines m.payload)
    (products s c m.bay.toNat m.base.toNat m.depth.toNat m.count.toNat)) rest := ⟨_, rfl⟩
  obtain ⟨st, f, n, progress, quiet⟩ := survivorProgress_fields u
  rw [passPart_folds hm ho hh hb, ← hu, progress, hu, sent, addNew_fresh hn] at run
  rw [hu, sent] at quiet
  refine ⟨_, run, p, dst, route, rfl, payload, stage, tide, stale, group, next, final, fun e => ?_⟩
  obtain ⟨hf, hp⟩ := quiet e
  rw [hf, hp]

/-- Settles O44: each packet by the tide that the holder offers. -/
theorem holdersPassTheRing : Obligations.HoldersPassTheRing := by
  unfold Obligations.HoldersPassTheRing
  intro s hl hs
  refine ⟨fun g c h rest T hd hst ht hrows hv hn hhalt hh ho =>
      ringGroupStart_clauses hl hd hst ht hrows hv hn hhalt hh ho,
    fun m hc hv hf hm => ⟨fun ho => ?_, fun T h rest ho ht hh hp => ?_,
      fun c before rest ho hd hst hn hh hb => part_folds hl hs hc hv hf hm ho hd hst hn hh hb, fun ho => ?_, fun T ho => ?_⟩,
    fun g at_ hat => ⟨fun hlt => ?_, fun hle ho => ?_, fun c h rest T hle ho hd _ hh => ?_⟩⟩
  · refine ⟨_, (next_part hl hs hc hv hf).trans (congrArg Host.Outcome.next ?_), rfl⟩
    simp only [passPart, ho]
    rfl
  · have run := next_part hl hs hc hv hf
    obtain ⟨seqs, plus, minus, sent⟩ := sendRb_fields hl h.1 0x40 .any { m with stale := true, payload := [] }
    rw [passPart_stale hm ho ht hh hp, sent] at run
    exact ⟨_, run, rfl⟩
  · refine ⟨_, (next_pieceReq hl hs hc hv).trans (congrArg Host.Outcome.next ?_), rfl⟩
    simp only [answerPiece, ho]
    rfl
  · have run := next_pieceReq hl hs hc hv
    obtain ⟨seqs, plus, minus, sent⟩ := sendRb_fields hl m.sender.toNat 0x42 .any { m with
      tide := T, payload := (products s (holderCoeff s m (ownPos s)) m.bay.toNat m.base.toNat m.depth.toNat
        m.count.toNat).flatMap lineBytes }
    have answer : answerPiece s m = sendRb s m.sender.toNat 0x42 .any { m with
        tide := T, payload := (products s (holderCoeff s m (ownPos s)) m.bay.toNat m.base.toNat m.depth.toNat
          m.count.toNat).flatMap lineBytes } := by
      simp only [answerPiece, ho]
      rw [hf, hm]
    rw [answer, sent] at run
    exact ⟨_, run, rfl⟩
  · refine ⟨s, congrArg Host.Outcome.next ?_, rfl⟩
    simp only [hat]
    exact if_neg (by omega)
  · have run : exec (.ringRestart g) s = .next { s with recov.restartAt := put g s.time.gtc s.recov.restartAt } := by
      refine congrArg Host.Outcome.next ?_
      simp only [hat]
      rw [if_pos hle, ho]
    exact ⟨_, run, rfl, find_put_key g s.time.gtc s.recov.restartAt⟩
  · obtain ⟨st, f, n, seqs, begins, -⟩ := startGroup_begins hl hd hh ho
    have run : exec (.ringRestart g) s = .next (startGroup s g) := by
      refine congrArg Host.Outcome.next ?_
      simp only [hat]
      rw [if_pos hle, ho]
    rw [begins] at run
    exact ⟨_, run, rfl, find_put_key g s.time.gtc s.recov.restartAt⟩

end Sys2Proof.Machine

/-! PROOFS. Compression and poisoned loads (R180, R199, R203, R205 to R207). -/

namespace Sys2Proof.Machine

/-! ### What a unit's write changes (R17, R47, R81) -/

/-- A state that differs from another only in what an access can change: memory and its copies, capture, the apply unit's
lines, the rebuild requests, when writes began to wait, counters and what goes out. -/
def AccessFrame (s t : State) : Prop :=
  t = { s with
    mem := t.mem, tier := t.tier, cap := t.cap, fold := t.fold, recov := t.recov, apply := t.apply, cnt := t.cnt, out := t.out
    tide := { s.tide with holdSince := t.tide.holdSince } }

theorem AccessFrame.refl (s : State) : AccessFrame s s := rfl

theorem AccessFrame.trans {s t u : State} (h : AccessFrame s t) (k : AccessFrame t u) : AccessFrame s u := by
  unfold AccessFrame at h k ⊢
  conv_lhs => rw [k, h]

theorem accessFrame_commitLine (s : State) (a : Nat) (new : Line) (ms : List Master) : AccessFrame s (commitLine s a new ms) := by
  rw [commitLine_changes]
  exact rfl

theorem accessFrame_hold (s : State) (h : Held) : AccessFrame s (hold s h) := by
  unfold hold noteHold
  split
  · exact rfl
  · exact rfl

theorem accessFrame_noteAccess (s : State) (a : Nat) : AccessFrame s (noteAccess s a) := by
  unfold noteAccess
  split
  · split
    · exact rfl
    · exact rfl
  · exact rfl

theorem accessFrame_noteCaptured (s : State) (ms : List Master) : AccessFrame s (noteCaptured s ms) := by
  unfold noteCaptured
  split
  · exact rfl
  · exact rfl

theorem accessFrame_verdicts (tags : List (BitVec 9)) (v : BitVec 9 → Verdict) (s : State) :
    AccessFrame s (tags.foldl (fun t g => verdict t g (v g)) s) := by
  induction tags generalizing s with
  | nil => exact AccessFrame.refl s
  | cons g t ih => exact AccessFrame.trans (show AccessFrame s (verdict s g (v g)) from rfl) (ih _)

theorem accessFrame_forEach {α : Type} (f : State → α → State) (hf : ∀ t x, AccessFrame t (f t x)) (l : List α) (s : State) :
    AccessFrame s (forEach l f s) :=
  forEach_keeps (AccessFrame s) l f s (fun t x h => h.trans (hf t x)) (AccessFrame.refl s)

theorem accessFrame_askPieces (s : State) (b l sel : Nat) : AccessFrame s (askPieces s b l sel) := by
  refine accessFrame_forEach _ (fun t q => ?_) _ s
  obtain ⟨seqs, plus, minus, xs, sent⟩ := sendRbTo_fields t (rankAt t (ownCoveId t) q) 0x41 .any _
  rw [sendRb, sent]
  exact rfl

theorem accessFrame_startRead (s : State) (a : Nat) : AccessFrame s (startRead s a) := by
  unfold startRead
  split
  · exact rfl
  · split
    · exact rfl
    · exact AccessFrame.trans (show AccessFrame s { s with recov.reqs := _ } from rfl) (accessFrame_askPieces ..)

theorem accessFrame_takeLine (s : State) (a : Nat) (old new : Line) (hs : List Held) : AccessFrame s (takeLine s a old new hs) := by
  unfold takeLine
  refine (accessFrame_noteCaptured s (hs.map fun h => h.acc.master)).trans ?_
  dsimp only
  generalize noteCaptured s (hs.map fun h => h.acc.master) = u
  split
  · exact AccessFrame.trans (show AccessFrame u (count u cntCapZero) from rfl)
      ((accessFrame_verdicts (hs.map fun h => h.acc.tag) (fun _ => if hs.any narrow then .absorb else .pass) _).trans
        (accessFrame_commitLine ..))
  · split
    · exact rfl
    · split
      · exact rfl
      · refine AccessFrame.trans ?_ (accessFrame_commitLine _ _ _ _)
        exact AccessFrame.trans (show AccessFrame u (count { u with cap.queue := _ } cntCapLines) from rfl)
          (accessFrame_verdicts (hs.map fun h => h.acc.tag) (fun _ => .pass) _)

theorem accessFrame_ordinary (s : State) (a : Nat) (h : Held) : AccessFrame s (present.ordinary s a h) := by
  unfold present.ordinary
  split
  · exact rfl
  · split
    · exact accessFrame_hold ..
    · dsimp only
      split
      · exact rfl
      · exact rfl

theorem accessFrame_ownWrite (s : State) (a : Nat) (e : ApplyLine) (h : Held) : AccessFrame s (present.ownWrite s a e h) := by
  unfold present.ownWrite
  split
  · exact accessFrame_hold ..
  · dsimp only
    split
    · split
      · exact accessFrame_hold ..
      · refine (accessFrame_noteAccess s a).trans ?_
        generalize noteAccess s a = u
        split
        · split
          · exact rfl
          · exact rfl
        · exact rfl
    · refine (accessFrame_noteAccess s a).trans ?_
      generalize noteAccess s a = u
      exact AccessFrame.trans (show AccessFrame u (markStale { u with apply.issued := _ } a) from rfl) (accessFrame_takeLine ..)

theorem accessFrame_present (s : State) (h : Held) : AccessFrame s (present s h) := by
  unfold present
  dsimp only
  split
  · exact (accessFrame_commitLine ..).trans rfl
  · split
    · exact (accessFrame_hold ..).trans (accessFrame_startRead ..)
    · split
      · exact accessFrame_hold ..
      · split
        · exact accessFrame_hold ..
        · split
          · split
            · exact accessFrame_ownWrite ..
            · exact (accessFrame_noteAccess ..).trans (accessFrame_ordinary ..)
          · exact (accessFrame_noteAccess ..).trans (accessFrame_ordinary ..)

theorem accessFrame_unitStore (s : State) (m : Master) (line : Nat) (be : U64) (data : Line) :
    AccessFrame s (unitStore s m line be data) := by
  unfold unitStore
  dsimp only
  split
  · exact accessFrame_present ..
  · exact accessFrame_commitLine ..

theorem accessFrame_unitWrite (s : State) (m : Master) (a : Nat) (bs : List Byte) : AccessFrame s (unitWrite s m a bs) := by
  unfold unitWrite
  split
  · exact AccessFrame.refl s
  · exact accessFrame_forEach _ (fun t i => accessFrame_unitStore ..) _ s

/-! ### EXCH_COMPRESS starts (R199, R203) -/

/-- What EXCH_COMPRESS takes from its descriptor. -/
abbrev compressOf (s : State) (mb : Fin 8) (cmd : Line) : Compress :=
  let d := s.mem.bytes (fld cmd 8 8) 64
  { mailbox := mb, mode := fldAt d 2 1, valueFormat := fldAt d 3 1, k := fldAt d 4 2, elements := fldAt d 16 4
    block := fldAt d 20 4, grad := fldAt d 24 8, resid := fldAt d 32 8, out := fldAt d 40 8, stop := .none, aborts := []
    nonfinite := 0, saturated := 0, bytesOut := 0, startGtc := s.time.gtc }

theorem compressStart_off {s : State} {mb : Fin 8} {t : TakenCmd} {p : Plan} (hp : s.job.plan = some p)
    (h : exchOff s = true) : compressStart mb t s = wrongState s mb := by
  rw [compressStart, hp]
  exact if_pos h

theorem compressStart_busy {s : State} {mb : Fin 8} {t : TakenCmd} {p : Plan} (hp : s.job.plan = some p)
    (h : exchOff s = false) {c : Compress} (hc : s.exch.compress = some c) :
    compressStart mb t s = busyWith s mb (some c.mailbox) := by
  rw [compressStart, hp]
  dsimp only
  rw [if_neg (by simp [h]), hc]

theorem compressStart_free {s : State} {mb : Fin 8} {t : TakenCmd} {p : Plan} (hp : s.job.plan = some p)
    (h : exchOff s = false) (hc : s.exch.compress = none) (ha : fld t.cmd 8 8 % 64 = 0)
    (hn : inNear p (fld t.cmd 8 8) 64 = true) (hf : compressFault (s.mem.bytes (fld t.cmd 8 8) 64) = none) :
    compressStart mb t s = { accepted s mb with exch.compress := some (compressOf s mb t.cmd) } := by
  rw [compressStart, hp]
  dsimp only
  rw [if_neg (by simp [h]), hc]
  dsimp only
  rw [if_neg (by simp [ha, hn]), hf]

theorem exchOff_enabled {s : State} (he : s.ctrl.exchEn.get = 1) (hd : s.exch.disabled = false)
    (hs : exchStopping s = false) : exchOff s = false := by
  rw [exchOff, hd, hs, he]
  rfl

theorem exchCompress_handled {s : State} {mb : Fin 8} {priv : Bool} {cmd : Line} (h : Handled s mb priv 0x0E cmd) :
    exec (.exchCompress (.issue mb (portOf mb) priv cmd)) s =
      .next (compressStart mb (takenCmd mb priv cmd) (took s mb priv cmd)) :=
  exec_handled compressStart h (by rfl)

/-- EXCH_COMPRESS is refused, meets a running compression, or starts. -/
theorem exchCompress_clauses {s : State} {mb : Fin 8} {priv : Bool} {cmd : Line} {p : Plan} (h : Handled s mb priv 0x0E cmd)
    (hp : s.job.plan = some p) :
    (s.ctrl.exchEn.get = 0 → Ends (.exchCompress (.issue mb (portOf mb) priv cmd)) s fun t =>
      Answered s t mb cmd 0x12 (s.job.state.toNat + 256 * s.tide.phase.get.toNat) ∧ OnlyAnswer s t mb) ∧
    (∀ c, s.ctrl.exchEn.get = 1 → s.exch.disabled = false → exchStopping s = false → s.exch.compress = some c →
      Ends (.exchCompress (.issue mb (portOf mb) priv cmd)) s fun t =>
        Answered s t mb cmd 0x13 c.mailbox.val ∧ OnlyAnswer s t mb) ∧
    (s.ctrl.exchEn.get = 1 → s.exch.disabled = false → exchStopping s = false → s.exch.compress = none →
      fld cmd 8 8 % 64 = 0 → inNear p (fld cmd 8 8) 64 = true → compressFault (s.mem.bytes (fld cmd 8 8) 64) = none →
      Ends (.exchCompress (.issue mb (portOf mb) priv cmd)) s fun t =>
        RunsLong s t mb cmd ∧
        t = { s with
          mb := t.mb, events := t.events, stat := { s.stat with evtOvf := t.stat.evtOvf }
          exch := { s.exch with compress := t.exch.compress } } ∧
        t.exch.compress = some (compressOf s mb cmd)) := by
  have run := exchCompress_handled h
  have plan : (took s mb priv cmd).job.plan = some p := hp
  have mem : (took s mb priv cmd).mem = s.mem := rfl
  have word : (takenCmd mb priv cmd).cmd = cmd := rfl
  refine ⟨fun h0 => ?_, fun c he hd hs hc => ?_, fun he hd hs hc ha hn hf => ?_⟩
  · have off : exchOff (took s mb priv cmd) = true := by
      show ((decide (s.ctrl.exchEn.get = 0)) || _ || _) = true
      rw [h0]
      rfl
    rw [compressStart_off plan off] at run
    exact ⟨_, run, refusedOnly h (by decide) (wrongState_detail_lt s)⟩
  · rw [compressStart_busy (s := took s mb priv cmd) plan (exchOff_enabled (s := took s mb priv cmd) he hd hs) hc] at run
    exact ⟨_, run, refusedOnly h (by decide) (c.mailbox.isLt.trans (by decide))⟩
  · rw [compressStart_free (s := took s mb priv cmd) plan (exchOff_enabled (s := took s mb priv cmd) he hd hs) hc
      (by rw [word]; exact ha) (by rw [word]; exact hn) (by rw [word, mem]; exact hf)] at run
    have long := runsLong_accepted (box_took s mb priv cmd)
    have only := (onlyBox_took s mb priv cmd).trans (onlyBox_accepted (took s mb priv cmd) mb)
    generalize accepted (took s mb priv cmd) mb = u at only long run
    have umb : u.mb = { s.mb with boxes := u.mb.boxes } := congrArg State.mb only.frame
    refine ⟨_, run, long, ?_, rfl⟩
    conv_lhs => rw [only.frame]
    rw [umb]

/-! ### EXCH_COMPRESS ends (R206, R207) -/

theorem settleDisable_fields (s : State) : ∃ d, settleDisable s = { s with exch.disabled := d } := by
  unfold settleDisable
  split
  · exact ⟨_, rfl⟩
  · exact ⟨_, rfl⟩

/-- The end of a compression that no ABORT waits for: its answer, and a unit without a compression. -/
theorem endCompress_answers {s : State} {c : Compress} (hf : fwRunning s = true) (ha : c.aborts = [])
    (status detail stopped : Nat) : ∃ u d, u = { s with exch.compress := none, exch.disabled := d } ∧
      endCompress s c status detail stopped = respond u c.mailbox status detail (compressResults s c stopped) ∧
      fwRunning u = true := by
  obtain ⟨d, settled⟩ := settleDisable_fields { s with exch.compress := none }
  refine ⟨_, d, rfl, ?_, hf⟩
  rw [endCompress, ha, settled]
  rfl

/-- What the end of a compression leaves: its mailbox answered, no compression, and everything else. -/
theorem endCompress_leaves {s : State} {c : Compress} (hf : fwRunning s = true) (ha : c.aborts = [])
    {status detail stopped : Nat} {t : State} (ht : t = endCompress s c status detail stopped) :
    t.exch.compress = none ∧ t.mem = s.mem ∧ t.cap = s.cap ∧ t.log = s.log ∧ t.tide = s.tide ∧ t.agree = s.agree ∧
      OtherBoxes s t c.mailbox ∧ (box t c.mailbox).busy = false ∧ (box t c.mailbox).code = BitVec.ofNat 8 status ∧
      ∀ {o n : Nat}, 8 ≤ o → o + n ≤ 32 →
        fld (box t c.mailbox).rsp o n = fld (mkLine (compressResults s c stopped)) o n := by
  obtain ⟨u, d, hu, ends, runs⟩ := endCompress_answers hf ha status detail stopped
  rw [ht, ends]
  refine ⟨?_, ?_, ?_, ?_, ?_, ?_, fun m hm => ?_, ?_, ?_, fun ho h => fld_rsp_respond c.mailbox status detail _ runs ho h⟩
  · rw [respond_exch, hu]
  · rw [respond_mem, hu]
  · rw [respond_cap, hu]
  · rw [respond_log, hu]
  · rw [respond_tide, hu]
  · rw [respond_agree, hu]
  · rw [respond_box_other _ _ _ _ _ _ hm, hu]
    rfl
  · rw [respond_box_same _ _ _ _ _ runs]
    rfl
  · rw [respond_box_same _ _ _ _ _ runs]
    rfl

theorem compressBlocks_done {c : Compress} (h : c.block = (c.elements + 4095) / 4096) : compressBlocks c - c.block = 0 := by
  rw [compressBlocks, h, Nat.sub_self]

/-- A compression whose last block is done completes OK and names the end. -/
theorem exchCompressComplete_done {s : State} {c : Compress} (hc : s.exch.compress = some c) (hs : c.stop = .none)
    (hb : c.block = (c.elements + 4095) / 4096) : exec .exchCompressComplete s = .next (endCompress s c stOk 0 0) := by
  refine congrArg Host.Outcome.next ?_
  simp only [hc, hs, if_true, compressBlocks_done hb, compressMany]
  exact if_neg (by rw [compressBlocks, hb]; exact Nat.lt_irrefl _)

/-- A compression that a loss stopped where nothing is left. -/
theorem exchCompressComplete_lost {s : State} {c : Compress} (hc : s.exch.compress = some c) (hs : c.stop = .lost)
    (hb : c.block = (c.elements + 4095) / 4096) : exec .exchCompressComplete s =
      .next (endCompress { s with freeCtr := s.freeCtr + 1 } c stLostMember s.agree.removed.toNat 0) := by
  refine congrArg Host.Outcome.next ?_
  have none : stopBlocks s c = 0 := by
    rw [stopBlocks]
    exact if_pos (compressBlocks_done hb)
  simp only [hc, hs, none, compressMany, reduceCtorEq, if_false]

/-- One block processed while nothing is being rebuilt: the compression moves on by a block, and the writes change only
what a unit's write can change. -/
theorem compressOne_whole {s : State} {c : Compress} (hc : s.exch.compress = some c) (hr : rebuilding s = false) :
    ∃ u d, AccessFrame s u ∧ compressOne s = { u with exch.compress := some d } ∧
      d.block = c.block + 1 ∧ d.elements = c.elements ∧ d.mailbox = c.mailbox ∧ d.aborts = c.aborts := by
  have free : blockedLines s (compressLines c) = [] := if_neg (by simp [hr])
  simp only [compressOne, hc, free, ne_eq, not_true_eq_false, if_false]
  refine ⟨_, _, ?_, rfl, rfl, rfl, rfl, rfl⟩
  exact (accessFrame_unitWrite s .exchange (c.out + 16448 * c.block) _).trans
    (accessFrame_unitWrite _ .exchange (c.resid + 16384 * c.block) _)

/-- The last block is processed, and the compression completes OK. -/
theorem exchCompressComplete_last {s : State} {c : Compress} (hc : s.exch.compress = some c) (hs : c.stop = .none)
    (hr : rebuilding s = false) (hb : c.block + 1 = (c.elements + 4095) / 4096) :
    ∃ u d, AccessFrame s u ∧ exec .exchCompressComplete s = .next (endCompress { u with exch.compress := some d } d stOk 0 0) ∧
      d.block = c.block + 1 ∧ d.mailbox = c.mailbox ∧ d.aborts = c.aborts := by
  obtain ⟨u, d, frame, one, block, elements, mailbox, aborts⟩ := compressOne_whole hc hr
  refine ⟨u, d, frame, congrArg Host.Outcome.next ?_, block, mailbox, aborts⟩
  have left : compressBlocks c - c.block = 1 := by
    rw [compressBlocks, ← hb]
    omega
  simp only [hc, hs, if_true, left, compressMany, one]
  exact if_neg (by rw [compressBlocks, block, elements, hb]; exact Nat.lt_irrefl _)

/-! ### Poisoned loads (R180, R205) -/

/-- A state whose log ends with the report of poisoned data. -/
def withEntry (s : State) (src : U16) (a : U64) : State :=
  { s with log.entries := s.log.entries ++
    [⟨BitVec.ofNat 8 clPoison, true, src, 1, s.time.gtc, s.time.gtc, BitVec.ofNat 64 a.toNat⟩] }

/-- The report of poisoned data, first in an empty log: its entry, and what it leaves. -/
theorem poison_logged {s : State} (hl : s.log.entries = []) (src : U16) (a : U64) :
    ∃ log events ovf, logReport s clPoison src a.toNat = { s with
      log := log, events := events, stat := { s.stat with evtOvf := ovf } } ∧
      ∃ e, log.entries = [e] ∧ e.cls = 4 ∧ e.uncorr = true ∧ e.detail = a := by
  have fresh := logReport_fresh s clPoison src a.toNat (by simp [hl]) (by simp [hl])
  refine ⟨(logReport s clPoison src a.toNat).log, (logReport s clPoison src a.toNat).events,
    (logReport s clPoison src a.toNat).stat.evtOvf, ?_, _, fresh.trans (by rw [hl]; rfl), rfl, rfl, ?_⟩
  · have stat : (logReport s clPoison src a.toNat).stat =
        { s.stat with evtOvf := (logReport s clPoison src a.toNat).stat.evtOvf } := by
      rcases logReport_cases s clPoison src a.toNat with h | ⟨i, e, he, -⟩
      · obtain ⟨o, ho⟩ := raiseEvent_stat (withEntry s src a) evErrUncorr (BitVec.ofNat 8 clPoison)
        have raised : logReport s clPoison src a.toNat = raiseEvent (withEntry s src a) evErrUncorr (BitVec.ofNat 8 clPoison) :=
          h.trans (if_pos (by simp [hl]))
        rw [raised, ho]
        rfl
      · rw [hl] at he
        exact absurd he (by simp)
    conv_lhs => rw [logReport_frame]
    rw [← stat]
  · simp

/-- The end of a reduction that no ABORT waits for, where no other runs. -/
theorem endReduce_leaves {s : State} {r : Reduce} (hf : fwRunning s = true) (hr : s.exch.reduces = [r]) (ha : r.aborts = [])
    {status detail stopped cancel : Nat} {t : State} (ht : t = endReduce s r status detail stopped cancel) :
    t.exch.reduces = [] ∧ t.mem = s.mem ∧ t.log = s.log ∧ OtherBoxes s t r.mailbox ∧
      (box t r.mailbox).code = BitVec.ofNat 8 status := by
  obtain ⟨u, hu⟩ : ∃ u : State, u = { s with
    exch.reduces := s.exch.reduces.filter fun q => !decide (q.group = r.group ∧ q.seq = r.seq)
    exch.slots := s.exch.slots.filter fun q => !decide (q.group = r.group ∧ q.seq = r.seq)
    exch.completed := addNew (r.group, r.seq) s.exch.completed } := ⟨_, rfl⟩
  obtain ⟨d, settled⟩ := settleDisable_fields u
  have runs : fwRunning { u with exch.disabled := d } = true := by rw [hu]; exact hf
  have ends : ∃ rs, t = respond { u with exch.disabled := d } r.mailbox status detail rs := by
    rw [endReduce, ha, ← hu, settled] at ht
    exact ⟨_, ht⟩
  obtain ⟨rs, ends⟩ := ends
  rw [ends]
  refine ⟨?_, ?_, ?_, fun m hm => ?_, ?_⟩
  · rw [respond_exch, hu]
    simp [hr]
  · rw [respond_mem, hu]
  · rw [respond_log, hu]
  · rw [respond_box_other _ _ _ _ _ _ hm, hu]
    rfl
  · rw [respond_box_same _ _ _ _ _ runs]
    rfl

/-- Poisoned data loaded by a compression. -/
theorem poisoned_compress {s : State} {c : Compress} (a : U64) (hc : s.exch.compress = some c) (hf : s.stat.fwState.get = 2)
    (ha : c.aborts = []) (hl : s.log.entries = []) : Ends (.poisonedReadData .compress a) s fun t =>
      t.exch.compress = none ∧ t.mem = s.mem ∧ (box t c.mailbox).code = 0x20 ∧ OtherBoxes s t c.mailbox ∧
      ∃ e, t.log.entries = [e] ∧ e.cls = 4 ∧ e.uncorr = true ∧ e.detail = a := by
  obtain ⟨log, events, ovf, logged, entry⟩ := poison_logged hl (srcOf 4 0) a
  obtain ⟨u, hu⟩ : ∃ u, u = logReport s clPoison (srcOf 4 0) a.toNat := ⟨_, rfl⟩
  have run : exec (.poisonedReadData .compress a) s = .next (endCompress u c stFault (newestIndex u) 0) := by
    refine congrArg Host.Outcome.next ?_
    simp only [hc, hu]
  rw [logged] at hu
  have runs : fwRunning u = true := by
    rw [hu]
    exact decide_eq_true hf
  obtain ⟨t, ht⟩ : ∃ t, t = endCompress u c stFault (newestIndex u) 0 := ⟨_, rfl⟩
  obtain ⟨gone, mem, -, tlog, -, -, others, -, code, -⟩ := endCompress_leaves runs ha ht
  rw [← ht] at run
  refine ⟨t, run, gone, mem.trans (by rw [hu]), code, fun m hm => (others m hm).trans (by rw [hu]; rfl), ?_⟩
  rw [tlog, hu]
  exact entry

/-- Poisoned data loaded by a reduction. -/
theorem poisoned_reduce {s : State} {r : Reduce} (a : U64) (hr : s.exch.reduces = [r]) (hf : s.stat.fwState.get = 2)
    (ha : r.aborts = []) (hl : s.log.entries = []) : Ends (.poisonedReadData (.reduce r.group r.seq) a) s fun t =>
      t.exch.reduces = [] ∧ t.mem = s.mem ∧ (box t r.mailbox).code = 0x20 ∧ OtherBoxes s t r.mailbox ∧
      ∃ e, t.log.entries = [e] ∧ e.cls = 4 ∧ e.uncorr = true ∧ e.detail = a := by
  obtain ⟨log, events, ovf, logged, entry⟩ := poison_logged hl (srcOf 4 0) a
  obtain ⟨u, hu⟩ : ∃ u, u = logReport s clPoison (srcOf 4 0) a.toNat := ⟨_, rfl⟩
  have named : reduceOf s r.group r.seq = some r := by
    rw [reduceOf, hr]
    simp
  have run : exec (.poisonedReadData (.reduce r.group r.seq) a) s = .next (endReduce u r stFault (newestIndex u) 0 noCancel) := by
    refine congrArg Host.Outcome.next ?_
    simp only [named, hu]
  rw [logged] at hu
  have runs : fwRunning u = true := by
    rw [hu]
    exact decide_eq_true hf
  obtain ⟨t, ht⟩ : ∃ t, t = endReduce u r stFault (newestIndex u) 0 noCancel := ⟨_, rfl⟩
  obtain ⟨gone, mem, tlog, others, code⟩ := endReduce_leaves runs (by rw [hu]; exact hr) ha ht
  rw [← ht] at run
  refine ⟨t, run, gone, mem.trans (by rw [hu]), code, fun m hm => (others m hm).trans (by rw [hu]; rfl), ?_⟩
  rw [tlog, hu]
  exact entry

/-- Poisoned data loaded by the apply unit. -/
theorem poisoned_apply {s : State} {r : ApplyRun} (a : U64) (hr : s.apply.run = some r) (hs : r.stop = .none)
    (hl : s.log.entries = []) : Ends (.poisonedReadData .apply a) s fun t =>
      t.apply = { s.apply with run := t.apply.run } ∧ t.mem = s.mem ∧ t.mb = s.mb ∧
      (∃ q, t.apply.run = some q ∧ q.stop = .fault ∧ q.layer = r.layer ∧ q.tile = r.tile) ∧
      ∃ e, t.log.entries = [e] ∧ e.cls = 4 ∧ e.uncorr = true ∧ e.detail = a := by
  obtain ⟨log, events, ovf, logged, entry⟩ := poison_logged hl (srcOf 3 0) a
  have run : exec (.poisonedReadData .apply a) s = .next { s with
      log := log, events := events, stat := { s.stat with evtOvf := ovf }
      apply := { s.apply with run := some { r with stop := .fault, faultIndex := newestIndex { s with log := log } } } } := by
    refine congrArg Host.Outcome.next ?_
    simp only [hr, logged, Option.map_some, hs, finishesTiles, if_true]
    rfl
  exact ⟨_, run, rfl, rfl, rfl, ⟨_, rfl, rfl, rfl, rfl⟩, entry⟩

/-- Settles O48: a compression starts, ends and is stopped, and poisoned data stops the unit that loaded it. -/
theorem compressionRunsAndPoisonStops : Obligations.CompressionRunsAndPoisonStops := by
  intro s
  refine ⟨fun mb priv cmd p h hp => ?_, fun c hc hf ha => ⟨fun hs hb => ?_, fun hs hr hb => ?_, fun hs hb => ?_,
    fun a hl => poisoned_compress a hc hf ha hl⟩, fun r a hr hf ha hl => poisoned_reduce a hr hf ha hl,
    fun r a hr hs hl => poisoned_apply a hr hs hl⟩
  · obtain ⟨off, busy, starts⟩ := exchCompress_clauses h hp
    refine ⟨off, busy, fun he hd hs hc ha hn hf => ?_⟩
    obtain ⟨t, run, long, frame, compress⟩ := starts he hd hs hc ha hn hf
    exact ⟨t, run, long, frame, _, compress, rfl, rfl, rfl, rfl, rfl, rfl, rfl⟩
  · have runs : fwRunning s = true := decide_eq_true hf
    obtain ⟨gone, mem, cap, -, -, -, others, free, code, rsp⟩ := endCompress_leaves (stopped := 0) runs ha rfl
    refine ⟨_, exchCompressComplete_done hc hs hb, gone, mem, cap, free, code, ?_, ?_, ?_, others⟩
    · rw [rsp (by decide) (by decide)]
      exact fld_mkLine_head (by decide) (by simp [apart])
    · rw [rsp (by decide) (by decide), ← hb]
      exact (fld_mkLine_skip (by decide) (by decide)).trans (fld_mkLine_head (by decide) (by simp [apart]))
    · rw [rsp (by decide) (by decide)]
      exact (fld_mkLine_skip (by decide) (by decide)).trans ((fld_mkLine_skip (by decide) (by decide)).trans
        ((fld_mkLine_skip (by decide) (by decide)).trans ((fld_mkLine_skip (by decide) (by decide)).trans
          (fld_mkLine_head (by decide) (by simp [apart])))))
  · obtain ⟨u, d, frame, run, block, mailbox, aborts⟩ := exchCompressComplete_last hc hs hr hb
    have runs : fwRunning { u with exch.compress := some d } = true := by
      rw [frame]
      exact decide_eq_true hf
    obtain ⟨gone, -, -, -, tide, agree, -, free, code, rsp⟩ := endCompress_leaves (stopped := 0) runs (aborts.trans ha) rfl
    rw [mailbox] at free code rsp
    refine ⟨_, run, gone, free, code, ?_, ?_, ?_⟩
    · rw [rsp (by decide) (by decide), ← hb, ← block]
      exact (fld_mkLine_skip (by decide) (by decide)).trans (fld_mkLine_head (by decide) (by simp [apart]))
    · rw [tide, frame]
    · rw [agree, frame]
  · have runs : fwRunning { s with freeCtr := s.freeCtr + 1 } = true := decide_eq_true hf
    obtain ⟨gone, mem, -, -, -, -, others, -, code, -⟩ := endCompress_leaves (stopped := 0) runs ha rfl
    exact ⟨_, exchCompressComplete_lost hc hs hb, gone, mem, code, others⟩

end Sys2Proof.Machine

/-! PROOFS. The apply unit's completion under COMPAT_A (R181, R334). -/

namespace Sys2Proof.Machine

/-! ### A response under COMPAT_A (R334) -/

/-- Under COMPAT_A the upper 32 B of a response are zero. -/
theorem fld_responseLine_compat (op : Byte) (tag : U16) (status detail : Nat) (rs : List (Nat × Nat × Nat)) {o n : Nat}
    (h : 32 ≤ o) : fld (responseLine true op tag status detail rs) o n = 0 := by
  refine congrArg BitVec.toNat (a₂ := 0#(8 * n)) (BitVec.eq_of_getLsbD_eq fun i hi => ?_)
  simp only [responseLine, if_true]
  rw [BitVec.getLsbD_extractLsb', BitVec.getLsbD_and, BitVec.getLsbD_ofNat, Nat.testBit_two_pow_sub_one]
  have high : ¬ 8 * o + i < 256 := by omega
  simp [high]

/-- A run of the smallest recipe, all its tiles done, whose last write was captured a nanosecond after it began. -/
def doneRun : ApplyRun :=
  ⟨0, ⟨0, 0, [], [], [], []⟩, 0, 0, [], 0, 0, 0, Vector.replicate 4 none, .none, [], 0, 0, some 1, 0, 0, 0⟩

/-- Firmware runs under COMPAT_A, and the apply unit's run is done. -/
def compatRun : State := { State.reset with
  ctrl.compatA := V3.all 1
  stat.fwState := V3.all 2
  apply.run := some doneRun }

/-- Refutes O49: under COMPAT_A the response to APPLY_RUN ends at byte 32, so that it holds no elapsed time. -/
theorem not_applyRunsTilesInOrder : ¬ Obligations.ApplyRunsTilesInOrder := by
  intro h
  obtain ⟨-, -, -, completes⟩ := h compatRun
  obtain ⟨-, done, -⟩ := completes doneRun rfl (by decide +kernel) rfl rfl
  obtain ⟨t, ht, -, -, -, -, -, -, -, -, -, elapsed, -⟩ := done rfl (by decide +kernel)
  have time := elapsed 1 rfl
  obtain rfl := Host.Outcome.next.inj ht
  have short : fld (box (endRun (noteApply compatRun 1) doneRun stOk 0 (applyResults compatRun doneRun 0 0 0)) 0).rsp 32 8 = 0 := by
    rw [show box (endRun (noteApply compatRun 1) doneRun stOk 0 (applyResults compatRun doneRun 0 0 0)) 0 =
      answered true (box compatRun 0) stOk 0 (applyResults compatRun doneRun 0 0 0) from by decide +kernel]
    exact fld_responseLine_compat _ _ _ _ _ (by decide)
  exact absurd (short.symm.trans time) (by decide)

end Sys2Proof.Machine

/-! PROOFS. A block written where nothing is captured or staged (R47, R178, R198). -/

namespace Sys2Proof.Machine

/-! ### A block written by a unit where nothing is captured or staged (R47, R178, R198) -/

theorem getLsbD_maskOf_mem (w : Nat) (l : List Nat) {i : Nat} (hi : i < w) : (maskOf w l).getLsbD i = decide (i ∈ l) := by
  induction l with
  | nil => simp [maskOf]
  | cons p t ih =>
    rw [maskOf, BitVec.getLsbD_or, ih, BitVec.getLsbD_ofNat, Nat.testBit_two_pow]
    by_cases h : p = i
    · simp [h, hi]
    · simp [h, Ne.symm h]

/-- A line from at most 64 bytes has those bytes, and zeros. -/
theorem lineByte_lineOf_take (bs : List Byte) {j : Nat} (h : j < 64) : lineByte (lineOf bs) j = bs.getD j 0 := by
  have small : leNat (bs.take 64) < 2 ^ 512 :=
    (leNat_lt _).trans_le ((Nat.pow_le_pow_right (by decide) (List.length_take_le 64 bs)).trans (by
      rw [show (512 : Nat) = 8 * 64 from rfl, pow_mul]
      exact le_refl _))
  rw [lineByte_eq, lineOf, toNat_ofNat_of_lt small, byte_leNat, List.getD_eq_getElem?_getD, List.getElem?_take_of_lt h,
    ← List.getD_eq_getElem?_getD]

/-- The part of a block that falls into a line, merged into the line. -/
theorem lineByte_linePart {a line j : Nat} (bs : List Byte) (old : Line) (ha : a ≤ line) (hj : j < 64) :
    lineByte (mergeLine (linePart a bs line).1 old (linePart a bs line).2) j =
      if line + j < a + bs.length then bs.getD (line + j - a) 0 else lineByte old j := by
  have enabled : (linePart a bs line).1.getLsbD j = decide (line + j < a + bs.length) := by
    rw [linePart, getLsbD_maskOf_mem 64 _ hj]
    simp [hj, show a ≤ line + j by omega]
  rw [lineByte_mergeLine _ _ _ hj, enabled]
  by_cases h : line + j < a + bs.length
  · rw [if_pos (decide_eq_true h), if_pos h, linePart, if_pos ha]
    dsimp only
    rw [lineByte_lineOf_take _ hj, List.getD_eq_getElem?_getD, List.getElem?_drop, ← List.getD_eq_getElem?_getD,
      show line - a + j = line + j - a by omega]
  · rw [if_neg (by simp [h]), if_neg h]

/-- The lines that the apply unit has read, those between two addresses raced. -/
def racedIn (lo hi : Nat) (es : List ApplyLine) : List ApplyLine :=
  es.map fun e => if lo ≤ e.addr ∧ e.addr < hi ∧ e.addr % 64 = 0 then { e with raced := true } else e

/-- A state that differs from another in memory and in the apply unit's lines. -/
def unitWritten (s : State) (mem : Mem) (issued : List ApplyLine) : State :=
  { s with mem := mem, apply := { s.apply with issued := issued } }

theorem racedIn_line {a k : Nat} (h : a % 64 = 0) (es : List ApplyLine) :
    (racedIn a (a + 64 * k) es).map (fun e => if e.addr = a + 64 * k then { e with raced := true } else e) =
      racedIn a (a + 64 * (k + 1)) es := by
  rw [racedIn, racedIn, List.map_map]
  refine List.map_congr_left fun e _ => ?_
  by_cases here : e.addr = a + 64 * k
  · have inside : a ≤ e.addr ∧ e.addr < a + 64 * (k + 1) ∧ e.addr % 64 = 0 := by omega
    have outside : ¬ (a ≤ e.addr ∧ e.addr < a + 64 * k ∧ e.addr % 64 = 0) := by omega
    simp only [Function.comp_apply, if_neg outside, if_pos inside, if_pos here]
  · by_cases inside : a ≤ e.addr ∧ e.addr < a + 64 * k ∧ e.addr % 64 = 0
    · have wider : a ≤ e.addr ∧ e.addr < a + 64 * (k + 1) ∧ e.addr % 64 = 0 := by omega
      simp only [Function.comp_apply, if_pos inside, if_pos wider, if_neg here]
    · have wider : ¬ (a ≤ e.addr ∧ e.addr < a + 64 * (k + 1) ∧ e.addr % 64 = 0) := by omega
      simp only [Function.comp_apply, if_neg inside, if_neg wider, if_neg here]

/-- Where nothing is staged, a line drops no copy. -/
theorem dropCopies_none {s : State} (hs : s.tier.staged = []) (hr : s.tier.rows = []) (a : Nat) : dropCopies s a = s := by
  have same : { s.tier with staged := [], rows := [] } = s.tier := by
    cases h : s.tier
    rw [h] at hs hr
    simp_all
  rw [dropCopies, hs, hr, List.filter_nil, List.map_nil, same]

/-- A line written while the STAGE window holds nothing, by another unit than the apply unit. -/
theorem commitLine_bare {s : State} (hs : s.tier.staged = []) (hr : s.tier.rows = []) (a : Nat) (new : Line) {m : Master}
    (hm : m ≠ .apply) : commitLine s a new [m] = unitWritten s (s.mem.writeLine a new)
      (s.apply.issued.map fun e => if e.addr = a then { e with raced := true } else e) := by
  have race : markRace s a [m] = unitWritten s s.mem
      (s.apply.issued.map fun e => if e.addr = a then { e with raced := true } else e) :=
    if_neg (by simpa using hm)
  have none : copiesOf (markRace s a [m]) a = [] := by
    rw [copiesOf_markRace, copiesOf, hs, hr]
    rfl
  obtain ⟨u, hu⟩ : ∃ u, u = markRace s a [m] := ⟨_, rfl⟩
  have staged : u.tier.staged = [] := by rw [hu, race]; exact hs
  have rows : u.tier.rows = [] := by rw [hu, race]; exact hr
  rw [← hu] at race none
  unfold commitLine
  dsimp only
  rw [← hu, none, dropCopies_none staged rows, race]
  split
  · rfl
  · rfl

/-- The first lines of a block written by another unit than the apply unit, where the filter and the STAGE window hold
nothing. -/
theorem unitStores_plain {s : State} (hf : s.cap.filter = []) (hs : s.tier.staged = []) (hr : s.tier.rows = []) {m : Master}
    (hm : m ≠ .apply) {a : Nat} (ha : a % 64 = 0) (bs : List Byte) (hb : a + bs.length ≤ 2 ^ 64) (k : Nat)
    (hk : 64 * k < bs.length + 64) :
    ∃ mem, forEach (List.range k) (fun t i =>
        unitStore t m ((a / 64 + i) * 64) (linePart a bs ((a / 64 + i) * 64)).1 (linePart a bs ((a / 64 + i) * 64)).2) s =
        unitWritten s mem (racedIn a (a + 64 * k) s.apply.issued) ∧
      ∀ x, mem.byte x = if a ≤ x ∧ x < a + 64 * k ∧ x < a + bs.length then bs.getD (x - a) 0 else s.mem.byte x := by
  induction k with
  | zero =>
    refine ⟨s.mem, ?_, fun x => (if_neg (by omega)).symm⟩
    have none : racedIn a (a + 64 * 0) s.apply.issued = s.apply.issued := by
      rw [racedIn]
      exact (List.map_congr_left fun e _ => if_neg (by omega)).trans (List.map_id' _)
    rw [none]
    rfl
  | succ k ih =>
    obtain ⟨mem, stores, bytes⟩ := ih (by omega)
    have line : (a / 64 + k) * 64 = a + 64 * k := by omega
    obtain ⟨p, hp⟩ : ∃ p, p = linePart a bs (a + 64 * k) := ⟨_, rfl⟩
    obtain ⟨u, hu⟩ : ∃ u, u = unitWritten s mem (racedIn a (a + 64 * k) s.apply.issued) := ⟨_, rfl⟩
    have free : filtered u (a + 64 * k) = false := by
      rw [filtered, hu, unitWritten, hf]
      rfl
    have here : (BitVec.ofNat 64 (a + 64 * k)).toNat = a + 64 * k := toNat_ofNat_of_lt (by omega)
    have store : unitStore u m (a + 64 * k) p.1 p.2 =
        commitLine u (a + 64 * k) (mergeLine p.1 (u.mem.line (a + 64 * k)) p.2) [m] := by
      rw [unitStore]
      dsimp only
      rw [if_neg (by rw [free]; exact Bool.false_ne_true), commitBytes]
      dsimp only
      rw [here]
    refine ⟨mem.writeLine (a + 64 * k) (mergeLine p.1 (mem.line (a + 64 * k)) p.2), ?_, fun x => ?_⟩
    · rw [List.range_succ, forEach_append, stores, ← hu]
      show unitStore u m ((a / 64 + k) * 64) _ _ = _
      rw [line, ← hp, store, commitLine_bare (by rw [hu]; exact hs) (by rw [hu]; exact hr) _ _ hm, hu, ← racedIn_line ha]
      rfl
    · by_cases out : outsideLine (a + 64 * k) x
      · rw [Mem.byte_writeLine_other _ _ _ out, bytes]
        have apart : x < a + 64 * k ∨ a + 64 * k + 64 ≤ x := out
        by_cases h : a ≤ x ∧ x < a + 64 * k ∧ x < a + bs.length
        · rw [if_pos h, if_pos (by omega)]
        · rw [if_neg h, if_neg (by omega)]
      · obtain ⟨j, rfl⟩ := Nat.exists_eq_add_of_le (show a + 64 * k ≤ x by simp only [outsideLine] at out; omega)
        have hj : j < 64 := by simp only [outsideLine] at out; omega
        rw [Mem.byte_writeLine_same _ _ _ hj, hp, lineByte_linePart bs _ (by omega) hj, lineByte_memLine _ _ hj, bytes]
        by_cases h : a + 64 * k + j < a + bs.length
        · rw [if_pos h, if_pos (by omega)]
        · rw [if_neg h, if_neg (by omega), if_neg (by omega)]

/-- A block written by another unit than the apply unit, where the filter and the STAGE window hold nothing: memory takes
the block, and the lines of it that the apply unit has read are raced. -/
theorem unitWrite_plain {s : State} (hf : s.cap.filter = []) (hs : s.tier.staged = []) (hr : s.tier.rows = []) {m : Master}
    (hm : m ≠ .apply) {a : Nat} (ha : a % 64 = 0) (bs : List Byte) (hb : a + bs.length ≤ 2 ^ 64) :
    ∃ mem, unitWrite s m a bs = unitWritten s mem (racedIn a (a + bs.length) s.apply.issued) ∧
      ∀ x, mem.byte x = if a ≤ x ∧ x < a + bs.length then bs.getD (x - a) 0 else s.mem.byte x := by
  obtain ⟨mem, stores, bytes⟩ :=
    unitStores_plain hf hs hr hm ha bs hb ((a + bs.length + 63) / 64 - a / 64) (by omega)
  have raced : racedIn a (a + 64 * ((a + bs.length + 63) / 64 - a / 64)) s.apply.issued =
      racedIn a (a + bs.length) s.apply.issued := by
    refine List.map_congr_left fun e _ => ?_
    by_cases h : a ≤ e.addr ∧ e.addr < a + bs.length ∧ e.addr % 64 = 0
    · rw [if_pos h, if_pos (by omega)]
    · rw [if_neg h, if_neg (by omega)]
  rw [raced] at stores
  refine ⟨mem, ?_, fun x => (bytes x).trans ?_⟩
  · by_cases h : bs = []
    · rw [unitWrite, if_pos h, ← stores, h]
      rw [show (a + ([] : List Byte).length + 63) / 64 - a / 64 = 0 by simp; omega]
      rfl
    · rw [unitWrite, if_neg h]
      exact stores
  · by_cases h : a ≤ x ∧ x < a + bs.length
    · rw [if_pos h, if_pos (by omega)]
    · rw [if_neg h, if_neg (by omega)]

/-- The block reads back. -/
theorem bytes_of_written {m n : Mem} {a : Nat} {bs : List Byte}
    (h : ∀ x, n.byte x = if a ≤ x ∧ x < a + bs.length then bs.getD (x - a) 0 else m.byte x) : n.bytes a bs.length = bs := by
  refine List.ext_getElem (Mem.bytes_length ..) fun i h1 h2 => ?_
  have got := h (a + i)
  rw [if_pos (by omega), show a + i - a = i by omega, ← Mem.bytes_getD _ _ _ h2] at got
  simpa [List.getD, h1, h2] using got

end Sys2Proof.Machine

/-! PROOFS. Info commands, PART_SET and ABORT (R212, R230, R231, R329 to R332, R343). -/

namespace Sys2Proof.Machine

/-! ### A command that changes a state and is then answered (R317, R319) -/

/-- A command whose state has changed to `w` outside mailboxes, events and status when it is answered. -/
theorem answered_changed {s w : State} {mb : Fin 8} {priv : Bool} {cmd : Line} (hf : fwRunning w = true) (hmb : w.mb = s.mb)
    (hev : w.events = s.events) (hst : w.stat = s.stat) {status detail : Nat} {rs : List (Nat × Nat × Nat)}
    (hs : status < 256) (hd : detail < 2 ^ 32) (hr : ∀ f ∈ rs, f.1 + f.2.1 ≤ 64 ∧ 8 ≤ f.1) {t : State}
    (ht : t = respond (took w mb priv cmd) mb status detail rs) :
    Answered s t mb cmd status detail ∧ BoxFrame s t mb ∧
      t = { w with mb := t.mb, events := t.events, stat := { s.stat with evtOvf := t.stat.evtOvf } } := by
  have boxes : ∀ m, box w m = box s m := fun m => by rw [box, box, hmb]
  have running : fwRunning (took w mb priv cmd) = true := hf
  have only : OnlyBox w t mb := ht ▸ (onlyBox_took w mb priv cmd).trans (onlyBox_respond running mb status detail rs)
  refine ⟨?_, ⟨fun m hm => (only.others m hm).trans (boxes m), ?_, fun hm => ?_⟩, ?_⟩
  · rw [ht]
    exact answered_respond running ((box_took w mb priv cmd).trans (by rw [boxes])) hs hd hr
  · rw [only.frame]
    show w.mb.waiting = s.mb.waiting
    rw [hmb]
  · rw [← hev, ← hst]
    exact only.quiet hm
  · have umb : t.mb = { w.mb with boxes := t.mb.boxes } := congrArg State.mb only.frame
    conv_lhs => rw [only.frame]
    rw [← umb, hst]

/-- A long command whose state has changed to `w` outside mailboxes, events and status when it is accepted. -/
theorem accepted_changed {s w : State} {mb : Fin 8} {priv : Bool} {cmd : Line} (hmb : w.mb = s.mb)
    (hev : w.events = s.events) (hst : w.stat = s.stat) {t : State} (ht : t = accepted (took w mb priv cmd) mb) :
    RunsLong s t mb cmd ∧ BoxFrame s t mb ∧
      t = { w with mb := t.mb, events := t.events, stat := { s.stat with evtOvf := t.stat.evtOvf } } := by
  have boxes : ∀ m, box w m = box s m := fun m => by rw [box, box, hmb]
  have only : OnlyBox w t mb := ht ▸ (onlyBox_took w mb priv cmd).trans (onlyBox_accepted (took w mb priv cmd) mb)
  refine ⟨?_, ⟨fun m hm => (only.others m hm).trans (boxes m), ?_, fun hm => ?_⟩, ?_⟩
  · rw [ht]
    exact runsLong_accepted ((box_took w mb priv cmd).trans (by rw [boxes]))
  · rw [only.frame]
    show w.mb.waiting = s.mb.waiting
    rw [hmb]
  · rw [← hev, ← hst]
    exact only.quiet hm
  · have umb : t.mb = { w.mb with boxes := t.mb.boxes } := congrArg State.mb only.frame
    conv_lhs => rw [only.frame]
    rw [← umb, hst]

/-! ### FW_INFO and STATUS_GET (R329) -/

/-- Fields that lie within a block and do not meet. -/
def fieldsApart : List (Nat × Nat × Nat) → Bool
  | [] => true
  | (o, n, _) :: t => decide (o + n ≤ 64) && t.all (fun f => decide (o + n ≤ f.1) || decide (f.1 + f.2.1 ≤ o)) && fieldsApart t

/-- Every field of a block whose fields do not meet is its value, cut to its size. -/
theorem fld_mkLine_mem {o n v : Nat} : ∀ {fs : List (Nat × Nat × Nat)}, fieldsApart fs = true → (o, n, v) ∈ fs →
    fld (mkLine fs) o n = v % 2 ^ (8 * n)
  | [], _, h => absurd h (by simp)
  | (p, m, w) :: t, h, hmem => by
    obtain ⟨⟨hle, hall⟩, htail⟩ : ((p + m ≤ 64) ∧ ∀ f ∈ t, p + m ≤ f.1 ∨ f.1 + f.2.1 ≤ p) ∧ fieldsApart t = true := by
      simpa [fieldsApart] using h
    have inside : ∀ {fs : List (Nat × Nat × Nat)}, fieldsApart fs = true → ∀ f ∈ fs, f.1 + f.2.1 ≤ 64 := by
      intro fs
      induction fs with
      | nil => exact fun _ f hf => absurd hf (by simp)
      | cons a u ih =>
        obtain ⟨q, k, x⟩ := a
        intro hu f hf
        simp only [fieldsApart, Bool.and_eq_true, decide_eq_true_eq] at hu
        rcases List.mem_cons.1 hf with rfl | hf
        · exact hu.1.1
        · exact ih hu.2 f hf
    rcases List.mem_cons.1 hmem with e | hin
    · obtain ⟨rfl, rfl, rfl⟩ : o = p ∧ n = m ∧ v = w := by simpa using e
      refine fld_mkLine_head hle fun f hf => ⟨inside htail f hf, ?_⟩
      exact (hall f hf).symm
    · rw [fld_mkLine_skip hle (hall _ hin)]
      exact fld_mkLine_mem htail hin

/-- The results of a response whose upper half COMPAT_A does not clear. -/
theorem fld_responseLine_plain (op : Byte) (tag : U16) (status detail : Nat) (rs : List (Nat × Nat × Nat)) {o n : Nat}
    (ho : 8 ≤ o) (h : o + n ≤ 64) : fld (responseLine false op tag status detail rs) o n = fld (mkLine rs) o n := by
  have skip : ∀ {p m v : Nat} {t : List (Nat × Nat × Nat)}, p + m ≤ 8 →
      fld (mkLine ((p, m, v) :: t)) o n = fld (mkLine t) o n := fun hp =>
    fld_mkLine_skip (by omega) (.inl (by omega))
  exact (skip (by decide)).trans ((skip (by decide)).trans ((skip (by decide)).trans (skip (by decide))))

theorem fld_rsp_plain {u : State} (mb : Fin 8) (status detail : Nat) (rs : List (Nat × Nat × Nat))
    (hf : fwRunning u = true) (hc : u.ctrl.compatA.get = 0) {o n : Nat} (ho : 8 ≤ o) (h : o + n ≤ 64) :
    fld (box (respond u mb status detail rs) mb).rsp o n = fld (mkLine rs) o n := by
  rw [respond_box_same u mb status detail rs hf, hc]
  exact fld_responseLine_plain _ _ _ _ _ ho h

theorem fwInfo_clauses {s : State} {mb : Fin 8} {priv : Bool} {cmd : Line} (h : Handled s mb priv 0x01 cmd) :
    Ends (.fwInfo (.issue mb (portOf mb) priv cmd)) s fun t =>
      Answered s t mb cmd 0 0 ∧ OnlyAnswer s t mb ∧ fld (box t mb).rsp 8 2 = 0x0402 ∧ fld (box t mb).rsp 10 1 = 0xB0 ∧
      fld (box t mb).rsp 11 1 = s.fuses.lcs.toNat ∧ fld (box t mb).rsp 12 4 = fldAt s.fw.image 12 4 ∧
      fld (box t mb).rsp 16 4 = fldAt s.fw.image 16 4 ∧
      (s.ctrl.compatA.get = 0 → fld (box t mb).rsp 32 32 = fldAt s.fw.image 32 32) := by
  have run : exec (.fwInfo (.issue mb (portOf mb) priv cmd)) s =
      .next (infoWork mb (takenCmd mb priv cmd) (took s mb priv cmd)) := exec_handled infoWork h (by rfl)
  have running : fwRunning (took s mb priv cmd) = true := (fwRunning_of_handled h :)
  obtain ⟨u, hu⟩ : ∃ u, u = took s mb priv cmd := ⟨_, rfl⟩
  obtain ⟨image, himage⟩ : ∃ image, image = s.fw.image := ⟨_, rfl⟩
  have hi : u.fw.image = image := by rw [hu, himage]; rfl
  have hl : u.fuses.lcs = s.fuses.lcs := by rw [hu]; rfl
  have hc : u.ctrl.compatA = s.ctrl.compatA := by rw [hu]; rfl
  obtain ⟨rs, hrs⟩ : ∃ rs : List (Nat × Nat × Nat), rs = [(8, 2, 0x0402), (10, 1, 0xB0), (11, 1, s.fuses.lcs.toNat),
    (12, 4, fldAt image 12 4), (16, 4, fldAt image 16 4), (32, 32, fldAt image 32 32)] := ⟨_, rfl⟩
  have fields : fieldsApart rs = true := by rw [hrs]; rfl
  have all := answeredOnly h (status := stOk) (detail := 0) (rs := rs) (by decide) (by decide) (by simp [hrs])
  rw [← hu] at run running all
  rw [infoWork, hi, hl, ← hrs] at run
  rw [← himage]
  have low : ∀ {o n v : Nat}, 8 ≤ o → o + n ≤ 32 → (o, n, v) ∈ rs → v < 2 ^ (8 * n) →
      fld (box (respond u mb stOk 0 rs) mb).rsp o n = v := fun ho hn hm hv =>
    (fld_rsp_respond mb stOk 0 rs running ho hn).trans ((fld_mkLine_mem fields hm).trans (Nat.mod_eq_of_lt hv))
  refine ⟨_, run, all.1, all.2, ?_, ?_, ?_, ?_, ?_, fun h0 => ?_⟩
  · exact low (by decide) (by decide) (by simp [hrs]) (by decide)
  · exact low (by decide) (by decide) (by simp [hrs]) (by decide)
  · exact low (by decide) (by decide) (by simp [hrs]) (s.fuses.lcs.isLt.trans_le (by decide))
  · exact low (by decide) (by decide) (by simp [hrs]) (fldAt_lt image 12 4)
  · exact low (by decide) (by decide) (by simp [hrs]) (fldAt_lt image 16 4)
  · refine (fld_rsp_plain mb stOk 0 rs running (by rw [hc]; exact h0) (by decide) (by decide)).trans
      ((fld_mkLine_mem fields (by simp [hrs])).trans (Nat.mod_eq_of_lt ?_))
    exact fldAt_lt image 32 32

theorem statusGet_run {s : State} {mb : Fin 8} {priv : Bool} {cmd : Line} (h : Handled s mb priv 0x02 cmd) :
    exec (.statusGet (.issue mb (portOf mb) priv cmd)) s =
      .next (statusWork mb (takenCmd mb priv cmd) (took s mb priv cmd)) := exec_handled statusWork h (by rfl)

/-- The summary page's fields. -/
theorem summary_fields (u : State) : fieldsApart (summary u) = true := rfl

theorem statusGet_summary {s : State} {mb : Fin 8} {priv : Bool} {cmd : Line} (h : Handled s mb priv 0x02 cmd)
    (h0 : fld cmd 8 1 = 0) (hd : fld cmd 16 8 = 0) : Ends (.statusGet (.issue mb (portOf mb) priv cmd)) s fun t =>
      Answered s t mb cmd 0 0 ∧ OnlyAnswer s t mb ∧ fld (box t mb).rsp 8 1 = s.job.state.toNat ∧
      fld (box t mb).rsp 9 1 = s.power.season.get.toNat ∧ fld (box t mb).rsp 11 1 = s.tide.phase.get.toNat ∧
      fld (box t mb).rsp 14 2 = s.agree.live.get.toNat ∧ fld (box t mb).rsp 16 4 = s.agree.epoch.get.toNat ∧
      fld (box t mb).rsp 20 6 = (sealedTide s).toNat ∧ fld (box t mb).rsp 26 1 = s.recov.state.get.toNat ∧
      fld (box t mb).rsp 27 1 = s.agree.state.toNat ∧
      (s.ctrl.compatA.get = 0 → fld (box t mb).rsp 32 8 = s.time.gtc.toNat ∧
        fld (box t mb).rsp 40 4 = (jobTag s).toNat) := by
  have run := statusGet_run h
  have running : fwRunning (took s mb priv cmd) = true := (fwRunning_of_handled h :)
  obtain ⟨u, hu⟩ : ∃ u, u = took s mb priv cmd := ⟨_, rfl⟩
  have same : summary u = summary s := by rw [hu]; rfl
  obtain ⟨rs, hrs⟩ : ∃ rs, rs = summary s := ⟨_, rfl⟩
  have fields : fieldsApart rs = true := by rw [hrs]; exact summary_fields s
  have all := answeredOnly h (status := stOk) (detail := 0) (rs := rs) (by decide) (by decide) (by simp [hrs, summary])
  rw [← hu] at run running all
  rw [statusWork] at run
  dsimp only at run
  rw [if_neg (by omega), if_pos h0, if_neg (by simpa using hd), same, ← hrs] at run
  have low : ∀ {o n v : Nat}, 8 ≤ o → o + n ≤ 32 → (o, n, v) ∈ rs → v < 2 ^ (8 * n) →
      fld (box (respond u mb stOk 0 rs) mb).rsp o n = v := fun ho hn hm hv =>
    (fld_rsp_respond mb stOk 0 rs running ho hn).trans ((fld_mkLine_mem fields hm).trans (Nat.mod_eq_of_lt hv))
  refine ⟨_, run, all.1, all.2, ?_, ?_, ?_, ?_, ?_, ?_, ?_, ?_, fun h0 => ?_⟩
  · exact low (by decide) (by decide) (by simp [hrs, summary]) (s.job.state.isLt.trans_le (by decide))
  · exact low (by decide) (by decide) (by simp [hrs, summary]) (s.power.season.get.isLt.trans_le (by decide))
  · exact low (by decide) (by decide) (by simp [hrs, summary, phaseNow]) (s.tide.phase.get.isLt.trans_le (by decide))
  · exact low (by decide) (by decide) (by simp [hrs, summary, liveSet]) s.agree.live.get.isLt
  · exact low (by decide) (by decide) (by simp [hrs, summary, epochNow]) s.agree.epoch.get.isLt
  · exact low (by decide) (by decide) (by simp [hrs, summary]) (sealedTide s).isLt
  · exact low (by decide) (by decide) (by simp [hrs, summary]) (s.recov.state.get.isLt.trans_le (by decide))
  · exact low (by decide) (by decide) (by simp [hrs, summary]) (s.agree.state.isLt.trans_le (by decide))
  · have plain : u.ctrl.compatA.get = 0 := by rw [hu]; exact h0
    exact ⟨(fld_rsp_plain mb stOk 0 rs running plain (by decide) (by decide)).trans
        ((fld_mkLine_mem fields (by simp [hrs, summary])).trans (Nat.mod_eq_of_lt s.time.gtc.isLt)),
      (fld_rsp_plain mb stOk 0 rs running plain (by decide) (by decide)).trans
        ((fld_mkLine_mem fields (by simp [hrs, summary])).trans (Nat.mod_eq_of_lt (jobTag s).isLt))⟩

/-- A command that writes a block where nothing is captured or staged, and is answered OK. -/
theorem block_answered {s : State} {mb : Fin 8} {priv : Bool} {cmd : Line} (running : fwRunning s = true)
    (hf : s.cap.filter = []) (hst : s.tier.staged = []) (hro : s.tier.rows = []) {a : Nat} (ha : a % 64 = 0) {bs : List Byte}
    (hb : a + bs.length ≤ 2 ^ 64) {rs : List (Nat × Nat × Nat)} (hr : ∀ f ∈ rs, f.1 + f.2.1 ≤ 64 ∧ 8 ≤ f.1) {t : State}
    (ht : t = respond (unitWrite (took s mb priv cmd) .hygarOther a bs) mb stOk 0 rs) :
    Answered s t mb cmd 0 0 ∧ BoxFrame s t mb ∧ t.mem.bytes a bs.length = bs ∧ SameOutside s t a bs.length ∧
      t = { s with
        mb := t.mb, events := t.events, stat := { s.stat with evtOvf := t.stat.evtOvf }
        mem := t.mem
        apply := { s.apply with issued := racedIn a (a + bs.length) s.apply.issued } } ∧
      ∀ {o n : Nat}, 8 ≤ o → o + n ≤ 32 → fld (box t mb).rsp o n = fld (mkLine rs) o n := by
  obtain ⟨mem, wrote, bytes⟩ := unitWrite_plain (s := took s mb priv cmd) hf hst hro (m := .hygarOther) (by decide) ha bs hb
  obtain ⟨w, hw⟩ : ∃ w, w = unitWritten s mem (racedIn a (a + bs.length) s.apply.issued) := ⟨_, rfl⟩
  have state : unitWritten (took s mb priv cmd) mem (racedIn a (a + bs.length) (took s mb priv cmd).apply.issued) =
      took w mb priv cmd := by
    rw [hw]
    rfl
  rw [wrote, state] at ht
  have wrun : fwRunning w = true := by rw [hw]; exact running
  obtain ⟨answers, frame, kept⟩ := answered_changed (s := s) (w := w) wrun (by rw [hw]; rfl) (by rw [hw]; rfl) (by rw [hw]; rfl)
    (by decide) (by decide) hr ht
  have tmem : t.mem = mem := by rw [kept, hw]; rfl
  refine ⟨answers, frame, ?_, fun x hx => ?_, ?_, fun ho hn => ?_⟩
  · rw [tmem]
    exact bytes_of_written bytes
  · rw [tmem, bytes, if_neg (by omega)]
    rfl
  · conv_lhs => rw [kept, hw]
    rw [tmem]
    rfl
  · rw [ht]
    exact fld_rsp_respond (u := took w mb priv cmd) mb stOk 0 rs wrun ho hn

theorem aligned_of_destOk {s : State} {a n : Nat} (h : destOk s a n = true) : a % 64 = 0 := by
  rw [destOk, Bool.and_eq_true] at h
  exact of_decide_eq_true h.1

/-- Page 1 of STATUS_GET writes the step record that a recovery restored. -/
theorem statusGet_step {s : State} {mb : Fin 8} {priv : Bool} {cmd : Line} (h : Handled s mb priv 0x02 cmd)
    (h1 : fld cmd 8 1 = 1) (hd : destOk s (fld cmd 16 8) 4224 = true) :
    (s.tide.stepRecord = none → Ends (.statusGet (.issue mb (portOf mb) priv cmd)) s fun t =>
      Answered s t mb cmd 0x12 (s.job.state.toNat + 256 * s.tide.phase.get.toNat) ∧ OnlyAnswer s t mb) ∧
    (∀ (tide : U48) (bs : List Byte), s.tide.stepRecord = some (tide, bs) → bs.length = 4224 → s.cap.filter = [] →
      s.tier.staged = [] → s.tier.rows = [] → fld cmd 16 8 + 4224 ≤ 2 ^ 64 →
      Ends (.statusGet (.issue mb (portOf mb) priv cmd)) s fun t =>
        Answered s t mb cmd 0 0 ∧ BoxFrame s t mb ∧ fld (box t mb).rsp 8 6 = tide.toNat ∧
        t.mem.bytes (fld cmd 16 8) 4224 = bs ∧ SameOutside s t (fld cmd 16 8) 4224 ∧
        t = { s with
          mb := t.mb, events := t.events, stat := { s.stat with evtOvf := t.stat.evtOvf }
          mem := t.mem
          apply := { s.apply with issued := racedIn (fld cmd 16 8) (fld cmd 16 8 + 4224) s.apply.issued } }) := by
  have run := statusGet_run h
  have running : fwRunning s = true := fwRunning_of_handled h
  have near : destOk (took s mb priv cmd) (fld cmd 16 8) 4224 = true := hd
  rw [statusWork] at run
  dsimp only at run
  rw [if_neg (by omega), if_neg (by omega), if_pos h1, if_neg (by rw [near]; decide)] at run
  refine ⟨fun hn => ?_, fun tide bs hr hl hf hst hro hb => ?_⟩
  · have kept : (took s mb priv cmd).tide.stepRecord = none := hn
    rw [kept] at run
    exact ⟨_, run, refusedOnly h (by decide) (wrongState_detail_lt s)⟩
  · have kept : (took s mb priv cmd).tide.stepRecord = some (tide, bs) := hr
    rw [kept] at run
    dsimp only at run
    obtain ⟨answers, frame, bytes, outside, whole, rsp⟩ := block_answered (s := s) (mb := mb) (priv := priv) (cmd := cmd) running
      hf hst hro (aligned_of_destOk hd) (bs := bs) (by rw [hl]; exact hb) (rs := [(8, 6, tide.toNat)]) (by simp) rfl
    rw [hl] at bytes outside whole
    refine ⟨_, run, answers, frame, ?_, bytes, outside, whole⟩
    exact (rsp (by decide) (by decide)).trans ((fld_mkLine_head (by decide) (by simp)).trans (Nat.mod_eq_of_lt tide.isLt))

theorem entryBytes_length (e : ErrEntry) : (entryBytes e).length = 32 := by
  simp [entryBytes, leBytes_length]

theorem entriesBytes_length (es : List ErrEntry) : (es.flatMap entryBytes).length = 32 * es.length := by
  induction es with
  | nil => rfl
  | cons e es ih =>
    rw [List.flatMap_cons, List.length_append, ih, entryBytes_length, List.length_cons]
    omega

/-- The bytes of an entry among those of a list of entries. -/
theorem entriesBytes_part {es : List ErrEntry} : ∀ {k : Nat} {e : ErrEntry}, es[k]? = some e →
    ((es.flatMap entryBytes).drop (32 * k)).take 32 = entryBytes e := by
  induction es with
  | nil => exact fun h => absurd h (by simp)
  | cons a es ih =>
    intro k e h
    cases k with
    | zero =>
      obtain rfl : a = e := by simpa using h
      rw [List.flatMap_cons, Nat.mul_zero, List.drop_zero, List.take_append_of_le_length (by rw [entryBytes_length]),
        List.take_of_length_le (by rw [entryBytes_length])]
    | succ k =>
      rw [List.flatMap_cons, show 32 * (k + 1) = (entryBytes a).length + 32 * k by rw [entryBytes_length]; omega,
        ← List.drop_drop, List.drop_left]
      exact ih (by simpa using h)

theorem bytes_part (m : Mem) (a n k l : Nat) (h : k + l ≤ n) : m.bytes (a + k) l = ((m.bytes a n).drop k).take l := by
  refine List.ext_getElem (by rw [Mem.bytes_length, List.length_take, List.length_drop, Mem.bytes_length]; omega) fun i h1 h2 => ?_
  simp [Mem.bytes, Nat.add_assoc]

theorem logRead_run {s : State} {mb : Fin 8} {priv : Bool} {cmd : Line} (h : Handled s mb priv 0x03 cmd) :
    exec (.logRead (.issue mb (portOf mb) priv cmd)) s =
      .next (logReadWork mb (takenCmd mb priv cmd) (took s mb priv cmd)) := exec_handled logReadWork h (by rfl)

/-- From the oldest index, LOG_READ takes the entries from the front. -/
theorem entriesFrom_oldest {s : State} {first : Nat} (h : first = s.log.oldest.toNat) (count : Nat) :
    entriesFrom s first count = s.log.entries.take count := by
  rw [entriesFrom, show (first + 256 - s.log.oldest.toNat) % 256 = 0 by omega]
  rfl

/-- LOG_READ of an index or a count out of range. -/
theorem logRead_refused {s : State} {mb : Fin 8} {priv : Bool} {cmd : Line} (h : Handled s mb priv 0x03 cmd) :
    (255 < fld cmd 8 2 → Ends (.logRead (.issue mb (portOf mb) priv cmd)) s fun t =>
      Answered s t mb cmd 0x10 8 ∧ OnlyAnswer s t mb) ∧
    (fld cmd 8 2 ≤ 255 → fld cmd 10 2 = 0 ∨ 256 < fld cmd 10 2 →
      Ends (.logRead (.issue mb (portOf mb) priv cmd)) s fun t => Answered s t mb cmd 0x10 10 ∧ OnlyAnswer s t mb) := by
  have run := logRead_run h
  rw [logReadWork] at run
  dsimp only at run
  refine ⟨fun h8 => ?_, fun h8 h10 => ?_⟩
  · rw [if_pos h8] at run
    exact ⟨_, run, refusedOnly h (status := stBadArg) (by decide) (by decide)⟩
  · rw [if_neg (by omega), if_pos h10] at run
    exact ⟨_, run, refusedOnly h (status := stBadArg) (by decide) (by decide)⟩

/-- LOG_READ from the oldest entry on. -/
theorem logRead_entries {s : State} {mb : Fin 8} {priv : Bool} {cmd : Line} (h : Handled s mb priv 0x03 cmd) {n : Nat}
    (hl : s.log.entries.length ≤ 256) (h8 : fld cmd 8 2 = s.log.oldest.toNat) (h1 : 1 ≤ fld cmd 10 2)
    (h2 : fld cmd 10 2 ≤ 256) (hn : n = min (fld cmd 10 2) s.log.entries.length)
    (hd : destOk s (fld cmd 16 8) (32 * n) = true) (hf : s.cap.filter = []) (hst : s.tier.staged = []) (hro : s.tier.rows = [])
    (hb : fld cmd 16 8 + 32 * n ≤ 2 ^ 64) : Ends (.logRead (.issue mb (portOf mb) priv cmd)) s fun t =>
      Answered s t mb cmd 0 0 ∧ BoxFrame s t mb ∧ fld (box t mb).rsp 8 2 = n ∧
      fld (box t mb).rsp 10 2 = (fld cmd 8 2 + n) % 256 ∧
      (∀ (k : Nat) (e : ErrEntry), k < n → s.log.entries[k]? = some e →
        t.mem.bytes (fld cmd 16 8 + 32 * k) 32 = entryBytes e) ∧
      SameOutside s t (fld cmd 16 8) (32 * n) ∧
      t = { s with
        mb := t.mb, events := t.events, stat := { s.stat with evtOvf := t.stat.evtOvf }
        mem := t.mem
        apply := { s.apply with issued := racedIn (fld cmd 16 8) (fld cmd 16 8 + 32 * n) s.apply.issued } } := by
  have run := logRead_run h
  have taken : entriesFrom (took s mb priv cmd) (fld cmd 8 2) (fld cmd 10 2) = s.log.entries.take (fld cmd 10 2) :=
    entriesFrom_oldest (s := took s mb priv cmd) h8 _
  obtain ⟨es, hes⟩ : ∃ es, es = s.log.entries.take (fld cmd 10 2) := ⟨_, rfl⟩
  have length : es.length = n := by rw [hes, List.length_take, hn]
  have near : destOk (took s mb priv cmd) (fld cmd 16 8) (32 * n) = true := hd
  have small := s.log.oldest.isLt
  rw [logReadWork] at run
  dsimp only at run
  rw [taken, ← hes, length, if_neg (by omega), if_neg (by omega), if_neg (by rw [near]; decide)] at run
  have total : (es.flatMap entryBytes).length = 32 * n := by rw [entriesBytes_length, length]
  obtain ⟨answers, frame, bytes, outside, whole, rsp⟩ := block_answered (s := s) (mb := mb) (priv := priv) (cmd := cmd)
    (fwRunning_of_handled h) hf hst hro (aligned_of_destOk hd) (bs := es.flatMap entryBytes) (by rw [total]; exact hb)
    (rs := [(8, 2, n), (10, 2, (fld cmd 8 2 + n) % 256)]) (by simp) rfl
  rw [total] at bytes outside whole
  refine ⟨_, run, answers, frame, ?_, ?_, fun k e hk he => ?_, outside, whole⟩
  · exact (rsp (by decide) (by decide)).trans ((fld_mkLine_head (by decide) (by simp [apart])).trans
      (Nat.mod_eq_of_lt (show n < 65536 by omega)))
  · exact (rsp (by decide) (by decide)).trans ((fld_mkLine_skip (by decide) (by decide)).trans
      ((fld_mkLine_head (by decide) (by simp)).trans
        (Nat.mod_eq_of_lt (show (fld cmd 8 2 + n) % 256 < 65536 by omega))))
  · rw [bytes_part _ _ (32 * n) (32 * k) 32 (by omega), bytes]
    refine entriesBytes_part ?_
    rw [hes, List.getElem?_take_of_lt (by omega)]
    exact he

/-! ### PART_SET (R212, R230, R231, R343) -/

theorem partSet_run {s : State} {mb : Fin 8} {priv : Bool} {cmd : Line} (h : Handled s mb priv 0x04 cmd) :
    exec (.partSet (.issue mb (portOf mb) priv cmd)) s =
      .next (partWork mb (takenCmd mb priv cmd) (took s mb priv cmd)) := exec_handled partWork h (by rfl)

/-- A partition that breaks R343. -/
theorem partSet_refused {s : State} {mb : Fin 8} {priv : Bool} {cmd : Line} (h : Handled s mb priv 0x04 cmd) {o : Nat}
    (ho : o < 64) (hf : partitionFault s (partitionOf cmd) = some o) :
    Ends (.partSet (.issue mb (portOf mb) priv cmd)) s fun t => Answered s t mb cmd 0x10 o ∧ OnlyAnswer s t mb := by
  have run := partSet_run h
  have fault : partitionFault (took s mb priv cmd) (partitionOf cmd) = some o := hf
  rw [partWork] at run
  dsimp only at run
  rw [fault] at run
  exact ⟨_, run, refusedOnly h (status := stBadArg) (by decide) (by omega)⟩

/-- The state whose partition PART_SET has set. -/
def partitioned (s : State) (p : Partition) : State :=
  { s with
    job := { s.job with part := some p, state := 1, formed := false }
    ports := { s.ports with fenced := fencedMask p, linkFault := 0 }
    agree := { s.agree with
      lastBeat := Vector.replicate 8 s.time.gtc, portSuspect := 0, watchAt := [], wintering := 0
      missMark := Vector.replicate 8 s.time.gtc } }

theorem partSet_set {s : State} {mb : Fin 8} {priv : Bool} {cmd : Line} (h : Handled s mb priv 0x04 cmd) {p : Partition}
    (hp : partitionOf cmd = p) (hf : partitionFault s p = none) : Ends (.partSet (.issue mb (portOf mb) priv cmd)) s fun t =>
      Answered s t mb cmd 0 0 ∧ BoxFrame s t mb ∧ ownRank t = p.rank ∧
      t = { partitioned s p with mb := t.mb, events := t.events, stat := { s.stat with evtOvf := t.stat.evtOvf } } := by
  have run := partSet_run h
  have fault : partitionFault (took s mb priv cmd) p = none := hf
  rw [partWork] at run
  dsimp only at run
  rw [hp, fault] at run
  obtain ⟨w, hw⟩ : ∃ w, w = partitioned s p := ⟨_, rfl⟩
  obtain ⟨t, ht⟩ : ∃ t, t = respond (took w mb priv cmd) mb stOk 0 [] := ⟨_, rfl⟩
  obtain ⟨answers, frame, whole⟩ := answered_changed (s := s) (w := w) (by rw [hw]; exact (fwRunning_of_handled h :))
    (by rw [hw]; rfl) (by rw [hw]; rfl) (by rw [hw]; rfl) (by decide) (by decide) (by simp) ht
  refine ⟨t, run.trans (congrArg Host.Outcome.next ?_), answers, frame, ?_, by rw [← hw]; exact whole⟩
  · rw [ht, hw]
    rfl
  · rw [whole, hw]
    rfl

/-! ### ABORT (R331, R332) -/

theorem raiseEvent_withExch (u : State) (e : ExchS) (code arg : Byte) :
    raiseEvent { u with exch := e } code arg = { raiseEvent u code arg with exch := e } := by
  unfold raiseEvent
  dsimp only
  split
  · rfl
  · split
    · rfl
    · split
      · rfl
      · rfl

/-- An acceptance does not read the exchange unit. -/
theorem accepted_withExch (u : State) (e : ExchS) (mb : Fin 8) :
    accepted { u with exch := e } mb = { accepted u mb with exch := e } := by
  unfold accepted mbDoneEvent
  split
  · exact raiseEvent_withExch (setBox u mb _) e evMbDone 5
  · rfl

theorem abort_run {s : State} {mb : Fin 8} {priv : Bool} {cmd : Line} (h : Handled s mb priv 0x17 cmd) :
    exec (.abort (.issue mb (portOf mb) priv cmd)) s =
      .next (abortWork mb (takenCmd mb priv cmd) (took s mb priv cmd)) := exec_handled abortWork h (by rfl)

/-- What ABORT does to a named mailbox. -/
theorem abort_named {s : State} {mb named : Fin 8} {priv : Bool} {cmd : Line} (h : Handled s mb priv 0x17 cmd)
    (hn : fld cmd 8 1 = named.val) : exec (.abort (.issue mb (portOf mb) priv cmd)) s = .next (
      if !abortReaches mb named then respond (took s mb priv cmd) mb stNotPermitted (bindCode mb) []
      else if named = mb then badArg (took s mb priv cmd) mb 8
      else if (box (took s mb priv cmd) named).tag.toNat ≠ fld cmd 10 2 then badArg (took s mb priv cmd) mb 10
      else if !(box (took s mb priv cmd) named).busy then respond (took s mb priv cmd) mb stAlreadyDone 0 []
      else abortRunning (took s mb priv cmd) mb named) := by
  rw [abort_run h, abortWork]
  dsimp only
  rw [dif_pos (by omega)]
  have same : (⟨fld cmd 8 1, by omega⟩ : Fin 8) = named := Fin.ext hn
  rw [same]

theorem abortReaches_self : ∀ mb : Fin 8, mb ≠ 7 → abortReaches mb mb = true := by decide

theorem abortReaches_outside : ∀ mb named : Fin 8, named ≠ mb → (mb.val < 5 ∧ 5 ≤ named.val ∨ mb.val = 6) →
    abortReaches mb named = false ∧ bindCode mb = if mb.val < 5 then 0 else 2 := by decide

theorem abortReaches_inside : ∀ mb named : Fin 8, (mb.val < 5 ∧ named.val < 5 ∨ mb.val = 5) → abortReaches mb named = true := by
  decide

/-- ABORT is no command of the peer port. -/
theorem abort_mailbox {s : State} {mb : Fin 8} {priv : Bool} {cmd : Line} (h : Handled s mb priv 0x17 cmd) : mb ≠ 7 := by
  obtain ⟨-, permitted, -⟩ := h
  rintro rfl
  revert permitted
  cases priv <;> decide

/-- ABORT of its own mailbox or of none. -/
theorem abort_own {s : State} {mb : Fin 8} {priv : Bool} {cmd : Line} (h : Handled s mb priv 0x17 cmd)
    (hn : 8 ≤ fld cmd 8 1 ∨ fld cmd 8 1 = mb.val) : Ends (.abort (.issue mb (portOf mb) priv cmd)) s fun t =>
      Answered s t mb cmd 0x10 8 ∧ OnlyAnswer s t mb := by
  have refused := refusedOnly h (status := stBadArg) (detail := 8) (by decide) (by decide)
  by_cases h8 : 8 ≤ fld cmd 8 1
  · have run := abort_run h
    rw [abortWork] at run
    dsimp only at run
    rw [dif_neg (by omega)] at run
    exact ⟨_, run, refused⟩
  · have run := abort_named (named := mb) h (by omega)
    rw [abortReaches_self mb (abort_mailbox h), if_neg (by decide), if_pos rfl] at run
    exact ⟨_, run, refused⟩

/-- ABORT of a compression that runs. -/
theorem abortRunning_compress {u : State} {mb named : Fin 8} {c : Compress} (hop : (box u named).op = 0x0E)
    (hc : u.exch.compress = some c) (hs : c.stop = .none) : abortRunning u mb named = { accepted u mb with
      exch := { (accepted u mb).exch with compress := some { c with stop := .abort, aborts := c.aborts ++ [mb] } } } := by
  simp only [abortRunning, hop, hc, hs, if_true]
  rfl

/-- ABORT outside the reach of its port. -/
theorem abort_outside {s : State} {mb named : Fin 8} {priv : Bool} {cmd : Line} (h : Handled s mb priv 0x17 cmd)
    (hn : fld cmd 8 1 = named.val) (hne : named ≠ mb) (hout : mb.val < 5 ∧ 5 ≤ named.val ∨ mb.val = 6) :
    Ends (.abort (.issue mb (portOf mb) priv cmd)) s fun t =>
      Answered s t mb cmd 0x11 (if mb.val < 5 then 0 else 2) ∧ OnlyAnswer s t mb := by
  have run := abort_named h hn
  obtain ⟨unreached, code⟩ := abortReaches_outside mb named hne hout
  rw [unreached, if_pos (show (!false) = true from rfl), code] at run
  exact ⟨_, run, refusedOnly h (status := stNotPermitted) (by decide) (by split <;> decide)⟩

/-- ABORT within the reach of its port. -/
theorem abort_inside {s : State} {mb named : Fin 8} {priv : Bool} {cmd : Line} (h : Handled s mb priv 0x17 cmd)
    (hn : fld cmd 8 1 = named.val) (hne : named ≠ mb) (hin : mb.val < 5 ∧ named.val < 5 ∨ mb.val = 5) :
    ((box s named).tag.toNat ≠ fld cmd 10 2 → Ends (.abort (.issue mb (portOf mb) priv cmd)) s fun t =>
      Answered s t mb cmd 0x10 10 ∧ OnlyAnswer s t mb) ∧
    ((box s named).tag.toNat = fld cmd 10 2 → (box s named).busy = false →
      Ends (.abort (.issue mb (portOf mb) priv cmd)) s fun t => Answered s t mb cmd 0x02 0 ∧ OnlyAnswer s t mb) ∧
    ((box s named).tag.toNat = fld cmd 10 2 → (box s named).busy = true → (box s named).op = 0x10 →
      Ends (.abort (.issue mb (portOf mb) priv cmd)) s fun t =>
        Answered s t mb cmd 0x12 (s.job.state.toNat + 256 * s.tide.phase.get.toNat) ∧ OnlyAnswer s t mb) ∧
    (∀ c : Compress, (box s named).tag.toNat = fld cmd 10 2 → (box s named).busy = true →
      (box s named).op = 0x0E → s.exch.compress = some c → c.stop = .none →
      Ends (.abort (.issue mb (portOf mb) priv cmd)) s fun t =>
        RunsLong s t mb cmd ∧ BoxFrame s t mb ∧
        t = { s with
          mb := t.mb, events := t.events, stat := { s.stat with evtOvf := t.stat.evtOvf }
          exch := { s.exch with compress := some { c with stop := .abort, aborts := c.aborts ++ [mb] } } }) := by
  have run := abort_named h hn
  have other : box (took s mb priv cmd) named = box s named := otherBoxes_took s mb priv cmd named hne
  rw [abortReaches_inside mb named hin, if_neg (by decide), if_neg hne, other] at run
  refine ⟨fun ht => ?_, fun ht hb => ?_, fun ht hb hop => ?_, fun c ht hb hop hc hs => ?_⟩
  · rw [if_pos ht] at run
    exact ⟨_, run, refusedOnly h (status := stBadArg) (by decide) (by decide)⟩
  · rw [if_neg (not_not.2 ht), hb, if_pos (by decide)] at run
    exact ⟨_, run, refusedOnly h (status := stAlreadyDone) (by decide) (by decide)⟩
  · have goes : abortRunning (took s mb priv cmd) mb named = wrongState (took s mb priv cmd) mb := by
      rw [abortRunning, other, hop]
      rfl
    rw [if_neg (not_not.2 ht), hb, if_neg (by decide), goes] at run
    exact ⟨_, run, refusedOnly h (status := stWrongState) (by decide) (wrongState_detail_lt s)⟩
  · obtain ⟨w, hw⟩ : ∃ w : State, w = { s with
      exch := { s.exch with compress := some { c with stop := .abort, aborts := c.aborts ++ [mb] } } } := ⟨_, rfl⟩
    have kept : (took s mb priv cmd).exch.compress = some c := hc
    have goes : abortRunning (took s mb priv cmd) mb named = accepted (took w mb priv cmd) mb := by
      have exch : (accepted (took s mb priv cmd) mb).exch = s.exch := accepted_exch _ _
      rw [abortRunning_compress (other ▸ hop) kept hs, exch, hw]
      exact (accepted_withExch (took s mb priv cmd) _ mb).symm
    rw [if_neg (not_not.2 ht), hb, if_neg (by decide), goes] at run
    obtain ⟨t, htw⟩ : ∃ t, t = accepted (took w mb priv cmd) mb := ⟨_, rfl⟩
    obtain ⟨long, frame, whole⟩ := accepted_changed (s := s) (w := w) (by rw [hw]) (by rw [hw]) (by rw [hw]) htw
    rw [hw] at whole
    exact ⟨t, run.trans (by rw [htw]), long, frame, whole⟩

/-- Settles O10: Info commands report, PART_SET sets the partition, ABORT answers by its table. -/
theorem infoPartitionAndAbort : Obligations.InfoPartitionAndAbort := by
  intro s mb priv cmd
  refine ⟨fwInfo_clauses, fun h => ⟨fun h2 => ?_, statusGet_summary h, statusGet_step h⟩,
    fun h => ⟨(logRead_refused h).1, (logRead_refused h).2, fun n => logRead_entries h⟩, fun h p hp => ⟨fun hlt => ?_,
      fun hx hy hz => ⟨fun hout => ?_, fun hin hdie => ?_, fun hin hdie => ?_⟩⟩, fun h => ⟨abort_own h, fun named hn hne =>
        ⟨abort_outside h hn hne, abort_inside h hn hne⟩⟩⟩
  · have run := statusGet_run h
    rw [statusWork] at run
    dsimp only at run
    rw [if_pos h2] at run
    exact ⟨_, run, refusedOnly h (status := stBadArg) (by decide) (by decide)⟩
  · have same : partitionOf cmd = p := hp.symm
    exact partSet_refused h (by decide) (by rw [same, partitionFault, if_pos hlt])
  · have same : partitionOf cmd = p := hp.symm
    exact partSet_refused h (by decide) (by
      rw [same, partitionFault, if_neg (by omega), if_pos (by rw [hout]; rfl)])
  · have same : partitionOf cmd = p := hp.symm
    exact partSet_refused h (by decide) (by
      rw [same, partitionFault, if_neg (by omega), if_neg (by rw [hin]; decide), if_pos hdie])
  · have same : partitionOf cmd = p := hp.symm
    obtain ⟨t, run, answers, frame, rank, whole⟩ := partSet_set h same (by
      rw [partitionFault, if_neg (by omega), if_neg (by rw [hin]; decide), if_neg (not_not.2 hdie)])
    refine ⟨t, run, answers, frame, rank.trans ?_, whole⟩
    rw [Partition.rank, packageIndex, Nat.sub_add_comm hy, Nat.sub_add_comm hz]

end Sys2Proof.Machine

/-! PROOFS. Regions, quotas and prefetch (R37, R41, R45, R48 to R53, R328, R401). -/

namespace Sys2Proof.Machine

/-! ### REGION_DECLARE (R37, R401) -/

/-- A region that cannot stand by its own fields. The checks are named before the command is taken apart: their arithmetic
is not to be evaluated. -/
theorem regionDeclare_faulty {s : State} {mb : Fin 8} {priv : Bool} {cmd : Line} {p : Plan} {o : Nat}
    (h : Handled s mb priv 0x06 cmd) (hp : s.job.plan = some p)
    (hf : regionFieldFault (took s mb priv cmd) p (fld cmd 9 1) (regionOf cmd) = some o) :
    exec (.regionDeclare (.issue mb (portOf mb) priv cmd)) s = .next (badArg (took s mb priv cmd) mb o) := by
  have run : exec (.regionDeclare (.issue mb (portOf mb) priv cmd)) s = _ := exec_handled _ h (by rfl)
  have plan : (took s mb priv cmd).job.plan = some p := hp
  obtain ⟨field, hfield⟩ : ∃ f, f = regionFieldFault := ⟨_, rfl⟩
  obtain ⟨home, hhome⟩ : ∃ f, f = homeFault := ⟨_, rfl⟩
  obtain ⟨short, hshort⟩ : ∃ f, f = regionShortfall := ⟨_, rfl⟩
  obtain ⟨bad, hbad⟩ : ∃ f, f = badArg := ⟨_, rfl⟩
  simp only [← hfield, ← hhome, ← hshort, ← hbad] at run hf ⊢
  rw [plan] at run
  dsimp only at run
  rw [hf] at run
  exact run

/-- A region that is declared. -/
theorem regionDeclare_answers {s : State} {mb : Fin 8} {priv : Bool} {cmd : Line} {p : Plan}
    (h : Handled s mb priv 0x06 cmd) (hp : s.job.plan = some p)
    (hf : regionFieldFault (took s mb priv cmd) p (fld cmd 9 1) (regionOf cmd) = none)
    (hc : (regionOf cmd).protected_ = false ∨ coveStands (took s mb priv cmd) = false)
    (hh : homeFault (took s mb priv cmd) p (withNear (took s mb priv cmd) (regionOf cmd)) = none)
    (hs : regionShortfall (took s mb priv cmd) (withNear (took s mb priv cmd) (regionOf cmd)) = none) :
    exec (.regionDeclare (.issue mb (portOf mb) priv cmd)) s = .next (respond { took s mb priv cmd with
      tier := { s.tier with regions := s.tier.regions ++ [withNear (took s mb priv cmd) (regionOf cmd)] } } mb stOk 0
        [(8, 4, (withNear (took s mb priv cmd) (regionOf cmd)).nearBays)]) := by
  have run : exec (.regionDeclare (.issue mb (portOf mb) priv cmd)) s = _ := exec_handled _ h (by rfl)
  have plan : (took s mb priv cmd).job.plan = some p := hp
  have free : ¬ ((regionOf cmd).protected_ = true ∧ coveStands (took s mb priv cmd) = true ∧
      (took s mb priv cmd).agree.cove = some (regionOf cmd).cove) := fun ⟨hprot, hstands, _⟩ => by
    rcases hc with hc | hc
    · rw [hprot] at hc
      exact absurd hc (by decide)
    · rw [hstands] at hc
      exact absurd hc (by decide)
  unfold withNear at hh hs ⊢
  obtain ⟨field, hfield⟩ : ∃ f, f = regionFieldFault := ⟨_, rfl⟩
  obtain ⟨home, hhome⟩ : ∃ f, f = homeFault := ⟨_, rfl⟩
  obtain ⟨short, hshort⟩ : ∃ f, f = regionShortfall := ⟨_, rfl⟩
  obtain ⟨stands, hstands⟩ : ∃ f, f = coveStands := ⟨_, rfl⟩
  obtain ⟨near, hnear⟩ : ∃ f, f = placeNear := ⟨_, rfl⟩
  obtain ⟨region, hregion⟩ : ∃ f, f = regionOf := ⟨_, rfl⟩
  obtain ⟨answer, hanswer⟩ : ∃ f, f = respond := ⟨_, rfl⟩
  simp only [← hfield, ← hhome, ← hshort, ← hstands, ← hnear, ← hregion, ← hanswer] at run hf hh hs free ⊢
  rw [plan] at run
  dsimp only at run
  rw [hf] at run
  dsimp only at run
  rw [if_neg free, hh] at run
  dsimp only at run
  rw [hs] at run
  exact run

theorem regionFieldFault_used {s : State} {p : Plan} {kind : Nat} {r : Region} (hu : ∃ g ∈ s.tier.regions, g.id = r.id) :
    regionFieldFault s p kind r = some 8 := by
  obtain ⟨g, hg, hid⟩ := hu
  rw [regionFieldFault, if_pos (.inr (.inl (List.any_eq_true.2 ⟨g, hg, decide_eq_true hid⟩)))]

/-- A region whose id is in use. -/
theorem regionDeclare_used {s : State} {mb : Fin 8} {priv : Bool} {cmd : Line} {p : Plan} (h : Handled s mb priv 0x06 cmd)
    (hp : s.job.plan = some p) (hu : ∃ g ∈ s.tier.regions, g.id = (regionOf cmd).id) :
    Ends (.regionDeclare (.issue mb (portOf mb) priv cmd)) s fun t => Answered s t mb cmd 0x10 8 ∧ OnlyAnswer s t mb :=
  ⟨_, regionDeclare_faulty h hp (regionFieldFault_used (s := took s mb priv cmd) hu),
    refusedOnly h (status := stBadArg) (by decide) (by decide)⟩

theorem placeNear_lt (s : State) (cmd : Line) : placeNear s (regionOf cmd) < 2 ^ 32 := by
  have bays : (regionOf cmd).bays < 2 ^ 32 := fld_lt cmd 12 4
  unfold placeNear
  split
  · decide
  · split
    · exact bays
    · omega

theorem withNear_took (s : State) (mb : Fin 8) (priv : Bool) (cmd : Line) (r : Region) :
    withNear (took s mb priv cmd) r = withNear s r := rfl

/-- What a declaration answers. -/
theorem region_answered {s : State} {mb : Fin 8} {priv : Bool} {cmd : Line} (h : Handled s mb priv 0x06 cmd) {r : Region}
    (hr : r.nearBays < 2 ^ 32) {t : State} (ht : t = respond { took s mb priv cmd with
      tier := { s.tier with regions := s.tier.regions ++ [r] } } mb stOk 0 [(8, 4, r.nearBays)]) :
    Answered s t mb cmd 0 0 ∧ BoxFrame s t mb ∧ fld (box t mb).rsp 8 4 = r.nearBays ∧
      t = { s with
        mb := t.mb, events := t.events, stat := { s.stat with evtOvf := t.stat.evtOvf }
        tier := { s.tier with regions := s.tier.regions ++ [r] } } := by
  obtain ⟨w, hw⟩ : ∃ w : State, w = { s with tier := { s.tier with regions := s.tier.regions ++ [r] } } := ⟨_, rfl⟩
  have wrun : fwRunning w = true := by rw [hw]; exact (fwRunning_of_handled h :)
  have state : t = respond (took w mb priv cmd) mb stOk 0 [(8, 4, r.nearBays)] := by
    rw [ht, hw]
    rfl
  obtain ⟨answers, frame, whole⟩ := answered_changed (s := s) wrun (by rw [hw]) (by rw [hw]) (by rw [hw])
    (by decide) (by decide) (by simp) state
  refine ⟨answers, frame, ?_, ?_⟩
  · rw [state, fld_rsp_respond (u := took w mb priv cmd) mb stOk 0 _ wrun (by decide) (by decide),
      fld_mkLine_head (by decide) (by simp)]
    exact Nat.mod_eq_of_lt hr
  · rw [hw] at whole
    exact whole

/-- A region that can be declared. -/
theorem regionDeclare_taken {s : State} {mb : Fin 8} {priv : Bool} {cmd : Line} {p : Plan} (h : Handled s mb priv 0x06 cmd)
    (hp : s.job.plan = some p) (hf : regionFieldFault s p (fld cmd 9 1) (regionOf cmd) = none)
    (hc : (regionOf cmd).protected_ = false ∨ coveStands s = false)
    (hh : homeFault s p (withNear s (regionOf cmd)) = none) (hq : regionShortfall s (withNear s (regionOf cmd)) = none) :
    Ends (.regionDeclare (.issue mb (portOf mb) priv cmd)) s fun t =>
      Answered s t mb cmd 0 0 ∧ BoxFrame s t mb ∧
      fld (box t mb).rsp 8 4 = placeNear s (regionOf cmd) ∧
      t = { s with
        mb := t.mb, events := t.events, stat := { s.stat with evtOvf := t.stat.evtOvf }
        tier := { s.tier with regions := s.tier.regions ++ [withNear s (regionOf cmd)] } } := by
  have run := regionDeclare_answers h hp hf hc hh hq
  rw [withNear_took] at run
  have bays : (withNear s (regionOf cmd)).nearBays = placeNear s (regionOf cmd) := by rw [withNear]
  obtain ⟨r, hr⟩ : ∃ r, r = withNear s (regionOf cmd) := ⟨_, rfl⟩
  rw [← hr] at run bays ⊢
  obtain ⟨answers, frame, near, whole⟩ := region_answered h (r := r) (by rw [bays]; exact placeNear_lt s cmd) rfl
  exact ⟨_, run, answers, frame, near.trans bays, whole⟩

/-! ### TIER_QUOTA_SET (R41, R327, R401) -/

/-- The fields that a formed job does not change: the bases of the windows. -/
def baseFields : List Nat := [2, 4, 6, 8]

/-- TIER_QUOTA_SET of fields that name quotas, whose windows are right. -/
theorem tierQuotaSet_run {s : State} {mb : Fin 8} {priv : Bool} {cmd : Line} {p : Plan} (h : Handled s mb priv 0x0F cmd)
    (hp : s.job.plan = some p) (hm : fld cmd 52 2 < 2048)
    (hw : windowFault p s.tier.regions (quotasOf s.tier.quotas cmd) = none) {q : Quotas} (hq : q = quotasOf s.tier.quotas cmd) :
    (s.job.formed = true → (∃ i ∈ baseFields, quotaField q i ≠ quotaField s.tier.quotas i) →
      exec (.tierQuotaSet (.issue mb (portOf mb) priv cmd)) s = .next (wrongState (took s mb priv cmd) mb)) ∧
    ((∀ i ∈ baseFields, s.job.formed = true → quotaField q i = quotaField s.tier.quotas i) →
      (∀ i, (List.range 11).find? (fun i => loweredBelow (took s mb priv cmd) q i) = some i →
        exec (.tierQuotaSet (.issue mb (portOf mb) priv cmd)) s = .next (resource (took s mb priv cmd) mb (8 + 4 * i))) ∧
      ((List.range 11).find? (fun i => loweredBelow (took s mb priv cmd) q i) = none →
        stashHolds (took s mb priv cmd).tier.regions q = true →
        exec (.tierQuotaSet (.issue mb (portOf mb) priv cmd)) s =
          .next (respondOk (withQuotas (took s mb priv cmd) q) mb))) := by
  have run : exec (.tierQuotaSet (.issue mb (portOf mb) priv cmd)) s = _ := exec_handled _ h (by rfl)
  have plan : (took s mb priv cmd).job.plan = some p := hp
  have regions : s.tier.regions = (took s mb priv cmd).tier.regions := rfl
  have quotas : s.tier.quotas = (took s mb priv cmd).tier.quotas := rfl
  have formed : s.job.formed = (took s mb priv cmd).job.formed := rfl
  rw [regions, quotas] at hw
  rw [quotas] at hq ⊢
  rw [formed]
  obtain ⟨u, hu⟩ : ∃ u, u = took s mb priv cmd := ⟨_, rfl⟩
  obtain ⟨window, hwindow⟩ : ∃ f, f = windowFault := ⟨_, rfl⟩
  obtain ⟨lowered, hlowered⟩ : ∃ f, f = loweredBelow := ⟨_, rfl⟩
  obtain ⟨holds, hholds⟩ : ∃ f, f = stashHolds := ⟨_, rfl⟩
  obtain ⟨set, hset⟩ : ∃ f, f = quotasOf := ⟨_, rfl⟩
  obtain ⟨field, hfield⟩ : ∃ f, f = quotaField := ⟨_, rfl⟩
  obtain ⟨wrong, hwrong⟩ : ∃ f, f = wrongState := ⟨_, rfl⟩
  obtain ⟨short, hshort⟩ : ∃ f, f = resource := ⟨_, rfl⟩
  obtain ⟨ok, hok⟩ : ∃ f, f = respondOk := ⟨_, rfl⟩
  obtain ⟨take, htake⟩ : ∃ f, f = withQuotas := ⟨_, rfl⟩
  simp only [← hu, ← hwindow, ← hlowered, ← hholds, ← hset, ← hfield, ← hwrong, ← hshort, ← hok, ← htake] at run plan hw hq ⊢
  rw [plan] at run
  dsimp only at run
  rw [← hq] at run hw
  rw [if_neg (by omega), hw] at run
  dsimp only at run
  have changed (hsame : ∀ i ∈ baseFields, u.job.formed = true → field q i = field u.tier.quotas i) : ¬ (u.job.formed = true ∧
      ([2, 4, 6, 8].any fun i => decide (field q i ≠ field u.tier.quotas i)) = true) := fun ⟨hf, hany⟩ => by
    obtain ⟨i, hi, hne⟩ := List.any_eq_true.1 hany
    exact of_decide_eq_true hne (hsame i hi hf)
  refine ⟨fun hf ⟨i, hi, hne⟩ => ?_, fun hsame => ⟨fun i hfind => ?_, fun hnone hholds => ?_⟩⟩
  · rw [if_pos ⟨hf, List.any_eq_true.2 ⟨i, hi, by simpa using hne⟩⟩] at run
    exact run
  · rw [if_neg (changed hsame), hfind] at run
    exact run
  · rw [if_neg (changed hsame), hnone] at run
    dsimp only at run
    rw [if_neg (by simp [hholds])] at run
    exact run

theorem quotaField_quotasOf (q : Quotas) (cmd : Line) {i : Nat} (hi : i < 11) : quotaField (quotasOf q cmd) i =
    if (fld cmd 52 2).testBit i then fld cmd (8 + 4 * i) 4 else quotaField q i := by
  rcases i with _ | _ | _ | _ | _ | _ | _ | _ | _ | _ | _ | i
  iterate 11 rfl
  omega

theorem loweredBelow_near {s : State} {q : Quotas} (h1 : quotaField q 0 < s.tier.quotas.dataNear)
    (h2 : quotaField q 0 < nearInUse s.tier.regions) : loweredBelow s q 0 = true := by
  rw [loweredBelow, Bool.and_eq_true]
  exact ⟨decide_eq_true h1, decide_eq_true h2⟩

/-- TIER_QUOTA_SET that takes effect. -/
theorem tierQuotaSet_taken {s : State} {mb : Fin 8} {priv : Bool} {cmd : Line} (h : Handled s mb priv 0x0F cmd) {q : Quotas}
    (run : exec (.tierQuotaSet (.issue mb (portOf mb) priv cmd)) s = .next (respondOk (withQuotas (took s mb priv cmd) q) mb))
    (hq : ∀ i, i < 11 → quotaField q i = if (fld cmd 52 2).testBit i then fld cmd (8 + 4 * i) 4 else quotaField s.tier.quotas i) :
    Ends (.tierQuotaSet (.issue mb (portOf mb) priv cmd)) s fun t =>
      Answered s t mb cmd 0 0 ∧ BoxFrame s t mb ∧
      (∀ i, i < 11 → quotaField t.tier.quotas i =
        if (fld cmd 52 2).testBit i then fld cmd (8 + 4 * i) 4 else quotaField s.tier.quotas i) ∧
      t.tier.staged = s.tier.staged.filter (fun q => decide (quotaField t.tier.quotas 8 * 2 ^ 20 ≤ q.addr ∧
        q.addr + 16384 ≤ (quotaField t.tier.quotas 8 + quotaField t.tier.quotas 9) * 2 ^ 20)) ∧
      t.tier.rows = (if quotaField t.tier.quotas 8 = quotaField s.tier.quotas 8 then
        s.tier.rows.filter fun q => decide ((q.slot + 1) * 2 ^ q.shift ≤ quotaField t.tier.quotas 9 * 2 ^ 20)
        else []) ∧
      t = { s with
        mb := t.mb, events := t.events, stat := { s.stat with evtOvf := t.stat.evtOvf }
        tier := { s.tier with
          quotas := t.tier.quotas, staged := t.tier.staged, rows := t.tier.rows
          lastSeq := t.tier.lastSeq } } := by
  obtain ⟨w, hw⟩ : ∃ w, w = withQuotas s q := ⟨_, rfl⟩
  have state : withQuotas (took s mb priv cmd) q = took w mb priv cmd := by rw [hw]; rfl
  rw [state] at run
  have wrun : fwRunning w = true := by rw [hw]; exact (fwRunning_of_handled h :)
  obtain ⟨t, ht⟩ : ∃ t, t = respond (took w mb priv cmd) mb stOk 0 [] := ⟨_, rfl⟩
  obtain ⟨answers, frame, whole⟩ := answered_changed (s := s) wrun (by rw [hw]; rfl) (by rw [hw]; rfl) (by rw [hw]; rfl)
    (by decide) (by decide) (by simp) ht
  have tier : t.tier = w.tier := by rw [whole]
  refine ⟨t, run.trans (by rw [ht]; rfl), answers, frame, ?_, ?_, ?_, ?_⟩
  · rw [tier, hw]
    exact hq
  · rw [tier, hw, withQuotas]
    refine List.filter_congr fun a _ => decide_eq_decide.2 ?_
    show (q.stageBase * mib ≤ a.addr ∧ a.addr + 16384 ≤ q.stageBase * mib + q.stage * mib) ↔
      (q.stageBase * 2 ^ 20 ≤ a.addr ∧ a.addr + 16384 ≤ (q.stageBase + q.stage) * 2 ^ 20)
    rw [show mib = 2 ^ 20 from rfl, Nat.add_mul]
  · rw [tier, hw, withQuotas]
    show (s.tier.rows.filter fun r => decide (q.stageBase = s.tier.quotas.stageBase ∧ _ ≤ _)) =
      if q.stageBase = s.tier.quotas.stageBase then s.tier.rows.filter fun r => decide (_ ≤ q.stage * 2 ^ 20) else []
    by_cases same : q.stageBase = s.tier.quotas.stageBase
    · rw [if_pos same]
      refine List.filter_congr fun a _ => decide_eq_decide.2 ?_
      rw [show mib = 2 ^ 20 from rfl]
      constructor
      · rintro ⟨-, hle⟩
        omega
      · exact fun hle => ⟨same, by omega⟩
    · rw [if_neg same, List.filter_eq_nil_iff]
      exact fun a _ => by simp [same]
  · conv_lhs => rw [whole, hw]
    rw [tier, hw]
    rfl

/-! ### PREFETCH_PLAN (R49, R53, R328) -/

/-- A line that the tier mover may use: aligned, near, and clear of the regions' homes. -/
def moverLine (s : State) (p : Plan) (l : Nat) : Bool :=
  decide (l % 64 = 0) && inNear p l 64 && !(s.tier.regions.any fun r => (regionHomes r).any fun h => overlap l 64 h.1 h.2.1)

theorem moverLine_clear {s : State} {p : Plan} {l : Nat} (ha : l % 64 = 0) (hn : inNear p l 64 = true)
    (hr : ∀ r ∈ s.tier.regions, ∀ h ∈ regionHomes r, overlap l 64 h.1 h.2.1 = false) : moverLine s p l = true := by
  have clear : (s.tier.regions.any fun r => (regionHomes r).any fun h => overlap l 64 h.1 h.2.1) = false := by
    rw [List.any_eq_false]
    intro r hin
    rw [Bool.not_eq_true, List.any_eq_false]
    intro h hh
    rw [hr r hin h hh]
    decide
  rw [moverLine, clear, hn, decide_eq_true ha]
  rfl

/-- PREFETCH_PLAN whose block and lines are right, while no other is being checked. -/
theorem prefetchPlan_run {s : State} {mb : Fin 8} {priv : Bool} {cmd : Line} {p : Plan} (h : Handled s mb priv 0x10 cmd)
    (hp : s.job.plan = some p) (ha : fld cmd 8 8 % 64 = 0) (hn : inNear p (fld cmd 8 8) (24 * fld cmd 16 4) = true)
    (h0 : 0 < fld cmd 16 4) (h1 : fld cmd 16 4 ≤ 65536) (hc : moverLine s p (fld cmd 24 8) = true)
    (hl : moverLine s p (fld cmd 32 8) = true) (hload : s.tier.loading = none) :
    (∀ o, ((List.range (fld cmd 16 4)).findSome? fun i =>
        (entryFault (took s mb priv cmd) (s.mem.bytes (fld cmd 8 8 + 24 * i) 24)).map fun o => 24 * i + o) = some o →
      exec (.prefetchPlan (.issue mb (portOf mb) priv cmd)) s = .next (badBlock (took s mb priv cmd) mb o)) ∧
    (((List.range (fld cmd 16 4)).findSome? fun i =>
        (entryFault (took s mb priv cmd) (s.mem.bytes (fld cmd 8 8 + 24 * i) 24)).map fun o => 24 * i + o) = none →
      ∃ l, exec (.prefetchPlan (.issue mb (portOf mb) priv cmd)) s =
        .next (accepted { took s mb priv cmd with tier.loading := l } mb)) := by
  have run : exec (.prefetchPlan (.issue mb (portOf mb) priv cmd)) s = _ := exec_handled _ h (by rfl)
  have plan : (took s mb priv cmd).job.plan = some p := hp
  have load : (took s mb priv cmd).tier.loading = none := hload
  have mem : s.mem = (took s mb priv cmd).mem := rfl
  have cursor : moverLine (took s mb priv cmd) p (fld cmd 24 8) = true := hc
  have progress : moverLine (took s mb priv cmd) p (fld cmd 32 8) = true := hl
  unfold moverLine at cursor progress
  rw [mem]
  obtain ⟨u, hu⟩ : ∃ u, u = took s mb priv cmd := ⟨_, rfl⟩
  obtain ⟨fault, hfault⟩ : ∃ f, f = entryFault := ⟨_, rfl⟩
  obtain ⟨near, hnear⟩ : ∃ f, f = inNear := ⟨_, rfl⟩
  obtain ⟨homes, hhomes⟩ : ∃ f, f = regionHomes := ⟨_, rfl⟩
  obtain ⟨bad, hbad⟩ : ∃ f, f = badBlock := ⟨_, rfl⟩
  obtain ⟨accept, haccept⟩ : ∃ f, f = accepted := ⟨_, rfl⟩
  simp only [← hu, ← hfault, ← hnear, ← hhomes, ← hbad, ← haccept] at run plan load cursor progress hn ⊢
  rw [plan] at run
  dsimp only at run
  rw [if_neg (by simp [ha, hn]), if_neg (by omega), if_neg (by rw [cursor]; decide), if_neg (by rw [progress]; decide),
    load] at run
  dsimp only at run
  refine ⟨fun o ho => ?_, fun hnone => ?_⟩
  · rw [ho] at run
    exact run
  · rw [hnone] at run
    exact ⟨_, run⟩

/-- An offset, if there is one, below a bound. -/
def offsetBelow (n : Nat) (a : Option Nat) : Prop := ∀ o, a = some o → o < n

theorem offsetBelow_none (n : Nat) : offsetBelow n none := fun _ h => nomatch h

theorem offsetBelow_some {n k : Nat} (h : k < n) : offsetBelow n (some k) := fun _ ho => Option.some.inj ho ▸ h

theorem offsetBelow_ite {n : Nat} {c : Prop} [Decidable c] {a b : Option Nat} (ha : offsetBelow n a) (hb : offsetBelow n b) :
    offsetBelow n (if c then a else b) := by
  split
  · exact ha
  · exact hb

/-- A check that names an offset, before others. -/
theorem offsetBelow_check {n k : Nat} {c : Prop} [Decidable c] {b : Option Nat} (h : k < n) (hb : offsetBelow n b) :
    offsetBelow n (if c then some k else b) := offsetBelow_ite (offsetBelow_some h) hb

/-- A fault of a schedule entry lies in its 24 B. -/
theorem offsetBelow_entryFault (s : State) (bs : List Byte) : offsetBelow 24 (entryFault s bs) := by
  unfold entryFault
  dsimp only
  have no := offsetBelow_none 24
  split
  · exact offsetBelow_check (by decide) (offsetBelow_some (by decide))
  · refine offsetBelow_check (by decide) (offsetBelow_check (by decide) (offsetBelow_check (by decide)
      (offsetBelow_check (by decide) (offsetBelow_ite ?_ ?_))))
    · exact offsetBelow_check (by decide) (offsetBelow_check (by decide) (offsetBelow_check (by decide) no))
    · exact offsetBelow_check (by decide) (offsetBelow_check (by decide) (offsetBelow_ite (offsetBelow_check (by decide) no)
        (offsetBelow_check (by decide) no)))

theorem prefetchPlan_clauses {s : State} {mb : Fin 8} {priv : Bool} {cmd : Line} {p : Plan} (h : Handled s mb priv 0x10 cmd)
    (hp : s.job.plan = some p) (ha : fld cmd 8 8 % 64 = 0) (hn : inNear p (fld cmd 8 8) (24 * fld cmd 16 4) = true)
    (h0 : 0 < fld cmd 16 4) (h1 : fld cmd 16 4 ≤ 65536) (hc : moverLine s p (fld cmd 24 8) = true)
    (hl : moverLine s p (fld cmd 32 8) = true) (hload : s.tier.loading = none) :
    (∀ o, entryFault s (s.mem.bytes (fld cmd 8 8) 24) = some o →
      Ends (.prefetchPlan (.issue mb (portOf mb) priv cmd)) s fun t =>
        Answered s t mb cmd 0x10 (0x10000 + o) ∧ OnlyAnswer s t mb) ∧
    ((∀ i, i < fld cmd 16 4 → entryFault s (s.mem.bytes (fld cmd 8 8 + 24 * i) 24) = none) →
      Ends (.prefetchPlan (.issue mb (portOf mb) priv cmd)) s fun t =>
        RunsLong s t mb cmd ∧ BoxFrame s t mb ∧ t.tier.schedule = s.tier.schedule ∧
        t = { s with
          mb := t.mb, events := t.events, stat := { s.stat with evtOvf := t.stat.evtOvf }
          tier := { s.tier with loading := t.tier.loading } }) := by
  obtain ⟨faulty, taken⟩ := prefetchPlan_run h hp ha hn h0 h1 hc hl hload
  have same : ∀ bs, entryFault (took s mb priv cmd) bs = entryFault s bs := fun _ => rfl
  refine ⟨fun o ho => ?_, fun hall => ?_⟩
  · obtain ⟨n, hcount⟩ : ∃ n, fld cmd 16 4 = n + 1 := ⟨fld cmd 16 4 - 1, by omega⟩
    have first : ((List.range (fld cmd 16 4)).findSome? fun i =>
        (entryFault (took s mb priv cmd) (s.mem.bytes (fld cmd 8 8 + 24 * i) 24)).map fun o => 24 * i + o) = some o := by
      rw [hcount, List.range_succ_eq_map, List.findSome?_cons, same, Nat.mul_zero, Nat.add_zero, ho, Option.map_some,
        Nat.zero_add]
    exact ⟨_, faulty o first, refusedOnly h (status := stBadArg) (by decide)
      (by have := offsetBelow_entryFault s _ o ho; omega)⟩
  · have none : ((List.range (fld cmd 16 4)).findSome? fun i =>
        (entryFault (took s mb priv cmd) (s.mem.bytes (fld cmd 8 8 + 24 * i) 24)).map fun o => 24 * i + o) = none := by
      rw [List.findSome?_eq_none_iff]
      intro i hi
      rw [same, hall i (List.mem_range.1 hi), Option.map_none]
    obtain ⟨l, run⟩ := taken none
    obtain ⟨w, hw⟩ : ∃ w : State, w = { s with tier := { s.tier with loading := l } } := ⟨_, rfl⟩
    obtain ⟨t, ht⟩ : ∃ t, t = accepted (took w mb priv cmd) mb := ⟨_, rfl⟩
    obtain ⟨long, frame, whole⟩ := accepted_changed (s := s) (by rw [hw]) (by rw [hw]) (by rw [hw]) ht
    have tier : t.tier = { s.tier with loading := l } := by rw [whole, hw]
    refine ⟨t, run.trans (congrArg Host.Outcome.next ?_), long, frame, by rw [tier], ?_⟩
    · rw [ht, hw]
      rfl
    · conv_lhs => rw [whole, hw]
      rw [tier]

/-- PREFETCH_PLAN_COMPLETE: the schedule replaces the one in force. -/
theorem prefetchPlanComplete_taken {s : State} {mb : Fin 8} {es : List PfEntry} {cursor progress : U64} {stands : Bool}
    (hl : s.tier.loading = some (mb, es, cursor, progress, stands)) (hf : s.stat.fwState.get = 2) :
    Ends .prefetchPlanComplete s fun t =>
      (box t mb).busy = false ∧ (box t mb).done = true ∧ (box t mb).code = 0 ∧
      (box t mb).count = (box s mb).count + 1 ∧ BoxFrame s t mb ∧
      t = { s with
        mb := t.mb, events := t.events, stat := { s.stat with evtOvf := t.stat.evtOvf }
        tier := { s.tier with
          loading := none, schedule := es, flight := [], progressLine := some progress, position := 0, step := 0
          cursorLine := if stands = true then some cursor else none }
        cap := { s.cap with lineEntry := some cursor, filterPending := s.cap.filterPending + 1 } } := by
  obtain ⟨w, hw⟩ : ∃ w : State, w = { s with
    tier := { s.tier with
      loading := none, schedule := es, flight := [], progressLine := some progress, position := 0, step := 0
      cursorLine := if stands = true then some cursor else none }
    cap := { s.cap with lineEntry := some cursor, filterPending := s.cap.filterPending + 1 } } := ⟨_, rfl⟩
  have run : exec .prefetchPlanComplete s = .next (respondOk w mb) := by
    refine congrArg Host.Outcome.next ?_
    simp only [hl, hw]
  have running : fwRunning w = true := by rw [hw]; exact decide_eq_true hf
  obtain ⟨t, ht⟩ : ∃ t, t = respond w mb stOk 0 [] := ⟨_, rfl⟩
  have only : OnlyBox w t mb := ht ▸ onlyBox_respond running mb stOk 0 []
  have hbox : box t mb = answered (w.ctrl.compatA.get = 1) (box w mb) stOk 0 [] := by
    rw [ht]
    exact respond_box_same w mb stOk 0 [] running
  have boxes : ∀ m, box w m = box s m := fun m => by rw [hw]; rfl
  refine ⟨t, run.trans (by rw [ht]; rfl), by rw [hbox]; rfl, by rw [hbox]; rfl, by rw [hbox]; rfl, ?_,
    ⟨fun m hm => (only.others m hm).trans (boxes m), ?_, fun hm => ?_⟩, ?_⟩
  · rw [hbox, boxes]
    rfl
  · rw [only.frame, hw]
  · have quiet := only.quiet hm
    rw [hw] at quiet
    exact quiet
  · have umb : t.mb = { w.mb with boxes := t.mb.boxes } := congrArg State.mb only.frame
    conv_lhs => rw [only.frame]
    rw [← umb, hw]

/-! ### Entries in flight (R42, R45, R48, R51 to R53) -/

theorem prefetchEntry_idle {s : State} {i : Nat} (h : servedFlight s i = none ∨ s.tier.halted = 15) :
    exec (.prefetchEntryComplete i) s = .next s := by
  refine congrArg Host.Outcome.next ?_
  rcases h with h | h
  · rw [h]
    exact ite_self _
  · exact if_pos (.inl h)

theorem prefetchEntry_serves {s : State} {i : Nat} {f : Flight} (h : servedFlight s i = some f) (hh : s.tier.halted ≠ 15)
    (hs : s.power.season.get = 0) : exec (.prefetchEntryComplete i) s = .next (serveFlight s f) := by
  refine congrArg Host.Outcome.next ?_
  rw [if_neg (by rw [hs]; simpa using hh), h]

theorem servedFlight_absent {s : State} {i : Nat} (h : ∀ f ∈ s.tier.flight, f.index ≠ i) : servedFlight s i = none := by
  have none : (s.tier.flight.find? fun f => f.index = i) = none :=
    List.find?_eq_none.2 fun f hf => by simpa using h f hf
  rw [servedFlight, none]

/-- An entry does not go before itself. -/
theorem servedBefore_irrefl (s : State) (f : Flight) : servedBefore s f f = false := by
  rw [servedBefore]
  simp

theorem servedFlight_alone {s : State} {f : Flight} (h : s.tier.flight = [f]) : servedFlight s f.index = some f := by
  have found : (s.tier.flight.find? fun g => g.index = f.index) = some f := by rw [h]; simp
  have ready : s.tier.flight.filter (fun g => !g.stalled || decide (g = f)) = [f] := by rw [h]; simp
  have first : [f].find? (fun g => [f].all fun h => !servedBefore s h g) = some f := by
    simp [servedBefore_irrefl]
  rw [servedFlight, found]
  dsimp only
  rw [ready, first, if_pos rfl]

/-- A due entry that started first goes before every other, but for an OFFLOAD. -/
theorem servedFlight_waits {s : State} {f g : Flight} (h : s.tier.flight = [f, g]) (hne : f.index ≠ g.index)
    (hs : f.stalled = false) (ha : f.entry.action ≠ 2) (hp : f.entry.position.toNat ≤ s.tier.position.toNat) :
    servedFlight s g.index = none := by
  have differ : f ≠ g := fun e => hne (congrArg Flight.index e)
  have found : (s.tier.flight.find? fun k => k.index = g.index) = some g := by
    rw [h]
    simp [hne]
  have ready : s.tier.flight.filter (fun k => !k.stalled || decide (k = g)) = [f, g] := by
    rw [h]
    simp [hs]
  have due : isDue s f = true := by
    rw [isDue, decide_eq_true hp, Bool.or_true]
  have cls : farClass s f = 2 := by rw [farClass, if_neg ha, due, if_pos rfl]
  have later : servedBefore s g f = false := by
    have other : ¬ farClass s g < 2 := by
      unfold farClass
      split_ifs <;> decide
    rw [servedBefore, cls, decide_eq_false other]
    simp
  have first : [f, g].find? (fun k => [f, g].all fun h => !servedBefore s h k) = some f := by
    simp [servedBefore_irrefl, later]
  rw [servedFlight, found]
  dsimp only
  rw [ready, first, if_neg (by simpa using differ)]

/-- The state after an entry of the current step has ended complete, but for the progress line. -/
def flightEnded (s : State) (f : Flight) (e : PfEntry) : State :=
  { s with tier := { s.tier with
      flight := [], schedule := s.tier.schedule.set f.index { e with done := true, failed := false } } }

theorem endFlight_complete {s : State} {f : Flight} {e : PfEntry} (hf : s.tier.flight = [f]) (hs : f.step = s.tier.step)
    (he : s.tier.schedule[f.index]? = some e) : endFlight s f true = writeProgress (flightEnded s f e) := by
  have gone : s.tier.flight.filter (fun g => !decide (g.index = f.index ∧ g.step = f.step)) = [] := by
    rw [hf]
    simp
  rw [endFlight, gone]
  dsimp only
  rw [if_pos hs, he]
  rfl

theorem entryReads_move {f : Flight} (r : Region) (h : f.entry.action = 2 ∨ f.entry.action = 3) : entryReads f r = [] := by
  unfold entryReads
  rcases h with h | h
  · rw [h]
    rfl
  · rw [h]
    rfl

/-- OFFLOAD copies the buffer to the region's home, RETURN the home to the buffer. -/
theorem serveFlight_move {s : State} {f : Flight} {r : Region} (hr : findRegion s f.entry.region = some r)
    (h : f.entry.action = 2 ∨ f.entry.action = 3) : serveFlight s f = endFlight { s with
      mem := s.mem.copy (if f.entry.action = 2 then f.entry.nearAddr.toNat else regionAddr r (f.entry.firstTile.toNat * 16384))
        (if f.entry.action = 2 then regionAddr r (f.entry.firstTile.toNat * 16384) else f.entry.nearAddr.toNat)
        (f.entry.tiles.toNat * 16384) } f true := by
  have reads := entryReads_move r h
  unfold serveFlight
  obtain ⟨addr, haddr⟩ : ∃ f, f = regionAddr := ⟨_, rfl⟩
  obtain ⟨fin, hfin⟩ : ∃ f, f = endFlight := ⟨_, rfl⟩
  obtain ⟨stage, hstage⟩ : ∃ f, f = stageTile := ⟨_, rfl⟩
  obtain ⟨rows, hrows⟩ : ∃ f, f = stageRows := ⟨_, rfl⟩
  simp only [← haddr, ← hfin, ← hstage, ← hrows]
  rw [hr]
  dsimp only
  rw [reads, List.filter_nil, ite_self, if_neg (by decide)]
  rcases h with h | h
  · simp only [h, if_true]
    rfl
  · simp only [h]
    rfl

theorem foldl_max_lt {n : Nat} : ∀ {l : List Nat} {a : Nat}, a < n → (∀ x ∈ l, x < n) → l.foldl max a < n
  | [], _, ha, _ => ha
  | x :: l, _, ha, h => foldl_max_lt (l := l) (max_lt ha (h x List.mem_cons_self)) fun y hy => h y (List.mem_cons_of_mem _ hy)

theorem donePosition_lt (es : List PfEntry) : donePosition es < 2 ^ 16 := by
  refine foldl_max_lt (by decide) fun x hx => ?_
  obtain ⟨e, -, rfl⟩ := List.mem_map.1 (List.mem_filter.1 hx).1
  exact e.position.isLt

/-- The progress line written: its fields, and nothing outside it. -/
theorem writeProgress_written {u : State} {prog : U64} (hp : u.tier.progressLine = some prog) (hh : u.tier.haltFlag = false) :
    ∃ mem, writeProgress u = { u with mem := mem } ∧
      (∀ x, x < prog.toNat ∨ prog.toNat + 64 ≤ x → mem.byte x = u.mem.byte x) ∧
      fld (mem.line prog.toNat) 0 2 = donePosition u.tier.schedule ∧
      fld (mem.line prog.toNat) 2 2 = (if ∀ q ∈ u.tier.schedule, q.done = true ∨ q.failed = true then 1 else 0) ∧
      fld (mem.line prog.toNat) 8 8 = u.tier.step.toNat ∧ fld (mem.line prog.toNat) 16 8 = u.time.gtc.toNat := by
  obtain ⟨fs, hfs⟩ : ∃ fs : List (Nat × Nat × Nat), fs = [(0, 2, donePosition u.tier.schedule),
    (2, 2, bit (u.tier.schedule.all fun e => e.done || e.failed) + 2 * bit u.tier.haltFlag), (4, 4, u.tier.maskSeq.toNat),
    (8, 8, u.tier.step.toNat), (16, 8, u.time.gtc.toNat)] := ⟨_, rfl⟩
  have apart : fieldsApart fs = true := by rw [hfs]; rfl
  have wrote : writeProgress u = { u with mem := u.mem.writeLine prog.toNat (mkLine fs) } := by
    rw [writeProgress, hp, hfs]
  have field : ∀ {o n v : Nat}, (o, n, v) ∈ fs → v < 2 ^ (8 * n) →
      fld ((u.mem.writeLine prog.toNat (mkLine fs)).line prog.toNat) o n = v := fun hm hv => by
    rw [Mem.line_writeLine, fld_mkLine_mem apart hm, Nat.mod_eq_of_lt hv]
  refine ⟨_, wrote, fun x hx => Mem.byte_writeLine_other _ _ _ hx, ?_, ?_, ?_, ?_⟩
  · exact field (by simp [hfs]) (donePosition_lt _)
  · have flags : bit (u.tier.schedule.all fun e => e.done || e.failed) + 2 * bit u.tier.haltFlag =
        if ∀ q ∈ u.tier.schedule, q.done = true ∨ q.failed = true then 1 else 0 := by
      rw [hh]
      by_cases all : ∀ q ∈ u.tier.schedule, q.done = true ∨ q.failed = true
      · rw [if_pos all, List.all_eq_true.2 fun q hq => by simpa using all q hq]
        rfl
      · have some : (u.tier.schedule.all fun e => e.done || e.failed) = false :=
          Bool.eq_false_iff.2 fun h => all (by simpa using h)
        rw [if_neg all, some]
        rfl
    refine (field (v := bit (u.tier.schedule.all fun e => e.done || e.failed) + 2 * bit u.tier.haltFlag)
      (by simp [hfs]) ?_).trans flags
    rw [flags]
    split <;> decide
  · exact field (by simp [hfs]) u.tier.step.isLt
  · exact field (by simp [hfs]) u.time.gtc.isLt

theorem byte_copy (m : Mem) (src dst n x : Nat) :
    (m.copy src dst n).byte x = if dst ≤ x ∧ x < dst + n then m.byte (src + (x - dst)) else m.byte x := by
  by_cases h : dst ≤ x ∧ x < dst + n
  · obtain ⟨i, rfl⟩ := Nat.exists_eq_add_of_le h.1
    rw [if_pos h, Mem.byte_copy_same _ _ _ _ (by omega), Nat.add_sub_cancel_left]
  · rw [if_neg h, Mem.byte_copy_other _ _ _ _ _ (by omega)]

theorem prefetchEntry_move {s : State} {f : Flight} {e : PfEntry} {r : Region} {prog : U64} (hf : s.tier.flight = [f])
    (hs : f.step = s.tier.step) (he : s.tier.schedule[f.index]? = some e) (hh : s.tier.halted ≠ 15)
    (hsum : s.power.season.get = 0) (hr : s.tier.regions = [r]) (hid : r.id = f.entry.region)
    (hp : s.tier.progressLine = some prog) (hflag : s.tier.haltFlag = false)
    (ha : f.entry.action = 2 ∨ f.entry.action = 3) : Ends (.prefetchEntryComplete f.index) s fun t =>
      (∀ x, x < prog.toNat ∨ prog.toNat + 64 ≤ x → t.mem.byte x =
        (let home := regionAddr r (f.entry.firstTile.toNat * 16384)
         let src := if f.entry.action = 2 then f.entry.nearAddr.toNat else home
         let dst := if f.entry.action = 2 then home else f.entry.nearAddr.toNat
         if dst ≤ x ∧ x < dst + f.entry.tiles.toNat * 16384 then s.mem.byte (src + (x - dst)) else s.mem.byte x)) ∧
      fld (t.mem.line prog.toNat) 0 2 = donePosition t.tier.schedule ∧
      fld (t.mem.line prog.toNat) 2 2 = (if ∀ q ∈ t.tier.schedule, q.done = true ∨ q.failed = true then 1 else 0) ∧
      fld (t.mem.line prog.toNat) 8 8 = s.tier.step.toNat ∧ fld (t.mem.line prog.toNat) 16 8 = s.time.gtc.toNat ∧
      t = { s with mem := t.mem, tier := { s.tier with
        flight := [], schedule := s.tier.schedule.set f.index { e with done := true, failed := false } } } := by
  have found : findRegion s f.entry.region = some r := by
    rw [findRegion, hr]
    simp [hid]
  have run := prefetchEntry_serves (servedFlight_alone hf) hh hsum
  rw [serveFlight_move found ha] at run
  generalize regionAddr r (f.entry.firstTile.toNat * 16384) = home at run ⊢
  obtain ⟨src, hsrc⟩ : ∃ a, a = if f.entry.action = 2 then f.entry.nearAddr.toNat else home := ⟨_, rfl⟩
  obtain ⟨dst, hdst⟩ : ∃ a, a = if f.entry.action = 2 then home else f.entry.nearAddr.toNat := ⟨_, rfl⟩
  obtain ⟨m, hm⟩ : ∃ m, m = s.mem.copy src dst (f.entry.tiles.toNat * 16384) := ⟨_, rfl⟩
  rw [← hsrc, ← hdst, ← hm, endFlight_complete (s := { s with mem := m }) hf hs he] at run
  dsimp only
  rw [← hsrc, ← hdst]
  obtain ⟨mem, wrote, outside, done, flags, step, gtc⟩ :=
    writeProgress_written (u := flightEnded { s with mem := m } f e) hp hflag
  rw [wrote] at run
  refine ⟨_, run, fun x hx => ?_, done, flags, step, gtc, rfl⟩
  rw [← byte_copy, ← hm]
  exact outside x hx

/-! ### A FETCH entry into an empty STAGE window (R45, R48, R52) -/

theorem freeSlot_empty {s : State} (ht : s.recov.target = false) (hst : s.tier.staged = []) (hro : s.tier.rows = [])
    (hq : 0 < s.tier.quotas.stage) : freeSlot s 16384 = some 0 := by
  have used : stageUsed s = [] := by
    rw [stageUsed, hst, hro]
    rfl
  have room : ∃ n, (stageEnd s - s.tier.quotas.stageBase * mib) / 16384 = n + 1 := by
    refine ⟨(stageEnd s - s.tier.quotas.stageBase * mib) / 16384 - 1, ?_⟩
    have here : stageEnd s = (s.tier.quotas.stageBase + s.tier.quotas.stage) * mib := by
      rw [stageEnd, ht]
      rfl
    have large : 64 ≤ (stageEnd s - s.tier.quotas.stageBase * mib) / 16384 := by
      rw [here, show mib = 2 ^ 20 from rfl, Nat.add_mul, Nat.add_sub_cancel_left]
      omega
    omega
  obtain ⟨n, hn⟩ := room
  rw [freeSlot, hn, used, List.range_succ_eq_map]
  rfl

theorem roomFor_free {s : State} {size i : Nat} (h : freeSlot s size = some i) : roomFor s size = (s, some i) := by
  have unfolded := Eq.refl roomFor
  conv at unfolded => rhs; delta roomFor
  obtain ⟨free, hfree⟩ : ∃ f, f = freeSlot := ⟨_, rfl⟩
  obtain ⟨old, hold⟩ : ∃ f, f = victim := ⟨_, rfl⟩
  simp only [← hfree, ← hold] at h unfolded
  rw [unfolded]
  beta_reduce
  rw [h]

/-- A far tile staged where there is room. -/
theorem stageTile_room {s t : State} {e : PfEntry} {step : U64} {r : Region} {tile i : Nat} (hfar : r.nearBays * 64 ≤ tile)
    (hst : isStaged s r.id tile = false) (hroom : roomFor s 16384 = (t, some i)) : stageTile s e step r tile = { t with
      mem := t.mem.copy (regionAddr r (tile * 16384)) (t.tier.quotas.stageBase * mib + i * 16384) 16384
      tier.staged := t.tier.staged ++ [⟨r.id, tile, t.tier.quotas.stageBase * mib + i * 16384, e.position, step⟩] } := by
  rw [stageTile, if_neg (by omega), hst, if_neg (by decide), hroom]

/-- A state with one staged tile, copied to the base of the STAGE window. -/
def stagedFirst (s : State) (e : PfEntry) (step : U64) (id : Byte) (tile src : Nat) : State :=
  { s with
    mem := s.mem.copy src (s.tier.quotas.stageBase * mib) 16384
    tier := { s.tier with staged := [⟨id, tile, s.tier.quotas.stageBase * mib, e.position, step⟩] } }

/-- A far tile staged at the base of an empty window. -/
theorem stageTile_empty {s : State} {e : PfEntry} {step : U64} {r : Region} {tile : Nat} (hfar : r.nearBays * 64 ≤ tile)
    (ht : s.recov.target = false) (hst : s.tier.staged = []) (hro : s.tier.rows = []) (hq : 0 < s.tier.quotas.stage) :
    stageTile s e step r tile = stagedFirst s e step r.id tile (regionAddr r (tile * 16384)) := by
  have unstaged : isStaged s r.id tile = false := by
    rw [isStaged, hst]
    rfl
  rw [stageTile_room hfar unstaged (roomFor_free (freeSlot_empty ht hst hro hq)), stagedFirst, Nat.zero_mul, Nat.add_zero, hst,
    List.nil_append]

theorem serveFlight_fetch {s : State} {f : Flight} {r : Region} (hr : findRegion s f.entry.region = some r)
    (ha : f.entry.action = 0) (h1 : f.entry.tiles.toNat = 1) (hfar : r.nearBays * 64 ≤ f.entry.firstTile.toNat)
    (hreb : rebuilding s = false) (ht : s.recov.target = false) (hst : s.tier.staged = []) (hro : s.tier.rows = [])
    (hq : 0 < s.tier.quotas.stage) : serveFlight s f = endFlight (stagedFirst s f.entry f.step r.id f.entry.firstTile.toNat
      (regionAddr r (f.entry.firstTile.toNat * 16384))) f true := by
  have staged := stageTile_empty (e := f.entry) (step := f.step) hfar ht hst hro hq
  have tiles : ((List.range f.entry.tiles.toNat).map fun i => f.entry.firstTile.toNat + i) = [f.entry.firstTile.toNat] := by
    rw [h1]
    rfl
  obtain ⟨t, htile⟩ : ∃ t, t = stageTile s f.entry f.step r f.entry.firstTile.toNat := ⟨_, rfl⟩
  have stands : isStaged t r.id f.entry.firstTile.toNat = true := by
    rw [htile, staged, isStaged, stagedFirst]
    simp
  rw [← htile] at staged
  rw [← staged]
  unfold serveFlight
  obtain ⟨addr, haddr⟩ : ∃ f, f = regionAddr := ⟨_, rfl⟩
  obtain ⟨rows, hrows⟩ : ∃ f, f = stageRows := ⟨_, rfl⟩
  obtain ⟨tile, hstage⟩ : ∃ f, f = stageTile := ⟨_, rfl⟩
  obtain ⟨reads, hreads⟩ : ∃ f, f = entryReads := ⟨_, rfl⟩
  simp only [← haddr, ← hrows, ← hstage, ← hreads] at htile ⊢
  rw [hr]
  dsimp only
  rw [hreb, if_neg (show ¬ (false = true) by decide), if_neg (show ¬¬ ([] : List Nat).isEmpty = true by decide), tiles]
  simp only [ha]
  show settleFlight (tile s f.entry f.step r f.entry.firstTile.toNat) f ([f.entry.firstTile.toNat].all fun i =>
    decide (i < r.nearBays * 64) || isStaged (tile s f.entry f.step r f.entry.firstTile.toNat) r.id i) = endFlight t f true
  rw [← htile, List.all_cons, List.all_nil, stands, Bool.or_true, Bool.true_and, settleFlight, if_pos rfl]

theorem prefetchEntry_fetch {s : State} {f : Flight} {e : PfEntry} {r : Region} {prog : U64} (hf : s.tier.flight = [f])
    (hs : f.step = s.tier.step) (he : s.tier.schedule[f.index]? = some e) (hh : s.tier.halted ≠ 15)
    (hsum : s.power.season.get = 0) (hr : s.tier.regions = [r]) (hid : r.id = f.entry.region)
    (hp : s.tier.progressLine = some prog) (hflag : s.tier.haltFlag = false) (ha : f.entry.action = 0)
    (h1 : f.entry.tiles.toNat = 1) (hfar : r.nearBays * 64 ≤ f.entry.firstTile.toNat) (hreb : rebuilding s = false)
    (ht : s.recov.target = false) (hst : s.tier.staged = []) (hro : s.tier.rows = []) (hq : 0 < s.tier.quotas.stage) :
    Ends (.prefetchEntryComplete f.index) s fun t =>
      (∀ x, x < prog.toNat ∨ prog.toNat + 64 ≤ x → t.mem.byte x =
        (let dst := s.tier.quotas.stageBase * 2 ^ 20
         if dst ≤ x ∧ x < dst + 16384 then s.mem.byte (regionAddr r (f.entry.firstTile.toNat * 16384) + (x - dst))
         else s.mem.byte x)) ∧
      t = { s with mem := t.mem, tier := { s.tier with
        flight := [], schedule := s.tier.schedule.set f.index { e with done := true, failed := false }
        staged := [⟨r.id, f.entry.firstTile.toNat, s.tier.quotas.stageBase * 2 ^ 20, f.entry.position, f.step⟩] } } := by
  have found : findRegion s f.entry.region = some r := by
    rw [findRegion, hr]
    simp [hid]
  have run := prefetchEntry_serves (servedFlight_alone hf) hh hsum
  rw [serveFlight_fetch found ha h1 hfar hreb ht hst hro hq] at run
  obtain ⟨src, hsrc⟩ : ∃ a, a = regionAddr r (f.entry.firstTile.toNat * 16384) := ⟨_, rfl⟩
  obtain ⟨u, hu⟩ : ∃ u, u = stagedFirst s f.entry f.step r.id f.entry.firstTile.toNat src := ⟨_, rfl⟩
  obtain ⟨base, hbase⟩ : ∃ b, b = s.tier.quotas.stageBase * 2 ^ 20 := ⟨_, rfl⟩
  have stagedAt : u = { s with
      mem := s.mem.copy src base 16384
      tier := { s.tier with staged := [⟨r.id, f.entry.firstTile.toNat, base, f.entry.position, f.step⟩] } } := by
    rw [hu, hbase]
    rfl
  rw [← hsrc, ← hu, endFlight_complete (s := u) (e := e) (by rw [stagedAt]; exact hf) (by rw [stagedAt]; exact hs)
    (by rw [stagedAt]; exact he)] at run
  obtain ⟨mem, wrote, outside, -⟩ := writeProgress_written (u := flightEnded u f e) (prog := prog)
    (by rw [stagedAt]; exact hp) (by rw [stagedAt]; exact hflag)
  rw [wrote] at run
  dsimp only
  rw [← hsrc, ← hbase]
  refine ⟨_, run, fun x hx => ?_, ?_⟩
  · rw [← byte_copy]
    refine (outside x hx).trans ?_
    rw [flightEnded, stagedAt]
  · rw [flightEnded, stagedAt]

/-- Settles O13: regions, quotas, schedules, and what an entry in flight does. -/
theorem regionsQuotasAndPrefetch : Obligations.RegionsQuotasAndPrefetch := by
  intro s mb priv cmd p hp
  refine ⟨fun h => ⟨regionDeclare_used h hp, regionDeclare_taken h hp⟩, fun h hm hw => ?_, ?_, fun hl => ?_,
    fun es cursor progress stands => prefetchPlanComplete_taken, fun i hi => ⟨s, ?_, rfl⟩,
    fun f g hf hne hs ha hle => ⟨s, prefetchEntry_idle (.inl (servedFlight_waits hf hne hs ha hle)), rfl⟩,
    fun f e r prog hf hs he hh hsum hr hid hprog hflag => ⟨prefetchEntry_move hf hs he hh hsum hr hid hprog hflag,
      prefetchEntry_fetch hf hs he hh hsum hr hid hprog hflag⟩⟩
  · obtain ⟨q, hq⟩ : ∃ q, q = quotasOf s.tier.quotas cmd := ⟨_, rfl⟩
    have fields : ∀ i, i < 11 → quotaField q i =
      if (fld cmd 52 2).testBit i then fld cmd (8 + 4 * i) 4 else quotaField s.tier.quotas i := fun i hi => by
        rw [hq, quotaField_quotasOf _ _ hi]
    obtain ⟨formed, open_⟩ := tierQuotaSet_run h hp hm hw hq
    rw [← hq]
    refine ⟨fun i hi hf hne => ⟨_, formed hf ⟨i, hi, hne⟩, refusedOnly h (by decide) (wrongState_detail_lt s)⟩, fun hsame => ?_⟩
    obtain ⟨lowered, taken⟩ := open_ hsame
    refine ⟨fun h1 h2 => ?_, fun hall hst => tierQuotaSet_taken h (taken ?_ hst) fields⟩
    · have first : (List.range 11).find? (fun i => loweredBelow (took s mb priv cmd) q i) = some 0 := by
        rw [List.range_succ_eq_map, List.find?_cons, loweredBelow_near (s := took s mb priv cmd) h1 h2]
      exact ⟨_, lowered 0 first, refusedOnly h (status := stResource) (by decide) (by decide)⟩
    · refine List.find?_eq_none.2 fun i hi => ?_
      rw [show loweredBelow (took s mb priv cmd) q i = loweredBelow s q i from rfl, hall i (List.mem_range.1 hi)]
      decide
  · intro h ha hn h0 h1 hca hcn hla hln hclear hload
    exact prefetchPlan_clauses h hp ha hn h0 h1
      (moverLine_clear hca hcn fun r hr k hk => (hclear r hr k hk).1)
      (moverLine_clear hla hln fun r hr k hk => (hclear r hr k hk).2) hload
  · refine ⟨s, congrArg Host.Outcome.next ?_, rfl⟩
    simp only [hl]
  · rcases hi with hi | hi
    · exact prefetchEntry_idle (.inl (servedFlight_absent hi))
    · exact prefetchEntry_idle (.inr hi)

end Sys2Proof.Machine

/-! PROOFS. Reductions: work that is due, and EXCH_REDUCE (R186 to R191, R203, R261, R282). -/

namespace Sys2Proof.Machine

/-! ### Records to other ranks (R190, R282) -/

/-- A state that sends some more records of a type. -/
def sendsRecords (s : State) (type : Byte) (recs : List ExRec) : State :=
  { s with out := { s.out with fbp := s.out.fbp ++ recs.map fun x => .record type x } }

theorem sendsRecords_nil (s : State) (type : Byte) : sendsRecords s type [] = s := by
  rw [sendsRecords, List.map_nil, List.append_nil]

theorem sendsRecords_append (s : State) (type : Byte) (xs ys : List ExRec) :
    sendsRecords (sendsRecords s type xs) type ys = sendsRecords s type (xs ++ ys) := by
  simp only [sendsRecords, List.map_append, List.append_assoc]

theorem sendEx_open {s : State} (ho : exchOpen s = true) (r : Reduce) (dest : Nat) (type : Byte) (x : ExRec) :
    sendEx s r dest type x = sendsRecords s type [{ x with
      group := r.group, seq := r.seq, sender := BitVec.ofNat 24 r.rank, dest := BitVec.ofNat 24 dest }] := by
  rw [sendEx, sendRecord, if_pos ho]
  rfl

theorem sendEx_shut {s : State} (ho : exchOpen s = false) (r : Reduce) (dest : Nat) (type : Byte) (x : ExRec) :
    sendEx s r dest type x = s := by
  rw [sendEx, sendRecord, ho]
  rfl

/-- A step that sends records with a property, and `k` of them while the unit is open. -/
def Sends (type : Byte) (P : ExRec → Prop) (k : Nat) (s t : State) : Prop :=
  ∃ recs, t = sendsRecords s type recs ∧ (exchOpen s = true → recs.length = k) ∧ ∀ y ∈ recs, P y

theorem sends_sendEx (s : State) (r : Reduce) (dest : Nat) (type : Byte) (x : ExRec) :
    Sends type (fun y => y.group = r.group ∧ y.seq = r.seq ∧ y.dest = BitVec.ofNat 24 dest) 1 s (sendEx s r dest type x) := by
  cases ho : exchOpen s with
  | true =>
    refine ⟨_, sendEx_open ho r dest type x, fun _ => rfl, fun y hy => ?_⟩
    rw [List.mem_singleton.1 hy]
    exact ⟨rfl, rfl, rfl⟩
  | false =>
    refine ⟨[], (sendEx_shut ho r dest type x).trans (sendsRecords_nil s type).symm, fun h => ?_, fun y hy => ?_⟩
    · exact absurd (ho.symm.trans h) (by decide)
    · exact absurd hy (by simp)

theorem Sends.trans {type : Byte} {P : ExRec → Prop} {k l : Nat} {s t u : State} (h : Sends type P k s t)
    (h' : Sends type P l t u) : Sends type P (k + l) s u := by
  obtain ⟨xs, ht, hk, hx⟩ := h
  obtain ⟨ys, hu, hl, hy⟩ := h'
  refine ⟨xs ++ ys, by rw [hu, ht, sendsRecords_append], fun ho => ?_, fun y hin => ?_⟩
  · have open_ : exchOpen t = true := by rw [ht]; exact ho
    rw [List.length_append, hk ho, hl open_]
  · rcases List.mem_append.1 hin with h | h
    · exact hx y h
    · exact hy y h

theorem sends_forEach {α : Type} {type : Byte} {P : ExRec → Prop} {k : Nat} {f : State → α → State}
    (hf : ∀ u x, Sends type P k u (f u x)) : ∀ (l : List α) (s : State), Sends type P (l.length * k) s (forEach l f s)
  | [], s => ⟨[], (sendsRecords_nil s type).symm, fun _ => by simp, fun y hy => absurd hy (by simp)⟩
  | x :: l, s => by
    have first := (hf s x).trans (sends_forEach hf l (f s x))
    rwa [List.length_cons, Nat.add_mul, Nat.one_mul, Nat.add_comm]

/-- The DATA records to one owner: one for each source of each segment. -/
theorem sends_sendData (s : State) (r : Reduce) (o : Nat) :
    Sends 0x32 (fun y => y.group = r.group ∧ y.seq = r.seq ∧ y.dest = BitVec.ofNat 24 o)
      (((sliceOf r o).2 + 4095) / 4096 * r.sources.length) s (sendData s r o) := by
  have inner : ∀ (t : State) (seg : Nat × Nat), Sends 0x32 (fun y => y.group = r.group ∧ y.seq = r.seq ∧ y.dest = BitVec.ofNat 24 o)
      r.sources.length t (forEach r.sources.zipIdx (fun u xi =>
        sendEx u r o 0x32 { ExRec.blank with
          compressed := decide (xi.1.format = compressedFormat)
          count := BitVec.ofNat 8 xi.2
          format := BitVec.ofNat 8 xi.1.format
          first := BitVec.ofNat 64 (r.elemBase + seg.1)
          covered := BitVec.ofNat 32 seg.2
          payload := sourceBytes u xi.1 seg.1 seg.2 }) t) := fun t seg => by
    have all := sends_forEach (fun u (xi : ExSource × Nat) => sends_sendEx u r o 0x32 { ExRec.blank with
          compressed := decide (xi.1.format = compressedFormat)
          count := BitVec.ofNat 8 xi.2
          format := BitVec.ofNat 8 xi.1.format
          first := BitVec.ofNat 64 (r.elemBase + seg.1)
          covered := BitVec.ofNat 32 seg.2
          payload := sourceBytes u xi.1 seg.1 seg.2 }) r.sources.zipIdx t
    rwa [List.length_zipIdx, Nat.mul_one] at all
  have outer := sends_forEach inner (segmentsOf r o) s
  rwa [show (segmentsOf r o).length = ((sliceOf r o).2 + 4095) / 4096 by simp [segmentsOf]] at outer

/-- A step that sends records, and does nothing else. -/
def Emits (type : Byte) (s t : State) : Prop := ∃ recs, t = sendsRecords s type recs

theorem Emits.trans {type : Byte} {s t u : State} (h : Emits type s t) (h' : Emits type t u) : Emits type s u := by
  obtain ⟨xs, ht⟩ := h
  obtain ⟨ys, hu⟩ := h'
  exact ⟨xs ++ ys, by rw [hu, ht, sendsRecords_append]⟩

theorem emits_forEach {α : Type} {type : Byte} {f : State → α → State} (hf : ∀ u x, Emits type u (f u x)) :
    ∀ (l : List α) (s : State), Emits type s (forEach l f s)
  | [], s => ⟨[], (sendsRecords_nil s type).symm⟩
  | x :: l, s => (hf s x).trans (emits_forEach hf l (f s x))

theorem Sends.emits {type : Byte} {P : ExRec → Prop} {k : Nat} {s t : State} (h : Sends type P k s t) : Emits type s t :=
  let ⟨recs, sent, _⟩ := h
  ⟨recs, sent⟩

theorem emits_sendExps (s : State) (r : Reduce) (o : Nat) : Emits 0x30 s (sendExps s r o) :=
  emits_forEach (fun u _ => (sends_sendEx u r o 0x30 _).emits) _ s

/-! ### A reduction among those that run -/

/-- The last of the reductions that run, the only one with its name. -/
def HoldsLast (s : State) (pre : List Reduce) (r : Reduce) : Prop :=
  s.exch.reduces = pre ++ [r] ∧ ∀ q ∈ pre, ¬ (q.group = r.group ∧ q.seq = r.seq)

theorem reduceOf_last {s : State} {pre : List Reduce} {r : Reduce} (h : HoldsLast s pre r) :
    reduceOf s r.group r.seq = some r := by
  have none : (pre.find? fun q => q.group = r.group ∧ q.seq = r.seq) = none :=
    List.find?_eq_none.2 fun q hq => by simpa using h.2 q hq
  rw [reduceOf, h.1, List.find?_append, none]
  simp

theorem replaceFirst_last {α : Type} {p : α → Bool} {f : α → α} : ∀ {pre : List α} {x : α}, (∀ y ∈ pre, p y = false) →
    p x = true → replaceFirst p f (pre ++ [x]) = pre ++ [f x]
  | [], x, _, hx => by simp [replaceFirst, hx]
  | y :: pre, x, h, hx => by
    have rest := replaceFirst_last (f := f) (fun z hz => h z (List.mem_cons_of_mem _ hz)) hx
    simp [replaceFirst, h y List.mem_cons_self, rest]

/-- A state whose last reduction has changed. -/
def withReduces (s : State) (rs : List Reduce) : State := { s with exch := { s.exch with reduces := rs } }

theorem setReduce_last {s : State} {pre : List Reduce} {r r' : Reduce} (h : HoldsLast s pre r) (hg : r'.group = r.group)
    (hq : r'.seq = r.seq) : setReduce s r' = withReduces s (pre ++ [r']) := by
  have set : replaceFirst (fun q => decide (q.group = r'.group ∧ q.seq = r'.seq)) (fun _ => r') (pre ++ [r]) = pre ++ [r'] := by
    refine replaceFirst_last (f := fun _ => r') (fun q hq' => ?_) ?_
    · rw [hg, hq]
      simpa using h.2 q hq'
    · rw [hg, hq]
      simp
  rw [setReduce, h.1, set, withReduces]

theorem holdsLast_withReduces {s : State} {pre : List Reduce} {r r' : Reduce} (h : HoldsLast s pre r)
    (hg : r'.group = r.group) (hq : r'.seq = r.seq) : HoldsLast (withReduces s (pre ++ [r'])) pre r' :=
  ⟨rfl, by rw [hg, hq]; exact h.2⟩

/-! ### What is due of a reduction (R189, R261) -/

/-- A state that differs from another only in the rebuild requests and what goes to other instances of the cove. -/
def asksPieces (s : State) (recov : RecS) (plus minus : Nat) (lkp : List LkpOut) : State :=
  { s with
    recov := recov
    fold := { s.fold with rbTokPlus := plus, rbTokMinus := minus }
    out := { s.out with lkp := lkp } }

/-- A step that asks other instances for pieces, and does nothing else. -/
def Asks (s t : State) : Prop := ∃ recov plus minus lkp, t = asksPieces s recov plus minus lkp

theorem Asks.refl (s : State) : Asks s s := ⟨s.recov, s.fold.rbTokPlus, s.fold.rbTokMinus, s.out.lkp, rfl⟩

theorem Asks.trans {s t u : State} (h : Asks s t) (k : Asks t u) : Asks s u := by
  obtain ⟨_, _, _, _, rfl⟩ := h
  obtain ⟨recov, plus, minus, lkp, rfl⟩ := k
  exact ⟨recov, plus, minus, lkp, rfl⟩

theorem asks_forEach {α : Type} {f : State → α → State} (hf : ∀ t x, Asks t (f t x)) (l : List α) (s : State) :
    Asks s (forEach l f s) :=
  forEach_keeps (Asks s) l f s (fun t x h => h.trans (hf t x)) (Asks.refl s)

theorem asks_sendRbTo (s : State) (rank : Nat) (type : Byte) (route : Route) (m : RbMsg) : Asks s (sendRbTo s rank type route m) := by
  obtain ⟨seqs, plus, minus, xs, sent⟩ := sendRbTo_fields s rank type route m
  exact ⟨_, plus, minus, xs, sent⟩

theorem asks_startRead (s : State) (a : Nat) : Asks s (startRead s a) := by
  unfold startRead
  split
  · exact Asks.refl s
  · split
    · exact Asks.refl s
    · refine Asks.trans ?_ (asks_forEach (fun t q => asks_sendRbTo ..) _ _)
      exact ⟨_, s.fold.rbTokPlus, s.fold.rbTokMinus, s.out.lkp, rfl⟩

/-- Work due of the last reduction: what it has sent and what it still waits for may change, records of a type go out, and
pieces are asked for. -/
def Works (type : Byte) (pre : List Reduce) (r : Reduce) (s t : State) : Prop :=
  ∃ r' u recs, r' = { r with waits := r'.waits, sentTo := r'.sentTo } ∧ Asks (sendsRecords s type recs) u ∧
    t = withReduces u (pre ++ [r'])

theorem works_refl {type : Byte} {pre : List Reduce} {r : Reduce} {s : State} (h : s.exch.reduces = pre ++ [r]) :
    Works type pre r s s :=
  ⟨r, s, [], rfl, by rw [sendsRecords_nil]; exact Asks.refl s, by rw [withReduces, ← h]⟩

theorem Works.trans {type : Byte} {pre : List Reduce} {r : Reduce} {s t u : State} (h : Works type pre r s t)
    (k : ∀ r', r' = { r with waits := r'.waits, sentTo := r'.sentTo } → t.exch.reduces = pre ++ [r'] → Works type pre r' t u) :
    Works type pre r s u := by
  obtain ⟨r', v, recs, hr', ⟨recov, plus, minus, lkp, rfl⟩, rfl⟩ := h
  obtain ⟨q, w, more, hq, ⟨recov', plus', minus', lkp', rfl⟩, rfl⟩ := k r' hr' rfl
  refine ⟨q, _, recs ++ more, ?_, ⟨recov', plus', minus', lkp', rfl⟩, ?_⟩
  · rw [hq, hr']
  · rw [← sendsRecords_append]
    rfl

/-- One piece of work of a list: its records are of the type, and it is not GRANT. -/
def WorkSends (type : Byte) (w : ExWork) : Prop := (w = .exps ∧ type = 0x30) ∨ (∃ o, w = .data o ∧ type = 0x32)

theorem works_runWork {type : Byte} {w : ExWork} (hw : WorkSends type w) {pre : List Reduce} {r : Reduce} {s : State}
    (h : HoldsLast s pre r) : Works type pre r s (runWork s r w) := by
  obtain ⟨rfl, rfl⟩ | ⟨o, rfl, rfl⟩ := hw
  · obtain ⟨recs, sent⟩ := emits_forEach (fun u o => emits_sendExps u r o) (ownersOf r) s
    refine ⟨r, _, recs, rfl, Asks.refl _, ?_⟩
    rw [runWork, sent, withReduces]
    conv_rhs => rw [← h.1]
    rfl
  · have set := setReduce_last h (r' := { r with sentTo := r.sentTo ++ [o] }) rfl rfl
    obtain ⟨recs, sent⟩ := (sends_sendData (setReduce s { r with sentTo := r.sentTo ++ [o] }) r o).emits
    refine ⟨{ r with sentTo := r.sentTo ++ [o] }, _, recs, rfl, Asks.refl _, ?_⟩
    rw [runWork, sent, set]
    rfl

/-- One turn over a piece of work that is due: it is done, or the lines it waits for are asked for. -/
def wakeOne (g : U16) (q : U32) (t : State) (w : ExWork) : State :=
  match reduceOf t g q with
  | none => t
  | some r =>
    match blockedLines t (workLines r w) with
    | [] => runWork (setReduce t { r with waits := r.waits.erase w }) { r with waits := r.waits.erase w } w
    | ls => forEach ls startRead t

theorem wakeReduce_last {s : State} {pre : List Reduce} {r : Reduce} (h : HoldsLast s pre r) :
    wakeReduce s r.group r.seq = forEach r.waits (wakeOne r.group r.seq) s := by
  rw [wakeReduce, reduceOf_last h]
  rfl

theorem wakeOne_last {t : State} {pre : List Reduce} {r : Reduce} (h : HoldsLast t pre r) (w : ExWork) :
    wakeOne r.group r.seq t w = match blockedLines t (workLines r w) with
      | [] => runWork (setReduce t { r with waits := r.waits.erase w }) { r with waits := r.waits.erase w } w
      | ls => forEach ls startRead t := by
  rw [wakeOne, reduceOf_last h] <;> rfl

/-- Work none of whose lines waits to be rebuilt is done. -/
theorem wakeOne_free {t : State} {pre : List Reduce} {r : Reduce} (h : HoldsLast t pre r) {w : ExWork}
    (hl : blockedLines t (workLines r w) = []) : wakeOne r.group r.seq t w =
      runWork (withReduces t (pre ++ [{ r with waits := r.waits.erase w }])) { r with waits := r.waits.erase w } w := by
  rw [wakeOne_last h, hl, ← setReduce_last h (r' := { r with waits := r.waits.erase w }) rfl rfl]

theorem wakeOne_blocked {t : State} {pre : List Reduce} {r : Reduce} (h : HoldsLast t pre r) {w : ExWork} {l : Nat}
    {ls : List Nat} (hl : blockedLines t (workLines r w) = l :: ls) :
    wakeOne r.group r.seq t w = forEach (l :: ls) startRead t := by
  rw [wakeOne_last h, hl]

theorem works_wakeOne {type : Byte} {w : ExWork} (hw : WorkSends type w) {pre : List Reduce} {r : Reduce} {s : State}
    (h : HoldsLast s pre r) : Works type pre r s (wakeOne r.group r.seq s w) := by
  cases hl : blockedLines s (workLines r w) with
  | nil =>
    rw [wakeOne_free h hl]
    refine Works.trans (t := withReduces s (pre ++ [{ r with waits := r.waits.erase w }]))
      ⟨{ r with waits := r.waits.erase w }, s, [], rfl, by rw [sendsRecords_nil]; exact Asks.refl s, rfl⟩ fun r' _ hr' => ?_
    have same : r' = { r with waits := r.waits.erase w } := by simpa [withReduces] using hr'.symm
    rw [same]
    exact works_runWork hw (holdsLast_withReduces h rfl rfl)
  | cons l ls =>
    rw [wakeOne_blocked h hl]
    have asks := asks_forEach asks_startRead (l :: ls) s
    refine ⟨r, _, [], rfl, by rw [sendsRecords_nil]; exact asks, ?_⟩
    obtain ⟨recov, plus, minus, lkp, all⟩ := asks
    rw [all, withReduces]
    conv_rhs => rw [← h.1]
    rfl

theorem works_forEach {type : Byte} {pre : List Reduce} {r : Reduce}
    (hpre : ∀ q ∈ pre, ¬ (q.group = r.group ∧ q.seq = r.seq)) : ∀ (ws : List ExWork) {s : State} {r₀ : Reduce},
    (∀ w ∈ ws, WorkSends type w) → r₀.group = r.group → r₀.seq = r.seq → s.exch.reduces = pre ++ [r₀] →
    Works type pre r₀ s (forEach ws (wakeOne r.group r.seq) s)
  | [], s, r₀, _, _, _, h => works_refl h
  | w :: ws, s, r₀, hw, hg, hq, h => by
    have last : HoldsLast s pre r₀ := ⟨h, by rw [hg, hq]; exact hpre⟩
    have one := works_wakeOne (hw w List.mem_cons_self) last
    rw [hg, hq] at one
    refine Works.trans one fun r' hr' hs' => works_forEach hpre ws (fun v hv => hw v (List.mem_cons_of_mem _ hv)) ?_ ?_ hs'
    · rw [hr', ← hg]
    · rw [hr', ← hq]

/-- Work of one type that falls due of the last reduction. -/
theorem works_dueWork {type : Byte} {ws : List ExWork} (hw : ∀ w ∈ ws, WorkSends type w) {pre : List Reduce} {r : Reduce}
    {s : State} (h : HoldsLast s pre r) (hn : r.waits = []) : Works type pre r s (dueWork s r ws) := by
  have set := setReduce_last h (r' := { r with waits := r.waits ++ ws }) rfl rfl
  have due : HoldsLast (withReduces s (pre ++ [{ r with waits := r.waits ++ ws }])) pre { r with waits := r.waits ++ ws } :=
    holdsLast_withReduces h rfl rfl
  have woken := wakeReduce_last due
  refine Works.trans (t := withReduces s (pre ++ [{ r with waits := r.waits ++ ws }]))
    ⟨{ r with waits := r.waits ++ ws }, s, [], rfl, by rw [sendsRecords_nil]; exact Asks.refl s, rfl⟩ fun r' _ hr' => ?_
  have same : r' = { r with waits := r.waits ++ ws } := by simpa [withReduces] using hr'.symm
  have all := works_forEach h.2 (r.waits ++ ws) (r₀ := { r with waits := r.waits ++ ws }) (by rw [hn]; exact hw) rfl rfl due.1
  rw [same, dueWork, set]
  exact woken ▸ all

/-! ### EXCH_REDUCE (R186 to R189, R203, R207) -/

theorem reduceStart_off {s : State} {mb : Fin 8} {t : TakenCmd} {p : Plan} (hp : s.job.plan = some p)
    (h : exchOff s = true) : reduceStart mb t s = wrongState s mb := by
  rw [reduceStart, hp]
  exact if_pos h

/-- A state with one more reduction, which is the first of its name since its group's last one. -/
def addReduce (s : State) (r : Reduce) : State :=
  { s with exch := { s.exch with
      reduces := s.exch.reduces ++ [r]
      completed := s.exch.completed.filter fun e => e ≠ (r.group, r.seq)
      ended := s.exch.ended.filter fun e => e.1 ≠ r.group } }

/-- A state with the metadata of a reduction's blocks written. -/
def metasWritten (s : State) (r : Reduce) : State := forEach r.blocks.zipIdx (fun u bi => writeMeta u r bi.2 bi.1) s

theorem metasWritten_mem (s : State) (r : Reduce) : ∃ m, metasWritten s r = { s with mem := m } :=
  forEach_keeps (fun t => ∃ m, t = { s with mem := m }) _ _ s (fun t x ht => by
    obtain ⟨m, rfl⟩ := ht
    exact ⟨_, rfl⟩) ⟨s.mem, rfl⟩

/-- An EXCH_REDUCE without a fault: float sources are asked for exponents, integer ones sent at once. -/
theorem reduceStart_starts {s : State} {mb : Fin 8} {t : TakenCmd} {p : Plan} (hp : s.job.plan = some p)
    (h : exchOff s = false) (hl : s.exch.reduces.length < 4) (ha : fld t.cmd 8 8 % 64 = 0)
    (hn : inNear p (fld t.cmd 8 8) 64 = true) {g : Nat × Nat}
    (hg : groupPlace s (BitVec.ofNat 16 (fldAt (s.mem.bytes (fld t.cmd 8 8) 320) 2 2)) = some g)
    (hf : reduceFault s p (some g) (s.mem.bytes (fld t.cmd 8 8) 320) = none) {r : Reduce}
    (hr : r = reduceFrom s mb g.1 g.2 (s.mem.bytes (fld t.cmd 8 8) 320)) :
    reduceStart mb t s = if isIntReduce r
      then dueWork (metasWritten (addReduce (accepted s mb) r) r) r ((ownersOf r).map ExWork.data)
      else dueWork (addReduce (accepted s mb) r) r [.exps] := by
  rw [reduceStart, hp]
  dsimp only
  rw [if_neg (by simp [h]), if_neg (Nat.not_le.2 hl), if_neg (by simp [ha, hn]), hg, hf, hr]
  rfl

/-- A descriptor that meets R186 names no running reduction. -/
theorem reduceOf_of_fits {s : State} {p : Plan} {g : Nat × Nat} {d : List Byte} (h : reduceFault s p (some g) d = none) :
    reduceOf s (BitVec.ofNat 16 (fldAt d 2 2)) (BitVec.ofNat 32 (fldAt d 4 4)) = none := by
  obtain ⟨rest, fault⟩ : ∃ rest, reduceFault s p (some g) d = if fldAt d 0 2 ≠ 1 then some 0
      else if g.1 = 0 ∨ 131072 < g.1 then some 2
      else if (reduceOf s (BitVec.ofNat 16 (fldAt d 2 2)) (BitVec.ofNat 32 (fldAt d 4 4))).isSome then some 4
      else rest := ⟨_, rfl⟩
  cases named : reduceOf s (BitVec.ofNat 16 (fldAt d 2 2)) (BitVec.ofNat 32 (fldAt d 4 4)) with
  | none => rfl
  | some r =>
    rw [fault, named] at h
    simp only [Option.isSome_some, if_true] at h
    split at h
    · cases h
    · split at h
      · cases h
      · cases h

theorem unnamed_of_reduceOf {s : State} {g : U16} {q : U32} (h : reduceOf s g q = none) :
    ∀ r ∈ s.exch.reduces, ¬ (r.group = g ∧ r.seq = q) := fun r hr => by
  simpa using List.find?_eq_none.1 h r hr

/-- EXCH_REDUCE starts its reduction: accepted, running, and its first records sent. -/
theorem exchReduce_starts {s : State} {mb : Fin 8} {priv : Bool} {cmd : Line} {p : Plan} (h : Handled s mb priv 0x0D cmd)
    (hp : s.job.plan = some p) (hoff : exchOff s = false) (hl : s.exch.reduces.length < 4) (ha : fld cmd 8 8 % 64 = 0)
    (hn : inNear p (fld cmd 8 8) 64 = true) {d : List Byte} (hd : d = s.mem.bytes (fld cmd 8 8) 320) {g : Nat × Nat}
    (hg : groupPlace s (BitVec.ofNat 16 (fldAt d 2 2)) = some g) (hf : reduceFault s p (some g) d = none) {r : Reduce}
    (hr : r = reduceFrom s mb g.1 g.2 d) :
    ∃ u v t, exec (.exchReduce (.issue mb (portOf mb) priv cmd)) s = .next t ∧ u = accepted (took s mb priv cmd) mb ∧
      (v = u ∨ isIntReduce r = true ∧ ∃ m, v = { u with mem := m }) ∧
      Works (if isIntReduce r then 0x32 else 0x30) s.exch.reduces r (addReduce v r) t := by
  have run : exec (.exchReduce (.issue mb (portOf mb) priv cmd)) s =
      .next (reduceStart mb (takenCmd mb priv cmd) (took s mb priv cmd)) := exec_handled reduceStart h (by rfl)
  have named : (r.group, r.seq) = (BitVec.ofNat 16 (fldAt d 2 2), BitVec.ofNat 32 (fldAt d 4 4)) := by rw [hr]; rfl
  have waits : r.waits = [] := by rw [hr]; rfl
  have fresh : ∀ q ∈ s.exch.reduces, ¬ (q.group = r.group ∧ q.seq = r.seq) := by
    obtain ⟨group, seq⟩ := Prod.mk.inj named
    rw [group, seq]
    exact unnamed_of_reduceOf (reduceOf_of_fits hf)
  have starts := reduceStart_starts (s := took s mb priv cmd) (mb := mb) (t := takenCmd mb priv cmd) hp hoff hl ha hn
    (g := g) (by rw [hd] at hg; exact hg) (by rw [hd] at hf; exact hf) (r := r) (by rw [hr, hd]; rfl)
  rw [starts] at run
  have running : (accepted (took s mb priv cmd) mb).exch.reduces = s.exch.reduces := by
    rw [accepted_exch]
    rfl
  obtain ⟨u, hu⟩ : ∃ u, u = accepted (took s mb priv cmd) mb := ⟨_, rfl⟩
  rw [← hu] at run running
  cases hi : isIntReduce r with
  | true =>
    obtain ⟨m, written⟩ := metasWritten_mem (addReduce u r) r
    rw [hi, if_pos rfl, written] at run
    refine ⟨u, { u with mem := m }, _, run, hu, .inr ⟨rfl, m, rfl⟩, ?_⟩
    refine works_dueWork (fun w hw => ?_) ⟨?_, fresh⟩ waits
    · obtain ⟨o, -, rfl⟩ := List.mem_map.1 hw
      exact .inr ⟨o, rfl, rfl⟩
    · rw [← running]
      rfl
  | false =>
    rw [hi, if_neg (by decide)] at run
    refine ⟨u, u, _, run, hu, .inl rfl, works_dueWork (fun w hw => ?_) ⟨?_, fresh⟩ waits⟩
    · exact .inl ⟨List.mem_singleton.1 hw, rfl⟩
    · rw [← running]
      rfl

/-- EXCH_REDUCE of a disabled unit is refused; a free unit accepts it. -/
theorem exchReduce_clauses {s : State} {mb : Fin 8} {priv : Bool} {cmd : Line} {p : Plan} (h : Handled s mb priv 0x0D cmd)
    (hp : s.job.plan = some p) {d : List Byte} (hd : d = s.mem.bytes (fld cmd 8 8) 320) :
    (s.ctrl.exchEn.get = 0 → Ends (.exchReduce (.issue mb (portOf mb) priv cmd)) s fun t =>
      Answered s t mb cmd 0x12 (s.job.state.toNat + 256 * s.tide.phase.get.toNat) ∧ OnlyAnswer s t mb) ∧
    (s.ctrl.exchEn.get = 1 → s.exch.disabled = false → exchStopping s = false → s.exch.reduces.length < 4 →
      fld cmd 8 8 % 64 = 0 → inNear p (fld cmd 8 8) 64 = true →
      (∃ g, groupPlace s (BitVec.ofNat 16 (fldAt d 2 2)) = some g ∧ reduceFault s p (some g) d = none) →
      Ends (.exchReduce (.issue mb (portOf mb) priv cmd)) s fun t =>
        RunsLong s t mb cmd ∧ t.tide = s.tide ∧ t.cap = s.cap ∧
        (∃ r : Reduce, t.exch.reduces = s.exch.reduces ++ [r] ∧ r.mailbox = mb ∧ r.group.toNat = fldAt d 2 2 ∧
          r.seq.toNat = fldAt d 4 4 ∧ r.contributions = fldAt d 24 4 ∧ r.dst = fldAt d 32 8 ∧ r.stop = .none ∧
          r.granted = false) ∧
        (fldAt d 29 1 ≠ 0xB → t.mem = s.mem ∧
          ∃ recs : List ExRec, t.out.fbp = s.out.fbp ++ recs.map (fun x => .record 0x30 x)) ∧
        (fldAt d 29 1 = 0xB → ∃ recs : List ExRec, t.out.fbp = s.out.fbp ++ recs.map (fun x => .record 0x32 x))) := by
  refine ⟨fun h0 => ?_, fun he hdis hs hl ha hn ⟨g, hg, hf⟩ => ?_⟩
  · have run : exec (.exchReduce (.issue mb (portOf mb) priv cmd)) s =
        .next (reduceStart mb (takenCmd mb priv cmd) (took s mb priv cmd)) := exec_handled reduceStart h (by rfl)
    have off : exchOff (took s mb priv cmd) = true := by
      show ((decide (s.ctrl.exchEn.get = 0)) || _ || _) = true
      rw [h0]
      rfl
    rw [reduceStart_off (s := took s mb priv cmd) hp off] at run
    exact ⟨_, run, refusedOnly h (by decide) (wrongState_detail_lt s)⟩
  · obtain ⟨r, hr⟩ : ∃ r, r = reduceFrom s mb g.1 g.2 d := ⟨_, rfl⟩
    obtain ⟨u, v, t, run, hu, hv, r', w, recs, hr', ⟨recov, plus, minus, lkp, hw⟩, ht⟩ :=
      exchReduce_starts h hp (exchOff_enabled he hdis hs) hl ha hn hd hg hf hr
    have long : RunsLong s u mb cmd := hu ▸ runsLong_accepted (box_took s mb priv cmd)
    have only := hu ▸ (onlyBox_took s mb priv cmd).trans (onlyBox_accepted (took s mb priv cmd) mb)
    have frame := only.frame
    have int : isIntReduce r = decide (fldAt d 29 1 = 0xB) := by rw [hr]; rfl
    have vmb : v.mb = u.mb ∧ v.tide = u.tide ∧ v.cap = u.cap ∧ v.out = u.out := by
      obtain rfl | ⟨-, m, rfl⟩ := hv
      · exact ⟨rfl, rfl, rfl, rfl⟩
      · exact ⟨rfl, rfl, rfl, rfl⟩
    obtain ⟨vmb, vtide, vcap, vout⟩ := vmb
    have boxes : box t mb = box u mb := by
      rw [ht, hw]
      show v.mb.boxes.get _ = _
      rw [vmb]
      rfl
    have sent : t.out.fbp = s.out.fbp ++ recs.map (fun x => .record (if isIntReduce r then 0x32 else 0x30) x) := by
      rw [ht, hw]
      show v.out.fbp ++ _ = _
      rw [vout, frame]
    refine ⟨t, run, ?_, ?_, ?_, ⟨r', by rw [ht]; rfl, ?_⟩, fun hb => ?_, fun hb => ?_⟩
    · simpa only [RunsLong, boxes] using long
    · rw [ht, hw]
      show v.tide = _
      rw [vtide, frame]
    · rw [ht, hw]
      show v.cap = _
      rw [vcap, frame]
    · rw [hr', hr]
      exact ⟨rfl, toNat_ofNat_of_lt (fldAt_lt ..), toNat_ofNat_of_lt (fldAt_lt ..), rfl, rfl, rfl, rfl⟩
    · have float : isIntReduce r = false := int.trans (decide_eq_false hb)
      refine ⟨?_, recs, by rw [sent, float]; rfl⟩
      obtain rfl | ⟨wrong, -⟩ := hv
      · rw [ht, hw]
        show v.mem = _
        rw [frame]
      · exact absurd (float.symm.trans wrong) (by decide)
    · exact ⟨recs, by rw [sent, int, hb]; rfl⟩


end Sys2Proof.Machine

/-! PROOFS. Reductions: EXP and GRANT (R185, R189). -/

namespace Sys2Proof.Machine

/-! ### A record for the running reduction (R191, R282) -/

theorem onRecord_running {s : State} {r : Reduce} {x : ExRec} (h : OneReduction s r x) (f : State → Reduce → State) :
    onRecord s x f = f (answerOffer s true) r := by
  obtain ⟨fbp, season, running, stop, -, group, seq⟩ := h
  have open_ : exchOpen s = true := by rw [exchOpen, fbp, season]; rfl
  have named : reduceOf s x.group x.seq = some r := by
    rw [reduceOf, running, group, seq]
    simp
  rw [onRecord, fbp, open_, named]
  exact if_pos stop

theorem holdsLast_answered {s : State} {r : Reduce} {x : ExRec} (h : OneReduction s r x) :
    HoldsLast (answerOffer s true) [] r := ⟨h.2.2.1, by simp⟩

/-! ### EXP (R189) -/

/-- A block whose exponent a record's payload raises, the payload starting at block `m`. -/
def raisedBlock (m : Nat) (payload : List Byte) (b : ExBlock) (i : Nat) : ExBlock :=
  if m ≤ i then
    match payload[i - m]? with
    | some e => if e = 0 then b else { b with x := maxOpt b.x (some e.toNat) }
    | none => b
  else b

/-- A reduction that has taken its first EXP record. -/
def expTaken (r : Reduce) (x : ExRec) (m : Nat) : Reduce :=
  { r with
    exps := [(x.sender.toNat, x.count.toNat, x.covered.toNat)]
    blocks := r.blocks.zipIdx.map fun bi => raisedBlock m x.payload bi.1 bi.2 }

/-- The first EXP record of a float reduction: it is kept, and where it covers the slice alone GRANT falls due. -/
theorem expWork_first {s : State} {r : Reduce} {x : ExRec} {m : Nat} (hi : isIntReduce r = false) (hg : r.granted = false)
    (he : r.exps = []) (hs : x.sender.toNat < r.ranks) (hm : slicePlace r x 256 = some m)
    (hp : x.payload.length = (x.covered.toNat + 255) / 256) (hc : x.covered.toNat ≤ (sliceOf r r.rank).2) :
    expWork s x r =
      if ¬ (1 = r.ranks ∧ x.covered.toNat = (sliceOf r r.rank).2) then setReduce s (expTaken r x m)
      else if x.count.toNat ≠ r.contributions then faultReduce s r x.sender.toNat noCancel
      else dueWork s (expTaken r x m) [.grant] := by
  unfold expWork
  simp only [he, List.find?_nil, hm, hi, hg, hp]
  rw [if_neg (by simp [Nat.not_le.2 hs, Nat.not_lt.2 hc])]
  simp only [List.nil_append, List.length_singleton, List.all_cons, List.all_nil, Bool.and_true, decide_eq_true_eq,
    Nat.zero_add, List.map_cons, List.map_nil, List.sum_cons, List.sum_nil, Nat.add_zero]
  rw [expTaken, hg] <;> rfl

/-- Of several ranks, the first EXP record is kept and raises its blocks' exponents. -/
theorem exp_kept {s : State} {r : Reduce} {x : ExRec} (h : OneReduction s r x) {m : Nat} (hi : isIntReduce r = false)
    (hg : r.granted = false) (hs : x.sender.toNat < r.ranks) (he : r.exps = []) (hr : 1 < r.ranks)
    (hm : slicePlace r x 256 = some m) (hp : x.payload.length = (x.covered.toNat + 255) / 256)
    (hc : x.covered.toNat ≤ (sliceOf r r.rank).2) :
    exec (.exp x) s = .next { s with
      exch := { s.exch with reduces := [expTaken r x m] }, out := { s.out with fbp := s.out.fbp ++ [.answer true] } } := by
  refine congrArg Host.Outcome.next ?_
  rw [onRecord_running h, expWork_first hi hg he hs hm hp hc, if_pos (fun whole => by omega),
    setReduce_last (holdsLast_answered h) (r' := expTaken r x m) rfl rfl]
  rfl

theorem raisedBlock_eq (m : Nat) (payload : List Byte) (b : ExBlock) (i : Nat) : raisedBlock m payload b i =
    if h : m ≤ i ∧ i - m < payload.length then
      (if payload[i - m]'h.2 = 0 then b
       else { b with x := some (max ((payload[i - m]'h.2).toNat : Int) (b.x.getD ((payload[i - m]'h.2).toNat : Int))) })
    else b := by
  unfold raisedBlock
  by_cases hm : m ≤ i
  · by_cases hl : i - m < payload.length
    · rw [if_pos hm, dif_pos ⟨hm, hl⟩, List.getElem?_eq_getElem hl]
      dsimp only
      split
      · rfl
      · congr 1
        cases hx : b.x with
        | none => simp [maxOpt]
        | some v =>
          simp only [maxOpt, Option.getD_some, Option.some.injEq]
          omega
    · rw [if_pos hm, dif_neg (fun h => hl h.2), List.getElem?_eq_none (Nat.not_lt.1 hl)]
  · rw [if_neg hm, dif_neg (fun h => hm h.1)]

theorem expTaken_block {r : Reduce} {x : ExRec} {m i : Nat} {b : ExBlock} (hb : r.blocks[i]? = some b) :
    (expTaken r x m).blocks[i]? = some (raisedBlock m x.payload b i) := by
  simp [expTaken, List.getElem?_zipIdx, hb]

/-! ### GRANT (R189 step 2) -/

/-- A block whose exponents are fixed, without an old destination. -/
def grantedBlock (b : ExBlock) : ExBlock :=
  { markBlock b [] with q := (match b.x with | none => zeroQ | some v => v - 181), old := [] }

/-- A reduction whose exponents are fixed, neither ADD nor TOTAL. -/
def grantedOf (r : Reduce) : Reduce := { r with blocks := r.blocks.map grantedBlock, granted := true }

theorem zipWith_range_const {α β γ : Type} (f : α → β → γ) (b : β) (l : List α) :
    List.zipWith f l ((List.range l.length).map fun _ => b) = l.map fun a => f a b := by
  rw [List.map_const', List.length_range]
  induction l with
  | nil => rfl
  | cons a l ih => simp [List.replicate_succ, ih]

/-- GRANT without an old destination: the exponents are fixed, the metadata written, and every rank told. -/
theorem grantNow_plain (s : State) {r : Reduce} (ha : r.add = false) (ht : r.total = false) :
    grantNow s r = forEach (List.range r.ranks) (fun u o =>
      sendEx u (grantedOf r) o 0x31 { ExRec.blank with
        first := BitVec.ofNat 64 (r.elemBase + (sliceOf r r.rank).1)
        covered := BitVec.ofNat 32 (sliceOf r r.rank).2 }) (metasWritten (setReduce s (grantedOf r)) (grantedOf r)) := by
  have blocks := zipWith_range_const (fun (b : ExBlock) (vs : List FVal) =>
    (b, vs, vs.foldl (fun m v => maxOpt m (epsOld r.dstFormat v)) b.x)) [] r.blocks
  unfold grantNow
  simp only [ha, ht, Bool.false_eq_true, if_false, blocks, List.map_map, Function.comp_def, List.foldl_nil]
  rw [metasWritten, grantedOf, ha, ht] <;> rfl

theorem metaBytes_length (b : ExBlock) : (metaBytes b).length = 128 := by
  simp [metaBytes, leBytes_length]

theorem writeMetas_outside {r : Reduce} {n : Nat} : ∀ (l : List (ExBlock × Nat)) (s : State), (∀ bi ∈ l, bi.2 < n) →
    SameOutside s (forEach l (fun u bi => writeMeta u r bi.2 bi.1) s) (r.scratch + 4096 * ownBlocks r) (128 * n)
  | [], _, _, _, _ => rfl
  | (b, i) :: l, s, h, x, hx => by
    have below : i < n := h _ List.mem_cons_self
    refine (writeMetas_outside l (writeMeta s r i b) (fun bi hbi => h bi (List.mem_cons_of_mem _ hbi)) x hx).trans ?_
    refine Mem.byte_write_other _ _ _ _ ?_
    rw [metaBytes_length]
    omega

theorem metasWritten_outside (s : State) (r : Reduce) :
    SameOutside s (metasWritten s r) (r.scratch + 4096 * ownBlocks r) (128 * r.blocks.length) :=
  writeMetas_outside _ s fun bi hbi => by
    have := List.snd_lt_of_mem_zipIdx hbi
    omega

/-- One piece of work that reads nothing still to be rebuilt is done as it falls due; the reduction may have changed since it
was put among those that run. -/
theorem dueWork_free {s : State} {pre : List Reduce} {r₀ r : Reduce} (h : HoldsLast s pre r₀) (hg : r.group = r₀.group)
    (hq : r.seq = r₀.seq) (hn : r.waits = []) {w : ExWork}
    (hl : blockedLines (withReduces s (pre ++ [{ r with waits := [w] }])) (workLines { r with waits := [w] } w) = []) :
    dueWork s r [w] = runWork (withReduces s (pre ++ [r])) r w := by
  have set := setReduce_last h (r' := { r with waits := r.waits ++ [w] }) hg hq
  have due : HoldsLast (withReduces s (pre ++ [{ r with waits := [w] }])) pre { r with waits := [w] } :=
    holdsLast_withReduces h hg hq
  have woken := wakeReduce_last due
  have one := wakeOne_free due hl
  have same : { r with waits := [w].erase w } = r := by
    rw [List.erase_cons_head, ← hn]
  rw [dueWork, set, hn, List.nil_append]
  refine woken.trans (one.trans ?_)
  rw [same]
  rfl

/-- A rank alone: its EXP record fixes the exponents, and GRANT goes to itself. -/
theorem exp_grants {s : State} {r : Reduce} {x : ExRec} (h : OneReduction s r x) (hi : isIntReduce r = false)
    (hg : r.granted = false) (hr : r.ranks = 1) (hk : r.rank = 0) (hs : x.sender = 0) (he : r.exps = [])
    (hm : slicePlace r x 256 = some 0) (hp : x.payload.length = (x.covered.toNat + 255) / 256)
    (hc : x.covered.toNat = (sliceOf r 0).2) (hn : x.count.toNat = r.contributions) (ha : r.add = false)
    (ht : r.total = false) {r1 : Reduce} (hr1 : r1 = grantedOf (expTaken r x 0)) :
    ∃ m, exec (.exp x) s = .next { s with
      mem := m, exch := { s.exch with reduces := [r1] }
      out := { s.out with fbp := s.out.fbp ++ [.answer true, .record 0x31 ⟨false, r.group, r.seq, 0, 0, 0, 0,
        BitVec.ofNat 64 r.elemBase, BitVec.ofNat 32 (sliceOf r 0).2, []⟩] } } ∧
      SameOutside s { s with mem := m } (r.scratch + 4096 * ownBlocks r) (128 * r.blocks.length) := by
  obtain ⟨u, hu⟩ : ∃ u, u = answerOffer s true := ⟨_, rfl⟩
  have last : HoldsLast u [] r := hu ▸ holdsLast_answered h
  obtain ⟨q, hq⟩ : ∃ q, q = expTaken r x 0 := ⟨_, rfl⟩
  have work : expWork u x r = dueWork u q [.grant] := by
    rw [expWork_first hi hg he (by rw [hs, hr]; decide) hm hp (by rw [hk, hc]),
      if_neg (by rw [hr, hk, hc]; simp), if_neg (by simp [hn]), hq]
  have lines : ∀ v, blockedLines v (workLines { q with waits := [.grant] } .grant) = [] := fun v => by
    have none : workLines { q with waits := [.grant] } .grant = [] := by
      rw [workLines, hq]
      exact if_pos (by simp [expTaken, ha])
    rw [none]
    unfold blockedLines
    split
    · rfl
    · rfl
  obtain ⟨waits, group, seq⟩ : q.waits = [] ∧ q.group = r.group ∧ q.seq = r.seq := by
    rw [hq]
    exact ⟨h.2.2.2.2.1, rfl, rfl⟩
  have due := dueWork_free last group seq waits (lines _)
  have plain : q.add = false ∧ q.total = false ∧ q.ranks = 1 ∧ q.rank = 0 ∧ q.elemBase = r.elemBase ∧ sliceOf q 0 = sliceOf r 0 ∧
      q.scratch + 4096 * ownBlocks q = r.scratch + 4096 * ownBlocks r ∧ q.blocks.length = r.blocks.length := by
    rw [hq]
    exact ⟨ha, ht, hr, hk, rfl, rfl, rfl, by simp [expTaken]⟩
  obtain ⟨add, total, ranks, rank, base, slice, metas, blocks⟩ := plain
  have set := setReduce_last (holdsLast_withReduces last group seq) (r' := grantedOf q) rfl rfl
  obtain ⟨v, hv⟩ : ∃ v, v = withReduces u [grantedOf q] := ⟨_, rfl⟩
  have granted : grantNow (withReduces u [q]) q = forEach (List.range 1) (fun u o =>
      sendEx u (grantedOf q) o 0x31 { ExRec.blank with
        first := BitVec.ofNat 64 (r.elemBase + (sliceOf r 0).1)
        covered := BitVec.ofNat 32 (sliceOf r 0).2 }) (metasWritten v (grantedOf q)) := by
    rw [grantNow_plain _ add total, ranks, rank, base, slice, hv]
    exact congrArg (fun t => forEach _ _ (metasWritten t _)) set
  obtain ⟨m, written⟩ := metasWritten_mem v (grantedOf q)
  have outside := metasWritten_outside v (grantedOf q)
  rw [written] at granted outside
  have first : (sliceOf r 0).1 = 0 := by simp [sliceOf, ht]
  have open_ : exchOpen { v with mem := m } = true := by
    rw [hv, hu]
    show exchOpen s = true
    rw [exchOpen, h.1, h.2.1]
    rfl
  refine ⟨m, congrArg Host.Outcome.next ?_, ?_⟩
  · rw [onRecord_running h, ← hu, work, due]
    refine granted.trans ((sendEx_open open_ _ _ _ _).trans ?_)
    have from0 : BitVec.ofNat 24 (grantedOf q).rank = 0#24 := congrArg (BitVec.ofNat 24) rank
    rw [sendsRecords, from0, hv, hu, first, hr1, hq, withReduces, answerOffer]
    simp only [List.append_assoc]
    rfl
  · intro y hy
    refine (outside y ?_).trans ?_
    · show y < q.scratch + 4096 * ownBlocks q ∨ q.scratch + 4096 * ownBlocks q + 128 * (q.blocks.map grantedBlock).length ≤ y
      rw [metas, List.length_map, blocks]
      exact hy
    · rw [hv, hu]
      rfl

/-! ### DATA goes to an owner (R189 step 3) -/

theorem rebuilding_recov {s t : State} (h : t.recov = s.recov) : rebuilding t = rebuilding s := by
  rw [rebuilding, rebuilding, h]

theorem blockedLines_none {s : State} (h : rebuilding s = false) (ls : List Nat) : blockedLines s ls = [] :=
  if_neg (by simp [h])

/-- GRANT of an owner: the rank's DATA goes to it. -/
theorem grant_sends {s : State} {r : Reduce} {x : ExRec} (h : OneReduction s r x) (hi : isIntReduce r = false)
    (hb : rebuilding s = false) (ho : x.sender.toNat ∈ ownersOf r) (hs : x.sender.toNat ∉ r.sentTo) {q : Reduce}
    (hq : q = { r with sentTo := r.sentTo ++ [x.sender.toNat] }) :
    ∃ recs : List ExRec, exec (.grant x) s = .next { s with
        exch := { s.exch with reduces := [q] }
        out := { s.out with fbp := s.out.fbp ++ .answer true :: recs.map fun y => .record 0x32 y } } ∧
      recs.length = ((sliceOf r x.sender.toNat).2 + 4095) / 4096 * r.sources.length ∧
      ∀ y ∈ recs, y.group = r.group ∧ y.seq = r.seq ∧ y.dest = BitVec.ofNat 24 x.sender.toNat := by
  obtain ⟨u, hu⟩ : ∃ u, u = answerOffer s true := ⟨_, rfl⟩
  have last : HoldsLast u [] r := hu ▸ holdsLast_answered h
  have due := dueWork_free last rfl rfl h.2.2.2.2.1 (w := .data x.sender.toNat)
    (blockedLines_none ((rebuilding_recov (by rw [hu]; rfl)).trans hb) _)
  have set := setReduce_last (holdsLast_withReduces (r' := r) last rfl rfl) (r' := q) (by rw [hq]) (by rw [hq])
  obtain ⟨recs, sent, count, named⟩ := sends_sendData (withReduces u [q]) r x.sender.toNat
  have open_ : exchOpen (withReduces u [q]) = true := by
    rw [hu]
    show exchOpen s = true
    rw [exchOpen, h.1, h.2.1]
    rfl
  refine ⟨recs, congrArg Host.Outcome.next ?_, count open_, named⟩
  rw [onRecord_running h, ← hu]
  dsimp only
  rw [if_neg (by simp [hi, ho, hs, h.2.2.2.2.1]), due, runWork, ← hq]
  refine (congrArg (fun t => sendData t r x.sender.toNat) set).trans (sent.trans ?_)
  rw [sendsRecords, hu, withReduces, answerOffer]
  simp only [List.append_assoc]
  rfl

end Sys2Proof.Machine

/-! PROOFS. Reductions: DATA, contributions and results (R189, R192 to R198). -/

namespace Sys2Proof.Machine

/-! ### The elements of a DATA record (R190, R192) -/

theorem chunksGo_nil {α : Type} (fuel n : Nat) : chunksGo fuel n ([] : List α) = [] := by
  cases fuel with
  | zero => rfl
  | succ k => rfl

theorem chunks_single {α : Type} {n : Nat} {l : List α} (h0 : 0 < l.length) (h : l.length ≤ n) : chunks n l = [l] := by
  obtain ⟨a, t, rfl⟩ := List.exists_cons_of_length_pos h0
  show (a :: t).take n :: chunksGo _ n ((a :: t).drop n) = [a :: t]
  rw [List.take_of_length_le h, List.drop_of_length_le h, chunksGo_nil]

theorem chunksGo_length {α : Type} {n : Nat} (hn : 0 < n) : ∀ (k fuel : Nat) (l : List α), k ≤ fuel → l.length = k * n →
    (chunksGo fuel n l).length = k
  | 0, fuel, l, _, hl => by
    rw [List.eq_nil_of_length_eq_zero (l := l) (by omega), chunksGo_nil]
    rfl
  | k + 1, 0, _, hk, _ => absurd hk (by omega)
  | k + 1, fuel + 1, l, hk, hl => by
    rw [Nat.succ_mul] at hl
    obtain ⟨a, t, rfl⟩ := List.exists_cons_of_length_pos (l := l) (by omega)
    show ((a :: t).take n :: chunksGo fuel n ((a :: t).drop n)).length = k + 1
    rw [List.length_cons, chunksGo_length hn k fuel _ (by omega) (by rw [List.length_drop, hl]; omega)]

theorem chunks_length {α : Type} {n k : Nat} (hn : 0 < n) {l : List α} (hl : l.length = k * n) : (chunks n l).length = k :=
  chunksGo_length hn k _ l (by rw [hl, Nat.mul_div_cancel _ hn]; omega) hl

theorem recordVals_length (bs : List Byte) (n : Nat) : (recordVals bs n).length = n := by
  unfold recordVals
  split
  · simp
  · simp
  · simp

/-- What a DATA record that fits says of its fields. -/
theorem dataFits_iff {r : Reduce} {x : ExRec} : dataFits r x = true ↔
    x.format.toNat ∈ sourceFormats ∧ intFormat x.format.toNat = isIntReduce r ∧
    x.compressed = (x.format.toNat == compressedFormat) ∧ x.sender.toNat < r.ranks ∧
    x.covered.toNat = (if (sliceOf r r.rank).2 ≤ x.first.toNat - (r.elemBase + (sliceOf r r.rank).1) + 4096 then
      (sliceOf r r.rank).2 - (x.first.toNat - (r.elemBase + (sliceOf r r.rank).1)) else 4096) ∧
    x.payload.length = (if x.format.toNat = compressedFormat then fldAt x.payload 4 4
      else x.covered.toNat * elemBytes x.format.toNat) := by
  simp only [dataFits, Bool.and_eq_true, List.contains_iff_mem, beq_iff_eq, decide_eq_true_eq, and_assoc]

theorem elemBytes_pos {f : Nat} (h : f ∈ sourceFormats) : 0 < elemBytes f := by
  have all : ∀ g ∈ sourceFormats, 0 < elemBytes g := by decide
  exact all f h

/-- A DATA record that fits carries a value for each element it covers. -/
theorem payloadVals_length {r : Reduce} {x : ExRec} (h : dataFits r x = true) :
    (payloadVals x.format.toNat x.payload x.covered.toNat).length = x.covered.toNat := by
  obtain ⟨format, -, -, -, -, payload⟩ := dataFits_iff.1 h
  unfold payloadVals
  split
  · exact recordVals_length ..
  · next plain =>
    rw [if_neg plain] at payload
    rw [plainVals, List.length_map, chunks_length (elemBytes_pos format) payload]

theorem covered_pos {r : Reduce} {x : ExRec} {step m : Nat} (h : slicePlace r x step = some m) : 0 < x.covered.toNat := by
  unfold slicePlace at h
  dsimp only at h
  split at h
  · next c => exact c.2.2.1
  · cases h

/-- A DATA record of one block that a granted float reduction still wants is contributed, and may form the results. -/
theorem dataWork_one {s : State} {r : Reduce} {x : ExRec} {b : ExBlock} (hi : isIntReduce r = false)
    (hg : r.granted = true) (hb : r.blocks = [b]) (hm : slicePlace r x 4096 = some 0) (hf : dataFits r x = true)
    (hc : x.covered.toNat ≤ 256) (hw : b.received < r.contributions) :
    dataWork s x r = formResults
      (contribute s x.group x.seq 0 (payloadVals x.format.toNat x.payload x.covered.toNat)) x.group x.seq := by
  have count := payloadVals_length hf
  have one := chunks_single (n := 256) (by rw [count]; exact covered_pos hm) (by rw [count]; exact hc)
  unfold dataWork
  simp only [hm, one]
  rw [if_neg (by simp [hi, hg, hf, hb, hw])]
  rfl

/-! ### A contribution (R189 step 4, R193) -/

/-- A state of which memory, the stage slots and the reductions have changed. -/
def withStage (s : State) (mem : Mem) (slots : List StageSlot) (rs : List Reduce) : State :=
  { s with mem := mem, exch := { s.exch with slots := slots, reduces := rs } }

/-- Only memory, the stage slots and the only block of the only reduction have changed, which has taken `n`
contributions. -/
def Staged (s : State) (r : Reduce) (n : Nat) (t : State) : Prop :=
  ∃ mem slots b, t = withStage s mem slots [{ r with blocks := [b] }] ∧ b.received = n

theorem reduceOf_single {t : State} {r q : Reduce} {g : U16} {n : U32} (h : t.exch.reduces = [r])
    (hq : reduceOf t g n = some q) : q = r ∧ r.group = g ∧ r.seq = n := by
  rw [reduceOf, h] at hq
  have named := List.find?_some hq
  have mem := List.mem_of_find?_eq_some hq
  obtain rfl := List.mem_singleton.1 mem
  exact ⟨rfl, by simpa using named⟩

theorem setBlock_single {s t : State} {r : Reduce} {b : ExBlock} {mem : Mem} {slots : List StageSlot}
    (ht : t = withStage s mem slots [{ r with blocks := [b] }]) (b' : ExBlock) :
    setBlock t { r with blocks := [b] } 0 b' =
      withStage s (mem.write (r.scratch + 4096 * ownBlocks r) (metaBytes b')) slots [{ r with blocks := [b'] }] := by
  have last : HoldsLast t [] { r with blocks := [b] } := ⟨by rw [ht]; rfl, by simp⟩
  have set := setReduce_last last (r' := { r with blocks := [b'] }) rfl rfl
  refine (congrArg (fun u => writeMeta u { r with blocks := [b] } 0 b') set).trans ?_
  rw [ht]
  rfl

theorem staged_setBlock {s t : State} {r : Reduce} {n : Nat} {b b' : ExBlock} {mem : Mem} {slots : List StageSlot}
    (ht : t = withStage s mem slots [{ r with blocks := [b] }]) (hn : b'.received = n) :
    Staged s r n (setBlock t { r with blocks := [b] } 0 b') :=
  ⟨_, slots, b', setBlock_single ht b', hn⟩

theorem staged_spill {s t : State} {r : Reduce} {n : Nat} (h : Staged s r n t) (c : StageSlot) : Staged s r n (spill t c) := by
  obtain ⟨mem, slots, b, ht, hn⟩ := h
  unfold spill
  split
  · exact ⟨mem, slots, b, ht, hn⟩
  · next q hq =>
    obtain ⟨rfl, -, -⟩ := reduceOf_single (r := { r with blocks := [b] }) (by rw [ht]; rfl) hq
    split
    · exact ⟨mem, slots, b, ht, hn⟩
    · next b₀ hb =>
      obtain ⟨hlt, rfl⟩ := List.getElem?_eq_some_iff.1 hb
      have zero : c.block = 0 := by simpa using hlt
      simp only [zero]
      exact staged_setBlock (by rw [ht]; rfl) hn

theorem staged_slots {s t : State} {r : Reduce} {n : Nat} (h : Staged s r n t) (slots : List StageSlot) :
    Staged s r n { t with exch.slots := slots } := by
  obtain ⟨mem, old, b, ht, hn⟩ := h
  exact ⟨mem, slots, b, by rw [ht]; rfl, hn⟩

/-- Room for a block's sums: a slot that cannot hold them, or the oldest of a full buffer, is spilled. -/
def slotRoom (s : State) (r : Reduce) (m : Nat) (vals : List Int) : State :=
  match s.exch.slots.find? (isSlot r m) with
  | some c =>
    if isIntReduce r ∧ (List.zipWith (· + ·) c.sums vals).any int32Overflow then
      spill { s with exch.slots := s.exch.slots.filter fun d => !isSlot r m d } c
    else s
  | none => match s.exch.slots with
    | c :: rest => if 64 ≤ s.exch.slots.length then spill { s with exch.slots := rest } c else s
    | [] => s

/-- The slot of a block with its new sums. -/
def slotWith (s : State) (g : U16) (q : U32) (r : Reduce) (m : Nat) (vals : List Int) : StageSlot :=
  match s.exch.slots.find? (isSlot r m) with
  | some c => { c with sums := List.zipWith (· + ·) c.sums vals, count := c.count + 1 }
  | none => { group := g, seq := q, block := m, count := 1, sums := vals }

/-- A block has its last contribution. -/
def blockDone (s : State) (g : U16) (q : U32) (r : Reduce) (m : Nat) : Bool :=
  match (reduceOf s g q).bind fun r1 => r1.blocks[m]? with
  | some b => decide (b.received = r.contributions)
  | none => false

/-- The slot is put back, or spilled where it is full or its block done. -/
def putSlot (s : State) (g : U16) (q : U32) (r : Reduce) (m : Nat) (c : StageSlot) : State :=
  if c.count = 255 ∨ blockDone s g q r m = true then
    spill { s with exch.slots := s.exch.slots.filter fun d => !isSlot r m d } c
  else { s with exch.slots := (s.exch.slots.filter fun d => !isSlot r m d) ++ [c] }

theorem addBlock_named {s : State} {g : U16} {q : U32} {r : Reduce} (h : reduceOf s g q = some r) (m : Nat) (vals : List Int) :
    addBlock s g q m vals =
      putSlot (slotRoom s r m vals) g q r m (slotWith (slotRoom s r m vals) g q r m vals) := by
  rw [addBlock, h] <;> rfl

theorem staged_slotRoom {s t : State} {r : Reduce} {n : Nat} (h : Staged s r n t) (q : Reduce) (m : Nat) (vals : List Int) :
    Staged s r n (slotRoom t q m vals) := by
  unfold slotRoom
  split
  · split
    · exact staged_spill (staged_slots h _) _
    · exact h
  · split
    · split
      · exact staged_spill (staged_slots h _) _
      · exact h
    · exact h

theorem staged_putSlot {s t : State} {r : Reduce} {n : Nat} (h : Staged s r n t) (g : U16) (q : U32) (p : Reduce) (m : Nat)
    (c : StageSlot) : Staged s r n (putSlot t g q p m c) := by
  unfold putSlot
  split
  · exact staged_spill (staged_slots h _) _
  · exact staged_slots h _

theorem staged_addBlock {s t : State} {r : Reduce} {n : Nat} (h : Staged s r n t) (g : U16) (q : U32) (m : Nat)
    (vals : List Int) : Staged s r n (addBlock t g q m vals) := by
  cases named : reduceOf t g q with
  | none =>
    rw [addBlock, named]
    exact h
  | some p =>
    rw [addBlock_named named]
    exact staged_putSlot (staged_slotRoom h p m vals) g q p m _

/-- A contribution to the only block. -/
theorem staged_contribute {s : State} {r : Reduce} {b : ExBlock} (hr : s.exch.reduces = [r]) (hb : r.blocks = [b])
    (vs : List FVal) : Staged s r (b.received + 1) (contribute s r.group r.seq 0 vs) := by
  have named : reduceOf s r.group r.seq = some r := reduceOf_last (pre := []) ⟨hr, by simp⟩
  have whole : r = { r with blocks := [b] } := by rw [← hb]
  simp only [contribute, named, hb, List.getElem?_cons_zero]
  refine staged_addBlock ?_ ..
  have set := staged_setBlock (s := s) (t := s) (r := r) (b := b) (mem := s.mem) (slots := s.exch.slots) (n := b.received + 1)
    (b' := { markBlock b vs with received := b.received + 1 }) (by rw [← whole, withStage, ← hr]) rfl
  rwa [← whole] at set

/-- A contribution that is not the last, where no block has a slot: its sums take the first slot. -/
theorem contribute_fresh {s : State} {r : Reduce} {b : ExBlock} (hr : s.exch.reduces = [r]) (hb : r.blocks = [b])
    (hs : s.exch.slots = []) (hn : b.received + 1 < r.contributions) (vs : List FVal) {b1 : ExBlock}
    (hb1 : b1 = { markBlock b vs with received := b.received + 1 }) :
    contribute s r.group r.seq 0 vs =
      withStage s (s.mem.write (r.scratch + 4096 * ownBlocks r) (metaBytes b1))
        [⟨r.group, r.seq, 0, 1, (pad256 vs).map (toBlock b.q)⟩] [{ r with blocks := [b1] }] := by
  have named : reduceOf s r.group r.seq = some r := reduceOf_last (pre := []) ⟨hr, by simp⟩
  have whole : r = { r with blocks := [b] } := by rw [← hb]
  obtain ⟨t, ht⟩ : ∃ t, t = withStage s (s.mem.write (r.scratch + 4096 * ownBlocks r) (metaBytes b1)) []
    [{ r with blocks := [b1] }] := ⟨_, rfl⟩
  have set : setBlock s r 0 b1 = t := by
    have single := setBlock_single (s := s) (t := s) (r := r) (b := b) (mem := s.mem) (slots := [])
      (by rw [← whole, withStage, ← hr, ← hs]) b1
    rwa [← whole, ← ht] at single
  have running : t.exch.reduces = [{ r with blocks := [b1] }] := by rw [ht]; rfl
  have empty : t.exch.slots = [] := by rw [ht]; rfl
  have renamed : reduceOf t r.group r.seq = some { r with blocks := [b1] } :=
    reduceOf_last (pre := []) (r := { r with blocks := [b1] }) ⟨running, by simp⟩
  have room : ∀ vals, slotRoom t { r with blocks := [b1] } 0 vals = t := fun vals => by
    simp only [slotRoom, empty, List.find?_nil]
  have slot : ∀ vals, slotWith t r.group r.seq { r with blocks := [b1] } 0 vals = ⟨r.group, r.seq, 0, 1, vals⟩ := fun vals => by
    simp only [slotWith, empty, List.find?_nil]
  have undone : blockDone t r.group r.seq { r with blocks := [b1] } 0 = false := by
    simp only [blockDone, renamed, Option.bind_some, List.getElem?_cons_zero]
    rw [hb1]
    exact decide_eq_false (Nat.ne_of_lt hn)
  simp only [contribute, named, hb, List.getElem?_cons_zero]
  rw [← hb1, set, addBlock_named renamed, room, slot, putSlot, undone, if_neg (by simp), empty, ht]
  rfl

/-! ### DATA (R189 steps 4 and 5) -/

theorem formResults_waits {s : State} {r : Reduce} (hr : s.exch.reduces = [r]) (hw : blocksFull r = false) :
    formResults s r.group r.seq = s := by
  have named : reduceOf s r.group r.seq = some r := reduceOf_last (pre := []) ⟨hr, by simp⟩
  rw [formResults, named]
  exact if_pos (.inr (.inr (by rw [hw]; rfl)))

/-- DATA that is not its block's last contribution takes a stage slot. -/
theorem data_added {s : State} {r : Reduce} {x : ExRec} {b : ExBlock} (h : OneReduction s r x) (hi : isIntReduce r = false)
    (hg : r.granted = true) (hb : r.blocks = [b]) (hm : slicePlace r x 4096 = some 0) (hf : dataFits r x = true)
    (hc : x.covered.toNat ≤ 256) (hw : b.received + 1 < r.contributions) (hs : s.exch.slots = []) {vs : List FVal}
    (hv : vs = payloadVals x.format.toNat x.payload x.covered.toNat) {b1 : ExBlock}
    (hb1 : b1 = { markBlock b vs with received := b.received + 1 }) :
    exec (.data x) s = .next { s with
      mem := s.mem.write (r.scratch + 4096 * ownBlocks r) (metaBytes b1)
      out := { s.out with fbp := s.out.fbp ++ [.answer true] }
      exch := { s.exch with
        reduces := [{ r with blocks := [b1] }]
        slots := [⟨r.group, r.seq, 0, 1, (pad256 vs).map (toBlock b.q)⟩] } } := by
  refine congrArg Host.Outcome.next ?_
  have running : (answerOffer s true).exch.reduces = [r] := (holdsLast_answered h).1
  have full : blocksFull { r with blocks := [b1] } = false := by
    rw [hb1]
    simp [blocksFull, Nat.ne_of_lt hw]
  obtain ⟨-, -, -, -, -, group, seq⟩ := id h
  rw [onRecord_running h, dataWork_one hi hg hb hm hf hc (by omega), group, seq, ← hv,
    contribute_fresh running hb hs hw vs hb1]
  refine (formResults_waits (r := { r with blocks := [b1] }) rfl full).trans ?_
  rfl

/-- The state in which a reduction's results have been formed, and nothing written yet. -/
def formedState (u : State) (r : Reduce) : State :=
  withReduces (countN u cntExchSteps (reduceResult u r).steps) [{ r with
    formed := some ⟨!r.noWrite, (reduceResult u r).bytes.length, (reduceResult u r).steps,
      if r.noWrite then 0 else (reduceResult u r).nonfinite, (reduceResult u r).saturated⟩ }]

theorem formResults_full {u : State} {r : Reduce} (hr : u.exch.reduces = [r]) (hf : r.formed = none) (hb : r.blocks ≠ [])
    (hw : blocksFull r = true) : formResults u r.group r.seq =
      if r.noWrite then formedState u r else unitWrite (formedState u r) .exchange r.dst (reduceResult u r).bytes := by
  have named : reduceOf u r.group r.seq = some r := reduceOf_last (pre := []) ⟨hr, by simp⟩
  have last : HoldsLast (countN u cntExchSteps (reduceResult u r).steps) [] r := ⟨hr, by simp⟩
  have set := setReduce_last last (r' := { r with
    formed := some ⟨!r.noWrite, (reduceResult u r).bytes.length, (reduceResult u r).steps,
      if r.noWrite then 0 else (reduceResult u r).nonfinite, (reduceResult u r).saturated⟩ }) rfl rfl
  rw [formResults, named]
  dsimp only
  rw [if_neg (by simp [hf, hb, hw]), set]
  rfl

/-- DATA that is the last contribution: the results are formed from what the contribution leaves. -/
theorem data_last {s : State} {r : Reduce} {x : ExRec} (h : OneReduction s r x) (hi : isIntReduce r = false)
    (hg : r.granted = true) {b : ExBlock} (hb : r.blocks = [b]) (hn : b.received + 1 = r.contributions)
    (hm : slicePlace r x 4096 = some 0) (hf : dataFits r x = true) (hc : x.covered.toNat ≤ 256) (hr : r.formed = none)
    {u : State} {r1 : Reduce}
    (hu : u = contribute (answerOffer s true) r.group r.seq 0 (payloadVals x.format.toNat x.payload x.covered.toNat))
    (h1 : reduceOf u r.group r.seq = some r1) :
    r1.dst = r.dst ∧ r1.noWrite = r.noWrite ∧ (∃ mem slots, u = withStage (answerOffer s true) mem slots [r1]) ∧
    exec (.data x) s = .next (if r1.noWrite then formedState u r1
      else unitWrite (formedState u r1) .exchange r1.dst (reduceResult u r1).bytes) := by
  have running : (answerOffer s true).exch.reduces = [r] := (holdsLast_answered h).1
  obtain ⟨mem, slots, b1, stage, received⟩ := staged_contribute running hb (payloadVals x.format.toNat x.payload x.covered.toNat)
  rw [← hu] at stage
  obtain ⟨rfl, -, -⟩ := reduceOf_single (r := { r with blocks := [b1] }) (by rw [stage]; rfl) h1
  refine ⟨rfl, rfl, ⟨mem, slots, stage⟩, congrArg Host.Outcome.next ?_⟩
  have full : blocksFull { r with blocks := [b1] } = true := by
    simp [blocksFull, received, hn]
  rw [onRecord_running h, dataWork_one hi hg hb hm hf hc (by omega), h.2.2.2.2.2.1, h.2.2.2.2.2.2, ← hu]
  exact formResults_full (r := { r with blocks := [b1] }) (by rw [stage]; rfl) hr (by simp) full

/-- What the last contribution leaves: the results counted, and written where they are. -/
theorem data_forms {s : State} {r : Reduce} {x : ExRec} (h : OneReduction s r x) (hi : isIntReduce r = false)
    (hg : r.granted = true) (hb : ∃ b, r.blocks = [b] ∧ b.received + 1 = r.contributions)
    (hm : slicePlace r x 4096 = some 0) (hf : dataFits r x = true) (hc : x.covered.toNat ≤ 256) (hr : r.formed = none)
    {u : State} {r1 : Reduce} {n : Nat}
    (hu : u = contribute (answerOffer s true) r.group r.seq 0 (payloadVals x.format.toNat x.payload x.covered.toNat))
    (h1 : reduceOf u r.group r.seq = some r1) (hn : n = (reduceResult u r1).bytes.length) :
    (r.noWrite = true → Ends (.data x) s fun t => t.mem = u.mem ∧ t.exch.reduces = [{ r1 with
      formed := some ⟨false, n, (reduceResult u r1).steps, 0, (reduceResult u r1).saturated⟩ }]) ∧
    (r.noWrite = false → r.dst % 64 = 0 → r.dst + 64 ≤ 2 ^ 64 → s.cap.filter = [] → s.tier.staged = [] →
      s.tier.rows = [] → 0 < n → n ≤ 64 → Ends (.data x) s fun t =>
      t.mem.bytes r.dst n = (reduceResult u r1).bytes ∧ SameOutside u t r.dst n ∧ t.exch.reduces = [{ r1 with
        formed := some ⟨true, n, (reduceResult u r1).steps, (reduceResult u r1).nonfinite,
          (reduceResult u r1).saturated⟩ }]) := by
  obtain ⟨b, hb, hlast⟩ := hb
  obtain ⟨dst, nowrite, ⟨mem, slots, stage⟩, run⟩ := data_last h hi hg hb hlast hm hf hc hr hu h1
  obtain ⟨w, hw⟩ : ∃ w, w = reduceResult u r1 := ⟨_, rfl⟩
  rw [nowrite] at run
  refine ⟨fun hno => ?_, fun hno ha hd hfilter hstaged hrows h0 h64 => ?_⟩
  · rw [hno, if_pos rfl] at run
    refine ⟨_, run, rfl, ?_⟩
    rw [formedState, nowrite, hno, ← hw, hn, ← hw]
    rfl
  · rw [hno, if_neg (by decide), dst] at run
    obtain ⟨m, written, bytes⟩ := unitWrite_plain (s := formedState u r1) (m := .exchange)
      (by rw [stage]; exact hfilter) (by rw [stage]; exact hstaged) (by rw [stage]; exact hrows) (by decide) ha
      (reduceResult u r1).bytes (by omega)
    rw [written] at run
    refine ⟨_, run, ?_, fun y hy => ?_, ?_⟩
    · rw [hn]
      exact bytes_of_written bytes
    · refine (bytes y).trans (if_neg ?_)
      omega
    · rw [unitWritten, formedState, nowrite, hno, ← hw, hn, ← hw]
      rfl

end Sys2Proof.Machine

/-! PROOFS. Reductions: CANCEL, and their ends (R191, R198, R204, R205, R207). -/

namespace Sys2Proof.Machine

/-! ### The end of a reduction (R198, R204, R205, R207) -/

/-- What the response of a reduction reports. -/
abbrev reduceResults (s : State) (r : Reduce) (stopped cancel : Nat) : List (Nat × Nat × Nat) :=
  [(8, 1, stopped), (9, 1, bit (formedOf r).written), (12, 3, cancel), (16, 4, (formedOf r).steps),
   (20, 4, (formedOf r).nonfinite), (24, 4, (formedOf r).saturated), (32, 8, (s.time.gtc - r.startGtc).toNat)]

/-- What a reduction's end leaves: the reduction gone and completed, its mailbox answered, and everything else. -/
structure ReduceEnded (s t : State) (r : Reduce) (status stopped cancel : Nat) : Prop where
  gone : t.exch.reduces = []
  completed : (r.group, r.seq) ∈ t.exch.completed
  mem : t.mem = s.mem
  cap : t.cap = s.cap
  log : t.log = s.log
  others : OtherBoxes s t r.mailbox
  free : (box t r.mailbox).busy = false
  code : (box t r.mailbox).code = BitVec.ofNat 8 status
  stopped : fld (box t r.mailbox).rsp 8 1 = stopped % 2 ^ 8
  written : fld (box t r.mailbox).rsp 9 1 = bit (formedOf r).written
  cancelBy : fld (box t r.mailbox).rsp 12 3 = cancel % 2 ^ 24
  steps : fld (box t r.mailbox).rsp 16 4 = (formedOf r).steps % 2 ^ 32
  nonfinite : fld (box t r.mailbox).rsp 20 4 = (formedOf r).nonfinite % 2 ^ 32

/-- The end of the only reduction, which no ABORT waits for. -/
theorem reduceEnded {s : State} {r : Reduce} (hf : fwRunning s = true) (hr : s.exch.reduces = [r]) (ha : r.aborts = [])
    (status detail stopped cancel : Nat) :
    ReduceEnded s (endReduce s r status detail stopped cancel) r status stopped cancel := by
  obtain ⟨u, hu⟩ : ∃ u : State, u = { s with
    exch.reduces := s.exch.reduces.filter fun q => !decide (q.group = r.group ∧ q.seq = r.seq)
    exch.slots := s.exch.slots.filter fun q => !decide (q.group = r.group ∧ q.seq = r.seq)
    exch.completed := addNew (r.group, r.seq) s.exch.completed } := ⟨_, rfl⟩
  obtain ⟨d, settled⟩ := settleDisable_fields u
  obtain ⟨v, hv⟩ : ∃ v, v = settleDisable u := ⟨_, rfl⟩
  have runs : fwRunning v = true := by rw [hv, settled, hu]; exact hf
  have ends : endReduce s r status detail stopped cancel = respond v r.mailbox status detail (reduceResults s r stopped cancel) := by
    rw [endReduce, ha, ← hu, hv]
    rfl
  rw [← hv] at settled
  have apart : fieldsApart (reduceResults s r stopped cancel) = true := by rfl
  have rsp : ∀ o n k : Nat, 8 ≤ o → o + n ≤ 32 → (o, n, k) ∈ reduceResults s r stopped cancel →
      fld (box (respond v r.mailbox status detail (reduceResults s r stopped cancel)) r.mailbox).rsp o n = k % 2 ^ (8 * n) :=
    fun o n k ho h hmem => (fld_rsp_respond r.mailbox status detail _ runs ho h).trans (fld_mkLine_mem apart hmem)
  rw [ends]
  refine ⟨?_, ?_, ?_, ?_, ?_, fun m hm => ?_, ?_, ?_, rsp 8 1 _ (by decide) (by decide) (by simp), ?_,
    rsp 12 3 _ (by decide) (by decide) (by simp), rsp 16 4 _ (by decide) (by decide) (by simp),
    rsp 20 4 _ (by decide) (by decide) (by simp)⟩
  · rw [respond_exch, settled, hu]
    simp [hr]
  · rw [respond_exch, settled, hu]
    exact mem_addNew ..
  · rw [respond_mem, settled, hu]
  · rw [respond_cap, settled, hu]
  · rw [respond_log, settled, hu]
  · rw [respond_box_other _ _ _ _ _ _ hm, settled, hu]
    rfl
  · rw [respond_box_same _ _ _ _ _ runs]
    rfl
  · rw [respond_box_same _ _ _ _ _ runs]
    rfl
  · rw [rsp 9 1 (bit (formedOf r).written) (by decide) (by decide) (by simp)]
    cases (formedOf r).written with
    | true => rfl
    | false => rfl

/-- A report leaves an entry of its class in a log with room. -/
theorem logReport_entry {s : State} (h : s.log.entries.length < 256) (cls : Nat) (src : U16) (detail : Nat) :
    ∃ e ∈ (logReport s cls src detail).log.entries, e.cls = BitVec.ofNat 8 cls := by
  by_cases held : ∀ e ∈ s.log.entries, e.cls ≠ BitVec.ofNat 8 cls
  · rw [logReport_fresh s cls src detail h held]
    exact ⟨_, List.mem_append_right _ (List.mem_singleton.2 rfl), rfl⟩
  · obtain ⟨e, he, hc⟩ : ∃ e ∈ s.log.entries, e.cls = BitVec.ofNat 8 cls := by simpa using held
    obtain ⟨cs, classes⟩ := logClasses_logReport s cls src detail
    have mem : e.cls ∈ logClasses (logReport s cls src detail) := by
      rw [classes]
      exact List.mem_append_left _ (List.mem_map.2 ⟨e, he, rfl⟩)
    obtain ⟨f, hf, hfc⟩ := List.mem_map.1 mem
    exact ⟨f, hf, hfc.trans hc⟩

theorem fault_logged (s : State) (detail : Nat) : ∃ log, logReport s clExchange (srcOf 4 0) detail = { s with log := log } :=
  logReport_logOnly s (by decide) _ _

/-! ### CANCEL (R204) -/

/-- CANCEL during the write phase waits for its end. -/
theorem cancel_waits {s : State} {r : Reduce} {x : ExRec} (h : OneReduction s r x) (he : phaseEnded s r = false) :
    exec (.cancel x) s = .next { s with
      out := { s.out with fbp := s.out.fbp ++ [.answer true] }
      exch := { s.exch with reduces := [{ r with stop := .fault, cancelBy := some x.sender.toNat }] } } := by
  refine congrArg Host.Outcome.next ?_
  have still : phaseEnded (answerOffer s true) r = false := he
  rw [onRecord_running h]
  dsimp only
  rw [still, if_neg (by decide), setReduce_last (holdsLast_answered h)
    (r' := { r with stop := .fault, cancelBy := some x.sender.toNat }) rfl rfl]
  rfl

/-- CANCEL after the write phase ends the reduction with FAULT and names the rank. -/
theorem cancel_ends {s : State} {r : Reduce} {x : ExRec} (h : OneReduction s r x) (hf : s.stat.fwState.get = 2)
    (hl : s.log.entries.length < 256) (ha : r.aborts = []) (he : phaseEnded s r = true) :
    ∃ u t, exec (.cancel x) s = .next t ∧ u.mem = s.mem ∧ u.mb = s.mb ∧ (∃ e ∈ u.log.entries, e.cls = 8) ∧
      ReduceEnded u t r 0x20 0 x.sender.toNat := by
  obtain ⟨a, ha'⟩ : ∃ a, a = answerOffer s true := ⟨_, rfl⟩
  obtain ⟨u, hu⟩ : ∃ u, u = logReport a clExchange (srcOf 4 0) x.sender.toNat := ⟨_, rfl⟩
  obtain ⟨log, logged⟩ := fault_logged a x.sender.toNat
  rw [← hu, ha'] at logged
  have ended : phaseEnded (answerOffer s true) r = true := he
  have entry := logReport_entry (s := a) (by rw [ha']; exact hl) clExchange (srcOf 4 0) x.sender.toNat
  rw [← hu] at entry
  have runs : fwRunning u = true := by
    rw [logged]
    exact decide_eq_true hf
  refine ⟨u, _, congrArg Host.Outcome.next ?_, by rw [logged]; rfl, by rw [logged]; rfl, entry,
    reduceEnded runs (by rw [logged]; exact h.2.2.1) ha stFault (newestIndex u) 0 x.sender.toNat⟩
  rw [onRecord_running h, ended, if_pos rfl, faultReduce, ← ha', ← hu]

/-! ### Records of no running reduction (R191, R282) -/

theorem onRecord_refused {s : State} {x : ExRec} (hp : s.ports.fbp = true) (hs : s.power.season.get = 0)
    (hr : s.exch.reduces = []) (hc : (x.group, x.seq) ∉ s.exch.completed) (he : (x.group, x.seq) ∉ s.exch.ended)
    (f : State → Reduce → State) : onRecord s x f = answerOffer s false := by
  have open_ : exchOpen s = true := by rw [exchOpen, hp, hs]; rfl
  have none : reduceOf s x.group x.seq = none := by rw [reduceOf, hr]; rfl
  rw [onRecord, hp, open_, none]
  simp [hc, he]

theorem onRecord_dropped {s : State} {x : ExRec} (hp : s.ports.fbp = true) (hs : s.power.season.get = 0)
    (hr : s.exch.reduces = []) (hc : (x.group, x.seq) ∈ s.exch.completed) (f : State → Reduce → State) :
    onRecord s x f = logReport (count (answerOffer s true) cntExchDrop) clExchange (srcOf 4 0) x.sender.toNat := by
  have open_ : exchOpen s = true := by rw [exchOpen, hp, hs]; rfl
  have none : reduceOf s x.group x.seq = none := by rw [reduceOf, hr]; rfl
  rw [onRecord, hp, open_, none]
  simp [hc]

/-- Every record of an exchange is taken in by `onRecord`. -/
theorem exec_record {x : ExRec} {c : Instr} (hc : c ∈ [Instr.exp x, Instr.grant x, Instr.data x, Instr.cancel x]) (s : State) :
    ∃ f, exec c s = .next (onRecord s x f) := by
  simp only [List.mem_cons, List.not_mem_nil, or_false] at hc
  rcases hc with rfl | rfl | rfl | rfl
  · exact ⟨_, rfl⟩
  · exact ⟨_, rfl⟩
  · exact ⟨_, rfl⟩
  · exact ⟨_, rfl⟩

/-! ### EXCH_REDUCE_COMPLETE (R189 step 6, R198, R205) -/

/-- With nothing due, EXCH_REDUCE_COMPLETE only ends what has ended. -/
theorem exchReduceComplete_single {s : State} {r : Reduce} (hr : s.exch.reduces = [r]) (hw : r.waits = []) :
    exec (.exchReduceComplete r.group r.seq) s = .next (if phaseEnded s r then finishReduce s r else s) := by
  have last : HoldsLast s [] r := ⟨hr, by simp⟩
  refine congrArg Host.Outcome.next ?_
  have woken : wakeReduce s r.group r.seq = s := by
    rw [wakeReduce_last last, hw]
    rfl
  simp only [woken, reduceOf_last last]

theorem answerAborts_none {s : State} {r : Reduce} (hr : s.exch.reduces = [r]) (ha : r.aborts = []) : answerAborts s r = s := by
  have last : HoldsLast s [] r := ⟨hr, by simp⟩
  have same : { r with aborts := [] } = r := by rw [← ha]
  have set := setReduce_last last (r' := r) rfl rfl
  rw [answerAborts, same, set, ha, List.nil_append, withReduces, ← hr]
  rfl

theorem finishReduce_waits {s : State} {r : Reduce} (hr : s.exch.reduces = [r]) (hs : r.stop = .none) (ha : r.aborts = [])
    (hb : blocksFull r = false) : finishReduce s r = s := by
  rw [finishReduce, hs]
  dsimp only
  rw [if_neg (by simp [hb]), answerAborts_none hr ha]

theorem blocksFull_iff {r : Reduce} : blocksFull r = true ↔ ∀ b ∈ r.blocks, b.received = r.contributions := by
  simp [blocksFull]

theorem finishReduce_done {s : State} {r : Reduce} (hs : r.stop = .none) (hw : r.waits = [])
    (hb : ∀ b ∈ r.blocks, b.received = r.contributions) (ho : ∀ o ∈ ownersOf r, o ∈ r.sentTo) :
    finishReduce s r = endReduce s r stOk 0 0 noCancel := by
  have gone : recordsGone r = true := by
    simpa [recordsGone, hw] using ho
  rw [finishReduce, hs]
  exact if_pos ⟨blocksFull_iff.2 hb, gone⟩

theorem finishReduce_lost {s : State} {r : Reduce} (hs : r.stop = .lost) :
    finishReduce s r = endReduce s r stLostMember s.agree.removed.toNat 0 noCancel := by
  rw [finishReduce, hs]

theorem grantedBlock_q (b : ExBlock) :
    (grantedBlock b).q = (match (grantedBlock b).x with | some v => v - 181 | none => -32768) := by
  have q : ∀ x, (match x with | none => zeroQ | some v => v - 181) = (match x with | some v => v - 181 | none => -32768) :=
    fun x => by
      cases x with
      | none => rfl
      | some v => rfl
  exact q b.x

/-- Settles O47: a reduction starts, gathers, grants, sends, adds, forms its results, is cancelled and completes. -/
theorem reductionsGatherGrantAndComplete : Obligations.ReductionsGatherGrantAndComplete := by
  intro s
  refine ⟨fun mb priv cmd p h hp => exchReduce_clauses h hp rfl,
    fun r x h => ⟨fun m hi hg hs he hr hm hp hc => ?_, fun hi hg hr hk hs he hm hp hc hn ha ht hl => ?_, fun hi hb ho hs => ?_,
      fun b hi hg hb hx hm hf hc hw hs => ?_, fun u r1 n hi hg _ hb hm hf hc hr hu h1 hn =>
        data_forms h hi hg hb hm hf hc hr hu h1 hn, fun he => ⟨_, cancel_waits h he, rfl⟩, fun hf hl ha he => ?_⟩,
    fun x hp hs hr => ⟨fun hc he c hin => ?_, fun hc c hin => ?_⟩,
    fun r hr hf hw ha => ⟨fun hs ⟨b, hb, hne⟩ => ?_, fun he => ?_, fun hs he => ?_, fun hs he hb ho => ?_⟩⟩
  · refine ⟨_, exp_kept h hi hg hs he hr hm hp hc, expTaken r x m, rfl, rfl, by simp [expTaken], fun i b hb => ?_⟩
    rw [expTaken_block hb, raisedBlock_eq]
  · obtain ⟨m, run, outside⟩ := exp_grants h hi hg hr hk hs he hm hp hc hn ha ht rfl
    refine ⟨_, run, _, rfl, rfl, outside, fun b hb => ?_⟩
    obtain ⟨b₀, -, rfl⟩ := List.mem_map.1 hb
    exact grantedBlock_q b₀
  · obtain ⟨recs, run, count, named⟩ := grant_sends h hi hb ho hs rfl
    exact ⟨_, run, rfl, recs, rfl, count, named⟩
  · have run := data_added h hi hg hb hm hf hc hw hs rfl rfl
    rw [hx] at run
    refine ⟨_, run, _, rfl, rfl, rfl, rfl, rfl, fun y hy => ?_⟩
    refine Mem.byte_write_other _ _ _ _ ?_
    rw [metaBytes_length]
    exact hy
  · obtain ⟨u, t, run, mem, mb, entry, ended⟩ := cancel_ends h hf hl ha he
    refine ⟨t, run, ended.gone, ended.completed, ended.mem.trans mem, ended.free, ended.code,
      fun m hm => (ended.others m hm).trans (by rw [box, box, mb]), ended.stopped, ended.written,
      ended.cancelBy.trans (Nat.mod_eq_of_lt x.sender.isLt), by rw [ended.log]; exact entry⟩
  · obtain ⟨f, run⟩ := exec_record hin s
    rw [onRecord_refused hp hs hr hc he] at run
    exact ⟨_, run, rfl⟩
  · obtain ⟨f, run⟩ := exec_record hin s
    rw [onRecord_dropped hp hs hr hc] at run
    obtain ⟨log, logged⟩ := fault_logged (count (answerOffer s true) cntExchDrop) x.sender.toNat
    rw [logged] at run
    exact ⟨_, run, rfl, rfl, rfl, rfl, rfl⟩
  · refine ⟨_, exchReduceComplete_single hr hw, ?_⟩
    have full : blocksFull r = false := Bool.eq_false_iff.2 fun all => hne (blocksFull_iff.1 all b hb)
    split
    · exact finishReduce_waits hr hs ha full
    · rfl
  · refine ⟨_, exchReduceComplete_single hr hw, ?_⟩
    rw [he]
    rfl
  · have run := exchReduceComplete_single hr hw
    rw [he, if_pos rfl, finishReduce_lost hs] at run
    have ended := reduceEnded (decide_eq_true hf) hr ha stLostMember s.agree.removed.toNat 0 noCancel
    exact ⟨_, run, ended.gone, ended.mem, ended.cap, ended.free, ended.code, ended.written, ended.others⟩
  · have run := exchReduceComplete_single hr hw
    rw [he, if_pos rfl, finishReduce_done hs hw hb ho] at run
    have ended := reduceEnded (decide_eq_true hf) hr ha stOk 0 0 noCancel
    exact ⟨_, run, ended.gone, ended.completed, ended.mem, ended.cap, ended.free, ended.code, ended.stopped, ended.written,
      ended.cancelBy, ended.steps, ended.nonfinite, ended.others⟩

end Sys2Proof.Machine

/-! PROOFS. A FINAL packet at a rebuild target (R259 to R262). -/

namespace Sys2Proof.Machine

/-! ### A packet of one line (R258) -/

theorem lineOf_lineBytes (v : Line) : lineOf (lineBytes v) = v := by
  have whole : (lineBytes v).take 64 = lineBytes v := List.take_of_length_le (by rw [lineBytes_length])
  rw [lineOf, whole, lineBytes, leNat_leBytes_of_lt (v.isLt.trans_eq (pow_mul 2 8 64))]
  simp

theorem payloadLines_one {bs : List Byte} {v : Line} (h : bs = lineBytes v) : payloadLines bs = [v] := by
  rw [payloadLines, h, chunks_single (by rw [lineBytes_length]; decide) (by rw [lineBytes_length])]
  exact congrArg (· :: []) (lineOf_lineBytes v)

/-- A state of which memory alone has changed: one line. -/
def lineWritten (s : State) (a : Nat) (v : Line) : State := { s with mem := s.mem.writeLine a v }

/-! ### A FINAL packet at the target (R259 to R262) -/

theorem setRec_still {s : State} {v : BitVec 4} (hs : recState s ≠ recData) (hv : v ≠ recData) :
    setRec s v = { s with recov.state := V3.all v } := by
  unfold setRec
  exact if_pos (by rw [decide_eq_false hs, decide_eq_false hv])

/-- A target may become RESUMABLE: nothing but the state of its recovery changes. -/
theorem targetResume_fields (s : State) : ∃ st, targetResume s = { s with recov.state := st } := by
  unfold targetResume
  split
  · next h => exact ⟨_, setRec_still (by rw [h.2.1]; decide) (by decide)⟩
  · exact ⟨_, rfl⟩

theorem landFinal_parity {s : State} {m : RbMsg} {v : Line} (hm : m.payload = lineBytes v) (hp : m.parity = true)
    (hg : groupOf m ∉ s.recov.parityDone)
    (hc : covers s.recov.parityDone (ownPos s) m.bay.toNat m.base.toNat m.depth.toNat = false) :
    ∃ st, landFinal s m = { lineWritten s (slotBase s (sealedSlot s) +
        parityOffset (covLayout s) m.bay.toNat m.piece.toNat m.depth.toNat) v with
      recov := { s.recov with state := st, parityDone := s.recov.parityDone ++ [groupOf m] } } := by
  obtain ⟨st, resumed⟩ := targetResume_fields { lineWritten s (slotBase s (sealedSlot s) +
    parityOffset (covLayout s) m.bay.toNat m.piece.toNat m.depth.toNat) v with
      recov.parityDone := addNew (groupOf m) s.recov.parityDone }
  refine ⟨st, ?_⟩
  unfold landFinal
  simp only [payloadLines_one hm, hp, if_true]
  have kept : (if covers s.recov.parityDone (ownPos s) m.bay.toNat m.base.toNat (m.depth.toNat + 0) = true then s
      else lineWritten s (slotBase s (sealedSlot s) +
        parityOffset (covLayout s) m.bay.toNat m.piece.toNat (m.depth.toNat + 0)) v) = lineWritten s (slotBase s (sealedSlot s) +
        parityOffset (covLayout s) m.bay.toNat m.piece.toNat m.depth.toNat) v := by
    rw [Nat.add_zero, hc, if_neg (by decide)]
  refine (congrArg (fun t : State => targetResume { t with recov.parityDone := addNew (groupOf m) t.recov.parityDone })
    kept).trans (resumed.trans ?_)
  rw [addNew_fresh hg]
  rfl

theorem landFinal_data {s : State} {m : RbMsg} {v : Line} (hm : m.payload = lineBytes v) (hp : m.parity = false) {l : Nat}
    (hl : columnLine (covLayout s) m.bay.toNat m.piece.toNat m.depth.toNat = l) (h : l < 16384) :
    landFinal s m = landLine s m.bay.toNat l v := by
  unfold landFinal
  simp only [payloadLines_one hm, hp, Bool.false_eq_true, if_false]
  show (if phantom (covLayout s) m.bay.toNat m.piece.toNat (m.depth.toNat + 0) = true then s
    else landLine s m.bay.toNat (columnLine (covLayout s) m.bay.toNat m.piece.toNat (m.depth.toNat + 0)) v) = _
  rw [Nat.add_zero, hl, phantom, hl, if_neg (by simpa using h)]

theorem landLine_discarded {s : State} {b l a : Nat} (v : Line) (ha : lineHome s b l = some a) (h : rebuiltBit s b l = true) :
    landLine s b l v = s := by
  rw [landLine, ha]
  exact if_pos h

theorem rowCheck_row (s : State) (b : Nat) : (rowCheck s b).row = b := by
  unfold rowCheck
  cases h : s.recov.rows.find? fun r => decide (r.row = b) with
  | none => rfl
  | some r => simpa using List.find?_some h

theorem rowCheck_putRow (s : State) (r : RowCheck) : rowCheck (putRow s r) r.row = r := by
  have none : (s.recov.rows.filter fun q => q.row ≠ r.row).find? (fun q => decide (q.row = r.row)) = none :=
    List.find?_eq_none.2 fun q hq => by simpa using (List.mem_filter.1 hq).2
  rw [rowCheck, putRow, List.find?_append, none]
  simp

theorem retryHeld_none {s : State} (h : s.cap.held = []) : retryHeld s = s := by
  unfold retryHeld
  rw [h]
  show { s with cap := { s.cap with held := [] } } = s
  rw [← h]

/-- A row with lines left is not checked yet. -/
theorem checkRow_waits {s : State} {b : Nat} (h : (rowCheck s b).lines < 16384) : checkRow s b = s := by
  unfold checkRow
  exact if_pos (.inr h)

/-- A line that lands: its bit, the line, and its row's verify digest. -/
def landed (s : State) (b l a : Nat) (v : Line) : State :=
  let r := rowCheck s b
  { s with
    mem := (setRebuilt s b l).mem.writeLine a v
    recov := { s.recov with
      reqs := s.recov.reqs.filter fun q => !decide (q.bay = b ∧ q.line = l ∧ q.sel = 0)
      rows := s.recov.rows.filter (fun q => q.row ≠ b) ++
        [{ r with lines := r.lines + 1, digest := r.digest ^^^ lineTerm (bayKey s b) l v }] } }

theorem rowCheck_landed (s : State) (b l a : Nat) (v : Line) : rowCheck (landed s b l a v) b =
    { rowCheck s b with
      lines := (rowCheck s b).lines + 1, digest := (rowCheck s b).digest ^^^ lineTerm (bayKey s b) l v } := by
  have row := rowCheck_row s b
  have put := rowCheck_putRow s { rowCheck s b with
    lines := (rowCheck s b).lines + 1, digest := (rowCheck s b).digest ^^^ lineTerm (bayKey s b) l v }
  rw [row] at put
  refine Eq.trans ?_ put
  rw [rowCheck, rowCheck, landed, putRow]
  dsimp only
  rw [row]

theorem landLine_lands {s : State} {b l a : Nat} (v : Line) (ha : lineHome s b l = some a) (h : rebuiltBit s b l = false)
    (hh : s.cap.held = []) (hn : (rowCheck s b).lines + 1 < 16384) : landLine s b l v = landed s b l a v := by
  have few : (rowCheck (landed s b l a v) b).lines < 16384 := by
    rw [rowCheck_landed]
    exact hn
  rw [landLine, ha]
  dsimp only
  rw [h, if_neg (by decide)]
  obtain ⟨u, hu⟩ : ∃ u, u = landed s b l a v := ⟨_, rfl⟩
  have row : putRow { setRebuilt s b l with
      mem := (setRebuilt s b l).mem.writeLine a v
      recov := { s.recov with reqs := s.recov.reqs.filter fun q => !decide (q.bay = b ∧ q.line = l ∧ q.sel = 0) } }
      { rowCheck s b with
        lines := (rowCheck s b).lines + 1, digest := (rowCheck s b).digest ^^^ lineTerm (bayKey s b) l v } = u := by
    rw [hu, landed, putRow]
    dsimp only
    rw [rowCheck_row]
    rfl
  refine (congrArg (fun t => checkRow (retryHeld t) b) row).trans ?_
  rw [retryHeld_none (by rw [hu]; exact hh), hu, checkRow_waits few]

/-- What a line that lands leaves: the line, its bit, and its row's digest. -/
theorem landed_reads {s : State} {b l a : Nat} (v : Line) (ho : outsideLine a (mapBase s + b * 2048 + l / 8)) :
    (landed s b l a v).mem.line a = v ∧ rebuiltBit (landed s b l a v) b l = true ∧
    ∀ x, outsideLine a x → x ≠ mapBase s + b * 2048 + l / 8 → (landed s b l a v).mem.byte x = s.mem.byte x := by
  refine ⟨Mem.line_writeLine .., ?_, fun x hx hne => ?_⟩
  · have read : (landed s b l a v).mem.byte (mapBase s + b * 2048 + l / 8) =
        setBit (s.mem.byte (mapBase s + b * 2048 + l / 8)) (l % 8) true := by
      refine (Mem.byte_writeLine_other _ _ _ ho).trans ?_
      exact Mem.byte_write_same s.mem (mapBase s + b * 2048 + l / 8) [_] 0 Nat.zero_lt_one
    have bit := getLsbD_setBit (s.mem.byte (mapBase s + b * 2048 + l / 8)) true (Nat.mod_lt l (by decide)) (l % 8)
    rw [if_pos rfl] at bit
    exact (congrArg (fun y : Byte => y.getLsbD (l % 8)) read).trans bit
  · refine (Mem.byte_writeLine_other _ _ _ hx).trans ?_
    refine Mem.byte_write_other _ _ _ _ ?_
    rw [List.length_singleton]
    omega

/-- PART at its target. -/
theorem part_lands {s : State} {m : RbMsg} (hl : s.ports.lkp = true) (hw : s.power.season.get ≠ 2)
    (hc : s.agree.cove = some m.cove) (hv : m.view = viewNow s) (hf : m.final = true) (ht : s.recov.target = true)
    (hp : m.target.toNat = ownPos s) : exec (.part m) s = .next (landFinal s m) := by
  refine congrArg Host.Outcome.next ?_
  rw [vfIn_open hl hw, rbIn_own hc hv, takePart, hf, if_pos rfl, if_pos ⟨ht, hp⟩]

end Sys2Proof.Machine

/-! PROOFS. Replies, requests repeated, and the tidemark store's fragments (R256, R258, R261). -/

namespace Sys2Proof.Machine

/-! ### PIECE (R261) -/

/-- A line some holder of whose selection has not answered is not settled. -/
theorem settleReq_waits {s : State} {q : LineReq} {h : Nat} (hh : h ∈ askedHolders s q)
    (hn : ∀ r ∈ q.replies, r.1 ≠ h) : settleReq s q = s := by
  have open_ : ∀ t : Nat, ((askedHolders s q).all fun k => q.replies.any fun r => decide (r.1 = k ∧ r.2.1.toNat = t)) = false :=
    fun t => by
      refine Bool.eq_false_iff.2 fun all => ?_
      obtain ⟨r, hr, named⟩ := List.any_eq_true.1 (List.all_eq_true.1 all h hh)
      exact hn r hr (of_decide_eq_true named).1
  unfold settleReq
  simp only [List.find?_cons, open_, List.find?_nil]

/-- A first reply to the only request is kept. -/
theorem takePiece_kept {s : State} {m : RbMsg} {q : LineReq} (hr : s.recov.reqs = [q]) (hs : q.sel = m.stage.toNat)
    (hb : q.bay = m.bay.toNat) (hl : q.line = columnLine (covLayout s) m.bay.toNat m.piece.toNat m.depth.toNat)
    (hn : q.replies = []) {h : Nat} (hh : h ∈ askedHolders s q) (hm : h ≠ m.sender.toNat) :
    takePiece m s = { s with recov := { s.recov with
      reqs := [{ q with replies := [(m.sender.toNat, m.tide, (payloadLines m.payload).headD 0)] }] } } := by
  obtain ⟨q', hq'⟩ : ∃ q', q' = { q with replies := [(m.sender.toNat, m.tide, (payloadLines m.payload).headD 0)] } := ⟨_, rfl⟩
  obtain ⟨t, ht⟩ : ∃ t : State, t = { s with recov := { s.recov with reqs := [q'] } } := ⟨_, rfl⟩
  have waits : settleReq t q' = t := by
    refine settleReq_waits (h := h) ?_ ?_
    · rw [ht, hq']
      exact hh
    · rw [hq']
      simpa using hm.symm
  have found : s.recov.reqs.find? (fun q => decide (q.bay = m.bay.toNat ∧
      q.line = columnLine (covLayout s) m.bay.toNat m.piece.toNat m.depth.toNat ∧ q.sel = m.stage.toNat)) = some q := by
    rw [hr]
    simp [hb, hl, hs]
  unfold takePiece
  simp only [found]
  rw [hr, hn]
  simp only [List.filter_nil, List.nil_append, replaceFirst, decide_true, if_true]
  rw [← hq', ← ht]
  exact waits

/-! ### Packets go out (R258) -/

/-- A state that has sent some more to other instances, and charged the buckets of the rebuild traffic. -/
def mailed (s : State) (seqs : List (Nat × U32)) (plus minus : Nat) (xs : List LkpOut) : State :=
  { s with
    recov := { s.recov with seqs := seqs }
    fold := { s.fold with rbTokPlus := plus, rbTokMinus := minus }
    out := { s.out with lkp := s.out.lkp ++ xs } }

/-- A step that sends rebuild packets, and does nothing else. -/
def Mails (s : State) (xs : List LkpOut) (t : State) : Prop := ∃ seqs plus minus, t = mailed s seqs plus minus xs

theorem Mails.refl (s : State) : Mails s [] s :=
  ⟨s.recov.seqs, s.fold.rbTokPlus, s.fold.rbTokMinus, by rw [mailed, List.append_nil]⟩

theorem Mails.trans {s t u : State} {xs ys : List LkpOut} (h : Mails s xs t) (k : Mails t ys u) : Mails s (xs ++ ys) u := by
  obtain ⟨_, _, _, rfl⟩ := h
  obtain ⟨seqs, plus, minus, rfl⟩ := k
  refine ⟨seqs, plus, minus, ?_⟩
  rw [mailed, mailed, mailed, ← List.append_assoc]

theorem mails_sendRbTo {s : State} (hl : s.ports.lkp = true) (rank : Nat) (type : Byte) (route : Route) (m : RbMsg) :
    ∃ q : U32, Mails s [.store rank .vf route (.rebuild type { m with seq := q })] (sendRbTo s rank type route m) := by
  obtain ⟨plus, minus, charged⟩ := chargeRb_fields { s with
    recov.seqs := put rank (look 0 rank s.recov.seqs + 1) s.recov.seqs } (chargeDir s rank route)
    (stored (32 + m.payload.length))
  refine ⟨look 0 rank s.recov.seqs, put rank (look 0 rank s.recov.seqs + 1) s.recov.seqs, plus, minus, ?_⟩
  rw [sendRbTo]
  dsimp only
  rw [charged]
  exact if_pos hl

/-- A list of sends: one packet for each element. -/
theorem mails_forEach {α β : Type} {g : β → LkpOut} {Q : α → β → Prop} {f : State → α → State} : ∀ (l : List α) {s : State},
    (∀ u xs, Mails s xs u → ∀ a ∈ l, ∃ p, Mails u [g p] (f u a) ∧ Q a p) →
    ∃ ps, Mails s (ps.map g) (forEach l f s) ∧ List.Forall₂ Q l ps
  | [], s, _ => ⟨[], Mails.refl s, .nil⟩
  | a :: l, s, h => by
    obtain ⟨p, sent, hp⟩ := h s [] (Mails.refl s) a List.mem_cons_self
    obtain ⟨ps, rest, hps⟩ := mails_forEach (g := g) (Q := Q) l (s := f s a)
      fun u xs hu b hb => h u _ (sent.trans hu) b (List.mem_cons_of_mem _ hb)
    exact ⟨p :: ps, sent.trans rest, .cons hp hps⟩

/-! ### A request goes out again (R261) -/

theorem askPieces_mails {s : State} (hl : s.ports.lkp = true) (b l sel : Nat) :
    ∃ xs, Mails s xs (askPieces s b l sel) ∧ xs.length = (otherLive s).length := by
  obtain ⟨xs, sent, each⟩ := mails_forEach (g := id) (Q := fun _ _ => True) (otherLive s)
    (f := fun t q => sendRb t q 0x41 .any _) (s := s) fun u xs hu q _ => by
      obtain ⟨seqs, plus, minus, rfl⟩ := hu
      obtain ⟨n, mails⟩ := mails_sendRbTo (s := mailed s seqs plus minus xs) hl
        (rankAt (mailed s seqs plus minus xs) (ownCoveId (mailed s seqs plus minus xs)) q) 0x41 .any _
      exact ⟨_, mails, trivial⟩
  exact ⟨xs, List.map_id xs ▸ sent, each.length_eq.symm⟩

theorem pieceReqRetry_early {s : State} {x : U64} {q : LineReq} (hb : bayLine s x.toNat = some (q.bay, q.line))
    (hr : s.recov.reqs = [q]) (ht : s.time.gtc.toNat < q.sentAt.toNat + 20000) :
    exec (.pieceReqRetry x) s = .next s := by
  have found : s.recov.reqs.find? (fun r => decide (r.bay = q.bay ∧ r.line = q.line)) = some q := by
    rw [hr]
    simp
  refine congrArg Host.Outcome.next ?_
  simp only [hb, found]
  exact if_neg (Nat.not_le.2 ht)

theorem pieceReqRetry_due {s : State} {x : U64} {q : LineReq} (hb : bayLine s x.toNat = some (q.bay, q.line))
    (hr : s.recov.reqs = [q]) (ht : q.sentAt.toNat + 20000 ≤ s.time.gtc.toNat) :
    exec (.pieceReqRetry x) s =
      .next (askPieces { s with recov := { s.recov with reqs := [{ q with sentAt := s.time.gtc }] } } q.bay q.line q.sel) := by
  have found : s.recov.reqs.find? (fun r => decide (r.bay = q.bay ∧ r.line = q.line)) = some q := by
    rw [hr]
    simp
  refine congrArg Host.Outcome.next ?_
  simp only [hb, found]
  rw [if_pos ht, hr]
  simp only [replaceFirst, decide_true, if_true]

/-! ### The tidemark store (R256, R258) -/

/-- A fragment's packet. -/
def IsFragment (s : State) (e : Nat × List Byte) (p : RbMsg) : Prop :=
  p.payload = e.2 ∧ p.depth = BitVec.ofNat 16 e.1 ∧ p.tide = sealedTide s

theorem sendArea_mails {s : State} (hl : s.ports.lkp = true) {c : CovePlan} (hc : ownCove s = some c) (pos : Nat) :
    ∃ ps : List RbMsg,
      Mails s (ps.map fun p => .store (rankAt s (ownCoveId s) pos) .vf .any (.rebuild 0x43 p)) (sendArea s pos 0 0) ∧
      List.Forall₂ (IsFragment s) (List.zip (List.range (chunks 256 (s.mem.bytes (areaBase s (sealedSlot s)) (areaSize c))).length)
        (chunks 256 (s.mem.bytes (areaBase s (sealedSlot s)) (areaSize c)))) ps := by
  obtain ⟨frs, hfrs⟩ : ∃ frs, frs = chunks 256 (s.mem.bytes (areaBase s (sealedSlot s)) (areaSize c)) := ⟨_, rfl⟩
  obtain ⟨ps, sent, each⟩ := mails_forEach (Q := IsFragment s)
    (g := fun p : RbMsg => LkpOut.store (rankAt s (ownCoveId s) pos) .vf .any (.rebuild 0x43 p))
    (List.zip (List.range frs.length) frs) (s := s)
    (f := fun t e => sendRb t pos 0x43 .any
      { RbMsg.blank with
        target := BitVec.ofNat 8 pos, tide := sealedTide t, depth := BitVec.ofNat 16 e.1, payload := e.2 })
    fun u xs hu e _ => by
      obtain ⟨seqs, plus, minus, rfl⟩ := hu
      obtain ⟨n, mails⟩ := mails_sendRbTo (s := mailed s seqs plus minus xs) hl
        (rankAt (mailed s seqs plus minus xs) (ownCoveId (mailed s seqs plus minus xs)) pos) 0x43 .any _
      exact ⟨_, mails, rfl, rfl, rfl⟩
  refine ⟨ps, ?_, hfrs ▸ each⟩
  unfold sendArea
  rw [hc]
  dsimp only
  rw [fragmentsOf, ← hfrs, if_pos rfl, List.drop_zero, List.take_of_length_le (by simp)]
  exact sent

/-- What the packets of all fragments carry. -/
theorem fragments_of_mails {s : State} {frs : List (List Byte)} {ps : List RbMsg}
    (h : List.Forall₂ (IsFragment s) (List.zip (List.range frs.length) frs) ps) :
    ps.map (fun p => p.payload) = frs ∧ (∀ i p, ps[i]? = some p → p.depth = BitVec.ofNat 16 i) ∧
      ∀ p ∈ ps, p.tide = sealedTide s := by
  have length : frs.length = ps.length := by
    have := h.length_eq
    simpa using this
  have at_ : ∀ i (hi : i < ps.length), IsFragment s (i, frs[i]'(by omega)) ps[i] := fun i hi => by
    have one := h.get (i := i) (by simpa [length] using hi) hi
    simpa using one
  refine ⟨List.ext_getElem (by simp [length]) fun i h1 h2 => ?_, fun i p hp => ?_, fun p hp => ?_⟩
  · rw [List.getElem_map]
    exact (at_ i (by simpa using h1)).1
  · obtain ⟨hi, rfl⟩ := List.getElem?_eq_some_iff.1 hp
    exact (at_ i hi).2.1
  · obtain ⟨i, hi, rfl⟩ := List.getElem_of_mem hp
    exact (at_ i hi).2.2

end Sys2Proof.Machine

/-! PROOFS. A target's tidemark store, a handover's copy, and MOVE (R256, R264, R267). -/

namespace Sys2Proof.Machine

/-! ### The first fragment a target gathers (R256) -/

/-- An area of more than one fragment is not whole with its first alone. -/
theorem gatheredArea_first {s : State} {c : CovePlan} {bs : List Byte} (ha : 256 < areaSize c) (hm : s.recov.tmark = [(0, bs)]) :
    gatheredArea s c = none := by
  refine if_neg fun all => ?_
  have second := List.all_eq_true.1 all 1 (List.mem_range.2 (by omega))
  rw [hm] at second
  simp at second

theorem takeTmark_first {s : State} {m : RbMsg} {c : CovePlan} (hc : ownCove s = some c) (ht : s.recov.target = true)
    (hs : s.tide.stepRecord = none) (hf : m.sender.toNat = s.recov.tmarkFrom) (hd : m.depth.toNat = 0)
    (hm : s.recov.tmark = []) (ha : 256 < areaSize c) :
    takeTmark m s = { adoptTide s m.tide with recov := { s.recov with tide := m.tide, tmark := [(0, m.payload)] } } := by
  obtain ⟨u, hu⟩ : ∃ u : State, u =
    { adoptTide s m.tide with recov := { s.recov with tide := m.tide, tmark := [(0, m.payload)] } } := ⟨_, rfl⟩
  have bare : bareTarget s = true := by rw [bareTarget, ht, hs]; rfl
  have cove : ownCove u = some c := by rw [hu]; exact hc
  have few : gatheredArea u c = none := gatheredArea_first ha (by rw [hu])
  have waits : areaTaken u = u := by
    rw [areaTaken, cove]
    dsimp only
    rw [few, if_neg (by simp), judgeArea, cove]
    dsimp only
    rw [few]
  rw [takeTmark, bare, if_neg (by decide)]
  dsimp only
  rw [if_pos hm]
  rw [if_neg (fun h => h rfl)]
  rw [if_pos (show m.sender.toNat = (adoptTide s m.tide).recov.tmarkFrom from hf), hd]
  rw [← hu]
  refine Eq.trans (congrArg areaTaken ?_) waits
  rw [hu]
  show { adoptTide s m.tide with recov := { s.recov with tide := m.tide, tmark := put 0 m.payload s.recov.tmark } } = _
  rw [hm]
  rfl

theorem takeTmark_idle {s : State} (m : RbMsg) (h : s.recov.target = false ∨ s.tide.stepRecord.isSome = true) :
    takeTmark m s = s := by
  have bare : bareTarget s = false := by
    rcases h with h | h
    · rw [bareTarget, h]
      rfl
    · obtain ⟨r, hr⟩ := Option.isSome_iff_exists.1 h
      rw [bareTarget, hr]
      cases s.recov.target with
      | true => rfl
      | false => rfl
  rw [takeTmark, bare]
  rfl

theorem next_tmark {s : State} {m : RbMsg} (hl : s.ports.lkp = true) (hw : s.power.season.get ≠ 2)
    (hc : s.agree.cove = some m.cove) (hv : m.view = viewNow s) (hh : s.recov.handover = none) :
    exec (.tmark m) s = .next (takeTmark m s) := by
  refine congrArg Host.Outcome.next ?_
  rw [vfIn_open hl hw, hh]
  exact rbIn_own hc hv ..

/-! ### MIRROR at a handover's target (R264) -/

theorem mirror_written {s : State} {m : RbMsg} {h : Handover} {v : Line} {a : Nat} (hl : s.ports.lkp = true)
    (hw : s.power.season.get ≠ 2) (hh : s.recov.handover = some h) (ho : h.outgoing = false)
    (hc : s.agree.cove = some m.cove) (hn : m.count = 1) (hm : m.payload = lineBytes v) (hp : m.parity = false)
    (hu : m.bay.toNat * copyUnits (covLayout s) + m.depth.toNat + 1 < rowsY s * copyUnits (covLayout s))
    (ha : lineHome s m.bay.toNat m.depth.toNat = some a) :
    exec (.mirror m) s = .next { lineWritten s a v with recov := { s.recov with handover := some { h with
      cursor := max h.cursor (m.bay.toNat * copyUnits (covLayout s) + m.depth.toNat + 1) } } } := by
  refine congrArg Host.Outcome.next ?_
  have home : lineHome s m.bay.toNat (m.depth.toNat + 0) = some a := ha
  have last : decide (rowsY s * copyUnits (covLayout s) ≤ m.bay.toNat * copyUnits (covLayout s) + 0 + m.depth.toNat + 1) = false :=
    decide_eq_false (by omega)
  rw [vfIn_open hl hw, hh]
  dsimp only
  rw [if_neg (by simp [ho, hc]), if_neg (by rw [hn]; decide), payloadLines_one hm, hp]
  simp only [List.length_singleton, List.range_one, List.zip_cons_cons, List.zip_nil_right, forEach, List.foldl_cons,
    List.foldl_nil, Bool.false_eq_true, if_false, home, last, Bool.or_false, false_and]
  rfl

/-! ### The copy of a handover's outgoing member (R264) -/

/-- What a copy's packet carries: one to four lines. -/
def FewLines (p : RbMsg) : Prop := 1 ≤ p.count.toNat ∧ p.count.toNat ≤ 4 ∧ p.payload.length = 64 * p.count.toNat

/-- A state in which the copy cursor has moved on, some packets having gone to the peer. -/
def copied (s : State) (h : Handover) (ps : List RbMsg) (t : State) : Prop :=
  ∃ seqs plus minus, t = { mailed s seqs plus minus (ps.map fun p => .store h.peerRank .vf .any (.rebuild 0x44 p)) with
    recov := { s.recov with seqs := seqs, handover := some h } }

theorem copied_trans {s t u : State} {h k : Handover} {ps qs : List RbMsg} (hs : copied s h ps t) (hk : k.peerRank = h.peerRank)
    (ht : copied t k qs u) : copied s k (ps ++ qs) u := by
  obtain ⟨_, _, _, rfl⟩ := hs
  obtain ⟨seqs, plus, minus, rfl⟩ := ht
  refine ⟨seqs, plus, minus, ?_⟩
  rw [List.map_append, hk]
  simp only [mailed, List.append_assoc]

/-- The lines of the next packet: up to four, and none of the next row. -/
def packetLines (s : State) (h : Handover) : Nat :=
  min 4 (copyUnits (covLayout s) - h.cursor % copyUnits (covLayout s))

theorem packetLines_bounds (s : State) (h : Handover) : 1 ≤ packetLines s h ∧ packetLines s h ≤ 4 := by
  have pos : 0 < copyUnits (covLayout s) := by
    unfold copyUnits
    omega
  have := Nat.mod_lt h.cursor pos
  unfold packetLines
  omega

/-- A packet of a row stays in the row. -/
theorem packetLines_within {s : State} {h : Handover} (hc : h.cursor < rowsY s * copyUnits (covLayout s)) :
    h.cursor + packetLines s h ≤ rowsY s * copyUnits (covLayout s) := by
  obtain ⟨n, hn⟩ : ∃ n, n = copyUnits (covLayout s) := ⟨_, rfl⟩
  have row : h.cursor / n < rowsY s := by
    rw [Nat.div_lt_iff_lt_mul (by rw [hn, copyUnits]; omega), hn]
    exact hc
  have whole : (h.cursor / n + 1) * n ≤ rowsY s * n := Nat.mul_le_mul_right n row
  have split := Nat.div_add_mod h.cursor n
  rw [Nat.add_mul, Nat.one_mul, Nat.mul_comm] at whole
  unfold packetLines
  rw [← hn]
  have := Nat.mod_lt h.cursor (show 0 < n by rw [hn, copyUnits]; omega)
  omega

theorem flatMap_lineBytes_length (ls : List Line) : (ls.flatMap lineBytes).length = 64 * ls.length := by
  induction ls with
  | nil => rfl
  | cons a t ih => rw [List.flatMap_cons, List.length_append, ih, lineBytes_length, List.length_cons]; omega

/-- The packet that the copy sends next. -/
def copyMsg (s : State) (h : Handover) (ls : List Line) : RbMsg :=
  { RbMsg.blank with
    parity := decide (16384 ≤ h.cursor % copyUnits (covLayout s)), cove := ownCoveId s
    target := BitVec.ofNat 8 (ownPos s), sender := BitVec.ofNat 8 (ownPos s)
    dest := BitVec.ofNat 8 (ownPos s), view := viewNow s, tide := sealedTide s
    bay := BitVec.ofNat 16 (h.cursor / copyUnits (covLayout s))
    depth := BitVec.ofNat 16 (if h.cursor % copyUnits (covLayout s) < 16384 then h.cursor % copyUnits (covLayout s)
      else h.cursor % copyUnits (covLayout s) - 16384)
    count := BitVec.ofNat 8 ls.length, payload := ls.flatMap lineBytes }

/-- The handover once its next packet has gone out. -/
def copiedOn (s : State) (h : Handover) : Handover :=
  { h with
    cursor := h.cursor + packetLines s h
    finished := decide (rowsY s * copyUnits (covLayout s) ≤ h.cursor + packetLines s h) }

/-- One packet of the copy. -/
theorem copyPacket_copies {s : State} (hl : s.ports.lkp = true) (h : Handover) : ∃ p, FewLines p ∧
    p.count.toNat = packetLines s h ∧ copied s (copiedOn s h) [p] (copyPacket s h) := by
  obtain ⟨few, most⟩ := packetLines_bounds s h
  obtain ⟨ls, hls⟩ : ∃ ls, ls = (List.range (packetLines s h)).map fun i =>
    unitLine s (h.cursor / copyUnits (covLayout s)) (h.cursor % copyUnits (covLayout s) + i) := ⟨_, rfl⟩
  have length : ls.length = packetLines s h := by rw [hls]; simp
  have count : (copyMsg s h ls).count.toNat = packetLines s h := by
    show (BitVec.ofNat 8 ls.length).toNat = _
    rw [length]
    exact toNat_ofNat_of_lt (by omega)
  obtain ⟨q, seqs, plus, minus, sent⟩ := mails_sendRbTo hl h.peerRank 0x44 .any (copyMsg s h ls)
  have packet : copyPacket s h = { (sendRbTo s h.peerRank 0x44 .any (copyMsg s h ls)) with
      recov := { (sendRbTo s h.peerRank 0x44 .any (copyMsg s h ls)).recov with handover := some (copiedOn s h) } } := by
    rw [hls]
    rfl
  refine ⟨{ copyMsg s h ls with seq := q }, ⟨?_, ?_, ?_⟩, count, seqs, plus, minus, ?_⟩
  · exact count ▸ few
  · exact count ▸ most
  · refine (flatMap_lineBytes_length ls).trans ?_
    rw [length, ← count]
  · rw [packet, sent]
    rfl

/-- The copy cursor runs to the end of the last row. -/
theorem copyRun_ends : ∀ (fuel : Nat) {s : State} {h : Handover}, s.ports.lkp = true → s.recov.handover = some h →
    h.outgoing = true → h.finished = false → h.cursor < rowsY s * copyUnits (covLayout s) →
    rowsY s * copyUnits (covLayout s) - h.cursor ≤ fuel → ∃ ps : List RbMsg,
      copied s { h with cursor := rowsY s * copyUnits (covLayout s), finished := true } ps (copyRun (fun _ _ => true) fuel s) ∧
      (∀ p ∈ ps, FewLines p) ∧ (ps.map fun p => p.count.toNat).sum = rowsY s * copyUnits (covLayout s) - h.cursor
  | 0, _, _, _, _, _, _, hc, hf => absurd hf (by omega)
  | fuel + 1, s, h, hl, hh, ho, hn, hc, hf => by
    obtain ⟨total, htotal⟩ : ∃ total, total = rowsY s * copyUnits (covLayout s) := ⟨_, rfl⟩
    obtain ⟨p, few, count, one⟩ := copyPacket_copies hl h
    obtain ⟨least, -⟩ := packetLines_bounds s h
    have within := packetLines_within hc
    obtain ⟨t, ht⟩ : ∃ t, t = copyPacket s h := ⟨_, rfl⟩
    have run : copyRun (fun _ _ => true) (fuel + 1) s = copyRun (fun _ _ => true) fuel t := by
      rw [copyRun, hh]
      dsimp only
      rw [if_pos (by simp [ho, hn]), ht]
    rw [← ht, copiedOn, ← htotal] at one
    rw [← htotal] at hc hf within ⊢
    have kept : t.ports.lkp = true ∧ rowsY t * copyUnits (covLayout t) = total ∧ t.recov.handover =
        some { h with cursor := h.cursor + packetLines s h, finished := decide (total ≤ h.cursor + packetLines s h) } := by
      obtain ⟨seqs, plus, minus, he⟩ := one
      rw [he]
      exact ⟨hl, htotal.symm, rfl⟩
    obtain ⟨tl, ttotal, th⟩ := kept
    by_cases done : total ≤ h.cursor + packetLines s h
    · have at_ : h.cursor + packetLines s h = total := by omega
      rw [at_, decide_eq_true (Nat.le_refl total)] at one th
      have stays : copyRun (fun _ _ => true) fuel t = t := by
        cases fuel with
        | zero => rfl
        | succ n =>
          rw [copyRun, th]
          exact if_neg (by simp)
      refine ⟨[p], by rw [run, stays]; exact one, fun q hq => by rw [List.mem_singleton.1 hq]; exact few, ?_⟩
      rw [List.map_singleton, List.sum_singleton, count]
      omega
    · rw [decide_eq_false done] at one th
      obtain ⟨ps, rest, fews, sum⟩ := copyRun_ends fuel tl th ho rfl
        (by rw [ttotal]; exact Nat.lt_of_not_le done)
        (by rw [ttotal]; exact (by omega : total - (h.cursor + packetLines s h) ≤ fuel))
      rw [ttotal] at rest
      have left : (ps.map fun p => p.count.toNat).sum = total - (h.cursor + packetLines s h) := ttotal ▸ sum
      refine ⟨p :: ps, by rw [run]; exact copied_trans one rfl rest, fun q hq => ?_, ?_⟩
      · rcases List.mem_cons.1 hq with rfl | hq
        · exact few
        · exact fews q hq
      · rw [List.map_cons, List.sum_cons, left, count]
        omega

theorem copyRun_idle {go : State → Nat → Bool} {s : State} {h : Handover} (hh : s.recov.handover = some h)
    (hn : h.outgoing = false ∨ h.finished = true) (fuel : Nat) : copyRun go fuel s = s := by
  cases fuel with
  | zero => rfl
  | succ n =>
    rw [copyRun, hh]
    refine if_neg ?_
    rcases hn with hn | hn
    · simp [hn]
    · simp [hn]

/-! ### MOVE at its destination (R267) -/

theorem move_written {s : State} {m : RbMsg} {sh : Shadow} {r : Region} {v : Line} (hl : s.ports.lkp = true)
    (hw : s.power.season.get ≠ 2) (hs : s.recov.shadow = some sh) (hst : m.stale = false) (hn : m.count = 1)
    (hm : m.payload = lineBytes v) (hr : shadowRegion sh (moveRegion m) = some r) (hb : moveLine m < r.bays * 16384) :
    exec (.move m) s = .next { lineWritten s (regionLineAddr r (moveLine m)) v with recov := { s.recov with shadow := some { sh with
      got := sh.got.filter (fun g => !decide (g.1 = moveRegion m ∧ g.2.1 = moveLine m / 256)) ++
        [(moveRegion m, moveLine m / 256, addNew (moveLine m % 256) (gotLines sh (moveRegion m) (moveLine m / 256)))] } } } := by
  refine congrArg Host.Outcome.next ?_
  have one : m.count.toNat = 1 := by rw [hn]; rfl
  rw [vfIn_open hl hw, hs]
  dsimp only
  rw [hst, if_neg (by decide), if_neg (by rw [hn]; decide), payloadLines_one hm, one]
  show (match s.recov.shadow with
    | some q => takeMoveLine s q (moveRegion m) (moveLine m + 0) v
    | none => s) = _
  rw [hs]
  dsimp only
  rw [Nat.add_zero, takeMoveLine, hr]
  dsimp only
  rw [if_neg (Nat.not_le.2 hb)]
  simp only [onShadow, hs, Option.map_some]
  rfl

/-- Settles O45: what a target, a survivor and a handover do with their messages. -/
theorem targetsTakeWhatTheyAreSent : Obligations.TargetsTakeWhatTheyAreSent := by
  intro s hl hw
  refine ⟨fun m v hc hv hf ht hp hm => ⟨fun hpar hg hcov hst => ?_, fun l a hpar hcol hl16 ha => ⟨fun hb => ?_,
      fun hb hh ho hn _ => ?_⟩⟩,
    fun m q hr hs hm hb hq hc hv hn ⟨h, hh, hne⟩ => ?_, fun x q hb hr => ⟨fun ht => ⟨_, pieceReqRetry_early hb hr ht, rfl⟩,
      fun ht => ?_⟩,
    fun m c hc hv hown => ⟨fun ht => ?_, fun ht hp hd hb => ?_, fun hh ht hs hf hd hm ha => ?_, fun hh hidle => ?_⟩,
    fun m hh => ?_, fun m h v a hh ho hc hn hm hp hu ha => ?_, fun h hh ho hn hc => ?_, fun h hh hn => ?_, fun m hs => ?_,
    fun m sh r v hs hst hn hm hr hb _ => ?_⟩
  · obtain ⟨st, lands⟩ := landFinal_parity hm hpar hg hcov
    refine ⟨_, (part_lands hl hw hc hv hf ht hp).trans (congrArg _ lands), rfl, Mem.line_writeLine .., fun x hx => ?_⟩
    exact Mem.byte_writeLine_other _ _ _ hx
  · refine ⟨_, part_lands hl hw hc hv hf ht hp, ?_⟩
    rw [landFinal_data hm hpar hcol hl16, landLine_discarded v ha hb]
  · obtain ⟨line, bit, others⟩ := landed_reads (s := s) v ho
    have lands := (landFinal_data hm hpar hcol hl16).trans (landLine_lands v ha hb hh hn)
    refine ⟨_, (part_lands hl hw hc hv hf ht hp).trans (congrArg _ lands), rfl, line, bit, others, ?_, ?_⟩
    · rw [rowCheck_landed]
    · rw [rowCheck_landed]
  · refine ⟨_, congrArg Host.Outcome.next ?_, rfl⟩
    rw [vfIn_open hl hw, rbIn_own hc hv]
    exact takePiece_kept hr (by rw [hs, hm]; rfl) hb hq hn hh hne
  · obtain ⟨xs, ⟨seqs, plus, minus, sent⟩, length⟩ := askPieces_mails
      (s := { s with recov := { s.recov with reqs := [{ q with sentAt := s.time.gtc }] } }) hl q.bay q.line q.sel
    refine ⟨_, (pieceReqRetry_due hb hr ht).trans (congrArg _ sent), rfl, ?_⟩
    rw [mailed, List.length_append, length]
    rfl
  · refine ⟨s, congrArg Host.Outcome.next ?_, rfl⟩
    rw [vfIn_open hl hw, rbIn_own hc hv]
    exact if_neg fun h => ht h.1
  · obtain ⟨ps, ⟨seqs, plus, minus, sent⟩, each⟩ := sendArea_mails hl hown m.sender.toNat
    obtain ⟨payloads, depths, tides⟩ := fragments_of_mails each
    refine ⟨mailed s seqs plus minus _, congrArg Host.Outcome.next ?_, ps, rfl, rfl, payloads, depths, tides⟩
    rw [vfIn_open hl hw, rbIn_own hc hv, takeTmarkReq, if_pos ⟨ht, hp⟩, hd, hb]
    exact sent
  · refine ⟨_, (next_tmark hl hw hc hv hh).trans (congrArg _ (takeTmark_first hown ht hs hf hd hm ha)), rfl, ?_⟩
    exact sealedTide_of_halves rfl rfl
  · exact ⟨s, (next_tmark hl hw hc hv hh).trans (congrArg _ (takeTmark_idle m hidle)), rfl⟩
  · refine ⟨s, congrArg Host.Outcome.next ?_, rfl⟩
    rw [vfIn_open hl hw, hh]
  · exact ⟨_, mirror_written hl hw hh ho hc hn hm hp hu ha, rfl, Mem.line_writeLine .., fun x hx =>
      Mem.byte_writeLine_other _ _ _ hx⟩
  · obtain ⟨ps, ⟨seqs, plus, minus, ends⟩, fews, sum⟩ := copyRun_ends (rowsY s * copyUnits (covLayout s)) hl hh ho hn hc
      (Nat.sub_le ..)
    exact ⟨_, congrArg Host.Outcome.next ends, ps, rfl, fews, sum⟩
  · exact ⟨s, congrArg Host.Outcome.next (copyRun_idle hh hn _), rfl⟩
  · refine ⟨s, congrArg Host.Outcome.next ?_, rfl⟩
    rw [vfIn_open hl hw, hs]
  · exact ⟨_, move_written hl hw hs hst hn hm hr hb, _, rfl, rfl, Mem.line_writeLine .., fun x hx =>
      Mem.byte_writeLine_other _ _ _ hx⟩

end Sys2Proof.Machine
